-- ==== Sys2Proof/Word.lean ====
section
/-! DEFINITION. The words the manual numbers bits of (R11): 64-bit registers, bytes, 32-bit lanes; and the one
container of sparse state, a list of key and value pairs. -/

namespace Sys2Proof

/-- A 64-bit register or little-endian word (R11). -/
abbrev Word := BitVec 64

/-- A 32-bit lane, loop counter or FP32 code. -/
abbrev W32 := BitVec 32

/-- One byte of a memory. -/
abbrev Byte := BitVec 8

/-- Sparse state by key: keys strictly rising, no entry equal to what an unlisted key reads as
(Machine/Map.lean holds the operations and the form). -/
abbrev Map (α : Type) := List (Nat × α)

end Sys2Proof
end

