-- ==== Sys2Proof/Syntax.lean ====
section
/-! DEFINITION. The commands the module takes, one constructor for each row of spec/opcode_table.json, and the plain data
they carry. A tile-instruction command names the tile and the stream whose next instruction issues (the instruction itself
is fetched from instruction memory, R37 to R41); a completion names the operation in flight that completes; a host, link,
board or environment event carries what the outside world supplies. -/

namespace Sys2Proof

/-- The four sequencers of a tile (R36, R50): 0 F, 1 B, 2 U, 3 X. -/
inductive Strm where
  | f | b | u | x
deriving DecidableEq, Repr

/-- What goes wrong as a transfer moves (R202, R215, R217): nothing, bytes at a stack byte address whose on-die ECC corrects or cannot
correct from then on, interface parity on a pseudo-channel, or a block, by its index, whose bytes have changed when they land. -/
inductive HbmErr where
  | none
  | ce (stack addr : Nat)
  | ue (stack addr : Nat)
  | parity (stack pc : Nat)
  | landed (index : Nat)
deriving DecidableEq, Repr

/-- A flit whose mesh CRC mismatches (R443): the receiving router's tile and its input link (0 N, 1 S, 2 W, 3 E). -/
structure MeshErr where
  rtr : Nat
  lnk : Nat
deriving DecidableEq, Repr

/-- What the link did to one frame (R335, R361): the bytes that arrive changed, and whether a codeword with more changed bytes than it
corrects is taken for another one. -/
structure RxQuality where
  errs : List Nat
  mis : Bool
deriving DecidableEq, Repr

/-- A symbol (R352): code 1 to 8 and its 28-bit payload. -/
structure Sym where
  code : Nat
  pay : Nat
deriving DecidableEq, Repr

/-- A flit slot of a frame with its control word (R337). -/
structure Flit where
  vc : Nat
  head : Bool
  tail : Bool
  ronly : Bool
  units : Nat
  chunk : BitVec 48
  pay : List Byte
deriving DecidableEq, Repr

/-- A Llyn frame after FEC (R334, R336): its header fields and its slots. -/
structure Frame where
  seq : Nat
  ack : Nat
  nak : Bool
  rpl : Bool
  crJ0 : Nat
  crJ1 : Nat
  crSt : Nat
  sym : Option Sym
  flits : List Flit
deriving DecidableEq, Repr

/-- A Riendlink frame (R361): its header fields, laid out as R336, and the slot units in use. -/
structure RlFrame where
  seq : Nat
  ack : Nat
  nak : Bool
  rpl : Bool
  crJ0 : Nat
  crJ1 : Nat
  crSt : Nat
  units : List (List Byte)
deriving DecidableEq, Repr

/-- A block of the partner's stow that lands in the area this module hosts (R323 step 6): its slot (0 A, 1 B), the stow
point, the block's place in the slot, its bytes and the CRC it carries; `last` marks the slot's last block. -/
structure StowBlock where
  slot : Nat
  sstep : Nat
  blk : Nat
  data : List Byte
  crc : W32
  last : Bool
deriving DecidableEq, Repr

/-- What the partner's mover brings to the hosted area (R319, R323): a block of its stow; the start of a restore that is to be served; the end
of that restore, or of a stow that the partner gives up. -/
inductive StowArrival where
  | block (b : StowBlock)
  | serve
  | over
deriving DecidableEq, Repr

/-- How this member's stow ends at the partner (R323 step 6, R326, R447). -/
inductive StowEnd where
  | ok | noPort | mismatch | hbmUe
deriving DecidableEq, Repr

/-- A fault a margin sight finds (R454, R457): kind 0 a tile unit, 1 a cluster, 2 a combine unit, 3 a link loopback; the
tile, cluster or link; the unit code of R452. -/
structure SightFault where
  kind : Nat
  id : Nat
  unit : Nat
deriving DecidableEq, Repr

/-- The measured draws of one power-manager period (R420), in watts: fixed draw, the demands of links and memory, what the
links drew in the period that ends (R422), `model_C(n)` for n = 16 to 64, and the input power. -/
structure PowerSample where
  f : Nat
  dl : Nat
  dm : Nat
  lnk : Nat
  modelC : List Nat
  draw : Nat
deriving DecidableEq, Repr

/-- The temperatures, in °C, of the 16 compute dies, the 16 I/O dies and the 32 stacks (R430). -/
structure ThermalSample where
  dies : List Nat
  ios : List Nat
  stks : List Nat
deriving DecidableEq, Repr

/-- One telemetry sample (R400, R401). -/
structure TelemetrySample where
  mv : Nat
  cur10mA : Nat
  watts : Nat
  regW : List Nat
  regMv : List Nat
  temps : ThermalSample
deriving DecidableEq, Repr

/-- What `TILEPROG` holds for one tile (R391): instruction slots and register values by tile offset. -/
structure TileImg where
  tile : Nat
  im : Map Word
  regs : Map Word
deriving DecidableEq, Repr

/-- A window request (R391 `WINDOW`, R197). -/
structure WinReq where
  n : Nat
  mode : Nat
  region : Nat
  size : Nat
  tgt : Bool
  hcoh : Bool
  r : Bool
  w : Bool
  stow : Bool
deriving DecidableEq, Repr

/-- A patch entry (R393). -/
structure Patch where
  typ : Nat
  area : Nat
  width : Nat
  lsb : Nat
  unit : Nat
  off : Nat
deriving DecidableEq, Repr

/-- Where a cluster's tally backing lies (R281): in a tile's scratchpad at a row, or in the cluster store at a byte. -/
structure Backing where
  cluster : Nat
  inCs : Bool
  tile : Nat
  at_ : Nat
deriving DecidableEq, Repr

/-- A Jeryn image (R391): its bytes, and what the sections say whose layout the spec does not give. -/
structure Image where
  raw : List Byte
  tiles : List TileImg
  spInit : List (Nat × Nat × List Byte)
  csInit : List (Nat × Nat × List Byte)
  coef : List (Nat × Nat × List Word)
  queues : List (Nat × Nat × Word)
  tallies : List (Nat × Nat × W32 × W32)
  backing : List Backing
  toll : List (Nat × Nat)
  windows : List WinReq
  xlimit : Option Nat
  ringWait : Option Nat
  syncWdog : Option Nat
  stowIval : Nat
  permute : List (Nat × Nat × Bool)
  ballast : Nat
  sound : Word
  footprint : Nat
  allowed : Nat
deriving DecidableEq, Repr

/-- The sync tree the helm builds from the Llyn links (R230, R354): depth, this member's level, the parent's port and
module, the children's ports, modules and measured latencies; the most Llyn hops that an edge of the tree takes. -/
structure SyncTree where
  depth : Nat
  level : Nat
  parent : Option (Nat × Nat × Nat)
  children : List (Nat × Nat × Nat)
  hops : Nat
deriving DecidableEq, Repr

/-- What the helm reads from host memory and learns from the fabric for `JOB_LOAD` (R394, R354): the image, or none where
the read returned `ERR`; the member list; the host-window bases; the tree, or the member at which building it failed. -/
structure LoadEnv where
  img : Option Image
  members : List Nat
  bases : List Nat
  tree : Option SyncTree
  treeBad : Nat
deriving DecidableEq, Repr

/-- What the other members report for `JOB_START` (R397, R418): whether all agree (none: not all have reported), the least
allowed step among them, and the start time the root sends (ns; ignored at the root). -/
structure StartEnv where
  agree : Option Bool
  minA : Nat
  start : Nat
deriving DecidableEq, Repr

/-- What another member's helm sends along the sync tree: that a stream of the job is halted there, or none any more (R485), the tick of a
`RELEASE` of the job (R484), a pause or a halt that travels with this superstep's arrival wave (R398, R484), what came of the reports of
a `JOB_START` (R397), and the tick of another member's `JOB_RESUME` with the least allowed step (R398, R418). (DESIGN CHOICE, log 33) -/
inductive Notice where
  | halted
  | released
  | release (tick : Nat)
  | asked (pause halt : Bool)
  | start (e : StartEnv)
  | resume (tick minA : Nat)
deriving DecidableEq, Repr

/-- What the partner answers to `STOW_RESTORE` (R327): whether it is ready. -/
structure RestoreEnv where
  ready : Bool
deriving DecidableEq, Repr

/-- The commands: one constructor per row of spec/opcode_table.json. -/
inductive Instr where
  /-- `NOP` (R134): Control instruction that does nothing for one compute cycle. -/
  | nop (t : Nat) (q : Strm)
  /-- `BR` (R134): Branch: sets the PC to the target slot, with a two-cycle taken-branch bubble. -/
  | br (t : Nat) (q : Strm)
  /-- `CALL` (R134): Saves PC+1 in S31 and branches to the target slot. -/
  | call (t : Nat) (q : Strm)
  /-- `RET` (R134): Branches to the slot held in S31[12:0]. -/
  | ret (t : Nat) (q : Strm)
  /-- `BRI` (R134): Branches to the slot held in a scalar register. -/
  | bri (t : Nat) (q : Strm)
  /-- `MWAIT` (R53): Waits until every named mark count is zero, then issues. -/
  | mwait (t : Nat) (q : Strm)
  /-- `PWAIT` (R190): Waits until no named porter tag is in flight for the stream, then issues. -/
  | pwait (t : Nat) (q : Strm)
  /-- `SYNC` (R136): Issues once the stream's array, vector and outbound operations have completed, and ends the stream's compute phase. -/
  | sync (t : Nat) (q : Strm)
  /-- `BRK` (R137): Breakpoint instruction that halts the stream and raises a debug event carrying CODE, or acts as NOP while breakpoints are disabled. -/
  | brk (t : Nat) (q : Strm)
  /-- `ADD` (R138): Scalar addition modulo 2^64. -/
  | add (t : Nat) (q : Strm)
  /-- `SUB` (R138): Scalar subtraction modulo 2^64. -/
  | sub (t : Nat) (q : Strm)
  /-- `AND` (R138): Scalar bitwise AND. -/
  | and_ (t : Nat) (q : Strm)
  /-- `OR` (R138): Scalar bitwise OR. -/
  | or_ (t : Nat) (q : Strm)
  /-- `XOR` (R138): Scalar bitwise XOR. -/
  | xor (t : Nat) (q : Strm)
  /-- `SHL` (R138): Scalar shift left by Sb[5:0]. -/
  | shl (t : Nat) (q : Strm)
  /-- `SHR` (R138): Scalar logical shift right by Sb[5:0]. -/
  | shr (t : Nat) (q : Strm)
  /-- `SAR` (R138): Scalar arithmetic shift right by Sb[5:0]. -/
  | sar (t : Nat) (q : Strm)
  /-- `MUL` (R138): Low 64 bits of a scalar product. -/
  | mul (t : Nat) (q : Strm)
  /-- `MIN` (R138): Signed scalar minimum. -/
  | min_ (t : Nat) (q : Strm)
  /-- `MAX` (R138): Signed scalar maximum. -/
  | max_ (t : Nat) (q : Strm)
  /-- `ADDI` (R138): Adds a sign-extended immediate to a scalar register. -/
  | addi (t : Nat) (q : Strm)
  /-- `LI` (R138): Loads a sign-extended immediate into a scalar register. -/
  | li (t : Nat) (q : Strm)
  /-- `LIH` (R138): Loads an immediate into the upper 32 bits of a scalar register and keeps the low half. -/
  | lih (t : Nat) (q : Strm)
  /-- `MOVX` (R139): Reads TID, SSTEP, EPOCH or NORM into a scalar register. -/
  | movx (t : Nat) (q : Strm)
  /-- `CMP` (R140): Sets a predicate from a condition on two scalar registers. -/
  | cmp (t : Nat) (q : Strm)
  /-- `CMPI` (R140): Sets a predicate from a condition on a scalar register and an immediate. -/
  | cmpi (t : Nat) (q : Strm)
  /-- `PLOG` (R138): Combines two predicates by AND, OR, XOR or ANDN. -/
  | plog (t : Nat) (q : Strm)
  /-- `AMOV` (R138): Copies a scalar register into an address register. -/
  | amov (t : Nat) (q : Strm)
  /-- `AADDI` (R138): Adds an immediate to an address register. -/
  | aaddi (t : Nat) (q : Strm)
  /-- `ARD` (R138): Copies an address register into a scalar register. -/
  | ard (t : Nat) (q : Strm)
  /-- `LDS` (R138): Loads 8 bytes of a scratchpad row into a scalar register through the narrow scalar port. -/
  | lds (t : Nat) (q : Strm)
  /-- `STS` (R141): Reads a scratchpad row and writes it back B+1 cycles later with 8 bytes replaced. -/
  | sts (t : Nat) (q : Strm)
  /-- `VADD` (R142): Vector FP32 addition over N rows. -/
  | vadd (t : Nat) (q : Strm)
  /-- `VMUL` (R142): Vector FP32 multiplication over N rows. -/
  | vmul (t : Nat) (q : Strm)
  /-- `VFMA` (R142): Vector fused multiply-add over N rows, rounded once. -/
  | vfma (t : Nat) (q : Strm)
  /-- `VMIN` (R93): Vector minimumNumber over N rows. -/
  | vmin (t : Nat) (q : Strm)
  /-- `VMAX` (R93): Vector maximumNumber over N rows. -/
  | vmax (t : Nat) (q : Strm)
  /-- `VSFMA` (R142): Vector multiply by a scalar FP32 value plus a row. -/
  | vsfma (t : Nat) (q : Strm)
  /-- `VEXP2` (R94): Vector correctly rounded exp2, at quarter rate. -/
  | vexp2 (t : Nat) (q : Strm)
  /-- `VLOG2` (R94): Vector correctly rounded log2, at quarter rate. -/
  | vlog2 (t : Nat) (q : Strm)
  /-- `VRSQRT` (R94): Vector correctly rounded reciprocal square root, at quarter rate. -/
  | vrsqrt (t : Nat) (q : Strm)
  /-- `VRECIP` (R94): Vector correctly rounded reciprocal, at quarter rate. -/
  | vrecip (t : Nat) (q : Strm)
  /-- `VCVT` (R144): Converts N x 128 elements from format FI to format FO with one rounding. -/
  | vcvt (t : Nat) (q : Strm)
  /-- `VRSUM` (R145): Sums all lanes of all rows in a fixed tree into a scalar register. -/
  | vrsum (t : Nat) (q : Strm)
  /-- `VRMAX` (R145): Takes the maximum of all lanes of all rows into a scalar register. -/
  | vrmax (t : Nat) (q : Strm)
  /-- `VCPY` (R142): Copies rows bit for bit. -/
  | vcpy (t : Nat) (q : Strm)
  /-- `VECTOR_OP_COMPLETE` (R162): A vector or update-engine operation writes its last row; its mark decreases and its in-flight slot frees. -/
  | vectorOpComplete (t : Nat)
  /-- `ALD` (R104): Queues a load of a 64x64 stationary block into a stationary buffer. -/
  | ald (t : Nat) (q : Strm)
  /-- `AMAC` (R106): Queues a stream of N operand vectors to be accumulated into AM rows against a stationary buffer. -/
  | amac (t : Nat) (q : Strm)
  /-- `APRE_ZERO` (R111): Queues a preload that zeroes N AM rows. -/
  | apreZero (t : Nat) (q : Strm)
  /-- `APRE_BIAS` (R111): Queues a preload that writes one half-row of values into each of N AM rows. -/
  | apreBias (t : Nat) (q : Strm)
  /-- `APRE_RESID` (R111): Queues a preload that copies N vectors into N AM rows. -/
  | apreResid (t : Nat) (q : Strm)
  /-- `ADRN` (R112): Queues a drain of N AM rows to scratchpad with conversion and optional CLR, SQ and SEAL side outputs. -/
  | adrn (t : Nat) (q : Strm)
  /-- `TOLL_GRANT` (R58): The array-queue head requests its toll weight from the cluster and, once the units are granted, starts in the next cycle. -/
  | tollGrant (t : Nat)
  /-- `ARRAY_OP_COMPLETE` (R123): An array operation completes: its mark decreases, its toll units free, and the drain's SSQ and seal outputs are final. -/
  | arrayOpComplete (t i : Nat)
  /-- `PORT` (R148): Reads and checks a porter descriptor, takes its tag and starts the transfer. -/
  | port (t : Nat) (q : Strm)
  /-- `PORTER_COMPLETE` (R189): A porter transfer completes after its last landing or store acceptance and its checks, and frees its tag. -/
  | porterComplete (t tag : Nat) (e : HbmErr)
  /-- `CLD` (R149): Requests a copy of N cluster-store rows into the scratchpad. -/
  | cld (t : Nat) (q : Strm)
  /-- `CST` (R149): Requests a copy of N scratchpad rows into the cluster store. -/
  | cst (t : Nat) (q : Strm)
  /-- `CS_REQUEST_ACCEPT` (R180): The cluster arbiter accepts a waiting tile-side request into a channel and the range scoreboard. -/
  | csRequestAccept (c : Nat)
  /-- `CS_ACCESS_COMPLETE` (R179): A tile-side cluster-store access completes 10+N cycles after acceptance and releases its scoreboard entry. -/
  | csAccessComplete (c i : Nat)
  /-- `ULD` (R150): Issues a 64-byte uniform-mode read, subject to the rate shaper. -/
  | uld (t : Nat) (q : Strm)
  /-- `UST` (R150): Issues a 64-byte uniform-mode write, subject to the rate shaper. -/
  | ust (t : Nat) (q : Strm)
  /-- `UNIFORM_CHANNEL_ACCEPT` (R186): The target cluster's uniform channel accepts a uniform access once no scoreboard conflict remains. -/
  | uniformChannelAccept (t i : Nat)
  /-- `UNIFORM_COMPLETE` (R34): A uniform access completes exactly 653 exchange cycles after issue, or 16k cycles later if it is late. -/
  | uniformComplete (t i k : Nat)
  /-- `TADD` (R151): Issues an immediate addition to a tally of the tile's cluster. -/
  | tadd (t : Nat) (q : Strm)
  /-- `TADDR` (R151): Issues a register-valued addition to a tally of the tile's cluster. -/
  | taddr (t : Nat) (q : Strm)
  /-- `TALLY_ADD_APPLY` (R153): A tally addition is applied at the cluster once the tile's earlier cluster-store accesses have been accepted. -/
  | tallyAddApply (t : Nat)
  /-- `TWAIT` (R152): Waits until the cluster grants the tally threshold, then subtracts it unless K=1. -/
  | twait (t : Nat) (q : Strm)
  /-- `TRD` (R151): Reads a tally count into a scalar register. -/
  | trd (t : Nat) (q : Strm)
  /-- `QSEND` (R154): Checks a message header in the scratchpad and sends the message. -/
  | qsend (t : Nat) (q : Strm)
  /-- `QSENDS` (R154): Sends a 32-byte message built from four scalar registers. -/
  | qsends (t : Nat) (q : Strm)
  /-- `SEND_COMPLETE` (R54): An outbound message or exchange send completes when its last flit leaves the exchange port. -/
  | sendComplete (t : Nat)
  /-- `QHEAD` (R267): Pops 8 bytes from a queue head, waiting while the queue is empty. -/
  | qhead (t : Nat) (q : Strm)
  /-- `QLEN` (R268): Returns a queue's instantaneous occupancy. -/
  | qlen (t : Nat) (q : Strm)
  /-- `QCTL_OPEN` (R274): Opens a queue to arrivals. -/
  | qctlOpen (t : Nat) (q : Strm)
  /-- `QCTL_CLOSE` (R274): Closes a queue to arrivals and keeps its contents. -/
  | qctlClose (t : Nat) (q : Strm)
  /-- `QCTL_RESET` (R274): Resets a queue's offsets to zero, discards its contents and leaves it closed. -/
  | qctlReset (t : Nat) (q : Strm)
  /-- `UPD` (R289): Starts the update recurrence over N blocks once earlier vector operations have completed, after checking its coefficient row. -/
  | upd (t : Nat) (q : Strm)
  /-- `CTW` (R157): Copies 64 bytes from the scratchpad into a coefficient row. -/
  | ctw (t : Nat) (q : Strm)
  /-- `CTR` (R157): Copies a coefficient row into the scratchpad. -/
  | ctr (t : Nat) (q : Strm)
  /-- `XSEND` (R237): Sends N rows as exchange packets by a route entry. -/
  | xsend (t : Nat)
  /-- `XRSEND` (R243): Sends N rows as reduce contributions to a meet. -/
  | xrsend (t : Nat)
  /-- `XNORM` (R248): Reads and clears TILE_SSQ and sends its sum as a one-flit norm contribution. -/
  | xnorm (t : Nat)
  /-- `XSETL` (R158): Sets an X loop counter. -/
  | xsetl (t : Nat)
  /-- `XLOOP` (R158): Decrements a nonzero loop counter and branches, or falls through. -/
  | xloop (t : Nat)
  /-- `XEND` (R161): Ends X's part of the exchange phase once earlier sends have left. -/
  | xend (t : Nat)
  /-- `XBR` (R158): X unconditional branch. -/
  | xbr (t : Nat)
  /-- `XNOP` (R158): X no-op. -/
  | xnop (t : Nat)
  /-- `XWAIT` (R158): Waits until every earlier X send has left the exchange port. -/
  | xwait (t : Nat)
  /-- `STALE_FETCH_REPORT` (R501): The controller's report of a changed block write count on the first read of a landed row raises HAZARD. -/
  | staleFetchReport (t row : Nat)
  /-- `ARRIVAL_WAVE_RELEASE` (R225): Once every tile on every member has arrived, the sync network releases every tile into the exchange phase. -/
  | arrivalWaveRelease
  /-- `EXCHANGE_LANDING` (R237): An exchange packet lands its row at each destination tile, with its block CRC checked and XRECV counted. -/
  | exchangeLanding (i : Nat) (e : Option MeshErr)
  /-- `REMOTE_PACKET_INGRESS` (R236): A packet from another member enters at an edge router and is checked against R30. -/
  | remotePacketIngress (p : Nat)
  /-- `TRANSIT_PACKET` (R351): A packet for another module crosses this module from ingress to egress port, waiting if a region is asleep. -/
  | transitPacket (p : Nat)
  /-- `CONTRIBUTION_ARRIVAL` (R245): A reduce contribution arrives at a combine unit and is added in CIX order once all lower CIXs are added. -/
  | contributionArrival (i : Nat)
  /-- `MEET_RESULT_OUTPUT` (R247): A meet result leaves the combine unit to land, be forwarded or be delivered as a norm. -/
  | meetResultOutput (t e rix : Nat)
  /-- `NORM_DELIVERY` (R301): A norm delivery writes NORM.SUM and NSTEP at a tile. -/
  | normDelivery (i : Nat)
  /-- `DONE_WAVE_RELEASE` (R225): Once every tile reports part complete, the exchange phase ends and SSTEP increases on every tile. -/
  | doneWaveRelease
  /-- `BALLAST_RAMP_STEP` (R434): Every S/64, the ramp engine lowers or raises each tile's ballast duty by one sixty-fourth. -/
  | ballastRampStep (r : Nat)
  /-- `BALLAST_QUANTUM` (R451): A tile runs one quantum of its ballast slice after arrival and checks the results. -/
  | ballastQuantum (t : Nat) (bad : Option Nat)
  /-- `OVERRUN_LIMIT_EXPIRY` (R255): The exchange overrun limit elapses before a tile's part completes, which raises OVERRUN. -/
  | overrunLimitExpiry (t : Nat)
  /-- `MESSAGE_ARRIVAL` (R269): A message fully arrives in the inbound buffer and is resolved under R271 or waits for room. -/
  | messageArrival (i : Nat)
  /-- `MESSAGE_ACCEPT` (R269): A waiting message is accepted once the ring's free space suffices. -/
  | messageAccept (t : Nat)
  /-- `MESSAGE_VISIBLE` (R266): A message becomes visible when its last byte has been written into the ring. -/
  | messageVisible (t : Nat)
  /-- `RETURN_SLIP_SEND` (R275): The destination queue unit sends a return slip with the resolution status. -/
  | returnSlipSend (t : Nat)
  /-- `RING_WAIT_EXPIRY` (R272): A message waits past the ring wait limit, is discarded and raises RING. -/
  | ringWaitExpiry (t : Nat)
  /-- `SYNC_WDOG_EXPIRY` (R285): A timed wait reaches the sync watchdog limit and raises a module job fault. -/
  | syncWdogExpiry (t kind : Nat) (q : Strm)
  /-- `STOW_FREEZE_START` (R323): At a stow point, once traffic has drained, the member invalidates the target slot and freezes into its local buffer. -/
  | stowFreezeStart
  /-- `STOW_FREEZE_DONE` (R323): The freeze ends, the tiles return to COMPUTE and the mover starts sending. -/
  | stowFreezeDone
  /-- `STOW_BLOCK_LANDING` (R323): A stow block lands and is checked at the partner. -/
  | stowBlockLanding (b : StowArrival)
  /-- `STOW_COMPLETE` (R323): The partner confirms the stow, and the slot becomes valid with its stow point. -/
  | stowComplete (res : StowEnd)
  /-- `RESTORE_COMPLETE` (R327): The restored slot has landed and been loaded, and the job is left PAUSED. -/
  | restoreComplete (ok : Bool)
  /-- `DEV_INFO` (R389): Returns identity, version, module ID, fence counts and fuse level. -/
  | devInfo (k : Nat)
  /-- `READY_QUERY` (R389): Returns the per-function ready map. -/
  | readyQuery (k : Nat)
  /-- `JOB_LOAD` (R396): Checks, relocates, patches and loads a Jeryn image, leaving used tiles LOADED. -/
  | jobLoad (k : Nat) (env : LoadEnv)
  /-- `JOB_START` (R397): Collects member reports and agreement, then schedules a common start tick. -/
  | jobStart (k : Nat) (env : StartEnv)
  /-- `JOB_START_TICK` (R397): At the agreed tick, every tile of the job enters COMPUTE. -/
  | jobStartTick
  /-- `JOB_START_TIMEOUT` (R397): The JOB_START time limit elapses and the command completes TIMEOUT. -/
  | jobStartTimeout
  /-- `JOB_PAUSE` (R398): Requests that every member pause after the next eligible done wave. -/
  | jobPause (k : Nat)
  /-- `JOB_RESUME` (R398): Schedules a common resume tick for every member. -/
  | jobResume (k minA : Nat)
  /-- `JOB_RESUME_TICK` (R398): At the agreed tick, every tile of the paused job resumes. -/
  | jobResumeTick
  /-- `JOB_ABORT_STOP` (R399): JOB_ABORT with MODE 0 stops the job as a job fault with cause ABORT. -/
  | jobAbortStop (k : Nat)
  /-- `JOB_ABORT_UNLOAD` (R399): JOB_ABORT with MODE 1 stops the job if it is running, performs a job reset and unloads it. -/
  | jobAbortUnload (k : Nat)
  /-- `JOB_STATUS` (R390): Returns job state, superstep, primary cause and stow status. -/
  | jobStatus (k : Nat)
  /-- `STOW_CONFIG` (R318): Configures and agrees mutual stow pairing with the partner and reserves the hosted area. -/
  | stowConfig (k : Nat) (agree : Option Bool)
  /-- `STOW_RESTORE` (R327): Performs a job reset and has the partner send back a stow slot. -/
  | stowRestore (k : Nat) (env : RestoreEnv)
  /-- `CAP_SET` (R406): Sets the host power cap and the thermal target. -/
  | capSet (k : Nat)
  /-- `TELEMETRY_READ` (R401): Returns a module or region telemetry record. -/
  | telemetryRead (k : Nat)
  /-- `LEDGER_READ` (R389): Returns job and total energy from the ledger. -/
  | ledgerRead (k : Nat)
  /-- `THROTTLE_READ` (R436): Returns throttle-reason durations and the active mask. -/
  | throttleRead (k : Nat)
  /-- `FENCE_QUERY` (R389): Returns a chunk of the fence map for tiles, clusters, routers or links. -/
  | fenceQuery (k : Nat)
  /-- `SIGHT_SCHEDULE` (R455): Sets the margin-sight schedule and returns the last sight's outcome. -/
  | sightSchedule (k : Nat)
  /-- `FIX_ARM` (R494): Arms fix triggers, optionally discarding a held fix. -/
  | fixArm (k : Nat)
  /-- `FIX_READ` (R498): Returns words of a latched fix record and optionally marks it read. -/
  | fixRead (k : Nat)
  /-- `FW_STAGE` (R511): Verifies a firmware package and writes it into the inactive bank. -/
  | fwStage (k : Nat) (pkg : Option (List Byte))
  /-- `FW_ACTIVATE` (R403): Restarts the helm on the staged bank and optionally raises the fuse level. -/
  | fwActivate (k : Nat)
  /-- `ATTEST` (R518): Writes a signed attestation report to a host buffer. -/
  | attest (k : Nat)
  /-- `LINK_CONFIG` (R348): Sets the module and fabric IDs, port enables, datelines, groups and routing table. -/
  | linkConfig (k : Nat) (table : List Byte)
  /-- `CHRONO_ALIGN_STEP` (R389): CHRONO_ALIGN with MODE 0 steps the chronometer to a target at the next tick. -/
  | chronoAlignStep (k : Nat)
  /-- `CHRONO_ALIGN_READ` (R389): CHRONO_ALIGN with MODE 1 only reads the chronometer. -/
  | chronoAlignRead (k : Nat)
  /-- `REGION_SLEEP` (R389): Stops the clocks of the named regions and places their stacks in self-refresh. -/
  | regionSleep (k : Nat)
  /-- `REGION_OFF` (R389): REGION_SLEEP with OFF set power-gates the named regions and loses their SRAM. -/
  | regionOff (k : Nat)
  /-- `REGION_WAKE` (R415): Wakes the named regions and completes when they are ready. -/
  | regionWake (k : Nat)
  /-- `DEBUG_TUNNEL` (R481): Carries a Sextant command through the mailbox. -/
  | debugTunnel (k : Nat) (buf : List Word)
  /-- `DEV_MBX_DB` (R379): A write of CTAIL rings the doorbell of a mailbox page, and the helm takes its commands in order. -/
  | devMbxDb (k : Nat) (v : Word)
  /-- `DEV_MBX_CQ` (R382): A write of CQH frees completion slots so held completions can be posted. -/
  | devMbxCq (k : Nat) (v : Word)
  /-- `HELM_WATCHDOG_EXPIRY` (R404): The 100 ms helm watchdog expires and restarts the helm, aborting commands in progress. -/
  | helmWatchdogExpiry
  /-- `HELM_RESTART_DONE` (R403): The restarted helm runs, posts the pending completion and a HELM event, and raises vector 68. -/
  | helmRestartDone (ok : Bool)
  /-- `HELM_FLASH_WRITE` (R457): The helm writes service hours and fence evidence to configuration flash at least once per minute. -/
  | helmFlashWrite
  /-- `MARGIN_SIGHT` (R455): A due margin sight starts at its first opportunity and runs known-answer work under stress. -/
  | marginSight
  /-- `SIGHT_END` (R456): A margin sight ends, records its outcome and posts a SIGHT event. -/
  | sightEnd (found : List SightFault)
  /-- `SMB_DEV_INFO` (R405): SMBus code 0x00 block read of DEV_INFO word 1. -/
  | smbDevInfo
  /-- `SMB_HELM_VER` (R405): SMBus code 0x01 read of the firmware version. -/
  | smbHelmVer
  /-- `SMB_READY` (R405): SMBus code 0x02 read of the READY summary. -/
  | smbReady
  /-- `SMB_INPUT_MV` (R405): SMBus code 0x03 read of the input voltage. -/
  | smbInputMv
  /-- `SMB_INPUT_CURRENT` (R405): SMBus code 0x04 read of the input current. -/
  | smbInputCurrent
  /-- `SMB_INPUT_POWER` (R405): SMBus code 0x05 read of the input power. -/
  | smbInputPower
  /-- `SMB_HOTTEST_DIE` (R405): SMBus code 0x06 read of the hottest die temperature. -/
  | smbHottestDie
  /-- `SMB_HOTTEST_STACK` (R405): SMBus code 0x07 read of the hottest stack temperature. -/
  | smbHottestStack
  /-- `SMB_THROTTLE` (R405): SMBus code 0x08 read of the active throttle mask. -/
  | smbThrottle
  /-- `SMB_CAP_READ` (R405): SMBus code 0x09 read of the SMBus cap. -/
  | smbCapRead
  /-- `SMB_CAP_WRITE` (R406): SMBus code 0x09 write of the SMBus cap, ignored if it is out of range. -/
  | smbCapWrite (v : BitVec 16)
  /-- `SMB_CAP_IN_FORCE` (R405): SMBus code 0x0A read of the cap in force. -/
  | smbCapInForce
  /-- `SMB_THERMAL_TARGET` (R405): SMBus code 0x0B read of the thermal target. -/
  | smbThermalTarget
  /-- `SMB_ALERTS_READ` (R405): SMBus code 0x0C read of the alert bits. -/
  | smbAlertsRead
  /-- `SMB_ALERTS_CLEAR` (R536): SMBus code 0x0C W1C write clears alert bits and may release ALERT_L. -/
  | smbAlertsClear (v : BitVec 16)
  /-- `SMB_CHRONO` (R405): SMBus code 0x0D block read of the chronometer. -/
  | smbChrono
  /-- `SMB_MODID` (R405): SMBus code 0x0E read of DEV_MODID. -/
  | smbModid
  /-- `SMB_ENERGY` (R405): SMBus code 0x0F block read of energy since power-on. -/
  | smbEnergy
  /-- `HALT` (R484): Sextant command that stops issue at stream, tile, module or job scope. -/
  | halt (scope unit : Nat) (q : Strm)
  /-- `RELEASE` (R484): Sextant command that resumes issue in its scope. -/
  | release (scope unit : Nat) (q : Strm)
  /-- `STEP` (R486): Sextant command that issues one instruction per halted stream, or runs one superstep at job scope. -/
  | step (scope unit : Nat) (q : Strm)
  /-- `STATUS` (R482): Sextant command that returns tile or job state and debug status. -/
  | status (scope unit : Nat)
  /-- `EVENT` (R482): Sextant command that raises a debug event at a tile. -/
  | event (unit : Nat)
  /-- `READ` (R483): Sextant command that reads LEN bytes from a memory space. -/
  | read (space unit addr len : Nat)
  /-- `WRITE` (R483): Sextant command that writes LEN bytes into a memory space and may set WROTE. -/
  | write (space unit addr len : Nat) (data : List Word)
  /-- `HALT_NOTICE` (R485): A halt or release notice from another member's helm suspends or resumes the job's limits. -/
  | haltNotice (m : Nat) (on : Notice)
  /-- `FIX_TIME_TRIGGER` (R494): An armed time trigger fires at its tick. -/
  | fixTimeTrigger
  /-- `FIX_TRIG_EDGE` (R497): A falling edge on FIX_TRIG triggers a fix latch. -/
  | fixTrigEdge
  /-- `FIX_LATCH` (R495): At the latch tick the member latches its fix registers without stopping anything. -/
  | fixLatch
  /-- `FIX_COPY_DONE` (R498): The helm has copied the fix records and raises vector 67. -/
  | fixCopyDone
  /-- `ARRIVE` (R352): Arrival-wave symbol carrying a subtree's lowest allowed step arrives on a link. -/
  | arrive (p dmod smod n : Nat)
  /-- `GO` (R352): Arrival-wave release symbol carrying the agreed step arrives on a link. -/
  | go (p dmod smod n : Nat)
  /-- `PART` (R352): Done-wave part-complete symbol arrives on a link. -/
  | part (p dmod smod : Nat)
  /-- `DONE` (R352): Done-wave release symbol arrives on a link. -/
  | done (p dmod smod : Nat)
  /-- `STOP` (R449): A job-stop symbol arrives and stops the member, which records REMOTE and forwards it. -/
  | stop (p dmod smod code : Nat)
  /-- `FIX` (R496): A FIX symbol arrives and sets the latch tick, or latches late. -/
  | fix (p dmod tick : Nat) (fault : Bool)
  /-- `ALIGN` (R355): An ALIGN stamp arrives and updates the link delay and chronometer offset. -/
  | align (p : Nat) (recv rpl : Bool) (stamp : Nat)
  /-- `LINK` (R346): A LINK identification symbol arrives during PARAM and is checked. -/
  | link (p idx val : Nat)
  /-- `SYMBOL_HOLD_RELEASE` (R354): A held wave symbol is released 350 ns after it was sent. -/
  | symbolHoldRelease (i : Nat)
  /-- `ALIGN_EXCHANGE_TIMER` (R355): Every 1 ms an UP port sends ALIGN stamps. -/
  | alignExchangeTimer (p : Nat)
  /-- `LLYN_FRAME_RECEIVE` (R342): A Llyn frame is received, corrected, checked and accepted or discarded with NAK and replay. -/
  | llynFrameReceive (p : Nat) (fr : Frame) (q : RxQuality)
  /-- `FRAME_LOCK_LOSS` (R343): Loss of frame lock for 1 µs starts a retrain. -/
  | frameLockLoss (p : Nat)
  /-- `LLYN_RETRAIN_DONE` (R343): A retrain completes, and traffic resumes by replay. -/
  | llynRetrainDone (p : Nat)
  /-- `LLYN_RETRAIN_TIMEOUT` (R343): A retrain not done within 2 ms takes the port DOWN. -/
  | llynRetrainTimeout (p : Nat)
  /-- `LLYN_DETECT_POLL` (R345): A port in DETECT polls every 10 ms for far-end termination. -/
  | llynDetectPoll (p : Nat) (seen : Bool)
  /-- `LLYN_TRAIN_LOCK` (R345): Frame lock on all 8 lanes moves a port from TRAIN to PARAM. -/
  | llynTrainLock (p : Nat)
  /-- `LLYN_TRAIN_RETRY` (R343): A DOWN enabled port attempts full training every 100 ms. -/
  | llynTrainRetry (p : Nat)
  /-- `RL_FRAME_RECEIVE` (R362): A Riendlink frame is received, checked, and accepted or replayed. -/
  | rlFrameReceive (fr : RlFrame) (q : RxQuality)
  /-- `RL_RETRAIN_TIMEOUT` (R362): A Riendlink retrain not done in 1 ms takes the link DOWN with the effects of R374. -/
  | rlRetrainTimeout
  /-- `RL_TRAIN_RETRY` (R362): A DOWN Riendlink attempts full training every 100 ms. -/
  | rlTrainRetry
  /-- `RDS` (R368): Host reads a coherent-window line shared. -/
  | rds (id addr : Nat)
  /-- `RDO` (R368): Host reads a coherent-window line owned. -/
  | rdo (id addr : Nat)
  /-- `RDNC` (R367): Host uncached read of a line or a register. -/
  | rdnc (id addr len : Nat)
  /-- `WRLINE` (R367): Host writes a whole line, invalidating its block check value in the coherent window. -/
  | wrline (id addr : Nat) (data : List Byte)
  /-- `WRPART` (R367): Host masked write of 1-64 bytes, including register and mailbox writes. -/
  | wrpart (id addr : Nat) (mask : Word) (data : List Byte)
  /-- `EVICT` (R367): Host drops a clean line from the snoop filter. -/
  | evict (id addr : Nat)
  /-- `CFGRD` (R364): Host reads 8 bytes of configuration space. -/
  | cfgrd (id off : Nat)
  /-- `CFGWR` (R364): Host writes 8 bytes of configuration space. -/
  | cfgwr (id off : Nat) (v : Word)
  /-- `INVACK` (R219): Host acknowledges a BINV, returning data if the line was modified. -/
  | invack (line : Nat) (data : Option (List Byte))
  /-- `HRD_RESPONSE` (R369): Host answers a porter read of host memory. -/
  | hrdResponse (t tag addr : Nat) (err : Bool) (data : List Byte)
  /-- `HWR_COMPLETION` (R369): Host acknowledges a porter write of host memory. -/
  | hwrCompletion (t tag addr : Nat) (err : Bool)
  /-- `RL_HCW_REQUEST` (R366): A write of RL_HCW.REQ_GIB requests a coherent-window resize, applied only with no job or stow active. -/
  | rlHcwRequest (v : Word)
  /-- `RL_MSI_WRITE` (R372): A write to an interrupt entry, and an unmask sends a pending MSI. -/
  | rlMsiWrite (v w : Nat) (x : Word)
  /-- `HBM_SELF_REFRESH_IDLE` (R218): A stack returns to self-refresh after 100 µs without requests. -/
  | hbmSelfRefreshIdle (k : Nat)
  /-- `POWER_MANAGER_PERIOD` (R420): Every 100 µs the power manager shares the cap, recomputes the allowed step and applies the running step. -/
  | powerManagerPeriod (m : PowerSample)
  /-- `CURRENT_LIMITER_SAMPLE` (R426): The current limiter samples input current and adjusts current_step. -/
  | currentLimiterSample (avg : Nat)
  /-- `DROOP_DETECT` (R427): A supply droop starts a stretch that halves the die's compute rate. -/
  | droopDetect (r : Nat)
  /-- `DROOP_STRETCH_END` (R427): A droop stretch ends once both its minimum length and the supply recovery delay have elapsed. -/
  | droopStretchEnd (r : Nat)
  /-- `STEP_DEFER_EXPIRY` (R428): A deferred step change is applied 1 µs after a stretch ends. -/
  | stepDeferExpiry (r : Nat)
  /-- `UV_CLAMP` (R429): Input falling below 46.0 V clamps the step to 16 and pauses porters. -/
  | uvClamp (mv : Nat)
  /-- `UV_RELEASE` (R429): Input above 47.0 V for 1 ms releases the clamp. -/
  | uvRelease (mv : Nat)
  /-- `BROWNOUT` (R429): Input below 42.0 V or above 62.0 V removes power outside the always-on domain. -/
  | brownout (mv : Nat)
  /-- `BROWNOUT_RECOVERY` (R429): Input within range for 10 ms restarts the module as after power-on, with BROWNOUT set. -/
  | brownoutRecovery (mv : Nat)
  /-- `ISLANDS_STOP` (R429): Input below 36.0 V stops the always-on islands. -/
  | islandsStop (mv : Nat)
  /-- `POWER_ON` (R475): Input rising through 36.0 V starts bring-up. -/
  | powerOn (mv slot : Nat)
  /-- `THERMAL_CONTROL_PERIOD` (R430): Every 1 ms thermal_step is adjusted against the thermal target. -/
  | thermalControlPeriod (m : ThermalSample)
  /-- `THERMAL_TRIP` (R431): A die or stack reaching its trip temperature stops clocks, latches fix and faults the job. -/
  | thermalTrip (kind idx temp : Nat)
  /-- `DEV_PWR_STAT_TRIP_CLEAR` (R432): A W1C write of TRIP clears the trip latch only once every die and stack has cooled below its threshold. -/
  | devPwrStatTripClear
  /-- `TELEMETRY_SAMPLE` (R400): The always-on island samples telemetry every 1 ms. -/
  | telemetrySample (m : TelemetrySample)
  /-- `LEDGER_ACCUMULATE` (R438): Every 10 µs the islands add modelled energy to each ledger account. -/
  | ledgerAccumulate (acts : List Nat)
  /-- `LEDGER_REFIT` (R438): Every 1 s the helm refits ledger coefficients against measured power. -/
  | ledgerRefit (coefs : List Nat)
  /-- `DEEP_IDLE_REQUEST` (R414): DEV_PWR_CTL.REQ = 1 enters deep idle when allowed. -/
  | deepIdleRequest
  /-- `ALWAYS_ON_ONLY_REQUEST` (R414): DEV_PWR_CTL.REQ = 2 enters always-on-only when allowed. -/
  | alwaysOnOnlyRequest
  /-- `POWER_REQUEST_NONE` (R414): DEV_PWR_CTL.REQ = 0 leaves deep idle. -/
  | powerRequestNone
  /-- `ALWAYS_ON_EXIT` (R414): The host Riendlink transmitter leaving electrical idle restarts the module from always-on-only. -/
  | alwaysOnExit
  /-- `REFCLK_LOSS` (R538): Reference clock absent or off frequency for 10 µs switches to the internal oscillator and acts as a brownout. -/
  | refclkLoss
  /-- `REFCLK_RETURN` (R538): Reference clock in spec for 10 ms restarts the module as after a brownout. -/
  | refclkReturn (mv : Nat)
  /-- `RESET_L_ASSERT` (R468): RESET_L held low for at least 1 µs starts a module reset. -/
  | resetLAssert
  /-- `RESET_L_DEASSERT` (R468): RESET_L deassertion samples SLOT_ID and starts bring-up. -/
  | resetLDeassert (slot : Nat)
  /-- `TILE_RST` (R470): A write of TILE_RST.REQ resets an idle or fenced tile, or sets REFUSED. -/
  | tileRst (t : Nat)
  /-- `REGION_RST` (R471): A write of REGION_RST.REQ resets an unneeded awake region, or sets REFUSED. -/
  | regionRst (r : Nat)
  /-- `REGISTER_WRITE` (R525): A write to a register with no row of its own takes effect under its access type. -/
  | registerWrite (off : Nat) (v : Word)
  /-- `SCALAR_PORT_COMPLETE` (R141): An STS writes its row back B+1 compute cycles after issue and lowers its mark, and an LDS result reaches its register B cycles after issue. -/
  | scalarPortComplete (t : Nat)
  /-- `LINK_FRAME_SEND` (R334): Every frame period, a Llyn or Riendlink transmitter sends one frame, filling its flit slots by the priority of R340 and carrying at most one queued symbol. -/
  | linkFrameSend (p : Nat)
  /-- `LLYN_TRAIN_TIMEOUT` (R345): A port in TRAIN that has no frame lock on all 8 lanes within 40 ms fails training and goes DOWN. -/
  | llynTrainTimeout (p : Nat)
  /-- `RL_LINK_UP` (R363): Riendlink completes training or retraining and reaches UP, setting its ready bit and sending pending MSIs. -/
  | rlLinkUp
  /-- `REGION_READY` (R474): A region and its stacks finish waking, training or resetting and report ready, raising vector 65. -/
  | regionReady (r : Nat)
  /-- `HELM_DIE_POWER_UP` (R475): After the input has stayed within 48.0–59.5 V for 10 ms following power-on or RESET_L deassertion, the helm die powers up, the boot ROM starts and Riendlink begins to train. -/
  | helmDiePowerUp
  /-- `BOOT_ROM_VERIFY_DONE` (R510): The boot ROM finishes verifying the banks and either starts the firmware, releasing READY_OD, or stays in boot ROM with STAGE 5. -/
  | bootRomVerifyDone
  /-- `STOW_CONFIG_TIMEOUT` (R389): STOW_CONFIG with no agreement from the partner within 1 s completes with LINK and leaves stow disabled. -/
  | stowConfigTimeout
  /-- `EXTEST` (R479): An Update-DR of the boundary-scan register under EXTEST while RESET_L is low drives the sideband pins from the scan chain. -/
  | extest (chain : List Bool)
  /-- `SLOT_ID_CHANGE` (R539): The SLOT_ID pins change while the module runs, and DEV_STRAP.CHANGED becomes 1 without changing the sampled value. -/
  | slotIdChange (v : Nat)
deriving DecidableEq, Repr

end Sys2Proof
end

