-- ==== Sys2Proof/Decode.lean ====
section
/-! DEFINITION. Words of the opcode table: no row of it gives bits, so no word spells a command. Commands come as data; the
instruction words that tiles fetch are read by `fetchAt` and `keyOf` (Machine/TileOps.lean). -/

namespace Sys2Proof

/-- The command that a word spells by the table's bits: none. (DESIGN CHOICE, log 1) -/
def decodeTableWord (_nbits _w : Nat) : Option Instr := none

end Sys2Proof
end

