-- ==== Sys2Proof/Config.lean ====
section
/-! DEFINITION. What the spec leaves open and the model leaves free: opaque constants with no body. A free value is one of
them applied to the counter State.free, which the step that takes it advances, so every use is a fresh value nothing
constrains (log 6). Cryptography and board identity are opaque as well (log 7). -/

namespace Sys2Proof

/-- A byte nothing constrains: the n-th value taken, byte i of it. (DESIGN CHOICE, log 6) -/
opaque Config.freeByte (n i : Nat) : Byte

/-- A number nothing constrains: the n-th value taken, element i of it. (DESIGN CHOICE, log 6) -/
opaque Config.freeNat (n i : Nat) : Nat

/-- A register value nothing constrains. (DESIGN CHOICE, log 6) -/
opaque Config.freeWord (n i : Nat) : Word

/-- SHA-256 of a byte string, as a number of 256 bits (R507, R518). (DESIGN CHOICE, log 7) -/
opaque Config.sha256 (b : List Byte) : Nat

/-- Whether an ECDSA P-256 signature over a SHA-256 digest verifies under a public key (R507, R514). (DESIGN CHOICE, log 7) -/
opaque Config.p256Ok (key : List Byte) (digest : Nat) (sig : List Byte) : Bool

/-- The signature the security root makes with the key of index k over a digest (R518). (DESIGN CHOICE, log 7) -/
opaque Config.rootSign (k digest : Nat) : List Byte

/-- Identity words that the spec leaves to the part, by word number: words 0 and 1 are its serial number (R518, log 7). -/
opaque Config.identity (i : Nat) : Word

/-- The certificate chain in the configuration flash (R513). (DESIGN CHOICE, log 7) -/
opaque Config.certChain : List Byte

/-- The energy in microjoules that one count of activity `i` stands for under the factory coefficients (R438). (DESIGN CHOICE, log 43) -/
opaque Config.ledgerCoef (i : Nat) : Nat

/-- Byte i of the Reed-Solomon parity of a codeword's data bytes (R335, R361): the spec names neither field polynomial nor generator.
(DESIGN CHOICE, log 49) -/
opaque Config.rsParity (data : List Byte) (i : Nat) : Byte

/-- The calibrated latency of a Llyn port and of its far end, both directions together, in picoseconds (R355, R356). (DESIGN CHOICE, log 20) -/
opaque Config.linkCal (port : Nat) : Nat

end Sys2Proof
end

