-- ==== Sys2Proof/Machine/Map.lean ====
section
/-! DEFINITION. Sparse memories and register files: lists of key and value pairs in one canonical form, keys strictly rising
and no entry equal to `d`, what an unlisted key reads as. Every operation that writes keeps the form (Laws/Map.lean). -/

namespace Sys2Proof

variable {α : Type}

/-- The value at key `k`; `d` where no entry lists it. -/
def Map.get (d : α) (m : Map α) (k : Nat) : α :=
  (m.lookup k).getD d

/-- The values of `n` consecutive keys from `lo`. -/
def Map.slice (d : α) (m : Map α) (lo n : Nat) : List α :=
  let part := m.filter fun p => decide (lo ≤ p.1 ∧ p.1 < lo + n)
  (List.range n).map fun i => Map.get d part (lo + i)

/-- The entries that values listed from key `lo` give: none for a value that an unlisted key reads as. -/
def Map.entries [DecidableEq α] (d : α) (lo : Nat) : List α → Map α
  | [] => []
  | v :: vs => if v = d then Map.entries d (lo + 1) vs else (lo, v) :: Map.entries d (lo + 1) vs

/-- Writes the values `vs` at consecutive keys from `lo`. -/
def Map.setRange [DecidableEq α] (d : α) (m : Map α) (lo : Nat) (vs : List α) : Map α :=
  (m.filter fun p => decide (p.1 < lo)) ++ Map.entries d lo vs ++
    (m.filter fun p => decide (lo + vs.length ≤ p.1))

/-- Writes one value. -/
def Map.set [DecidableEq α] (d : α) (m : Map α) (k : Nat) (v : α) : Map α :=
  Map.setRange d m k [v]

/-- Writes one value as a function of the old one. -/
def Map.mod [DecidableEq α] (d : α) (m : Map α) (k : Nat) (f : α → α) : Map α :=
  Map.set d m k (f (Map.get d m k))

/-- Returns the keys from `lo` to `lo + n - 1` to what an unlisted key reads as. -/
def Map.clear (m : Map α) (lo n : Nat) : Map α :=
  m.filter fun p => decide (p.1 < lo ∨ lo + n ≤ p.1)

/-- The canonical map of a list of entries with keys below `top`: later entries win. -/
def Map.ofList [DecidableEq α] (d : α) (top : Nat) (l : List (Nat × α)) : Map α :=
  l.foldl (fun m e => if e.1 < top then Map.set d m e.1 e.2 else m) []

/-- The canonical form: keys strictly rising, no entry equal to `d`. -/
abbrev Map.wf (d : α) (m : Map α) : Prop :=
  m.Pairwise (fun p q => p.1 < q.1) ∧ ∀ p ∈ m, p.2 ≠ d

end Sys2Proof
end

