-- ==== Sys2Proof/Machine/Num.lean ====
section
/-! DEFINITION. Number formats and rounding (chapter 03): exact values, decoding, the one rounding, conversions with their
counted events, MX blocks, FP32 arithmetic, the fixed summation trees and the four correctly rounded functions. -/

namespace Sys2Proof

/-- An exact value: `(-1)^neg * m * 2^e`, an infinity or a NaN (every NaN is quiet, R76). -/
inductive Fp where
  | fin (neg : Bool) (m : Nat) (e : Int)
  | inf (neg : Bool)
  | nan
deriving DecidableEq, Repr

/-- A numeric event (R95). -/
inductive NumEv where
  | nan | ovf | sat | inf | unf
deriving DecidableEq, Repr

/-- The parameters of a floating-point format (R73, R74): exponent and mantissa bits, bias, the code of the largest finite
value, the codes of infinity and of the NaN the module produces. -/
structure FloatFmt where
  eb : Nat
  mb : Nat
  bias : Nat
  maxCode : Nat
  infCode : Option Nat
  nanCode : Option Nat
deriving DecidableEq, Repr

/-- The floating-point format a code of R72 names (an MX code: its element format). -/
def floatFmt : Nat → FloatFmt
  | 0x0 => { eb := 8, mb := 23, bias := 127, maxCode := 0x7F7FFFFF, infCode := some 0x7F800000, nanCode := some 0x7FC00000 }
  | 0x1 => { eb := 8, mb := 7, bias := 127, maxCode := 0x7F7F, infCode := some 0x7F80, nanCode := some 0x7FC0 }
  | 0x2 => { eb := 5, mb := 10, bias := 15, maxCode := 0x7BFF, infCode := some 0x7C00, nanCode := some 0x7E00 }
  | 0x3 | 0x5 => { eb := 4, mb := 3, bias := 7, maxCode := 0x7E, infCode := none, nanCode := some 0x7F }
  | 0x4 | 0x6 => { eb := 5, mb := 2, bias := 15, maxCode := 0x7B, infCode := some 0x7C, nanCode := some 0x7E }
  | 0x7 => { eb := 3, mb := 2, bias := 3, maxCode := 0x1F, infCode := none, nanCode := none }
  | 0x8 => { eb := 2, mb := 3, bias := 1, maxCode := 0x1F, infCode := none, nanCode := none }
  | _ => { eb := 2, mb := 1, bias := 1, maxCode := 0x7, infCode := none, nanCode := none }

/-- The largest normal exponent of a format (R73). -/
def FloatFmt.emax (f : FloatFmt) : Int := (f.maxCode >>> f.mb : Nat) - (f.bias : Int)

/-- The formats with block scales (R72). -/
def isMx (c : Nat) : Bool := decide (5 ≤ c ∧ c ≤ 9)

/-- The integer formats (R76). -/
def isInt (c : Nat) : Bool := decide (c = 0xA ∨ c = 0xB)

/-- Bits per element (R77). -/
def elemBits : Nat → Nat
  | 0x0 | 0xB => 32
  | 0x1 | 0x2 => 16
  | 0x7 | 0x8 => 6
  | 0x9 => 4
  | _ => 8

/-- Elements per scratchpad row (R77). -/
def perRow : Nat → Nat
  | 0x0 | 0xB => 128
  | 0x1 | 0x2 => 256
  | 0x7 | 0x8 => 640
  | 0x9 => 1024
  | _ => 512

/-- `m * 2^(-d)` rounded to nearest, ties to even (R81). -/
def shiftRne (m : Nat) (d : Int) : Nat :=
  match d with
  | .negSucc n => m <<< (n + 1)
  | .ofNat 0 => m
  | .ofNat (n + 1) =>
    let k := m >>> (n + 1)
    let r := m - (k <<< (n + 1))
    let half := 1 <<< n
    if half < r ∨ (r = half ∧ k % 2 = 1) then k + 1 else k

/-- The magnitude code that `m * 2^e` rounds to in a format, as if the format had one more binade (R81, R82, R84): larger
than `maxCode` where it overflows. -/
def roundCode (f : FloatFmt) (m : Nat) (e : Int) : Nat :=
  if m = 0 then 0
  else
    let qmin : Int := 1 - (f.bias : Int) - f.mb
    let q : Int := max (e + m.log2 - f.mb) qmin
    ((q - qmin).toNat <<< f.mb) + shiftRne m (q - e)

/-- The value of a code of a floating-point format (R73, R74). -/
def floatNum (f : FloatFmt) (nan : Nat → Bool) (c : Nat) : Fp :=
  let s := c.testBit (f.eb + f.mb)
  let mag := c % 2 ^ (f.eb + f.mb)
  if nan mag then .nan
  else if f.infCode = some mag then .inf s
  else
    let ex := mag >>> f.mb
    let fr := mag % 2 ^ f.mb
    if ex = 0 then (if fr = 0 then .fin s 0 0 else .fin s fr (1 - (f.bias : Int) - f.mb))
    else .fin s (2 ^ f.mb + fr) ((ex : Int) - f.bias - f.mb)

/-- The magnitude codes that are NaNs (R74). -/
def nanMag (f : FloatFmt) (mag : Nat) : Bool :=
  match f.infCode, f.nanCode with
  | some i, _ => decide (i < mag)
  | none, some n => decide (mag = n)
  | none, none => false

/-- The signed value of the low `w` bits of `c`. -/
def sextNat (w c : Nat) : Int :=
  let x := c % 2 ^ w
  if x < 2 ^ (w - 1) then x else (x : Int) - 2 ^ w

/-- An integer as an exact value. -/
def intNum (i : Int) : Fp := .fin (decide (i < 0)) i.natAbs 0

/-- The value of an element code of a format, without its block scale (R73 to R76). -/
def elemNum (c code : Nat) : Fp :=
  if c = 0xA then intNum (sextNat 8 code)
  else if c = 0xB then intNum (sextNat 32 code)
  else floatNum (floatFmt c) (nanMag (floatFmt c)) code

/-- Multiplication by a power of two: exact (R81). -/
def Fp.scale (x : Fp) (k : Int) : Fp :=
  match x with
  | .fin s 0 _ => .fin s 0 0
  | .fin s m e => .fin s m (e + k)
  | y => y

/-- The sign of a conversion result placed above the magnitude code. -/
def signCode (f : FloatFmt) (neg : Bool) (mag : Nat) : Nat :=
  if neg then 2 ^ (f.eb + f.mb) + mag else mag

/-- What a value that overflows becomes, and its event (R84, R95, R96): the largest finite value in `SAT` mode and for a
format with neither infinity nor NaN; else infinity, or the E4M3 NaN 0x7F. (DEDUCED, log 10) -/
def overflowCode (f : FloatFmt) (ovf neg : Bool) : Nat × NumEv :=
  match ovf, f.infCode, f.nanCode with
  | true, some i, _ => (signCode f neg i, .ovf)
  | true, none, some n => (n, .ovf)
  | _, _, _ => (signCode f neg f.maxCode, .sat)

/-- Narrowing of an exact value to a floating-point format (R81 to R85) with its event (R95, R96). (DEDUCED, log 10; DEDUCED, log 27) -/
def narrowFloat (f : FloatFmt) (ovf : Bool) (x : Fp) : Nat × Option NumEv :=
  match x with
  | .nan => (f.nanCode.getD 0, some .nan)
  | .inf s =>
    match ovf, f.infCode with
    | true, some i => (signCode f s i, some .inf)
    | _, _ => ((overflowCode f ovf s).1, some (overflowCode f ovf s).2)
  | .fin s m e =>
    let mag := roundCode f m e
    if f.maxCode < mag then ((overflowCode f ovf s).1, some (overflowCode f ovf s).2)
    else (signCode f s mag, if mag = 0 ∧ m ≠ 0 then some .unf else none)

/-- Narrowing to a two's complement integer of `w` bits (R84, R85, R90). -/
def narrowInt (w : Nat) (x : Fp) : Nat × Option NumEv :=
  let top := 2 ^ (w - 1)
  match x with
  | .nan => (0, some .nan)
  | .inf s => (if s then top else top - 1, some .sat)
  | .fin s m e =>
    let k := shiftRne m (-e)
    if s then
      if top < k then (top, some .sat)
      else if k = 0 then (0, if m = 0 then none else some .unf)
      else (2 ^ w - k, none)
    else
      if top ≤ k then (top - 1, some .sat)
      else (k, if k = 0 ∧ m ≠ 0 then some .unf else none)

/-- Narrowing to the element format of any format code. (DEDUCED, log 10; DEDUCED, log 27) -/
def narrow (c : Nat) (ovf : Bool) (x : Fp) : Nat × Option NumEv :=
  if c = 0xA then narrowInt 8 x
  else if c = 0xB then narrowInt 32 x
  else narrowFloat (floatFmt c) ovf x

/-- The FP32 code a value rounds to: overflow gives infinity (R81 to R84, R93). (DEDUCED, log 10) -/
def f32 (x : Fp) : W32 := BitVec.ofNat 32 (narrowFloat (floatFmt 0) true x).1

/-- The value of an FP32 code. -/
def num32 (b : W32) : Fp := elemNum 0 b.toNat

/-- Rounding to FP32. -/
def rnd32 (x : Fp) : Fp := num32 (f32 x)

/-- Widening of an element of any format to FP32 (R80): exact but for MX range ends, an MX scale of 0xFF and INT32. (DEDUCED, log 10) -/
def widen (c code scaleByte : Nat) : Fp :=
  if isMx c then
    if scaleByte = 0xFF then .nan else rnd32 ((elemNum c code).scale ((scaleByte : Int) - 127))
  else elemNum c code

/-- The exact sum; a sum that is exactly zero is +0 but for two negative zeros (R83). (DEDUCED, log 10) -/
def Fp.add (x y : Fp) : Fp :=
  match x, y with
  | .nan, _ => .nan
  | _, .nan => .nan
  | .inf a, .inf b => if a = b then .inf a else .nan
  | .inf a, _ => .inf a
  | _, .inf b => .inf b
  | .fin s m e, .fin t n g =>
    if m = 0 ∧ n = 0 then .fin (s && t) 0 0
    else if m = 0 then .fin t n g
    else if n = 0 then .fin s m e
    else
      let q := min e g
      let a : Int := (m <<< (e - q).toNat : Nat)
      let b : Int := (n <<< (g - q).toNat : Nat)
      let r : Int := (if s then -a else a) + (if t then -b else b)
      if r = 0 then .fin false 0 0 else .fin (decide (r < 0)) r.natAbs q

/-- The exact product. (DEDUCED, log 10) -/
def Fp.mul (x y : Fp) : Fp :=
  match x, y with
  | .nan, _ => .nan
  | _, .nan => .nan
  | .inf a, .inf b => .inf (a != b)
  | .inf a, .fin t n _ => if n = 0 then .nan else .inf (a != t)
  | .fin s m _, .inf b => if m = 0 then .nan else .inf (s != b)
  | .fin s m e, .fin t n g => if m = 0 ∨ n = 0 then .fin (s != t) 0 0 else .fin (s != t) (m * n) (e + g)

/-- The negated value. -/
def Fp.negate : Fp → Fp
  | .fin s m e => .fin (!s) m e
  | .inf s => .inf (!s)
  | .nan => .nan

/-- Order on values that are not NaN, with −0 below +0 (R93). -/
def Fp.less (x y : Fp) : Bool :=
  match x, y with
  | .nan, _ => false
  | _, .nan => false
  | .inf a, .inf b => a && !b
  | .inf a, _ => a
  | _, .inf b => !b
  | .fin s m _, .fin t n _ =>
    if m = 0 ∧ n = 0 then s && !t
    else
      match Fp.add x y.negate with
      | .fin r k _ => r && decide (k ≠ 0)
      | _ => false

/-- One FP32 addition (R81). -/
def addR (x y : Fp) : Fp := rnd32 (Fp.add x y)

/-- minimumNumber and maximumNumber (R93): a NaN operand yields the other one. -/
def minNum (x y : Fp) : Fp :=
  if x = .nan then y else if y = .nan then x else if Fp.less y x then y else x

def maxNum (x y : Fp) : Fp :=
  if x = .nan then y else if y = .nan then x else if Fp.less x y then y else x

/-- One level of a pairwise tree (R109). -/
def pairUp {α : Type} (f : α → α → α) : List α → List α
  | a :: b :: t => f a b :: pairUp f t
  | l => l

/-- `n` levels of a pairwise tree. -/
def treeLevels {α : Type} (f : α → α → α) : Nat → List α → List α
  | 0, l => l
  | n + 1, l => treeLevels f n (pairUp f l)

/-- The top of a tree of `n` levels over `2^n` values. (DEDUCED, log 23) -/
def treeTop (f : Fp → Fp → Fp) (n : Nat) (l : List Fp) : Fp :=
  ((treeLevels f n l).head?).getD (.fin false 0 0)

/-- A block sum with the two block scales of an array step applied (R110). -/
def applyScales (x : Fp) (ea ew : Nat) : Fp :=
  if ea = 0xFF ∨ ew = 0xFF then .nan
  else rnd32 (x.scale ((ea : Int) - 127 + ((ew : Int) - 127)))

/-- The tree sum of the 64 exact products of one array step (R108 to R110), with the scale bytes of the two blocks. -/
def arrayTree (p : List Fp) (sa sw : Nat × Nat) : Fp :=
  match treeLevels addR 5 p with
  | [b0, b1] => addR (applyScales b0 sa.1 sw.1) (applyScales b1 sa.2 sw.2)
  | _ => .fin false 0 0

/-- An INT32 addition that saturates (R89), and whether it saturated. -/
def satAdd32 (a b : Int) : Int × Bool :=
  let r := a + b
  if r < -2147483648 then (-2147483648, true)
  else if 2147483647 < r then (2147483647, true)
  else (r, false)

/-- floor(log2) of the largest finite non-zero magnitude of a block, none where there is none (R86). -/
def blockTop (xs : List Fp) : Option Int :=
  xs.foldl (fun acc x =>
    match x with
    | .fin _ m e =>
      if m = 0 then acc
      else
        match acc with
        | none => some (e + m.log2)
        | some a => some (max a (e + m.log2))
    | _ => acc) none

/-- Conversion of one block to an MX format (R86, R87): the scale byte, the element codes and the events. -/
def mxBlock (c : Nat) (ovf : Bool) (xs : List Fp) : Nat × List Nat × List NumEv :=
  let f := floatFmt c
  if xs.any (· == .nan) then (0xFF, xs.map fun _ => 0, [.nan])
  else
    let top := (blockTop xs).map (· - f.emax)
    if ovf && (top.map fun x => decide (127 < x)).getD false then (0xFF, xs.map fun _ => 0, [.ovf])
    else
      let x : Int := max (-127) (min 127 (top.getD (-127)))
      let r := xs.map fun v => narrowFloat f false (v.scale (-x))
      ((x + 127).toNat, r.map (·.1), r.filterMap (·.2))

/-- Integer square root, bit by bit. -/
def isqrtGo (n : Nat) : Nat → Nat → Nat
  | 0, r => r
  | b + 1, r => isqrtGo n b (if (r + 2 ^ b) * (r + 2 ^ b) ≤ n then r + 2 ^ b else r)

def isqrt (n : Nat) : Nat := isqrtGo n (n.log2 / 2 + 1) 0

/-- A value known to `k` binary places with a sticky bit for a remainder. -/
def sticky (q : Nat) (rem : Bool) : Nat := 2 * q + (if rem then 1 else 0)

/-- The reciprocal, exact enough to round once (R94). (DEDUCED, log 10) -/
def recipNum (x : Fp) : Fp :=
  match x with
  | .nan => .nan
  | .inf s => .fin s 0 0
  | .fin s m e =>
    if m = 0 then .inf s
    else
      let k := 64 + m.log2
      .fin s (sticky (2 ^ k / m) (decide (2 ^ k % m ≠ 0))) (-(k : Int) - e - 1)

/-- The reciprocal square root (R94). (DEDUCED, log 10) -/
def rsqrtNum (x : Fp) : Fp :=
  match x with
  | .nan => .nan
  | .inf s => if s then .nan else .fin false 0 0
  | .fin s m e =>
    if m = 0 then .inf s
    else if s then .nan
    else
      let odd := decide (e % 2 ≠ 0)
      let m' := if odd then 2 * m else m
      let e' := if odd then e - 1 else e
      let k := 64 + m'.log2
      let r := isqrt (2 ^ (2 * k) / m')
      .fin false (sticky r (decide (r * r * m' ≠ 2 ^ (2 * k)))) (-(k : Int) - e' / 2 - 1)

/-- Binary places of log2 of `y / 2^320` in `[1, 2)` by repeated squaring. -/
def log2Bits : Nat → Nat → Nat → Nat
  | 0, _, acc => acc
  | n + 1, y, acc =>
    let z := (y * y) >>> 320
    if 2 ^ 321 ≤ z then log2Bits n (z >>> 1) (2 * acc + 1) else log2Bits n z (2 * acc)

/-- The binary logarithm (R94): exact for powers of two, else known to 160 places with a sticky bit (it is irrational). (DEDUCED, log 10) -/
def log2Num (x : Fp) : Fp :=
  match x with
  | .nan => .nan
  | .inf s => if s then .nan else .inf false
  | .fin s m e =>
    if m = 0 then .inf true
    else if s then .nan
    else
      let top := m.log2
      let n : Int := e + top
      if m = 2 ^ top then intNum n
      else
        let v : Int := 2 * (n * 2 ^ 160 + (log2Bits 160 (m <<< (320 - top)) 0 : Nat)) + 1
        .fin (decide (v < 0)) v.natAbs (-161)

/-- ln 2 to 160 binary places. -/
def ln2Fix : Nat := 0xb17217f7d1cf79abc9e3b39803f2f6af40f34326

/-- The exponential series to `n` terms at 160 binary places: `k` is the next divisor. -/
def expSeries : Nat → Nat → Nat → Nat → Nat → Nat
  | 0, _, _, _, acc => acc
  | n + 1, k, t, term, acc =>
    let term' := (term * t) / 2 ^ 160 / k
    expSeries n (k + 1) t term' (acc + term')

/-- The binary exponential (R94): exact for integers, else known to about 150 places with a sticky bit. (DEDUCED, log 10) -/
def exp2Num (x : Fp) : Fp :=
  match x with
  | .nan => .nan
  | .inf s => if s then .fin false 0 0 else .inf false
  | .fin s m e =>
    if m = 0 then .fin false 1 0
    else
      let top : Int := e + m.log2
      if 9 ≤ top then (if s then .fin false 1 (-2000) else .fin false 1 2000)
      else if top < -40 then .fin false 1 0
      else
        let a : Int := (shiftRne m (-(e + 64)) : Nat)
        let v : Int := if s then -a else a
        let n := v / 2 ^ 64
        let f := (v % 2 ^ 64).toNat
        if f = 0 then .fin false 1 n
        else
          let t := f * ln2Fix / 2 ^ 64
          .fin false (sticky (expSeries 60 1 t (2 ^ 160) (2 ^ 160)) true) (n - 161)

end Sys2Proof
end

