-- ==== Sys2Proof/Machine/Operands.lean ====
section
/-! DEFINITION. Bit fields, byte order, rows of elements, check values, and the operand forms of the tile instructions. -/

namespace Sys2Proof

/-- Bits `[lo + n - 1 : lo]` of a word. -/
def fld (w : Word) (lo n : Nat) : Nat := (w.toNat >>> lo) % 2 ^ n

/-- One bit of a word. -/
def bit (w : Word) (i : Nat) : Bool := w.getLsbD i

/-- `v` placed at bits `[lo + n - 1 : lo]`. -/
def place (lo n v : Nat) : Word := BitVec.ofNat 64 ((v % 2 ^ n) <<< lo)

/-- A Boolean as a bit. -/
def bnat (b : Bool) : Nat := if b then 1 else 0

/-- The word with bits `[lo + n - 1 : lo]` replaced by `v`. -/
def setFld (w : Word) (lo n v : Nat) : Word :=
  (w &&& ~~~ (BitVec.ofNat 64 ((2 ^ n - 1) <<< lo))) ||| place lo n v

/-- Sign extension of the low `n` bits of a number to 64 bits. -/
def sext64 (n v : Nat) : Word := BitVec.ofInt 64 (sextNat n v)

/-- The little-endian number of a byte string (R11). -/
def leNat : List Byte → Nat
  | [] => 0
  | b :: t => b.toNat + 256 * leNat t

/-- The `n` little-endian bytes of a number. -/
def natLe : Nat → Nat → List Byte
  | 0, _ => []
  | n + 1, v => BitVec.ofNat 8 v :: natLe n (v / 256)

/-- The eight bytes of a word. -/
def wordBytes (w : Word) : List Byte := natLe 8 w.toNat

/-- The word of eight bytes at byte `i` of a byte string. -/
def wordAt (l : List Byte) (i : Nat) : Word := BitVec.ofNat 64 (leNat ((l.drop i).take 8))

/-- The first `n` words of a byte string. -/
def wordsOf (l : List Byte) (n : Nat) : List Word := (List.range n).map fun i => wordAt l (8 * i)

/-- A byte string with `new` written from byte `i`. -/
def splice (l : List Byte) (i : Nat) (new : List Byte) : List Byte :=
  l.take i ++ new ++ l.drop (i + new.length)

/-- `n` zero bytes. -/
def zeros (n : Nat) : List Byte := List.replicate n 0

/-- A byte string padded with zeros, or cut, to `n` bytes. -/
def padTo (n : Nat) (l : List Byte) : List Byte := (l ++ zeros (n - l.length)).take n

/-- `n` element codes of `w` bits from a little-endian bit string (R77). -/
def codesOf (w : Nat) : Nat → Nat → List Nat
  | 0, _ => []
  | n + 1, v => v % 2 ^ w :: codesOf w n (v >>> w)

/-- The little-endian bit string of element codes of `w` bits. -/
def codesNat (w : Nat) : List Nat → Nat
  | [] => 0
  | c :: t => c % 2 ^ w + (codesNat w t <<< w)

/-- The element codes of one row in a format (R77). -/
def unpackRow (c : Nat) (row : List Byte) : List Nat := codesOf (elemBits c) (perRow c) (leNat row)

/-- The element codes of consecutive rows (R77, R102). -/
def unpackRows (c : Nat) : Nat → List Byte → List Nat
  | 0, _ => []
  | n + 1, b => unpackRow c (b.take 512) ++ unpackRows c n (b.drop 512)

/-- One row of element codes, the rest of it and MXFP6 padding zero (R77, R79, R112). -/
def packRow (c : Nat) (l : List Nat) : List Byte := natLe 512 (codesNat (elemBits c) (l.take (perRow c)))

/-- Consecutive rows of element codes. -/
def packRows (c : Nat) : Nat → List Nat → List Byte
  | 0, _ => []
  | n + 1, l => packRow c l ++ packRows c n (l.drop (perRow c))

/-- How many rows hold `n` elements of a format (R77). -/
def rowsFor (c n : Nat) : Nat := (n + perRow c - 1) / perRow c

/-- How many rows hold `n` vectors of 64 elements (R102). -/
def vecRows (c n : Nat) : Nat := rowsFor c (64 * n)

/-- One byte into a reflected CRC-32C (R118). -/
def crcStep (c : W32) (b : Byte) : W32 :=
  let shift1 := fun (x : W32) => if x.getLsbD 0 then (x >>> 1) ^^^ (0x82F63B78#32) else x >>> 1
  Nat.iterate shift1 8 (c ^^^ b.setWidth 32)

/-- CRC-32C of a byte string (R118). -/
def crc32c (l : List Byte) : W32 := ~~~ (l.foldl crcStep 0xFFFFFFFF#32)

end Sys2Proof
end

