-- ==== Sys2Proof/Machine/Drain.lean ====
section
/-! DEFINITION. What a drain computes row by row (R112, R113, R116), and how long an array operation holds the stream path (R123).
A tile that stops part-way through a drain uses it too. -/

namespace Sys2Proof.Machine

/-- Cuts a list into pieces of `n`, `k` pieces at most. -/
def chunks {α : Type} (n : Nat) : Nat → List α → List (List α)
  | 0, _ => []
  | k + 1, l => l.take n :: chunks n k (l.drop n)

/-- The blocks of an MX conversion: scale bytes, element codes, events (R86, R87). -/
def mxBlocks (fo : Nat) (ovf : Bool) (xs : List Fp) : List Byte × List Nat × List NumEv :=
  let r := (chunks 32 (xs.length / 32) xs).map (mxBlock fo ovf)
  (r.map fun b => BitVec.ofNat 8 b.1, r.flatMap fun b => b.2.1, r.flatMap fun b => b.2.2)

/-- The count of vectors or rows of an array operation. -/
def arrN (w : Word) : Nat :=
  1 + (match fld w 56 8 with
    | 0x51 => fld w 10 10
    | 0x52 => fld w 16 10
    | 0x53 => fld w 6 10
    | _ => 63)

/-- The streamed, loaded or drained format. -/
def arrF (w : Word) : Nat := fld w 28 4

/-- One drained accumulator row (R112, R113): scale bytes, codes, events. -/
def drainRow (w : Word) (row : List W32) : List Byte × List Nat × List NumEv :=
  let fo := arrF w
  let ty := bit w 27
  if (fo = 0 ∧ ty = false) ∨ (fo = 0xB ∧ ty = true) then ([], row.map (·.toNat), [])
  else
    let xs := row.map fun v => if ty then (intNum v.toInt).scale (-(fld w 16 5 : Int)) else num32 v
    if isMx fo then mxBlocks fo (bit w 26) xs
    else
      let r := xs.map (narrow fo (bit w 26))
      ([], r.map (·.1), r.filterMap (·.2))

/-- The square sum of one drained row (R116). -/
def rowSquares (fo : Nat) (sc : List Byte) (codes : List Nat) : Fp :=
  let v := (codes.zipIdx).map fun p =>
    let x := widen fo p.1 (sc.getD (p.2 / 32) 0).toNat
    let y := if fo = 0xB then rnd32 x else x
    Fp.mul y y
  treeTop addR 6 v

/-- `TILE_SSQ` with a row's squares added (R116, R117). -/
def addSsq (ssq : Word) (x : Fp) : Word :=
  place 32 32 (fld ssq 32 32 + 1) ||| BitVec.ofNat 64 (f32 (Fp.add (elemNum 0 (fld ssq 0 32)) x)).toNat

/-- Compute cycles the stream path is busy (R120, R123). -/
def pathBusy (w : Word) : Nat :=
  let half := fun f => if isMx f ∧ 7 ≤ f then 1 else if f = 0 then 32 else if f ≤ 2 then 4 else 2
  match fld w 56 8 with
  | 0x50 => 0
  | 0x51 => (arrN w * max (half (arrF w)) (half (fld w 24 4)) + 1) / 2
  | _ => arrN w

end Sys2Proof.Machine
end

