-- ==== Sys2Proof/Machine/State.lean ====
section
/-! DEFINITION. The state of the module, plain data: every register, memory, queue, counter, mode and pin the spec gives it,
each field with the chapter and rule that names it. A default value is the field's value at reset. Registers the spec keeps
by number (load-time registers, counters) are held in sparse maps keyed by their register offset. -/

namespace Sys2Proof.Machine

/-- An operation a tile has issued and that has not completed (R53, R54): the instruction word, the issuing stream,
its absolute slot, the operand values captured at issue and data read at issue. -/
structure Op where
  /-- number of the operation within the tile (the model's own name for it) (02 R54). -/
  id : Nat := 0
  /-- its instruction word (05 R128). -/
  w : Word := 0
  /-- issuing stream (02 R56). -/
  q : Strm := .f
  /-- absolute slot it was fetched from (02 R548). -/
  pc : Nat := 0
  /-- operand register values captured at issue, in the order D, A, B, C (then as the meaning says) (05 R129). -/
  v : List Word := []
  /-- bytes read at issue (the row of an STS, the header of a QSEND) (05 R141, R154). -/
  dat : List Byte := []
  /-- the operation has started (array queue; update engine) (04 R121). -/
  go : Bool := false
  /-- compute cycles the array-queue head has waited for toll units (18 R504). -/
  wait : Nat := 0
  /-- compute cycle in which it starts (04 R121, R123). -/
  at_ : Nat := 0
deriving DecidableEq, Repr

/-- A row range an operation in flight reads or writes (R500). -/
structure Acc where
  /-- the operation (18 R500). -/
  id : Nat := 0
  /-- engine code (18 R490). -/
  eng : Nat := 0
  /-- stream, 4 for none (18 R503). -/
  q : Nat := 4
  /-- accumulator-memory rows instead of scratchpad rows (02 R64). -/
  am : Bool := false
  /-- first row (18 R500). -/
  lo : Nat := 0
  /-- rows (18 R500). -/
  n : Nat := 0
  /-- writes (18 R500). -/
  wr : Bool := false
  /-- an operation of the array's stream path (04 R121). -/
  path : Bool := false
  /-- rows of it that a conflicting access has touched: what it moves there is unpredictable (02 R64). -/
  racy : List Nat := []
deriving DecidableEq, Repr

/-- A stationary buffer of the array (R101, R104): the format of the last ALD, element codes at 64 x k + j, scale
bytes at 2 x j + block. -/
structure StatBuf where
  /-- format code of the last ALD; 16 (the model's own mark) after job load or job reset, before any (04 R105, R124).
  -/
  fmt : Nat := 16
  /-- element codes W[k][j] at key 64k + j (04 R101). -/
  el : Map W32 := []
  /-- scale bytes at key 2j + block (04 R103). -/
  sc : Map Byte := []
  /-- elements whose parity mismatches (04 R126). -/
  bad : List Nat := []
deriving DecidableEq, Repr

/-- The registers of an F, B or U sequencer (R43, R46). -/
structure Seq where
  /-- program counter within the partition (02 R43, R46). -/
  pc : BitVec 13 := 0
  /-- absolute slot of the instruction issued last (02 R548). -/
  last : BitVec 13 := 0
  /-- S0 to S31 (S0 reads zero) (02 R43, R46). -/
  s : Map Word := []
  /-- A0 to A7 (02 R43, R46). -/
  a : Map Word := []
  /-- P0 to P7 (P0 reads true) (02 R43, R46). -/
  p : Map Bool := []
  /-- marks M0 to M15, 0 to 127 (02 R43, R53). -/
  m : Map Nat := []
  /-- S registers an issued instruction has yet to write (interlock) (02 R47, R48). -/
  busy : List Nat := []
  /-- has executed SYNC in this superstep (TILE_STATE.AT_SYNC) (02 R66, R136). -/
  sync : Bool := false
  /-- halted by Sextant (TILE_STATE.HALT) (02 R66, 18 R484). -/
  halted : Bool := false
deriving DecidableEq, Repr

/-- The X sequencer (R45, R46). -/
structure XSeq where
  /-- program counter (02 R45, R46). -/
  pc : BitVec 13 := 0
  /-- absolute slot of the instruction issued last (02 R548). -/
  last : BitVec 13 := 0
  /-- loop counters L0 to L3 (02 R45, R46). -/
  l : Map W32 := []
  /-- XEND has issued in this phase (TILE_XSTAT.XEND) (05 R161). -/
  ended : Bool := false
  /-- halted by Sextant (02 R66). -/
  halted : Bool := false
deriving DecidableEq, Repr

/-- A porter transfer in flight, holding its tag (R188, R189). -/
structure Xfer where
  /-- tag (07 R188). -/
  tag : Nat := 0
  /-- stream that owns the tag (02 R56). -/
  q : Strm := .f
  /-- slot of the PORT (02 R548). -/
  pc : Nat := 0
  /-- its descriptor (07 R193). -/
  d : List Word := []
  /-- placement epoch at issue (07 R214). -/
  epoch : Nat := 0
  /-- its operation number (18 R500). -/
  id : Nat := 0
  /-- a PWAIT naming the tag has stalled (TILE_PF_LATE) (07 R221). -/
  waited : Bool := false
  /-- stopped: holds its tag until job reset (07 R199, R224). -/
  stuck : Bool := false
  /-- host bytes returned by HRD, by host address (07 R220). -/
  host : Map Byte := []
  /-- host lines with an HRD or HWR not yet answered (13 R367, R369). -/
  left : List Nat := []
  /-- its requests to the host have been sent (07 R220, R224). -/
  asked : Bool := false
  /-- its number among what reaches the home of the coherent lines (13 R370). -/
  home : Nat := 0
  /-- memory bytes (stack, first byte, length) that an unordered store has written while it was in flight (07 R211).
  -/
  racy : List (Nat × Nat × Nat) := []
  /-- bytes of a store to host memory have begun to leave (13 R369; 07 R220). -/
  sent : Bool := false
deriving DecidableEq, Repr

/-- A message in flight or held (R260): its header words with the queue-unit fields written, and its payload bytes.
-/
structure Msg where
  /-- header word 0 (09 R260). -/
  h0 : Word := 0
  /-- header word 1 (09 R260). -/
  h1 : Word := 0
  /-- payload (09 R260). -/
  pay : List Byte := []
deriving DecidableEq, Repr

/-- A message accepted and being written into a ring (R265, R266). -/
structure MsgWr where
  /-- queue (09 R265). -/
  q : Nat := 0
  /-- the message (09 R266). -/
  m : Msg := {}
  /-- cluster-store accesses of the write not yet completed (06 R183). -/
  wait : Nat := 0
  /-- it had waited in the inbound buffer, which it holds until it is written (09 R269, R287). -/
  waited : Bool := false
deriving DecidableEq, Repr

/-- A queue's dynamic state (R265, R286). -/
structure Queue where
  /-- TILE_QSTAT.OPEN (09 R274, R286). -/
  open_ : Bool := false
  /-- head offset in bytes (09 R265). -/
  head : Nat := 0
  /-- occupancy in bytes (09 R265). -/
  occ : Nat := 0
  /-- bytes of messages being written (09 R265). -/
  wr : Nat := 0
  /-- DROPS (09 R286). -/
  drops : W32 := 0
deriving DecidableEq, Repr

/-- An exchange packet, contribution or norm delivery on its way (R237, R243, R247, R338). -/
structure Pkt where
  /-- 0 send, 1 contribution, 2 norm delivery (12 R338). -/
  kind : Nat := 0
  /-- destination module (12 R338). -/
  dmod : Nat := 0
  /-- source module (12 R338). -/
  smod : Nat := 0
  /-- source tile (12 R338). -/
  stile : Nat := 0
  /-- tile at whose router it entered this module's mesh: its source, or the edge tile of its ingress port (01 R25;
  08 R252). -/
  src : Nat := 0
  /-- destination rectangles (for a packet already in its module, the one tile it is a copy for) (08 R235). -/
  rects : List Word := []
  /-- landing row of a send (12 R338). -/
  row : Nat := 0
  /-- row index of a contribution (08 R243). -/
  rix : Nat := 0
  /-- meet entry (08 R243). -/
  meete : Nat := 0
  /-- contribution index (08 R243). -/
  cix : Nat := 0
  /-- TY of an XRSEND (05 R158). -/
  int : Bool := false
  /-- one flit (08 R248, R550). -/
  one : Bool := false
  /-- first row of its send block (08 R250). -/
  first : Bool := false
  /-- last row of its send block (08 R250). -/
  last : Bool := false
  /-- block CRC (carried by the block's last packet) (08 R250). -/
  crc : W32 := 0
  /-- the row (08 R237). -/
  data : List Byte := []
deriving DecidableEq, Repr

/-- A send block arriving at a tile or meet (R250, R251): its key and the rows received. -/
structure Blk where
  /-- source module, source tile and kind of the flow (and the meet entry) (08 R250). -/
  key : List Nat := []
  /-- first landing row or first RIX (08 R251). -/
  row0 : Nat := 0
  /-- bytes of the rows received so far (08 R250). -/
  data : List Byte := []
deriving DecidableEq, Repr

/-- One row of one meet entry in the combine buffer (R245, R246). -/
structure MeetRow where
  /-- meet entry (08 R244). -/
  e : Nat := 0
  /-- row index (08 R243). -/
  rix : Nat := 0
  /-- contribution indices arrived (08 R249). -/
  got : List Nat := []
  /-- contributions added (08 R245). -/
  next : Nat := 0
  /-- a contribution of it had four flits (08 R550). -/
  four : Bool := false
  /-- a contribution of it did not end its send block (08 R251). -/
  cut : Bool := false
  /-- its result is unpredictable (08 R245). -/
  wild : Bool := false
  /-- its result has left (08 R247, R249). -/
  out : Bool := false
  /-- lanes added so far (08 R245). -/
  sum : List W32 := []
  /-- contributions waiting for a lower CIX (08 R246). -/
  held : List (Nat × List W32) := []
deriving DecidableEq, Repr

/-- A uniform-mode access in flight (R32, R34, R186). -/
structure UniOp where
  /-- the instruction (05 R150). -/
  op : Op := {}
  /-- global cluster (05 R150). -/
  c : Nat := 0
  /-- byte address of the granule (05 R150). -/
  ad : Nat := 0
  /-- UST (05 R150). -/
  wr : Bool := false
  /-- accepted by the uniform channel (06 R186). -/
  acc : Bool := false
  /-- bytes read (06 R186). -/
  dat : List Byte := []
  /-- exchange cycle of issue (01 R34). -/
  at_ : Nat := 0
  /-- compute cycle of issue (06 R186). -/
  cyc : Nat := 0
  /-- 1 + the exchange cycle in which it first reached the uniform channel (01 R35; 06 R186). -/
  arr : Nat := 0
  /-- 16-cycle boundaries by which it is late (01 R35). -/
  k : Nat := 0
deriving DecidableEq, Repr

/-- A tile-side cluster-store request or accepted access (R149, R179, R180). -/
structure CsReq where
  /-- local tile index of the requester (06 R180). -/
  lt : Nat := 0
  /-- requested by the queue unit (else by the cluster-store port) (06 R180). -/
  qu : Bool := false
  /-- first byte (06 R180). -/
  lo : Nat := 0
  /-- rows (06 R179). -/
  n : Nat := 0
  /-- writes the cluster store (06 R180). -/
  wr : Bool := false
  /-- the CLD or CST (port requests) (05 R149). -/
  op : Op := {}
  /-- compute cycle in which it reaches the arbiter (06 R179, R180). -/
  at_ : Nat := 0
  /-- first byte that a ring write replaces (06 R183). -/
  ad : Nat := 0
  /-- bytes that a ring write puts in place (06 R178, R183). -/
  dat : List Byte := []
deriving DecidableEq, Repr

/-- A tally addition issued by a tile and not yet applied (R151, R153). -/
structure TAdd where
  /-- tally (05 R151). -/
  tl : Nat := 0
  /-- value added (05 R151). -/
  d : Int := 0
  /-- the TADD or TADDR (05 R151). -/
  op : Op := {}
  /-- compute cycle of issue (05 R162). -/
  at_ : Nat := 0
deriving DecidableEq, Repr

/-- A tally read or queue control that has issued and takes effect some compute cycles later (05 R162). -/
structure LateOp where
  /-- the TRD or QCTL (05 R162). -/
  op : Op := {}
  /-- compute cycle in which it takes effect (05 R162). -/
  due : Nat := 0
deriving DecidableEq, Repr

/-- What one compute cycle of a tile has seen (R47, R49, R50, R59, R68): the model's record of the cycle it is in. -/
structure TileCyc where
  /-- the compute cycle of the record (02 R47). -/
  at_ : Nat := 0
  /-- streams that have tried to issue in it (02 R47, R50). -/
  served : List Strm := []
  /-- shared units that have taken an operation in it (02 R49). -/
  units : List Nat := []
  /-- 1 + the compute cycle of the last toll request (02 R59). -/
  toll : Nat := 0
  /-- 1 + the compute cycle of the last toll grant (02 R58). -/
  tollG : Nat := 0
  /-- 1 + the compute cycle in which the recorded fault arose (02 R68). -/
  faultAt : Nat := 0
deriving DecidableEq, Repr

/-- The four sequencers of a tile (R43, R45). -/
structure SeqFile where
  /-- F (02 R43). -/
  f : Seq := {}
  /-- B (02 R43). -/
  b : Seq := {}
  /-- U (02 R43). -/
  u : Seq := {}
  /-- X (02 R45). -/
  x : XSeq := {}
deriving DecidableEq, Repr

/-- Operations in flight and interlock state of a tile (R53, R54, R149, R188). -/
structure TileIo where
  /-- array queue and started array operations, in acceptance order (02 R54; 04 R121). -/
  arr : List Op := []
  /-- vector operations in order (02 R54, R55). -/
  vec : List Op := []
  /-- LDS and STS in flight in order (05 R141). -/
  sca : List Op := []
  /-- outbound messages and exchange sends in order (02 R54). -/
  out : List Op := []
  /-- request the cluster-store port holds, not yet accepted (05 R149). -/
  cs : Option CsReq := none
  /-- uniform accesses in flight (05 R162). -/
  uni : List UniOp := []
  /-- exchange cycle at which the rate shaper opens its next slot (01 R32). -/
  uniNext : Nat := 0
  /-- the access that waits at the rate shaper has been counted (01 R32). -/
  uniWait : Bool := false
  /-- tally additions not yet applied (05 R153). -/
  tal : List TAdd := []
  /-- porter transfers by tag (TILE_PORT_TAGS, TILE_PORT_STAT.INFL) (07 R188, R221). -/
  tags : List Xfer := []
  /-- TILE_PORT_STAT.INFL_MAX (07 R222). -/
  inflMax : Nat := 0
  /-- row ranges of the operations in flight (18 R500). -/
  acc : List Acc := []
  /-- next operation number (the model). -/
  nextId : Nat := 0
  /-- toll units the tile's started array operations hold (02 R58). -/
  toll : Nat := 0
  /-- tally reads and queue controls that have issued and not taken effect (05 R162). -/
  late : List LateOp := []
deriving DecidableEq, Repr

/-- Exchange state of a tile (R227, R234). -/
structure TileX where
  /-- XSENT (08 R234). -/
  sent : W32 := 0
  /-- XRECV (08 R234). -/
  recv : W32 := 0
  /-- MEETROWS (08 R234). -/
  meet : Nat := 0
  /-- PLANIX (08 R234). -/
  planIx : Nat := 0
  /-- TILE_XSTAT.PART (08 R227). -/
  part : Bool := false
  /-- time from the tile's release to its part complete in this phase (08 R234). -/
  partNs : Nat := 0
  /-- 1 + the first result row of each meet entry in this phase (08 R251). -/
  first : Map Nat := []
  /-- chronometer at the tile's release (08 R234, R255). -/
  relNs : Nat := 0
  /-- combine buffer (08 R244). -/
  rows : List MeetRow := []
  /-- send blocks arriving (08 R250). -/
  blks : List Blk := []
  /-- result blocks leaving (08 R251). -/
  outBlk : List Blk := []
  /-- norm deliveries received in this phase (10 R301). -/
  norms : Nat := 0
  /-- rows landed in this phase (sounding) (18 R502). -/
  landed : List Nat := []
  /-- rows sent in this phase (sounding) (18 R502). -/
  sentRows : List Nat := []
deriving DecidableEq, Repr

/-- Queue unit of a tile (R263, R269). -/
structure TileQ where
  /-- queue state (09 R265, R286). -/
  qs : Map Queue := []
  /-- the message in the inbound buffer that waits (09 R269). -/
  inbox : Option Msg := none
  /-- accepted messages being written (09 R266). -/
  wrs : List MsgWr := []
  /-- return slips that have not left (09 R276). -/
  slips : List Msg := []
  /-- TILE_QSEL (09 R286). -/
  sel : Word := 0
deriving DecidableEq, Repr

/-- Remaining tile registers. -/
structure TileMisc where
  /-- TILE_SSQ (04 R117). -/
  ssq : Word := 0
  /-- TILE_NORM (10 R301). -/
  norm : Word := 0
  /-- TILE_SEAL entries (04 R119). -/
  sealE : Map W32 := []
  /-- TILE_SEAL_VALID (04 R119). -/
  sealV : Map Bool := []
  /-- TILE_PORT_ERRADDR (07 R206). -/
  errAddr : Word := 0
  /-- landed bytes of a row not yet read or overwritten (07 R222). -/
  pf : Map Nat := []
  /-- 1 + porter tag that landed the row, while its first read has not been checked; once it is read, plus 64 x (1 +
  stream of the read) + 512 x its slot (18 R501, R503). -/
  pfTag : Map Nat := []
  /-- blocks that landed in the row (stack, stack granule) and their write counts then (18 R501). -/
  pfCnt : Map (List (Nat × Nat × Nat)) := []
  /-- TILE_BP by tile offset (18 R488). -/
  bp : Map Word := []
  /-- TILE_WP by tile offset (18 R489). -/
  wp : Map Word := []
  /-- TILE_DBG_STAT (18 R492). -/
  dbg : Word := 0
  /-- compute cycle of the record in TILE_DBG_STAT (18 R492). -/
  dbgCyc : Nat := 0
  /-- TILE_RST.REFUSED (17 R470). -/
  refused : Bool := false
  /-- scope that halted each halted stream, by stream (18 R484). -/
  haltAt : Map Nat := []
  /-- bit q: a STEP lets halted stream q issue one instruction (18 R486). -/
  stepping : Nat := 0
  /-- ballast duty in sixty-fourths (15 R434). -/
  duty : Nat := 0
  /-- duty at arrival (15 R434). -/
  d0 : Nat := 0
  /-- the arrival's ballast quantum has run (16 R451). -/
  quantum : Bool := false
  /-- has reported arrival in this superstep (02 R65). -/
  dest : Bool := false
deriving DecidableEq, Repr

/-- A tile (R36). Key: tile ID (R16). -/
structure Tile where
  /-- state code IDLE 1 to FENCED 9 as held (DOWN and HALTED are shown from the region and the halt bits) (02 R66).
  -/
  st : Nat := 1
  /-- TILE_FAULT 0x0008 (02 R67). -/
  fault : Word := 0
  /-- TILE_FAULT_TIME 0x0010 (02 R67). -/
  faultTime : Word := 0
  /-- load-time registers by tile offset: TILE_SEQ_CFG 0x0018 (reset 0xE4), TILE_IM_PART 0x0020, TILE_XROUTE 0x0028,
  TILE_SP_OWN 0x0030, TILE_XPLAN 0x0038, TILE_XMEET 0x0040, TILE_MAPCFG 0x0048, TILE_NRELAY 0x0410, TILE_QCFG q
  0x1000 + 0x10q (02 R42, R51; 05 R160; 06 R175; 08 R233, R244; 09 R263; 10 R302; 11 R312; 20 R527). -/
  cfg : Map Word := []
  /-- counters by tile offset: TILE_STALL 0x0100 + 0x40s + 8c, TILE_TOLL_WAIT 0x0200, TILE_ARRAY_BUSY 0x0208,
  TILE_BANK_WAIT_N/W 0x0210/0x0218, TILE_RECOMP_CYC 0x0220, TILE_UNIFORM_WAIT 0x0228, TILE_UNIFORM_LATE 0x0230,
  TILE_NUM_NAN/INF/SAT/OVF/UNF 0x0300 to 0x0320, TILE_UPD_BLOCKS 0x0418, TILE_UPD_CLIPPED 0x0420, TILE_PF_* 0x0510 to
  0x0530, TILE_PORT_BYTES_LD/ST 0x0540/0x0548, TILE_PORT_EPOCH_DROP 0x0550, TILE_PORT_RMW 0x0558, TILE_XPHASE_NS
  0x0610, TILE_Q_* 0x0700 to 0x0730, TILE_SOUND_TOLL_N/MAX 0x0A98/0x0AA0 (02 R52, R63; 03 R95; 04 R123; 06 R176; 07
  R221; 08 R234; 09 R287; 10 R308; 11 R315; 18 R504; 20 R531). -/
  ctr : Map Word := []
  /-- instruction memory by slot (02 R37). -/
  im : Map Word := []
  /-- slots whose parity mismatches (02 R40). -/
  imBad : List Nat := []
  /-- scratchpad by byte, 512 x row + byte (02 R36; 06 R164). -/
  sp : Map Byte := []
  /-- sectors (8 x row + sector) whose parity mismatches (06 R177). -/
  spBad : List Nat := []
  /-- accumulator memory, key 64 x row + lane (02 R36; 04 R101). -/
  am : Map W32 := []
  /-- lanes whose parity mismatches (04 R126). -/
  amBad : List Nat := []
  /-- stationary buffer 0 (04 R101). -/
  sb0 : StatBuf := {}
  /-- stationary buffer 1 (04 R101). -/
  sb1 : StatBuf := {}
  /-- coefficient table TILE_CTAB, key 8 x row + word (10 R293, R295). -/
  ctab : Map Word := []
  /-- words whose parity mismatches (16 R442). -/
  ctabBad : List Nat := []
  /-- sequencers F, B, U and X (02 R43). -/
  sq : SeqFile := {}
  /-- operations in flight (02 R54). -/
  io : TileIo := {}
  /-- exchange state (08 R234). -/
  xs : TileX := {}
  /-- queue unit (09 R263). -/
  qu : TileQ := {}
  /-- remaining registers (02, 04, 16, 18). -/
  misc : TileMisc := {}
  /-- the compute cycle the tile is in (02 R47, R50, R68). -/
  cyc : TileCyc := {}
deriving DecidableEq, Repr

/-- A tally (R277). -/
structure Tally where
  /-- COUNT, signed (09 R277). -/
  count : W32 := 0
  /-- CEIL (09 R277). -/
  ceil : Nat := 0
deriving DecidableEq, Repr

/-- A cluster. Key: global cluster ID. -/
structure Cluster where
  /-- CLUSTER_TOLL.CAP (02 R57). -/
  cap : Nat := 0
  /-- toll units held (FREE = CAP - held) (02 R58). -/
  held : Nat := 0
  /-- HELD_MAX (02 R63). -/
  heldMax : Nat := 0
  /-- TALLY_n (09 R277). -/
  tally : Map Tally := []
  /-- cluster store by byte (06 R178). -/
  cs : Map Byte := []
  /-- granules whose parity mismatches (06 R178, R182). -/
  csBad : List Nat := []
  /-- requests at the arbiter, in arrival order (06 R180). -/
  waiting : List CsReq := []
  /-- accepted accesses (channels and range scoreboard) (06 R179, R181). -/
  chans : List CsReq := []
  /-- uniform accesses in the scoreboard: exchange cycle of release, first byte, write (06 R186). -/
  uch : List (Nat × Nat × Bool) := []
  /-- CH_MAX (06 R184). -/
  chMax : Nat := 0
  /-- CLUSTER_FAULT 0x0008 (09 R280). -/
  fault : Word := 0
  /-- CLUSTER_FAULT_TIME 0x0010 (16 R445). -/
  faultTime : Word := 0
  /-- CLUSTER_TOLL_WAIT 0x0048, CLUSTER_CS_WAIT 0x0058, CLUSTER_TALLY_EPOCH_DROP 0x0060, CLUSTER_TALLY_MSG 0x0068 (02
  R63; 06 R185; 09 R287). -/
  ctr : Map Word := []
  /-- CLUSTER_TWATCH n 0x0300 + 8n (18 R491). -/
  tw : Map Word := []
  /-- 1 + the compute cycle last counted in CLUSTER_TOLL_WAIT (02 R63). -/
  tollAt : Nat := 0
  /-- 1 + the compute cycle in which units were last released (02 R60). -/
  freedAt : Nat := 0
  /-- units released in it, free for grants from the next on (02 R60). -/
  freed : Nat := 0
  /-- compute cycles already counted in CLUSTER_CS_WAIT: 1 + the last one (06 R185). -/
  csAt : Nat := 0
  /-- 1 + the compute cycle of the last acceptance (one request in each) (06 R180). -/
  csGo : Nat := 0
  /-- 1 + the exchange cycle of the last uniform acceptance (06 R186). -/
  uniGo : Nat := 0
deriving DecidableEq, Repr

/-- A region. Key: region number. -/
structure Region where
  /-- REGION_PWR.STATE: 0 on, 1 asleep, 2 off, 3 waking, 4 tripped (15 REGION_PWR). -/
  pwr : Nat := 2
  /-- state the region takes when it is ready (asleep at bring-up, on at wake) (17 R475; 14 R389). -/
  goal : Nat := 1
  /-- REGION_FAULT 0x0008 (16 R445). -/
  fault : Word := 0
  /-- REGION_FAULT_TIME 0x0010 (16 R445). -/
  faultTime : Word := 0
  /-- REGION_RST.BUSY (17 R471). -/
  rstBusy : Bool := false
  /-- REGION_RST.REFUSED (17 R471). -/
  refused : Bool := false
  /-- REGION_PWR.RUN: step the die runs (15 REGION_PWR). -/
  run : Nat := 0
  /-- step whose pattern the die follows in the present frame (0: it joins at the next frame) (15 R409). -/
  pat : Nat := 0
  /-- STRETCH (15 R427). -/
  stretch : Bool := false
  /-- deferred step (DEFER) (15 R428). -/
  defer : Option Nat := none
  /-- a stretch ended less than 1 µs ago (15 R428). -/
  deferOn : Bool := false
  /-- compute-die temperature (15 REGION_PWR). -/
  temp : Nat := 0
  /-- I/O-die temperature (14 R401; DESIGN CHOICE at reset, log 4). -/
  iotemp : Nat := 0
  /-- region draw (15 REGION_PWR). -/
  watts : Nat := 0
  /-- compute-die supply (14 R401). -/
  mv : Nat := 0
  /-- REGION_DROOP_NS 0x0108 (15 REGION_PWR). -/
  ctr : Map Word := []
deriving DecidableEq, Repr

/-- An HBM stack and its controller. Key: stack number. -/
structure Stack where
  /-- HBM_STAT.STATE: 0 off, 1 training, 2 ready, 3 self-refresh, 4 failed (07 R223). -/
  st : Nat := 0
  /-- TEMP (07 R223). -/
  temp : Nat := 0
  /-- admission halved until below 90 (15 R430). -/
  hot : Bool := false
  /-- QDEPTH (07 R223). -/
  qdepth : Nat := 0
  /-- QMAX (07 R223). -/
  qmax : Nat := 0
  /-- contents by stack byte address (07 R195; DESIGN CHOICE at reset, log 5). -/
  mem : Map Byte := []
  /-- stored block CRC of a 4 KiB granule (07 R201). -/
  crc : Map W32 := []
  /-- the block CRC is valid (07 R201). -/
  crcV : Map Bool := []
  /-- burst addresses (32-byte aligned, log 14) whose on-die ECC is uncorrectable (07 R217). -/
  ue : List Nat := []
  /-- burst addresses whose reads give a corrected on-die ECC report (07 R215, R223). -/
  ce : List Nat := []
  /-- writes to each granule (stale-fetch check) (18 R501). -/
  wcnt : Map Nat := []
  /-- HBM_CE 0x0010, HBM_UE 0x0018, HBM_RFM 0x0020, HBM_RMW 0x0028, HBM_QFULL 0x0030, from power-on (07 R223). -/
  ctr : Map Word := []
deriving DecidableEq, Repr

/-- Link layer of one Llyn port (R336, R339, R342, R353). -/
structure LinkRx where
  /-- next SEQ to send (12 R336). -/
  seq : Nat := 0
  /-- last frame accepted (ACK sent) (12 R336). -/
  ackRx : Nat := 4095
  /-- NAK to send (12 R342). -/
  nak : Bool := false
  /-- discards of one frame in a row (12 R343). -/
  disc : Nat := 0
  /-- frames sent and not acknowledged (12 R342). -/
  replay : List Frame := []
  /-- frames to resend (12 R342). -/
  resend : List Frame := []
  /-- credits held for JOB0, JOB1, STOW (12 R339). -/
  cred : List Nat := [256, 256, 64]
  /-- flits freed since link up (12 R336). -/
  freed : List Nat := [0, 0, 0]
  /-- last credit counts received (12 R336). -/
  seenCr : List Nat := [0, 0, 0]
  /-- receive buffers (12 R339). -/
  buf : List Flit := []
  /-- job flits ready to send, in order (12 R340). -/
  tx : List Flit := []
  /-- symbol queue (12 R353). -/
  syms : List Sym := []
  /-- the frame sent last (12 R334). -/
  last : List Byte := []
deriving DecidableEq, Repr

/-- A Llyn port. Key: port number. -/
structure Port where
  /-- LLYN_LINK.STATE (12 R345). -/
  st : Nat := 0
  /-- REASON (12 R345). -/
  reason : Nat := 0
  /-- LANES (12 LLYN_LINK). -/
  lanes : Nat := 0
  /-- RVALID (12 LLYN_LINK). -/
  rvalid : Bool := false
  /-- RMOD (12 LLYN_LINK). -/
  rmod : Nat := 0
  /-- RPORT (12 LLYN_LINK). -/
  rport : Nat := 0
  /-- LLYN_CFG.EN (12 R348). -/
  en : Bool := false
  /-- LLYN_CFG.DL (12 R341). -/
  dl : Bool := false
  /-- LLYN_CFG.GVALID (12 R348). -/
  gvalid : Bool := false
  /-- LLYN_CFG.GROUP (12 R348). -/
  group : Nat := 0
  /-- LLYN_ALIGN.DELAY_PS (12 R355). -/
  delayPs : W32 := 0
  /-- LLYN_ALIGN.OFFSET_PS (12 R355). -/
  offPs : W32 := 0
  /-- ALIGN exchanges completed since PARAM (12 R345, R356). -/
  aligns : Nat := 0
  /-- send stamps of ALIGNs whose receive stamp has not come back, oldest first (12 R355). -/
  sends : List Nat := []
  /-- 1 + the stamps of the current exchange: 0 own send, 1 its receipt at the far end, 2 far send, 3 its receipt
  here (12 R355). -/
  stamps : Map Nat := []
  /-- LINK symbol indices received in PARAM (12 R346). -/
  seen : List Nat := []
  /-- link layer (12 R339, R342). -/
  rx : LinkRx := {}
  /-- LLYN counters 0x0100 to 0x0150 (12 registers). -/
  ctr : Map Word := []
deriving DecidableEq, Repr

/-- A host request that waits (R370). -/
structure HostWait where
  /-- its number among what reaches home (13 R370). -/
  at_ : Nat := 0
  /-- the coherent line it names (13 R370). -/
  line : Option Nat := none
  /-- the request (13 R367). -/
  c : Instr := .evict 0 0
deriving DecidableEq, Repr

/-- A request of the module to the host (R367). -/
structure RlReq where
  /-- transaction ID (13 R367). -/
  id : Nat := 0
  /-- 0 BINV, 1 RECALL, 2 HRD, 3 HWR (13 R367). -/
  kind : Nat := 0
  /-- line (13 R367). -/
  line : Nat := 0
  /-- of a porter transfer: 1 + 64 x tile + tag (13 R369). -/
  own : Nat := 0
deriving DecidableEq, Repr

/-- Riendlink (R360 to R377). -/
structure Rl where
  /-- RL_STAT.STATE (13 R363). -/
  st : Nat := 0
  /-- REASON (13 RL_STAT). -/
  reason : Nat := 0
  /-- LANES (13 RL_STAT). -/
  lanes : Nat := 0
  /-- RL_MBX_BASE (13 registers; DESIGN CHOICE at reset, log 4). -/
  mbxBase : Word := 0
  /-- RL_REG_BASE (13 registers; DESIGN CHOICE at reset, log 4). -/
  regBase : Word := 0
  /-- RL_HCW_BASE (13 registers; DESIGN CHOICE at reset, log 4). -/
  hcwBase : Word := 0
  /-- SIZE_GIB (13 RL_HCW). -/
  hcwSize : Nat := 0
  /-- STATUS (13 RL_HCW). -/
  hcwStat : Nat := 0
  /-- REQ_GIB (13 RL_HCW). -/
  hcwReq : Nat := 0
  /-- address of RL_MSI v (13 R371; DESIGN CHOICE at reset, log 4). -/
  msiA : Map Word := []
  /-- data of RL_MSI v (13 R371; DESIGN CHOICE at reset, log 4). -/
  msiD : Map W32 := []
  /-- MASK = 0 (reset MASK = 1) (13 R372). -/
  unmask : Map Bool := []
  /-- PEND (13 R372). -/
  pend : Map Bool := []
  /-- RL_UR 0x040, RL_LOST_LINES 0x048, RL_REPLAY 0x050, RL_RETRAIN 0x058, RL_DOWN 0x060 (13 registers). -/
  ctr : Map Word := []
  /-- lines the host holds, oldest first, true owned (13 R368). -/
  snoop : List (Nat × Bool) := []
  /-- lines with BINV outstanding (13 R367). -/
  binv : List Nat := []
  /-- lines with RECALL outstanding (13 R367). -/
  recalls : List Nat := []
  /-- host requests that wait for a stack, the filter or an order, oldest first (13 R370, R377; 07 R218). -/
  held : List HostWait := []
  /-- number of the next request or transfer to reach home (13 R370). -/
  home : Nat := 0
  /-- module requests the host has not answered (13 R367). -/
  outs : List RlReq := []
  /-- module requests that wait for one of those to be answered (13 R367). -/
  wants : List RlReq := []
  /-- next transaction ID (13 R367). -/
  nextReq : Nat := 0
  /-- last frame accepted (13 R362). -/
  ackRx : Nat := 4095
  /-- NAK to send (13 R362). -/
  nak : Bool := false
  /-- next SEQ (13 R361). -/
  seq : Nat := 0
  /-- discards of one frame in a row (13 R362). -/
  disc : Nat := 0
  /-- frames not acknowledged (13 R362). -/
  replay : List RlFrame := []
  /-- last response to the host: id, status (0 OK, 1 UR, 2 ERR), data (13 R367). -/
  resp : Option (Nat × Nat × List Byte) := none
  /-- MSI writes sent to the host, oldest first (13 R372). -/
  msiOut : List (Word × W32) := []
  /-- bytes written to host memory (HWR), oldest first (13 R367). -/
  hostOut : List (Nat × List Byte) := []
  /-- 16-byte units of transactions ready to send (13 R361). -/
  units : Nat := 0
  /-- frames to resend (13 R362). -/
  resend : List RlFrame := []
  /-- the frame sent last (13 R361). -/
  last : List Byte := []
deriving DecidableEq, Repr

/-- A mailbox page (R378). -/
structure Page where
  /-- DEV_MBX_DB.CTAIL (14 R378). -/
  ctail : BitVec 16 := 0
  /-- DEV_MBX_CQ.CHEAD (14 R378). -/
  chead : BitVec 16 := 0
  /-- DEV_MBX_CQ.CQH (14 R378). -/
  cqh : BitVec 16 := 0
  /-- page words: command ring 0 to 255, completion ring 256 to 511 (14 R378). -/
  mem : Map Word := []
  /-- completions posted since power-on (14 R382). -/
  posted : Nat := 0
  /-- completions held for a slot (14 R382). -/
  hold : List (List Word) := []
  /-- events waiting (14 R388). -/
  evts : List (List Word) := []
  /-- events not posted since the last event entry, saturating at 255 (14 R388). -/
  lost : Nat := 0
  /-- command in progress (empty: none) (14 R380). -/
  cur : List Word := []
  /-- no command of the page is in progress (14 R380). -/
  done : Bool := true
deriving DecidableEq, Repr

/-- A firmware bank in flash (R507). -/
structure FwBank where
  /-- package bytes (19 R507; DESIGN CHOICE at reset, log 4). -/
  pkg : List Byte := []
  /-- verifies apart from SVN (factory-loaded bank) (19 R508; DESIGN CHOICE at reset, log 4). -/
  ok : Bool := true
  /-- VER (14 R402; DESIGN CHOICE at reset, log 4). -/
  ver : Nat := 0x03020000
  /-- SVN (19 R507; DESIGN CHOICE at reset, log 4). -/
  svn : Nat := 0
  /-- KEYSLOT (19 R507; DESIGN CHOICE at reset, log 4). -/
  key : Nat := 0
  /-- firmware measurement (19 R507; DESIGN CHOICE at reset, log 4). -/
  meas : Nat := 0
deriving DecidableEq, Repr

/-- Helm firmware and security root (R378 to R407, R507 to R520). -/
structure Helm where
  /-- DEV_HELM.RUN (14 R402). -/
  run : Bool := false
  /-- DEV_READY.STAGE (17 R475). -/
  stage : Nat := 0
  /-- DEV_HELM.VER (14 R402). -/
  ver : Nat := 0
  /-- BANK (14 R402). -/
  bank : Nat := 0
  /-- STAGED (14 R402). -/
  staged : Bool := false
  /-- WDCNT (14 R402). -/
  wdcnt : Nat := 0
  /-- times of recent watchdog expiries (14 R404). -/
  wdTimes : List Nat := []
  /-- banks (19 R510; DESIGN CHOICE at reset, log 4). -/
  banks : Map FwBank := []
  /-- mailbox pages (14 R378). -/
  pages : Map Page := []
  /-- unserved doorbells in their order: time of arrival and page (14 R381). -/
  serial : List (Nat × Nat) := []
  /-- restart in progress: cause (0 activation, 1 watchdog), page of the FW_ACTIVATE (14 R403). -/
  restart : Option (Nat × Nat) := none
  /-- anti-rollback fuse level (19 R509). -/
  fuse : Nat := 0
  /-- level a raise in progress goes to (19 R512; DESIGN CHOICE at reset, log 4). -/
  fuseTo : Nat := 0
  /-- fused key hashes (19 R508; DESIGN CHOICE at reset, log 4). -/
  keys : Map Nat := []
  /-- revoke bits (19 R508). -/
  revoke : Nat := 0
  /-- owner public key (empty: none) (19 R514). -/
  owner : List Byte := []
  /-- stored owner SEQ (19 R514; DESIGN CHOICE at reset, log 4). -/
  ownSeq : Nat := 0
  /-- POLICY in force ([0] SIGREQ, [1] DBGLOCK) (19 R514). -/
  policy : Nat := 0
  /-- owner record staged, stored at activation (19 R515). -/
  ownNext : List Byte := []
  /-- last attestation report (19 R518). -/
  report : List Byte := []
  /-- page whose serial command is in progress (14 R381). -/
  serialBusy : Option Nat := none
deriving DecidableEq, Repr

/-- Wave and agreement state of this member (R225, R352, R417). -/
structure Wave where
  /-- children that reported arrival: port, least step (12 R352). -/
  arrFrom : List (Nat × Nat) := []
  /-- own arrival reported upward (12 R352). -/
  arrSent : Bool := false
  /-- agreed step released to this member (12 R352). -/
  go : Option Nat := none
  /-- children that reported part complete (12 R352). -/
  partFrom : List Nat := []
  /-- own part-complete reported upward (12 R352). -/
  partSent : Bool := false
  /-- done wave released to this member (12 R352). -/
  done : Bool := false
  /-- wave symbols held until 350 ns after sending: port and symbol (12 R354). -/
  held : List (Nat × Sym) := []
  /-- 0 none, 1 pause requested, 2 pause takes effect at this superstep's done wave (14 R398). -/
  pauseReq : Nat := 0
  /-- 0 none, 1 job halt requested, 2 takes effect at this superstep's done wave (18 R484). -/
  haltReq : Nat := 0
  /-- pages whose JOB_PAUSE waits (14 R398). -/
  pausePages : List Nat := []
  /-- a scope-3 STEP runs one superstep (18 R486). -/
  oneStep : Bool := false
  /-- done wave released, tiles not yet back in COMPUTE (08 R225). -/
  doneAt : Bool := false
deriving DecidableEq, Repr

/-- The primary cause of a job fault (R23, R390). -/
structure Prim where
  /-- a cause is recorded (14 R390). -/
  valid : Bool := false
  /-- LEVEL (14 R390). -/
  level : Nat := 0
  /-- UNIT (14 R390). -/
  unit : Nat := 0
  /-- CAUSE (14 R390). -/
  cause : Nat := 0
  /-- DETAIL (14 R390). -/
  detail : Nat := 0
  /-- chronometer ns (14 R390). -/
  time : Nat := 0
  /-- ORIGIN (14 R390). -/
  origin : Nat := 0
  /-- NSEC (14 R390). -/
  nsec : Nat := 0
deriving DecidableEq, Repr

/-- The loaded job (R391 to R399). -/
structure Job where
  /-- JSTATE (14 R390). -/
  js : Nat := 0
  /-- the image, relocated and patched (14 R391). -/
  img : Option Image := none
  /-- TRANS (14 R392). -/
  trans : Nat := 0
  /-- M (14 R390). -/
  m : Nat := 0
  /-- IDX (14 R390). -/
  idx : Nat := 0
  /-- event page (14 R388). -/
  evpage : Nat := 0
  /-- member list (14 R394). -/
  members : List Nat := []
  /-- regions the job needs (01 R28). -/
  needs : Nat := 0
  /-- tiles the image uses (14 R396). -/
  tiles : List Nat := []
  /-- load-time module registers by module offset (windows 0x20000, DEV_SYNC_CFG 0x10000, DEV_XLIMIT 0x10008 (reset
  50,000,000), DEV_SYNC_WDOG 0x10020 (reset 2,000,000,000), DEV_RING_WAIT 0x10028 (reset 64,000), DEV_PERMUTE
  0x10040, DEV_STOW_WIN 0x100A0, DEV_STOW_IVAL 0x100A8, DEV_SYNC_EDGE 0x10200, DEV_BALLAST 0x60030, DEV_SOUND_CFG
  0x90020) (07 R197; 08 R231, R255; 09 R272, R285; 11 R316, R320, R322; 12 R354; 15 R433; 18 R499). -/
  cfg : Map Word := []
  /-- DEV_SSTEP (08 R232). -/
  sstep : Word := 0
  /-- placement epoch (09 R283). -/
  epoch : Nat := 0
  /-- the exchange phase is in progress (08 R225). -/
  exch : Bool := false
  /-- primary cause (14 R390). -/
  prim : Prim := {}
  /-- a start tick is agreed and pending (14 R397). -/
  startPend : Bool := false
  /-- the agreed tick (14 R397). -/
  startNs : Nat := 0
  /-- page of the JOB_START or JOB_RESUME in progress, 64 where another member's is in progress (14 R397). -/
  startPage : Nat := 0
  /-- job step that holds from the agreed tick (15 R418). -/
  startJ : Nat := 64
  /-- JOB_START has started the job since its load (14 R397). -/
  started : Bool := false
  /-- waves (08 R229). -/
  wave : Wave := {}
  /-- job-start counters by module offset: DEV_SYNC_WAIT_NS 0x10018, DEV_STOW_HOLD_NS 0x100B0, DEV_STOW_COW_NS
  0x100B8, DEV_STAGE_IDLE_NS 0x10100 + 8n, DEV_RAMP_WAIT_NS 0x60038 (08 R232; 11 R312, R321; 15 R435). -/
  ctr : Map Word := []
  /-- members whose halt notice holds (18 R485). -/
  notices : List Nat := []
  /-- image measurement (14 R391). -/
  hash : Nat := 0
  /-- supersteps the job has completed since JOB_START (16 R450). -/
  steps : Nat := 0
  /-- the tiles as they stood when the job stopped, for faults of the same tick (01 R23; 02 R68). -/
  shadow : Map Tile := []
  /-- 1 + the exchange cycle of the tick in which the job stopped (01 R23). -/
  shadowAt : Nat := 0
deriving DecidableEq, Repr

/-- A stow of this member's job at a stow point (R320): windows, freeze image, job record. -/
structure Snap where
  /-- SSTEP (11 R320). -/
  sstep : Word := 0
  /-- EPOCH (11 R320). -/
  epoch : Nat := 0
  /-- image measurement (11 R320). -/
  hash : Nat := 0
  /-- relocation (11 R328). -/
  trans : Nat := 0
  /-- bytes of each marked window, by window offset (11 R320). -/
  wins : List (Nat × Map Byte) := []
  /-- size of each marked window (11 R328). -/
  sizes : List Nat := []
  /-- valid block CRCs of each marked window (11 R320). -/
  crcs : List (Nat × Map W32) := []
  /-- freeze image, tiles (11 R320). -/
  tiles : Map Tile := []
  /-- freeze image, clusters (11 R320). -/
  clusters : Map Cluster := []
deriving DecidableEq, Repr

/-- Stow state (R318 to R330). -/
structure Stow where
  /-- DEV_STOW_CFG.EN (11 R318). -/
  en : Bool := false
  /-- PARTNER (11 R318). -/
  partner : Nat := 0
  /-- AREA (11 R318). -/
  area : Nat := 0
  /-- PORTS (11 R318). -/
  ports : Nat := 0
  /-- BUSY (11 R323). -/
  busy : Bool := false
  /-- WSLOT (11 R323). -/
  wslot : Nat := 0
  /-- HOLD (11 R323). -/
  hold : Bool := false
  /-- FREEZE (11 R323). -/
  freeze : Bool := false
  /-- at a stow point, waiting for traffic to drain (11 R323). -/
  wait : Bool := false
  /-- VALID_A (11 R323). -/
  va : Bool := false
  /-- VALID_B (11 R323). -/
  vb : Bool := false
  /-- DEV_STOW_SSTEP_A (11 registers). -/
  sa : Word := 0
  /-- DEV_STOW_SSTEP_B (11 registers). -/
  sb : Word := 0
  /-- bytes of the current stow sent (DEV_STOW_STAT.PROG) (11 registers). -/
  sentB : Nat := 0
  /-- bytes of the current stow (11 R320). -/
  total : Nat := 0
  /-- DEV_STOW_BYTES, from power-on (11 registers). -/
  bytes : Word := 0
  /-- what the partner holds for this member in slot A (the bytes this member sent) (11 R323). -/
  slotA : Option Snap := none
  /-- slot B (11 R323). -/
  slotB : Option Snap := none
  /-- local freeze buffer with the windows as captured (11 R321). -/
  buf : Option Snap := none
  /-- the mover sends (11 R323). -/
  sending : Bool := false
  /-- granules of marked windows the mover has copied (11 R324). -/
  copied : List Nat := []
  /-- slots hosted for the partner that hold a complete stow: slot, stow point (11 R319). -/
  hostV : List (Nat × Nat) := []
  /-- a stow or restore of the partner is in progress here (11 R319). -/
  hostBusy : Bool := false
  /-- first module-interleaved granule of the hosted area (11 R318). -/
  areaBase : Nat := 0
  /-- stow point a restore in progress names (11 R327). -/
  restore : Option Word := none
  /-- page of a STOW_CONFIG waiting for agreement (11 R318). -/
  cfgPage : Option Nat := none
  /-- the restore in progress is windows only (11 R328). -/
  rstWin : Bool := false
  /-- page of the STOW_RESTORE (11 R327). -/
  rstPage : Nat := 0
deriving DecidableEq, Repr

/-- Clocks, power and thermal control (R408 to R439). -/
structure Power where
  /-- CHRONO_NS (15 R412). -/
  chrono : Word := 0
  /-- exchange cycles since the islands started (01 R10). -/
  exc : Nat := 0
  /-- compute cycles passed since the islands started (15 R409). -/
  cc : Nat := 0
  /-- input voltage last reported (15 R429; DESIGN CHOICE at reset, log 4). -/
  vin : Nat := 54000
  /-- the islands run (15 R411). -/
  on : Bool := true
  /-- in brownout: everything outside the always-on domain unpowered (15 R429). -/
  brown : Bool := false
  /-- the reference clock is present (21 R538; DESIGN CHOICE at reset, log 4). -/
  refOk : Bool := true
  /-- DEV_PWR_STAT.UV (15 R429). -/
  clamp : Bool := false
  /-- BROWNOUT (15 R429). -/
  brownF : Bool := false
  /-- CAPMISS (15 R424). -/
  capmiss : Bool := false
  /-- TRIP (15 R431). -/
  trip : Bool := false
  /-- PREQ (15 R414). -/
  preq : Nat := 0
  /-- DEV_PWR_CTL.REQ (15 R414). -/
  req : Nat := 0
  /-- 0 none, 1 deep idle applied, 2 always-on-only applied (15 R413). -/
  deep : Nat := 0
  /-- DEV_FREQ_CTL.MAXN (15 R419). -/
  maxn : Nat := 64
  /-- cap_step (15 R420; DESIGN CHOICE at reset, log 4). -/
  capStep : Nat := 64
  /-- thermal_step (15 R430; DESIGN CHOICE at reset, log 4). -/
  thermStep : Nat := 64
  /-- current_step (DEV_CLK.CUR) (15 R426). -/
  curStep : Nat := 64
  /-- A (15 R416). -/
  allow : Nat := 64
  /-- J (15 R416). -/
  jstep : Nat := 64
  /-- running step (15 R416). -/
  run : Nat := 64
  /-- step whose pattern the undeferred dies follow in the present frame (15 R409). -/
  pat : Nat := 64
  /-- L allocated in the last period (15 R422). -/
  lnkL : Option Nat := none
  /-- agreed J that waits (PVALID, PJOB) (15 R417). -/
  pj : Option Nat := none
  /-- J agreed in the arrival wave in progress (15 R417). -/
  pj2 : Option Nat := none
  /-- host cap (0 none) (14 R406). -/
  hostCap : Nat := 0
  /-- SMBus cap (0 none) (14 R406). -/
  smbCap : Nat := 0
  /-- thermal target (15 R430). -/
  ttgt : Nat := 95
  /-- memory admission is limited (15 R422). -/
  memLim : Bool := false
  /-- M allocated (15 R420). -/
  memW : Nat := 0
  /-- time from which current_step may be lowered again (15 R426). -/
  lowerAt : Nat := 0
  /-- time from which current_step may be raised again (15 R426). -/
  raiseAt : Nat := 0
  /-- DEV_THROTTLE_NS k (15 R436). -/
  thrNs : Map Word := []
  /-- DEV_LEDGER_ACCT k (15 R437). -/
  acct : Map Word := []
  /-- DEV_LEDGER (15 R437). -/
  ledger : Word := 0
  /-- DEV_LEDGER_TOTAL (15 R437). -/
  total : Word := 0
  /-- per-count coefficients in force (15 R438; DESIGN CHOICE at reset, log 4). -/
  coefs : List Nat := []
  /-- time of the last refit (15 R438; DESIGN CHOICE at reset, log 4). -/
  fitNs : Nat := 0
  /-- last telemetry sample (14 R400; DESIGN CHOICE at reset, log 4). -/
  telem : TelemetrySample := { mv := 0, cur10mA := 0, watts := 0, regW := [], regMv := [], temps := { dies := [], ios := [], stks := [] } }
  /-- its time (14 R401; DESIGN CHOICE at reset, log 4). -/
  telemNs : Word := 0
  /-- SMBus alert bits (14 R405). -/
  alerts : Nat := 0
  /-- alignment record: one-way delay of each port (its calibrated latencies are Config.linkCal) (12 R356). -/
  align : Map W32 := []
  /-- exchange cycle of the last tick that was lengthened or shortened (12 R355). -/
  slewAt : Nat := 0
  /-- the clamp-release ramp is raising the running step (15 R429). -/
  recover : Bool := false
deriving DecidableEq, Repr

/-- Faults above the tile, ballast coverage, fencing and sights (R440 to R466). -/
structure Rel where
  /-- DEV_FAULT 0x70000 (16 R445). -/
  fault : Word := 0
  /-- DEV_FAULT_TIME 0x70008 (16 R445). -/
  faultTime : Word := 0
  /-- DEV_BAL_SLICE.BASE (16 R450). -/
  balBase : Nat := 0
  /-- B0 taken at JOB_START (16 R450). -/
  balB0 : Nat := 0
  /-- fenced tiles (16 R458). -/
  fTiles : List Nat := []
  /-- fenced clusters (16 R458). -/
  fClus : List Nat := []
  /-- failed routers (16 R458; DESIGN CHOICE at reset, log 4). -/
  fRtr : List Nat := []
  /-- failed die-boundary links (16 R458; DESIGN CHOICE at reset, log 4). -/
  fLink : List Nat := []
  /-- pending decisions: kind (0 tile, 1 cluster, 2 router, 3 link), unit (16 R458). -/
  pendF : List (Nat × Nat) := []
  /-- evidence: kind (0 tile parity, 1 CS_PARITY, 2 MESH_CRC, 3 HBM_PARITY), unit, service hour (16 R457; DESIGN
  CHOICE at reset, log 4). -/
  evid : List (Nat × Nat × Nat) := []
  /-- service time in nanoseconds counted by the islands (16 R457; DESIGN CHOICE at reset, log 4). -/
  hours : Nat := 0
  /-- evidence as written to the configuration flash (16 R457; DESIGN CHOICE at reset, log 4). -/
  flash : List (Nat × Nat × Nat) := []
  /-- service time as written (16 R457; DESIGN CHOICE at reset, log 4). -/
  flashH : Nat := 0
  /-- retired granules: stack, granule (16 R460). -/
  retired : List (Nat × Nat) := []
  /-- failed stacks (16 R460). -/
  failed : List Nat := []
  /-- SIGHT_SCHEDULE.HOURS (16 R455). -/
  sgHours : Nat := 24
  /-- NOW pending (16 R455). -/
  sgNow : Bool := false
  /-- STOWOK (16 R455). -/
  sgStow : Bool := false
  /-- time of the last sight (14 R389). -/
  sgLast : Nat := 0
  /-- service time at the last completed sight (16 R455; DESIGN CHOICE at reset, log 4). -/
  sgSvc : Nat := 0
  /-- outcome (14 R389). -/
  sgOut : Nat := 0
  /-- 0 none, 1 sight between jobs, 2 at a stow point (16 R455). -/
  sgRun : Nat := 0
  /-- region states to return to after the sight (16 R455). -/
  sgSaved : List (Nat × Nat) := []
deriving DecidableEq, Repr

/-- Sextant, fix and sounding (R478 to R506). -/
structure Dbg where
  /-- DEV_DBG_CTL.BPEN (18 R487). -/
  bpen : Bool := false
  /-- WROTE (18 R487). -/
  wrote : Bool := false
  /-- a command runs (18 R481). -/
  sxBusy : Bool := false
  /-- page of the DEBUG_TUNNEL whose command runs (18 R481). -/
  sxPage : Option Nat := none
  /-- SXRES status (18 R481). -/
  sxStat : Nat := 0
  /-- result word 1 (18 R481). -/
  sx1 : Word := 0
  /-- result word 2 (18 R481). -/
  sx2 : Word := 0
  /-- bulk data read (18 R483). -/
  sxData : List Word := []
  /-- LATCHED (18 R497). -/
  latched : Bool := false
  /-- LATE (18 R496). -/
  late : Bool := false
  /-- OVER (18 R494). -/
  overF : Bool := false
  /-- SRC (18 R497). -/
  src : Nat := 0
  /-- ARMED (18 R494). -/
  armed : Nat := 0
  /-- JOBWIDE (18 R495). -/
  jobwide : Bool := false
  /-- armed trigger time (18 R494). -/
  trigNs : Word := 0
  /-- DEV_FIX_TICK (18 R497). -/
  tick : Word := 0
  /-- source of a latch whose tick is set (18 R495). -/
  pendSrc : Option Nat := none
  /-- that tick, ns (18 R495). -/
  pendTick : Nat := 0
  /-- the pending latch is for a job fault (18 R494). -/
  pendJob : Bool := false
  /-- fix records, key level x 2^24 + unit x 2^12 + word (18 R498). -/
  recs : Map Word := []
  /-- the module drives FIX_TRIG low (18 R497). -/
  trigLow : Bool := false
  /-- the helm has copied the records (18 R498). -/
  copied : Bool := false
  /-- the job is halted at a boundary (18 R484). -/
  jobHalt : Bool := false
  /-- tick, ns, at which a RELEASE of the job takes effect (18 R484). -/
  relAt : Option Nat := none
deriving DecidableEq, Repr

/-- Sideband pins, straps, SMBus and scratch (R476, R530, R533 to R540). -/
structure Pins where
  /-- RESET_L is low (17 R468). -/
  resetLow : Bool := false
  /-- DEV_STRAP.SLOT (21 R539). -/
  slot : Nat := 0
  /-- SLOT_NOW (21 R539). -/
  slotNow : Nat := 0
  /-- CHANGED (21 R539). -/
  changed : Bool := false
  /-- READY_OD is pulled low (21 R533; 17 R475). -/
  readyLow : Bool := true
  /-- answer to the last SMBus transaction (none: not acknowledged) (14 R405). -/
  smb : Option Word := none
  /-- DEV_SCRATCH (20 R530). -/
  scratch : Word := 0
  /-- boundary-scan register driving the sideband pins under EXTEST (18 R479). -/
  chain : List Bool := []
deriving DecidableEq, Repr

/-- Packets on the mesh (R225, R260, R237). -/
structure Net where
  /-- messages and slips in flight (09 R262). -/
  msgs : List Msg := []
  /-- exchange packets, contributions and norm deliveries in flight, one per destination copy (08 R237). -/
  pkts : List Pkt := []
  /-- remote packets waiting to leave: port, packet (12 R351). -/
  rport : List (Nat × Pkt) := []
  /-- remote messages waiting to leave (12 R351). -/
  rmsg : List (Nat × Msg) := []
  /-- packets being reassembled from a port's receive buffer (12 R338). -/
  reasm : List (Nat × List Flit) := []
  /-- DEV_MODID 0x30000 (12 DEV_MODID). -/
  modid : Word := 0
  /-- DEV_LLYN_RT n by module offset 0x31000 + 8n (12 DEV_LLYN_RT). -/
  rt : Map Word := []
deriving DecidableEq, Repr

/-- The module (R2). Every map is sparse: an unlisted unit is at its reset. -/
structure State where
  /-- The commands that wait, first in first out (the row's cut). -/
  pending : List Instr := []
  /-- The 2,304 tiles by tile ID (02 R36). -/
  tiles : Map Tile := []
  /-- The 192 clusters by global cluster ID (02 R57). -/
  clusters : Map Cluster := []
  /-- The 16 regions (15 R408). -/
  regions : Map Region := []
  /-- The 32 HBM stacks (07 R223). -/
  stks : Map Stack := []
  /-- The 32 Llyn ports (12 R345). -/
  ports : Map Port := []
  /-- Riendlink (13). -/
  rl : Rl := {}
  /-- The helm and the security root (14, 19). -/
  helm : Helm := {}
  /-- The loaded job (14 R391). -/
  job : Job := {}
  /-- Stow (11). -/
  stow : Stow := {}
  /-- Clocks, power and heat (15). -/
  power : Power := {}
  /-- Module faults, fences, sights (16). -/
  rel : Rel := {}
  /-- Sextant, fix, sounding (18). -/
  dbg : Dbg := {}
  /-- Sideband pins and straps (21). -/
  pins : Pins := {}
  /-- Packets and messages in flight (08, 09, 12). -/
  net : Net := {}
  /-- Compute cycles that commands have begun since the last tick of the clock: the compute cycle is `power.cc` + `sub` (the model; log 2). -/
  sub : Nat := 0
  /-- The model's own counter of free values taken; no state of the spec (DESIGN CHOICE, log 6). -/
  free : Nat := 0
deriving DecidableEq, Repr

/-- The model stops: only where the spec gives the command no effect at all. -/
inductive Fault where
  /-- A command names a tile, cluster, region, stack, port or mailbox page the module does not have (R6, R7, R16, R17):
  raised by every command with a unit number. Safe: the hardware has no such unit to act on. -/
  | noSuchUnit (kind : String) (n : Nat)
deriving DecidableEq, Repr

/-- The model gives no meaning. -/
inductive Refusal where
  /-- The command has no meaning yet. Raised by an arm of `exec` that has not been written. Safe. -/
  | notModelled (mnemonic : String)
deriving DecidableEq, Repr

/-- The module just after power-on, at the start of the bring-up (R475 step 1): the always-on islands have started, nothing
else is powered, every register is at its reset value (a value the spec does not give is a DESIGN CHOICE, log 4). No
command waits. -/
def State.reset : State := {}

end Sys2Proof.Machine
end

