-- ==== Sys2Proof/Machine/Extent.lean ====
section
/-! DEFINITION. Porter descriptors (R193, R194), the bytes they cover on both sides cut at 4 KiB blocks, where a window's
blocks lie in the stacks (R195 to R197), and the contents of a stack. -/

namespace Sys2Proof.Machine

/-! ## Descriptor fields (R193) -/

def dDir (d : List Word) : Nat := fld (d.getD 0 0) 62 2
def dTag (d : List Word) : Nat := fld (d.getD 0 0) 56 6
def dWin (d : List Word) : Nat := fld (d.getD 0 0) 50 6
def dCv (d : List Word) : Nat := fld (d.getD 0 0) 48 2
def dOff (d : List Word) : Nat := fld (d.getD 0 0) 0 41
def dRalign (d : List Word) : Bool := bit (d.getD 1 0) 19
def dSbyte (d : List Word) : Nat := fld (d.getD 1 0) 10 9
def dSrow (d : List Word) : Nat := fld (d.getD 1 0) 0 10
def dC1 (d : List Word) : Nat := fld (d.getD 2 0) 32 16 + 1
def dL0 (d : List Word) : Nat := fld (d.getD 2 0) 0 24 + 1
def dC3 (d : List Word) : Nat := fld (d.getD 3 0) 16 16 + 1
def dC2 (d : List Word) : Nat := fld (d.getD 3 0) 0 16 + 1
def dS (d : List Word) (k : Nat) : Int := sextNat 42 (fld (d.getD (3 + k) 0) 0 42)
def dIrow (d : List Word) : Nat := fld (d.getD 7 0) 0 10

/-- The count of dimension-0 runs. -/
def dRuns (d : List Word) : Nat := if dDir d = 2 then dC1 d else dC1 d * dC2 d * dC3 d

/-- Reason 0x01 of R199: reserved values or fields, `SBYTE` under `RALIGN`, the limits of a gather. (DEDUCED, log 14) -/
def dMalformed (d : List Word) : Bool :=
  decide (dDir d = 3) || decide (dCv d = 3) || decide (fld (d.getD 0 0) 41 7 ≠ 0) || decide (fld (d.getD 1 0) 20 44 ≠ 0) ||
    decide (fld (d.getD 2 0) 48 16 ≠ 0) || decide (fld (d.getD 2 0) 24 8 ≠ 0) || decide (fld (d.getD 3 0) 32 32 ≠ 0) ||
    [4, 5, 6].any (fun i => decide (fld (d.getD i 0) 42 22 ≠ 0)) || decide (fld (d.getD 7 0) 10 54 ≠ 0) ||
    (dRalign d && decide (dSbyte d ≠ 0)) ||
    (decide (dDir d = 2) && (decide (1 < dC2 d ∨ 1 < dC3 d ∨ dS d 2 ≠ 0 ∨ dS d 3 ≠ 0 ∨ 4096 < dC1 d)))

/-- The lowest and highest memory byte of a load or store (R194, R199). -/
def dBounds (d : List Word) : Int × Int :=
  let step := fun (c : Nat) (k : Nat) => ((c - 1 : Nat) : Int) * dS d k
  let lo := fun (v : Int) => min 0 v
  let hi := fun (v : Int) => max 0 v
  let a := step (dC1 d) 1
  let b := step (dC2 d) 2
  let c := step (dC3 d) 3
  ((dOff d : Int) + lo a + lo b + lo c, (dOff d : Int) + hi a + hi b + hi c + dL0 d - 1)

/-- How many scratchpad rows a transfer touches from `SROW` (R194). -/
def dRows (d : List Word) : Nat :=
  if dRalign d then dRuns d * ((dL0 d + 511) / 512) else (dSbyte d + dRuns d * dL0 d + 511) / 512

/-- How many index rows a gather reads (R208). -/
def dIdxRows (d : List Word) : Nat := if dDir d = 2 then (dC1 d + 127) / 128 else 0

/-- The first memory byte of each run in the order of R194; a gather's from its indices (R208). -/
def dStarts (d : List Word) (idx : List Nat) : List Int :=
  if dDir d = 2 then (idx.take (dC1 d)).map fun i => (dOff d : Int) + (i : Int) * dS d 1
  else
    (List.range (dC3 d)).flatMap fun (k : Nat) => (List.range (dC2 d)).flatMap fun (j : Nat) => (List.range (dC1 d)).map fun (i : Nat) =>
      (dOff d : Int) + (k : Int) * dS d 3 + (j : Int) * dS d 2 + (i : Int) * dS d 1

/-! ## Segments -/

/-- Consecutive bytes inside one 4 KiB block of a window: block, offset in it, scratchpad byte, length. -/
structure Seg where
  blk : Nat
  off : Nat
  sp : Nat
  len : Nat
deriving DecidableEq, Repr

/-- One run cut at block boundaries. -/
def cutRun : Nat → Nat → Nat → Nat → List Seg
  | 0, _, _, _ => []
  | fuel + 1, a, sp, len =>
    if len = 0 then []
    else
      let n := min len (4096 - a % 4096)
      { blk := a / 4096, off := a % 4096, sp := sp, len := n } :: cutRun fuel (a + n) (sp + n) (len - n)

/-- The segments of a transfer in the order of R194; runs below the window (which the checks of R199 refuse) give none. -/
def dSegs (d : List Word) (idx : List Nat) : List Seg :=
  let pitch := if dRalign d then 512 * ((dL0 d + 511) / 512) else dL0 d
  let base := 512 * dSrow d + dSbyte d
  ((dStarts d idx).zipIdx).flatMap fun p =>
    if p.1 < 0 then [] else cutRun (dL0 d / 4096 + 2) p.1.toNat (base + p.2 * pitch) (dL0 d)

/-- The blocks of a transfer in the order it first touches them. For a block that one transfer visits more than once the spec does not say
which index it has: the model counts it once, at its first touch (R205; DESIGN CHOICE, log 14). -/
def segBlocks (l : List Seg) : List Nat := (l.map (·.blk)).eraseDups

/-- The part of the segments that lies below a scratchpad byte. -/
def clipSegs (l : List Seg) (top : Nat) : List Seg :=
  l.filterMap fun g => if top ≤ g.sp then none else some { g with len := min g.len (top - g.sp) }

/-- How far a set of intervals covers upward from `r`, in `n` rounds. -/
def reach (l : List (Nat × Nat)) : Nat → Nat → Nat
  | 0, r => r
  | n + 1, r => reach l n (l.foldl (fun m p => if p.1 ≤ m then max m (p.1 + p.2) else m) r)

/-- Whether intervals (start, length) cover `[0, n)`. -/
def covers (l : List (Nat × Nat)) (n : Nat) : Bool := decide (n ≤ reach l l.length 0)

/-- Whether the segments of one block cover all of it (R201). -/
def wholeBlock (l : List Seg) : Bool := covers (l.map fun g => (g.off, g.len)) 4096

/-- The aligned seal group whose bytes are the block's, in order (R203). -/
def sealGroupOf (l : List Seg) : Option Nat :=
  match l with
  | [] => none
  | g :: _ =>
    let k := g.sp / 4096
    if wholeBlock l && l.all fun h => decide (h.sp = 4096 * k + h.off) then some k else none

/-- The seal groups that one whole block each, in order, fills (R202). -/
def sealGroups (l : List Seg) : List Nat :=
  ((l.map fun g => (g.blk, g.sp / 4096)).eraseDups).filterMap fun p =>
    sealGroupOf (l.filter fun g => decide (g.blk = p.1 ∧ g.sp / 4096 = p.2))

/-! ## Windows (R195, R197) -/

/-- The stack and stack granule of a device granule number. -/
def interleaved (g : Nat) : Nat × Nat := (g % 32, g / 32)
def regionLocal (g : Nat) : Nat × Nat := (2 * (g / 2 ^ 25) + (g % 2 ^ 25) % 2, (g % 2 ^ 25) / 2)

/-- The stack and stack granule of a window's block: base and `DEV_WIN_CFG` (R195, R366). (DEDUCED, log 14) -/
def winGranule (base cfg : Word) (blk : Nat) : Nat × Nat :=
  if fld cfg 0 2 = 1 ∨ bit cfg 7 then interleaved (base.toNat / 4096 + blk) else regionLocal (base.toNat / 4096 + blk)

/-! ## Stack contents -/

def Stack.blockBytes (x : Stack) (g : Nat) : List Byte := Map.slice 0 x.mem (4096 * g) 4096

/-- The bursts of a granule that parts written into it cover whole, as offsets in it. A burst is taken to be 32 bytes (DESIGN CHOICE, log
14). -/
def coveredBursts (parts : List (Nat × List Byte)) : List Nat :=
  ((List.range 128).map (32 * ·)).filter fun b =>
    covers ((parts.filter fun p => decide (p.1 < b + 32 ∧ b < p.1 + p.2.length)).map fun p =>
      (max p.1 b - b, min (p.1 + p.2.length) (b + 32) - max p.1 b)) 32

/-- A write of bytes into a granule: contents, ends of uncorrectable and corrected bursts it wholly covers (R217), the write count (R501);
the check value becomes `crc`, invalid for none. -/
def Stack.put (x : Stack) (g : Nat) (parts : List (Nat × List Byte)) (crc : Bool) : Stack :=
  let mem := parts.foldl (fun m p => Map.setRange 0 m (4096 * g + p.1) p.2) x.mem
  let hit := (coveredBursts parts).map (4096 * g + ·)
  let y := { x with
    mem := mem
    ue := x.ue.filter fun b => !(hit.contains b)
    ce := x.ce.filter fun b => !(hit.contains b)
    wcnt := Map.mod 0 x.wcnt g (· + 1) }
  { y with
    crc := if crc then Map.set 0 y.crc g (crc32c (y.blockBytes g)) else y.crc
    crcV := Map.set false y.crcV g crc }

end Sys2Proof.Machine
end

