-- ==== Sys2Proof/Machine/Ops.lean ====
section
/-! DEFINITION. The named operations on the state: units by number, topology, counters, free values, interrupts, mailbox
postings, symbols, debug events and fix triggers, fault records and the job stop. -/

namespace Sys2Proof.Machine

/-! ## Units -/

def State.tile (s : State) (t : Nat) : Tile := Map.get {} s.tiles t
def State.setTile (s : State) (t : Nat) (x : Tile) : State := { s with tiles := Map.set {} s.tiles t x }
def State.modTile (s : State) (t : Nat) (f : Tile → Tile) : State := s.setTile t (f (s.tile t))
def State.cluster (s : State) (c : Nat) : Cluster := Map.get {} s.clusters c
def State.setCluster (s : State) (c : Nat) (x : Cluster) : State := { s with clusters := Map.set {} s.clusters c x }
def State.modCluster (s : State) (c : Nat) (f : Cluster → Cluster) : State := s.setCluster c (f (s.cluster c))
def State.region (s : State) (r : Nat) : Region := Map.get {} s.regions r
def State.setRegion (s : State) (r : Nat) (x : Region) : State := { s with regions := Map.set {} s.regions r x }
def State.modRegion (s : State) (r : Nat) (f : Region → Region) : State := s.setRegion r (f (s.region r))
def State.stk (s : State) (k : Nat) : Stack := Map.get {} s.stks k
def State.setStk (s : State) (k : Nat) (x : Stack) : State := { s with stks := Map.set {} s.stks k x }
def State.modStk (s : State) (k : Nat) (f : Stack → Stack) : State := s.setStk k (f (s.stk k))
def State.port (s : State) (p : Nat) : Port := Map.get {} s.ports p
def State.setPort (s : State) (p : Nat) (x : Port) : State := { s with ports := Map.set {} s.ports p x }
def State.modPort (s : State) (p : Nat) (f : Port → Port) : State := s.setPort p (f (s.port p))
def State.modRl (s : State) (f : Rl → Rl) : State := { s with rl := f s.rl }
def State.modHelm (s : State) (f : Helm → Helm) : State := { s with helm := f s.helm }
def State.modJob (s : State) (f : Job → Job) : State := { s with job := f s.job }
def State.modStow (s : State) (f : Stow → Stow) : State := { s with stow := f s.stow }
def State.modPower (s : State) (f : Power → Power) : State := { s with power := f s.power }
def State.modRel (s : State) (f : Rel → Rel) : State := { s with rel := f s.rel }
def State.modDbg (s : State) (f : Dbg → Dbg) : State := { s with dbg := f s.dbg }
def State.modPins (s : State) (f : Pins → Pins) : State := { s with pins := f s.pins }
def State.modNet (s : State) (f : Net → Net) : State := { s with net := f s.net }
def State.modWave (s : State) (f : Wave → Wave) : State := s.modJob fun j => { j with wave := f j.wave }
def State.page (s : State) (k : Nat) : Page := Map.get {} s.helm.pages k
def State.modPage (s : State) (k : Nat) (f : Page → Page) : State :=
  s.modHelm fun h => { h with pages := Map.mod {} h.pages k f }

/-- The state with one free value taken (log 6): the next free value is another one. -/
def State.took (s : State) : State := { s with free := s.free + 1 }

/-- `n` bytes nothing constrains: the free value the counter stands at. (DESIGN CHOICE, log 6) -/
def State.freeBytes (s : State) (n : Nat) : List Byte := (List.range n).map fun i => Config.freeByte s.free i

/-- Folds an operation over unit numbers. -/
def State.forAll (s : State) (l : List Nat) (f : State → Nat → State) : State := l.foldl f s

/-! ## Topology (R16 to R20) -/

def tileX (t : Nat) : Nat := t % 96
def tileY (t : Nat) : Nat := t / 96
def tileAt (x y : Nat) : Nat := y * 96 + x
def regionOf (t : Nat) : Nat := (tileY t / 12) * 8 + tileX t / 12
def clusterOf (t : Nat) : Nat :=
  regionOf t * 12 + ((tileY t % 12) / 3) * 3 + (tileX t % 12) / 4
def localOf (t : Nat) : Nat := (tileY t % 3) * 4 + tileX t % 4
/-- The tile with local index `l` of global cluster `c`. -/
def clusterTile (c l : Nat) : Nat :=
  let r := c / 12
  let k := c % 12
  tileAt (12 * (r % 8) + 4 * (k % 3) + l % 4) (12 * (r / 8) + 3 * (k / 3) + l / 4)
def clusterTiles (c : Nat) : List Nat := (List.range 12).map (clusterTile c)
def regionTiles (r : Nat) : List Nat :=
  (List.range 12).flatMap fun y => (List.range 12).map fun x => tileAt (12 * (r % 8) + x) (12 * (r / 8) + y)
def regionClusters (r : Nat) : List Nat := (List.range 12).map (12 * r + ·)

/-! ## Counters and times -/

/-- A 64-bit counter of a register map increased by `n`. -/
def ctrAdd (m : Map Word) (off n : Nat) : Map Word := Map.mod 0 m off (· + BitVec.ofNat 64 n)

def State.now (s : State) : Nat := s.power.chrono.toNat

/-- The compute cycle the module is in: those that ticks have passed and those that commands have begun since (R47; DESIGN CHOICE,
log 46). -/
def State.cycle (s : State) : Nat := s.power.cc + s.sub

/-- The next compute cycle begins. (DESIGN CHOICE, log 46) -/
def State.nextCycle (s : State) : State := { s with sub := s.sub + 1 }

def Tile.count (x : Tile) (off n : Nat) : Tile := { x with ctr := ctrAdd x.ctr off n }
def State.countTile (s : State) (t off n : Nat) : State := s.modTile t fun x => x.count off n
def State.countCluster (s : State) (c off n : Nat) : State := s.modCluster c fun x => { x with ctr := ctrAdd x.ctr off n }
def State.countStk (s : State) (k off n : Nat) : State := s.modStk k fun x => { x with ctr := ctrAdd x.ctr off n }
def State.countPort (s : State) (p off n : Nat) : State := s.modPort p fun x => { x with ctr := ctrAdd x.ctr off n }
def State.countRl (s : State) (off n : Nat) : State := s.modRl fun x => { x with ctr := ctrAdd x.ctr off n }
def State.countJob (s : State) (off n : Nat) : State := s.modJob fun x => { x with ctr := ctrAdd x.ctr off n }

/-- A load-time register of a tile (R42, R51 and so on). -/
def Tile.reg (x : Tile) (off : Nat) : Word := Map.get (if off = 0x18 then 0xE4 else 0) x.cfg off

/-- A load-time register of the job with the reset value of its register (R255, R272, R285). -/
def Job.reg (j : Job) (off : Nat) : Word :=
  Map.get (if off = 0x10008 then 50000000 else if off = 0x10020 then 2000000000 else if off = 0x10028 then 64000 else 0)
    j.cfg off

/-! ## Interrupts (R371, R372) -/

/-- A transaction of the module takes slot units of the frames to come: one, and four with a line of data (R361). -/
def State.rlPost (s : State) (data : Bool) : State := s.modRl fun r => { r with units := r.units + (if data then 5 else 1) }

/-- Sends the `MSI` of a pending unmasked vector while Riendlink is `UP` (R372 to R374). -/
def State.sendMsi (s : State) (v : Nat) : State :=
  if s.rl.st = 4 ∧ Map.get false s.rl.pend v = true ∧ Map.get false s.rl.unmask v = true then
    (s.modRl fun r => { r with
      pend := Map.set false r.pend v false
      msiOut := r.msiOut ++ [(Map.get 0 r.msiA v, Map.get 0 r.msiD v)] }).rlPost false
  else s

/-- An event sets its vector's pending bit (R372). -/
def State.raiseMsi (s : State) (v : Nat) : State :=
  (s.modRl fun r => { r with pend := Map.set false r.pend v true }).sendMsi v

/-- An SMBus alert bit becomes set and raises vector 66 (R371, R405, R536). -/
def State.alert (s : State) (b : Nat) : State :=
  if s.power.alerts.testBit b then s
  else (s.modPower fun p => { p with alerts := p.alerts ||| 2 ^ b }).raiseMsi 66

/-! ## Mailbox postings (R382, R385, R388) -/

/-- The first word of a completion or event entry, without phase and CHEAD (R385). -/
def entryHead (evt : Bool) (opc status lost tag : Nat) : Word :=
  place 62 1 (bnat evt) ||| place 48 8 opc ||| place 40 8 status ||| place 32 8 lost ||| place 16 16 tag

/-- Writes one entry into the page's next completion slot (R382). -/
def Page.post (p : Page) (e : List Word) : Page :=
  let w0 := (e.headD 0) ||| place 63 1 (1 - (p.posted / 32) % 2) ||| place 0 16 p.chead.toNat
  { p with
    mem := Map.setRange 0 p.mem (256 + 8 * (p.posted % 32)) ((w0 :: e.tail).take 8)
    posted := p.posted + 1 }

/-- Whether the host has consumed the previous entry of the next slot (R382). -/
def Page.room (p : Page) : Bool := decide ((BitVec.ofNat 16 p.posted - p.cqh).toNat < 32)

/-- Posts what a page holds while it has room: completions in order, then events (R382, R388). (DEDUCED, log 45) -/
def State.drainPage (s : State) (k : Nat) : Nat → State
  | 0 => s
  | n + 1 =>
    let p := s.page k
    if s.helm.run && p.room then
      match p.hold, p.evts with
      | e :: r, _ => (((s.modPage k fun p => { p with hold := r }).modPage k (·.post e)).raiseMsi k).drainPage k n
      | [], e :: r =>
        let e' := ((e.headD 0) ||| place 32 8 p.lost) :: e.tail
        (((s.modPage k fun p => { p with evts := r, lost := 0 }).modPage k (·.post e')).raiseMsi k).drainPage k n
      | [], [] => s
    else s

/-- Eight words: a head and seven results padded with zeros. -/
def entry8 (h : Word) (ws : List Word) : List Word := (h :: (ws ++ List.replicate 7 0)).take 8

/-- An event for one page: 256 wait at most, further ones count in `LOST` (R388). -/
def State.eventTo (s : State) (k opc : Nat) (ws : List Word) : State :=
  let p := s.page k
  let s' := if p.evts.length < 256 then
      s.modPage k fun p => { p with evts := p.evts ++ [entry8 (entryHead true opc 0 0 0) ws] }
    else s.modPage k fun p => { p with lost := min 255 (p.lost + 1) }
  s'.drainPage k 300

/-- The page events go to: the event page of the loaded job, else page 0 (R388). -/
def State.evPage (s : State) : Nat := if s.job.img.isSome then s.job.evpage else 0

def State.event (s : State) (opc : Nat) (ws : List Word) : State := s.eventTo s.evPage opc ws

/-- The command codes (R389). -/
def isCommand (opc : Nat) : Bool :=
  [0x01, 0x02, 0x10, 0x11, 0x12, 0x13, 0x14, 0x15, 0x20, 0x21, 0x30, 0x31, 0x32, 0x33, 0x34, 0x35, 0x40, 0x41, 0x50, 0x51, 0x52,
    0x60, 0x61, 0x70, 0x71, 0x7F].contains opc

/-- The commands marked serial (R389). -/
def isSerial (opc : Nat) : Bool :=
  [0x10, 0x11, 0x12, 0x13, 0x14, 0x20, 0x21, 0x30, 0x50, 0x51, 0x60, 0x61, 0x70, 0x71].contains opc

/-- The command entry `n` commands after the last one taken (R378, R379). -/
def Page.entry (p : Page) (n : Nat) : List Word := Map.slice 0 p.mem (8 * ((p.chead.toNat + n) % 32)) 8

/-- Whether a page has a command to take: the helm runs, none is in progress, the completion of the one before is posted, and one
waits (R380, R383). -/
def State.canTake (s : State) (k : Nat) : Bool :=
  let p := s.page k
  s.helm.run && p.done && p.hold.isEmpty && decide (p.ctail ≠ p.chead)

/-- The helm takes the next command of a page (R380). -/
def State.take (s : State) (k : Nat) : State :=
  let e := (s.page k).entry 0
  let s1 := s.modPage k fun p => { p with chead := p.chead + 1, cur := e, done := false }
  s1.modHelm fun h => { h with
    serial := h.serial.eraseP fun d => decide (d.2 = k)
    serialBusy := if isSerial (fld (e.headD 0) 56 8) then some k else h.serialBusy }

/-- Posts the completion of the command a page has in progress (R380, R382, R385), and frees the serial slot (R381). -/
def State.postDone (s : State) (k status : Nat) (ws : List Word) : State :=
  let p := s.page k
  let w0 := p.cur.headD 0
  let e := entry8 (entryHead false (fld w0 56 8) status 0 (fld w0 32 16)) ws
  let s1 := s.modPage k fun p => { p with cur := [], done := true, hold := p.hold ++ [e] }
  let s2 := s1.modHelm fun h => { h with serialBusy := if h.serialBusy = some k then none else h.serialBusy }
  s2.drainPage k 300

/-- Takes commands whose code is none and completes them with `OPCODE` (R386); at most `n`. (DEDUCED, log 45) -/
def State.serveBad (s : State) (k : Nat) : Nat → State
  | 0 => s
  | n + 1 =>
    if s.canTake k ∧ isCommand (fld (((s.page k).entry 0).headD 0) 56 8) = false then
      ((s.take k).postDone k 1 []).serveBad k n
    else s

/-- Completes the command a page has in progress. (DEDUCED, log 45) -/
def State.complete (s : State) (k status : Nat) (ws : List Word) : State :=
  if (s.page k).done then s else (s.postDone k status ws).serveBad k 32

/-- `DEV_STOW_STAT` (chapter 11). -/
def Stow.stat (w : Stow) : Word :=
  place 63 1 (bnat w.busy) ||| place 62 1 w.wslot ||| place 61 1 (bnat w.hold) ||| place 60 1 (bnat w.freeze) |||
    place 59 1 (bnat w.vb) ||| place 58 1 (bnat w.va) ||| place 0 10 (if w.total = 0 then 0 else min 1023 (w.sentB * 1024 / w.total))

/-- `JOB_STATUS` words 1 to 7 (R390). -/
def State.jobStatus (s : State) : List Word :=
  let j := s.job
  let p := j.prim
  [ place 0 4 j.js ||| place 8 8 j.trans ||| place 16 10 j.m ||| place 32 10 j.idx,
    j.sstep,
    place 62 2 p.level ||| place 44 14 p.unit ||| place 32 8 p.cause ||| place 0 32 p.detail,
    BitVec.ofNat 64 p.time,
    place 0 10 p.origin ||| place 16 16 p.nsec ||| place 32 16 (p.detail >>> 32),
    place 0 32 j.epoch ||| place 32 7 s.power.jstep,
    s.stow.stat ]

/-! ## Symbols and sync-tree edges (R352 to R354) -/

def Sym.mk5 (code dmod smod low : Nat) : Sym :=
  { code := code, pay := (dmod % 1024) <<< 18 ||| (smod % 1024) <<< 8 ||| low % 256 }

/-- The `FIX` symbol (R352). -/
def Sym.mkFix (dmod tick : Nat) : Sym := { code := 6, pay := (dmod % 1024) <<< 18 ||| tick % 2 ^ 18 }

def Sym.dmod (y : Sym) : Nat := (y.pay >>> 18) % 1024
def Sym.smod (y : Sym) : Nat := (y.pay >>> 8) % 1024
def Sym.low (y : Sym) : Nat := y.pay % 256

/-- This module's ID (R347). -/
def State.modid (s : State) : Nat := fld s.net.modid 0 10

/-- Queues a symbol at a port: up to 64 in order, `STOP`s before all others (R353); with 64 waiting a `STOP` displaces the last
other symbol. (DEDUCED, log 29) -/
def State.queueSym (s : State) (p : Nat) (y : Sym) : State :=
  s.modPort p fun x =>
    let stops := x.rx.syms.filter fun z => decide (z.code = 5)
    let rest := x.rx.syms.filter fun z => decide (z.code ≠ 5)
    if 64 ≤ x.rx.syms.length ∧ (y.code ≠ 5 ∨ rest = []) then x
    else if y.code = 5 then { x with rx := { x.rx with syms := stops ++ y :: rest.take (63 - stops.length) } }
    else { x with rx := { x.rx with syms := x.rx.syms ++ [y] } }

/-- `DEV_SYNC_EDGE` k as (index, peer, port), the valid ones (R354). -/
def State.edges (s : State) : List (Nat × Nat × Nat) :=
  (List.range 9).filterMap fun k =>
    let w := s.job.reg (0x10200 + 8 * k)
    if bit w 63 then some (k, fld w 48 10, fld w 40 5) else none

/-- The edges to the children, and the edge to the parent. -/
def State.childEdges (s : State) : List (Nat × Nat × Nat) := s.edges.filter fun e => decide (e.1 < 8)
def State.parentEdge (s : State) : Option (Nat × Nat × Nat) := s.edges.find? fun e => decide (e.1 = 8)

/-- The edges along which a symbol that came in by port `p` goes on: all but its own. Where several edges use that port the one it
came along is not known, and all of them are taken (R354; DEDUCED, log 29). -/
def State.edgesBut (s : State) (p : Option Nat) : List (Nat × Nat × Nat) :=
  let mine := s.edges.filter fun e => decide (some e.2.2 = p)
  if mine.length ≤ 1 then s.edges.filter fun e => decide (some e.2.2 ≠ p) else s.edges

/-- Sends a symbol along the given edges; `mk` makes it for the peer. -/
def State.sendAlong (s : State) (es : List (Nat × Nat × Nat)) (mk : Nat → Sym) : State :=
  es.foldl (fun s e => s.queueSym e.2.2 (mk e.2.1)) s

/-! ## Fix triggers and debug events (R492 to R497) -/

/-- A fix trigger (R494, R495): ignored while a fix is held, except that of a job fault; otherwise sets the latch tick, and
with `JOBWIDE`, or for a job fault, sends `FIX` along the sync tree for a tick 1,000 ticks ahead, at which this member latches
too unless `FIX_TRIG` is the source (R497). A latch whose tick is already set is replaced by that of a job fault only; one that a
job fault has set stands. (DEDUCED, log 37) -/
def State.fixTrigger (s : State) (src : Nat) (jobFault : Bool) : State :=
  let d := s.dbg
  if (¬ jobFault ∧ (¬ d.armed.testBit src ∨ d.latched ∨ d.pendSrc.isSome)) ∨ (d.pendSrc.isSome ∧ d.pendJob) then s
  else
    let wide := (d.jobwide || jobFault) && s.job.img.isSome && decide (src ≠ 0)
    let far := s.now + 10000
    let at_ := if wide && decide (src ≠ 4) then far else s.now + 10
    let s1 := s.modDbg fun d => { d with pendSrc := some src, pendTick := at_, pendJob := jobFault }
    if wide then s1.sendAlong s1.edges fun peer => Sym.mkFix peer (far / 10) else s1

/-- Records a stop or event of a kind in `TILE_DBG_STAT` with its other fields `w`: the first since it was cleared, and of several in one
compute cycle the lowest kind (R492). -/
def Tile.dbgRecord (x : Tile) (cyc kind : Nat) (w : Word) : Tile :=
  if bit x.misc.dbg 63 = true ∧ ¬ (x.misc.dbgCyc = cyc ∧ kind < fld x.misc.dbg 60 3) then x
  else { x with misc := { x.misc with dbgCyc := cyc, dbg := place 63 1 1 ||| place 60 3 kind ||| w } }

/-- A stop or event of a tile is recorded (R492) and triggers fix (R493). -/
def State.debugEvent (s : State) (t kind stream engine code pc : Nat) : State :=
  let s1 := s.modTile t fun x => x.dbgRecord s.cycle kind (place 56 3 stream ||| place 52 4 engine ||| place 40 8 code ||| place 0 13 pc)
  s1.fixTrigger 1 false

/-! ## Faults (R22, R23, R67, R69, R441, R445, R448, R457, R458) -/

/-- A fault register of a cluster, region or the module with a fault recorded (R445): the first one, then `MULTI`. -/
def recordReg (reg time : Word) (cause detail now : Nat) : Word × Word :=
  if bit reg 63 then (reg ||| place 62 1 1, time)
  else ((reg &&& place 61 1 1) ||| place 63 1 1 ||| place 48 8 cause ||| place 0 48 detail, BitVec.ofNat 64 now)

/-- Whether the rows of an access in flight are a destination that a stop leaves unpredictable (R69): those of a started array
operation (R71), a vector operation and a porter transfer that was not refused. A scalar store, and a cluster-store or uniform access,
leave them as they are (an accepted one lands later, R187). -/
def Tile.doomed (x : Tile) (a : Acc) : Bool :=
  a.wr && (if a.eng ≤ 1 then x.io.arr.any fun o => o.go && decide (o.id = a.id)
    else if a.eng = 4 then x.io.tags.any fun g => decide (g.id = a.id) && !g.stuck
    else decide (a.eng = 2 ∨ a.eng = 5 ∨ a.eng = 6))

/-- The rows of an access hold unpredictable data, and so do the seal entries of their groups (R69, R127). -/
def Tile.scramble (x : Tile) (free : Nat) (a : Acc) (i : Nat) : Tile :=
  if a.am then
    { x with
      am := Map.setRange 0 x.am (64 * a.lo)
        ((List.range (64 * a.n)).map fun k => (Config.freeWord free (2 ^ 24 * i + k)).setWidth 32) }
  else
    let groups := (List.range 96).filter fun g => decide (a.lo < 8 * g + 8 ∧ 8 * g < a.lo + a.n)
    { x with
      sp := Map.setRange 0 x.sp (512 * a.lo)
        ((List.range (512 * a.n)).map fun k => Config.freeByte free (2 ^ 24 * i + k))
      misc := { x.misc with
        sealE := groups.foldl (fun m g => Map.set 0 m g ((Config.freeWord free (2 ^ 43 + 2 ^ 24 * i + g)).setWidth 32)) x.misc.sealE
        sealV := groups.foldl (fun m g => Map.set false m g (decide (Config.freeNat free (2 ^ 24 * i + g) % 2 = 1))) x.misc.sealV } }

/-- The other destinations of a vector or array operation in flight: the register of a sum, a coefficient row, a stationary
buffer. They are unpredictable once the operation has stopped (R69). -/
def Tile.scrambleOp (x : Tile) (free : Nat) (o : Op) (i : Nat) : Tile :=
  let op := fld o.w 56 8
  let v := fun k => Config.freeWord free (2 ^ 41 + 2 ^ 24 * i + k)
  if op = 0x4B ∨ op = 0x4C then
    let d := fld o.w 42 5
    if d = 0 then x
    else
      let set := fun (q : Seq) => { q with s := Map.set 0 q.s d (v 0) }
      match o.q with
      | .f => { x with sq := { x.sq with f := set x.sq.f } }
      | .b => { x with sq := { x.sq with b := set x.sq.b } }
      | .u => { x with sq := { x.sq with u := set x.sq.u } }
      | .x => x
  else if op = 0x81 then { x with ctab := Map.setRange 0 x.ctab (8 * fld o.w 41 6) ((List.range 8).map v) }
  else if op = 0x80 ∧ o.go then { x with ctab := Map.set 0 x.ctab (8 * fld o.w 41 6 + 7) (v 0) }
  else if op = 0x50 then
    let b : StatBuf := {
      fmt := fld o.w 28 4
      el := Map.setRange 0 [] 0 ((List.range 4096).map fun k => (v k).setWidth 32)
      sc := Map.setRange 0 [] 0 ((List.range 128).map fun k => (v (4096 + k)).setWidth 8) }
    if bit o.w 27 then { x with sb1 := b } else { x with sb0 := b }
  else x

/-- What a started array operation that stops has counted and summed: the path was busy for some of its cycles (R123), and a drain
that adds squares has added those of its first rows, however many it had written (R116, R127). -/
def Tile.partDone (x : Tile) (free : Nat) (o : Op) (i : Nat) : Tile :=
  if o.go then
    let busy := Config.freeNat free (2 ^ 41 + 2 * i) % (pathBusy o.w + 1)
    let y := x.count 0x208 busy
    if fld o.w 56 8 = 0x53 ∧ bit o.w 24 = true then
      let k := Config.freeNat free (2 ^ 41 + 2 * i + 1) % (arrN o.w + 1)
      let out := (chunks 64 k (Map.slice 0 x.am (64 * (o.v.getD 1 0).toNat) (64 * k))).map (drainRow o.w)
      { y with misc := { y.misc with ssq := out.foldl (fun a r => addSsq a (rowSquares (arrF o.w) r.1 r.2.1)) y.misc.ssq } }
    else y
  else x

/-- The tile stops (R69): its operations in flight end and what they write is unpredictable, requests its cluster has not
taken are withdrawn (R149), landed rows of incomplete blocks are unpredictable (R259), porter transfers hold their tags, toll units
stay held, accepted uniform accesses go on at their cluster, every other content is kept. How far its operations had come is free. -/
def Tile.stop (x : Tile) (free : Nat) : Tile :=
  let x0 := (x.io.arr.zipIdx).foldl (fun y p => y.partDone free p.1 p.2) x
  let x1 := ((x.io.acc.filter x.doomed).zipIdx).foldl (fun y p => y.scramble free p.1 p.2) x0
  let x2 := ((x1.xs.blks.filter fun b => decide (b.key.getD 2 0 ≠ 1)).zipIdx).foldl (fun y p =>
    y.scramble free { lo := p.1.row0, n := p.1.data.length / 512, wr := true } (2 ^ 20 + p.2)) x1
  let y := (((x.io.arr.filter (·.go)) ++ x.io.vec).zipIdx).foldl (fun y p => y.scrambleOp free p.1 p.2) x2
  { y with
    st := 8
    io := { y.io with
      arr := [], vec := [], sca := [], out := [], cs := none, tal := [], acc := [], late := []
      uni := y.io.uni.filter (·.acc)
      tags := y.io.tags.map fun g => { g with stuck := true } }
    misc := { y.misc with stepping := 0 } }

/-- The block of a store to HBM that stops as `s` holds it (R69, R207): untouched, or its bytes unpredictable, the check value invalid unless
all of them had been written, the ECC reports of bursts it may have replaced ended or not. Which is free. -/
def Stack.stopped (m : Stack) (free i g : Nat) (parts : List (Nat × Nat)) : Stack :=
  let f := fun (j : Nat) => Config.freeNat free (2 ^ 50 * (i + 1) + 4 * g + j)
  if f 0 % 2 = 0 then m
  else
    let y := m.put g ((parts.zipIdx).map fun p =>
      (p.1.1, (List.range p.1.2).map fun j => Config.freeByte free (2 ^ 50 * (i + 1) + 2 ^ 13 * (4096 * g + p.2) + j))) (decide (f 1 % 2 = 0))
    { y with
      ue := y.ue ++ m.ue.filter fun b => !(y.ue.contains b) && decide (f (2 + b) % 2 = 0)
      ce := y.ce ++ m.ce.filter fun b => !(y.ce.contains b) && decide (f (2 + b) % 2 = 0) }

/-- A store to HBM stops (R69, R207), but for a block whose check has failed: none of that is written (R205). -/
def State.stopStore (s : State) (x : Xfer) (i : Nat) (keep : Option Nat := none) : State :=
  let base := s.job.reg (0x20000 + 0x20 * dWin x.d)
  let cfg := s.job.reg (0x20010 + 0x20 * dWin x.d)
  let l := dSegs x.d []
  if dDir x.d = 1 ∧ bit cfg 2 = false ∧ x.stuck = false then
    ((segBlocks l).filter fun b => decide (some b ≠ keep)).foldl (fun s b =>
      let k := winGranule base cfg b
      s.modStk k.1 fun m => m.stopped s.free i k.2 ((l.filter fun g => decide (g.blk = b)).map fun g => (g.off, g.len))) s
  else s

/-- The compute cycles before `upto` in which a request waited at the cluster's arbiter and that `CLUSTER_CS_WAIT` has not counted yet
are counted (R185): those since the first of the waiting requests reached it. -/
def Cluster.countWait (x : Cluster) (upto : Nat) : Cluster :=
  match x.waiting with
  | [] => x
  | r :: l =>
    let first := max x.csAt (l.foldl (fun m a => min m a.at_) r.at_)
    if first < upto then { x with ctr := ctrAdd x.ctr 0x58 (upto - first), csAt := upto } else x

/-- The clusters that hold tiles of the job. -/
def Job.clusters (j : Job) : List Nat := (j.tiles.map clusterOf).eraseDups

/-- A Sextant `STEP` whose streams can issue no more ends with `STATE` (R486; DEDUCED, log 26). -/
def State.stepLost (s : State) : State :=
  if s.dbg.sxBusy ∧ s.tiles.all (fun p => decide (p.2.misc.stepping = 0)) then
    let s1 := s.modDbg fun d => { d with sxBusy := false, sxStat := 3, sxPage := none }
    match s.dbg.sxPage with
    | some k => s1.complete k 3 []
    | none => s1
  else s

/-- The fenced tiles, those of fenced clusters included (R458). -/
def Rel.fencedTiles (r : Rel) : List Nat := (r.fTiles ++ r.fClus.flatMap clusterTiles).eraseDups

/-- A tile's memories whose contents a sight has used and nothing restores: every byte is free (R455, R466). -/
def Tile.wild (x : Tile) (free t : Nat) : Tile :=
  let b := fun (m n : Nat) => (List.range n).map fun i => Config.freeByte free (2 ^ 40 * t + 2 ^ 32 * m + i)
  let w := fun (m n : Nat) => (List.range n).map fun i => Config.freeWord free (2 ^ 40 * t + 2 ^ 32 * m + i)
  let buf := fun (m : Nat) (y : StatBuf) => { y with
    el := Map.setRange 0 [] 0 ((w m 4096).map (·.setWidth 32)), sc := Map.setRange 0 [] 0 (b m 128) }
  { x with
    sp := Map.setRange 0 [] 0 (b 0 393216)
    am := Map.setRange 0 [] 0 ((w 1 65536).map (·.setWidth 32))
    sb0 := buf 2 x.sb0
    sb1 := buf 3 x.sb1
    ctab := Map.setRange 0 [] 0 (w 4 512)
    im := Map.setRange 0 [] 0 (w 5 8192) }

/-- The memories of tiles and clusters that a sight leaves so; a fenced tile takes no part in it (R454). (DEDUCED, log 39) -/
def State.wildUnits (s : State) (tiles clusters_ : List Nat) : State :=
  let s1 := s.forAll tiles fun s t =>
    if s.rel.fencedTiles.contains t then s else s.modTile t fun x => x.wild s.free t
  s1.forAll clusters_ fun s c => s.modCluster c fun x => { x with
    cs := Map.setRange 0 [] 0 ((List.range 25165824).map fun i => Config.freeByte s.free (2 ^ 52 + 2 ^ 32 * c + i)) }

/-- A job fault during the sight at a stow point: the sight ends and the memories are not reloaded (R466). -/
def State.sightCut (s : State) : State :=
  if s.rel.sgRun = 2 then
    ((s.wildUnits s.job.tiles s.job.clusters).took).modRel fun r => { r with sgRun := 0 }
  else s

/-- The job stops on this member (R4, R69): its tiles stop, its clusters take no further request, pending pauses, halts and
starts end with `ABORTED` (R407), a stow in progress ends with its slot invalid (R330), a sight at a stow point ends (R466). The tiles as they stood are kept for what the
rest of the tick brings (R23). -/
def State.stopJob (s : State) : State :=
  let s1 := s.forAll s.job.tiles fun s t =>
    let y := ((s.tile t).io.tags.zipIdx).foldl (fun s p => s.stopStore p.1 p.2) s
    (y.modTile t fun x => x.stop (s.free)).took
  let s2 := s1.forAll s.job.clusters fun s c => s.modCluster c fun x => { x.countWait s.cycle with waiting := [] }
  let waiting := s.job.wave.pausePages ++ (if (s.job.js = 3 ∨ s.job.startPend) ∧ s.job.startPage < 64 then [s.job.startPage] else [])
  let s3 := s2.modJob fun j => { j with
    js := 6, startPend := false
    shadow := if j.js = 4 then s.tiles else [], shadowAt := s.power.exc + 1
    wave := { j.wave with pauseReq := 0, haltReq := 0, pausePages := [], oneStep := false } }
  let s4 := s3.sightCut.modStow fun w => { w with sending := false, busy := false, freeze := false, hold := false, wait := false, buf := none }
  let s5 := s4.modDbg fun d => { d with relAt := none }
  (waiting.foldl (fun s k => s.complete k 0x0E []) s5).stepLost

/-- The stop code of a cause (R448). -/
def stopCode (level cause : Nat) : Nat := if level = 1 then cause + 0x10 else cause

/-- The primary cause among this one and the one recorded (R23). (DEDUCED, log 19) -/
def Prim.merge (p q : Prim) : Prim :=
  if q.time < p.time ∨ (q.time = p.time ∧ (q.level < p.level ∨ (q.level = p.level ∧ q.unit < p.unit))) then
    { q with nsec := p.nsec + 1 }
  else { p with nsec := p.nsec + 1 }

/-- A job fault (R4): the job stops on this member, `STOP` travels along the sync tree, the member where it arose sets the fix latch of
all (R495), the host is told. With
the job already stopped the cause is a further one (R23). With no job loaded nothing stops (R441). `skip` is the port a
`STOP` came in by. (DEDUCED, log 19) -/
def State.jobFault (s : State) (level unit cause detail origin : Nat) (skip : Option Nat) : State :=
  if s.job.img.isNone then s.fixTrigger 2 false
  else
    let q : Prim := { valid := true, level := level, unit := unit, cause := cause, detail := detail, time := s.now, origin := origin }
    if s.job.js = 6 then
      if s.job.prim.valid then s.modJob fun j => { j with prim := j.prim.merge q } else s.modJob fun j => { j with prim := q }
    else
      let s1 := s.modJob fun j => { j with prim := q }
      let code := if level = 3 ∧ cause = 0x4F then (detail >>> 16) % 256 else stopCode level cause
      let s2 := s1.sendAlong (s1.edgesBut skip) fun peer => Sym.mk5 5 peer origin code
      let s3 := (if skip.isNone then s2.fixTrigger 2 true else s2).stopJob
      ((s3.raiseMsi 64).alert 4).event 0xE0 s3.jobStatus

/-- A fence decision takes effect (R458): the unit is fenced. -/
def State.fence (s : State) (d : Nat × Nat) : State :=
  let s1 := s.modRel fun r => { r with pendF := r.pendF.filter fun e => decide (e ≠ d) }
  match d with
  | (0, t) => (s1.modRel fun r => { r with fTiles := (t :: r.fTiles).eraseDups }).modTile t fun x => { x with st := 9 }
  | (1, c) =>
    (s1.modRel fun r => { r with
      fClus := (c :: r.fClus).eraseDups
      fTiles := (clusterTiles c ++ r.fTiles).eraseDups }).forAll (clusterTiles c) fun s t => s.modTile t fun x => { x with st := 9 }
  | (2, t) => s1.modRel fun r => { r with fRtr := (t :: r.fRtr).eraseDups }
  | (_, l) => s1.modRel fun r => { r with fLink := (l :: r.fLink).eraseDups }

/-- The regions at the ends of a die-boundary link (R389 `FENCE_QUERY`). (DEDUCED, log 21) -/
def linkRegions (l : Nat) : List Nat :=
  if l < 168 then [regionOf (tileAt (12 * (l / 24) + 11) (l % 24)), regionOf (tileAt (12 * (l / 24) + 12) (l % 24))]
  else [regionOf (tileAt (l - 168) 11), regionOf (tileAt (l - 168) 12)]

/-- Whether a pending decision must wait for the loaded job (R458). A route of the job is taken to cross a router or link of
a region the job needs (DEDUCED, log 21). -/
def State.fenceWaits (s : State) (d : Nat × Nat) : Bool :=
  match d with
  | (0, t) => s.job.img.isSome && s.job.tiles.contains t
  | (1, c) => s.job.img.isSome && (clusterTiles c).any s.job.tiles.contains
  | (2, t) => s.job.img.isSome && s.job.needs.testBit (regionOf t)
  | (_, l) => s.job.img.isSome && (linkRegions l).any s.job.needs.testBit

/-- Commits the pending decisions that need not wait, while the helm runs (R403, R458). -/
def State.commitFences (s : State) : State :=
  if s.helm.run then s.rel.pendF.foldl (fun s d => if s.fenceWaits d then s else s.fence d) s else s

/-- Records a fence decision (R457, R458). -/
def State.fenceDecide (s : State) (d : Nat × Nat) : State :=
  (if s.rel.pendF.contains d then s else s.modRel fun r => { r with pendF := r.pendF ++ [d] }).commitFences

/-- 720 hours of service in nanoseconds (R457). -/
def window720 : Nat := 2592000000000000

/-- Records evidence, and whether the same unit had some within 720 h of service (R457). -/
def State.evidence (s : State) (kind unit : Nat) : State × Bool :=
  let second := s.rel.evid.any fun e => decide (e.1 = kind ∧ e.2.1 = unit ∧ s.rel.hours - e.2.2 ≤ window720)
  (s.modRel fun r =>
    let l := r.evid ++ [(kind, unit, r.hours)]
    { r with evid := l, flash := if s.helm.run then l else r.flash, flashH := if s.helm.run then r.hours else r.flashH },
   second)

/-- A module fault (R445, R447). (DEDUCED, log 19) -/
def State.devFault (s : State) (cause detail : Nat) (skip : Option Nat := none) (origin : Option Nat := none) : State :=
  let s1 := s.modRel fun r =>
    let p := recordReg r.fault r.faultTime cause detail s.now
    { r with fault := p.1, faultTime := p.2 }
  s1.jobFault 3 0 cause detail (origin.getD s.modid) skip

/-- A lower level's fault is noted in the region and the module (R22, R445). -/
def State.noteRegion (s : State) (r : Nat) : State :=
  (s.modRegion r fun x => { x with fault := x.fault ||| place 61 1 1 }).modRel fun x => { x with fault := x.fault ||| place 61 1 1 }

/-- A region fault (R445, R446): a job fault where a loaded job needs the region; `job` is false for an access that is not of a
job (R217). (DEDUCED, log 19) -/
def State.regionFault (s : State) (r cause detail : Nat) (job : Bool := true) : State :=
  let s1 := s.modRegion r fun x =>
    let p := recordReg x.fault x.faultTime cause detail s.now
    { x with fault := p.1, faultTime := p.2 }
  let s2 := s1.modRel fun x => { x with fault := x.fault ||| place 61 1 1 }
  if job && s.job.img.isSome && s.job.needs.testBit r then s2.jobFault 2 r cause detail s.modid none else s2.fixTrigger 2 false

/-- A cluster fault (R280, R445), and for `CS_PARITY` its evidence (R457). (DEDUCED, log 19) -/
def State.clusterFault (s : State) (c cause detail : Nat) : State :=
  let s1 := s.modCluster c fun x =>
    let p := recordReg x.fault x.faultTime cause detail s.now
    { x with fault := p.1, faultTime := p.2 }
  let s2 := s1.noteRegion (c / 12)
  let s3 := if cause = 1 then
      let e := s2.evidence 1 c
      if e.2 then e.1.fenceDecide (1, c) else e.1
    else s2
  if s.job.img.isSome && s.job.clusters.contains c then s3.jobFault 1 c cause detail s.modid none else s3.fixTrigger 2 false

/-- `TILE_FAULT` with a fault recorded (R67): the first, then `MULTI`. -/
def tileFaultWord (old : Word) (stream cause detail pc : Nat) : Word :=
  if bit old 63 then old ||| place 62 1 1
  else place 63 1 1 ||| place 59 3 stream ||| place 48 8 cause ||| place 16 32 detail ||| place 0 13 pc

/-- A tile fault (R67 to R70, R548) with its evidence (R457): a job fault where the tile is in a loaded job. (DEDUCED, log 19) -/
def State.tileFault (s : State) (t stream cause detail pc : Nat) : State :=
  let s1 := s.modTile t fun x => { x with
    fault := tileFaultWord x.fault stream cause detail pc
    faultTime := if bit x.fault 63 then x.faultTime else BitVec.ofNat 64 s.now
    cyc := if bit x.fault 63 then x.cyc else { x.cyc with faultAt := s.cycle + 1 } }
  let s2 := (s1.modCluster (clusterOf t) fun x => { x with fault := x.fault ||| place 61 1 1 }).noteRegion (regionOf t)
  let s3 :=
    if cause = 0x0C then s2.fenceDecide (0, t)
    else if cause = 0x03 ∨ cause = 0x05 then
      let e := s2.evidence 0 t
      if e.2 then e.1.fenceDecide (0, t) else e.1
    else s2
  if s.job.img.isSome && s.job.tiles.contains t then s3.jobFault 0 t cause detail s.modid none else s3.fixTrigger 2 false

/-! ## Faults of one tick (R23, R68) -/

/-- Whether this tick is the one in which the job stopped: what happens in it may still fault (R23). -/
def State.sameTick (s : State) : Bool := decide (s.job.js = 6 ∧ s.job.shadowAt = s.power.exc + 1)

/-- The module as it stood when the job stopped, for a command of tile `t` in the same tick: no fault of the tile or of its cluster
recorded yet. (DEDUCED, log 47) -/
def State.unstopped (s : State) (t : Nat) : State :=
  let s1 : State := { s with tiles := s.job.shadow, job := { s.job with js := 4 } }
  (s1.modTile t fun x => { x with fault := 0 }).modCluster (clusterOf t) fun c => { c with fault := 0 }

/-- A further fault of a tile in the tick of the stop (R23): it is recorded like any other; where it is of the recorded one's compute
cycle and its stream comes earlier in the order F, B, U, X, it replaces the record, and the primary cause if that is the tile's, and
`MULTI` is set (R68). -/
def State.laterFault (s : State) (t : Nat) (f : Word) : State :=
  let old := (s.tile t).fault
  let q := fld f 59 3
  let s1 := s.tileFault t q (fld f 48 8) (fld f 16 32) (fld f 0 13)
  if bit old 63 ∧ q < fld old 59 3 ∧ fld old 59 3 < 4 then
    let p := s1.job.prim
    let s2 := s1.modTile t fun x => { x with fault := f ||| place 62 1 1 }
    if p.level = 0 ∧ p.unit = t then s2.modJob fun j => { j with prim := { p with cause := fld f 48 8, detail := fld f 16 32 } } else s2
  else s1

/-- The faults that a command of tile `t` in the tick of the stop has raised are recorded, but for one of a cycle in which its
sequencers had stopped (R67); what it took from the network is gone, anything else it did goes to the copy of the tile that the tick keeps
(R23). (DEDUCED, log 47) -/
def State.alsoFaults (s : State) (t : Nat) (v : State) : State :=
  let y := v.tile t
  let c := (v.cluster (clusterOf t)).fault
  let s0 : State := { s with free := v.free, sub := v.sub, net := v.net }
  if bit y.fault 63 then
    if bit (s.tile t).fault 63 ∧ (s.tile t).cyc.faultAt < y.cyc.faultAt then s else s0.laterFault t y.fault
  else if bit c 63 then s0.clusterFault (clusterOf t) (fld c 48 8) (fld c 0 48)
  else s0.modJob fun j => { j with shadow := Map.set {} j.shadow t y }

/-- A command of tile `t`: in the tick in which the job stopped, what it would have done on the tile as it stood, of which only faults
remain (R23); else `f`. (DEDUCED, log 47) -/
def alongside (t : Nat) (s : State) (f : State → Host.Outcome State Fault Refusal) : Host.Outcome State Fault Refusal :=
  if s.sameTick then
    match f (s.unstopped t) with
    | .next v => .next (s.alsoFaults t v)
    | o => o
  else f s

/-- The code of a stream in registers and details (R67). -/
def Strm.code : Strm → Nat
  | .f => 0
  | .b => 1
  | .u => 2
  | .x => 3

end Sys2Proof.Machine
end

