-- ==== Sys2Proof/Machine/Flags.lean ====
section
/-! DEFINITION. The conditions of compares, the numeric event counters, and the status words that report a tile. -/

namespace Sys2Proof.Machine

/-- The conditions of `CMP` and `CMPI` (R140). -/
def condHolds (fn : Nat) (a b : Word) : Bool :=
  match fn with
  | 0 => a == b
  | 1 => a != b
  | 2 => decide (a.toInt < b.toInt)
  | 3 => decide (a.toInt ≤ b.toInt)
  | 4 => decide (a.toNat < b.toNat)
  | _ => decide (a.toNat ≤ b.toNat)

/-- The register of a numeric event (R95). -/
def numEvOff : NumEv → Nat
  | .nan => 0x300
  | .inf => 0x308
  | .sat => 0x310
  | .ovf => 0x318
  | .unf => 0x320

/-- Counts numeric events (R95, R96). (DEDUCED, log 23) -/
def Tile.countEvs (x : Tile) (l : List NumEv) : Tile := l.foldl (fun x e => x.count (numEvOff e) 1) x

/-- Base granule and length of a sequencer's partition (R38). -/
def Tile.part (x : Tile) (q : Strm) : Nat × Nat :=
  let w := x.reg 0x20
  match q with
  | .f => (fld w 0 7, fld w 8 8)
  | .b => (fld w 16 7, fld w 24 8)
  | .u => (fld w 32 7, fld w 40 8)
  | .x => (fld w 48 7, fld w 56 8)

/-- Whether a sequencer is used (R38). -/
def Tile.used (x : Tile) (q : Strm) : Bool := decide (0 < (x.part q).2)

/-- The registers of F, B or U (X has none of them, R45). -/
def SeqFile.get (f : SeqFile) : Strm → Seq
  | .f => f.f
  | .b => f.b
  | .u => f.u
  | .x => {}

def SeqFile.set (f : SeqFile) (q : Strm) (v : Seq) : SeqFile :=
  match q with
  | .f => { f with f := v }
  | .b => { f with b := v }
  | .u => { f with u := v }
  | .x => f

def Tile.seq (x : Tile) (q : Strm) : Seq := x.sq.get q
def Tile.modSeq (x : Tile) (q : Strm) (f : Seq → Seq) : Tile := { x with sq := x.sq.set q (f (x.sq.get q)) }
def Tile.modX (x : Tile) (f : XSeq → XSeq) : Tile := { x with sq := { x.sq with x := f x.sq.x } }
def Tile.modIo (x : Tile) (f : TileIo → TileIo) : Tile := { x with io := f x.io }
def Tile.modXs (x : Tile) (f : TileX → TileX) : Tile := { x with xs := f x.xs }
def Tile.modQu (x : Tile) (f : TileQ → TileQ) : Tile := { x with qu := f x.qu }
def Tile.modMisc (x : Tile) (f : TileMisc → TileMisc) : Tile := { x with misc := f x.misc }

/-- The program counter and halt bit of a sequencer. -/
def Tile.pc (x : Tile) (q : Strm) : Nat :=
  match q with
  | .x => x.sq.x.pc.toNat
  | _ => (x.seq q).pc.toNat

def Tile.halted (x : Tile) (q : Strm) : Bool :=
  match q with
  | .x => x.sq.x.halted
  | _ => (x.seq q).halted

/-- Halts or releases a sequencer (R71, R484). -/
def Tile.setHalt (x : Tile) (q : Strm) (h : Bool) : Tile :=
  match q with
  | .x => x.modX fun v => { v with halted := h }
  | _ => x.modSeq q fun v => { v with halted := h }

/-- Halts a sequencer at a scope: 0 stream, 1 tile, 2 module, 3 job. The lowest scope that holds it is kept (R484). -/
def Tile.haltBy (x : Tile) (q : Strm) (scope : Nat) : Tile :=
  let old := Map.get 0 x.misc.haltAt (Strm.code q)
  (x.setHalt q true).modMisc fun m => { m with
    haltAt := Map.set 0 m.haltAt (Strm.code q) (if x.halted q then min old scope else scope) }

/-- Releases a sequencer at a scope: one that a lower scope holds stays halted (R484). -/
def Tile.releaseAt (x : Tile) (q : Strm) (scope : Nat) : Tile :=
  if scope ≤ Map.get 0 x.misc.haltAt (Strm.code q) then
    (x.setHalt q false).modMisc fun m => { m with haltAt := Map.set 0 m.haltAt (Strm.code q) 0 }
  else x

def allStrms : List Strm := [.f, .b, .u, .x]

/-- The absolute slot a sequencer fetches next (R43). -/
def Tile.slot (x : Tile) (q : Strm) : Nat := (64 * (x.part q).1 + x.pc q) % 8192

/-- Whether a stream has executed `SYNC` in this superstep; an unused one counts as having done so (R38). -/
def Tile.synced (x : Tile) (q : Strm) : Bool :=
  match q with
  | .x => x.sq.x.ended
  | _ => (x.seq q).sync || !x.used q

/-- Whether the region of a tile is on (R66). -/
def State.tileOn (s : State) (t : Nat) : Bool := decide ((s.region (regionOf t)).pwr = 0) && !s.power.brown

/-- The state code `TILE_STATE` shows (R66). -/
def State.tileCode (s : State) (t : Nat) : Nat :=
  let x := s.tile t
  if !s.tileOn t then 0
  else if x.st = 8 ∨ x.st = 9 ∨ x.st = 1 then x.st
  else if allStrms.all x.halted then 7
  else x.st

/-- `TILE_STATE` (R66). -/
def State.tileState (s : State) (t : Nat) : Word :=
  let x := s.tile t
  let c := s.tileCode t
  let cfg := x.reg 0x18
  let active := fun (q : Strm) =>
    match q with
    | .x => decide (c = 5) && !x.sq.x.ended && x.used .x && !x.halted .x
    | _ => decide (c = 3) && !x.synced q && !x.halted q
  if c = 0 then 0
  else
    place 18 1 (bnat (decide (c = 9))) ||| place 17 1 (fld cfg 8 1) ||| place 16 1 (fld cfg 9 1) |||
      (allStrms.foldl (fun w q => w ||| place (12 + Strm.code q) 1 (bnat (x.halted q)) |||
        place (8 + Strm.code q) 1 (bnat (match q with | .x => false | _ => x.synced q && decide (3 ≤ c ∧ c ≤ 7))) |||
        place (4 + Strm.code q) 1 (bnat (active q))) 0) ||| place 0 4 c

/-- Whether the inbound buffer holds a message that waits, or one that waited and is being written (R287; DEDUCED, log 44). -/
def Tile.blocked (x : Tile) : Bool := x.qu.inbox.isSome || x.qu.wrs.any fun w => w.waited

end Sys2Proof.Machine
end

