-- ==== Sys2Proof/Machine/TileOps.lean ====
section
/-! DEFINITION. What the instructions of a tile share: scratchpad access with parity, races, watchpoints and seals; marks and
registers; the operations in flight; fetching, checking and issuing the next instruction of a stream. -/

namespace Sys2Proof.Machine

/-- Who accesses a row: tile, stream code (4 for none), engine code (R490), the slot of the instruction. -/
structure Acct where
  t : Nat
  q : Nat
  eng : Nat
  pc : Nat
deriving DecidableEq, Repr

/-! ## Rows in flight (R64, R69, R171, R500) -/

/-- Whether rows `[lo, lo + n)` and `[a, a + m)` share one. -/
def overlap (lo n a m : Nat) : Bool := decide (lo < a + m ∧ a < lo + n)

/-- Whether the stream path orders two accesses (R121): both are of its operations and it is not the case that the later one
reads what the earlier one writes. (DEDUCED, log 22) -/
def Acc.streamed (a b : Acc) : Bool :=
  a.path && b.path && (if a.id < b.id then !a.wr || b.wr else !b.wr || a.wr)

/-- Whether two accesses of a tile's rows conflict: a shared row, one of the two writes, and no order between them: array
operations are ordered on accumulator rows and by the stream path (R121), scalar-port operations of one stream complete in
order (R141). (DEDUCED, log 22) -/
def Acc.conflicts (a b : Acc) : Bool :=
  decide (a.am = b.am) && overlap a.lo a.n b.lo b.n && (a.wr || b.wr) && decide (a.id ≠ b.id) &&
    !(a.am && decide (a.eng ≤ 1 ∧ b.eng ≤ 1)) && !(a.streamed b) && !(decide (a.eng = 3 ∧ b.eng = 3 ∧ a.q = b.q))

/-- The rows of `a` that `b` touches. -/
def Acc.common (a b : Acc) : List Nat :=
  ((List.range a.n).map (a.lo + ·)).filter fun r => decide (b.lo ≤ r ∧ r < b.lo + b.n)

/-- The rows of `a` that become unpredictable when `b` is in flight with it: what it reads while the other writes, and what
both write (R64, R165). The vector unit takes its operations in order (R55), so among them only a read behind an earlier
write that has not completed is unpredictable (DEDUCED, log 22). -/
def Acc.spoiled (a b : Acc) : List Nat :=
  if a.conflicts b && b.wr && !(decide (a.eng = 2 ∧ b.eng = 2) && (a.wr || decide (a.id < b.id)))
  then a.common b else []

/-- An access joins the ones in flight: each side's spoiled rows are noted. (DESIGN CHOICE, log 9) -/
def Tile.addAcc (x : Tile) (a : Acc) : Tile :=
  let mine := x.io.acc.flatMap fun b => a.spoiled b
  x.modIo fun io => { io with
    acc := (io.acc.map fun b => { b with racy := b.racy ++ b.spoiled a }) ++ [{ a with racy := mine }] }

/-- The first access in flight that conflicts, for the race check (R500). (DESIGN CHOICE, log 9; DEDUCED, log 22) -/
def Tile.clash (x : Tile) (a : Acc) : Option Acc := if a.am then none else x.io.acc.find? fun b => a.conflicts b

/-- Whether a sounding check is on (R499). -/
def State.soundChk (s : State) (i : Nat) : Bool := let w := s.job.reg 0x90020; bit w 63 && bit w (56 + i)

/-- Adds accesses of one operation and, in sounding mode, raises `HAZARD` kind 1 for the first conflict (R500, R503). -/
def State.addAccs (s : State) (t : Nat) (pc : Nat) (l : List Acc) : State :=
  let x := s.tile t
  let hit := l.findSome? fun a => (x.clash a).map fun b => (a, b)
  let s1 := s.setTile t (l.foldl Tile.addAcc x)
  match hit with
  | some (a, b) =>
    if s.soundChk 0 then
      s1.tileFault t a.q 0x0E (0x01000000 + b.eng * 2 ^ 20 + a.eng * 2 ^ 16 + max a.lo b.lo) pc
    else s1
  | none => s1

/-- The accesses of an operation leave. -/
def Tile.dropAcc (x : Tile) (id : Nat) : Tile := x.modIo fun io => { io with acc := io.acc.filter fun a => decide (a.id ≠ id) }

/-- Rows whose content an operation reads unpredictably, and rows it writes unpredictably. (DESIGN CHOICE, log 9) -/
def Tile.racyReads (x : Tile) (id : Nat) (am : Bool) : List Nat :=
  x.io.acc.flatMap fun a => if a.id = id ∧ a.am = am ∧ ¬ a.wr then a.racy else []
def Tile.racyWrites (x : Tile) (id : Nat) : List Nat :=
  x.io.acc.flatMap fun a => if a.id = id ∧ ¬ a.am ∧ a.wr then a.racy else []

/-- Whether an engine may not use a row's bank in SPLIT mode (R171, R172). -/
def Tile.foreign (x : Tile) (eng row : Nat) : Bool :=
  let split := !(bit (x.reg 0x18) 8)
  let wide := bit (x.reg 0x30) (row / 96)
  if eng = 3 ∨ eng = 8 then false
  else if eng ≤ 2 then split && wide
  else split && !wide

/-! ## Watchpoints (R489) -/

/-- The first enabled watchpoint that rows `[lo, lo + n)` and the kind of access hit. -/
def Tile.watchHit (x : Tile) (lo n : Nat) (wr : Bool) : Option Nat :=
  (List.range 2).find? fun i =>
    let w := Map.get 0 x.misc.wp (0xA80 + 8 * i)
    let k := fld w 10 2
    bit w 63 && decide (lo ≤ fld w 0 10 ∧ fld w 0 10 < lo + n) && decide (2 ≤ k ∨ (k = 0 ↔ wr = true))

/-- A watchpoint hit halts every stream of the tile and is a debug event (R489, R493). -/
def State.watch (s : State) (c : Acct) (lo n : Nat) (wr : Bool) : State :=
  if s.dbg.bpen then
    match (s.tile c.t).watchHit lo n wr with
    | some i =>
      let s1 := s.modTile c.t fun x => allStrms.foldl (fun x q => x.haltBy q 1) x
      let pc := match c.q with
        | 0 => (s.tile c.t).slot .f
        | 1 => (s.tile c.t).slot .b
        | 2 => (s.tile c.t).slot .u
        | 3 => (s.tile c.t).slot .x
        | _ => 0
      s1.debugEvent c.t 2 c.q c.eng i pc
    | none => s
  else s

/-! ## Scratchpad rows -/

/-- Prefetch accounting of a read (R222), and the first read of a landed row under the stale-fetch check (R501): the reading
stream and slot are noted beside its tag. -/
def Tile.noteRead (x : Tile) (c : Acct) (lo n : Nat) : Tile :=
  (List.range n).foldl (fun x i =>
    let r := lo + i
    let b := Map.get 0 x.misc.pf r
    let g := Map.get 0 x.misc.pfTag r
    let x1 := if b = 0 then x else (x.count 0x528 b).modMisc fun m => { m with pf := Map.set 0 m.pf r 0 }
    if 0 < g ∧ g ≤ 64 then x1.modMisc fun m => { m with pfTag := Map.set 0 m.pfTag r (g + 64 * (1 + c.q) + 512 * c.pc) } else x1) x

/-- Prefetch accounting of a write (R222), seals invalid (R119), parity as written (R165, R177). -/
def Tile.noteWrite (x : Tile) (lo n : Nat) : Tile :=
  let x1 := (List.range n).foldl (fun x i =>
    let r := lo + i
    let b := Map.get 0 x.misc.pf r
    let x' := if b = 0 then x else (x.count 0x530 b).modMisc fun m => { m with pf := Map.set 0 m.pf r 0 }
    x'.modMisc fun m => { m with
      pfTag := Map.set 0 m.pfTag r 0
      sealV := Map.set false m.sealV (r / 8) false }) x
  { x1 with spBad := x1.spBad.filter fun k => decide (k / 8 < lo ∨ lo + n ≤ k / 8) }

/-- The first row of a range with a parity mismatch (R177). -/
def Tile.badRow (x : Tile) (lo n : Nat) : Option Nat :=
  ((List.range n).map (lo + ·)).find? fun r => x.spBad.any fun k => decide (k / 8 = r)

/-- Reads whole rows (R165): a parity mismatch raises `SP_PARITY` and gives nothing (R177); a row in `racy`, or of a bank the
engine's class does not own, reads unpredictable bytes (R64, R171). (DESIGN CHOICE, log 9) -/
def State.readRows (s : State) (c : Acct) (lo n : Nat) (racy : List Nat) : State × Option (List Byte) :=
  let x := s.tile c.t
  match x.badRow lo n with
  | some r => (s.tileFault c.t c.q 0x05 r c.pc, none)
  | none =>
    let rows := (List.range n).flatMap fun i =>
      if racy.contains (lo + i) || x.foreign c.eng (lo + i) then
        (List.range 512).map fun k => Config.freeByte s.free (512 * (lo + i) + k)
      else Map.slice 0 x.sp (512 * (lo + i)) 512
    (((s.setTile c.t (x.noteRead c lo n)).watch c lo n false).took, some rows)

/-- Writes whole rows: a row in `racy`, or of a bank the engine's class does not own, holds unpredictable bytes (R64, R171). (DESIGN CHOICE, log 9) -/
def State.writeRows (s : State) (c : Acct) (lo : Nat) (b : List Byte) (racy : List Nat) : State :=
  let x := s.tile c.t
  let n := b.length / 512
  let rows := (List.range n).flatMap fun i =>
    if racy.contains (lo + i) || x.foreign c.eng (lo + i) then
      (List.range 512).map fun k => Config.freeByte s.free (512 * (lo + i) + k)
    else (b.drop (512 * i)).take 512
  let y := x.noteWrite lo n
  ((s.setTile c.t { y with sp := Map.setRange 0 y.sp (512 * lo) rows }).watch c lo n true).took

/-- Rows that an instantaneous access must take as unpredictable: those an operation in flight writes. -/
def Tile.busyRows (x : Tile) (a : Acc) : List Nat := x.io.acc.flatMap fun b => a.spoiled b

/-- An instantaneous access to rows of a tile: what it reads or writes there is spoiled by operations in flight, and it
spoils theirs; sounding mode reports the conflict (R500). Gives the spoiled rows. -/
def State.touch (s : State) (c : Acct) (lo n : Nat) (wr : Bool) : State × List Nat :=
  let x := s.tile c.t
  let a : Acc := { id := x.io.nextId, eng := c.eng, q := c.q, lo := lo, n := n, wr := wr }
  let rows := x.busyRows a
  let s1 := s.addAccs c.t c.pc [a]
  (s1.modTile c.t fun y => (y.dropAcc a.id).modIo fun io => { io with nextId := io.nextId + 1 }, rows)

/-- Reads rows at once. -/
def State.readNow (s : State) (c : Acct) (lo n : Nat) : State × Option (List Byte) :=
  let p := s.touch c lo n false
  p.1.readRows c lo n p.2

/-- Writes whole rows at once. -/
def State.writeNow (s : State) (c : Acct) (lo : Nat) (b : List Byte) : State :=
  let p := s.touch c lo (b.length / 512) true
  p.1.writeRows c lo b p.2

/-! ## Accumulator memory (R101, R126) -/

def Tile.amRow (x : Tile) (r : Nat) : List W32 := Map.slice 0 x.am (64 * r) 64

/-- The first accumulator row of a range with a parity mismatch. -/
def Tile.badAm (x : Tile) (lo n : Nat) : Option Nat :=
  ((List.range n).map (lo + ·)).find? fun r => x.amBad.any fun k => decide (k / 64 = r)

/-- Reads accumulator rows; a mismatch raises `SP_PARITY` (R126). -/
def State.readAm (s : State) (c : Acct) (lo n : Nat) (racy : List Nat) : State × Option (List W32) :=
  let x := s.tile c.t
  match x.badAm lo n with
  | some r => (s.tileFault c.t c.q 0x05 (0x80000000 + r) c.pc, none)
  | none =>
    (s.took, some ((List.range n).flatMap fun i =>
      if racy.contains (lo + i) then
        (List.range 64).map fun k => (Config.freeWord s.free (2 ^ 30 + 64 * (lo + i) + k)).setWidth 32
      else x.amRow (lo + i)))

/-- Writes accumulator rows. -/
def Tile.writeAm (x : Tile) (lo : Nat) (v : List W32) : Tile :=
  { x with
    am := Map.setRange 0 x.am (64 * lo) v
    amBad := x.amBad.filter fun k => decide (k < 64 * lo ∨ 64 * lo + v.length ≤ k) }

/-! ## Registers and marks (R43, R53, R130) -/

def Seq.sreg (v : Seq) (i : Nat) : Word := if i = 0 then 0 else Map.get 0 v.s i
def Seq.areg (v : Seq) (i : Nat) : Word := Map.get 0 v.a i
def Seq.preg (v : Seq) (i : Nat) : Bool := if i = 0 then true else Map.get false v.p i
def Seq.setS (v : Seq) (i : Nat) (w : Word) : Seq := if i = 0 then v else { v with s := Map.set 0 v.s i w }
def Seq.setA (v : Seq) (i : Nat) (w : Word) : Seq := { v with a := Map.set 0 v.a i w }
def Seq.setP (v : Seq) (i : Nat) (b : Bool) : Seq := if i = 0 then v else { v with p := Map.set false v.p i b }
def Seq.mark (v : Seq) (i : Nat) : Nat := Map.get 0 v.m i
def Seq.addMark (v : Seq) (i : Nat) : Seq := { v with m := Map.set 0 v.m i (v.mark i + 1) }
def Seq.subMark (v : Seq) (i : Nat) : Seq := { v with m := Map.set 0 v.m i (v.mark i - 1) }

/-- The register fields of an instruction (R129). -/
def fD (w : Word) : Nat := fld w 42 5
def fA (w : Word) : Nat := fld w 37 5
def fB (w : Word) : Nat := fld w 32 5
def fC (w : Word) : Nat := fld w 27 5
def fN (w : Word) : Nat := fld w 19 8 + 1
def immS (w : Word) : Word := sext64 32 (fld w 0 32)

/-- The predicate holds (R130). -/
def Seq.predOk (v : Seq) (w : Word) : Bool := v.preg (fld w 52 3) != bit w 55

/-- The completion of an operation lowers the mark it names (R53). -/
def Tile.unmark (x : Tile) (o : Op) : Tile :=
  if bit o.w 51 then x.modSeq o.q fun v => v.subMark (fld o.w 47 4) else x

/-- A result reaches a register that was waiting for it (R48). -/
def Tile.result (x : Tile) (q : Strm) (d : Nat) (w : Word) : Tile :=
  x.modSeq q fun v => { v.setS d w with busy := v.busy.filter fun i => decide (i ≠ d) }

/-! ## Legal encodings (R128 to R133, R147) -/

/-- Bits `[lo + n - 1 : lo]` of a body mask. -/
def bm (lo n : Nat) : Nat := (2 ^ n - 1) <<< lo

def mD5 : Nat := bm 42 5
def mD3 : Nat := bm 42 3
def mA5 : Nat := bm 37 5
def mA3 : Nat := bm 37 3
def mB5 : Nat := bm 32 5
def mB3 : Nat := bm 32 3
def mC5 : Nat := bm 27 5
def mC3 : Nat := bm 27 3

/-- A format code that may be an array operand (R72). -/
def arrayFmt (c : Nat) : Bool := decide (c ≤ 0xA)
/-- A format code that may be a drain or conversion output, or a conversion input (R72, R143). -/
def outFmt (c : Nat) : Bool := decide (c ≤ 0xB)

/-- The body bits an opcode's layout names, none for an opcode that is not listed (R129, R133). A field an instruction does
not use is reserved (R142, and DEDUCED for R151, log 12); fields that R147 says are ignored may hold anything. -/
def bodyMask (w : Word) : Option Nat :=
  match fld w 56 8 with
  | 0x00 | 0x03 | 0x07 | 0xC5 | 0xC7 | 0xC8 => some 0
  | 0x01 | 0x02 | 0xC6 => some (bm 0 13)
  | 0x04 | 0x06 => some mA5
  | 0x05 => some (bm 0 16)
  | 0x08 => some (bm 0 8)
  | 0x10 | 0x11 | 0x12 | 0x13 | 0x14 | 0x15 | 0x16 | 0x17 | 0x18 | 0x19 | 0x1A => some (mD5 ||| mA5 ||| mB5)
  | 0x1B => some (mD5 ||| mA5 ||| bm 0 32)
  | 0x1C | 0x1D => some (mD5 ||| bm 0 32)
  | 0x1E => some (mD5 ||| bm 0 4)
  | 0x20 => some (mD3 ||| mA5 ||| mB5 ||| bm 28 4)
  | 0x21 => some (mD3 ||| mA5 ||| bm 32 4 ||| bm 0 32)
  | 0x22 => some (mD3 ||| mA3 ||| mB3 ||| bm 28 4)
  | 0x23 => some (mD3 ||| mA5)
  | 0x24 => some (mD3 ||| mA3 ||| bm 0 32)
  | 0x25 => some (mD5 ||| mA3)
  | 0x30 => some (mD5 ||| mA3 ||| bm 16 16 ||| bm 0 6)
  | 0x31 => some (mB5 ||| mA3 ||| bm 16 16 ||| bm 0 6)
  | 0x40 | 0x41 => some (mD3 ||| mA3 ||| mB3 ||| bm 18 9)
  | 0x42 => some (mD3 ||| mA3 ||| mB3 ||| mC3 ||| bm 18 9)
  | 0x43 | 0x44 => some (mD3 ||| mA3 ||| mB3 ||| bm 19 8)
  | 0x45 => some (mD3 ||| mA3 ||| mB3 ||| mC5 ||| bm 18 9)
  | 0x46 | 0x47 | 0x48 | 0x49 => some (mD3 ||| mA3 ||| bm 19 8)
  | 0x4A => some (mD3 ||| mA3 ||| mB3 ||| bm 9 18)
  | 0x4B | 0x4C => some (mD5 ||| mA3 ||| bm 18 9)
  | 0x4D => some (mD3 ||| mA3 ||| bm 18 9)
  | 0x50 => some (mA3 ||| (if isMx (fld w 28 4) then mB3 else mB5) ||| bm 15 17)
  | 0x51 => some (mD3 ||| mA3 ||| (if isMx (fld w 28 4) then mB3 else mB5) ||| bm 1 31)
  | 0x52 => some (mD3 ||| mA3 ||| bm 16 16)
  | 0x53 => some (mD3 ||| mA3 ||| mB3 ||| bm 6 26)
  | 0x60 => some (mA3 ||| bm 0 3)
  | 0x61 | 0x62 => some (mD3 ||| mA3 ||| bm 19 8)
  | 0x63 | 0x64 => some (mD3 ||| mA5 ||| bm 0 3)
  | 0x70 => some (bm 41 6 ||| bm 0 32)
  | 0x71 => some (bm 41 6 ||| bm 36 5)
  | 0x72 => some (bm 41 6 ||| bm 35 1 ||| bm 0 32)
  | 0x73 => some (bm 41 6 ||| bm 36 5)
  | 0x74 => some (mA3 ||| bm 32 5)
  | 0x75 => some (mD5 ||| mA5 ||| mB5 ||| mC5)
  | 0x76 | 0x77 => some (mD5 ||| bm 32 9)
  | 0x78 => some (bm 32 9 ||| bm 28 4)
  | 0x80 => some (bm 9 38)
  | 0x81 | 0x82 => some (bm 35 12)
  | 0xC0 => some (bm 11 36)
  | 0xC1 => some (bm 10 37)
  | 0xC2 => some (bm 39 8)
  | 0xC3 => some (bm 45 2 ||| bm 0 32)
  | 0xC4 => some (bm 45 2 ||| bm 0 13)
  | _ => none

/-- The opcodes whose Mark column reads yes (R132, R162). -/
def markable (op : Nat) : Bool :=
  decide (op = 0x31 ∨ (0x40 ≤ op ∧ op ≤ 0x4D) ∨ (0x50 ≤ op ∧ op ≤ 0x53) ∨ (0x61 ≤ op ∧ op ≤ 0x64) ∨ op = 0x70 ∨ op = 0x71 ∨
    op = 0x74 ∨ op = 0x75 ∨ op = 0x78 ∨ (0x80 ≤ op ∧ op ≤ 0x82))

/-- The checks of R133 on sub-functions, formats and pairings. (DEDUCED, log 12) -/
def fieldsOk (w : Word) : Bool :=
  match fld w 56 8 with
  | 0x1E => decide (fld w 0 4 ≤ 3)
  | 0x20 => decide (fld w 28 4 ≤ 5)
  | 0x21 => decide (fld w 32 4 ≤ 5)
  | 0x22 => decide (fld w 28 4 ≤ 3)
  | 0x4A =>
    let fi := fld w 14 4
    let fo := fld w 10 4
    outFmt fi && outFmt fo && !(isMx fi && isMx fo) && (!bit w 18 || decide (fi = 0 ∨ fi = 0xB))
  | 0x50 => arrayFmt (fld w 28 4) && !(bit w 26 && isMx (fld w 28 4))
  | 0x51 =>
    arrayFmt (fld w 28 4) && arrayFmt (fld w 24 4) && decide (fld w 28 4 = 0xA ↔ fld w 24 4 = 0xA)
  | 0x52 => decide (fld w 30 2 ≤ 2)
  | 0x53 =>
    let fo := fld w 28 4
    outFmt fo && !(isMx fo && (bit w 27 || decide (256 < fld w 6 10 + 1))) &&
      (decide (fld w 16 5 = 0) || (bit w 27 && decide (fo = 0xA)))
  | 0x70 | 0x71 | 0x72 | 0x73 => decide (fld w 41 6 < 48)
  | 0x78 => decide (fld w 28 4 ≤ 2)
  | _ => true

/-- Whether the word may be executed by the stream (R131 to R133). (DEDUCED, log 12) -/
def legal (q : Strm) (w : Word) : Bool :=
  let op := fld w 56 8
  let isX := decide (0xC0 ≤ op)
  match bodyMask w with
  | none => false
  | some m =>
    decide (isX = true ↔ q = .x) &&
      !(decide (0x80 ≤ op ∧ op ≤ 0x82) && decide (q ≠ .u)) &&
      decide ((fld w 0 47) &&& m = fld w 0 47) &&
      (!bit w 51 || markable op) &&
      (decide (fld w 47 9 = 0) || !(isX || decide (op = 0x07))) &&
      fieldsOk w

/-- The key of the instruction a word spells: opcode and, for `APRE` and `QCTL`, mode or function (R147, R154). -/
def keyOf (w : Word) : Nat :=
  let op := fld w 56 8
  op * 16 + (if op = 0x52 then fld w 30 2 else if op = 0x78 then fld w 28 4 else 0)

/-! ## Fetch and issue (R37 to R41, R47 to R52) -/

/-- A fetched instruction at its place. -/
structure Site where
  t : Nat
  q : Strm
  pc : Nat
  w : Word
deriving DecidableEq, Repr

/-- What a stream can do now: nothing, a stop (a breakpoint or a fault already taken), or an instruction. -/
inductive Fetched where
  | idle
  | stop (s : State)
  | insn (i : Site)
deriving DecidableEq, Repr

/-- Whether a stream may issue: region on, job running, the phase its own, used, not past its `SYNC` or `XEND`, not halted but
for a step (R38, R47, R66, R486). X issues only until the exchange phase of the module ends (R161, R225). (DEDUCED, log 13) -/
def State.mayIssue (s : State) (t : Nat) (q : Strm) : Bool :=
  let x := s.tile t
  s.tileOn t && s.power.on && decide (s.job.js = 4) && x.used q && !x.synced q &&
    (match q with | .x => decide (x.st = 5) && s.job.exch | _ => decide (x.st = 3)) && (!x.halted q || x.misc.stepping.testBit (Strm.code q))

/-- The enabled PC breakpoint at a slot (R488). -/
def Tile.breakAt (x : Tile) (q : Strm) (slot : Nat) : Option Nat :=
  (List.range 4).find? fun i =>
    let w := Map.get 0 x.misc.bp (0xA00 + 0x20 * Strm.code q + 8 * i)
    bit w 63 && decide (fld w 0 13 = slot)

/-- Fetches the next instruction of a stream: breakpoints (R488), the end of the partition (R39), instruction-memory parity
(R40), illegal encodings (R133). -/
def State.fetchAt (s : State) (t : Nat) (q : Strm) : Fetched :=
  let x := s.tile t
  if !s.mayIssue t q then .idle
  else
    let pc := x.pc q
    let slot := x.slot q
    if 64 * (x.part q).2 ≤ pc then
      let last := match q with | .x => x.sq.x.last.toNat | _ => (x.seq q).last.toNat
      .stop (s.tileFault t (Strm.code q) 0x02 (pc % 8192) last)
    else if s.dbg.bpen && !x.halted q && (x.breakAt q slot).isSome then
      .stop ((s.modTile t fun x => x.haltBy q 0).debugEvent t 1 (Strm.code q) 0 0 slot)
    else if x.imBad.contains slot then .stop (s.tileFault t (Strm.code q) 0x03 slot slot)
    else
      let w := Map.get 0 x.im slot
      if legal q w then .insn { t := t, q := q, pc := slot, w := w }
      else .stop (s.tileFault t (Strm.code q) 0x01 0 slot)

/-- Whether F's instruction lies in the recompute range, `RLEN` slots from `RBASE` (R315). -/
def Tile.recomp (x : Tile) (i : Site) : Bool :=
  let w := x.reg 0x48
  decide (i.q = .f ∧ fld w 0 13 ≤ i.pc ∧ i.pc < fld w 0 13 + fld w 16 13)

/-! ## The compute cycle of a tile (R47, R49 to R52) -/

/-- The shared unit an instruction needs (R49, R162): 1 array, 2 vector unit, 3 porter issue port, 4 queue unit, 5 scalar port,
6 cluster-store port, 7 tally port; 0 none. -/
def unitOf (w : Word) : Nat :=
  match fld w 56 8 with
  | 0x50 | 0x51 | 0x52 | 0x53 => 1
  | 0x40 | 0x41 | 0x42 | 0x43 | 0x44 | 0x45 | 0x46 | 0x47 | 0x48 | 0x49 | 0x4A | 0x4B | 0x4C | 0x4D | 0x80 | 0x81 | 0x82 => 2
  | 0x60 => 3
  | 0x74 | 0x75 | 0x76 | 0x77 | 0x78 => 4
  | 0x30 | 0x31 => 5
  | 0x61 | 0x62 | 0x63 | 0x64 => 6
  | 0x70 | 0x71 | 0x72 | 0x73 => 7
  | _ => 0

/-- A stream by its code. -/
def strmOf (n : Nat) : Strm :=
  match n with
  | 0 => .f
  | 1 => .b
  | 2 => .u
  | _ => .x

/-- The priority order of the tile's streams (R50, R51): `PRIO0` to `PRIO3` at their first occurrence, then the streams not named. -/
def Tile.order (x : Tile) : List Strm :=
  let w := x.reg 0x18
  ([fld w 0 2, fld w 2 2, fld w 4 2, fld w 6 2].map strmOf ++ allStrms).eraseDups

/-- The streams that come before a stream in the priority order. -/
def Tile.ahead (x : Tile) (q : Strm) : List Strm := x.order.takeWhile fun p => decide (p ≠ q)

/-! ### Tally reads and queue controls in flight (R162, R274) -/

def Tile.queue (x : Tile) (q : Nat) : Queue := Map.get {} x.qu.qs q
def Tile.modQueue (x : Tile) (q : Nat) (f : Queue → Queue) : Tile := x.modQu fun u => { u with qs := Map.mod {} u.qs q f }

/-- A queue is reset (R274). -/
def Queue.reset (y : Queue) : Queue := { y with open_ := false, head := 0, occ := 0 }

/-- The tally an instruction names (R151). -/
def insnTl (w : Word) : Nat := fld w 41 6

/-- The queue an instruction names (R154). -/
def insnQ (w : Word) : Nat := fld w 32 9

/-- What a tally read or a queue control does when its cycle has come (R162, R274): the count reaches the register; the queue opens,
closes or is reset, and the mark falls. -/
def Tile.takeEffect (x : Tile) (count : Nat → Word) (o : Op) : Tile :=
  if fld o.w 56 8 = 0x73 then x.result o.q (fld o.w 36 5) (count (insnTl o.w))
  else
    let f := fun (y : Queue) =>
      match fld o.w 28 4 with
      | 0 => { y with open_ := true }
      | 1 => { y with open_ := false }
      | _ => y.reset
    (x.modQueue (insnQ o.w) f).unmark o

/-- Whether a queue control must wait: for an earlier one of the tile, which the queue unit took first (R55), or, a `RESET`, for a
message that is being written into the ring (R274). -/
def Tile.ctlWaits (x : Tile) (earlier : List LateOp) (o : Op) : Bool :=
  decide (fld o.w 56 8 = 0x78) && ((earlier.any fun l => decide (fld l.op.w 56 8 = 0x78)) ||
    (decide (2 ≤ fld o.w 28 4) && x.qu.wrs.any fun w => decide (w.q = insnQ o.w)))

/-- The tally reads and queue controls of a tile whose cycle has come take effect, in the order of their issue. -/
def Tile.settle (x : Tile) (cycle : Nat) (count : Nat → Word) : Tile :=
  let r := x.io.late.foldl (fun (a : Tile × List LateOp) l =>
    if l.due ≤ cycle ∧ a.1.ctlWaits a.2 l.op = false then (a.1.takeEffect count l.op, a.2) else (a.1, a.2 ++ [l])) (x, [])
  r.1.modIo fun io => { io with late := r.2 }

/-- The same of tile `t` in this compute cycle. -/
def State.settle (s : State) (t : Nat) : State :=
  s.modTile t fun x => x.settle s.cycle fun tl => (Map.get {} (s.cluster (clusterOf t)).tally tl).count.signExtend 64

/-- A stream takes its turn in a compute cycle (R47, R50): the cycle the module is in, or the next where the stream, or one behind it
in the priority order, has already had its turn. What was to take effect by then has done so. (DESIGN CHOICE, log 46) -/
def State.enter (s : State) (t : Nat) (q : Strm) : State :=
  let x := s.tile t
  let here := decide (x.cyc.at_ = s.cycle)
  State.settle (t := t) <| if here && x.cyc.served.any fun p => !(x.ahead q).contains p then
    s.nextCycle.modTile t fun y => { y with cyc := { y.cyc with at_ := s.cycle + 1, served := [q], units := [] } }
  else
    s.modTile t fun y => { y with cyc := { y.cyc with
      at_ := s.cycle
      served := if here then q :: y.cyc.served else [q]
      units := if here then y.cyc.units else [] } }

/-- The stream's instruction issues: the program counter moves to `next`, its shared unit is taken for the cycle, a cycle of the
recompute range is counted, a step ends (R43, R49, R315, R486). (DEDUCED, log 13) -/
def Tile.issue (x : Tile) (i : Site) (next : BitVec 13) : Tile :=
  let x0 := if x.recomp i then x.count 0x220 1 else x
  let x1 := { x0 with cyc := { x0.cyc with units := unitOf i.w :: x0.cyc.units } }
  let y := match i.q with
    | .x => x1.modX fun v => { v with pc := next, last := BitVec.ofNat 13 i.pc }
    | _ => x1.modSeq i.q fun v => { v with pc := next, last := BitVec.ofNat 13 i.pc }
  if y.misc.stepping.testBit (Strm.code i.q) then
    y.modMisc fun m => { m with stepping := m.stepping - 2 ^ Strm.code i.q }
  else y

/-- The program counter of the next instruction in order. -/
def Site.succ (i : Site) (x : Tile) : BitVec 13 := BitVec.ofNat 13 (x.pc i.q + 1)

/-- A Sextant `STEP` that waited for this tile's streams ends when none is left to issue (R486). (DEDUCED, log 26) -/
def State.stepEnds (s : State) (t : Nat) (before : Nat) : State :=
  if before ≠ 0 ∧ (s.tile t).misc.stepping = 0 ∧ s.dbg.sxBusy then
    let s1 := s.modDbg fun d => { d with sxBusy := false, sxStat := 0, sxPage := none }
    match s.dbg.sxPage with
    | some k => s1.complete k 0 []
    | none => s1
  else s

/-- Issues the instruction with an effect on the tile and the program counter moved on. -/
def State.issueWith (s : State) (i : Site) (next : BitVec 13) (f : Tile → Tile) : State :=
  (s.modTile i.t fun x => f (x.issue i next)).stepEnds i.t (s.tile i.t).misc.stepping

/-- Issues the instruction in order. -/
def State.issueSeq (s : State) (i : Site) (f : Tile → Tile) : State := s.issueWith i (i.succ (s.tile i.t)) f

/-- One compute cycle in which the next instruction did not issue, by cause (R52). A halted stream counts nothing. (DESIGN CHOICE, log 3) -/
def State.stall (s : State) (i : Site) (cause : Nat) : State :=
  if (s.tile i.t).halted i.q then s else s.countTile i.t (0x100 + 0x40 * Strm.code i.q + 8 * cause) 1

/-! ## Shared units (R47 to R54, R152, R267) -/

/-- The S registers that an instruction of a shared unit reads or writes (R48). -/
def unitRegs (w : Word) : List Nat :=
  match fld w 56 8 with
  | 0x30 | 0x4B | 0x4C | 0x76 | 0x77 => [fD w]
  | 0x31 => [fB w]
  | 0x45 => [fC w]
  | 0x63 | 0x64 => [fA w]
  | 0x71 | 0x73 => [fld w 36 5]
  | 0x75 => [fA w, fB w, fC w, fD w]
  | 0x80 => if bit w 15 then [fld w 21 5, fld w 16 5] else []
  | _ => []

/-- The threshold of a `TWAIT` (R151). -/
def twaitN (w : Word) : Int := sextNat 32 (fld w 0 32)

/-- The count of a tally of a tile's cluster. -/
def State.tallyCount (s : State) (t tl : Nat) : Int := (Map.get {} (s.cluster (clusterOf t)).tally tl).count.toInt

/-- Whether the condition an instruction of a shared unit waits for is met (R47): a tally at its threshold, 8 bytes visible in a
configured queue. A threshold that faults waits for nothing (R278). -/
def State.waitMet (s : State) (t : Nat) (w : Word) : Bool :=
  let x := s.tile t
  match fld w 56 8 with
  | 0x72 =>
    let y := Map.get {} (s.cluster (clusterOf t)).tally (insnTl w)
    decide (twaitN w < 0 ∨ (y.ceil : Int) < twaitN w ∨ twaitN w ≤ y.count.toInt)
  | 0x76 => decide (bit (x.reg (0x1000 + 0x10 * insnQ w)) 63 = false ∨ 8 ≤ (x.queue (insnQ w)).occ)
  | _ => true

/-- Whether the limit of R54 that an instruction of a shared unit counts against has room (R149, R150). -/
def State.hasRoom (s : State) (t : Nat) (v : Seq) (w : Word) : Bool :=
  let x := s.tile t
  match unitOf w with
  | 1 => decide (x.io.arr.length < 8)
  | 2 => decide (x.io.vec.length < 16)
  | 3 =>
    let d := wordsOf (Map.slice 0 x.sp (512 * (v.areg (fld w 37 3)).toNat + 64 * fld w 0 3) 64) 8
    !(x.io.tags.any fun g => decide (g.tag = dTag d))
  | 4 => decide (fld w 56 8 ≠ 0x74 ∧ fld w 56 8 ≠ 0x75) || decide (x.io.out.length < 32)
  | 6 => x.io.cs.isNone && (decide (fld w 56 8 < 0x63) || decide (x.io.uniNext ≤ s.power.exc))
  | _ => true

/-- Whether a stream that has not had its turn in this compute cycle stands at an instruction of unit `n` that can issue. -/
def State.wants (s : State) (t : Nat) (q : Strm) (n : Nat) : Bool :=
  let x := s.tile t
  let v := x.seq q
  !(decide (x.cyc.at_ = s.cycle) && x.cyc.served.contains q) &&
    (match s.fetchAt t q with
      | .insn i => decide (unitOf i.w = n) && v.predOk i.w && (unitRegs i.w).all (fun r => !(v.busy.contains r)) && s.waitMet t i.w &&
          s.hasRoom t v i.w && (!bit i.w 51 || decide (v.mark (fld i.w 47 4) < 127))
      | _ => false)

/-- Whether a higher-priority stream takes the unit that an instruction needs in this compute cycle (R47, R49, R50): it has taken it,
or its turn has yet to come and it can. -/
def State.contended (s : State) (t : Nat) (q : Strm) (w : Word) : Bool :=
  let x := s.tile t
  let n := unitOf w
  decide (n ≠ 0) && (x.cyc.units.contains n || (x.ahead q).any fun p => s.wants t p n)

/-- The outcome of a tile-instruction command. -/
abbrev Out := Host.Outcome State Fault Refusal

/-- The shape of every tile-instruction command: an unknown tile is no unit; a stream that may not issue, or whose next
instruction is another one, does nothing; else it takes its turn in a compute cycle: a breakpoint or a fetch fault is taken; an
instruction whose predicate is false issues as a no-op and uses no unit (R130); one that reads or writes a register an earlier one has
yet to write stalls (R48); one whose condition is met and whose unit a higher-priority stream takes stalls (R50); one that names a mark
at 127 stalls (R53); else `body` runs. `regs` lists the S registers concerned. (DESIGN CHOICE, log 1; DESIGN CHOICE, log 3;
DESIGN CHOICE, log 8; DESIGN CHOICE, log 46) -/
def tileInsn (key : Nat) (t : Nat) (q : Strm) (s : State) (regs : Word → List Nat) (body : Site → Tile → State → State) : Out :=
  if 2304 ≤ t then .fault (.noSuchUnit "tile" t)
  else
    alongside t s fun s =>
      let e := s.enter t q
      match e.fetchAt t q with
      | .idle => .next s
      | .stop s' => .next s'
      | .insn i =>
        let x := e.tile t
        if keyOf i.w ≠ key then .next s
        else if q ≠ .x ∧ ¬ (x.seq q).predOk i.w then .next (e.issueSeq { i with w := 0 } id)
        else if (regs i.w).any (fun r => (x.seq q).busy.contains r) then .next (e.stall i 2)
        else if e.waitMet t i.w && e.contended t q i.w then .next (e.stall i 0)
        else if bit i.w 51 ∧ 127 ≤ (x.seq q).mark (fld i.w 47 4) then .next (e.stall i 1)
        else .next (body i x e)

/-- The operation record of an issuing instruction. -/
def Site.op (i : Site) (x : Tile) (v : List Word) (dat : List Byte) : Op :=
  { id := x.io.nextId, w := i.w, q := i.q, pc := i.pc, v := v, dat := dat }

/-- At issue the named mark counts up (R53) and the operation takes its number. -/
def Tile.startOp (x : Tile) (i : Site) : Tile :=
  let y := x.modIo fun io => { io with nextId := io.nextId + 1 }
  if bit i.w 51 then y.modSeq i.q fun v => v.addMark (fld i.w 47 4) else y

/-! ## Row checks at issue (R70, R548) -/

/-- The detail of a row out of range: its tag plus its index, an index of 2^24 or more as 0xFFFFFF. -/
def rowDetail (tag r : Nat) : Nat := tag + (if 2 ^ 24 ≤ r then 0xFFFFFF else r)

/-- The first row of a run that is out of range: none where the run fits. `lim` is 768, 1,024 or 49,152. -/
def runBad (tag lim lo n : Nat) : Option Nat :=
  if lim < lo + n then some (rowDetail tag (max lo lim)) else none

def spRun (lo n : Nat) : Option Nat := runBad 0 768 lo n
def amRun (lo n : Nat) : Option Nat := runBad 0x80000000 1024 lo n

/-- Raises `ROW_RANGE` for the first run that fails, in the order of the body fields (R70); else goes on. -/
def State.rowCheck (s : State) (i : Site) (l : List (Option Nat)) (k : State) : State :=
  match l.findSome? id with
  | some d => s.tileFault i.t (Strm.code i.q) 0x04 d i.pc
  | none => k

end Sys2Proof.Machine
end

