-- ==== Sys2Proof/Machine/Sync.lean ====
section
/-! DEFINITION. What supersteps share: arrival, reports along the sync tree, exchange plans and counts, part complete, the
end of an exchange phase and the return to compute (R65, R98, R225 to R234, R281, R283, R322, R323, R417, R434). -/

namespace Sys2Proof.Machine

/-! ## Auto-bias at the U stream's SYNC (R98, R296) -/

/-- A two-bit pending adjustment as a number, and back (R293). -/
def deltaVal (d : Nat) : Int := if d = 1 then 1 else if d = 3 then -1 else 0
def deltaCode (d : Int) : Nat := if d = 1 then 1 else if d = -1 then 3 else 0

/-- The rule of R98 for one state: bias field (7 bits), pending adjustment field, format, largest code, NaN written. A sum s + Δ outside
-64 to 63 (an image or a `CTW` may set s = 63 with Δ = +1, or s = -64 with Δ = -1) is not in the spec: a `UPD` writes with the sum as
it is and `SYNC` stores it modulo 128 (DESIGN CHOICE, log 16). -/
def autoBias (s d fmt maxCode : Nat) (nanW : Bool) : Nat × Nat :=
  let top := if fmt = 1 then 0x7F00 else 0x78
  let low := if fmt = 1 then 0x7E00 else 0x70
  let s' : Int := sextNat 7 s + deltaVal d
  let d' : Int :=
    if nanW then 0
    else if top ≤ maxCode then (if -64 < s' then -1 else 0)
    else if maxCode < low then (if s' < 63 then 1 else 0)
    else 0
  ((s' % 128).toNat, deltaCode d')

/-- One coefficient row at the U stream's `SYNC` (R296). (DEDUCED, log 16) -/
def biasRow (w : List Word) : List Word :=
  let w5 := w.getD 5 0
  let w6 := w.getD 6 0
  let w7 := w.getD 7 0
  let fm := fld w6 16 4
  let fv := fld w6 20 4
  let w5m :=
    if bit w7 34 ∧ bit w5 10 ∧ (fm = 1 ∨ fm = 4) then
      let r := autoBias (fld w5 0 7) (fld w5 8 2) fm (fld w7 0 16) (bit w7 32)
      setFld (setFld w5 0 7 r.1) 8 2 r.2
    else w5
  let w5v :=
    if bit w7 34 ∧ bit w5 26 ∧ (fv = 1 ∨ fv = 4) then
      let r := autoBias (fld w5 16 7) (fld w5 24 2) fv (fld w7 16 16) (bit w7 33)
      setFld (setFld w5m 16 7 r.1) 24 2 r.2
    else w5m
  (w.take 5) ++ [w5v, w6, 0]

/-- Every row of the coefficient table at the U stream's `SYNC` (R98, R296). (DEDUCED, log 16) -/
def Tile.biasStep (x : Tile) : Tile :=
  { x with ctab := (List.range 64).foldl (fun m r => Map.setRange 0 m (8 * r) (biasRow (Map.slice 0 m (8 * r) 8))) x.ctab }

/-! ## Plans (R233, R234) -/

/-- Words 0 and 1 of the plan entry in use; zeros where `LEN` is 0. -/
def Tile.plan (x : Tile) : Word × Word :=
  let r := x.reg 0x38
  if fld r 16 11 = 0 then (0, 0)
  else
    let b := Map.slice 0 x.sp (512 * fld r 0 10 + 16 * x.xs.planIx) 16
    (wordAt b 0, wordAt b 8)

def Tile.planRecv (x : Tile) : Nat := fld x.plan.1 0 32
def Tile.planMeet (x : Tile) : Nat := fld x.plan.1 32 16
def Tile.planSent (x : Tile) : Nat := fld x.plan.2 0 32

/-- The row of the plan entry in use. -/
def Tile.planRow (x : Tile) : Nat := fld (x.reg 0x38) 0 10 + x.xs.planIx / 32

/-! ## Arrival (R65, R225, R229, R323 step 1, R417) -/

/-- The stow interval, 0 for none (R322). -/
def Job.ival (j : Job) : Nat := fld (j.reg 0x100A8) 0 32

/-- Whether the superstep that is running ends at a stow point (R322). -/
def State.stowNext (s : State) : Bool :=
  s.stow.en && decide (0 < s.job.ival) && decide ((s.job.sstep.toNat + 1) % s.job.ival = 0)

/-- This member's arrival report (R225, R417): once every tile and every child has arrived it goes to the parent with the
least allowed step; it is withheld while a previous stow is not complete (R323 step 1). Requests for a pause or a halt made
before it travel with it (R398, R484). (DEDUCED, log 33) -/
def State.ownReport (s : State) : State :=
  let v := s.job.wave
  if s.job.js = 4 ∧ ¬ s.job.exch ∧ ¬ v.doneAt ∧ ¬ v.arrSent ∧ s.job.tiles.all (fun t => (s.tile t).misc.dest) then
    if s.stowNext ∧ s.stow.busy then s.modStow fun w => { w with hold := true }
    else
      let s1 := s.modStow fun w => { w with hold := false }
      if s.childEdges.all fun e => v.arrFrom.any fun a => decide (a.1 = e.2.2) then
        let n := v.arrFrom.foldl (fun m a => min m a.2) s.power.allow
        let s2 := s1.modWave fun v => { v with
          arrSent := true, go := none
          pauseReq := if v.pauseReq = 1 then 2 else v.pauseReq
          haltReq := if v.haltReq = 1 then 2 else v.haltReq }
        match s2.parentEdge with
        | some e => s2.queueSym e.2.2 (Sym.mk5 1 e.2.1 s2.modid n)
        | none => s2.modWave fun v => { v with go := some n }
      else s1
  else s

/-- The tile arrives (R65, R136, R434 step 1): its ballast duty starts at `d0`, a measured fraction the model leaves free. (DESIGN CHOICE, log 18) -/
def State.arrive (s : State) (t : Nat) : State :=
  let x := s.tile t
  if x.st = 3 ∧ [Strm.f, .b, .u].all x.synced then
    let d := Config.freeNat s.free 0 % 65
    ((s.modTile t fun x => { x with
      st := 4
      misc := { x.misc with dest := true, quantum := false, d0 := d, duty := d } }).took).ownReport
  else s

/-! ## Part complete and the done wave (R225, R227) -/

/-- This member's part-complete report (R225). -/
def State.doneReport (s : State) : State :=
  let v := s.job.wave
  if s.job.js = 4 ∧ s.job.exch ∧ ¬ v.partSent ∧ s.job.tiles.all (fun t => (s.tile t).xs.part) ∧
      s.childEdges.all (fun e => v.partFrom.contains e.2.2) then
    let s1 := s.modWave fun v => { v with partSent := true }
    match s1.parentEdge with
    | some e => s1.queueSym e.2.2 (Sym.mk5 3 e.2.1 s1.modid 0)
    | none => s1.modWave fun v => { v with done := true }
  else s

/-- Whether a tile's part of the exchange phase is complete (R227). -/
def Tile.partMet (x : Tile) : Bool :=
  (x.sq.x.ended || !x.used .x) && decide (x.xs.sent.toNat = x.planSent) && decide (x.xs.recv.toNat = x.planRecv) &&
    decide (x.xs.meet = x.planMeet)

/-- A tile whose part has become complete reports it (R227, R234). -/
def State.checkPart (s : State) (t : Nat) : State :=
  let x := s.tile t
  if x.st = 5 ∧ s.job.exch ∧ ¬ x.xs.part ∧ x.partMet then
    (s.modTile t fun x => x.modXs fun v => { v with part := true, partNs := s.now - v.relNs }).doneReport
  else s

/-- Bytes toward `XRECV` (R234); more than the plan's count raises `OVERRUN` reason 0x02 and nothing is landed (R256). -/
def State.addRecv (s : State) (t n : Nat) : State × Bool :=
  let x := s.tile t
  if (x.badRow x.planRow 1).isSome ∧ fld (x.reg 0x38) 16 11 ≠ 0 then (s.tileFault t 4 0x05 x.planRow 0, false)
  else if x.planRecv < x.xs.recv.toNat + n then (s.tileFault t 4 0x0D 0x02000000 0, false)
  else (s.modTile t fun x => x.modXs fun v => { v with recv := v.recv + BitVec.ofNat 32 n }, true)

/-! ## The return to compute (R225, R434, R451) -/

/-- A tile goes back to `COMPUTE` (R66): its streams stand after their `SYNC`s. -/
def Tile.toCompute (x : Tile) (halt : Bool) : Tile :=
  let y := { x with
    st := 3
    sq := { x.sq with
      f := { x.sq.f with sync := false }
      b := { x.sq.b with sync := false }
      u := { x.sq.u with sync := false } }
    misc := { x.misc with duty := 0, dest := false } }
  if halt then allStrms.foldl (fun y q => y.haltBy q 3) y else y

/-- Whether a region's job tiles have finished their quanta and their ballast ramps (R434, R451). -/
def State.regionRamped (s : State) (r : Nat) : Bool :=
  (s.job.tiles.filter fun t => decide (regionOf t = r)).all fun t =>
    let m := (s.tile t).misc
    m.quantum && decide (m.duty = m.d0)

/-- After the done wave, the tiles of each region whose ramp is done return to `COMPUTE`, unless a stow point, a sight, a
pause or a stop holds them; a halt at the boundary takes effect then (R225, R323, R434, R484). -/
def State.backToCompute (s : State) : State :=
  if s.job.wave.doneAt ∧ s.job.js = 4 ∧ ¬ s.stow.wait ∧ ¬ s.stow.freeze ∧ s.rel.sgRun ≠ 2 then
    let go := s.job.tiles.filter fun t => decide ((s.tile t).st = 5) && s.regionRamped (regionOf t)
    let s1 := s.forAll go fun s t => s.modTile t fun x => x.toCompute s.dbg.jobHalt
    let s2 := if s1.job.tiles.any fun t => decide ((s1.tile t).st = 5) then s1 else s1.modWave fun v => { v with doneAt := false }
    (s2.forAll go State.arrive).ownReport
  else s

/-! ## Steps (R410, R416, R417, R428, R429) -/

/-- The running step that the job step, the allowed step and the limits ask for (R416). -/
def Power.want (p : Power) : Nat := if p.clamp then 16 else min p.jstep (min p.allow p.curStep)

/-- One die takes a step, or defers it during a stretch and for 1 µs after it (R428); a sleeping one takes it on waking
(R415). -/
def Region.takeStep (x : Region) (n : Nat) (now : Bool) : Region :=
  if x.pwr ≠ 0 then x
  else if (x.stretch ∨ x.deferOn) ∧ ¬ now then (if x.run = n ∧ x.defer = none then x else { x with defer := some n })
  else { x with run := n, defer := none }

/-- A die that wakes or is reset runs the running step and joins the frames at the next one (R409, R415). -/
def Region.join (x : Region) (n : Nat) : Region := { x with run := n, pat := 0 }

/-- Applies a running step on every awake die; `now` for what is never deferred (R428). -/
def State.applyRun (s : State) (n : Nat) (now : Bool) : State :=
  (s.modPower fun p => { p with run := n }).forAll (List.range 16) fun s r => s.modRegion r fun x => x.takeStep n now

/-- Applies the running step (R416); while the clamp's release ramp runs it does not rise (R429). -/
def State.updateRun (s : State) : State :=
  let p := s.power
  s.applyRun (if p.recover then min p.want p.run else p.want) false

/-- The registers of `TALLY_n` (R277). -/
def Tally.word (y : Tally) : Word := place 32 31 y.ceil ||| place 0 32 y.count.toNat

/-- The 768 bytes of a cluster's tally backing (R281). -/
def Cluster.backing (c : Cluster) : List Byte :=
  (List.range 48).flatMap fun n => wordBytes (Map.get {} c.tally n).word ++ zeros 8

/-- Writes the tally backing of every cluster of the job (R281). In a scratchpad it is a wide-class write; the rest of the
second row is kept. -/
def State.writeBacking (s : State) : State :=
  match s.job.img with
  | none => s
  | some im =>
    im.backing.foldl (fun s b =>
      let d := (s.cluster b.cluster).backing
      if b.inCs then s.modCluster b.cluster fun c => { c with cs := Map.setRange 0 c.cs b.at_ d }
      else
        let x := s.tile b.tile
        let old := Map.slice 0 x.sp (512 * b.at_) 1024
        s.writeNow { t := b.tile, q := 4, eng := 7, pc := 0 } b.at_ (splice old 0 d)) s

/-- Whether the phase that ends superstep `n` is marked for an epoch advance (R316). -/
def Job.permuteAt (j : Job) (n : Nat) : Bool :=
  (List.range 4).any fun i =>
    let base := (j.reg (0x10040 + 0x10 * i)).toNat
    let w := j.reg (0x10048 + 0x10 * i)
    let per := fld w 0 63
    bit w 63 && decide (base ≤ n) && (if per = 0 then decide (n = base) else decide ((n - base) % per = 0))

/-- `JOB_PAUSE` takes effect (R66, R398): the tiles are `PAUSED`, the pages whose command waits get its completion; where the pause was
another member's a `JOB_STATE` event is posted. -/
def State.takePause (s : State) : State :=
  let pages := s.job.wave.pausePages
  let s1 := s.forAll s.job.tiles fun s t => s.modTile t fun x => { x with st := 6, misc := { x.misc with duty := 0, dest := false } }
  let s2 := s1.modJob fun j => { j with
    js := 5
    wave := { j.wave with pauseReq := 0, pausePages := [], doneAt := false } }
  if pages = [] then s2.event 0xE1 s2.jobStatus else pages.foldl (fun s k => s.complete k 0 [s.job.sstep]) s2

/-- What a superstep boundary does once no stow or sight holds the tiles: a halt or a pause takes effect, else the tiles return
to compute (R225, R330, R398, R484). -/
def State.atBoundary (s : State) : State :=
  if s.job.wave.doneAt ∧ s.job.js = 4 ∧ ¬ s.stow.wait ∧ ¬ s.stow.freeze ∧ s.rel.sgRun ≠ 2 then
    let s1 := if s.job.wave.haltReq = 2 ∨ s.job.wave.oneStep then
        (s.modWave fun v => { v with haltReq := 0, oneStep := false }).modDbg fun d => { d with jobHalt := true }
      else s
    if s1.job.wave.pauseReq = 2 then s1.takePause else s1.backToCompute
  else s

end Sys2Proof.Machine
end

