-- ==== Sys2Proof/Machine/Vector.lean ====
section
/-! DEFINITION. Vector instructions (R142 to R146): their operand runs and checks at issue, and the results they write when
they complete. -/

namespace Sys2Proof.Machine

/-- A run of rows an operation names: first row, count, accumulator memory or scratchpad, written or read. -/
structure Run where
  lo : Nat
  n : Nat
  am : Bool
  wr : Bool
deriving DecidableEq, Repr

/-- The row check of a run (R70). -/
def Run.check (r : Run) : Option Nat := if r.am then amRun r.lo r.n else spRun r.lo r.n

/-- The accesses of an operation's runs. -/
def runAccs (id eng q : Nat) (l : List Run) : List Acc :=
  l.map fun r => { id := id, eng := eng, q := q, am := r.am, lo := r.lo, n := r.n, wr := r.wr }

/-- Goes on with what was read; a read that faulted has ended the operation. -/
def andThen {α : Type} (r : State × Option α) (k : State → α → State) : State :=
  match r.2 with
  | none => r.1
  | some v => k r.1 v

/-- An operation of id `id` reads scratchpad rows as they stand when it completes. -/
def State.opRead (s : State) (c : Acct) (id lo n : Nat) : State × Option (List Byte) :=
  s.readRows c lo n ((s.tile c.t).racyReads id false)

def State.opWrite (s : State) (c : Acct) (id lo : Nat) (b : List Byte) : State :=
  s.writeRows c lo b ((s.tile c.t).racyWrites id)

def State.opReadAm (s : State) (c : Acct) (id lo n : Nat) : State × Option (List W32) :=
  s.readAm c lo n ((s.tile c.t).racyReads id true)

/-- Source and destination formats of a vector instruction: FP32 but for `VCVT` (R142, R144). -/
def vFi (w : Word) : Nat := if fld w 56 8 = 0x4A then fld w 14 4 else 0
def vFo (w : Word) : Nat := if fld w 56 8 = 0x4A then fld w 10 4 else 0
/-- Rows of the scale run of a conversion, four scales per 128 elements (R144). -/
def scaleRows (n : Nat) : Nat := (4 * n + 511) / 512

/-- The runs of a vector instruction in body-field order (R70, R142 to R145); `v` holds its registers D, A, B, C. -/
def vecRuns (w : Word) (v : List Word) : List Run :=
  let op := fld w 56 8
  let n := fN w
  let row := fun i => (v.getD i 0).toNat
  let mx := isMx (vFi w) || isMx (vFo w)
  (if op = 0x4B ∨ op = 0x4C then [] else [{ lo := row 0, n := rowsFor (vFo w) (128 * n), am := false, wr := true }]) ++
    [if bit w 18 then { lo := row 1, n := 2 * n, am := true, wr := false }
      else { lo := row 1, n := rowsFor (vFi w) (128 * n), am := false, wr := false }] ++
    (if op ≤ 0x45 then [{ lo := row 2, n := n, am := false, wr := false }]
      else if mx then [{ lo := row 2, n := scaleRows n, am := false, wr := isMx (vFo w) }] else []) ++
    (if op = 0x42 then [{ lo := row 3, n := n, am := false, wr := false }] else [])

/-- The issue of a vector instruction (R54, R70, R142): the registers it names are captured, its rows checked; a sum or
maximum owes its register (R48). -/
def vecOp (key : Nat) (t : Nat) (q : Strm) (s : State) : Out :=
  tileInsn key t q s
    (fun w => if fld w 56 8 = 0x45 then [fC w] else if fld w 56 8 = 0x4B ∨ fld w 56 8 = 0x4C then [fD w] else [])
    fun i x s =>
      if 16 ≤ x.io.vec.length then s.stall i 1
      else
        let r := x.seq i.q
        let op := fld i.w 56 8
        let c := if op = 0x45 then r.sreg (fC i.w) else r.areg (fld i.w 27 3)
        let v := [r.areg (fld i.w 42 3), r.areg (fld i.w 37 3), r.areg (fld i.w 32 3), c]
        let runs := vecRuns i.w v
        s.rowCheck i (runs.map Run.check) <|
          let o := i.op x v []
          let s1 := s.issueSeq i fun y =>
            ((y.startOp i).modIo fun io => { io with vec := io.vec ++ [o] }).modSeq i.q fun z =>
              if (op = 0x4B ∨ op = 0x4C) ∧ fD i.w ≠ 0 then { z with busy := fD i.w :: z.busy } else z
          s1.addAccs t i.pc (runAccs o.id 2 (Strm.code i.q) runs)

/-- `VADD` (R142). -/
def execVadd (t : Nat) (q : Strm) (s : State) : Out := vecOp 0x400 t q s
/-- `VMUL` (R142). -/
def execVmul (t : Nat) (q : Strm) (s : State) : Out := vecOp 0x410 t q s
/-- `VFMA` (R142). -/
def execVfma (t : Nat) (q : Strm) (s : State) : Out := vecOp 0x420 t q s
/-- `VMIN` (R93, R142). -/
def execVmin (t : Nat) (q : Strm) (s : State) : Out := vecOp 0x430 t q s
/-- `VMAX` (R93, R142). -/
def execVmax (t : Nat) (q : Strm) (s : State) : Out := vecOp 0x440 t q s
/-- `VSFMA` (R142). -/
def execVsfma (t : Nat) (q : Strm) (s : State) : Out := vecOp 0x450 t q s
/-- `VEXP2` (R94). -/
def execVexp2 (t : Nat) (q : Strm) (s : State) : Out := vecOp 0x460 t q s
/-- `VLOG2` (R94). -/
def execVlog2 (t : Nat) (q : Strm) (s : State) : Out := vecOp 0x470 t q s
/-- `VRSQRT` (R94). -/
def execVrsqrt (t : Nat) (q : Strm) (s : State) : Out := vecOp 0x480 t q s
/-- `VRECIP` (R94). -/
def execVrecip (t : Nat) (q : Strm) (s : State) : Out := vecOp 0x490 t q s
/-- `VCVT` (R144). -/
def execVcvt (t : Nat) (q : Strm) (s : State) : Out := vecOp 0x4A0 t q s
/-- `VRSUM` (R145). -/
def execVrsum (t : Nat) (q : Strm) (s : State) : Out := vecOp 0x4B0 t q s
/-- `VRMAX` (R145). -/
def execVrmax (t : Nat) (q : Strm) (s : State) : Out := vecOp 0x4C0 t q s
/-- `VCPY` (R142). -/
def execVcpy (t : Nat) (q : Strm) (s : State) : Out := vecOp 0x4D0 t q s

/-! ## Results -/

/-- One FP32 result rounded once, with its event (R81, R93 to R96). -/
def fpOut (x : Fp) : Nat × Option NumEv := narrowFloat (floatFmt 0) true x

/-- What one lane of a vector instruction writes (R93, R94, R142): a, b, c are FP32 codes, c the scalar of a `VSFMA`.
Minimum, maximum and copy round nothing and count nothing (DEDUCED, log 23). -/
def vecLane (op a b c : Nat) : Nat × Option NumEv :=
  let x := elemNum 0 a
  let y := elemNum 0 b
  let z := elemNum 0 c
  match op with
  | 0x40 => fpOut (Fp.add x y)
  | 0x41 => fpOut (Fp.mul x y)
  | 0x42 => fpOut (Fp.add (Fp.mul x y) z)
  | 0x43 => ((f32 (minNum x y)).toNat, none)
  | 0x44 => ((f32 (maxNum x y)).toNat, none)
  | 0x45 => fpOut (Fp.add (Fp.mul x z) y)
  | 0x46 => fpOut (exp2Num x)
  | 0x47 => fpOut (log2Num x)
  | 0x48 => fpOut (rsqrtNum x)
  | 0x49 => fpOut (recipNum x)
  | _ => (a, none)

/-- `VRSUM` of rows of 128 codes (R145): the seven-level tree of each row, the rows in order from +0; the value written counts
the event of its last addition (DEDUCED, log 23). -/
def vecSum (rows : List (List Nat)) : Nat × Option NumEv :=
  rows.foldl (fun acc r => fpOut (Fp.add (elemNum 0 acc.1) (treeTop addR 7 (r.map (elemNum 0))))) (0, none)

/-- `VRMAX` of rows of 128 codes (R145). -/
def vecMax (rows : List (List Nat)) : Nat :=
  match rows.map fun r => treeTop maxNum 7 (r.map (elemNum 0)) with
  | [] => 0
  | h :: l => (f32 (l.foldl maxNum h)).toNat

/-- The elements of a conversion's source as values, an MX element with its block's scale (R80, R144). -/
def cvtIn (fi : Nat) (codes : List Nat) (scales : List Byte) : List Fp :=
  if isMx fi then
    (codes.zip (scales.flatMap fun b => List.replicate 32 b)).map fun p => widen fi p.1 p.2.toNat
  else codes.map (elemNum fi)

/-- A conversion (R80 to R87, R90, R144): scale bytes of an MX output, element codes, events. FP32 to FP32 copies the bits. A
widening to FP32 is exact in either mode (R80) and, being no narrowing, counts no event (R95; DEDUCED, log 10). -/
def cvt (fi fo : Nat) (ovf : Bool) (codes : List Nat) (scales : List Byte) : List Byte × List Nat × List NumEv :=
  if fi = 0 ∧ fo = 0 then ([], codes, [])
  else
    let xs := cvtIn fi codes scales
    if fo = 0 then ([], xs.map fun x => (f32 x).toNat, [])
    else if isMx fo then mxBlocks fo ovf xs
    else
      let r := xs.map (narrow fo ovf)
      ([], r.map (·.1), r.filterMap (·.2))

/-- Operand a of a vector operation as element codes: scratchpad rows, or accumulator rows through the drain path (R143). -/
def State.vecA (s : State) (c : Acct) (o : Op) : State × Option (List Nat) :=
  let n := fN o.w
  let lo := (o.v.getD 1 0).toNat
  if bit o.w 18 then
    let r := s.opReadAm c o.id lo (2 * n)
    (r.1, r.2.map fun l => l.map (·.toNat))
  else
    let k := rowsFor (vFi o.w) (128 * n)
    let r := s.opRead c o.id lo k
    (r.1, r.2.map fun b => (unpackRows (vFi o.w) k b).take (128 * n))

/-- A further operand of a vector operation as FP32 codes; zeros where it has none. -/
def State.vecRow (s : State) (c : Acct) (o : Op) (used : Bool) (i : Nat) : State × Option (List Nat) :=
  let n := fN o.w
  if used then
    let r := s.opRead c o.id (o.v.getD i 0).toNat n
    (r.1, r.2.map (unpackRows 0 n))
  else (s, some (List.replicate (128 * n) 0))

/-- A vector operation ends: its accesses leave, its mark falls, its slot frees (R53, R54). -/
def State.vecDone (s : State) (t : Nat) (o : Op) : State :=
  s.modTile t fun y => ((y.dropAcc o.id).unmark o).modIo fun io => { io with vec := io.vec.filter fun p => decide (p.id ≠ o.id) }

/-- What a completing vector operation (not of the update engine) reads and writes (R142 to R145). -/
def State.vecEnd (s : State) (t : Nat) (o : Op) : State :=
  let c : Acct := { t := t, q := Strm.code o.q, eng := 2, pc := o.pc }
  let op := fld o.w 56 8
  let n := fN o.w
  let d := (o.v.getD 0 0).toNat
  andThen (s.vecA c o) fun s a =>
    if op = 0x4A then
      let fi := vFi o.w
      let fo := vFo o.w
      andThen (if isMx fi then s.opRead c o.id (o.v.getD 2 0).toNat (scaleRows n) else (s, some [])) fun s sc =>
        let r := cvt fi fo (bit o.w 9) a (sc.take (4 * n))
        let s1 := s.opWrite c o.id d (packRows fo (rowsFor fo (128 * n)) r.2.1)
        let s2 := if isMx fo then s1.opWrite c o.id (o.v.getD 2 0).toNat (padTo (512 * scaleRows n) r.1) else s1
        (s2.modTile t fun y => y.countEvs r.2.2).vecDone t o
    else if op = 0x4B then
      let r := vecSum (chunks 128 n a)
      (s.modTile t fun y => (y.result o.q (fD o.w) (BitVec.ofNat 64 r.1)).countEvs r.2.toList).vecDone t o
    else if op = 0x4C then
      (s.modTile t fun y => y.result o.q (fD o.w) (BitVec.ofNat 64 (vecMax (chunks 128 n a)))).vecDone t o
    else
      andThen (s.vecRow c o (decide (op ≤ 0x45)) 2) fun s b =>
        andThen (if op = 0x45 then (s, some (List.replicate (128 * n) ((o.v.getD 3 0).toNat % 2 ^ 32)))
            else s.vecRow c o (decide (op = 0x42)) 3) fun s e =>
          let r := (a.zip (b.zip e)).map fun p => vecLane op p.1 p.2.1 p.2.2
          let s1 := s.opWrite c o.id d (packRows 0 n (r.map (·.1)))
          (s1.modTile t fun y => y.countEvs (r.filterMap (·.2))).vecDone t o

end Sys2Proof.Machine
end

