-- ==== Sys2Proof/Machine/Array.lean ====
section
/-! DEFINITION. Array operations (chapter 04): issue into the array queue, toll admission and start (R57 to R61, R121), and
what loads, accumulations, preloads and drains do when they complete. -/

namespace Sys2Proof.Machine

/-! ## Fields (R147) -/

/-- The toll weight an array operation declares (R57). -/
def tollW (w : Word) : Nat :=
  1 + (match fld w 56 8 with
    | 0x50 => fld w 24 2
    | 0x51 => fld w 20 2
    | 0x52 => fld w 26 2
    | _ => fld w 21 2)

/-- Rows that hold `k` scale bytes from byte `off` of their first row (R78). -/
def scaleRun (off k : Nat) : Nat := (off + k + 511) / 512

/-- The runs of an array operation in body-field order (R70, R125); `v` holds its registers D, A, B. (DEDUCED, log 11) -/
def arrRuns (w : Word) (v : List Word) : List Run :=
  let row := fun i => (v.getD i 0).toNat
  let n := arrN w
  match fld w 56 8 with
  | 0x50 =>
    { lo := row 1, n := vecRows (arrF w) 64, am := false, wr := false } ::
      (if isMx (arrF w) then [{ lo := row 2, n := scaleRun (fld w 15 9) 128, am := false, wr := false }] else [])
  | 0x51 =>
    { lo := row 0, n := n, am := true, wr := true } :: { lo := row 1, n := vecRows (arrF w) n, am := false, wr := false } ::
      (if isMx (arrF w) then [{ lo := row 2, n := scaleRun (fld w 1 9) (2 * n), am := false, wr := false }] else [])
  | 0x52 =>
    { lo := row 0, n := n, am := true, wr := true } ::
      (match fld w 30 2 with
        | 0 => []
        | 1 => [{ lo := row 1, n := 1, am := false, wr := false }]
        | _ => [{ lo := row 1, n := vecRows 0 n, am := false, wr := false }])
  | _ =>
    { lo := row 0, n := vecRows (arrF w) n, am := false, wr := true } :: { lo := row 1, n := n, am := true, wr := bit w 25 } ::
      (if isMx (arrF w) then [{ lo := row 2, n := 1, am := false, wr := true }] else [])

/-- The accesses of an array operation (R490: reads 0, writes 1). -/
def arrAccs (o : Op) : List Acc :=
  (arrRuns o.w o.v).map fun r =>
    { id := o.id, eng := if r.wr && !r.am then 1 else 0, q := Strm.code o.q, am := r.am, lo := r.lo, n := r.n, wr := r.wr,
      path := decide (fld o.w 56 8 ≠ 0x50) }

/-- The issue of an array operation into the array queue (R54, R70, R125). -/
def arrOp (key : Nat) (t : Nat) (q : Strm) (s : State) : Out :=
  tileInsn key t q s (fun _ => []) fun i x s =>
    if 8 ≤ x.io.arr.length then s.stall i 1
    else
      let r := x.seq i.q
      let o := i.op x [r.areg (fld i.w 42 3), r.areg (fld i.w 37 3), r.areg (fld i.w 32 3)] []
      s.rowCheck i ((arrRuns o.w o.v).map Run.check) <|
        (s.issueSeq i fun y => (y.startOp i).modIo fun io => { io with arr := io.arr ++ [o] }).addAccs t i.pc (arrAccs o)

/-- `ALD` (R104). -/
def execAld (t : Nat) (q : Strm) (s : State) : Out := arrOp 0x500 t q s
/-- `AMAC` (R106). (DEDUCED, log 11) -/
def execAmac (t : Nat) (q : Strm) (s : State) : Out := arrOp 0x510 t q s
/-- `APRE` in mode `ZERO` (R111). (DEDUCED, log 11) -/
def execApreZero (t : Nat) (q : Strm) (s : State) : Out := arrOp 0x520 t q s
/-- `APRE` in mode `BIAS` (R111). -/
def execApreBias (t : Nat) (q : Strm) (s : State) : Out := arrOp 0x521 t q s
/-- `APRE` in mode `RESID` (R111). -/
def execApreResid (t : Nat) (q : Strm) (s : State) : Out := arrOp 0x522 t q s
/-- `ADRN` (R112). -/
def execAdrn (t : Nat) (q : Strm) (s : State) : Out := arrOp 0x530 t q s

/-! ## Toll admission and start (R58 to R61, R121) -/

/-- The stationary buffer an `ALD` or `AMAC` names. -/
def arrBuf (w : Word) : Option Nat :=
  match fld w 56 8 with
  | 0x50 => some (fld w 27 1)
  | 0x51 => some (fld w 23 1)
  | _ => none

/-- Compute cycles for which an operation holds its path (R123): a load reads its rows at one a cycle. -/
def pathHeld (w : Word) : Nat := if fld w 56 8 = 0x50 then vecRows (arrF w) 64 else pathBusy w

/-- Whether two operations use the same path: the load path, of `ALD`, or the stream path (R121). -/
def samePath (a b : Word) : Bool := decide (fld a 56 8 = 0x50 ↔ fld b 56 8 = 0x50)

/-- Whether an earlier operation that has not completed holds back the start of `o` in the cycle after `c` (R121): `o`'s path, the load
of its stationary buffer, an accumulation that still streams against the buffer it loads, the accumulator rows it needs. -/
def holdsStart (e o : Op) (c : Nat) : Bool :=
  let eo := fld e.w 56 8
  let oo := fld o.w 56 8
  let streams := decide (c + 1 < e.at_ + pathHeld e.w)
  (samePath e.w o.w && streams) ||
    (if oo = 0x51 then decide (eo = 0x50 ∧ arrBuf e.w = arrBuf o.w)
     else if oo = 0x50 then decide (eo = 0x51 ∧ arrBuf e.w = arrBuf o.w) && streams
     else
       decide (eo = 0x51 ∨ eo = 0x52) &&
         (arrRuns e.w e.v).any fun a => (arrRuns o.w o.v).any fun b => a.am && b.am && overlap a.lo a.n b.lo b.n)

/-- The operation at the head of the array queue that may request toll units in cycle `c` (R58, R121). -/
def Tile.arrHead (x : Tile) (c : Nat) : Option Op :=
  match x.io.arr.find? fun o => !o.go with
  | some o => if x.io.arr.any fun e => e.go && holdsStart e o c then none else some o
  | none => none

/-- The units that requests before the tile's in this compute cycle take or wait for: cluster tiles in local-index order from the
cycle number modulo 12, but for those granted in this cycle, which hold theirs (R59). -/
def State.tollBefore (s : State) (t : Nat) : Nat :=
  let c := clusterOf t
  let turn := fun l => (l + 12 - s.cycle % 12) % 12
  ((List.range 12).filter fun l => decide (turn l < turn (localOf t))).foldl (fun a l =>
    let x := s.tile (clusterTile c l)
    match x.arrHead s.cycle with
    | some o => if x.cyc.tollG = s.cycle + 1 then a else a + tollW o.w
    | none => a) 0

/-- The units of a cluster that grants of this compute cycle may not give out: those held, and those released in it (R60). -/
def State.tollTaken (s : State) (c : Nat) : Nat :=
  let x := s.cluster c
  x.held + (if x.freedAt = s.cycle + 1 then x.freed else 0)

/-- A tile's request for toll units (R58): one in a compute cycle, so a second one begins the next. (DESIGN CHOICE, log 46) -/
def State.tollRequest (s : State) (t : Nat) : State :=
  let e := if (s.tile t).cyc.toll = s.cycle + 1 then s.nextCycle else s
  e.modTile t fun y => { y with cyc := { y.cyc with toll := e.cycle + 1 } }

/-- A request that is not granted (R63): the tile counts the cycle, the cluster each cycle once. -/
def State.tollRefused (s : State) (t : Nat) : State :=
  let c := clusterOf t
  let s1 := s.countTile t 0x200 1
  if (s.cluster c).tollAt = s.cycle + 1 then s1
  else (s1.countCluster c 0x48 1).modCluster c fun x => { x with tollAt := s.cycle + 1 }

/-- `TOLL_GRANT` (R58 to R61, R121): the head of the array queue requests its weight. A weight above the capacity is
`TOLL_EXCESS`; units that do not suffice, or that requests earlier in the order of this cycle need, count a waiting cycle; else
the operation holds its units and starts in the next cycle. -/
def execTollGrant (t : Nat) (s : State) : Out :=
  if 2304 ≤ t then .fault (.noSuchUnit "tile" t)
  else
    alongside t s fun s =>
      let e := s.tollRequest t
      match (e.tile t).arrHead e.cycle with
      | none => .next s
      | some o =>
        let c := e.cluster (clusterOf t)
        let w := tollW o.w
        let upd := fun (f : Op → Op) => e.modTile t fun y => y.modIo fun io =>
          { io with arr := io.arr.map fun p => if p.id = o.id then f p else p }
        if c.cap < w then .next (e.tileFault t (Strm.code o.q) 0x06 (w + c.cap * 256) o.pc)
        else if c.cap < e.tollTaken (clusterOf t) + e.tollBefore t + w then
          .next ((upd fun p => { p with wait := p.wait + 1 }).tollRefused t)
        else
          let s1 := (upd fun p => { p with go := true, at_ := e.cycle + 1 }).modTile t fun y =>
            { y with cyc := { y.cyc with tollG := e.cycle + 1 }, io := { y.io with toll := y.io.toll + w } }
          let s2 := s1.modCluster (clusterOf t) fun k => { k with held := k.held + w, heldMax := max k.heldMax (k.held + w) }
          if s.soundChk 3 ∧ fld (s.job.reg 0x90020) 0 32 < o.wait then
            .next (s2.modTile t fun y => { y.count 0xA98 1 with
              ctr := Map.mod 0 (y.count 0xA98 1).ctr 0xAA0 fun m => BitVec.ofNat 64 (max m.toNat o.wait) })
          else .next s2

/-! ## Values -/

/-- Vector `i` of a run of vectors: its 64 element codes. -/
def vecCodes (codes : List Nat) (i : Nat) : List Nat := (codes.drop (64 * i)).take 64

/-- The element codes of `n` vectors packed in rows (R102). -/
def unpackVecs (f n : Nat) (b : List Byte) : List Nat := (unpackRows f (vecRows f n) b).take (64 * n)

/-- The scale byte pair of a vector: 0x7F in a format without scales (R103, R107). -/
def scalePair (f : Nat) (sc : List Byte) (i : Nat) : Nat × Nat :=
  if isMx f then ((sc.getD (2 * i) 0).toNat, (sc.getD (2 * i + 1) 0).toNat) else (0x7F, 0x7F)

/-- Column j of a stationary buffer: its 64 codes (R101). -/
def StatBuf.column (b : StatBuf) (j : Nat) : List Nat := (List.range 64).map fun k => (Map.get 0 b.el (64 * k + j)).toNat

def StatBuf.scales (b : StatBuf) (fw j : Nat) : Nat × Nat :=
  if isMx fw then ((Map.get 0 b.sc (2 * j)).toNat, (Map.get 0 b.sc (2 * j + 1)).toNat) else (0x7F, 0x7F)

/-- One lane of one accumulation (R106 to R110, R89): the new value and whether an INT32 addition saturated. -/
def amacLane (fa fw : Nat) (z : Bool) (a w : List Nat) (sa sw : Nat × Nat) (old : W32) : W32 × Bool :=
  if fa = 0xA then
    let sum := (a.zip w).foldl (fun acc p => acc + sextNat 8 p.1 * sextNat 8 p.2) 0
    let r := satAdd32 (if z then 0 else old.toInt) sum
    (BitVec.ofInt 32 r.1, r.2)
  else
    let p := (a.zip w).map fun p => Fp.mul (elemNum fa p.1) (elemNum fw p.2)
    (f32 (Fp.add (if z then .fin false 0 0 else num32 old) (arrayTree p sa sw)), false)

/-- An accumulation over all its vectors: the new rows, lane by lane, and the saturating additions. (DEDUCED, log 11) -/
def amacRows (fa fw : Nat) (z : Bool) (n : Nat) (a : List Nat) (sc : List Byte) (b : StatBuf) (old : List W32) : List W32 × Nat :=
  let cols := (List.range 64).map fun j => (b.column j, b.scales fw j)
  let r := (List.range n).flatMap fun i =>
    let v := vecCodes a i
    (cols.zip ((old.drop (64 * i)).take 64)).map fun p => amacLane fa fw z v p.1.1 (scalePair fa sc i) p.1.2 p.2
  (r.map (·.1), (r.filter (·.2)).length)

/-- The seals of a sealed drain of `rows` to row `d` (R118, R119): groups it fills, but for those that hold a row in `racy`. -/
def Tile.sealGroups (x : Tile) (d : Nat) (rows : List Byte) (racy : List Nat) : Tile :=
  let n := rows.length / 512
  ((List.range 96).filter fun g => decide (d ≤ 8 * g ∧ 8 * g + 8 ≤ d + n) && !(racy.any fun r => decide (r / 8 = g))).foldl
    (fun x g => x.modMisc fun m => { m with
      sealE := Map.set 0 m.sealE g (crc32c ((rows.drop (512 * (8 * g - d))).take 4096))
      sealV := Map.set false m.sealV g true }) x

/-! ## Completion (R123) -/

/-- An array operation ends: accesses leave, mark falls, toll units free, the slot frees (R53, R54, R58, R123). -/
def State.arrDone (s : State) (t : Nat) (o : Op) : State :=
  let w := tollW o.w
  let s1 := s.modTile t fun y => (((y.dropAcc o.id).unmark o).count 0x208 (pathBusy o.w)).modIo fun io =>
    { io with arr := io.arr.filter fun p => decide (p.id ≠ o.id), toll := io.toll - w }
  s1.modCluster (clusterOf t) fun k => { k with
    held := k.held - w
    freed := (if k.freedAt = s.cycle + 1 then k.freed else 0) + w
    freedAt := s.cycle + 1 }

/-- Whether an earlier array operation in flight must complete before `o` has its effect: accumulator rows (R121, R127),
rows ordered by the stream path, a stationary buffer, `TILE_SSQ` order (R116). -/
def arrBefore (e o : Op) : Bool :=
  (arrAccs e).any (fun a => (arrAccs o).any fun b =>
    decide (a.am = b.am) && overlap a.lo a.n b.lo b.n && (a.wr || b.wr) && (a.am || a.streamed b)) ||
  (arrBuf e.w).any (fun b => decide (arrBuf o.w = some b ∧ ¬ (fld e.w 56 8 = 0x51 ∧ fld o.w 56 8 = 0x51))) ||
  (decide (fld e.w 56 8 = 0x53 ∧ fld o.w 56 8 = 0x53) && bit e.w 24 && bit o.w 24)

/-- The stationary buffers by number. -/
def Tile.sbuf (x : Tile) (b : Nat) : StatBuf := if b = 0 then x.sb0 else x.sb1
def Tile.setSbuf (x : Tile) (b : Nat) (v : StatBuf) : Tile := if b = 0 then { x with sb0 := v } else { x with sb1 := v }

/-- What a completing `ALD` does (R104). -/
def State.aldEnd (s : State) (c : Acct) (o : Op) : State :=
  let f := arrF o.w
  andThen (s.opRead c o.id (o.v.getD 1 0).toNat (vecRows f 64)) fun s b =>
    andThen (if isMx f then s.opRead c o.id (o.v.getD 2 0).toNat (scaleRun (fld o.w 15 9) 128) else (s, some [])) fun s sc =>
      let codes := unpackVecs f 64 b
      let el := if bit o.w 26 then codes
        else (List.range 64).flatMap fun k => (List.range 64).map fun j => codes.getD (64 * j + k) 0
      let buf : StatBuf := {
        fmt := f
        el := Map.setRange 0 [] 0 (el.map fun x => BitVec.ofNat 32 x)
        sc := Map.setRange 0 [] 0 ((sc.drop (fld o.w 15 9)).take 128)
        bad := [] }
      (s.modTile c.t fun y => y.setSbuf (fld o.w 27 1) buf).arrDone c.t o

/-- What a completing `AMAC` does (R105 to R110): a format other than the buffer's last load gives unpredictable rows. -/
def State.amacEnd (s : State) (c : Acct) (o : Op) : State :=
  let fa := arrF o.w
  let fw := fld o.w 24 4
  let n := arrN o.w
  let m := (o.v.getD 0 0).toNat
  let z := bit o.w 22
  let bn := fld o.w 23 1
  let buf := (s.tile c.t).sbuf bn
  match buf.bad.head? with
  | some e => s.tileFault c.t c.q 0x05 (0x40000000 + 64 * bn + e / 64) c.pc
  | none =>
    andThen (s.opRead c o.id (o.v.getD 1 0).toNat (vecRows fa n)) fun s b =>
      andThen (if isMx fa then s.opRead c o.id (o.v.getD 2 0).toNat (scaleRun (fld o.w 1 9) (2 * n)) else (s, some [])) fun s sc =>
        andThen (if z then (s, some (List.replicate (64 * n) 0)) else s.opReadAm c o.id m n) fun s old =>
          if buf.fmt ≠ 16 ∧ buf.fmt ≠ fw then
            let v := (List.range (64 * n)).map fun k => (Config.freeWord s.free k).setWidth 32
            ((s.modTile c.t fun y => y.writeAm m v).took).arrDone c.t o
          else
            let r := amacRows fa fw z n (unpackVecs fa n b) (sc.drop (fld o.w 1 9)) buf old
            (s.modTile c.t fun y => (y.writeAm m r.1).count 0x310 r.2).arrDone c.t o

/-- What a completing `APRE` does (R111): the bits are copied. -/
def State.apreEnd (s : State) (c : Acct) (o : Op) : State :=
  let n := arrN o.w
  let m := (o.v.getD 0 0).toNat
  let r := (o.v.getD 1 0).toNat
  let lanes := fun (k : Nat) (b : List Byte) => (codesOf 32 k (leNat b)).map fun x => BitVec.ofNat 32 x
  match fld o.w 30 2 with
  | 0 => (s.modTile c.t fun y => y.writeAm m (List.replicate (64 * n) 0)).arrDone c.t o
  | 1 =>
    andThen (s.opRead c o.id r 1) fun s b =>
      let half := lanes 64 (if bit o.w 29 then b.drop 256 else b.take 256)
      (s.modTile c.t fun y => y.writeAm m ((List.replicate n half).flatten)).arrDone c.t o
  | _ =>
    andThen (s.opRead c o.id r (vecRows 0 n)) fun s b =>
      (s.modTile c.t fun y => y.writeAm m (lanes (64 * n) b)).arrDone c.t o

/-- What a completing `ADRN` does (R112 to R119). -/
def State.adrnEnd (s : State) (c : Acct) (o : Op) : State :=
  let fo := arrF o.w
  let n := arrN o.w
  let d := (o.v.getD 0 0).toNat
  let m := (o.v.getD 1 0).toNat
  andThen (s.opReadAm c o.id m n) fun s am =>
    let out := (chunks 64 n am).map (drainRow o.w)
    let rows := packRows fo (vecRows fo n) (out.flatMap fun r => r.2.1)
    let racy := (s.tile c.t).racyWrites o.id
    let cw : Acct := { c with eng := 1 }
    let s1 := s.opWrite cw o.id d rows
    let s2 := if isMx fo then s1.opWrite cw o.id (o.v.getD 2 0).toNat (padTo 512 (out.flatMap fun r => r.1)) else s1
    let s3 := s2.modTile c.t fun y =>
      let y1 := if bit o.w 25 then y.writeAm m (List.replicate (64 * n) 0) else y
      let y2 := if bit o.w 24 then
          y1.modMisc fun g => { g with ssq := out.foldl (fun a r => addSsq a (rowSquares fo r.1 r.2.1)) g.ssq }
        else y1
      let y3 := if bit o.w 23 then y2.sealGroups d rows racy else y2
      y3.countEvs (out.flatMap fun r => r.2.2)
    s3.arrDone c.t o

/-- `ARRAY_OP_COMPLETE` (R123): operation `i` of the array queue completes if it has started and no earlier one must complete
before it. (DESIGN CHOICE, log 3; DEDUCED, log 11) -/
def execArrayOpComplete (t i : Nat) (s : State) : Out :=
  if 2304 ≤ t then .fault (.noSuchUnit "tile" t)
  else
    alongside t s fun s =>
      let l := (s.tile t).io.arr
      match l[i]? with
      | none => .next s
      | some o =>
        if ¬ o.go ∨ (l.take i).any (fun e => arrBefore e o) then .next s
        else
          let c : Acct := { t := t, q := Strm.code o.q, eng := 0, pc := o.pc }
          match fld o.w 56 8 with
          | 0x50 => .next (s.aldEnd c o)
          | 0x51 => .next (s.amacEnd c o)
          | 0x52 => .next (s.apreEnd c o)
          | _ => .next (s.adrnEnd c o)

end Sys2Proof.Machine
end

