-- ==== Sys2Proof/Machine/ClusterStore.lean ====
section
/-! DEFINITION. The cluster store: tile-side requests, the arbiter and the range scoreboard (R149, R178 to R185), and
uniform-mode accesses (R31 to R35, R150, R186). -/

namespace Sys2Proof.Machine

/-! ## Contents (R178, R182) -/

/-- The first granule of `n` bytes from `lo` whose parity mismatches. -/
def Cluster.badGranule (c : Cluster) (lo n : Nat) : Option Nat :=
  ((List.range ((lo + n - 1) / 64 - lo / 64 + 1)).map (lo / 64 + ·)).find? c.csBad.contains

/-- Reads cluster-store bytes; a mismatch raises `CS_PARITY`, and what the access was writing becomes unpredictable by `spoil` (R182). -/
def State.csRead (s : State) (c lo n : Nat) (spoil : State → State := id) : State × Option (List Byte) :=
  match (s.cluster c).badGranule lo n with
  | some g => ((spoil s).clusterFault c 1 (64 * g), none)
  | none => (s, some (Map.slice 0 (s.cluster c).cs lo n))

/-- Writes whole granules, with parity. -/
def State.csWrite (s : State) (c lo : Nat) (b : List Byte) : State :=
  s.modCluster c fun x => { x with
    cs := Map.setRange 0 x.cs lo b
    csBad := x.csBad.filter fun g => decide (64 * g < lo ∨ lo + b.length ≤ 64 * g) }

/-- The byte ranges of a cluster store that queue rings and tally backing take (R183): first byte and length. -/
def State.csRanges (s : State) (c : Nat) : List (Nat × Nat) :=
  let rings := (clusterTiles c).flatMap fun t => (s.tile t).cfg.filterMap fun e =>
    if 0x1000 ≤ e.1 ∧ e.1 < 0x3000 ∧ bit e.2 63 ∧ bit e.2 62 then some (512 * fld e.2 0 16, 512 * 2 ^ fld e.2 56 4) else none
  let backs := match s.job.img with
    | some im => (im.backing.filter fun b => b.inCs && decide (b.cluster = c)).map fun b => (b.at_, 768)
    | none => []
  rings ++ backs

/-- A `CLD`, `CST` or uniform access has touched `n` bytes from `lo`: what of them is a ring or tally backing is unpredictable (R183,
R288; DEDUCED, log 48). -/
def State.csSpoil (s : State) (c lo n : Nat) : State :=
  (s.csRanges c).foldl (fun s r =>
    let a := max lo r.1
    let b := min (lo + n) (r.1 + r.2)
    if a < b then (s.modCluster c fun x => { x with cs := Map.setRange 0 x.cs a (s.freeBytes (b - a)) }).took else s) s

/-! ## Tile-side requests (R149) -/

/-- The issue of `CLD` or `CST` (R149): rows are checked, scratchpad first; the tile's port holds the request. -/
def csOp (key : Nat) (t : Nat) (q : Strm) (s : State) (store : Bool) : Out :=
  tileInsn key t q s (fun _ => []) fun i x s =>
    if x.io.cs.isSome then s.stall i 1
    else
      let r := x.seq i.q
      let d := (r.areg (fld i.w 42 3)).toNat
      let a := (r.areg (fld i.w 37 3)).toNat / 512
      let n := fN i.w
      s.rowCheck i [spRun d n, runBad 0x20000000 49152 a n] <|
        let o := i.op x [BitVec.ofNat 64 d] []
        let req : CsReq := { lt := localOf t, qu := false, lo := 512 * a, n := n, wr := store, op := o, at_ := s.cycle + 2 }
        let s1 := s.issueSeq i fun y => (y.startOp i).modIo fun io => { io with cs := some req }
        let s2 := s1.modCluster (clusterOf t) fun c => { c with waiting := c.waiting ++ [req] }
        s2.addAccs t i.pc [{ id := o.id, eng := 7, q := Strm.code i.q, lo := d, n := n, wr := !store }]

/-- `CLD` (R149). -/
def execCld (t : Nat) (q : Strm) (s : State) : Out := csOp 0x610 t q s false
/-- `CST` (R149). -/
def execCst (t : Nat) (q : Strm) (s : State) : Out := csOp 0x620 t q s true

/-- Whether two byte ranges overlap and one of the two accesses writes (R180). -/
def rangeClash (lo n : Nat) (wr : Bool) (lo' n' : Nat) (wr' : Bool) : Bool := overlap lo n lo' n' && (wr || wr')

def CsReq.clash (a b : CsReq) : Bool := rangeClash a.lo (512 * a.n) a.wr b.lo (512 * b.n) b.wr

/-- The uniform accesses that the scoreboard still holds (R186). -/
def State.uniHeld (s : State) (c : Nat) : List (Nat × Nat × Bool) :=
  (s.cluster c).uch.filter fun u => decide (s.power.exc < u.1)

/-- The uniform accesses to a cluster that have issued and that its channel has not accepted. -/
def State.uniWaiting (s : State) (c : Nat) : List UniOp :=
  s.job.tiles.flatMap fun t => (s.tile t).io.uni.filter fun u => decide (u.c = c) && !u.acc

/-- The requests that stand at the arbiter in compute cycle `cyc` (R179, R180), with their place among those waiting: a queue unit shows
one at a time, its oldest. -/
def Cluster.atArbiter (x : Cluster) (cyc : Nat) : List (CsReq × Nat) :=
  x.waiting.zipIdx.filter fun p =>
    decide (p.1.at_ ≤ cyc) && !(p.1.qu && (x.waiting.take p.2).any fun a => a.qu && decide (a.lt = p.1.lt))

/-- The requests at the arbiter that meet every condition of R180, the uniform accesses that came before them among the conflicts
(R186), with their place. -/
def State.csReady (s : State) (c : Nat) : List (CsReq × Nat) :=
  let x := s.cluster c
  if 4 ≤ x.chans.length then []
  else
    (x.atArbiter s.cycle).filter fun p =>
      let r := p.1
      x.chans.all (fun a => !(r.clash a)) &&
        (s.uniHeld c).all (fun u => !(rangeClash r.lo (512 * r.n) r.wr u.2.1 64 u.2.2)) &&
        (s.uniWaiting c).all (fun u => !(decide (u.cyc < r.at_) && rangeClash r.lo (512 * r.n) r.wr u.ad 64 u.wr)) &&
        (x.atArbiter s.cycle).all (fun a => !(decide (a.1.at_ < r.at_) && r.clash a.1)) &&
        (r.qu || x.chans.all fun a => decide (a.lt ≠ r.lt) || a.qu)

/-- The place of a request in the order of compute cycle `cc` (R180). -/
def csTurn (cc : Nat) (r : CsReq) : Nat := 2 * ((r.lt + 12 - cc % 12) % 12) + (if r.qu then 0 else 1)

/-- The compute cycle of the arbiter's next choice: it accepts one request in a cycle, and the first of those waiting must have reached it
(R180). (DESIGN CHOICE, log 46) -/
def State.csCycle (s : State) (c : Nat) : State :=
  let x := s.cluster c
  let first := match x.waiting with
    | [] => 0
    | r :: l => l.foldl (fun m a => min m a.at_) r.at_
  { s with sub := max s.cycle (max first x.csGo) - s.power.cc }

/-- The next request of a queue unit reaches the arbiter when the one before it has been accepted. -/
def nextOfUnit (cyc : Nat) (r : CsReq) (l : List CsReq) : List CsReq :=
  if r.qu then
    match l.findIdx? fun a => a.qu && decide (a.lt = r.lt) with
    | some k => l.modify k fun a => { a with at_ := max a.at_ (cyc + 1) }
    | none => l
  else l

/-- `CS_REQUEST_ACCEPT` (R180, R181, R184, R185): the arbiter accepts the first request that may be accepted, in the order of
this compute cycle; the cycles in which a request went on waiting are counted. -/
def execCsRequestAccept (c : Nat) (s : State) : Out :=
  if 192 ≤ c then .fault (.noSuchUnit "cluster" c)
  else if (s.cluster c).waiting = [] then .next s
  else
    let e := s.csCycle c
    let s0 := e.modCluster c fun x => x.countWait e.cycle
    let best := (s0.csReady c).foldl (fun (b : Option (CsReq × Nat)) p =>
      match b with
      | none => some p
      | some a => if csTurn e.cycle p.1 < csTurn e.cycle a.1 then some p else some a) none
    match best with
    | none => .next (s0.modCluster c fun x => x.countWait (e.cycle + 1))
    | some p =>
      let s1 := s0.modCluster c fun x => { x with
        waiting := nextOfUnit e.cycle p.1 (x.waiting.eraseIdx p.2)
        chans := x.chans ++ [p.1]
        chMax := max x.chMax (x.chans.length + 1)
        csGo := e.cycle + 1 }
      let s2 := if p.1.qu then s1 else s1.modTile (clusterTile c p.1.lt) fun y => y.modIo fun io => { io with cs := none }
      .next (s2.modCluster c fun x => x.countWait (e.cycle + 1))

/-- A queue-unit write of a ring has completed one of its accesses (R183). -/
def Tile.ringAccessDone (x : Tile) : Tile :=
  let k := (x.qu.wrs.findIdx? fun w => decide (0 < w.wait)).getD x.qu.wrs.length
  x.modQu fun u => { u with wrs := u.wrs.modify k fun w => { w with wait := w.wait - 1 } }

/-- A queue-unit access of a ring completes (R162, R178, R182): a write puts its bytes into the rows it read, as one access; the read of a
`QHEAD` brings its register the 8 bytes. -/
def State.ringAccess (s : State) (c t : Nat) (r : CsReq) : State :=
  if r.wr then
    let spoil := fun (s : State) => (s.modCluster c fun x => { x with cs := Map.setRange 0 x.cs r.lo (s.freeBytes (512 * r.n)) }).took
    andThen (s.csRead c r.lo (512 * r.n) spoil) fun s b =>
      (s.csWrite c r.lo (splice b (r.ad - r.lo) r.dat)).modTile t Tile.ringAccessDone
  else
    andThen (s.csRead c r.lo (512 * r.n)) fun s b =>
      if (s.tile t).st = 8 then s
      else s.modTile t fun y => y.result r.op.q (fD r.op.w) (wordAt b (r.ad - r.lo))

/-- `CS_ACCESS_COMPLETE` (R179, R182, R183, R187): channel access `i` of the cluster moves its rows and leaves the scoreboard. Rows
that land in a tile that has stopped are unpredictable. -/
def execCsAccessComplete (c i : Nat) (s : State) : Out :=
  if 192 ≤ c then .fault (.noSuchUnit "cluster" c)
  else
    match (s.cluster c).chans[i]? with
    | none => .next s
    | some r =>
      let t := clusterTile c r.lt
      let o := r.op
      let a : Acct := { t := t, q := Strm.code o.q, eng := 7, pc := o.pc }
      let s0 := s.modCluster c fun x => { x with chans := x.chans.eraseIdx i }
      if r.qu then .next (s0.ringAccess c t r)
      else
        let d := (o.v.headD 0).toNat
        let stopped := (s.tile t).st = 8
        let done := fun (s : State) => if stopped then s else s.modTile t fun y => (y.dropAcc o.id).unmark o
        let rows := (List.range r.n).map (d + ·)
        if r.wr then
          .next (andThen (s0.opRead a o.id d r.n) fun s b => done ((s.csWrite c r.lo b).csSpoil c r.lo (512 * r.n)))
        else
          .next (andThen (s0.csRead c r.lo (512 * r.n) fun s => s.writeRows a d (zeros (512 * r.n)) rows) fun s b =>
            done ((s.writeRows a d b (if stopped then rows else (s.tile t).racyWrites o.id)).csSpoil c r.lo (512 * r.n)))

/-! ## Uniform mode (R31 to R35, R150, R186) -/

/-- The issue of `ULD` or `UST` (R32, R150): the tile must be in uniform mode, the rows in range, the cluster in the job; the
rate shaper opens a slot every 54 exchange cycles. (DEDUCED, log 15) -/
def uniOp (key : Nat) (t : Nat) (q : Strm) (s : State) (store : Bool) : Out :=
  tileInsn key t q s (fun w => [fA w]) fun i x s =>
    let r := x.seq i.q
    let a := r.sreg (fA i.w)
    let c := fld a 32 8
    let g := fld a 6 19
    let d := (r.areg (fld i.w 42 3)).toNat
    if x.io.cs.isSome then s.stall i 1
    else if bit (x.reg 0x18) 9 = false then s.tileFault t (Strm.code q) 0x08 (2 * 2 ^ 24 + c) i.pc
    else
      s.rowCheck i [spRun d 1, if 393216 ≤ g then some (rowDetail 0x20000000 (g / 8)) else none] <|
        if ¬ s.job.clusters.contains c then s.tileFault t (Strm.code q) 0x08 (2 ^ 24 + c) i.pc
        else if s.power.exc < x.io.uniNext then
          (s.modTile t fun y =>
            if y.io.uniWait then y else (y.count 0x228 1).modIo fun io => { io with uniWait := true }).stall i 1
        else
          let o := i.op x [BitVec.ofNat 64 d] []
          let s1 := s.issueSeq i fun y => (y.startOp i).modIo fun io => { io with
            uni := io.uni ++ [{ op := o, c := c, ad := 64 * g, wr := store, at_ := s.power.exc, cyc := s.cycle }]
            uniNext := s.power.exc + 54
            uniWait := false }
          s1.addAccs t i.pc [{ id := o.id, eng := 7, q := Strm.code q, lo := d, n := 1, wr := !store }]

/-- `ULD` (R150). -/
def execUld (t : Nat) (q : Strm) (s : State) : Out := uniOp 0x630 t q s false
/-- `UST` (R150). -/
def execUst (t : Nat) (q : Strm) (s : State) : Out := uniOp 0x640 t q s true

def State.setUni (s : State) (t i : Nat) (f : UniOp → UniOp) : State :=
  s.modTile t fun y => y.modIo fun io => { io with uni := io.uni.modify i f }

/-- Whether nothing at the target cluster conflicts with a uniform access (R186): no accepted tile-side access, no tile-side request
that reached the arbiter before it. (DEDUCED, log 15) -/
def State.uniClear (s : State) (u : UniOp) : Bool :=
  let x := s.cluster u.c
  x.chans.all (fun r => !(rangeClash u.ad 64 u.wr r.lo (512 * r.n) r.wr)) &&
    (x.atArbiter s.cycle).all fun p => !(decide (p.1.at_ < u.cyc) && rangeClash u.ad 64 u.wr p.1.lo (512 * p.1.n) p.1.wr)

/-- Whether another uniform access of the same cluster, issued in the same exchange cycle by a tile of lower ID, goes first (R186). -/
def State.uniBefore (s : State) (t : Nat) (u : UniOp) : Bool :=
  s.job.tiles.any fun v => decide (v < t) && (s.tile v).io.uni.any fun w => !w.acc && decide (w.c = u.c ∧ w.at_ = u.at_) && s.uniClear w

/-- The 16-cycle boundaries by which an access that waited `w` exchange cycles is late: its allowance is 48 (R34, R35). -/
def lateBy (w : Nat) : Nat := (w - 48 + 15) / 16

/-- `UNIFORM_CHANNEL_ACCEPT` (R35, R186): access `i` of the tile has reached the channel; it is accepted, one in an exchange cycle, once
nothing conflicts with it. It reads or writes its granule and leaves the scoreboard in the cycle after the eighth. (DEDUCED, log 15) -/
def execUniformChannelAccept (t i : Nat) (s : State) : Out :=
  if 2304 ≤ t then .fault (.noSuchUnit "tile" t)
  else
    match (s.tile t).io.uni[i]? with
    | none => .next s
    | some u =>
      let go := max s.power.exc (s.cluster u.c).uniGo
      if u.acc then .next s
      else if s.uniClear u = false ∨ s.uniBefore t u = true ∨ s.power.exc + 17 ≤ go then
        .next (s.setUni t i fun u => { u with arr := if u.arr = 0 then s.power.exc + 1 else u.arr })
      else
        let k := lateBy (if u.arr = 0 then 0 else go + 1 - u.arr)
        let a : Acct := { t := t, q := Strm.code u.op.q, eng := 7, pc := u.op.pc }
        let s1 := s.modCluster u.c fun x => { x with uch := s.uniHeld u.c ++ [(go + 9, u.ad, u.wr)], uniGo := go + 1 }
        if u.wr then
          .next (andThen (s1.opRead a u.op.id (u.op.v.headD 0).toNat 1) fun s row =>
            ((s.csWrite u.c u.ad ((row.drop (64 * fld u.op.w 0 3)).take 64)).csSpoil u.c u.ad 64).setUni t i fun u =>
              { u with acc := true, k := k })
        else
          let d := (u.op.v.headD 0).toNat
          .next (andThen (s1.csRead u.c u.ad 64 fun s => s.writeRows a d (zeros 512) [d]) fun s b =>
            (s.csSpoil u.c u.ad 64).setUni t i fun u => { u with acc := true, dat := b, k := k })

/-- `UNIFORM_COMPLETE` (R34, R35): an accepted access completes 653 exchange cycles after its issue, or `16 k` cycles later where its
wait was longer than its allowance, which is counted as late; before then, or for another `k`, nothing happens. A read writes its 64 bytes into its row;
in a tile that has stopped they are unpredictable. (DEDUCED, log 15) -/
def execUniformComplete (t i k : Nat) (s : State) : Out :=
  if 2304 ≤ t then .fault (.noSuchUnit "tile" t)
  else
    match (s.tile t).io.uni[i]? with
    | none => .next s
    | some u =>
      if ¬ u.acc ∨ k ≠ u.k ∨ s.power.exc < u.at_ + 653 + 16 * k then .next s
      else
        let o := u.op
        let a : Acct := { t := t, q := Strm.code o.q, eng := 7, pc := o.pc }
        let d := (o.v.headD 0).toNat
        let stopped := (s.tile t).st = 8
        let done := fun (s : State) => s.modTile t fun y =>
          let z := (if stopped then y else (y.dropAcc o.id).unmark o).modIo fun io => { io with uni := io.uni.eraseIdx i }
          if 0 < k then z.count 0x230 1 else z
        if u.wr then .next (done s)
        else
          .next (andThen (s.opRead a o.id d 1) fun s row =>
            done (s.writeRows a d (splice row (64 * fld o.w 0 3) u.dat) (if stopped then [d] else (s.tile t).racyWrites o.id)))

end Sys2Proof.Machine
end

