-- ==== Sys2Proof/Machine/Control.lean ====
section
/-! DEFINITION. Control and waiting instructions (R134 to R137). -/

namespace Sys2Proof.Machine

/-- The slot index of a branch target (R129). -/
def tgt (w : Word) : BitVec 13 := BitVec.ofNat 13 (fld w 0 13)

/-- The bubble cycles of a taken branch that count (R41, R52): two, none of a halted stream that is stepped. -/
def Tile.bubbles (x : Tile) (q : Strm) : Nat := if x.halted q then 0 else 2

/-- A taken branch: its bubble cycles are counted (R41, R52). -/
def State.branchTo (s : State) (i : Site) (next : BitVec 13) (f : Tile → Tile) : State :=
  (s.issueWith i next f).countTile i.t (0x100 + 0x40 * Strm.code i.q + 8 * 7) ((s.tile i.t).bubbles i.q)

/-- `NOP` (R134). -/
def execNop (t : Nat) (q : Strm) (s : State) : Out :=
  tileInsn 0x000 t q s (fun _ => []) fun i _ s => s.issueSeq i id

/-- `BR` (R134, R135). -/
def execBr (t : Nat) (q : Strm) (s : State) : Out :=
  tileInsn 0x010 t q s (fun _ => []) fun i _ s => s.branchTo i (tgt i.w) id

/-- `CALL` (R134): `S31` takes the slot after it. At the last slot of a partition of 8,192 the spec does not say whether that is 8,192 or,
as the program counter wraps, 0: the model writes 8,192 (DESIGN CHOICE, log 13). -/
def execCall (t : Nat) (q : Strm) (s : State) : Out :=
  tileInsn 0x020 t q s (fun _ => [31]) fun i x s =>
    s.branchTo i (tgt i.w) fun y => y.modSeq i.q fun v => v.setS 31 (BitVec.ofNat 64 (x.pc i.q + 1))

/-- `RET` (R134): bits above 12 of `S31` are ignored. -/
def execRet (t : Nat) (q : Strm) (s : State) : Out :=
  tileInsn 0x030 t q s (fun _ => [31]) fun i x s => s.branchTo i (tgt ((x.seq i.q).sreg 31)) id

/-- `BRI` (R134). -/
def execBri (t : Nat) (q : Strm) (s : State) : Out :=
  tileInsn 0x040 t q s (fun w => [fA w]) fun i x s => s.branchTo i (tgt ((x.seq i.q).sreg (fA i.w))) id

/-- `MWAIT` (R53): issues when every named mark is zero. -/
def execMwait (t : Nat) (q : Strm) (s : State) : Out :=
  tileInsn 0x050 t q s (fun _ => []) fun i x s =>
    if (List.range 16).all fun n => !bit i.w n || decide ((x.seq i.q).mark n = 0) then s.issueSeq i id else s.stall i 3

/-- A `PWAIT` that stalls notes the transfers it names (R221 `TILE_PF_LATE`). (DESIGN CHOICE, log 18) -/
def Tile.noteLate (x : Tile) (q : Strm) (m : Word) : Tile :=
  let late := x.io.tags.filter fun g => decide (g.q = q) && bit m g.tag && !g.waited
  (x.modIo fun io => { io with
    tags := io.tags.map fun g => if g.q = q ∧ bit m g.tag = true then { g with waited := true } else g }).count 0x518 late.length

/-- `PWAIT` (R134, R190): issues when no named tag is in flight for the stream. -/
def execPwait (t : Nat) (q : Strm) (s : State) : Out :=
  tileInsn 0x060 t q s (fun w => [fA w]) fun i x s =>
    let m := (x.seq i.q).sreg (fA i.w)
    if x.io.tags.any fun g => decide (g.q = i.q) && bit m g.tag then
      (s.modTile t fun y => y.noteLate i.q m).stall i 4
    else s.issueSeq i id

/-- Whether a stream's own array, vector and outbound operations have completed (R65). -/
def Tile.drained (x : Tile) (q : Strm) : Bool :=
  (x.io.arr ++ x.io.vec ++ x.io.out).all fun o => decide (o.q ≠ q)

/-- `SYNC` (R136): ends the stream's compute phase; for U the auto-bias rule runs (R98). The tile arrives when F, B and U
stand after theirs (R65). A cycle in which it waits for its own stream's operations (R65) is one for which the table of R52 names no
cause: the model counts it under cause 6, `SYNC` (DESIGN CHOICE, log 3). -/
def execSync (t : Nat) (q : Strm) (s : State) : Out :=
  tileInsn 0x070 t q s (fun _ => []) fun i x s =>
    if x.drained i.q then
      (s.issueSeq i fun y =>
        let z := y.modSeq i.q fun v => { v with sync := true }
        if i.q = .u then z.biasStep else z).arrive t
    else s.stall i 6

/-- `BRK` (R137): a no-op while breakpoints are disabled; else the stream halts and a debug event carries `CODE`. -/
def execBrk (t : Nat) (q : Strm) (s : State) : Out :=
  tileInsn 0x080 t q s (fun _ => []) fun i _ s =>
    let s1 := s.issueSeq i id
    if s.dbg.bpen then
      let s2 := s1.modTile t fun x => x.haltBy i.q 0
      s2.debugEvent t 3 (Strm.code i.q) 0 (fld i.w 0 8) ((s2.tile t).slot i.q)
    else s1

end Sys2Proof.Machine
end

