-- ==== Sys2Proof/Machine/Route.lean ====
section
/-! DEFINITION. Which Llyn port a packet, message or symbol leaves by (R347 to R350). -/

namespace Sys2Proof.Machine

/-- A port that carries traffic: `UP`, or `RETRAIN`, in which traffic waits and is then replayed (R343, R359). (DEDUCED, log 20) -/
def State.portUp (s : State) (p : Nat) : Bool := decide ((s.port p).st = 4 ∨ (s.port p).st = 5)

/-- The enabled ports of a group in ascending order (R349). -/
def State.groupPorts (s : State) (g : Nat) : List Nat :=
  (List.range 32).filter fun p => (s.port p).en && (s.port p).gvalid && decide ((s.port p).group = g)

/-- The port for module `dmod` by its routing entry and the index sum of R349; with `moves`, the next `UP` port of the group
where that one is not `UP` (R350). Left: the port a `LINK_ROUTE` fault names. (DEDUCED, log 20) -/
def State.route (s : State) (dmod sum : Nat) (moves : Bool) : Nat ⊕ Nat :=
  let e := Map.get 0 s.net.rt (0x31000 + 8 * dmod)
  let l := s.groupPorts (fld e 0 4)
  if bit e 63 = false ∨ l = [] then .inl 0
  else
    let k := sum % l.length
    let p := l.getD k 0
    if s.portUp p then .inr p
    else if moves then
      match (l.drop k ++ l.take k).find? s.portUp with
      | some r => .inr r
      | none => .inl p
    else .inl p

/-- The fault of a packet that no port takes (R350). -/
def State.linkRoute (s : State) (dmod p : Nat) : State := s.devFault 0x43 (p % 32 * 2 ^ 16 + dmod)

/-! ## Paths over the mesh (R24, R25, R28) -/

/-- The tile of a port's edge router (R18). -/
def edgeTile (p : Nat) : Nat :=
  let r := p / 2
  tileAt (12 * (r % 8) + (if p % 2 = 0 then 3 else 8)) (if r < 8 then 0 else 23)

/-- The input links a packet takes after its injection, each as its router and the side it comes in by (0 north, 1 south, 2 west, 3 east): along
the source row to the destination's column, then along that column (R25). None leaves the mesh (R24). -/
def meshPath (a b : Nat) : List (Nat × Nat) :=
  let y := tileY a
  let x := tileX b
  let row := if tileX a ≤ x then (List.range (x - tileX a)).map fun i => (tileAt (tileX a + 1 + i) y, 2)
    else (List.range (tileX a - x)).map fun i => (tileAt (tileX a - 1 - i) y, 3)
  let col := if y ≤ tileY b then (List.range (tileY b - y)).map fun i => (tileAt x (y + 1 + i), 0)
    else (List.range (y - tileY b)).map fun i => (tileAt x (y - 1 - i), 1)
  row ++ col

/-- The input a packet comes to its last router by: a link, or the local injection (4) where it takes none. -/
def lastLink (a b : Nat) : Nat × Nat := (meshPath a b).getLastD (a, 4)

/-- Whether every router on the way is in a region that is awake (R28). -/
def State.pathOn (s : State) (a b : Nat) : Bool :=
  (a :: (meshPath a b).map (·.1)).all fun t => decide ((s.region (regionOf t)).pwr = 0)

/-! ## Message headers (R260) -/

def hDmod (m : Msg) : Nat := fld m.h0 54 10
def hDtile (m : Msg) : Nat := fld m.h0 42 12
def hDq (m : Msg) : Nat := fld m.h0 33 9
def hRq (m : Msg) : Nat := fld m.h0 24 9
def hTag (m : Msg) : Nat := fld m.h0 8 16
def hLen (m : Msg) : Nat := 16 * (fld m.h0 0 8 + 1)
def hRcpt (m : Msg) : Bool := bit m.h1 63
def hTform (m : Msg) : Bool := bit m.h1 62
def hTix (m : Msg) : Nat := fld m.h1 56 6
def hSmod (m : Msg) : Nat := fld m.h1 46 10
def hStile (m : Msg) : Nat := fld m.h1 34 12
def hEpoch (m : Msg) : Nat := fld m.h1 0 32

/-- A message or slip leaves a tile's exchange port (R262, R349, R350): into the mesh of this module, or to the Llyn port its
flow takes; where that port is not `UP` it is discarded and the member faults. -/
def State.sendMsg (s : State) (m : Msg) : State :=
  if hDmod m = s.modid then s.modNet fun n => { n with msgs := n.msgs ++ [m] }
  else
    match s.route (hDmod m) (hSmod m + hStile m + hDtile m) false with
    | .inr p => s.modNet fun n => { n with rmsg := n.rmsg ++ [(p, m)] }
    | .inl p => s.linkRoute (hDmod m) p

end Sys2Proof.Machine
end

