-- ==== Sys2Proof/Machine/Tally.lean ====
section
/-! DEFINITION. Tallies (R151 to R153, R277 to R280), their watches (R491) and the tally instructions. -/

namespace Sys2Proof.Machine

/-- The clusters' detail of a tally fault (R280). -/
def tallyDetail (tl src kind : Nat) : Nat := tl * 2 ^ 42 + src * 2 ^ 28 + kind * 2 ^ 24

/-- Whether a watch's condition holds of a count (R491). (DEDUCED, log 24) -/
def watchHolds (w : Word) (count : Int) : Bool :=
  let v := sextNat 32 (fld w 0 32)
  match fld w 60 2 with
  | 0 => decide (count = v)
  | 1 => decide (v ≤ count)
  | 2 => decide (count ≤ v)
  | _ => false

/-- The tally watches after an operation applied to tally `tl` (R491 to R493): a hit is recorded and is a debug event; with
`HALT` every tile of the cluster halts. It is recorded in `TILE_DBG_STAT` of every tile of the cluster (DEDUCED, log 24). -/
def State.tallyWatch (s : State) (c tl : Nat) : State :=
  if s.dbg.bpen then
    (List.range 4).foldl (fun s n =>
      let w := Map.get 0 (s.cluster c).tw (0x300 + 8 * n)
      if bit w 63 ∧ fld w 32 6 = tl ∧ watchHolds w (Map.get {} (s.cluster c).tally tl).count.toInt = true then
        let s1 := s.modCluster c fun x => { x with tw := Map.set 0 x.tw (0x300 + 8 * n) (w ||| place 59 1 1) }
        let s2 := (clusterTiles c).foldl (fun s t =>
          let s' := if bit w 62 then s.modTile t fun x => allStrms.foldl (fun x q => x.haltBy q 1) x else s
          s'.modTile t fun x => x.dbgRecord s.cycle 4 (place 56 3 4 ||| place 40 8 n)) s1
        (s2.fixTrigger 3 false).fixTrigger 1 false
      else s) s
  else s

/-- An addition to a tally (R278): below zero is `TALLY_UNDER`, above the ceiling `TALLY_OVER`, and is not applied. Gives the
state and whether it was applied. -/
def State.tallyAdd (s : State) (c tl : Nat) (d : Int) (src kind : Nat) : State × Bool :=
  let y := Map.get {} (s.cluster c).tally tl
  let n := y.count.toInt + d
  if n < 0 then (s.clusterFault c 2 (tallyDetail tl src kind), false)
  else if (y.ceil : Int) < n then (s.clusterFault c 3 (tallyDetail tl src kind), false)
  else
    ((s.modCluster c fun x => { x with tally := Map.set {} x.tally tl { y with count := BitVec.ofInt 32 n } }).tallyWatch c tl, true)

/-- The issue of a tally addition (R151): it waits to be applied. -/
def tallyIssue (key : Nat) (t : Nat) (q : Strm) (s : State) (regs : Word → List Nat) (val : Seq → Word → Nat) : Out :=
  tileInsn key t q s regs fun i x s =>
    let a : TAdd := { tl := insnTl i.w, d := sextNat 32 (val (x.seq i.q) i.w), op := i.op x [] [], at_ := s.cycle }
    s.issueSeq i fun y => (y.startOp i).modIo fun io => { io with tal := io.tal ++ [a] }

/-- `TADD` (R151). -/
def execTadd (t : Nat) (q : Strm) (s : State) : Out := tallyIssue 0x700 t q s (fun _ => []) fun _ w => fld w 0 32
/-- `TADDR` (R151): `Sa`[31:0], signed. -/
def execTaddr (t : Nat) (q : Strm) (s : State) : Out :=
  tallyIssue 0x710 t q s (fun w => [fld w 36 5]) fun v w => fld (v.sreg (fld w 36 5)) 0 32

/-- Whether the tile has a cluster-store access issued before operation `id` that its cluster has not accepted (R153). -/
def Tile.csPending (x : Tile) (c id : Nat) : Bool :=
  (x.io.cs.any fun r => decide (r.op.id < id)) || x.io.uni.any fun u => !u.acc && decide (u.c = c ∧ u.op.id < id)

/-- The place of a tally addition among those that reach its cluster (R152, R153, R162): the cycle of its issue, and in one cycle
the local-index order of the cycle in which it arrives, three later (R59). -/
def TAdd.turn (a : TAdd) (l : Nat) : Nat := 12 * a.at_ + (l + 12 - (a.at_ + 3) % 12) % 12

/-- The tile's oldest addition, where no access that R153 puts before it waits for its cluster. -/
def Tile.readyAdd (x : Tile) (c : Nat) : Option TAdd :=
  match x.io.tal with
  | [] => none
  | a :: _ => if x.csPending c a.op.id then none else some a

/-- Whether the addition of another tile of the cluster reaches it before this one (R152). -/
def State.addBefore (s : State) (t : Nat) (a : TAdd) : Bool :=
  (clusterTiles (clusterOf t)).any fun u =>
    match (s.tile u).readyAdd (clusterOf t) with
    | some b => decide (b.turn (localOf u) < a.turn (localOf t))
    | none => false

/-- The tally reads of a cluster's tiles that are due take the count before it changes (R162). -/
def State.settleCluster (s : State) (c : Nat) : State := s.forAll (clusterTiles c) State.settle

/-- `TALLY_ADD_APPLY` (R152, R153, R278): the tile's oldest addition reaches the cluster, unless one of another tile that is ready
comes before it. -/
def execTallyAddApply (t : Nat) (s : State) : Out :=
  if 2304 ≤ t then .fault (.noSuchUnit "tile" t)
  else
    alongside t s fun s =>
      let c := clusterOf t
      match (s.tile t).readyAdd c with
      | none => .next s
      | some a =>
        if s.addBefore t a then .next s
        else
          let p := (s.settleCluster c).tallyAdd c a.tl a.d t 0
          if p.2 then .next (p.1.modTile t fun y => (y.unmark a.op).modIo fun io => { io with tal := io.tal.tail })
          else .next p.1

/-! ## Waits (R152) -/

/-- Whether an addition to the tally has had its three cycles and is ready (R162): it comes before a wait (R152). -/
def State.addDue (s : State) (c tl : Nat) : Bool :=
  (clusterTiles c).any fun u =>
    match (s.tile u).readyAdd c with
    | some a => decide (a.tl = tl ∧ a.at_ + 3 ≤ s.cycle)
    | none => false

/-- What the wait of another tile of the cluster, whose turn in this cycle is still to come, leaves of the count (R152): its tally port
goes to its first stream that can issue; a wait on this tally whose threshold the count meets subtracts. -/
def State.afterWait (s : State) (tl : Nat) (left : Int) (u : Nat) : Int :=
  let x := s.tile u
  let port := x.order.findSome? fun q =>
    if s.wants u q 7 then
      match s.fetchAt u q with
      | .insn i => if fld i.w 56 8 = 0x72 ∧ insnTl i.w = tl ∧ left < twaitN i.w then none else some i.w
      | _ => none
    else none
  if x.cyc.at_ = s.cycle ∧ x.cyc.units.contains 7 then left
  else
    match port with
    | some w => if fld w 56 8 = 0x72 ∧ insnTl w = tl ∧ bit w 35 = false then left - twaitN w else left
    | none => left

/-- The count a tile's wait is judged by (R152): as it stands after the grants of the tiles before it in the order of this cycle. -/
def State.countAtTurn (s : State) (t tl : Nat) : Int :=
  let c := clusterOf t
  let turn := fun l => (l + 12 - s.cycle % 12) % 12
  ((List.range 12).map fun k => (k + s.cycle % 12) % 12).foldl (fun left l =>
    if turn l < turn (localOf t) then s.afterWait tl left (clusterTile c l) else left) (s.tallyCount t tl)

/-- `TWAIT` (R152, R278): issues when the count, as it stands at the tile's turn and with every addition of the cycle applied, reaches
the threshold, and subtracts it unless `K` = 1. -/
def execTwait (t : Nat) (q : Strm) (s : State) : Out :=
  tileInsn 0x720 t q s (fun _ => []) fun i _ s =>
    let c := clusterOf t
    let tl := insnTl i.w
    let y := Map.get {} (s.cluster c).tally tl
    let n := twaitN i.w
    if n < 0 ∨ (y.ceil : Int) < n then s.clusterFault c 4 (tallyDetail tl t 2)
    else if s.addDue c tl = true ∨ s.countAtTurn t tl < n then s.stall i 5
    else
      let s1 := (s.settleCluster c).issueSeq i id
      let k := if bit i.w 35 then y.count else BitVec.ofInt 32 (y.count.toInt - n)
      (s1.modCluster c fun x => { x with tally := Map.set {} x.tally tl { y with count := k } }).tallyWatch c tl

/-- `TRD` (R151, R162): the register takes the count of three cycles later. (DEDUCED, log 13) -/
def execTrd (t : Nat) (q : Strm) (s : State) : Out :=
  tileInsn 0x730 t q s (fun w => [fld w 36 5]) fun i x s =>
    let d := fld i.w 36 5
    let o := i.op x [] []
    s.issueSeq i fun z => ((z.startOp i).modIo fun io => { io with late := io.late ++ [{ op := o, due := s.cycle + 3 }] }).modSeq i.q
      fun v => if d = 0 then v else { v with busy := d :: v.busy }

end Sys2Proof.Machine
end

