-- ==== Sys2Proof/Machine/Queue.lean ====
section
/-! DEFINITION. Queues and messages (chapter 09): the queue instructions, arrivals and how they are resolved, ring writes,
return slips, the ring wait limit. -/

namespace Sys2Proof.Machine

/-! ## Queue configuration (R263, R265) -/

def Tile.qcfg (x : Tile) (q : Nat) : Word := x.reg (0x1000 + 0x10 * q)

/-- Ring size in bytes. -/
def ringSize (cfg : Word) : Nat := 512 * 2 ^ fld cfg 56 4
/-- First byte of the ring in its memory. -/
def ringBase (cfg : Word) : Nat := 512 * fld cfg 0 16
/-- The ring lies in the cluster store. -/
def ringInCs (cfg : Word) : Bool := bit cfg 62

/-- Consecutive bytes of a ring from an offset, as one or two runs (first byte of the memory, length) (R183, R265). -/
def ringRuns (cfg : Word) (off n : Nat) : List (Nat × Nat) :=
  let sz := ringSize cfg
  if off + n ≤ sz then [(ringBase cfg + off, n)] else [(ringBase cfg + off, sz - off), (ringBase cfg, n - (sz - off))]

/-- `TILE_FAULT.DETAIL` of `RING` (R273). -/
def ringDetail (reason q : Nat) : Nat := reason * 2 ^ 24 + q

/-- The code of a queue-unit access that acts for no stream. -/
def quAcct (t : Nat) : Acct := { t := t, q := 4, eng := 6, pc := 0 }

/-! ## Sending (R154, R261) -/

/-- The header checks of R261 in order: cause and detail of the first that fails. -/
def State.headerCheck (s : State) (m : Msg) (qsend : Bool) : Option (Nat × Nat) :=
  let nd := hDmod m * 2 ^ 12 + hDtile m
  let here := decide (hDmod m = s.modid)
  if !(here || s.job.members.contains (hDmod m)) then some (7, 6 * 2 ^ 24 + nd)
  else if here && (decide (2304 ≤ hDtile m) || !(s.job.tiles.contains (hDtile m)) || s.rel.fTiles.contains (hDtile m)) then
    some (7, 3 * 2 ^ 24 + nd)
  else if fld m.h1 0 56 ≠ 0 then some (0xB, ringDetail 3 (hDq m))
  else if hTform m && (decide (47 < hTix m) || (qsend && decide (fld m.h0 0 8 ≠ 1))) then some (0xB, ringDetail 3 (hDq m))
  else none

/-- The header with the fields that the queue unit writes (R261). -/
def State.sealHeader (s : State) (t : Nat) (m : Msg) : Msg :=
  { m with h1 := m.h1 ||| place 46 10 s.modid ||| place 34 12 t ||| place 0 32 s.job.epoch }

/-- The issue of a send: limit, checks, the operation in flight with its header and what payload is known (R54, R261). (DEDUCED, log 13) -/
def State.sendIssue (s : State) (i : Site) (m : Msg) (qsend : Bool) (lo n : Nat) : State :=
  match s.headerCheck m qsend with
  | some f => s.tileFault i.t (Strm.code i.q) f.1 f.2 i.pc
  | none =>
    let h := s.sealHeader i.t m
    let o := i.op (s.tile i.t) [h.h0, h.h1, BitVec.ofNat 64 lo, BitVec.ofNat 64 n] h.pay
    let s1 := s.issueSeq i fun y => ((y.startOp i).count 0x700 1).modIo fun io => { io with out := io.out ++ [o] }
    if qsend then s1.addAccs i.t i.pc [{ id := o.id, eng := 6, q := Strm.code i.q, lo := lo, n := n, wr := false }] else s1

/-- `QSEND` (R154): the header is read and checked at issue, every row of the message is in range. Where both a row past the first is
out of range and a check of the header fails, the spec gives no order: the model checks the rows first (DESIGN CHOICE, log 13). -/
def execQsend (t : Nat) (q : Strm) (s : State) : Out :=
  tileInsn 0x740 t q s (fun _ => []) fun i x s =>
    if 32 ≤ x.io.out.length then s.stall i 1
    else
      let r := ((x.seq i.q).areg (fld i.w 37 3)).toNat
      let off := fld i.w 32 5
      s.rowCheck i [spRun r 1] <|
        andThen (s.readNow { t := t, q := Strm.code q, eng := 6, pc := i.pc } r 1) fun s row =>
          let m : Msg := { h0 := wordAt row (16 * off), h1 := wordAt row (16 * off + 8) }
          let n := (off + fld m.h0 0 8) / 32 + 1
          s.rowCheck i [spRun r n] <| s.sendIssue i m true r n

/-- `QSENDS` (R154): a 32-byte message from four registers; its length is sent as 2. -/
def execQsends (t : Nat) (q : Strm) (s : State) : Out :=
  tileInsn 0x750 t q s (fun w => [fA w, fB w, fC w, fD w]) fun i x s =>
    if 32 ≤ x.io.out.length then s.stall i 1
    else
      let v := x.seq i.q
      let m : Msg := { h0 := v.sreg (fA i.w), h1 := v.sreg (fB i.w), pay := wordBytes (v.sreg (fC i.w)) ++ wordBytes (v.sreg (fD i.w)) }
      match s.headerCheck m false with
      | some f => s.tileFault t (Strm.code q) f.1 f.2 i.pc
      | none => s.sendIssue i { m with h0 := setFld m.h0 0 8 1 } false 0 0

/-- The last flit of an outbound message leaves (R54, R154): the payload is read as it stands, the message is on its way. -/
def State.sendEnd (s : State) (t : Nat) (o : Op) : State :=
  let h : Msg := { h0 := o.v.getD 0 0, h1 := o.v.getD 1 0, pay := o.dat }
  let done := fun (s : State) (m : Msg) =>
    (s.modTile t fun y => ((y.dropAcc o.id).unmark o).modIo fun io =>
      { io with out := io.out.filter fun p => decide (p.id ≠ o.id) }).sendMsg m
  if fld o.w 56 8 = 0x75 then done s h
  else
    let off := 16 * fld o.w 32 5
    andThen (s.opRead { t := t, q := Strm.code o.q, eng := 6, pc := o.pc } o.id (o.v.getD 2 0).toNat (o.v.getD 3 0).toNat) fun s b =>
      done s { h with pay := (b.drop (off + 16)).take (hLen h - 16) }

/-! ## Reading a queue (R267, R268) -/

/-- An instruction on queue `q`; an unconfigured queue raises `RING` reason 0x04 (R263). -/
def queueInsn (key : Nat) (t : Nat) (q : Strm) (s : State) (regs : Word → List Nat) (body : Site → Tile → Nat → State → State) : Out :=
  tileInsn key t q s regs fun i x s =>
    let k := insnQ i.w
    if bit (x.qcfg k) 63 then body i x k s else s.tileFault t (Strm.code q) 0xB (ringDetail 4 k) i.pc

/-- `QHEAD` (R154, R162, R183, R267): waits while fewer than 8 bytes are visible, then pops them. From a ring in the scratchpad they
are read at once; from one in the cluster store they are a request of the queue unit to the arbiter, and the register waits for it.
(DEDUCED, log 13) -/
def execQhead (t : Nat) (q : Strm) (s : State) : Out :=
  queueInsn 0x760 t q s (fun w => [fD w]) fun i x k s =>
    let y := x.queue k
    let cfg := x.qcfg k
    if y.occ < 8 then s.stall i 5
    else
      let a := ringBase cfg + y.head
      let pop := fun (s : State) (f : Tile → Tile) => s.issueSeq i fun z =>
        f (z.modQueue k fun u => { u with head := (u.head + 8) % ringSize cfg, occ := u.occ - 8 })
      if ringInCs cfg then
        let o := i.op x [] []
        let r : CsReq := { lt := localOf t, qu := true, lo := a / 512 * 512, n := 1, wr := false, op := o, at_ := s.cycle + 2, ad := a }
        (pop s fun z => (z.startOp i).modSeq i.q fun v =>
          if fD i.w = 0 then v else { v with busy := fD i.w :: v.busy }).modCluster (clusterOf t) fun c =>
            { c with waiting := c.waiting ++ [r] }
      else
        andThen (s.readNow { t := t, q := Strm.code q, eng := 6, pc := i.pc } (a / 512) 1) fun s b =>
          pop s fun z => z.modSeq i.q fun v => v.setS (fD i.w) (wordAt b (a % 512))

/-- `QLEN` (R268). (DEDUCED, log 13) -/
def execQlen (t : Nat) (q : Strm) (s : State) : Out :=
  queueInsn 0x770 t q s (fun w => [fD w]) fun i x k s =>
    s.issueSeq i fun z => z.modSeq i.q fun v => v.setS (fD i.w) (BitVec.ofNat 64 (x.queue k).occ)

/-! ## Arrivals (R269 to R276) -/

/-- How an arrival is resolved (R271). -/
inductive Verdict where
  | oldEpoch
  | closed
  | oversize
  | overFault
  | fits
  | waits
  | tally
deriving DecidableEq, Repr

def Tile.verdict (x : Tile) (epoch : Nat) (m : Msg) : Verdict :=
  let y := x.queue (hDq m)
  let cfg := x.qcfg (hDq m)
  if hEpoch m < epoch then .oldEpoch
  else if hTform m then .tally
  else if bit cfg 63 = false ∨ y.open_ = false then .closed
  else if ringSize cfg < hLen m then (if bit cfg 61 then .overFault else .oversize)
  else if hLen m ≤ ringSize cfg - y.occ - y.wr then .fits
  else .waits

/-- The return slip of a resolved message (R275). -/
def State.slipOf (s : State) (t : Nat) (m : Msg) (status : Nat) : Msg :=
  { h0 := place 54 10 (hSmod m) ||| place 42 12 (hStile m) ||| place 33 9 (hRq m) ||| place 8 16 (hTag m) ||| place 0 8 1
    h1 := place 46 10 s.modid ||| place 34 12 t ||| place 0 32 (hEpoch m)
    pay := wordBytes (place 56 8 status ||| place 47 9 (hDq m) ||| place 35 12 (hDtile m) ||| place 25 10 (hDmod m)) ++ zeros 8 }

/-- A message with `RCPT` = 1 is answered (R275, R276). -/
def State.answer (s : State) (t : Nat) (m : Msg) (status : Nat) : State :=
  if hRcpt m then s.modTile t fun y => y.modQu fun u => { u with slips := u.slips ++ [s.slipOf t m status] } else s

/-- A message discarded and counted (R271, R286, R287). -/
def State.dropMsg (s : State) (t : Nat) (m : Msg) (ctr : Nat) : State :=
  s.modTile t fun y => (y.modQueue (hDq m) fun u => { u with drops := u.drops + 1 }).count ctr 1

/-- The bytes of a message as the ring holds them (R265). -/
def msgBytes (m : Msg) : List Byte := wordBytes m.h0 ++ wordBytes m.h1 ++ padTo (hLen m - 16) m.pay

/-- The cluster-store accesses of a ring write: whole rows of each run, with the bytes each puts in place (R178, R183). -/
def ringReqs (t cyc : Nat) (cfg : Word) (off : Nat) (b : List Byte) : List CsReq :=
  ((ringRuns cfg off b.length).foldl (fun (acc : List CsReq × List Byte) p =>
    (acc.1 ++ [{ lt := localOf t, qu := true, lo := p.1 / 512 * 512, n := (p.1 + p.2 - 1) / 512 - p.1 / 512 + 1, wr := true, at_ := cyc
                 ad := p.1, dat := acc.2.take p.2 }], acc.2.drop p.2)) ([], b)).1

/-- A message is accepted and is being written (R265, R269); one that `waited` holds the inbound buffer until then (the worked example of
R276; DEDUCED, log 44). -/
def State.acceptMsg (s : State) (t : Nat) (m : Msg) (waited : Bool) : State :=
  let x := s.tile t
  let k := hDq m
  let cfg := x.qcfg k
  let y := x.queue k
  let reqs := if ringInCs cfg then ringReqs t s.cycle cfg ((y.head + y.occ + y.wr) % ringSize cfg) (msgBytes m) else []
  let s1 := s.modTile t fun z => (z.modQueue k fun u => { u with wr := u.wr + hLen m }).modQu fun u =>
    { u with wrs := u.wrs ++ [{ q := k, m := m, wait := reqs.length, waited := waited }] }
  s1.modCluster (clusterOf t) fun c => { c with waiting := c.waiting ++ reqs }

/-- A tally-form message is applied (R279, R284). -/
def State.applyTally (s : State) (t : Nat) (m : Msg) : State :=
  let c := clusterOf t
  let p := (s.settleCluster c).tallyAdd c (hTix m) (sextNat 32 (leNat (m.pay.take 4))) (hStile m) 1
  if p.2 then (p.1.countCluster c 0x68 1).answer t m 0 else p.1

/-- Resolves the message in the inbound buffer of a tile (R271, R286): it leaves the buffer unless it must wait. -/
def State.resolve (s : State) (t : Nat) (m : Msg) : State :=
  let s0 := s.modTile t fun y => y.modQu fun u => { u with inbox := none }
  match (s.tile t).verdict s.job.epoch m with
  | .oldEpoch => if hTform m then s0.countCluster (clusterOf t) 0x60 1 else s0.dropMsg t m 0x720
  | .tally => s0.applyTally t m
  | .closed => (s0.dropMsg t m 0x710).answer t m 1
  | .oversize => (s0.dropMsg t m 0x718).answer t m 2
  | .overFault =>
    (s0.modTile t fun y => y.modQueue (hDq m) fun u => { u with drops := u.drops + 1 }).tileFault t 4 0xB (ringDetail 2 (hDq m)) 0
  | .fits => s0.acceptMsg t m (s.tile t).qu.inbox.isSome
  | .waits => s.modTile t fun y => y.modQu fun u => { u with inbox := some m }

/-- What the queue unit does by itself by this compute cycle: queue controls take effect, and a waiting message whose queue has closed is
discarded at once (R272, R274, R288). (DEDUCED, log 44) -/
def State.refreshQueue (s : State) (t : Nat) : State :=
  let s1 := s.settle t
  match (s1.tile t).qu.inbox with
  | some m =>
    match (s1.tile t).verdict s1.job.epoch m with
    | .fits => s1
    | .waits => s1
    | _ => s1.resolve t m
  | none => s1

/-- The flow of a message: messages of one flow arrive in order (R262). (DEDUCED, log 44) -/
def msgFlow (m : Msg) : Nat × Nat × Nat × Nat := (hSmod m, hStile m, hDtile m, hDq m)

/-- Whether a tile accepts messages: its job runs on (a stopped one accepts nothing) and no return slip waits (R276, R288). -/
def State.accepts (s : State) (t : Nat) : Bool :=
  decide (s.job.js ≠ 6) && decide ((s.tile t).st ≠ 8) && decide ((s.tile t).qu.slips = [])

/-- Whether a tile takes arrivals: its inbound buffer is free too, of a message that waits and of one that waited and is being written
(R269, R270). -/
def State.takesArrivals (s : State) (t : Nat) : Bool :=
  s.accepts t && !(s.tile t).blocked

/-- `MESSAGE_ARRIVAL` (R262, R269, R271): message `i` of those on their way has fully arrived. (DEDUCED, log 44) -/
def execMessageArrival (i : Nat) (s : State) : Out :=
  match s.net.msgs[i]? with
  | none => .next s
  | some m =>
    let t := hDtile m
    if 2304 ≤ t then .next s
    else
      let e := s.refreshQueue t
      if (s.net.msgs.take i).any (fun e => decide (msgFlow e = msgFlow m)) ∨ e.takesArrivals t = false then .next s
      else .next ((e.modNet fun n => { n with msgs := n.msgs.eraseIdx i }).resolve t m)

/-- `MESSAGE_ACCEPT` (R269, R276): the waiting message is accepted once its ring has room and no return slip waits. (DEDUCED, log 44) -/
def execMessageAccept (t : Nat) (s : State) : Out :=
  if 2304 ≤ t then .fault (.noSuchUnit "tile" t)
  else
    let e := s.refreshQueue t
    match (e.tile t).qu.inbox with
    | none => .next e
    | some m => if e.accepts t then .next (e.resolve t m) else .next s

/-- Writes bytes into a ring in the scratchpad, row by row with what else the rows hold (R165); a parity mismatch in a row
covered in part raises `SP_PARITY`. -/
def State.ringWriteSp (s : State) (t a : Nat) (b : List Byte) : State × Bool :=
  let lo := a / 512
  let n := (a + b.length - 1) / 512 - lo + 1
  let part := (List.range n).find? fun i =>
    decide (512 * (lo + i) < a ∨ a + b.length < 512 * (lo + i) + 512) && ((s.tile t).badRow (lo + i) 1).isSome
  match part with
  | some i => (s.tileFault t 4 0x05 (lo + i) 0, false)
  | none => (s.writeNow (quAcct t) lo (splice (Map.slice 0 (s.tile t).sp (512 * lo) (512 * n)) (a - 512 * lo) b), true)

/-- `MESSAGE_VISIBLE` (R266): the oldest accepted message has been written; it counts in the occupancy and is answered. One in the cluster
store was written by its accesses, which have completed (R183). (DEDUCED, log 44) -/
def execMessageVisible (t : Nat) (s : State) : Out :=
  if 2304 ≤ t then .fault (.noSuchUnit "tile" t)
  else
    alongside t s fun s =>
      let x := s.tile t
      match x.qu.wrs with
      | [] => .next s
      | w :: rest =>
        if 0 < w.wait ∨ x.st = 8 then .next s
        else
          let cfg := x.qcfg w.q
          let y := x.queue w.q
          let b := msgBytes w.m
          let runs := if ringInCs cfg then [] else ringRuns cfg ((y.head + y.occ) % ringSize cfg) (hLen w.m)
          let p := runs.foldl (fun (acc : (State × Bool) × List Byte) r =>
            if acc.1.2 then (acc.1.1.ringWriteSp t r.1 (acc.2.take r.2), acc.2.drop r.2) else acc) ((s, true), b)
          if p.1.2 then
            let s1 := p.1.1.modTile t fun z =>
              ((z.modQu fun u => { u with wrs := rest }).modQueue w.q fun u =>
                { u with occ := u.occ + hLen w.m, wr := u.wr - hLen w.m }).count 0x708 1
            .next ((s1.answer t w.m 0).refreshQueue t)
          else .next p.1.1

/-- `RETURN_SLIP_SEND` (R275, R276): the oldest return slip leaves. (DEDUCED, log 44) -/
def execReturnSlipSend (t : Nat) (s : State) : Out :=
  if 2304 ≤ t then .fault (.noSuchUnit "tile" t)
  else
    match (s.tile t).qu.slips with
    | [] => .next s
    | m :: rest =>
      if (s.tile t).st = 8 then .next s
      else .next ((s.modTile t fun y => (y.modQu fun u => { u with slips := rest }).count 0x728 1).sendMsg m)

/-! ## Opening, closing, resetting (R274) -/

/-- A `QCTL` (R162, R274): its function is applied two compute cycles after it issues, and its mark falls then. -/
def qctlOp (key : Nat) (t : Nat) (q : Strm) (s : State) : Out :=
  queueInsn key t q s (fun _ => []) fun i x _ s =>
    let o := i.op x [] []
    s.issueSeq i fun z => (z.startOp i).modIo fun io => { io with late := io.late ++ [{ op := o, due := s.cycle + 2 }] }

/-- `QCTL OPEN` (R274). -/
def execQctlOpen (t : Nat) (q : Strm) (s : State) : Out := qctlOp 0x780 t q s
/-- `QCTL CLOSE` (R274): contents are kept. -/
def execQctlClose (t : Nat) (q : Strm) (s : State) : Out := qctlOp 0x781 t q s
/-- `QCTL RESET` (R274): waits until a message being written is visible. (DEDUCED, log 13) -/
def execQctlReset (t : Nat) (q : Strm) (s : State) : Out := qctlOp 0x782 t q s

/-! ## Limits (R272, R285, R485) -/

/-- Whether the job's limits are suspended: a stream of the job is halted, the job is halted, or a halt notice holds. -/
def State.suspended (s : State) : Bool :=
  s.dbg.jobHalt || decide (s.job.notices ≠ []) || s.job.tiles.any fun t => allStrms.any (s.tile t).halted

/-- `RING_WAIT_EXPIRY` (R272): the waiting message has waited for the ring wait limit and is discarded; the tile faults. (DESIGN CHOICE, log 3) -/
def execRingWaitExpiry (t : Nat) (s : State) : Out :=
  if 2304 ≤ t then .fault (.noSuchUnit "tile" t)
  else
    alongside t s fun s =>
      match (s.tile t).qu.inbox with
      | none => .next s
      | some m =>
        if s.suspended ∨ s.job.js = 6 then .next s
        else
          .next ((s.modTile t fun y => (y.modQu fun u => { u with inbox := none }).modQueue (hDq m) fun u =>
            { u with drops := u.drops + 1 }).tileFault t 4 0xB (ringDetail 1 (hDq m)) 0)

end Sys2Proof.Machine
end

