-- ==== Sys2Proof/Machine/Update.lean ====
section
/-! DEFINITION. The update engine (chapter 10): `UPD`, the coefficient table's `CTW` and `CTR` (R155 to R157, R289 to R298,
R304, R308), and the completion of vector and update operations (R162). -/

namespace Sys2Proof.Machine

/-! ## The coefficient row (R293, R294) -/

def Tile.coef (x : Tile) (r : Nat) : List Word := Map.slice 0 x.ctab (8 * r) 8

/-- A format that is one of a list. -/
def oneOf (l : List Nat) (c : Nat) : Bool := l.contains c

def cFw (k : List Word) : Nat := fld (k.getD 6 0) 12 4
def cFm (k : List Word) : Nat := fld (k.getD 6 0) 16 4
def cFv (k : List Word) : Nat := fld (k.getD 6 0) 20 4
def cFg (k : List Word) : Nat := fld (k.getD 6 0) 24 4
def cFn (k : List Word) : Nat := fld (k.getD 6 0) 28 4
def cMode (k : List Word) : Nat := fld (k.getD 6 0) 0 2
def cNom (k : List Word) : Bool := bit (k.getD 6 0) 5
def cNc (k : List Word) : Bool := bit (k.getD 6 0) 7

/-- The checks of R294 on a coefficient row. -/
def coefOk (k : List Word) : Bool :=
  let w3 := k.getD 3 0
  let w5 := k.getD 5 0
  let w6 := k.getD 6 0
  let w7 := k.getD 7 0
  decide (fld w3 40 24 = 0) && decide (fld w5 27 37 = 0) && !bit w5 23 && decide (fld w5 11 5 = 0) && !bit w5 7 &&
    decide (fld w6 32 32 = 0) && decide (fld w6 9 3 = 0) && decide (fld w7 35 29 = 0) &&
    decide (cMode k ≠ 3) && decide (fld w5 8 2 ≠ 2) && decide (fld w5 24 2 ≠ 2) &&
    oneOf [0, 1] (cFw k) && oneOf [0, 1, 4] (cFm k) && oneOf [0, 1, 4] (cFv k) && oneOf [0, 1, 2, 3, 4] (cFg k) &&
    (!cNc k || oneOf [1, 2, 3, 4] (cFn k))

/-- The operand runs of a `UPD` in body-field order, without the ignored ones (R70, R155, R297): operand number in the order
`AW`, `AM`, `AV`, `AG`, `AN`, first row, format, written. -/
def updRuns (v : List Word) (k : List Word) : List (Nat × Nat × Nat × Bool) :=
  let row := fun i => (v.getD i 0).toNat
  [(0, row 0, cFw k, true)] ++ (if cNom k then [] else [(1, row 1, cFm k, true)]) ++
    (if cMode k = 0 then [(2, row 2, cFv k, true)] else []) ++ [(3, row 3, cFg k, false)] ++
    (if cNc k then [(4, row 4, cFn k, true)] else [])

/-- Blocks of a `UPD`. -/
def updN (w : Word) : Nat := fld w 9 6 + 1

/-- Rows of an operand. -/
def updRows (w : Word) (fmt : Nat) : Nat := rowsFor fmt (512 * updN w)

def updRun (w : Word) (r : Nat × Nat × Nat × Bool) : Run := { lo := r.2.1, n := updRows w r.2.2.1, am := false, wr := r.2.2.2 }

/-! ## Issue and start -/

/-- The first word of a coefficient row with a parity mismatch (R442). -/
def Tile.badCoef (x : Tile) (r : Nat) : Option Nat := (List.range 8).find? fun j => x.ctabBad.contains (8 * r + j)

/-- The detail of a coefficient word with a parity mismatch (R442). -/
def coefDetail (r j : Nat) : Nat := 0x10000000 + 8 * r + j

/-- The accesses of a `UPD` under a coefficient row. -/
def updAccs (o : Op) (k : List Word) : List Acc := runAccs o.id 2 (Strm.code o.q) ((updRuns o.v k).map (updRun o.w))

/-- The coefficient row that a started `UPD` has read (R294): it stands behind the registers captured at issue. -/
def updRow (o : Op) : List Word := o.v.drop 7

/-- A `UPD` at the head of the vector unit starts: it reads and checks its row, then its operand rows, and keeps the row it read
(R294). Its rows are in flight since its issue (R54, R309), under the row as it was then; a row changed since names them anew. -/
def State.startUpd (s : State) (t : Nat) : State :=
  let x := s.tile t
  match x.io.vec with
  | [] => s
  | o :: rest =>
    if fld o.w 56 8 ≠ 0x80 ∨ o.go = true then s
    else
      let r := fld o.w 41 6
      match x.badCoef r with
      | some j => s.tileFault t (Strm.code o.q) 0x05 (coefDetail r j) o.pc
      | none =>
        let k := x.coef r
        if coefOk k then
          let runs := (updRuns o.v k).map (updRun o.w)
          match (runs.map Run.check).findSome? id with
          | some d => s.tileFault t (Strm.code o.q) 0x04 d o.pc
          | none =>
            let s1 := s.modTile t fun y => y.modIo fun io => { io with vec := { o with go := true, v := o.v.take 7 ++ k } :: rest }
            let same := fun (a b : Acc) => decide (a.lo = b.lo ∧ a.n = b.n ∧ a.wr = b.wr)
            let old := x.io.acc.filter fun a => decide (a.id = o.id)
            let new := updAccs o k
            if old.length = new.length ∧ (old.zip new).all (fun p => same p.1 p.2) = true then s1
            else (s1.modTile t fun y => y.dropAcc o.id).addAccs t o.pc new
        else s.tileFault t (Strm.code o.q) 0x01 (0x10 * 2 ^ 24 + r) o.pc

/-- `UPD` (R155, R156): the named registers are captured; it starts when it is the vector unit's oldest. (DEDUCED, log 16) -/
def execUpd (t : Nat) (q : Strm) (s : State) : Out :=
  tileInsn 0x800 t q s (fun w => if bit w 15 then [fld w 21 5, fld w 16 5] else []) fun i x s =>
    if 16 ≤ x.io.vec.length then s.stall i 1
    else
      let r := x.seq i.q
      let v := [38, 35, 32, 29, 26].map (fun p => r.areg (fld i.w p 3)) ++ [r.sreg (fld i.w 21 5), r.sreg (fld i.w 16 5)]
      let o := i.op x v []
      let k := x.coef (fld i.w 41 6)
      let s1 := s.issueSeq i fun y => (y.startOp i).modIo fun io => { io with vec := io.vec ++ [o] }
      (s1.addAccs t i.pc (if coefOk k then updAccs o k else [])).startUpd t

/-- `CTW` and `CTR` at issue (R157): one row of the scratchpad. -/
def coefOp (key : Nat) (wr : Bool) (t : Nat) (q : Strm) (s : State) : Out :=
  tileInsn key t q s (fun _ => []) fun i x s =>
    if 16 ≤ x.io.vec.length then s.stall i 1
    else
      let a := (x.seq i.q).areg (fld i.w 38 3)
      s.rowCheck i [spRun a.toNat 1] <|
        let o := i.op x [a] []
        let s1 := s.issueSeq i fun y => (y.startOp i).modIo fun io => { io with vec := io.vec ++ [o] }
        s1.addAccs t i.pc (runAccs o.id 2 (Strm.code i.q) [{ lo := a.toNat, n := 1, am := false, wr := wr }])

/-- `CTW` (R157). -/
def execCtw (t : Nat) (q : Strm) (s : State) : Out := coefOp 0x810 false t q s
/-- `CTR` (R157). -/
def execCtr (t : Nat) (q : Strm) (s : State) : Out := coefOp 0x820 true t q s

/-! ## The recurrence (R289 to R291, R304) -/

def one32 : Fp := .fin false 1 0
def zero32 : Fp := .fin false 0 0
/-- Rounded product and rounded fused multiply-add (R81, R93). -/
def mulR (x y : Fp) : Fp := rnd32 (Fp.mul x y)
def fmaR (x y z : Fp) : Fp := rnd32 (Fp.add (Fp.mul x y) z)

/-- The FP32 value in one half of a word. -/
def half32 (w : Word) (lo : Nat) : Fp := elemNum 0 (fld w lo 32)

/-- The scalars one `UPD` computes when it reads its row (R289). -/
structure UpdCoef where
  b1 : Fp
  b2 : Fp
  eta : Fp
  g1 : Fp
  g2 : Fp
  eps : Fp
  lam : Fp
  c : Fp
  clip : Bool
deriving DecidableEq, Repr

/-- The clip factor (R304). -/
def clipFactor (n tau epsn : Fp) : Fp :=
  if n = .nan ∨ tau = .nan then .nan
  else
    match n with
    | .inf false => zero32
    | .fin _ 0 _ => one32
    | _ =>
      let root := mulR n (rnd32 (rsqrtNum n))
      let q := mulR tau (rnd32 (recipNum (addR root epsn)))
      if q = .nan then .nan else if Fp.less q one32 then q else one32

/-- The scalars of a `UPD` from its row, its captured registers and `NORM` (R156, R289, R290, R304). -/
def updCoef (w : Word) (v : List Word) (k : List Word) (norm : Word) : UpdCoef :=
  let ov := bit w 15
  let se := v.getD 5 0
  let sb := v.getD 6 0
  let w6 := k.getD 6 0
  let b1 := if ov then half32 sb 0 else half32 (k.getD 0 0) 0
  let b2 := if ov then half32 sb 32 else half32 (k.getD 1 0) 0
  let etam := if ov then half32 se 0 else half32 (k.getD 3 0) 0
  let gam := fun (on : Bool) (g b : Fp) => if on then mulR g (addR one32 b.negate) else g
  { b1 := b1
    b2 := b2
    eta := rnd32 (etam.scale (sextNat 8 (fld (k.getD 3 0) 32 8)))
    g1 := gam (bit w6 3) (half32 (k.getD 0 0) 32) b1
    g2 := gam (bit w6 4) (half32 (k.getD 1 0) 32) b2
    eps := half32 (k.getD 2 0) 0
    lam := half32 (k.getD 2 0) 32
    c := if bit w6 2 then clipFactor (half32 norm 0) (half32 (k.getD 4 0) 0) (half32 (k.getD 4 0) 32) else one32
    clip := bit w6 2 }

/-- `sign` of R291. -/
def signNum (x : Fp) : Fp :=
  match x with
  | .nan => .nan
  | .inf s => .fin s 1 0
  | .fin s m _ => if m = 0 then zero32 else .fin s 1 0

/-- The recurrence on one element (R289): new weight, first state, second state. -/
def updLane (mode : Nat) (u : UpdCoef) (w m v g : Fp) : Fp × Fp × Fp :=
  let g := if u.clip then mulR g u.c else g
  let m1 := fmaR u.g1 g (mulR u.b1 m)
  let v1 := fmaR u.g2 (mulR g g) (mulR u.b2 v)
  let d :=
    if mode = 0 then mulR m1 (rnd32 (rsqrtNum (addR v1 u.eps)))
    else if mode = 1 then signNum m1
    else m1
  (fmaR u.eta.negate (fmaR u.lam w d) w, m1, v1)

/-! ## Results (R97, R98, R292) -/

/-- What a write of a value in a format gives (R292): FP32 bit for bit, counting only a NaN or an infinity; a narrow format
rounded once with its bias (R97). -/
def updOut (fmt : Nat) (ovf : Bool) (bias : Int) (x : Fp) : Nat × Option NumEv :=
  if fmt = 0 then fpOut x else narrow fmt ovf (x.scale bias)

/-- The largest magnitude code and whether a NaN was written (R98). (DEDUCED, log 16) -/
def updStats (fmt : Nat) (codes : List Nat) : Nat × Bool :=
  let top := if fmt = 4 then 0x80 else 0x8000
  (codes.foldl (fun m c => max m (c % top)) 0, codes.any fun c => nanMag (floatFmt fmt) (c % top))

/-- Word 7 of the row with the statistics of one `UPD` merged (R98, R293, R296). -/
def mergeStats (w7 : Word) (m v : Option (Nat × Bool)) : Word :=
  let old := fun lo => fld w7 lo 16
  let mx := fun (lo : Nat) (p : Option (Nat × Bool)) => max (old lo) ((p.map (·.1)).getD 0)
  let nn := fun (i : Nat) (p : Option (Nat × Bool)) => bit w7 i || (p.map (·.2)).getD false
  setFld (setFld (setFld (setFld (setFld w7 34 1 1) 33 1 (bnat (nn 33 v))) 32 1 (bnat (nn 32 m))) 16 16 (mx 16 v)) 0 16 (mx 0 m)

/-- The rows of one operand that another operand of the same `UPD` covers: unpredictable (R298). (DEDUCED, log 16) -/
def updShared (w : Word) (l : List (Nat × Nat × Nat × Bool)) (i : Nat) : List Nat :=
  match l.find? fun r => decide (r.1 = i) with
  | none => []
  | some r =>
    ((List.range (updRows w r.2.2.1)).map (r.2.1 + ·)).filter fun row =>
      l.any fun e => decide (e.1 ≠ i ∧ e.2.1 ≤ row ∧ row < e.2.1 + updRows w e.2.2.1)

/-- Reads an operand of a `UPD` as values; zeros where the row does not use it. R97 and R289 call the read of a stored state both exact and
FP32; a code times 2^-s can leave FP32's range or precision (a BF16 subnormal with s = 63, or 2^127 with s = -64): the model then keeps
the exact value, unrounded and unbounded (DESIGN CHOICE, log 16). -/
def State.updRead (s : State) (c : Acct) (o : Op) (l : List (Nat × Nat × Nat × Bool)) (i : Nat) (bias : Int) : State × Option (List Fp) :=
  let n := updN o.w
  match l.find? fun r => decide (r.1 = i) with
  | none => (s, some (List.replicate (512 * n) zero32))
  | some r =>
    let k := updRows o.w r.2.2.1
    let p := s.readRows c r.2.1 k (updShared o.w l i ++ (s.tile c.t).racyReads o.id false ++ (s.tile c.t).racyWrites o.id)
    (p.1, p.2.map fun b => (unpackRows r.2.2.1 k b).map fun e => (elemNum r.2.2.1 e).scale (if r.2.2.1 = 0 then 0 else -bias))

/-- Writes an operand of a `UPD`. -/
def State.updWrite (s : State) (c : Acct) (o : Op) (l : List (Nat × Nat × Nat × Bool)) (i : Nat) (codes : List Nat) : State :=
  match l.find? fun r => decide (r.1 = i) with
  | none => s
  | some r =>
    s.writeRows c r.2.1 (packRows r.2.2.1 (updRows o.w r.2.2.1) codes) (updShared o.w l i ++ (s.tile c.t).racyWrites o.id)

/-- What a completing `UPD` does (R289 to R298, R308). (DEDUCED, log 16) -/
def State.updEnd (s : State) (t : Nat) (o : Op) : State :=
  let c : Acct := { t := t, q := Strm.code o.q, eng := 2, pc := o.pc }
  let x := s.tile t
  let r := fld o.w 41 6
  let k := updRow o
  let l := updRuns o.v k
  let u := updCoef o.w o.v k x.misc.norm
  let w5 := k.getD 5 0
  let w6 := k.getD 6 0
  let sm := sextNat 7 (fld w5 0 7)
  let sv := sextNat 7 (fld w5 16 7)
  andThen (s.updRead c o l 3 0) fun s g =>
  andThen (s.updRead c o l 0 0) fun s w =>
  andThen (s.updRead c o l 1 sm) fun s m =>
  andThen (s.updRead c o l 2 sv) fun s v =>
    let res := ((w.zip m).zip (v.zip g)).map fun e => updLane (cMode k) u e.1.1 e.1.2 e.2.1 e.2.2
    let ovm := bit w6 6
    let cw := res.map fun e => updOut (cFw k) ovm 0 e.1
    let cm := res.map fun e => updOut (cFm k) ovm (sm + deltaVal (fld w5 8 2)) e.2.1
    let cv := res.map fun e => updOut (cFv k) ovm (sv + deltaVal (fld w5 24 2)) e.2.2
    let cn := res.map fun e => narrow (cFn k) (bit w6 8) e.1
    let useM := !cNom k
    let useV := decide (cMode k = 0)
    let s1 := s.updWrite c o l 0 (cw.map (·.1))
    let s2 := s1.updWrite c o l 1 (cm.map (·.1))
    let s3 := s2.updWrite c o l 2 (cv.map (·.1))
    let s4 := s3.updWrite c o l 4 (cn.map (·.1))
    let evs := (cw.filterMap (·.2)) ++ (if useM then cm.filterMap (·.2) else []) ++ (if useV then cv.filterMap (·.2) else []) ++
      (if cNc k then cn.filterMap (·.2) else [])
    let stM := if useM ∧ cFm k ≠ 0 then some (updStats (cFm k) (cm.map (·.1))) else none
    let stV := if useV ∧ cFv k ≠ 0 then some (updStats (cFv k) (cv.map (·.1))) else none
    let low := decide (u.c = .nan) || Fp.less u.c one32
    (s4.modTile t fun y =>
      let y1 := { y with ctab := Map.mod 0 y.ctab (8 * r + 7) fun w7 => mergeStats w7 stM stV }
      let y2 := (y1.countEvs evs).count 0x418 (updN o.w)
      if low then y2.count 0x420 1 else y2).vecDone t o

/-- What a completing `CTW` does (R157). (DEDUCED, log 16) -/
def State.ctwEnd (s : State) (t : Nat) (o : Op) : State :=
  let c : Acct := { t := t, q := Strm.code o.q, eng := 2, pc := o.pc }
  let r := fld o.w 41 6
  andThen (s.opRead c o.id (o.v.headD 0).toNat 1) fun s b =>
    (s.modTile t fun y => { y with
      ctab := Map.setRange 0 y.ctab (8 * r) (wordsOf (b.drop (64 * fld o.w 35 3)) 8)
      ctabBad := y.ctabBad.filter fun j => decide (j / 8 ≠ r) }).vecDone t o

/-- What a completing `CTR` does (R157, R442): the row is read and written back with 64 bytes replaced (R165). (DEDUCED, log 16) -/
def State.ctrEnd (s : State) (t : Nat) (o : Op) : State :=
  let c : Acct := { t := t, q := Strm.code o.q, eng := 2, pc := o.pc }
  let x := s.tile t
  let r := fld o.w 41 6
  let a := (o.v.headD 0).toNat
  match x.badCoef r with
  | some j => s.tileFault t (Strm.code o.q) 0x05 (coefDetail r j) o.pc
  | none =>
    andThen (s.readRows c a 1 (x.racyWrites o.id)) fun s b =>
      (s.opWrite c o.id a (splice b (64 * fld o.w 35 3) ((x.coef r).flatMap wordBytes))).vecDone t o

/-- `VECTOR_OP_COMPLETE` (R55, R162): the vector unit's oldest operation completes; a `UPD` behind it starts (R294). (DESIGN CHOICE, log 3; DEDUCED, log 23) -/
def execVectorOpComplete (t : Nat) (s : State) : Out :=
  if 2304 ≤ t then .fault (.noSuchUnit "tile" t)
  else
    alongside t s fun s =>
      match (s.tile t).io.vec with
      | [] => .next s
      | o :: _ =>
        match fld o.w 56 8 with
        | 0x80 => if o.go then .next ((s.updEnd t o).startUpd t) else .next (s.startUpd t)
        | 0x81 => .next ((s.ctwEnd t o).startUpd t)
        | 0x82 => .next ((s.ctrEnd t o).startUpd t)
        | _ => .next ((s.vecEnd t o).startUpd t)

end Sys2Proof.Machine
end

