-- ==== Sys2Proof/Machine/Exchange.lean ====
section
/-! DEFINITION. Exchange (chapter 08): route entries and their checks, X's program, packets as they leave and land, the combine
unit, norm deliveries and their relays (R301, R302), the checks of R256 and the stale-fetch report (R501). -/

namespace Sys2Proof.Machine

/-! ## Route entries (R235, R236) -/

def rKind (k : List Word) : Nat := fld (k.getD 0 0) 62 2
def rNrect (k : List Word) : Nat := fld (k.getD 0 0) 59 3 + 1
def rDmod (k : List Word) : Nat := fld (k.getD 0 0) 48 10
def rRemote (k : List Word) : Bool := bit (k.getD 0 0) 47
def rLp (k : List Word) : Nat := fld (k.getD 0 0) 40 5
def rMeete (k : List Word) : Nat := fld (k.getD 0 0) 32 6
def rCix (k : List Word) : Nat := fld (k.getD 0 0) 28 3
def rDrow (k : List Word) : Nat := fld (k.getD 0 0) 0 10

/-- The rectangles in use. -/
def rRects (k : List Word) : List Word :=
  (List.range (rNrect k)).map fun i => BitVec.ofNat 64 (fld (k.getD (1 + i / 2) 0) (32 * (i % 2)) 24)

def rectX0 (r : Word) : Nat := fld r 0 7
def rectX1 (r : Word) : Nat := fld r 7 7
def rectY0 (r : Word) : Nat := fld r 14 5
def rectY1 (r : Word) : Nat := fld r 19 5

/-- The rectangle of one tile. -/
def rectOf (t : Nat) : Word := place 0 7 (tileX t) ||| place 7 7 (tileX t) ||| place 14 5 (tileY t) ||| place 19 5 (tileY t)

def rectTiles (r : Word) : List Nat :=
  (List.range (rectY1 r + 1 - rectY0 r)).flatMap fun j =>
    (List.range (rectX1 r + 1 - rectX0 r)).map fun i => tileAt (rectX0 r + i) (rectY0 r + j)

/-- Every tile of the union of rectangles, once (R238). -/
def unionTiles (l : List Word) : List Nat := (l.flatMap rectTiles).eraseDups

def rectBad (r : Word) : Bool := decide (rectX1 r < rectX0 r ∨ rectY1 r < rectY0 r ∨ 95 < rectX1 r ∨ 23 < rectY1 r)

/-- Whether a tile breaks R30. -/
def State.breaksR30 (s : State) (t : Nat) : Bool :=
  decide (2304 ≤ t) || !(s.job.tiles.contains t) || s.rel.fTiles.contains t

/-- Whether a reserved field of a route entry is not zero. -/
def rReserved (k : List Word) : Bool :=
  let w := k.getD 0 0
  bit w 58 || bit w 31 || decide (fld w 45 2 ≠ 0 ∨ fld w 38 2 ≠ 0 ∨ fld w 10 18 ≠ 0) ||
    ((List.range 4).any fun i => decide (fld (k.getD (1 + i) 0) 24 8 ≠ 0 ∨ fld (k.getD (1 + i) 0) 56 8 ≠ 0)) ||
    ((List.range 3).any fun i => decide (k.getD (5 + i) 0 ≠ 0))

/-- The reason for which R236 refuses an entry: `want` is the kind the user asks for, `lo` and `rix` the landing row and row
index it starts at, `n` the rows. (DEDUCED, log 17) -/
def State.routeReason (s : State) (k : List Word) (want : Option Nat) (lo rix n : Nat) : Option Nat :=
  if 2 ≤ rKind k ∨ rReserved k = true ∨ (rKind k = 1 ∧ rNrect k ≠ 1) then some 1
  else if (rRects k).any rectBad ∨
      (rKind k = 1 ∧ (rRects k).any fun r => decide (rectX0 r ≠ rectX1 r ∨ rectY0 r ≠ rectY1 r)) then some 2
  else if ¬ rRemote k ∧ (unionTiles (rRects k)).any s.breaksR30 then some 3
  else if (rKind k = 1 ∧ 256 < rix + n) ∨ (want.any fun w => decide (w ≠ rKind k)) then some 4
  else if rKind k = 0 ∧ 768 < lo + n then some 5
  else none

/-- The reason and entry of a `DEST` (R236). -/
def destDetail (reason e : Nat) : Nat := reason * 2 ^ 24 + e

/-- Reads route entry `e` for X (R160, R167), or for the combine unit (`q` 4). -/
def State.routeEntry (s : State) (c : Acct) (e : Nat) : State × Option (List Word) :=
  let r := s.readNow c (fld ((s.tile c.t).reg 0x28) 0 10 + e / 8) 1
  (r.1, r.2.map fun b => wordsOf (b.drop (64 * (e % 8))) 8)

/-- Whether an entry number is in the table. -/
def Tile.hasRoute (x : Tile) (e : Nat) : Bool := decide (e < fld (x.reg 0x28) 16 9)

/-! ## Packets leave (R237, R238, R243, R250, R252, R349, R350) -/

/-- A packet leaves by a route entry: a copy for each tile of the union in this module, or to the Llyn port of the entry. -/
def State.sendPkt (s : State) (k : List Word) (p : Pkt) : State :=
  if rRemote k then
    if s.portUp (rLp k) then
      s.modNet fun n => { n with rport := n.rport ++ [(rLp k, { p with dmod := rDmod k, rects := rRects k })] }
    else s.linkRoute (rDmod k) (rLp k)
  else
    s.modNet fun n => { n with
      pkts := n.pkts ++ (unionTiles (rRects k)).map fun t => { p with dmod := s.modid, rects := [rectOf t] } }

/-- The packet of row `i` of `n` of a send or contribution: its block's check value is the seal of the aligned group the block
is, where that is valid, else computed (R250). -/
def Tile.rowPkt (x : Tile) (k : List Word) (proto : Pkt) (lo n : Nat) (b : List Byte) (i : Nat) : Pkt :=
  let b0 := 8 * (i / 8)
  let len := min 8 (n - b0)
  let g := (lo + b0) / 8
  { proto with
    kind := rKind k
    row := rDrow k + i
    rix := (rDrow k + i) % 256
    meete := rMeete k
    cix := rCix k
    first := decide (i % 8 = 0)
    last := decide (i % 8 = 7 ∨ i + 1 = n)
    crc := if (lo + b0) % 8 = 0 ∧ len = 8 ∧ Map.get false x.misc.sealV g = true then Map.get 0 x.misc.sealE g
      else crc32c ((b.drop (512 * b0)).take (512 * len))
    data := (b.drop (512 * i)).take 512 }

/-- A one-flit packet (R248, R251): its own block. -/
def flitPkt (k : List Word) (proto : Pkt) (kind rix : Nat) (d : List Byte) : Pkt :=
  { proto with
    kind := kind
    row := rDrow k + rix
    rix := rix
    meete := rMeete k
    cix := rCix k
    one := true
    first := true
    last := true
    crc := crc32c d
    data := d }

/-- A hazard of the exchange check (R502, R503). -/
def State.hazard (s : State) (t kind detail : Nat) : State :=
  if s.soundChk 2 then s.tileFault t 4 0x0E (kind * 2 ^ 24 + detail) 0 else s

/-- The first row of a send that has landed in this phase (R502). -/
def State.sentCheck (s : State) (t lo n : Nat) : State :=
  match ((List.range n).map (lo + ·)).find? fun r => (s.tile t).xs.landed.contains r with
  | some r => s.hazard t 4 r
  | none => s

/-- Bytes an exchange send adds to `XSENT` (R234). -/
def xBytes (w : Word) : Nat := if fld w 56 8 = 0xC2 then 16 else 512 * (fld w 11 8 + 1)

/-- The last row of an exchange send has left the port (R234, R237, R243, R248). -/
def State.xsendEnd (s : State) (t : Nat) (o : Op) : State :=
  let k := wordsOf o.dat 8
  let proto : Pkt := { smod := s.modid, stile := t, src := t, int := decide (fld o.w 56 8 = 0xC1) && bit o.w 10 }
  let left := fun (s : State) => s.modTile t fun y => ((y.dropAcc o.id).modIo fun io =>
    { io with out := io.out.filter fun p => decide (p.id ≠ o.id) }).modXs fun v =>
      { v with sent := v.sent + BitVec.ofNat 32 (xBytes o.w) }
  if fld o.w 56 8 = 0xC2 then
    let d := natLe 4 (o.v.headD 0).toNat ++ zeros 124
    ((left s).sendPkt k (flitPkt k proto 1 (rDrow k % 256) d)).checkPart t
  else
    let n := fld o.w 11 8 + 1
    let lo := (o.v.headD 0).toNat
    andThen (s.opRead { t := t, q := 3, eng := 5, pc := o.pc } o.id lo n) fun s b =>
      let x := s.tile t
      let s1 := (left s).modTile t fun y => y.modXs fun v => { v with
        sentRows := if s.soundChk 2 then v.sentRows ++ (List.range n).map (lo + ·) else v.sentRows }
      let s2 := (List.range n).foldl (fun s i => s.sendPkt k (x.rowPkt k proto lo n b i)) s1
      (s2.checkPart t).sentCheck t lo n

/-! ## X's program (R158, R159, R161) -/

/-- Loop counter k of X. -/
def Tile.loopK (x : Tile) (k : Nat) : W32 := Map.get 0 x.sq.x.l k

/-- Bytes of the exchange sends that have issued and not left. -/
def Tile.leaving (x : Tile) : Nat := (x.io.out.filter fun o => decide (o.q = .x)).foldl (fun n o => n + xBytes o.w) 0

/-- `XSEND`, `XRSEND` and `XNORM` at issue (R54, R158, R159, R236, R256): the entry, then the source rows, then the plan. -/
def xsendOp (key kind : Nat) (t : Nat) (s : State) : Out :=
  tileInsn key t .x s (fun _ => []) fun i x s =>
    let e := fld i.w 39 8
    let norm := decide (key = 0xC20)
    let n := if norm then 1 else fld i.w 11 8 + 1
    let lo := fld i.w 29 10 + (x.loopK (fld i.w 27 2)).toNat * fld i.w 19 8
    if 32 ≤ x.io.out.length then s.stall i 1
    else if x.hasRoute e then
      andThen (s.routeEntry { t := t, q := 3, eng := 8, pc := i.pc } e) fun s k =>
        match s.routeReason k (some kind) (rDrow k) (rDrow k) n with
        | some r => s.tileFault t 3 0x07 (destDetail r e) i.pc
        | none =>
          s.rowCheck i (if norm then [] else [spRun lo n]) <|
            if x.planSent < x.xs.sent.toNat + x.leaving + xBytes i.w then s.tileFault t 3 0x0D 0x03000000 i.pc
            else
              let o := i.op (s.tile t) [if norm then place 0 32 (fld x.misc.ssq 0 32) else BitVec.ofNat 64 lo] (k.flatMap wordBytes)
              let s1 := s.issueSeq i fun y =>
                let z := (y.startOp i).modIo fun io => { io with out := io.out ++ [o] }
                if norm then z.modMisc fun m => { m with ssq := 0 } else z
              if norm then s1
              else s1.addAccs t i.pc [{ id := o.id, eng := 5, q := 3, lo := lo, n := n, wr := false }]
    else s.tileFault t 3 0x07 (destDetail 1 e) i.pc

/-- `XSEND` (R158, R237). -/
def execXsend (t : Nat) (s : State) : Out := xsendOp 0xC00 0 t s
/-- `XRSEND` (R158, R243). -/
def execXrsend (t : Nat) (s : State) : Out := xsendOp 0xC10 1 t s
/-- `XNORM` (R117, R158, R248). -/
def execXnorm (t : Nat) (s : State) : Out := xsendOp 0xC20 1 t s

/-- A branch of X: two bubble cycles, not counted while it is halted (R41, R52, R159). -/
def State.xBranch (s : State) (i : Site) (f : Tile → Tile) : State :=
  (s.issueWith i (BitVec.ofNat 13 (fld i.w 0 13)) f).countTile i.t (0x100 + 0x40 * 3 + 8 * 7) ((s.tile i.t).bubbles .x)

/-- `XSETL` (R158). -/
def execXsetl (t : Nat) (s : State) : Out :=
  tileInsn 0xC30 t .x s (fun _ => []) fun i _ s =>
    s.issueSeq i fun y => y.modX fun v => { v with l := Map.set 0 v.l (fld i.w 45 2) (BitVec.ofNat 32 (fld i.w 0 32)) }

/-- `XLOOP` (R158). -/
def execXloop (t : Nat) (s : State) : Out :=
  tileInsn 0xC40 t .x s (fun _ => []) fun i x s =>
    let k := fld i.w 45 2
    if x.loopK k = 0 then s.issueSeq i id
    else s.xBranch i fun y => y.modX fun v => { v with l := Map.set 0 v.l k (x.loopK k - 1) }

/-- `XBR` (R158). -/
def execXbr (t : Nat) (s : State) : Out := tileInsn 0xC60 t .x s (fun _ => []) fun i _ s => s.xBranch i id

/-- `XNOP` (R158). -/
def execXnop (t : Nat) (s : State) : Out := tileInsn 0xC70 t .x s (fun _ => []) fun i _ s => s.issueSeq i id

/-- Whether every send of X has left the exchange port. -/
def Tile.xLeft (x : Tile) : Bool := x.io.out.all fun o => decide (o.q ≠ .x)

/-- `XWAIT` (R158). -/
def execXwait (t : Nat) (s : State) : Out :=
  tileInsn 0xC80 t .x s (fun _ => []) fun i x s => if x.xLeft then s.issueSeq i id else s.stall i 3

/-- `XEND` (R161): X has ended its part; too few bytes sent raise `OVERRUN` reason 0x04 (R256). -/
def execXend (t : Nat) (s : State) : Out :=
  tileInsn 0xC50 t .x s (fun _ => []) fun i x s =>
    if x.xLeft then
      if x.xs.sent.toNat < x.planSent then s.tileFault t 3 0x0D 0x04000000 i.pc
      else (s.issueSeq i fun y => y.modX fun v => { v with ended := true }).checkPart t
    else s.stall i 3

/-- `SEND_COMPLETE` (R54): the oldest outbound operation's last flit leaves the exchange port. (DESIGN CHOICE, log 3; DESIGN CHOICE, log 9) -/
def execSendComplete (t : Nat) (s : State) : Out :=
  if 2304 ≤ t then .fault (.noSuchUnit "tile" t)
  else
    alongside t s fun s => match (s.tile t).io.out with
    | [] => .next s
    | o :: _ => if fld o.w 56 8 = 0x74 ∨ fld o.w 56 8 = 0x75 then .next (s.sendEnd t o) else .next (s.xsendEnd t o)

/-! ## Mesh check values (R443, R446, R457) -/

/-- The die-boundary link an input link of a router is, if it is one. -/
def boundaryLink (t lnk : Nat) : Option Nat :=
  let x := tileX t
  let y := tileY t
  match lnk with
  | 0 => if y = 12 then some (168 + x) else none
  | 1 => if y = 11 then some (168 + x) else none
  | 2 => if x % 12 = 0 ∧ 0 < x then some (24 * (x / 12 - 1) + y) else none
  | _ => if x % 12 = 11 ∧ x < 95 then some (24 * (x / 12) + y) else none

/-- A router discards a flit whose check value mismatches (R443): region fault, evidence, and at the second within 720 h on the
same link a fence decision for a die-boundary link or the receiving router. -/
def State.meshCrc (s : State) (m : MeshErr) : State :=
  let b := boundaryLink m.rtr m.lnk
  let e := s.evidence 2 (match b with | some l => 2 ^ 16 + l | none => 4 * m.rtr + m.lnk)
  let s1 := e.1.regionFault (regionOf m.rtr) 0x22 (m.rtr + m.lnk * 2 ^ 12)
  if e.2 then s1.fenceDecide (match b with | some l => (3, l) | none => (2, m.rtr)) else s1

/-! ## The meet table (R244, R246) -/

def Tile.meetCount (x : Tile) : Nat := fld (x.reg 0x40) 16 7
def Tile.meetRow (x : Tile) (e : Nat) : Nat := fld (x.reg 0x40) 0 10 + e / 8
/-- Word 0 of meet entry `e`. -/
def Tile.meetWord (x : Tile) (e : Nat) : Word := wordAt (Map.slice 0 x.sp (512 * x.meetRow e + 64 * (e % 8)) 8) 0
def mKind (w : Word) : Nat := fld w 62 2
def mFan (w : Word) : Nat := fld w 59 3 + 1
def mInt (w : Word) : Bool := bit w 58
def mSlots (w : Word) : Nat := fld w 50 6 + 1
def mOnrt (w : Word) : Nat := fld w 40 8
def mLrow (w : Word) : Nat := fld w 0 10

/-- The row slots of a meet entry that are taken (R246): by checked rows that wait for a lower `CIX`, and by the rows of blocks that have
not arrived whole and so are not checked (R251). (DEDUCED, log 17) -/
def Tile.slotsTaken (x : Tile) (e : Nat) : Nat :=
  let rows := (x.xs.rows.filter fun m => decide (m.e = e)).foldl (fun n m => n + m.held.length) 0
  (x.xs.blks.filter fun b => decide (b.key.getD 2 0 = 1 ∧ b.key.getD 3 0 = e)).foldl (fun n b => n + b.data.length / 512) rows

/-! ## Landings (R226, R234, R237, R250, R251) -/

/-- The tile a packet in its own module is a copy for. -/
def Pkt.tile (p : Pkt) : Nat := tileAt (rectX0 (p.rects.headD 0)) (rectY0 (p.rects.headD 0))

/-- Whether a tile's exchange port takes packets: the job has not stopped, and no message holds the inbound buffer (R242, R270). -/
def State.landsAt (s : State) (t : Nat) : Bool :=
  decide (s.job.js ≠ 6 ∨ s.sameTick = true) && decide ((s.tile t).st ≠ 8 ∨ s.sameTick = true) && !(s.tile t).blocked

/-- Whether a packet waits at the input of its last router: a contribution with no slot free, or any packet of a tile whose inbound buffer
is held (R242, R246). -/
def State.pktWaits (s : State) (p : Pkt) : Bool :=
  let x := s.tile p.tile
  x.blocked || (decide (p.kind = 1 ∧ p.meete < x.meetCount) && decide (mSlots (x.meetWord p.meete) ≤ x.slotsTaken p.meete))

/-- Whether packet `i` is at its tile: every region on its way is awake (R28), it is the oldest of its flow (packets between two tiles keep
their order, R25, R238), and no packet sent before it waits on a link of its way (R246; DEDUCED, log 17). -/
def State.pktFirst (s : State) (i : Nat) (p : Pkt) : Bool :=
  s.pathOn p.src p.tile && ((s.net.pkts.take i).all fun e =>
    decide ((e.smod, e.stile, e.tile) ≠ (p.smod, p.stile, p.tile)) &&
      !(((p.src, 4) :: meshPath p.src p.tile).contains (lastLink e.src e.tile) && s.pktWaits e))

def State.dropPkt (s : State) (i : Nat) : State := s.modNet fun n => { n with pkts := n.pkts.eraseIdx i }

/-- The detail of a `CRC` of the exchange (R251). -/
def xCrcDetail (plc row : Nat) : Nat := plc * 2 ^ 24 + row * 2 ^ 8

/-- A block grows by one row; gives the block with it, and the other blocks. -/
def growBlk (l : List Blk) (key : List Nat) (row : Nat) (first : Bool) (size : Nat) (d : List Byte) : Blk × List Blk :=
  let old := if first then none else l.find? fun b => decide (b.key = key ∧ b.row0 + b.data.length / size = row)
  match old with
  | some b => ({ b with data := b.data ++ d }, l.filter fun c => decide (c ≠ b))
  | none => ({ key := key, row0 := row, data := d }, l)

/-- One row lands at tile `t` (R234, R237, R250, R251, R550): counted, written, its block checked with the last row, a block
that is one aligned seal group seals it. -/
def State.landRow (s : State) (t row : Nat) (key : List Nat) (p : Pkt) : State :=
  let r := s.addRecv t 512
  if r.2 then
    let s1 := r.1.writeNow { t := t, q := 4, eng := 5, pc := 0 } row (padTo 512 p.data)
    let v := (s.tile t).xs
    let g := growBlk v.blks key row p.first 512 (if p.one then [] else p.data)
    let b := if p.one then { g.1 with data := p.data } else g.1
    let s2 := s1.modTile t fun y => y.modXs fun v => { v with
      blks := if p.last then g.2 else g.2 ++ [b]
      landed := if s.soundChk 2 then v.landed ++ [row] else v.landed }
    let s3 :=
      if v.landed.contains row then s2.hazard t 3 row
      else if v.sentRows.contains row then s2.hazard t 4 row
      else s2
    if p.last then
      if crc32c b.data = p.crc then
        let whole := decide (b.row0 % 8 = 0 ∧ b.data.length = 4096 ∧ p.one = false)
        (if whole then s3.modTile t fun y => y.modMisc fun m => { m with
            sealE := Map.set 0 m.sealE (b.row0 / 8) p.crc
            sealV := Map.set false m.sealV (b.row0 / 8) true }
          else s3).checkPart t
      else
        let n := if p.one then 1 else b.data.length / 512
        let s4 := (s3.modTile t fun y => { y with sp := Map.setRange 0 y.sp (512 * b.row0) (s3.freeBytes (512 * n)) }).took
        s4.tileFault t 4 0x0A (xCrcDetail 7 b.row0) 0
    else s3.checkPart t
  else r.1

/-- `EXCHANGE_LANDING` (R226, R237): packet `i` lands; on any packet, a flit whose check value mismatches at a link of its way is
lost instead (R24, R25, R443). -/
def execExchangeLanding (i : Nat) (e : Option MeshErr) (s : State) : Out :=
  match s.net.pkts[i]?, e with
  | none, _ => .next s
  | some p, some m => if (meshPath p.src p.tile).contains (m.rtr, m.lnk) then .next ((s.dropPkt i).meshCrc m) else .next s
  | some p, none =>
    if p.kind ≠ 0 ∨ ¬ s.pktFirst i p ∨ ¬ s.landsAt p.tile then .next s
    else alongside p.tile s fun s => .next ((s.dropPkt i).landRow p.tile p.row [p.smod, p.stile, 0] p)

/-! ## The combine unit (R243 to R251, R549, R550) -/

/-- The detail of `OVERRUN` with a meet entry and row index (R256). -/
def meetDetail (reason e rix : Nat) : Nat := reason * 2 ^ 24 + e * 2 ^ 8 + rix

def lanesOf (d : List Byte) : List W32 := (List.range (d.length / 4)).map fun i => BitVec.ofNat 32 (leNat ((d.drop (4 * i)).take 4))
def lanesBytes (l : List W32) : List Byte := l.flatMap fun v => natLe 4 v.toNat

/-- The lanes of one addition and the saturations it counts (R245). -/
def addLanes (int : Bool) (a b : List W32) : List W32 × Nat :=
  if int then
    let r := (a.zip b).map fun p => satAdd32 p.1.toInt p.2.toInt
    (r.map fun p => BitVec.ofInt 32 p.1, (r.filter (·.2)).length)
  else ((a.zip b).map fun p => f32 (Fp.add (num32 p.1) (num32 p.2)), 0)

/-- Adds the contribution that is next, then those held that follow it (R245, R246). (DEDUCED, log 17) -/
def MeetRow.absorb (int : Bool) : Nat → MeetRow → Nat → MeetRow × Nat
  | 0, m, n => (m, n)
  | fuel + 1, m, n =>
    match m.held.find? fun h => decide (h.1 = m.next) with
    | none => (m, n)
    | some h =>
      let r := if m.next = 0 then (h.2, 0) else addLanes int m.sum h.2
      MeetRow.absorb int fuel { m with sum := r.1, next := m.next + 1, held := m.held.filter fun g => decide (g.1 ≠ h.1) } (n + r.2)

def findMeet (l : List MeetRow) (e rix : Nat) : MeetRow :=
  (l.find? fun m => decide (m.e = e ∧ m.rix = rix)).getD { e := e, rix := rix }

def setMeet (l : List MeetRow) (m : MeetRow) : List MeetRow :=
  (l.filter fun k => decide ((k.e, k.rix) ≠ (m.e, m.rix))) ++ [m]

/-- One checked contribution row reaches its sum; gives the rows and the saturations. (DEDUCED, log 17) -/
def meetTake (int : Bool) (l : List MeetRow) (e rix cix : Nat) (d : List Byte) : List MeetRow × Nat :=
  let m := findMeet l e rix
  let r := MeetRow.absorb int 8 { m with held := m.held ++ [(cix, lanesOf d)] } 0
  (setMeet l r.1, r.2)

/-- The row a contribution names, with the contribution noted as arrived (R249), what kind it is, and whether its result can be
told (R245, R248). -/
def MeetRow.note (m : MeetRow) (int : Bool) (p : Pkt) : MeetRow :=
  { m with
    got := p.cix :: m.got
    wild := m.wild || decide (p.int ≠ int) || (decide (m.got ≠ []) && decide (m.four = p.one))
    four := m.four || !p.one
    cut := m.cut || !p.last }

/-- Rows `row0`, `row0` + 1 and so on of a checked block reach their sums in order. -/
def meetBlock (int : Bool) (e cix : Nat) : List (List Byte) → Nat → List MeetRow → Nat → List MeetRow × Nat
  | [], _, l, n => (l, n)
  | d :: ds, rix, l, n =>
    let r := meetTake int l e rix cix d
    meetBlock int e cix ds (rix + 1) r.1 (n + r.2)

/-- A contribution of which packet `p` is a row reaches the combine unit of its meet tile (R243 to R246, R249 to R251): the rows of a block
are added once the block is checked; a row that finds no slot waits. (DEDUCED, log 17) -/
def State.contribute (s : State) (i : Nat) (p : Pkt) : State :=
  let t := p.tile
  let x := s.tile t
  let s0 := s.dropPkt i
  let bad := s0.tileFault t 4 0x0D (meetDetail 5 p.meete p.rix) 0
  if x.meetCount ≤ p.meete then bad
  else if (x.badRow (x.meetRow p.meete) 1).isSome then s0.tileFault t 4 0x05 (x.meetRow p.meete) 0
  else
    let w := x.meetWord p.meete
    let m := findMeet x.xs.rows p.meete p.rix
    if mKind w = 3 ∨ mFan w ≤ p.cix ∨ m.got.contains p.cix = true then bad
    else if s.pktWaits p then s
    else
      let rows := setMeet x.xs.rows (m.note (mInt w) p)
      let size := if p.one then 128 else 512
      let g := growBlk x.xs.blks [p.smod, p.stile, 1, p.meete, p.cix] p.rix p.first size p.data
      let ty := fun (s : State) => if p.int ≠ mInt w then s.hazard t 5 (p.meete * 2 ^ 10 + p.rix) else s
      if p.last then
        if crc32c g.1.data = p.crc then
          let r := meetBlock (mInt w) p.meete p.cix (chunks size (g.1.data.length / size) g.1.data) g.1.row0 rows 0
          ty (s0.modTile t fun y => (y.modXs fun v => { v with rows := r.1, blks := g.2 }).count 0x310 r.2)
        else s0.tileFault t 4 0x0A (xCrcDetail 8 g.1.row0) 0
      else ty (s0.modTile t fun y => y.modXs fun v => { v with rows := rows, blks := g.2 ++ [g.1] })

/-- `CONTRIBUTION_ARRIVAL` (R226, R245): packet `i` reaches its combine unit. -/
def execContributionArrival (i : Nat) (s : State) : Out :=
  match s.net.pkts[i]? with
  | none => .next s
  | some p =>
    if p.kind ≠ 1 ∨ ¬ s.pktFirst i p ∨ ¬ s.landsAt p.tile then .next s
    else alongside p.tile s fun s => .next (s.contribute i p)

/-- The result row's packet, with the check value of its block of results, and the open result blocks of the tile (R251): blocks are the
8 `RIX` values at a time from `r0`, the meet's first result row. A shorter last block ends where the contributions' block ends and no later
row of it is in the combine unit or on its way, or where `fin` tells that the plan has no further row. (DEDUCED, log 17) -/
def State.resultPkt (s : State) (t r0 : Nat) (fin : Bool) (m : MeetRow) (proto : Pkt) (d : List Byte) : Pkt × List Blk :=
  let x := s.tile t
  let outs := x.xs.outBlk
  if m.four then
    let k := (m.rix - r0) / 8
    let key := [m.e, k]
    let later := fun (r : Nat) => decide (m.rix < r ∧ (r - r0) / 8 = k)
    let more := (x.xs.rows.any fun y => decide (y.e = m.e) && later y.rix && !y.out) ||
      s.net.pkts.any fun p => decide (p.kind = 1 ∧ p.tile = t ∧ p.meete = m.e) && later p.rix
    let last := decide ((m.rix - r0) % 8 = 7) || fin || (!m.cut && !more)
    let cont := outs.any fun b => decide (b.key = key ∧ b.row0 + b.data.length / 512 = m.rix)
    let g := growBlk outs key m.rix (!cont) 512 d
    ({ proto with first := !cont, last := last, crc := if last then crc32c g.1.data else 0, data := d },
      if last then g.2 else g.2 ++ [g.1])
  else ({ proto with one := true, first := true, last := true, crc := crc32c d, data := d }, outs)

/-- A result row has left the combine unit (R234, R247). -/
def State.meetOut (s : State) (t r0 : Nat) (m : MeetRow) (outs : List Blk) : State :=
  (s.modTile t fun y => y.modXs fun v => { v with
    meet := v.meet + 1
    rows := setMeet v.rows { m with out := true }
    first := Map.set 0 v.first m.e (r0 + 1)
    outBlk := outs }).took

/-- Result row `m` of a combine unit leaves by its meet entry's kind (R247, R248, R256, R549, R550); one whose check fails is not sent and
not counted. (DEDUCED, log 17) -/
def State.meetSend (s : State) (t : Nat) (m : MeetRow) : State :=
  let x := s.tile t
  let w := x.meetWord m.e
  let r0 := Map.get 0 x.xs.first m.e - 1
  let r0 := if Map.get 0 x.xs.first m.e = 0 ∨ m.rix < r0 then m.rix else r0
  let sum := if m.wild then (List.range m.sum.length).map fun j => (Config.freeWord s.free j).setWidth 32 else m.sum
  let proto : Pkt := { smod := s.modid, stile := t, src := t, row := mLrow w + m.rix, rix := m.rix, int := mInt w }
  let r := s.resultPkt t r0 (decide (x.planMeet = x.xs.meet + 1)) m proto (lanesBytes sum)
  if mKind w = 0 then
    if 768 ≤ mLrow w + m.rix then s.tileFault t 4 0x04 (mLrow w + m.rix) 0
    else ((s.meetOut t r0 m r.2).landRow t (mLrow w + m.rix) [s.modid, t, 2, m.e] r.1).checkPart t
  else if ¬ x.hasRoute (mOnrt w) then s.tileFault t 4 0x07 (destDetail 1 (mOnrt w)) 0
  else
    andThen (s.routeEntry { t := t, q := 4, eng := 8, pc := 0 } (mOnrt w)) fun s k =>
      let norm := decide (mKind w = 2)
      match s.routeReason k (if norm then some 0 else none) (if norm then rDrow k else rDrow k + m.rix) m.rix 1 with
      | some n => s.tileFault t 4 0x07 (destDetail n (mOnrt w)) 0
      | none =>
        let p := if norm then { flitPkt k proto 2 0 ((lanesBytes sum).take 4 ++ zeros 124) with rix := m.rix }
          else { r.1 with kind := rKind k, row := rDrow k + m.rix, meete := rMeete k, cix := rCix k }
        ((s.meetOut t r0 m r.2).sendPkt k p).checkPart t

/-- `MEET_RESULT_OUTPUT` (R247, R256): the result of row `rix` of meet entry `e` leaves the combine unit. Of the results that are ready, the
one of the lowest meet entry and its lowest row goes first. (DEDUCED, log 17) -/
def execMeetResultOutput (t e rix : Nat) (s : State) : Out :=
  if 2304 ≤ t then .fault (.noSuchUnit "tile" t)
  else
    alongside t s fun s =>
      let x := s.tile t
      match x.xs.rows.find? fun m => decide (m.e = e ∧ m.rix = rix) with
      | none => .next s
      | some m =>
        let ready := fun (k : MeetRow) => !k.out && decide (k.next = mFan (x.meetWord k.e))
        if ¬ ready m ∨ s.job.js = 6 ∨ x.st = 8 ∨ (x.xs.rows.any fun k => decide (k.e < e ∨ (k.e = e ∧ k.rix < rix)) && ready k) ∨
            (mKind (x.meetWord e) = 0 ∧ ¬ s.landsAt t) then .next s
        else if (x.badRow (x.meetRow e) 1).isSome then .next (s.tileFault t 4 0x05 (x.meetRow e) 0)
        else if x.planMeet < x.xs.meet + 1 then .next (s.tileFault t 4 0x0D (meetDetail 6 e rix) 0)
        else .next (s.meetSend t m)

/-! ## Norm deliveries (R301, R302, R309) -/

/-- Relay `k` of a delivered value (R302). (DEDUCED, log 17) -/
def State.relay (s : State) (t : Nat) (d : List Byte) (k : Nat) : State :=
  let x := s.tile t
  let r := x.reg 0x410
  if bit r (56 + k) then
    let e := fld r (8 * k) 8
    if x.planMeet < x.xs.meet + 1 then s.tileFault t 4 0x0D (meetDetail 6 0 0) 0
    else if ¬ x.hasRoute e then s.tileFault t 4 0x07 (destDetail 1 e) 0
    else
      andThen (s.routeEntry { t := t, q := 4, eng := 8, pc := 0 } e) fun s w =>
        match s.routeReason w (some 0) (rDrow w) 0 1 with
        | some n => s.tileFault t 4 0x07 (destDetail n e) 0
        | none =>
          (s.modTile t fun y => y.modXs fun v => { v with meet := v.meet + 1 }).sendPkt w
            (flitPkt w { smod := s.modid, stile := t, src := t } 2 0 d)
  else s

/-- `NORM_DELIVERY` (R234, R251, R301, R302): packet `i` writes `NORM` at its tile, which then relays it. A further delivery in
one phase leaves an unpredictable sum. A mismatch of its check value has neither a landing row nor a `RIX` of a meet at the receiver: the
spec names no value for [23:8] of the detail, the model puts 0 (DESIGN CHOICE, log 17). (DEDUCED, log 17) -/
def execNormDelivery (i : Nat) (s : State) : Out :=
  match s.net.pkts[i]? with
  | none => .next s
  | some p =>
    let t := p.tile
    if p.kind ≠ 2 ∨ ¬ s.pktFirst i p ∨ ¬ s.landsAt t then .next s
    else
      alongside t s fun s =>
        let s0 := s.dropPkt i
        if crc32c p.data ≠ p.crc then .next (s0.tileFault t 4 0x0A (xCrcDetail 7 0) 0)
        else
          let r := s0.addRecv t 16
          if r.2 then
            let v := if 0 < (s.tile t).xs.norms then fld (Config.freeWord s.free 0) 0 32 else leNat (p.data.take 4)
            let s1 := (r.1.modTile t fun y => (y.modMisc fun m => { m with
              norm := place 32 32 s.job.sstep.toNat ||| place 0 32 v }).modXs fun u => { u with norms := u.norms + 1 }).took
            .next (((List.range 7).foldl (fun s k => s.relay t p.data k) s1).checkPart t)
          else .next r.1

/-! ## Limits and reports (R255, R285, R501) -/

/-- `OVERRUN_LIMIT_EXPIRY` (R255): the exchange limit has elapsed since the tile's release and its part is not complete. (DESIGN CHOICE, log 3) -/
def execOverrunLimitExpiry (t : Nat) (s : State) : Out :=
  if 2304 ≤ t then .fault (.noSuchUnit "tile" t)
  else
    alongside t s fun s =>
      let x := s.tile t
      if x.st = 5 ∧ s.job.exch ∧ ¬ x.xs.part ∧ s.job.js = 4 ∧ ¬ s.suspended then .next (s.tileFault t 4 0x0D 0x01000000 0)
      else .next s

/-- Whether a stream stands in a `TWAIT` (`kind` 2) or a `QHEAD` (3) that is not met (R152, R267, R285). -/
def State.waitsIn (s : State) (t kind : Nat) (q : Strm) : Bool :=
  let x := s.tile t
  let w := Map.get 0 x.im (x.slot q)
  s.mayIssue t q && (x.seq q).predOk w &&
    (if kind = 2 then
      decide (fld w 56 8 = 0x72 ∧ (Map.get {} (s.cluster (clusterOf t)).tally (insnTl w)).count.toInt < sextNat 32 (fld w 0 32))
    else decide (fld w 56 8 = 0x76 ∧ (x.queue (fld w 32 9)).occ < 8))

/-- `SYNC_WDOG_EXPIRY` (R285, R447): a timed wait of `kind` (0 arrival wave, 1 done wave, 2 `TWAIT`, 3 `QHEAD`) of tile `t` has
lasted for the watchdog limit; in the tick in which the job stopped a further such wait is a secondary cause (R23). (DESIGN CHOICE, log 3) -/
def execSyncWdogExpiry (t kind : Nat) (q : Strm) (s : State) : Out :=
  if 2304 ≤ t then .fault (.noSuchUnit "tile" t)
  else
    let v := if s.sameTick then s.unstopped t else s
    let x := v.tile t
    let wave := decide (kind ≤ 1)
    let holds := if kind = 0 then decide (x.st = 4) else if kind = 1 then decide (x.st = 5 ∧ v.job.exch) && x.xs.part
      else decide (kind ≤ 3) && v.waitsIn t kind q
    if v.job.js = 4 ∧ v.job.tiles.contains t = true ∧ holds ∧ ¬ v.suspended then
      .next (s.devFault 0x40 (t + (if wave then 4 else Strm.code q) * 2 ^ 12 + kind * 2 ^ 16))
    else .next s

/-- `STALE_FETCH_REPORT` (R501, R503): the controllers answer the first read of a landed row; a changed write count of one of
its blocks is a hazard. (DEDUCED, log 14) -/
def execStaleFetchReport (t row : Nat) (s : State) : Out :=
  if 2304 ≤ t then .fault (.noSuchUnit "tile" t)
  else
    let x := s.tile t
    let g := Map.get 0 x.misc.pfTag row
    if g ≤ 64 then .next s
    else
      let stale := (Map.get [] x.misc.pfCnt row).any fun c => decide (Map.get 0 (s.stk c.1).wcnt c.2.1 ≠ c.2.2)
      let s1 := s.modTile t fun y => y.modMisc fun m => { m with pfTag := Map.set 0 m.pfTag row 0, pfCnt := Map.set [] m.pfCnt row [] }
      if stale ∧ s.soundChk 1 then
        .next (s1.tileFault t ((g - 1) / 64 % 8 - 1) 0x0E (0x02000000 + (g - 1) % 64 * 2 ^ 10 + row % 1024) ((g - 1) / 512))
      else .next s1

end Sys2Proof.Machine
end

