-- ==== Sys2Proof/Machine/Ready.lean ====
section
/-! DEFINITION. The per-function ready map (R474), tile reset, job reset and unload (R458, R469, R470, R473), and where HBM is
allocated (R195, R198, R318, R366, R460). -/

namespace Sys2Proof.Machine

/-! ## Ready (R474, R475) -/

/-- The mask of the numbers below `n` that satisfy `f`. -/
def maskOf (n : Nat) (f : Nat → Bool) : Nat := (List.range n).foldl (fun m i => if f i then m + 2 ^ i else m) 0

def countOf (n : Nat) (f : Nat → Bool) : Nat := ((List.range n).filter f).length

def State.regionReady (s : State) (r : Nat) : Bool :=
  decide ((s.region r).pwr = 0) && !(s.region r).rstBusy && !s.power.trip && !s.power.brown
def State.stackReady (s : State) (k : Nat) : Bool :=
  decide ((s.stk k).st = 2 ∨ (s.stk k).st = 3) && decide ((s.region (k / 2)).pwr ≠ 2) && !(s.rel.failed.contains k) &&
    !s.power.trip && !s.power.brown
def State.portReady (s : State) (p : Nat) : Bool := decide ((s.port p).st = 4)
def State.rlReady (s : State) : Bool := decide (s.rl.st = 4)

/-- `DEV_READY_MAP0` (R475). -/
def State.readyMap0 (s : State) : Word :=
  place 32 32 (maskOf 32 s.stackReady) ||| place 17 1 (bnat s.rlReady) ||| place 16 1 (bnat s.helm.run) |||
    place 0 16 (maskOf 16 s.regionReady)
/-- `DEV_READY_MAP1` (R475). -/
def State.readyMap1 (s : State) : Word := place 0 32 (maskOf 32 s.portReady)
/-- `DEV_READY` (R475). -/
def State.readyWord (s : State) : Word :=
  place 28 4 s.helm.stage ||| place 16 6 (countOf 32 s.portReady) ||| place 15 1 (bnat s.helm.run) ||| place 14 1 (bnat s.rlReady) |||
    place 13 1 (bnat s.power.trip) ||| place 8 5 (countOf 16 s.regionReady) ||| place 0 6 (countOf 32 s.stackReady)

/-- A change of the ready map raises vector 65 (R371, R474). -/
def State.readyFrom (s' s : State) : State :=
  if s'.readyMap0 = s.readyMap0 ∧ s'.readyMap1 = s.readyMap1 then s' else s'.raiseMsi 65

/-! ## Allocation of HBM -/

/-- Stack granules in a stack (R195). -/
def stackGranules : Nat := 8789062

/-- A range of granules: `none` of a region for module-interleaved, or region-local in a region; first granule, granules. -/
structure Alloc where
  region : Option Nat
  base : Nat
  n : Nat
deriving DecidableEq, Repr

/-- How many numbers in `[a, a + n)` leave remainder `k` modulo `m`, and the first quotient. -/
def strided (a n m k : Nat) : Nat × Nat :=
  let lo := (a + m - 1 - k) / m
  let hi := (a + n + m - 1 - k) / m
  (lo, hi - lo)

/-- The granules an allocation has in stack `k`: first and count. -/
def Alloc.onStack (a : Alloc) (k : Nat) : Nat × Nat :=
  match a.region with
  | none => strided a.base a.n 32 k
  | some r => if k / 2 = r then strided a.base a.n 2 (k % 2) else (0, 0)

/-- Whether two allocations share a stack granule. -/
def Alloc.meets (a b : Alloc) : Bool :=
  (List.range 32).any fun k =>
    let p := a.onStack k
    let q := b.onStack k
    decide (0 < p.2 ∧ 0 < q.2) && overlap p.1 p.2 q.1 q.2

/-- The retired granules as allocations of their own. -/
def retiredAlloc (r : Nat × Nat) : Alloc := { region := none, base := 32 * r.2 + r.1, n := 1 }

/-- What job windows may not share: the coherent host window and the hosted stow area (R198). -/
def State.reserved (s : State) : List Alloc :=
  (if s.rl.hcwSize = 0 then [] else [{ region := none, base := 0, n := s.rl.hcwSize * 2 ^ 18 }]) ++
    (if s.stow.area = 0 then [] else [{ region := none, base := s.stow.areaBase, n := s.stow.area * 2 ^ 18 }])

/-- Module-interleaved placement upward (R195, R198, R460): past what is module-interleaved and past retired granules; a meeting
with region-local windows leaves no place. -/
def placeUp (used : List Alloc) (retired : List (Nat × Nat)) (n : Nat) : Nat → Nat → Option Nat
  | 0, _ => none
  | fuel + 1, base =>
    let a : Alloc := { region := none, base := base, n := n }
    if 32 * stackGranules < base + n then none
    else
      match (used.filter fun u => u.region.isNone).find? a.meets with
      | some u => placeUp used retired n fuel (u.base + u.n)
      | none =>
        match (retired.map retiredAlloc).find? a.meets with
        | some u => placeUp used retired n fuel (u.base + 1)
        | none => if used.any a.meets then none else some base

/-- Region-local placement downward from the top of the region (R195, R198, R460). -/
def placeDown (used : List Alloc) (retired : List (Nat × Nat)) (r n : Nat) : Nat → Nat → Option Nat
  | 0, _ => none
  | fuel + 1, top =>
    if top < n then none
    else
      let a : Alloc := { region := some r, base := top - n, n := n }
      match (used.filter fun u => decide (u.region = some r)).find? a.meets with
      | some u => placeDown used retired r n fuel u.base
      | none =>
        match retired.find? fun g => a.meets (retiredAlloc g) with
        | some g => placeDown used retired r n fuel (2 * g.2 + g.1 % 2)
        | none => if used.any a.meets then none else some (top - n)

/-- The fuel of a placement: every obstacle is passed once. -/
def placeFuel (used : List Alloc) (retired : List (Nat × Nat)) : Nat := used.length + retired.length + 1

def State.placeAbove (s : State) (used : List Alloc) (n : Nat) : Option Nat :=
  placeUp used s.rel.retired n (placeFuel used s.rel.retired) 0
def State.placeBelow (s : State) (used : List Alloc) (r n : Nat) : Option Nat :=
  placeDown used s.rel.retired r n (placeFuel used s.rel.retired) (2 * stackGranules)

/-! ## Tile and job reset (R469, R470, R473) -/

/-- A tile with SRAM, sequencers, queues and faults at reset; `cfg` and instruction memory kept or not. (DEDUCED, log 42) -/
def Tile.cleared (x : Tile) (st : Nat) (keep : Bool) : Tile :=
  { st := st
    cfg := if keep then x.cfg else []
    im := if keep then x.im else []
    imBad := if keep then x.imBad else []
    misc := { bp := x.misc.bp, wp := x.misc.wp, dbg := x.misc.dbg, refused := x.misc.refused } }

/-- A cluster at job reset: tallies at the image's initial values, capacities kept (R277, R469). (DEDUCED, log 42) -/
def State.clusterReset (s : State) (c : Nat) : State :=
  let init : List (Nat × Nat × W32 × W32) := match s.job.img with
    | none => []
    | some im => im.tallies.filter fun e => decide (e.1 = c)
  s.modCluster c fun x =>
    { cap := x.cap
      tw := x.tw
      tally := init.foldl (fun m e => Map.set {} m e.2.1 { count := e.2.2.1, ceil := e.2.2.2.toNat % 2 ^ 31 }) [] }

/-- A job reset (R469): packets of the job discarded, transfers ended, tiles and clusters cleared and left in state `st`, fault
registers and job-start counters cleared, a debug halt ended. Pending fences of routers and links commit (R458). (DEDUCED, log 42) -/
def State.jobReset (s : State) (st : Nat) : State :=
  let s1 := s.forAll s.job.tiles fun s t =>
    let y := ((s.tile t).io.tags.zipIdx).foldl (fun s p => s.stopStore p.1 p.2) s
    (y.modTile t fun x => x.cleared st true).took
  let s2 := s1.forAll s.job.clusters State.clusterReset
  let far := fun (m : Nat) => decide (m ≠ s.modid)
  let s3 := s2.modNet fun n => { n with
    msgs := [], pkts := []
    rport := n.rport.filter fun p => far p.2.smod
    rmsg := n.rmsg.filter fun p => far (fld p.2.h1 46 10) }
  let s4 := s3.forAll (List.range 16) fun s r =>
    if s.job.needs.testBit r then s.modRegion r fun x => { x with fault := 0, faultTime := 0 } else s
  let s5 := s4.modRel fun r => { r with fault := 0, faultTime := 0 }
  let s6 := s5.modJob fun j => { j with
    exch := false, prim := {}, startPend := false, wave := {}, ctr := [], notices := [] }
  let s7 := (s6.modDbg fun d => { d with jobHalt := false, relAt := none }).modPower fun p => { p with pj := none, pj2 := none }
  (if s7.helm.run then (s7.rel.pendF.filter fun d => decide (2 ≤ d.1)).foldl State.fence s7 else s7).stepLost

/-- The job leaves the module (R399, R450, R458): tiles idle without its configuration, windows freed, the ballast base moved
on, J back at 64 (R416), fences committed. (DEDUCED, log 42) -/
def State.unload (s : State) : State :=
  let s1 := s.jobReset 1
  let s2 := s1.forAll s1.job.tiles fun s t => s.modTile t fun x =>
    { x with cfg := [], im := [], imBad := [], st := if x.st = 9 then 9 else 1 }
  let s3 := s2.forAll s2.job.clusters fun s c => s.modCluster c fun x => { x with cap := 0, tally := [] }
  let s4 := s3.modRel fun r => { r with balBase := (r.balBase + s.job.steps) % 4096 }
  let s5 := ((s4.modJob fun _ => {}).modPower fun p => { p with jstep := 64 }).updateRun
  s5.commitFences

end Sys2Proof.Machine
end

