-- ==== Sys2Proof/Machine/Superstep.lean ====
section
/-! DEFINITION. The two waves of a superstep (R225 to R234, R283, R417) and ballast (R434, R450 to R452). -/

namespace Sys2Proof.Machine

/-- A tile enters the exchange phase (R66, R255). -/
def Tile.toExchange (x : Tile) (now : Nat) : Tile :=
  if x.st = 4 then { x with st := 5, xs := { x.xs with relNs := now } } else x

/-- `ARRIVAL_WAVE_RELEASE` (R225, R229, R417): the agreed step has reached this member: `GO` goes to the children, every tile
enters `EXCHANGE`. (DEDUCED, log 33) -/
def execArrivalWaveRelease (s : State) : Out :=
  let v := s.job.wave
  match v.go with
  | none => .next s
  | some n =>
    if s.job.js = 4 ∧ v.arrSent ∧ ¬ s.job.exch then
      let s1 := s.sendAlong s.childEdges fun peer => Sym.mk5 2 peer s.modid n
      let s2 := s1.modJob fun j => { j with
        exch := true
        wave := { j.wave with go := none, arrSent := false, arrFrom := [] } }
      let s3 := (s2.modPower fun p => { p with pj2 := some n }).forAll s.job.tiles fun s t =>
        s.modTile t fun x => x.toExchange s.now
      .next (s3.forAll s.job.tiles State.checkPart).doneReport
    else .next s

/-- A tile at the end of an exchange phase (R161, R233, R234): counts at zero, the plan entry of the next phase, the time of its part
shown. Rows that have left the combine unit are done with; those not yet added stay, and their indices may arrive again in the next phase
(R246, R249). (DEDUCED, log 17) -/
def Tile.endPhase (x : Tile) (sstep : Nat) : Tile :=
  let len := fld (x.reg 0x38) 16 11
  let y := { x with ctr := Map.set 0 x.ctr 0x610 (BitVec.ofNat 64 x.xs.partNs) }
  (y.modX fun v => { v with ended := false }).modXs fun v => { v with
    sent := 0, recv := 0, meet := 0
    planIx := if len = 0 then 0 else sstep % len
    part := false
    rows := (v.rows.filter fun m => !m.out).map fun m => { m with got := [] }
    outBlk := [], first := []
    norms := 0, landed := [], sentRows := [] }

/-- The placement epoch at the end of the phase that ended superstep `n` (R283, R316). -/
def State.advanceEpoch (s : State) (n : Nat) : State :=
  if s.job.permuteAt n then
    if s.job.epoch + 1 < 2 ^ 32 then s.modJob fun j => { j with epoch := j.epoch + 1 }
    else s.devFault 0x48 (s.job.sstep.toNat % 2 ^ 32)
  else s

/-- `DONE_WAVE_RELEASE` (R225, R234, R281, R283, R316, R322, R417): the exchange phase ends. (DEDUCED, log 33) -/
def execDoneWaveRelease (s : State) : Out :=
  if s.job.js = 4 ∧ s.job.exch ∧ s.job.wave.done then
    let n := s.job.sstep.toNat
    let s1 := s.sendAlong s.childEdges fun peer => Sym.mk5 4 peer s.modid 0
    let s2 := s1.modJob fun j => { j with
      sstep := j.sstep + 1
      steps := j.steps + 1
      exch := false
      wave := { j.wave with done := false, partSent := false, partFrom := [], doneAt := true } }
    let s3 := s2.forAll s.job.tiles fun s t => s.modTile t fun x => x.endPhase s.job.sstep.toNat
    let s4 := (s3.modPower fun p => { p with jstep := p.pj.getD p.jstep, pj := p.pj2, pj2 := none }).updateRun
    let s5 := s4.writeBacking.advanceEpoch n
    let s6 :=
      if s5.stow.en ∧ 0 < s5.job.ival ∧ s5.job.sstep.toNat % s5.job.ival = 0 ∧ s5.job.js = 4 then
        s5.modStow fun w => { w with wait := true }
      else s5
    .next s6.atBoundary
  else .next s

/-! ## Ballast -/

/-- The job's tiles of a region. -/
def State.rampTiles (s : State) (r : Nat) : List Nat := s.job.tiles.filter fun t => decide (regionOf t = r)

/-- `BALLAST_RAMP_STEP` (R434): one sixty-fourth of duty up, once every job tile of the region has reported its part complete,
else down. (DESIGN CHOICE, log 18) -/
def execBallastRampStep (r : Nat) (s : State) : Out :=
  if 16 ≤ r then .fault (.noSuchUnit "region" r)
  else if s.job.js ≠ 4 then .next s
  else
    let l := s.rampTiles r
    let up := s.job.wave.doneAt || (s.job.exch && l.all fun t => (s.tile t).xs.part)
    let s1 := s.forAll l fun s t => s.modTile t fun x =>
      if x.st = 4 ∨ x.st = 5 then
        x.modMisc fun m => { m with duty := if up then min m.d0 (m.duty + 1) else m.duty - 1 }
      else x
    .next s1.backToCompute

/-- The slice of the ballast quantum of this superstep's arrival (R450). (DESIGN CHOICE, log 18) -/
def State.slice (s : State) : Nat :=
  (s.job.sstep.toNat - (if s.job.wave.doneAt then 1 else 0) + s.rel.balB0) % 4096

/-- The details of the parity errors that the reads of slice `k` find (R126, R442, R450, R452). (DESIGN CHOICE, log 18) -/
def Tile.sliceParity (x : Tile) (k : Nat) : List Nat :=
  let am := if (x.badAm (k % 1024) 1).isSome then [0x80000000 + k % 1024] else []
  let sp := if (x.badRow (k % 768) 1).isSome then [k % 768] else []
  let b := k / 64 % 2
  let sb := if (x.sbuf b).bad.any fun i => decide (i / 64 = k % 64) then [0x40000000 + 64 * b + k % 64] else []
  let ct := match x.badCoef (k % 64) with
    | some j => [coefDetail (k % 64) j]
    | none => []
  am ++ sp ++ sb ++ ct

/-- `BALLAST_QUANTUM` (R450 to R452): the arrived tile runs its slice; `bad` is the unit whose result mismatches, if any. (DESIGN CHOICE, log 18) -/
def execBallastQuantum (t : Nat) (bad : Option Nat) (s : State) : Out :=
  if 2304 ≤ t then .fault (.noSuchUnit "tile" t)
  else
    let x := s.tile t
    if s.job.js = 4 ∧ (x.st = 4 ∨ x.st = 5) ∧ ¬ x.misc.quantum then
      let k := s.slice
      let s1 := s.modTile t fun y => y.modMisc fun m => { m with quantum := true }
      let s2 := (x.sliceParity k).foldl (fun s d => s.tileFault t 4 0x05 d 0) s1
      match bad with
      | some u => .next (s2.tileFault t 4 0x0C (u % 256 * 2 ^ 24 + k) 0)
      | none => .next s2.backToCompute
    else .next s

end Sys2Proof.Machine
end

