-- ==== Sys2Proof/Machine/View.lean ====
section
/-! DEFINITION. The register window as it reads (chapter 20 and the register tables of the other chapters): the blocks, every
register of each, what a sleeping or unpowered block answers, and the records of a fix (R498). -/

namespace Sys2Proof.Machine

/-! ## Blocks (R521) -/

/-- A place in the register window: block, unit, offset. -/
inductive Place where
  | module (off : Nat)
  | llyn (p off : Nat)
  | hbm (k off : Nat)
  | region (r off : Nat)
  | cluster (c off : Nat)
  | tile (t off : Nat)
  | none
deriving DecidableEq, Repr

/-- The decode of R521. -/
def placeOf (a : Nat) : Place :=
  if a < 0x01000000 then .module a
  else if 0x10000000 ≤ a ∧ a < 0x10400000 then .llyn ((a - 0x10000000) / 0x20000) (a % 0x20000)
  else if 0x18000000 ≤ a ∧ a < 0x18800000 then .hbm ((a - 0x18000000) / 0x40000) (a % 0x40000)
  else if 0x20000000 ≤ a ∧ a < 0x21000000 then .region (a / 0x100000 % 16) (a % 0x100000)
  else if 0x30000000 ≤ a ∧ a < 0x30300000 then .cluster ((a - 0x30000000) / 0x4000) (a % 0x4000)
  else if 0x40000000 ≤ a ∧ a < 0x49000000 then .tile ((a - 0x40000000) / 0x10000) (a % 0x10000)
  else .none

/-- Whether the registers of a region's tiles and clusters answer (R528). -/
def State.regionOn (s : State) (r : Nat) : Bool := decide ((s.region r).pwr = 0) && !s.power.brown

/-! ## Tile block -/

/-- `TILE_QSTAT` q (R286). -/
def Tile.qstat (x : Tile) (q : Nat) : Word :=
  let y := x.queue q
  let waits := match x.qu.inbox with
    | some m => !(hTform m) && decide (hDq m = q)
    | none => false
  place 63 1 (bnat y.open_) ||| place 62 1 (bnat waits) ||| place 32 18 y.occ ||| place 0 32 y.drops.toNat

/-- `TILE_QPEEK` (R286): the eight bytes at the selected queue's head, or the head offset of an empty one. -/
def State.qpeek (s : State) (t : Nat) : Word :=
  let x := s.tile t
  let q := fld x.qu.sel 0 9
  let y := x.queue q
  let cfg := x.qcfg q
  if y.occ = 0 then place 32 32 y.head
  else
    let a := ringBase cfg + y.head
    wordAt (Map.slice 0 (if ringInCs cfg then (s.cluster (clusterOf t)).cs else x.sp) a 8) 0

/-- `TILE_PORT_STAT` and `TILE_PORT_TAGS` (R221). -/
def Tile.portStat (x : Tile) : Word := place 16 7 x.io.inflMax ||| place 0 7 x.io.tags.length
def Tile.portTags (x : Tile) : Word := x.io.tags.foldl (fun w g => w ||| place g.tag 1 1) 0

/-- `TILE_XSTAT` and `TILE_XCOUNT` (R234). -/
def Tile.xstat (x : Tile) : Word :=
  place 63 1 (bnat x.xs.part) ||| place 62 1 (bnat x.sq.x.ended) ||| place 32 16 x.xs.meet ||| place 0 10 x.xs.planIx
def Tile.xcount (x : Tile) : Word := place 32 32 x.xs.sent.toNat ||| place 0 32 x.xs.recv.toNat

/-- The valid bits of seal entries 48q to 48q + 47 (R119). -/
def Tile.sealValid (x : Tile) (q : Nat) : Word :=
  BitVec.ofNat 64 (maskOf 48 fun n => Map.get false x.misc.sealV (48 * q + n))

/-- A register of an awake tile (02, 03, 04, 05, 06, 07, 08, 09, 10, 11, 17, 18, 20). -/
def State.tileReg (s : State) (t off : Nat) : Word :=
  let x := s.tile t
  if off = 0x00 then s.tileState t
  else if off = 0x08 then x.fault
  else if off = 0x10 then x.faultTime
  else if [0x18, 0x20, 0x28, 0x30, 0x38, 0x40, 0x48, 0x410].contains off then x.reg off
  else if off = 0x50 then place 1 1 (bnat x.misc.refused)
  else if off = 0x400 then x.misc.ssq
  else if off = 0x408 then x.misc.norm
  else if off = 0x500 then x.portStat
  else if off = 0x508 then x.portTags
  else if off = 0x538 then BitVec.ofNat 64 ((x.misc.pf.map (·.2)).sum)
  else if off = 0x560 then x.misc.errAddr
  else if off = 0x600 then x.xstat
  else if off = 0x608 then x.xcount
  else if off = 0x740 then x.qu.sel
  else if off = 0x748 then s.qpeek t
  else if 0x800 ≤ off ∧ off < 0x980 then
    let q := (off - 0x800) / 8
    place 32 32 (Map.get 0 x.misc.sealE (2 * q + 1)).toNat ||| place 0 32 (Map.get 0 x.misc.sealE (2 * q)).toNat
  else if off = 0x980 ∨ off = 0x988 then x.sealValid ((off - 0x980) / 8)
  else if 0xA00 ≤ off ∧ off < 0xA80 then Map.get 0 x.misc.bp off
  else if off = 0xA80 ∨ off = 0xA88 then Map.get 0 x.misc.wp off
  else if off = 0xA90 then x.misc.dbg
  else if 0x1000 ≤ off ∧ off < 0x3000 then
    if off % 16 = 0 then x.qcfg ((off - 0x1000) / 16) else x.qstat ((off - 0x1000) / 16)
  else if 0x3000 ≤ off ∧ off < 0x4000 then Map.get 0 x.ctab ((off - 0x3000) / 8)
  else Map.get 0 x.ctr off

/-! ## Cluster, region and HBM blocks -/

/-- `CLUSTER_TOLL` (R57, R63) and `CLUSTER_CS_STAT` (R184). -/
def Cluster.tollReg (x : Cluster) : Word := place 16 6 x.heldMax ||| place 8 6 (x.cap - x.held) ||| place 0 6 x.cap
def Cluster.csStat (x : Cluster) (cycle exc : Nat) : Word :=
  place 16 5 (x.atArbiter cycle).length ||| place 8 1 (bnat (x.uch.any fun u => decide (exc < u.1))) ||| place 4 3 x.chMax ||| place 0 3 x.chans.length

/-- A register of an awake cluster (02, 06, 09, 16, 18). -/
def State.clusterReg (s : State) (c off : Nat) : Word :=
  let x := s.cluster c
  if off = 0x08 then x.fault
  else if off = 0x10 then x.faultTime
  else if off = 0x40 then x.tollReg
  else if off = 0x50 then x.csStat s.cycle s.power.exc
  else if 0x100 ≤ off ∧ off < 0x280 then (Map.get {} x.tally ((off - 0x100) / 8)).word
  else if 0x300 ≤ off ∧ off < 0x320 then Map.get 0 x.tw off
  else Map.get 0 x.ctr off

/-- The highest ballast duty in a region (15 `REGION_PWR.RAMP`). -/
def State.rampOf (s : State) (r : Nat) : Nat := (s.rampTiles r).foldl (fun m t => max m (s.tile t).misc.duty) 0

/-- `REGION_PWR` (chapter 15). (DEDUCED, log 25) -/
def State.regionPwr (s : State) (r : Nat) : Word :=
  let x := s.region r
  place 32 16 x.watts ||| place 24 8 x.temp ||| place 16 7 (s.rampOf r) ||| place 8 7 x.run |||
    place 5 1 (bnat x.defer.isSome) ||| place 4 1 (bnat x.stretch) ||| place 0 4 x.pwr

def State.regionReg (s : State) (r off : Nat) : Word :=
  let x := s.region r
  if off = 0x08 then x.fault
  else if off = 0x10 then x.faultTime
  else if off = 0x100 then s.regionPwr r
  else if off = 0x200 then place 2 1 (bnat x.rstBusy) ||| place 1 1 (bnat x.refused)
  else Map.get 0 x.ctr off

/-- `HBM_STAT` (R223). -/
def Stack.stat (x : Stack) : Word :=
  place 32 12 x.qmax ||| place 16 12 x.qdepth ||| place 8 8 x.temp ||| place 0 4 x.st

/-- A register of an HBM controller; of a region that is off, as reset with the state off (R528). -/
def State.hbmReg (s : State) (k off : Nat) : Word :=
  let x := s.stk k
  if (s.region (k / 2)).pwr = 2 then 0
  else if off = 0 then x.stat
  else Map.get 0 x.ctr off

/-! ## Llyn block (chapter 12) -/

def Port.link (x : Port) : Word :=
  place 63 1 (bnat x.rvalid) ||| place 48 10 x.rmod ||| place 40 5 x.rport ||| place 16 8 x.lanes ||| place 8 4 x.reason ||| place 0 4 x.st

def State.llynReg (s : State) (p off : Nat) : Word :=
  let x := s.port p
  if off = 0 then x.link
  else if off = 8 then
    place 63 1 (bnat x.en) ||| place 62 1 (bnat x.dl) ||| place 4 1 (bnat x.gvalid) ||| place 0 4 x.group
  else if off = 0x10 then place 32 32 x.delayPs.toNat ||| place 0 32 x.offPs.toNat
  else Map.get 0 x.ctr off

/-! ## Riendlink configuration space (chapter 13) -/

def State.rlStat (s : State) : Word :=
  place 16 16 s.rl.lanes ||| place 8 4 s.rl.reason ||| place 7 1 (bnat s.helm.run) ||| place 0 4 s.rl.st

/-- A register at a configuration-space offset. -/
def State.rlReg (s : State) (off : Nat) : Word :=
  let r := s.rl
  if off = 0 then 0x4B510F2400C00001
  else if off = 8 then s.rlStat
  else if off = 0x10 then r.mbxBase
  else if off = 0x18 then r.regBase
  else if off = 0x20 then r.hcwBase
  else if off = 0x28 then place 32 10 r.hcwSize ||| place 24 2 r.hcwStat ||| place 0 9 r.hcwReq
  else if 0x400 ≤ off ∧ off < 0x400 + 0x10 * 72 then
    let v := (off - 0x400) / 16
    if off % 16 = 0 then
      Map.get 0 r.msiA v ||| place 63 1 (bnat (!(Map.get false r.unmask v))) ||| place 62 1 (bnat (Map.get false r.pend v))
    else place 0 32 (Map.get 0 r.msiD v).toNat
  else if off < 0x400 then Map.get 0 r.ctr off
  else 0

/-! ## Module block -/

/-- `DEV_PWR_STAT.STATE` (R413); until the helm has started the field keeps its reset value (DEDUCED, log 25). -/
def State.pwrState (s : State) : Nat :=
  if s.power.deep = 1 then 2
  else if s.helm.stage = 0 ∨ s.job.img.isSome then 0
  else if (List.range 16).any fun r => decide ((s.region r).pwr = 0 ∨ (s.region r).pwr = 3) then 0
  else 1

/-- `DEV_PWR_STAT` (chapter 15). -/
def State.pwrStat (s : State) : Word :=
  let p := s.power
  place 18 1 (bnat p.brownF) ||| place 17 1 (bnat p.capmiss) ||| place 16 1 (bnat p.trip) ||| place 8 1 (bnat p.clamp) |||
    place 4 2 p.preq ||| place 0 4 s.pwrState

/-- `DEV_CLK` (R416 to R418). -/
def Power.clk (p : Power) : Word :=
  place 47 1 (bnat (p.pj.isSome || p.pj2.isSome)) ||| place 40 7 ((p.pj <|> p.pj2).getD 64) ||| place 24 7 p.curStep |||
    place 16 7 p.allow ||| place 8 7 p.jstep ||| place 0 7 p.run

/-- `DEV_HELM` (R402). -/
def Helm.word (h : Helm) : Word :=
  place 40 8 h.wdcnt ||| place 34 1 h.bank ||| place 33 1 (bnat h.staged) ||| place 32 1 (bnat h.run) ||| place 0 32 h.ver

/-- `DEV_REL_STAT` (chapter 16). -/
def Rel.stat (r : Rel) : Word :=
  place 56 8 (min 255 r.pendF.length) ||| place 32 16 (min 65535 r.retired.length) ||| place 24 8 r.failed.length |||
    place 16 8 r.fClus.length ||| place 0 12 r.fencedTiles.length

/-- `DEV_FIX_STAT` (chapter 18). -/
def Dbg.fixStat (d : Dbg) : Word :=
  place 63 1 (bnat d.latched) ||| place 62 1 (bnat d.late) ||| place 61 1 (bnat d.overF) ||| place 56 3 d.src |||
    place 48 5 d.armed ||| place 40 1 (bnat d.jobwide)

/-- The firmware bank that runs. -/
def Helm.cur (h : Helm) : FwBank := Map.get {} h.banks h.bank

/-- `DEV_SEC_STAT` (chapter 19): the fields of the running firmware read 0 until it runs. -/
def Helm.secStat (h : Helm) : Word :=
  let b := h.cur
  place 62 2 (if h.run then b.key else 0) ||| place 58 4 h.revoke ||| place 49 1 (bnat (!h.owner.isEmpty)) |||
    place 48 1 h.policy ||| place 47 1 (h.policy / 2) ||| place 16 16 (if h.run then b.svn else 0) ||| place 0 16 h.fuse

def State.stowCfg (s : State) : Word :=
  place 63 1 (bnat s.stow.en) ||| place 48 10 s.stow.partner ||| place 32 10 s.stow.area ||| place 0 32 s.stow.ports

/-- The host step limit as it acts (`DEV_FREQ_CTL`, chapter 15). -/
def Power.maxN (p : Power) : Nat := max 16 (min 64 p.maxn)

/-- Whether throttle reason k of R436 holds. -/
def State.throttled (s : State) (k : Nat) : Bool :=
  let p := s.power
  let limits := fun (n : Nat) => decide (n < 64 ∧ n = p.run)
  match k with
  | 0 => limits p.capStep || p.memLim
  | 1 => limits p.curStep
  | 2 => limits p.thermStep || (List.range 32).any fun k => (s.stk k).hot
  | 3 => (List.range 16).any fun r => (s.region r).stretch
  | 4 => p.clamp
  | 5 => decide (p.jstep < p.allow)
  | 6 => limits p.maxN
  | 7 => decide (s.rel.sgRun ≠ 0)
  | _ => s.job.tiles.any fun t => (s.tile t).io.arr.any fun o => !o.go && decide (0 < o.wait)

/-- `DEV_THROTTLE.ACTIVE` (R436). -/
def State.activeMask (s : State) : Nat := maskOf 9 s.throttled

/-- A register of the module block. -/
def State.modReg (s : State) (off : Nat) : Word :=
  let j := s.job
  let p := s.power
  if off = 0 then 0x4B510F2400C00001
  else if off = 8 then s.pins.scratch
  else if off = 0x10 then place 11 1 (bnat s.pins.changed) ||| place 8 3 s.pins.slotNow ||| place 0 3 s.pins.slot
  else if off = 0x10010 then j.sstep
  else if off = 0x10018 ∨ off = 0x100B0 ∨ off = 0x100B8 ∨ (0x10100 ≤ off ∧ off < 0x10140) ∨ off = 0x60038 then Map.get 0 j.ctr off
  else if off = 0x10080 then s.stowCfg
  else if off = 0x10088 then s.stow.stat
  else if off = 0x10090 then s.stow.sa
  else if off = 0x10098 then s.stow.sb
  else if off = 0x100C0 then s.stow.bytes
  else if 0x10000 ≤ off ∧ off < 0x30000 then j.reg off
  else if off = 0x30000 then s.net.modid
  else if 0x31000 ≤ off ∧ off < 0x33000 then Map.get 0 s.net.rt off
  else if 0x40000 ≤ off ∧ off < 0x41000 then s.rlReg (off - 0x40000)
  else if 0x50000 ≤ off ∧ off < 0x50400 then
    let g := s.page ((off - 0x50000) / 16)
    if off % 16 = 0 then place 0 16 g.ctail.toNat else place 16 16 g.chead.toNat ||| place 0 16 g.cqh.toNat
  else if off = 0x51000 then s.helm.word
  else if off = 0x60000 then p.chrono
  else if off = 0x60008 then p.clk
  else if off = 0x60010 then place 0 7 p.maxn
  else if off = 0x60018 then s.pwrStat
  else if off = 0x60020 then place 0 2 p.req
  else if off = 0x60028 then place 0 9 s.activeMask
  else if off = 0x60030 ∨ off = 0x90020 then j.reg off
  else if 0x60100 ≤ off ∧ off < 0x60148 then Map.get 0 p.thrNs ((off - 0x60100) / 8)
  else if off = 0x60200 then p.ledger
  else if off = 0x60208 then p.total
  else if 0x60210 ≤ off ∧ off < 0x60250 then Map.get 0 p.acct ((off - 0x60210) / 8)
  else if off = 0x70000 then s.rel.fault
  else if off = 0x70008 then s.rel.faultTime
  else if off = 0x70010 then place 0 12 s.rel.balBase
  else if off = 0x70018 then s.rel.stat
  else if off = 0x80000 then s.readyWord
  else if off = 0x80008 then s.readyMap0
  else if off = 0x80010 then s.readyMap1
  else if off = 0x90000 then place 1 1 (bnat s.dbg.wrote) ||| place 0 1 (bnat s.dbg.bpen)
  else if off = 0x90008 then s.dbg.fixStat
  else if off = 0x90010 then s.dbg.tick
  else if off = 0xA0000 then s.helm.secStat
  else 0

/-! ## Reads (R522 to R524, R528) -/

/-- The register at an offset of the register window. -/
def State.readReg (s : State) (a : Nat) : Word :=
  match placeOf a with
  | .module off => s.modReg off
  | .llyn p off => s.llynReg p off
  | .hbm k off => s.hbmReg k off
  | .region r off => s.regionReg r off
  | .cluster c off => if s.regionOn (c / 12) then s.clusterReg c off else 0
  | .tile t off => if s.regionOn (regionOf t) then s.tileReg t off else 0
  | .none => 0

/-! ## Fix records (R498) -/

/-- Words 2 to 7 of a tile's record: the marks. -/
def Tile.markWord (x : Tile) (q : Strm) (half : Nat) : Word :=
  (List.range 8).foldl (fun w k => w ||| place (8 * k) 7 (Map.get 0 (x.seq q).m (8 * half + k))) 0

/-- Word 10 of a tile's record. -/
def Tile.tollWord (x : Tile) : Word :=
  let head := x.io.arr.find? fun o => !o.go
  let hw := match head with
    | some o => place 8 3 (tollW o.w) ||| place 11 1 (bnat (decide (0 < o.wait)))
    | none => 0
  place 0 6 x.io.toll ||| hw ||| place 16 4 x.io.arr.length ||| place 24 5 x.io.vec.length ||| place 32 6 x.io.out.length

/-- Words 16 to 143 of a tile's record: four queues a word. -/
def Tile.queueWord (x : Tile) (i : Nat) : Word :=
  (List.range 4).foldl (fun w k =>
    let q := 4 * i + k
    let y := x.queue q
    w ||| place (16 * k) 14 (y.head / 8) ||| place (16 * k + 14) 1 (bnat y.open_) |||
      place (16 * k + 15) 1 (fld (x.qstat q) 62 1)) 0

/-- The record of a tile; zeros in a region that is not on. -/
def State.fixTile (s : State) (t : Nat) : List Word :=
  let x := s.tile t
  if s.tileOn t then
    [ s.tileState t,
      place 0 13 (x.pc .f) ||| place 16 13 (x.pc .b) ||| place 32 13 (x.pc .u) ||| place 48 13 (x.pc .x),
      x.markWord .f 0, x.markWord .f 1, x.markWord .b 0, x.markWord .b 1, x.markWord .u 0, x.markWord .u 1,
      x.portTags, x.portStat, x.tollWord, x.xcount, x.xstat, x.fault,
      place 0 32 (Map.get 0 x.sq.x.l 0).toNat ||| place 32 32 (Map.get 0 x.sq.x.l 1).toNat,
      place 0 32 (Map.get 0 x.sq.x.l 2).toNat ||| place 32 32 (Map.get 0 x.sq.x.l 3).toNat ] ++ (List.range 128).map x.queueWord
  else []

/-- Whether a stream of a tile stands at a `TWAIT` that may issue (R152). -/
def State.atTwait (s : State) (t : Nat) : Bool :=
  [Strm.f, .b, .u].any fun q => s.mayIssue t q && decide (fld (Map.get 0 (s.tile t).im ((s.tile t).slot q)) 56 8 = 0x72)

/-- The record of a cluster. (DEDUCED, log 37) -/
def State.fixCluster (s : State) (c : Nat) : List Word :=
  if s.regionOn (c / 12) then
    let x := s.cluster c
    let rot := s.cycle % 12
    [ x.tollReg, x.csStat s.cycle s.power.exc,
      place 0 4 rot ||| place 8 4 rot ||| place 16 12 (maskOf 12 fun l => s.atTwait (clusterTile c l)),
      x.fault ] ++ (List.range 48).map fun n => (Map.get {} x.tally n).word
  else []

/-- The record of a region; how many porter requests wait at its memory ports is a count the model leaves free (log 6). (DEDUCED, log 37) -/
def State.fixRegion (s : State) (r : Nat) : List Word :=
  [ s.regionPwr r, (s.region r).fault, s.hbmReg (2 * r) 0, s.hbmReg (2 * r + 1) 0, (s.port (2 * r)).link, (s.port (2 * r + 1)).link,
    place 0 16 (Config.freeNat s.free r), 0 ]

/-- The record of the module. -/
def State.fixModule (s : State) : List Word :=
  [ s.dbg.fixStat, s.dbg.tick, s.jobStatus.headD 0, s.job.sstep, s.power.clk, s.power.ledger, place 0 9 s.activeMask, s.pwrStat,
    s.rel.fault, s.stow.stat, place 0 32 s.job.epoch ]

/-- The key of a word of a record. -/
def fixKey (level unit word : Nat) : Nat := level * 2 ^ 24 + unit * 2 ^ 12 + word

/-- All records of a fix latched now. -/
def State.fixRecords (s : State) : Map Word :=
  let put := fun (l u : Nat) (ws : List Word) => Map.entries 0 (fixKey l u 0) ws
  ((List.range 2304).flatMap fun t => put 0 t (s.fixTile t)) ++ ((List.range 192).flatMap fun c => put 1 c (s.fixCluster c)) ++
    ((List.range 16).flatMap fun r => put 2 r (s.fixRegion r)) ++ put 3 0 s.fixModule

end Sys2Proof.Machine
end

