-- ==== Sys2Proof/Machine/Mailbox.lean ====
section
/-! DEFINITION. The mailbox (R378 to R389): doorbells and completion heads, how the helm takes a command, and the commands that
answer from the state or set plain settings. -/

namespace Sys2Proof.Machine

/-! ## Taking commands (R380, R381) -/

/-- The command code of an entry (R384). -/
def opcOf (e : List Word) : Nat := fld (e.headD 0) 56 8

/-- Word `i` of an entry. -/
def argOf (e : List Word) (i : Nat) : Word := e.getD i 0

/-- Whether a serial command whose doorbell came before the next one of page `k` has not completed (R381). `seen` counts the
commands of each page passed so far. -/
def State.serialAhead (s : State) (k : Nat) : List Nat → List Nat → Bool
  | [], _ => false
  | j :: rest, seen =>
    if j = k then false
    else isSerial (opcOf ((s.page j).entry (seen.count j))) || s.serialAhead k rest (j :: seen)

/-- Whether the helm may start the next command of page `k`: it is of code `opc`, and if serial it is its turn and no
power request waits for the last one (R439). (DEDUCED, log 45) -/
def State.mayStart (s : State) (k opc : Nat) : Bool :=
  s.canTake k && decide (opcOf ((s.page k).entry 0) = opc) &&
    (!(isSerial opc) || (s.helm.serialBusy.isNone && decide (s.power.preq ≠ 1) &&
      !(s.serialAhead k (s.helm.serial.map Prod.snd) [])))

/-- A helm command of page `k`: where its turn has come and its entry satisfies `sel`, the helm takes it and `body` acts on the
entry; else nothing happens. A non-zero reserved field of a command is unpredictable (R13, R387): the model ignores it (DESIGN CHOICE, log 50). (DESIGN CHOICE, log 1; DESIGN CHOICE, log 8; DEDUCED, log 45) -/
def helmCmd (k opc : Nat) (s : State) (sel : List Word → Bool) (body : State → List Word → State) : Out :=
  if 64 ≤ k then .fault (.noSuchUnit "mailbox page" k)
  else
    let e := (s.page k).entry 0
    if s.mayStart k opc && sel e then .next (body (s.take k) e) else .next s

/-- A command with one code that always starts. (DESIGN CHOICE, log 1) -/
def plainCmd (k opc : Nat) (s : State) (body : State → List Word → State) : Out := helmCmd k opc s (fun _ => true) body

/-! ## Doorbells (R379, R382, R383) -/

/-- Whether registers on the helm die answer: the die is powered and not in reset (R475, R528). -/
def State.regsOn (s : State) : Bool :=
  s.power.on && !s.power.brown && decide (s.power.deep ≠ 2) && decide (0 < s.helm.stage) && !s.pins.resetLow

/-- A doorbell of page `k` with `n` commands at time `now` joins those that wait: behind all of earlier ticks, and within its tick behind
those of its own and lower pages (R381). -/
def Helm.ring (h : Helm) (now k n : Nat) : Helm :=
  let first := fun (d : Nat × Nat) => decide (d.1 ≠ now ∨ d.2 ≤ k)
  { h with serial := h.serial.takeWhile first ++ List.replicate n (now, k) ++ h.serial.dropWhile first }

/-- A write of `DEV_MBX_DB` k: the doorbell. Commands with a code that is none are completed as they come to the front. -/
def State.doorbell (s : State) (k : Nat) (v : BitVec 16) : State :=
  let n := (v - (s.page k).ctail).toNat
  let s1 := s.modPage k fun p => { p with ctail := v }
  let s2 := s1.modHelm fun h => h.ring s.now k n
  s2.serveBad k 32

/-- A write of `DEV_MBX_CQ` k: consumed completion slots free, what was held is posted, and a command behind it can come to the front. -/
def State.freeSlots (s : State) (k : Nat) (v : BitVec 16) : State :=
  ((s.modPage k fun p => { p with cqh := v }).drainPage k 300).serveBad k 32

/-- `DEV_MBX_DB` (R379). -/
def execDevMbxDb (k : Nat) (v : Word) (s : State) : Out :=
  if 64 ≤ k then .fault (.noSuchUnit "mailbox page" k)
  else if s.regsOn then .next (s.doorbell k (v.setWidth 16)) else .next s

/-- `DEV_MBX_CQ` (R382). -/
def execDevMbxCq (k : Nat) (v : Word) (s : State) : Out :=
  if 64 ≤ k then .fault (.noSuchUnit "mailbox page" k)
  else if s.regsOn then .next (s.freeSlots k (v.setWidth 16)) else .next s

/-! ## Queries (R389, R390, R401, R436) -/

/-- `DEV_INFO` word 1 (R389, R529). -/
def devInfo1 : Word := 0x4B510F2400C00000

/-- The words of `DEV_INFO`; word 5 is the fuse level (R509). -/
def State.infoWords (s : State) : List Word :=
  [ devInfo1, place 0 32 s.helm.ver, s.net.modid, place 0 16 s.rel.fencedTiles.length ||| place 16 8 s.rel.fClus.length,
    place 0 16 s.helm.fuse ]

/-- `DEV_INFO`. -/
def execDevInfo (k : Nat) (s : State) : Out := plainCmd k 0x01 s fun s _ => s.complete k 0 s.infoWords

/-- `READY_QUERY` (R474). -/
def execReadyQuery (k : Nat) (s : State) : Out :=
  plainCmd k 0x02 s fun s _ => s.complete k 0
    [ place 0 18 (fld s.readyMap0 0 18), place 0 32 (fld s.readyMap0 32 32), s.readyMap1, place 0 16 (fld s.readyWord 0 16) ]

/-- `JOB_STATUS` (R390). -/
def execJobStatus (k : Nat) (s : State) : Out := plainCmd k 0x15 s fun s _ => s.complete k 0 s.jobStatus

/-- The cap in force (R406, R420). -/
def Power.cap (p : Power) : Nat :=
  if p.hostCap = 0 then (if p.smbCap = 0 then 8400 else p.smbCap)
  else if p.smbCap = 0 then p.hostCap else min p.hostCap p.smbCap

def hottest (l : List Nat) : Nat := l.foldl max 0

/-- The telemetry record of a selector (R401). (DEDUCED, log 25) -/
def State.telemRecord (s : State) (sel : Nat) : List Word :=
  let p := s.power
  let m := p.telem
  if sel = 0 then
    [ place 0 16 m.mv ||| place 16 16 m.cur10mA ||| place 32 16 m.watts ||| place 48 16 p.cap, p.telemNs,
      place 0 8 (hottest m.temps.dies) ||| place 8 8 (hottest m.temps.ios) ||| place 16 8 (hottest m.temps.stks) ||| place 24 8 p.ttgt,
      place 0 7 p.jstep ||| place 7 1 (bnat p.clamp) ||| place 8 1 (bnat p.trip) ]
  else
    let r := sel - 1
    [ place 0 16 (m.regW.getD r 0) ||| place 16 8 (m.temps.dies.getD r 0) ||| place 24 8 (m.temps.ios.getD r 0) |||
        place 32 8 (m.temps.stks.getD (2 * r) 0) ||| place 40 8 (m.temps.stks.getD (2 * r + 1) 0) ||| place 48 4 (s.region r).pwr,
      place 0 16 (m.regMv.getD r 0) ]

/-- `TELEMETRY_READ`. -/
def execTelemetryRead (k : Nat) (s : State) : Out :=
  plainCmd k 0x31 s fun s e =>
    let sel := (argOf e 1).toNat
    if 16 < sel then s.complete k 3 [] else s.complete k 0 (s.telemRecord sel)

/-- `LEDGER_READ` (R437, R438). -/
def execLedgerRead (k : Nat) (s : State) : Out :=
  plainCmd k 0x32 s fun s _ => s.complete k 0
    [ if s.job.img.isSome then s.power.ledger else 0, s.power.total, s.power.chrono, BitVec.ofNat 64 (s.now - s.power.fitNs) ]

/-- `THROTTLE_READ` (R436). -/
def execThrottleRead (k : Nat) (s : State) : Out :=
  plainCmd k 0x33 s fun s e =>
    let ns := fun i => Map.get 0 s.power.thrNs i
    if bit (argOf e 1) 0 then s.complete k 0 [ns 7, ns 8, place 0 9 s.activeMask]
    else s.complete k 0 ((List.range 7).map ns)

/-- How many units a fence map has, and whether one of them is fenced (R389, R458). -/
def fenceCount (kind : Nat) : Nat := if kind = 1 then 192 else if kind = 3 then 264 else 2304
def Rel.fenced (r : Rel) (kind u : Nat) : Bool :=
  match kind with
  | 0 => r.fencedTiles.contains u
  | 1 => r.fClus.contains u
  | 2 => r.fRtr.contains u
  | _ => r.fLink.contains u

/-- `FENCE_QUERY`. -/
def execFenceQuery (k : Nat) (s : State) : Out :=
  plainCmd k 0x34 s fun s e =>
    let kind := fld (argOf e 1) 0 2
    let base := 448 * fld (argOf e 1) 8 3
    if fenceCount kind ≤ base then s.complete k 3 []
    else s.complete k 0 ((List.range 7).map fun j =>
      BitVec.ofNat 64 (maskOf 64 fun b =>
        decide (base + 64 * j + b < fenceCount kind) && s.rel.fenced kind (base + 64 * j + b)))

/-! ## Settings (R389, R406, R455, R494) -/

/-- `CAP_SET`. -/
def execCapSet (k : Nat) (s : State) : Out :=
  plainCmd k 0x30 s fun s e =>
    let cap := fld (argOf e 1) 0 16
    let tg := fld (argOf e 1) 16 8
    if (cap ≠ 0 ∧ (cap < 2500 ∨ 8400 < cap)) ∨ (tg ≠ 0 ∧ (tg < 80 ∨ 100 < tg)) then s.complete k 3 []
    else
      let s1 := s.modPower fun p => { p with
        hostCap := if cap = 0 then p.hostCap else cap
        ttgt := if tg = 0 then p.ttgt else tg }
      s1.complete k 0 [place 0 16 s1.power.cap ||| place 16 8 s1.power.ttgt]

/-- `SIGHT_SCHEDULE`. -/
def execSightSchedule (k : Nat) (s : State) : Out :=
  plainCmd k 0x35 s fun s e =>
    let w := argOf e 1
    let h := fld w 0 16
    if 720 < h then s.complete k 3 []
    else
      let s1 := s.modRel fun r => { r with
        sgHours := if h = 0 then r.sgHours else h
        sgNow := r.sgNow || bit w 16
        sgStow := bit w 17 }
      s1.complete k 0 [BitVec.ofNat 64 s1.rel.sgLast, BitVec.ofNat 64 s1.rel.sgOut]

/-- A held fix is cleared (R494). -/
def Dbg.clearFix (d : Dbg) : Dbg := { d with latched := false, late := false, overF := false, recs := [], copied := false }

/-- `FIX_ARM`. -/
def execFixArm (k : Nat) (s : State) : Out :=
  plainCmd k 0x40 s fun s e =>
    let w := argOf e 1
    if s.dbg.latched ∧ bit w 9 = false then s.complete k 4 []
    else
      let s1 := s.modDbg fun d => { (if bit w 9 then d.clearFix else d) with
        armed := fld w 0 5
        jobwide := bit w 8
        trigNs := argOf e 2 }
      s1.complete k 0 []

/-- `FIX_READ` (R498). (DEDUCED, log 37) -/
def execFixRead (k : Nat) (s : State) : Out :=
  plainCmd k 0x41 s fun s e =>
    let w := argOf e 1
    if s.dbg.latched then
      let ws := (List.range 7).map fun i => Map.get 0 s.dbg.recs (fixKey (fld w 0 2) (fld w 4 12) (fld w 16 8 + i))
      let s1 := if bit w 31 then s.modDbg Dbg.clearFix else s
      s1.complete k 0 ws
    else s.complete k 2 []

/-! ## The chronometer (R389, R412) -/

/-- `CHRONO_ALIGN`, both modes: `MODE` 0 sets the chronometer. (DEDUCED, log 45) -/
def chronoAlign (k : Nat) (read : Bool) (s : State) : Out :=
  helmCmd k 0x61 s (fun e => decide (bit (argOf e 2) 0 = read)) fun s e =>
    if s.job.img.isSome then s.complete k 2 []
    else
      let before := s.power.chrono
      let s1 := if read then s else s.modPower fun p => { p with chrono := argOf e 1 }
      s1.complete k 0 [before, s1.power.chrono]

/-- `CHRONO_ALIGN` with `MODE` 0. -/
def execChronoAlignStep (k : Nat) (s : State) : Out := chronoAlign k false s

/-- `CHRONO_ALIGN` with `MODE` 1. -/
def execChronoAlignRead (k : Nat) (s : State) : Out := chronoAlign k true s

end Sys2Proof.Machine
end

