-- ==== Sys2Proof/Machine/Fix.lean ====
section
/-! DEFINITION. Fix (R494 to R498): the triggers that commands carry, the latch and the copy of its records. -/

namespace Sys2Proof.Machine

/-- The fix registers latch (R494 to R498): source, tick and every record; a held fix that a job fault replaces sets `OVER`. The
module drives `FIX_TRIG` low unless the latch came from there. (DEDUCED, log 37) -/
def State.latch (s : State) (src tick : Nat) (late : Bool) : State :=
  let s1 := s.modDbg fun d => { d with
    latched := true, late := late, overF := d.latched, src := src, tick := BitVec.ofNat 64 tick, pendSrc := none, pendJob := false
    trigLow := decide (src ≠ 4), copied := false }
  (s1.modDbg fun d => { d with recs := s1.fixRecords }).took

/-- `FIX_LATCH` (R495): the latch tick has come. -/
def execFixLatch (s : State) : Out :=
  match s.dbg.pendSrc with
  | none => .next s
  | some src =>
    if s.now < s.dbg.pendTick ∨ (s.dbg.latched ∧ ¬ s.dbg.pendJob) then .next s
    else .next (s.latch src s.dbg.pendTick false)

/-- `FIX_TIME_TRIGGER` (R494, R495): the armed time has come. -/
def execFixTimeTrigger (s : State) : Out :=
  let d := s.dbg
  if d.armed.testBit 0 ∧ ¬ d.latched ∧ d.pendSrc.isNone ∧ d.trigNs.toNat / 10 = s.now / 10 then
    .next (s.modDbg fun d => { d with pendSrc := some 0, pendTick := 10 * (s.now / 10) })
  else .next s

/-- `FIX_TRIG_EDGE` (R497). -/
def execFixTrigEdge (s : State) : Out := .next (s.fixTrigger 4 false)

/-- `FIX_COPY_DONE` (R498). -/
def execFixCopyDone (s : State) : Out :=
  if s.dbg.latched ∧ ¬ s.dbg.copied ∧ s.helm.run then .next ((s.modDbg fun d => { d with copied := true }).raiseMsi 67)
  else .next s

/-- The latch tick a `FIX` payload names: the latest tick with those low 18 bits no later than 20 µs ahead (R496). (DEDUCED, log 37) -/
def fixTickOf (now pay : Nat) : Nat :=
  let top := (now + 20000) / 10
  10 * (top - (top + 2 ^ 18 - pay % 2 ^ 18) % 2 ^ 18)

/-- A `FIX` for this member (R354, R495, R496): ignored while a fix is held unless it comes with a job fault; of two job faults' ticks the
earlier one holds. It goes on along the other edges of the tree; where several edges use its port, only while it is new. (DEDUCED, log 37) -/
def State.fixIn (s : State) (p pay : Nat) (fault : Bool) : State :=
  let d := s.dbg
  let at_ := fixTickOf s.now pay
  let fresh := if d.pendSrc.isSome then fault && (!d.pendJob || decide (at_ < d.pendTick)) else fault || !d.latched
  let s1 := if fresh ∨ (s.edges.filter fun e => decide (e.2.2 = p)).length ≤ 1 then
      s.sendAlong (s.edgesBut (some p)) fun peer => Sym.mkFix peer pay
    else s
  if ¬ fresh then s1
  else if at_ ≤ s.now then s1.latch 5 s.now true
  else s1.modDbg fun d => { d with pendSrc := some 5, pendTick := at_, pendJob := fault }

end Sys2Proof.Machine
end

