-- ==== Sys2Proof/Machine/Frames.lean ====
section
/-! DEFINITION. Frames as the links carry them (R334 to R337, R361): header and control words, check value, parity, and what forward error
correction makes of changed bytes. -/

namespace Sys2Proof

open Machine

/-! ## Words (R336, R337) -/

/-- Word 0 of a frame header (R336). -/
def headWord (seq ack : Nat) (nak rpl : Bool) (crJ0 crJ1 crSt : Nat) : Word :=
  place 52 12 seq ||| place 40 12 ack ||| place 39 1 (bnat nak) ||| place 38 1 (bnat rpl) ||| place 20 10 crJ0 ||| place 10 10 crJ1 |||
    place 0 10 crSt

/-- Word 1 of a frame header (R336). -/
def symWord : Option Sym → Word
  | none => 0
  | some y => place 60 4 y.code ||| place 32 28 y.pay

/-- The control word of a flit slot (R337). -/
def Flit.word (f : Flit) : Word :=
  place 62 2 f.vc ||| place 61 1 (bnat f.head) ||| place 60 1 (bnat f.tail) ||| place 59 1 (bnat f.ronly) ||| place 48 3 f.units |||
    place 0 48 f.chunk.toNat

/-- An empty slot (R337). -/
def Flit.empty : Flit := { vc := 3, head := false, tail := false, ronly := false, units := 0, chunk := 0, pay := zeros 128 }

/-- The flit a slot holds, by its control word and payload (R337). -/
def flitOf (w : Word) (pay : List Byte) : Flit :=
  { vc := fld w 62 2, head := bit w 61, tail := bit w 60, ronly := bit w 59, units := fld w 48 3
    chunk := BitVec.ofNat 48 (fld w 0 48), pay := pay }

/-! ## Codewords (R335, R361) -/

/-- The parity of `k` interleaved codewords of 122 data bytes, six bytes each (R335, R361). -/
def rsParity (k : Nat) (b : List Byte) : List Byte :=
  (List.range k).flatMap fun j => (List.range 6).map (Config.rsParity ((List.range 122).map fun i => b.getD (k * i + j) 0))

/-- The codeword byte `i` of a frame of `k` codewords belongs to. -/
def codewordOf (k i : Nat) : Nat := if i < 122 * k then i % k else (i - 122 * k) / 6 % k

/-- How many bytes of codeword `j` have changed. -/
def RxQuality.hits (q : RxQuality) (k j : Nat) : Nat := ((q.errs.eraseDups).filter fun i => decide (i < 128 * k ∧ codewordOf k i = j)).length

/-- Codewords with more changed bytes than the three a codeword corrects (R335). -/
def RxQuality.over (q : RxQuality) (k : Nat) : Nat := ((List.range k).filter fun j => decide (3 < q.hits k j)).length

/-- Codewords corrected, and codewords uncorrectable, of a frame of `k` (R335). -/
def RxQuality.ce (q : RxQuality) (k : Nat) : Nat :=
  ((List.range k).filter fun j => decide (0 < q.hits k j ∧ q.hits k j ≤ 3)).length + (if q.mis then q.over k else 0)
def RxQuality.ue (q : RxQuality) (k : Nat) : Nat := if q.mis then 0 else q.over k

/-- Whether the check value fails after correction: a codeword was taken for another one (R335). -/
def RxQuality.crcBad (q : RxQuality) (k : Nat) : Bool := q.mis && decide (0 < q.over k)

/-- Whether a frame is discarded (R335). -/
def RxQuality.bad (q : RxQuality) (k : Nat) : Bool := decide (0 < q.ue k) || q.crcBad k

/-! ## Frames as bytes (R334, R361) -/

/-- Bytes 0 to 967 of a Llyn frame. -/
def Frame.body (f : Frame) : List Byte :=
  wordBytes (headWord f.seq f.ack f.nak f.rpl f.crJ0 f.crJ1 f.crSt) ++ wordBytes (symWord f.sym) ++
    (List.range 7).flatMap fun i =>
      let g := f.flits.getD i Flit.empty
      wordBytes g.word ++ padTo 128 g.pay

/-- The 1,024 bytes of a Llyn frame (R334). -/
def Frame.bytes (f : Frame) : List Byte :=
  let b := f.body
  let c := b ++ natLe 4 (crc32c b).toNat ++ zeros 4
  c ++ rsParity 8 c

/-- The frame that corrected bytes hold, none where their check value fails (R334 to R337). -/
def frameOf (b : List Byte) : Option Frame :=
  if leNat ((b.drop 968).take 4) ≠ (crc32c (b.take 968)).toNat then none
  else
    let w := wordAt b 0
    let y := wordAt b 8
    some {
      seq := fld w 52 12, ack := fld w 40 12, nak := bit w 39, rpl := bit w 38
      crJ0 := fld w 20 10, crJ1 := fld w 10 10, crSt := fld w 0 10
      sym := if fld y 60 4 = 0 then none else some { code := fld y 60 4, pay := fld y 32 28 }
      flits := (List.range 7).map fun i => flitOf (wordAt b (16 + 136 * i)) ((b.drop (24 + 136 * i)).take 128) }

/-- The 256 bytes of a Riendlink frame (R361). -/
def RlFrame.bytes (f : RlFrame) : List Byte :=
  let b := wordBytes (headWord f.seq f.ack f.nak f.rpl f.crJ0 f.crJ1 f.crSt) ++ zeros 8 ++
    (List.range 14).flatMap fun i => padTo 16 (f.units.getD i [])
  let c := b ++ natLe 4 (crc32c b).toNat
  c ++ rsParity 2 c

end Sys2Proof
end

