-- ==== Sys2Proof/Machine/Llyn.lean ====
section
/-! DEFINITION. Llyn links (chapter 12): link states, frames with replay and credits, packets to and from flits, transit,
symbols, and what a port going down does. -/

namespace Sys2Proof.Machine

/-! ## Link states (R343 to R346) -/

/-- Whether a port may leave `OFF`: enabled, the module ID set, its region and the module powered (R345, R346, R413). -/
def State.portAllowed (s : State) (p : Nat) : Bool :=
  (s.port p).en && bit s.net.modid 63 && decide ((s.region (p / 2)).pwr ≠ 2) && decide (s.power.deep = 0) && !s.power.brown

/-- The flits of a port's receive buffer but for a packet whose tail has not come, by channel. -/
def wholePackets (l : List Flit) : List Flit :=
  let keep := fun (v : Nat) =>
    let m := l.filter fun f => decide (f.vc = v)
    (m.reverse.dropWhile fun f => !f.tail).reverse
  keep 0 ++ keep 1

/-- A port without link (R343): its replay buffer and credits are discarded, what it learnt of the far end is gone, the symbols it held are
lost. Flits it has received, and flits ready that it has not sent, stay. (DEDUCED, log 20) -/
def Port.dropped (x : Port) (st reason : Nat) : Port :=
  { x with
    st := st, reason := reason, lanes := 0, rvalid := false, aligns := 0, sends := [], stamps := [], seen := []
    rx := { buf := wholePackets x.rx.buf, tx := x.rx.tx, last := x.rx.last } }

/-- Whether a frame carries a job flit. -/
def Frame.hasJob (f : Frame) : Bool := f.flits.any fun g => decide (g.vc ≤ 1)

/-- The next `UP` port of a port's group, in ascending order with wrap (R350). -/
def State.nextUp (s : State) (p : Nat) : Option Nat :=
  if (s.port p).gvalid then
    let l := s.groupPorts (s.port p).group
    ((l.filter fun q => decide (p < q)) ++ l.filter fun q => decide (q < p)).find? s.portUp
  else none

/-- Splits ready flits into whole packets; a rest without its head, whose first flits have left, is given up. -/
def packetsOf : Nat → List Flit → List (List Flit)
  | 0, _ => []
  | n + 1, l =>
    match l with
    | [] => []
    | f :: _ => match l.findIdx? fun g => g.tail with
      | none => []
      | some i => (if f.head then [l.take (i + 1)] else []) ++ packetsOf n (l.drop (i + 1))

/-- The route record of a packet's flits. -/
def chunksOf (l : List Flit) : Nat := (l.zipIdx).foldl (fun a f => a + f.1.chunk.toNat * 2 ^ (48 * f.2)) 0
def bitsAt (r lo n : Nat) : Nat := r / 2 ^ lo % 2 ^ n
def recDmod (r : Nat) : Nat := bitsAt r 0 10
def recType (r : Nat) : Nat := bitsAt r 32 2

/-- The traffic that waits for a port which is not `UP` (R350): exchange packets take the next `UP` port of the group, messages are
discarded and the member faults, as it does where no port is left. (DEDUCED, log 20) -/
def State.reroute (s : State) (p : Nat) : State :=
  let pk := packetsOf (s.port p).rx.tx.length (s.port p).rx.tx
  let ex := pk.filter fun l => decide (recType (chunksOf l) ≠ 3)
  let out := s.net.rport.filter fun e => decide (e.1 = p)
  let lost := ((pk.filter fun l => decide (recType (chunksOf l) = 3)).map fun l => recDmod (chunksOf l)) ++
    (s.net.rmsg.filter fun e => decide (e.1 = p)).map fun e => hDmod e.2
  let s1 := (s.modNet fun n => { n with
    rport := n.rport.filter fun e => decide (e.1 ≠ p)
    rmsg := n.rmsg.filter fun e => decide (e.1 ≠ p) }).modPort p fun x => { x with rx := { x.rx with tx := [] } }
  let s2 := match s1.nextUp p with
    | some q => (s1.modPort q fun x => { x with rx := { x.rx with
        tx := x.rx.tx ++ (ex.flatten).map fun f => if x.dl then { f with vc := 1 } else f } }).modNet fun n => { n with
          rport := n.rport ++ out.map fun e => (q, e.2) }
    | none => ((ex.map fun l => recDmod (chunksOf l)) ++ out.map fun e => e.2.dmod).foldl (fun s d => s.linkRoute d p) s1
  lost.foldl (fun s d => s.linkRoute d p) s2

/-- The helm measures the latency of the tree edges on whose path a port has changed state anew (R354): at most five hops of 60 ns each, a
number the model leaves free. (DEDUCED, log 29) -/
def State.measure (s : State) (p : Nat) : State :=
  if s.helm.run ∧ s.edges.any (fun e => decide (e.2.2 = p)) = true then
    (s.modJob fun j => { j with cfg := s.edges.foldl (fun m e =>
      if e.2.2 = p then Map.mod 0 m (0x10200 + 8 * e.1) fun w => setFld w 0 16 (Config.freeNat s.free e.1 % 301) else m) j.cfg }).took
  else s

/-! ## Stow over the ports (R326, R330) -/

/-- Whether no port that carries stow traffic is up, or retrains with its traffic waiting. -/
def State.stowCut (s : State) : Bool := (List.range 32).all fun p => !(s.stow.ports.testBit p) || !(s.portUp p)

/-- A stow that cannot complete (R326, R447): its slot stays invalid, the member faults, an event tells the host. -/
def State.stowFail (s : State) (reason : Nat) : State :=
  let at_ := match s.stow.restore with
    | some v => v.toNat
    | none => ((s.stow.buf.map fun (m : Snap) => m.sstep).getD 0).toNat
  let s1 := s.modStow fun w => { w with busy := w.restore.isSome, sending := false, freeze := false, buf := none }
  let s2 := s1.devFault 0x41 (reason + at_ % 2 ^ 32 * 2 ^ 16)
  if s.stow.restore.isSome then s2 else s2.event 0xE2 [BitVec.ofNat 64 at_, s2.stow.stat]

/-- The last stow port is lost while a stow or a restore needs it (R326, R330). -/
def State.stowCheck (s : State) : State := if s.stow.busy ∧ s.stowCut ∧ s.job.js ≠ 6 then s.stowFail 1 else s

/-- A port goes to `OFF` where it may not be elsewhere, and to `DETECT` where it now may leave `OFF` (R345). -/
def State.refreshPort (s : State) (p : Nat) : State :=
  if s.portAllowed p then
    if (s.port p).st = 0 then s.modPort p fun x => { x with st := 1 } else s
  else if (s.port p).st = 0 then s
  else (((s.modPort p fun x => x.dropped 0 (if x.en then 9 else 8)).reroute p).measure p).stowCheck

def State.refreshPorts (s : State) : State := s.forAll (List.range 32) State.refreshPort

/-- A port enters `RETRAIN` (R343). (DEDUCED, log 20) -/
def State.startRetrain (s : State) (p reason : Nat) : State :=
  if (s.port p).st = 4 then (((s.modPort p fun x => { x with st := 5, reason := reason }).countPort p 0x138 1)).readyFrom s |>.measure p else s

/-- A port goes `DOWN` (R343, R344, R350): a job on this member faults where job flits were not acknowledged or its group has no `UP` port
left, other traffic of the port moves, stow blocks not confirmed are sent again by the ports that remain, of which a stow needs one (R326). (DEDUCED, log 20) -/
def State.portDown (s : State) (p reason : Nat) : State :=
  let x := s.port p
  let lost := x.rx.replay.any Frame.hasJob
  let stows := 128 * (x.rx.replay.flatMap fun f => f.flits.filter fun g => decide (g.vc = 2)).length
  let s1 := ((s.modPort p fun x => x.dropped 6 reason).countPort p 0x140 1).readyFrom s
  let s2 := s1.modStow fun w => { w with sentB := w.sentB - stows }
  let alone := x.gvalid && !((s2.groupPorts x.group).any fun q => decide ((s2.port q).st = 4))
  ((if s.job.img.isSome ∧ (lost ∨ alone) then s2.devFault 0x42 (p + reason * 2 ^ 8) else s2).reroute p).measure p |>.stowCheck

/-- `LLYN_DETECT_POLL` (R345): the far end's termination is seen, or not. -/
def execLlynDetectPoll (p : Nat) (seen : Bool) (s : State) : Out :=
  if 32 ≤ p then .fault (.noSuchUnit "port" p)
  else if (s.port p).st = 1 then
    .next (s.modPort p fun x => if seen then { x with st := 2 } else { x with reason := 1 })
  else .next s

/-- The three `LINK` symbols of this end (R346, R352). -/
def State.linkSyms (s : State) (p : Nat) : List Sym :=
  [ { code := 8, pay := s.modid * 2 ^ 16 + p * 2 ^ 11 },
    { code := 8, pay := 1 * 2 ^ 26 + fld s.net.modid 32 16 },
    { code := 8, pay := 2 * 2 ^ 26 + 1 } ]

/-- `LLYN_TRAIN_LOCK` (R345, R346): frame lock on all 8 lanes; the port enters `PARAM` and sends its `LINK` symbols. -/
def execLlynTrainLock (p : Nat) (s : State) : Out :=
  if 32 ≤ p then .fault (.noSuchUnit "port" p)
  else if (s.port p).st = 2 then
    .next (s.modPort p fun x => { x with
      st := 3, lanes := 0xFF, aligns := 0, sends := [], stamps := [], seen := []
      rx := { x.rx with syms := s.linkSyms p } })
  else .next s

/-- `LLYN_TRAIN_TIMEOUT` (R345): no frame lock within 40 ms, or the checks and exchanges of `PARAM` not done within 2 ms; a check that has
failed stays the reason (R346; DEDUCED, log 20). -/
def execLlynTrainTimeout (p : Nat) (s : State) : Out :=
  if 32 ≤ p then .fault (.noSuchUnit "port" p)
  else if (s.port p).st = 2 then .next (s.portDown p 2)
  else if (s.port p).st = 3 then
    .next (s.portDown p (if (s.port p).reason = 3 ∨ (s.port p).reason = 4 then (s.port p).reason else 2))
  else .next s

/-- `LLYN_TRAIN_RETRY` (R343). -/
def execLlynTrainRetry (p : Nat) (s : State) : Out :=
  if 32 ≤ p then .fault (.noSuchUnit "port" p)
  else if (s.port p).st = 6 ∧ s.portAllowed p = true then .next (s.modPort p fun x => { x with st := 2 }) else .next s

/-- `LLYN_RETRAIN_DONE` (R343): traffic resumes by replay. -/
def execLlynRetrainDone (p : Nat) (s : State) : Out :=
  if 32 ≤ p then .fault (.noSuchUnit "port" p)
  else if (s.port p).st = 5 then
    .next ((s.modPort p fun x => { x with st := 4, rx := { x.rx with disc := 0, resend := x.rx.replay } }).readyFrom s |>.measure p)
  else .next s

/-- `LLYN_RETRAIN_TIMEOUT` (R343). -/
def execLlynRetrainTimeout (p : Nat) (s : State) : Out :=
  if 32 ≤ p then .fault (.noSuchUnit "port" p)
  else if (s.port p).st = 5 then .next (s.portDown p 7) else .next s

/-- A port whose checks have passed and whose exchanges are done reaches `UP` (R345, R346, R356). -/
def State.paramCheck (s : State) (p : Nat) : State :=
  let x := s.port p
  let s1 := if 16 ≤ x.aligns then s.modPower fun w => { w with align := Map.set 0 w.align p x.delayPs } else s
  if x.st = 3 ∧ 16 ≤ x.aligns ∧ [0, 1, 2].all x.seen.contains then
    ((s1.modPort p fun x => { x with st := 4, rvalid := true, reason := 0 }).readyFrom s).measure p
  else s1

/-- A `LINK` symbol in `PARAM` (R346): index 0 module and port, 1 fabric, 2 version. A wrong one keeps the port in `PARAM` and
sets `REASON`. (DEDUCED, log 20) -/
def State.linkIn (s : State) (p idx val : Nat) : State :=
  if (s.port p).st = 3 then
    let good := fun (f : Port → Port) => (s.modPort p fun x => { f x with seen := (idx :: x.seen).eraseDups }).paramCheck p
    let bad := fun (r : Nat) => s.modPort p fun x => { x with reason := r }
    if idx = 0 then
      let m := val / 2 ^ 16 % 1024
      let s1 := s.modPort p fun x => { x with rmod := m, rport := val / 2 ^ 11 % 32 }
      if m = s.modid then s1.modPort p fun x => { x with reason := 4 }
      else (s1.modPort p fun x => { x with seen := (0 :: x.seen).eraseDups }).paramCheck p
    else if idx = 1 then (if val % 2 ^ 16 = fld s.net.modid 32 16 then good id else bad 3)
    else (if val % 256 = 1 then good id else bad 3)
  else s

/-! ## Chronometer exchange (R355, R356) -/

/-- The chronometer in quarter-nanoseconds, low 27 bits (R352). -/
def State.stamp (s : State) : Nat := 4 * s.now % 2 ^ 27

/-- `ALIGN_EXCHANGE_TIMER` (R355): the port sends its stamps: the send stamp, and the receive stamp of the last `ALIGN` accepted. -/
def execAlignExchangeTimer (p : Nat) (s : State) : Out :=
  if 32 ≤ p then .fault (.noSuchUnit "port" p)
  else if (s.port p).st = 3 ∨ (s.port p).st = 4 then
    let s1 := s.queueSym p { code := 7, pay := s.stamp }
    let r := Map.get 0 (s.port p).stamps 3
    let s2 := if r = 0 then s1 else s1.queueSym p { code := 7, pay := 2 ^ 27 + (r - 1) }
    .next (s2.modPort p fun x => { x with sends := x.sends ++ [s.stamp] })
  else .next s

/-- A difference of two stamps, signed (27 bits). -/
def stampDiff (a b : Nat) : Int := sextNat 27 ((a + 2 ^ 27 - b) % 2 ^ 27)

/-- The four stamps are in: one-way delay, after the calibrated latencies, and far offset in picoseconds, one exchange more (R355).
(DEDUCED, log 20) -/
def Port.alignEnd (x : Port) (p : Nat) : Port :=
  let v := fun i => Map.get 0 x.stamps i
  if [0, 1, 2, 3].all fun i => decide (0 < v i) then
    let d1 := stampDiff (v 1 - 1) (v 0 - 1)
    let d2 := stampDiff (v 3 - 1) (v 2 - 1)
    { x with
      delayPs := BitVec.ofInt 32 ((d1 + d2) * 125 - Config.linkCal p)
      offPs := BitVec.ofInt 32 ((d1 - d2) * 125)
      aligns := x.aligns + 1
      stamps := Map.set 0 (Map.set 0 x.stamps 0 0) 1 0 }
  else x

/-- The `ALIGN`s of a port whose frames the far end has acknowledged: the last of them is the one its next receive stamp is of (R352, R355;
DEDUCED, log 20). -/
def Port.alignAcked (x : Port) (acked : List Frame) : Port :=
  let l := acked.filterMap fun f => match f.sym with
    | some y => if y.code = 7 ∧ y.pay < 2 ^ 27 then some y.pay else none
    | none => none
  match l.getLast? with
  | some v => if x.sends.contains v then { x with sends := x.sends.dropWhile fun k => decide (k ≠ v) } else x
  | none => x

/-- An `ALIGN` symbol (R355): ignored in a replayed frame. A receive stamp belongs to the oldest send stamp it can be of. -/
def State.alignIn (s : State) (p : Nat) (recv rpl : Bool) (stamp : Nat) : State :=
  if ((s.port p).st = 3 ∨ (s.port p).st = 4) ∧ ¬ rpl then
    let v := 1 + stamp % 2 ^ 27
    (s.modPort p fun x =>
      (if recv then
        match x.sends with
        | [] => x
        | k :: rest => { x with sends := rest, stamps := Map.set 0 (Map.set 0 x.stamps 0 (1 + k)) 1 v }
      else { x with stamps := Map.set 0 (Map.set 0 x.stamps 2 v) 3 (1 + s.stamp) }).alignEnd p).paramCheck p
  else s

/-- The port whose far chronometer this module follows (R355): a member of a job its sync-tree parent, any other module its `UP` neighbour
with the lowest module ID below its own. -/
def State.follows (s : State) : Option Nat :=
  if s.job.img.isSome then s.parentEdge.map fun e => e.2.2
  else
    let l := (List.range 32).filter fun p => decide ((s.port p).st = 4 ∧ (s.port p).rmod < s.modid)
    l.find? fun p => l.all fun q => decide ((s.port p).rmod ≤ (s.port q).rmod)

/-- The exchange cycles of the present 10 ns tick: 17, one more or less where the module follows a chronometer it is ahead of or behind. By
how much, up to 0.1% (one cycle in 1,000), is free (R355; DESIGN CHOICE, log 20). -/
def State.tickLen (s : State) : Nat :=
  match s.follows with
  | none => 17
  | some p =>
    let off := (s.port p).offPs.toInt
    if s.power.exc < s.power.slewAt + 1000 ∨ Config.freeNat s.free (2 ^ 22) % 2 = 0 then 17
    else if off < 0 then 18
    else if 0 < off then 16
    else 17

/-! ## Symbols (R352 to R354) -/

/-- Whether a symbol's code and payload are well formed (R352). (DEDUCED, log 29) -/
def Sym.good (y : Sym) : Bool :=
  match y.code with
  | 1 | 2 => decide (16 ≤ Sym.low y ∧ Sym.low y ≤ 64)
  | 3 | 4 => decide (Sym.low y = 0)
  | 5 | 6 | 7 => true
  | 8 => decide (y.pay / 2 ^ 26 ≠ 3)
  | _ => false

/-- A symbol for another module goes on by R349 with K = 0; with no `UP` port in its group it is lost (R350, R353). (DEDUCED, log 29) -/
def State.forwardSym (s : State) (y : Sym) : State :=
  match s.route (Sym.dmod y) (if y.code = 6 then 0 else Sym.smod y) true with
  | .inr q => s.queueSym q y
  | .inl _ => s

/-- A `STOP` for this member (R354, R449): it stops, records `REMOTE` with the origin and the code, and forwards. (DEDUCED, log 19) -/
def State.stopIn (s : State) (p smod code : Nat) : State :=
  if s.job.img.isSome ∧ s.job.js ≠ 6 then s.devFault 0x4F (smod + code * 2 ^ 16) (some p) (some smod) else s

/-- A symbol accepted from a port: ignored and counted where malformed (R352), forwarded where not for this module, wave symbols
held for R354. (DEDUCED, log 29) -/
def State.symIn (s : State) (p : Nat) (y : Sym) (rpl fault : Bool) : State :=
  if !(Sym.good y) then s.countPort p 0x150 1
  else if y.code = 8 then s.linkIn p (y.pay / 2 ^ 26) (y.pay % 2 ^ 26)
  else if y.code = 7 then s.alignIn p (y.pay.testBit 27) rpl (y.pay % 2 ^ 27)
  else if (s.port p).st ≠ 4 then s
  else if Sym.dmod y ≠ s.modid then s.forwardSym y
  else if y.code = 5 then s.stopIn p (Sym.smod y) (Sym.low y)
  else if y.code = 6 then s.fixIn p (y.pay % 2 ^ 18) fault
  else if s.job.img.isSome then s.modWave fun v => { v with held := v.held ++ [(p, y)] }
  else s

/-- A symbol command: port in range. -/
def symCmd (p : Nat) (y : Sym) (rpl fault : Bool) (s : State) : Out :=
  if 32 ≤ p then .fault (.noSuchUnit "port" p) else .next (s.symIn p y rpl fault)

/-- `ARRIVE` (R352). -/
def execArrive (p dmod smod n : Nat) (s : State) : Out := symCmd p (Sym.mk5 1 dmod smod n) false false s
/-- `GO` (R352). -/
def execGo (p dmod smod n : Nat) (s : State) : Out := symCmd p (Sym.mk5 2 dmod smod n) false false s
/-- `PART` (R352). -/
def execPart (p dmod smod : Nat) (s : State) : Out := symCmd p (Sym.mk5 3 dmod smod 0) false false s
/-- `DONE` (R352). -/
def execDone (p dmod smod : Nat) (s : State) : Out := symCmd p (Sym.mk5 4 dmod smod 0) false false s
/-- `STOP` (R352, R449). -/
def execStop (p dmod smod code : Nat) (s : State) : Out := symCmd p (Sym.mk5 5 dmod smod code) false false s
/-- `FIX` (R352, R496). (DEDUCED, log 29) -/
def execFix (p dmod tick : Nat) (fault : Bool) (s : State) : Out := symCmd p (Sym.mkFix dmod tick) false fault s
/-- `ALIGN` (R352, R355). -/
def execAlign (p : Nat) (recv rpl : Bool) (stamp : Nat) (s : State) : Out :=
  symCmd p { code := 7, pay := (if recv then 2 ^ 27 else 0) + stamp % 2 ^ 27 } rpl false s
/-- `LINK` (R346, R352). -/
def execLink (p idx val : Nat) (s : State) : Out := symCmd p { code := 8, pay := idx % 4 * 2 ^ 26 + val % 2 ^ 26 } false false s

/-- A wave symbol acts (R225, R352, R417): of a child its arrival or part-complete, of the parent the release. (DEDUCED, log 29) -/
def State.waveAct (s : State) (y : Sym) : State :=
  let child := s.childEdges.find? fun e => decide (e.2.1 = Sym.smod y)
  let fromParent := s.parentEdge.any fun e => decide (e.2.1 = Sym.smod y)
  match y.code, child with
  | 1, some e => (s.modWave fun v => { v with arrFrom := (v.arrFrom.filter fun a => decide (a.1 ≠ e.2.2)) ++ [(e.2.2, Sym.low y)] }).ownReport
  | 3, some e => (s.modWave fun v => { v with partFrom := (e.2.2 :: v.partFrom).eraseDups }).doneReport
  | 2, _ => if fromParent ∧ s.job.wave.arrSent then s.modWave fun v => { v with go := some (Sym.low y) } else s
  | 4, _ => if fromParent ∧ s.job.wave.partSent then s.modWave fun v => { v with done := true } else s
  | _, _ => s

/-- `SYMBOL_HOLD_RELEASE` (R354): held symbol `i` has been held for its time; symbols of one port act in order. (DEDUCED, log 29) -/
def execSymbolHoldRelease (i : Nat) (s : State) : Out :=
  match s.job.wave.held[i]? with
  | none => .next s
  | some h =>
    if (s.job.wave.held.take i).any fun g => decide (g.1 = h.1) then .next s
    else .next ((s.modWave fun v => { v with held := v.held.eraseIdx i }).waveAct h.2)

/-! ## Packets as flits (R337, R338) -/

/-- The type of a packet (R338) is its kind. The route record and its length in bits. (DEDUCED, log 28) -/
def Pkt.record (p : Pkt) : Nat × Nat :=
  let bend := bnat p.last
  let head := p.dmod % 1024 + p.smod % 1024 * 2 ^ 10 + p.stile % 4096 * 2 ^ 20 + p.kind % 4 * 2 ^ 32 + bend * 2 ^ 34
  if p.kind = 1 then
    let t := p.tile
    (head + p.rix % 256 * 2 ^ 38 + t % 4096 * 2 ^ 48 + p.meete % 64 * 2 ^ 60 + p.cix % 8 * 2 ^ 66 + bnat p.int * 2 ^ 69 +
      bend * p.crc.toNat * 2 ^ 70, 70 + 32 * bend)
  else
    let n := p.rects.length
    let rs := (p.rects.zipIdx).foldl (fun a r => a + fld r.1 0 24 * 2 ^ (48 + 24 * r.2)) 0
    (head + (n - 1) % 8 * 2 ^ 35 + (if p.kind = 0 then p.row % 1024 * 2 ^ 38 else 0) + rs + bend * p.crc.toNat * 2 ^ (48 + 24 * n),
      48 + 24 * n + 32 * bend)

def Msg.record (m : Msg) : Nat × Nat :=
  (hDmod m + hSmod m * 2 ^ 10 + hStile m * 2 ^ 20 + 3 * 2 ^ 32 + hDtile m * 2 ^ 48, 60)

/-- The flits of a packet: the record in chunks of 48 bits from the head, route-only flits first where the payload has too few. (DEDUCED, log 28) -/
def flitsOf (record : Nat × Nat) (vc : Nat) (pay : List Byte) : List Flit :=
  let n := (pay.length + 127) / 128
  let c := (record.2 + 47) / 48
  let ro := c - n
  let total := n + ro
  (List.range total).map fun i =>
    let d := (pay.drop (128 * (i - ro))).take 128
    { vc := vc, head := decide (i = 0), tail := decide (i + 1 = total), ronly := decide (i < ro)
      units := if i < ro then 0 else (d.length + 15) / 16 - 1
      chunk := BitVec.ofNat 48 (record.1 / 2 ^ (48 * i) % 2 ^ 48)
      pay := if i < ro then zeros 128 else padTo 128 d }

/-- The bytes of a message (R260). -/
def Msg.bytes (m : Msg) : List Byte := wordBytes m.h0 ++ wordBytes m.h1 ++ m.pay

/-- The payload of a packet's flits. -/
def payOf (l : List Flit) : List Byte :=
  (l.filter fun f => !f.ronly).flatMap fun f => f.pay.take (16 * (f.units % 8 + 1))

def recRects (r : Nat) : List Word := (List.range (bitsAt r 35 3 + 1)).map fun k => BitVec.ofNat 64 (bitsAt r (48 + 24 * k) 24)

/-- The tile the hash of R349 adds: of a message its destination, of a contribution its meet, of a send the first of rectangle 0. -/
def recTile (r : Nat) : Nat :=
  if recType r = 3 ∨ recType r = 1 then bitsAt r 48 12
  else
    let q := (recRects r).headD 0
    tileAt (rectX0 q) (rectY0 q)

/-- The packet of types 0 to 2. (DEDUCED, log 28) -/
def recPkt (r : Nat) (d : List Byte) : Pkt :=
  let ty := recType r
  let bend := bitsAt r 34 1 = 1
  let n := bitsAt r 35 3 + 1
  { kind := ty, dmod := recDmod r, smod := bitsAt r 10 10, stile := bitsAt r 20 12
    rects := if ty = 1 then [rectOf (bitsAt r 48 12)] else recRects r
    row := bitsAt r 38 10
    rix := bitsAt r 38 8
    meete := bitsAt r 60 6
    cix := bitsAt r 66 3
    int := decide (ty = 1) && decide (bitsAt r 69 1 = 1)
    one := decide (d.length ≤ 128)
    first := decide (d.length ≤ 128)
    last := decide bend
    crc := BitVec.ofNat 32 (if ty = 1 then bitsAt r 70 32 else bitsAt r (48 + 24 * n) 32)
    data := d }

/-! ## Frames out (R334, R336, R339 to R341) -/

def addAt (l : List Nat) (i n : Nat) : List Nat := (l.zipIdx).map fun p => if p.2 = i then p.1 + n else p.1
def subAt (l : List Nat) (i n : Nat) : List Nat := (l.zipIdx).map fun p => if p.2 = i then p.1 - n else p.1

/-- Packets and messages that wait for a port become its job flits: on `JOB0`, or on `JOB1` from a dateline port (R341), once every region
on their way to the edge router is awake (R28, R345). -/
def State.loadTx (s : State) (p : Nat) : State :=
  let vc := bnat (s.port p).dl
  let a := (s.net.rport.filter fun e => decide (e.1 = p)).takeWhile fun e => s.pathOn e.2.src (edgeTile p)
  let b := (s.net.rmsg.filter fun e => decide (e.1 = p)).takeWhile fun e => s.pathOn (hStile e.2) (edgeTile p)
  let fl := (a.flatMap fun e => flitsOf e.2.record vc e.2.data) ++ b.flatMap fun e => flitsOf e.2.record vc e.2.bytes
  (s.modNet fun n => { n with
    rport := (n.rport.filter fun e => decide (e.1 ≠ p)) ++ (n.rport.filter fun e => decide (e.1 = p)).drop a.length
    rmsg := (n.rmsg.filter fun e => decide (e.1 ≠ p)) ++ (n.rmsg.filter fun e => decide (e.1 = p)).drop b.length }).modPort p fun x =>
      { x with rx := { x.rx with tx := x.rx.tx ++ fl } }

/-- Where in the ready flits the next job flit is (R340): of the packet begun, else the first `JOB1` head, else the first `JOB0`
head, each with a credit. -/
def LinkRx.pick (x : LinkRx) : Option Nat :=
  match x.tx with
  | [] => none
  | f :: _ =>
    let ok := fun (v : Nat) => decide (0 < x.cred.getD v 0)
    if f.head then
      match x.tx.findIdx? fun g => g.head && decide (g.vc = 1) && ok 1 with
      | some i => some i
      | none => x.tx.findIdx? fun g => g.head && decide (g.vc = 0) && ok 0
    else if ok f.vc then some 0 else none

/-- The flit at `i` leaves; the rest of its packet comes next. -/
def LinkRx.sendFlit (x : LinkRx) (i : Nat) : LinkRx × List Flit :=
  match x.tx.drop i with
  | [] => (x, [])
  | f :: rest =>
    let n := if f.tail then 0 else ((rest.findIdx? fun g => g.tail).map (· + 1)).getD rest.length
    ({ x with tx := rest.take n ++ x.tx.take i ++ rest.drop n, cred := subAt x.cred f.vc 1 }, [f])

/-- The seven slots of one frame: flits and empty slots, the link layer after them, whether a job flit lacked a credit. `stow` slots may take a
stow flit of unpredictable payload (its bytes are windows and freeze image, whose packing the spec does not give). (DESIGN CHOICE, log 30) -/
def fillSlots (free : Nat) (stow : Bool) : Nat → LinkRx → List Flit → Bool → LinkRx × List Flit × Bool
  | 0, x, l, w => (x, l, w)
  | n + 1, x, l, w =>
    match x.pick with
    | some i => let r := x.sendFlit i; fillSlots free stow n r.1 (l ++ r.2) w
    | none =>
      let w' := w || !x.tx.isEmpty
      if stow ∧ 0 < x.cred.getD 2 0 then
        let f : Flit := {
          vc := 2, head := true, tail := true, ronly := false, units := 7, chunk := 0
          pay := (List.range 128).map fun j => Config.freeByte free (128 * n + j) }
        fillSlots free stow n { x with cred := subAt x.cred 2 1 } (l ++ [f]) w'
      else fillSlots free stow n x (l ++ [Flit.empty]) w'

/-- Whether the stow mover has bytes for a port (R323 to R325, R330). (DESIGN CHOICE, log 30) -/
def State.moverWants (s : State) (p : Nat) : Bool :=
  s.stow.sending && decide (s.stow.sentB < s.stow.total) && s.stow.ports.testBit p && !s.power.clamp

/-- The header fields written fresh (R336). -/
def LinkRx.fresh (x : LinkRx) (f : Frame) (rpl : Bool) : Frame :=
  { f with
    ack := x.ackRx, nak := x.nak, rpl := rpl
    crJ0 := x.freed.getD 0 0 % 1024, crJ1 := x.freed.getD 1 0 % 1024, crSt := x.freed.getD 2 0 % 1024 }

/-- A Llyn port sends one frame (R334, R340, R342). (DESIGN CHOICE, log 30) -/
def State.llynSend (s : State) (p : Nat) : State :=
  let st := (s.port p).st
  if st ≠ 3 ∧ st ≠ 4 then s
  else
    match (s.port p).rx.resend with
    | f :: rest =>
      let s1 := s.modPort p fun x =>
        { x with rx := { x.rx with resend := rest, last := (x.rx.fresh f true).bytes } }
      s1.countPort p 0x130 1
    | [] =>
      let s0 := if st = 4 then s.loadTx p else s
      let x := (s0.port p).rx
      let r := if st = 4 then fillSlots s.free (s.moverWants p) 7 x [] false else (x, List.replicate 7 Flit.empty, false)
      let y := r.1
      let f0 : Frame := {
        seq := y.seq, ack := 0, nak := false, rpl := false, crJ0 := 0, crJ1 := 0, crSt := 0
        sym := y.syms.head?
        flits := r.2.1 }
      let f := y.fresh f0 false
      let jobs := (r.2.1.filter fun g => decide (g.vc ≤ 1)).length
      let stows := (r.2.1.filter fun g => decide (g.vc = 2)).length
      let s1 := s0.modPort p fun x => { x with
        rx := { y with
          seq := (y.seq + 1) % 4096
          syms := y.syms.drop 1
          replay := (y.replay ++ [f]).drop ((y.replay.length + 1) - 256)
          last := f.bytes } }
      let s2 := ((s1.countPort p 0x100 jobs).countPort p 0x110 stows).countPort p 0x148 (if r.2.2 then 4 else 0)
      (s2.modStow fun w => { w with
        sentB := min w.total (w.sentB + 128 * stows)
        bytes := w.bytes + BitVec.ofNat 64 (min w.total (w.sentB + 128 * stows) - w.sentB) }).took

/-! ## Frames in (R335, R336, R339, R342) -/

/-- The frames a header acknowledges. -/
def LinkRx.acked (x : LinkRx) (fr : Frame) : List Frame :=
  match x.replay.findIdx? fun f => decide (f.seq = fr.ack) with
  | some i => x.replay.take (i + 1)
  | none => []

/-- What a good frame's header says: frames acknowledged leave the replay buffer, `NAK` asks for the rest again, credits return. (DEDUCED, log 20) -/
def LinkRx.header (x : LinkRx) (fr : Frame) : LinkRx :=
  let rest := match x.replay.findIdx? fun f => decide (f.seq = fr.ack) with
    | some i => x.replay.drop (i + 1)
    | none => x.replay
  let back := [fr.crJ0, fr.crJ1, fr.crSt]
  { x with
    replay := rest
    resend := if fr.nak then rest else x.resend
    cred := (List.range 3).map fun i => x.cred.getD i 0 + (back.getD i 0 + 1024 - x.seenCr.getD i 0) % 1024
    seenCr := back }

/-- `LLYN_FRAME_RECEIVE` (R335, R342, R343): a frame arrives at a port; `q` is what FEC and CRC found. -/
def execLlynFrameReceive (p : Nat) (fr : Frame) (q : RxQuality) (s : State) : Out :=
  if 32 ≤ p then .fault (.noSuchUnit "port" p)
  else if (s.port p).st ≠ 3 ∧ (s.port p).st ≠ 4 then .next s
  else
    let bad := q.bad 8
    let s1 := ((s.countPort p 0x118 (q.ce 8)).countPort p 0x120 (q.ue 8)).countPort p 0x128 (bnat (q.crcBad 8))
    let expect := ((s.port p).rx.ackRx + 1) % 4096
    if bad then
      let s2 := s1.modPort p fun x => { x with rx := { x.rx with nak := true, disc := x.rx.disc + (if fr.seq = expect then 1 else 0) } }
      .next (if 8 ≤ (s2.port p).rx.disc then s2.startRetrain p 6 else s2)
    else
      let s2 := s1.modPort p fun x => { x.alignAcked (x.rx.acked fr) with rx := x.rx.header fr }
      if fr.seq ≠ expect then .next (s2.modPort p fun x => { x with rx := { x.rx with nak := true } })
      else
        let jobs := fr.flits.filter fun f => decide (f.vc ≤ 1)
        let stows := (fr.flits.filter fun f => decide (f.vc = 2)).length
        let s3 := (s2.modPort p fun x => { x with
          rx := { x.rx with
            ackRx := expect, nak := false, disc := 0
            buf := x.rx.buf ++ jobs
            freed := addAt x.rx.freed 2 stows } }).countPort p 0x108 jobs.length
        match fr.sym with
        | some y => .next (s3.symIn p y fr.rpl (decide (s.job.js = 6)))
        | none => .next s3

/-! ## Packets in and through (R236, R351, R469) -/

/-- The oldest whole packet a port has received on a channel. -/
def LinkRx.front (x : LinkRx) (vc : Nat) : Option (List Flit) :=
  let l := x.buf.filter fun f => decide (f.vc = vc)
  (l.findIdx? fun f => f.tail).map fun i => l.take (i + 1)

/-- The oldest packet of either channel, `JOB1` first, that satisfies `sel` on its route record. (DEDUCED, log 28) -/
def LinkRx.frontBy (x : LinkRx) (sel : Nat → Bool) : Option (Nat × List Flit) :=
  [1, 0].findSome? fun vc => match x.front vc with
    | some l => if sel (chunksOf l) then some (vc, l) else none
    | none => none

/-- The flits of a buffer without the first `n` of a channel. -/
def dropFlits (vc : Nat) : Nat → List Flit → List Flit
  | _, [] => []
  | n, f :: l => if f.vc = vc ∧ 0 < n then dropFlits vc (n - 1) l else f :: dropFlits vc n l

/-- A packet's flits leave the receive buffer and free their credits (R339). -/
def State.takeFlits (s : State) (p vc n : Nat) : State :=
  s.modPort p fun x =>
    { x with rx := { x.rx with buf := dropFlits vc n x.rx.buf, freed := addAt x.rx.freed vc n } }

/-- A packet for this module that breaks R30 is discarded; the tile of the edge router faults (R236). -/
def State.refuseIn (s : State) (p : Nat) : State := s.tileFault (edgeTile p) 4 0x07 (3 * 2 ^ 24) 0

/-- The regions a transit packet crosses between two ports' edge routers (R25, R351). -/
def transitRegions (p q : Nat) : List Nat :=
  let r := p / 2
  let c := q / 2
  let lo := min (r % 8) (c % 8)
  let hi := max (r % 8) (c % 8)
  ((List.range (hi + 1 - lo)).map fun i => 8 * (r / 8) + lo + i) ++ [c]

/-- The port a received packet for another module leaves by, or the port a fault names (R349, R350). -/
def State.transitRoute (s : State) (r : Nat) : Nat ⊕ Nat :=
  s.route (recDmod r) (bitsAt r 10 10 + bitsAt r 20 12 + recTile r) (decide (recType r ≠ 3))

/-- Whether every region on the way between two ports' edge routers is awake. -/
def State.transitOn (s : State) (p q : Nat) : Bool := (transitRegions p q).all fun c => decide ((s.region c).pwr = 0)

/-- Whether a transit packet waits at a port for a sleeping region: the port then returns no `JOB` credits (R351). -/
def State.transitWaits (s : State) (p : Nat) : Bool :=
  [0, 1].any fun vc => match (s.port p).rx.front vc with
    | none => false
    | some l => decide (recDmod (chunksOf l) ≠ s.modid) && (match s.transitRoute (chunksOf l) with
      | .inl _ => false
      | .inr q => !(s.transitOn p q))

/-- `REMOTE_PACKET_INGRESS` (R236, R252, R469): the oldest packet for this module enters at the port's edge router. (DEDUCED, log 28) -/
def execRemotePacketIngress (p : Nat) (s : State) : Out :=
  if 32 ≤ p then .fault (.noSuchUnit "port" p)
  else
    match (s.port p).rx.frontBy fun r => decide (recDmod r = s.modid) with
    | none => .next s
    | some (vc, l) =>
      if (s.region (p / 2)).pwr ≠ 0 ∨ s.transitWaits p = true then .next s
      else
        let r := chunksOf l
        let d := payOf l
        let s1 := s.takeFlits p vc l.length
        if ¬ (3 ≤ s.job.js ∧ s.job.js ≤ 6) then .next s1
        else if recType r = 3 then
          if s.breaksR30 (bitsAt r 48 12) then .next (s1.refuseIn p)
          else .next (s1.modNet fun n => { n with msgs := n.msgs ++ [{ h0 := wordAt d 0, h1 := wordAt d 8, pay := d.drop 16 }] })
        else
          let k := recPkt r d
          if (unionTiles k.rects).any s.breaksR30 then .next (s1.refuseIn p)
          else .next (s1.modNet fun n => { n with pkts := n.pkts ++ (unionTiles k.rects).map fun t => { k with src := edgeTile p, rects := [rectOf t] } })

/-- `TRANSIT_PACKET` (R349 to R351): the oldest packet for another module crosses to its egress port, once every region on the
way is awake. (DEDUCED, log 28) -/
def execTransitPacket (p : Nat) (s : State) : Out :=
  if 32 ≤ p then .fault (.noSuchUnit "port" p)
  else
    match (s.port p).rx.frontBy fun r => decide (recDmod r ≠ s.modid) with
    | none => .next s
    | some (vc, l) =>
      match s.transitRoute (chunksOf l) with
      | .inl q => .next ((s.takeFlits p vc l.length).linkRoute (recDmod (chunksOf l)) q)
      | .inr q =>
        if s.transitOn p q ∧ s.transitWaits p = false then
          let v := if vc = 1 ∨ (s.port q).dl then 1 else 0
          .next ((s.takeFlits p vc l.length).modPort q fun x =>
            { x with rx := { x.rx with tx := x.rx.tx ++ l.map fun f => { f with vc := v } } })
        else .next s

end Sys2Proof.Machine
end

