-- ==== Sys2Proof/Machine/Porter.lean ====
section
/-! DEFINITION. Porters and HBM (chapter 07): the issue of `PORT` and its checks, host memory and the coherent host window as
a transfer sees them, and what a completing transfer moves. -/

namespace Sys2Proof.Machine

/-! ## Requests to the host (R361, R367) -/

/-- The first transaction ID from the next one on that no unanswered request has. -/
def Rl.freshId (r : Rl) : Nat :=
  (((List.range 1025).map fun i => (r.nextReq + i) % 4096).find? fun k => r.outs.all fun o => decide (o.id ≠ k)).getD 0

/-- A request to the host: sent, with a transaction ID of its own, or waiting while 1,024 are outstanding (R367). -/
def State.ask (s : State) (kind line own : Nat) : State :=
  if s.rl.outs.length < 1024 then
    (s.modRl fun r => { r with
      nextReq := (r.freshId + 1) % 4096
      outs := r.outs ++ [{ id := r.freshId, kind := kind, line := line, own := own }] }).rlPost (decide (kind = 3))
  else s.modRl fun r => { r with wants := r.wants ++ [{ kind := kind, line := line, own := own }] }

/-- Whether such a request is outstanding. -/
def State.asked (s : State) (kind line own : Nat) : Bool := s.rl.outs.any fun o => decide (o.kind = kind ∧ o.line = line ∧ o.own = own)

/-- A request is answered; the oldest one that waits is sent (R367). -/
def State.askDone (s : State) (kind line own : Nat) : State :=
  match s.rl.outs.find? fun o => decide (o.kind = kind ∧ o.line = line ∧ o.own = own) with
  | none => s
  | some o =>
    let s1 := s.modRl fun r => { r with outs := r.outs.filter fun p => decide (p.id ≠ o.id) }
    match s1.rl.wants with
    | [] => s1
    | w :: rest => (s1.modRl fun r => { r with wants := rest }).ask w.kind w.line w.own

/-- Sends the `BINV`s of lines that have none outstanding (R219, R366 to R368). -/
def State.sendBinv (s : State) (l : List Nat) : State :=
  (l.filter fun k => !(s.rl.binv.contains k)).foldl (fun s k => (s.modRl fun r => { r with binv := r.binv ++ [k] }).ask 0 k 0) s

/-- Sends the `RECALL`s of lines that the host has not been asked for (R219). -/
def State.sendRecall (s : State) (l : List Nat) : State :=
  (l.filter fun k => !(s.rl.recalls.contains k || s.rl.binv.contains k)).foldl (fun s k =>
    (s.modRl fun r => { r with recalls := r.recalls ++ [k] }).ask 1 k 0) s

/-! ## Windows of a transfer (R197, R219, R220) -/

def Xfer.base (x : Xfer) (j : Job) : Word := j.reg (0x20000 + 0x20 * dWin x.d)
def Xfer.limit (x : Xfer) (j : Job) : Nat := (j.reg (0x20008 + 0x20 * dWin x.d)).toNat
def Xfer.cfg (x : Xfer) (j : Job) : Word := j.reg (0x20010 + 0x20 * dWin x.d)
/-- The window is host memory. -/
def Xfer.isHost (x : Xfer) (j : Job) : Bool := bit (x.cfg j) 2
/-- The window lies in the coherent host window. (DEDUCED, log 14) -/
def Xfer.isHcoh (x : Xfer) (j : Job) : Bool := bit (x.cfg j) 7 && !x.isHost j
/-- The indices of a gather, once read, stand behind the descriptor. -/
def Xfer.idx (x : Xfer) : List Nat := (x.d.drop 8).map (·.toNat)
def Xfer.segs (x : Xfer) : List Seg := dSegs x.d x.idx

/-- The 64-byte lines (device or host address divided by 64) that segments touch. -/
def segLines (base : Nat) (l : List Seg) : List Nat :=
  (l.flatMap fun g =>
    let a := base + 4096 * g.blk + g.off
    (List.range ((a + g.len - 1) / 64 - a / 64 + 1)).map (a / 64 + ·)).eraseDups

/-- The lines of a coherent window that a transfer touches. -/
def Xfer.hcohLines (x : Xfer) (j : Job) : List Nat := if x.isHcoh j then segLines (x.base j).toNat x.segs else []

/-- The lines a transfer of a coherent window must first get back from the host (R219): for a store every line the host
holds, for a read those it owns. -/
def State.heldLines (s : State) (x : Xfer) : List Nat :=
  (x.hcohLines s.job).filter fun l => s.rl.snoop.any fun p => decide (p.1 = l) && (decide (dDir x.d = 1) || p.2)

/-- Whether a transfer waits at the home of its coherent lines: the host holds some, an answer is outstanding (R219), or a request of the
host to one of them has come earlier and not been served (R370). -/
def State.waitsLines (s : State) (x : Xfer) : Bool :=
  !(s.heldLines x).isEmpty || (x.hcohLines s.job).any fun l =>
    s.rl.binv.contains l || s.rl.recalls.contains l || s.rl.held.any fun h => decide (h.line = some l ∧ h.at_ < x.home)

/-- Sends the `BINV`s of a store, or the `RECALL`s of a read (R219, R367). -/
def State.askLines (s : State) (x : Xfer) : State :=
  if dDir x.d = 1 then s.sendBinv (s.heldLines x) else s.sendRecall (s.heldLines x)

def State.setXfer (s : State) (t : Nat) (x : Xfer) : State :=
  s.modTile t fun y => y.modIo fun io => { io with tags := io.tags.map fun g => if g.tag = x.tag then x else g }

/-- The number by which a request of a transfer is known. -/
def ownOf (t tag : Nat) : Nat := 1 + 64 * t + tag

/-- Sends the requests of a transfer of host memory (R220, R367): it waits for an answer to each line. While region 0 is not awake they do
not leave (R20, R28). -/
def State.askHost (s : State) (t : Nat) (x : Xfer) : State :=
  if (s.region 0).pwr ≠ 0 then s
  else
    let l := segLines (x.base s.job).toNat x.segs
    l.foldl (fun s k => s.ask (if dDir x.d = 1 then 3 else 2) k (ownOf t x.tag)) (s.setXfer t { x with left := l, asked := true })

/-- A transfer starts its requests, unless porters start none under the undervoltage clamp (R224). -/
def State.startXfer (s : State) (t : Nat) (x : Xfer) : State :=
  if s.power.clamp then s
  else if x.isHost s.job then (if dDir x.d = 2 then s else s.askHost t x)
  else s.askLines x

/-! ## Issue (R148, R199, R200) -/

/-- The reason among 0x01 to 0x04 for which a descriptor fails (R199). -/
def Xfer.refuse (x : Xfer) (j : Job) : Option Nat :=
  let b := dBounds x.d
  if dMalformed x.d then some 1
  else if bit (x.cfg j) 63 = false then some 2
  else if dDir x.d = 1 ∧ bit (x.cfg j) 4 = false ∨ dDir x.d ≠ 1 ∧ bit (x.cfg j) 3 = false then some 3
  else if dDir x.d ≠ 2 ∧ (b.1 < 0 ∨ (x.limit j : Int) ≤ b.2) then some 4
  else none

/-- `TILE_FAULT.DETAIL` of `WINDOW` (R199). -/
def windowDetail (reason : Nat) (d : List Word) : Nat := reason * 2 ^ 24 + dWin d * 2 ^ 8 + dTag d

/-- The runs a transfer names: its rows and a gather's index rows. -/
def xferRuns (d : List Word) : List Run :=
  { lo := dSrow d, n := dRows d, am := false, wr := decide (dDir d ≠ 1) } ::
    (if dDir d = 2 then [{ lo := dIrow d, n := dIdxRows d, am := false, wr := false }] else [])

/-- `PORT` (R148, R199, R200): reads the descriptor, waits while its tag is in flight, checks it, takes the tag. -/
def execPort (t : Nat) (q : Strm) (s : State) : Out :=
  tileInsn 0x600 t q s (fun _ => []) fun i x s =>
    let r := ((x.seq i.q).areg (fld i.w 37 3)).toNat
    s.rowCheck i [spRun r 1] <|
      match s.readNow { t := t, q := Strm.code q, eng := 8, pc := i.pc } r 1 with
      | (s1, none) => s1
      | (s1, some row) =>
        let d := wordsOf (row.drop (64 * fld i.w 0 3)) 8
        let y := s1.tile t
        let f : Xfer := { tag := dTag d, q := i.q, pc := i.pc, d := d, epoch := s1.job.epoch, id := y.io.nextId, home := s1.rl.home }
        if x.io.tags.any fun g => decide (g.tag = f.tag) then s.stall i 1
        else
          match f.refuse s1.job with
          | some n => s1.tileFault t (Strm.code q) 0x09 (windowDetail n d) i.pc
          | none =>
            s1.rowCheck i ((xferRuns d).map Run.check) <|
              let s2 := s1.issueSeq i fun z => (z.startOp i).modIo fun io =>
                { io with tags := io.tags ++ [f], inflMax := max io.inflMax (io.tags.length + 1) }
              let s3 := s2.addAccs t i.pc (runAccs f.id 4 (Strm.code q) (xferRuns d))
              (if f.isHcoh s3.job then s3.modRl fun r => { r with home := r.home + 1 } else s3).startXfer t f

/-! ## Faults of a transfer (R205, R217, R460) -/

/-- A check-value mismatch (R205, R206). -/
def State.crcFault (s : State) (c : Acct) (x : Xfer) (plc blk index : Nat) : State :=
  let s1 := s.modTile c.t fun y => y.modMisc fun m => { m with
    errAddr := if bit m.errAddr 63 then m.errAddr
      else place 63 1 1 ||| place 56 3 plc ||| place 50 6 (dWin x.d) ||| place 0 41 (4096 * blk) }
  s1.tileFault c.t c.q 0x0A (plc * 2 ^ 24 + (index % 2 ^ 16) * 2 ^ 8 + x.tag) c.pc

/-- The region of a stack (R195). -/
def stkRegion (k : Nat) : Nat := k / 2

/-- An uncorrectable result (R217): recorded at the stack, its granule retired (R460), a region fault. -/
def State.hbmUe (s : State) (k a : Nat) (job : Bool := true) : State :=
  let s1 := s.modStk k fun m => { m with
    ue := if m.ue.contains (a / 32 * 32) then m.ue else m.ue ++ [a / 32 * 32]
    ctr := ctrAdd m.ctr 0x18 1 }
  let s2 := s1.modRel fun r =>
    let l := if r.retired.contains (k, a / 4096) then r.retired else r.retired ++ [(k, a / 4096)]
    { r with
      retired := l
      failed := if 1024 < (l.filter fun p => decide (p.1 = k)).length ∧ ¬ r.failed.contains k then r.failed ++ [k] else r.failed }
  let s3 := if s2.rel.failed.contains k then s2.modStk k fun m => { m with st := 4 } else s2
  (s3.readyFrom s).regionFault (stkRegion k) 0x20 (k * 2 ^ 43 + (a / 256 % 32) * 2 ^ 38 + a) job

/-- Interface parity (R217): a second one within 720 h fails the stack (R460). -/
def State.hbmParity (s : State) (k pch : Nat) : State :=
  let e := s.evidence 3 k
  let s1 := if e.2 then
      (e.1.modRel fun r => { r with failed := if r.failed.contains k then r.failed else r.failed ++ [k] }).modStk k fun m => { m with st := 4 }
    else e.1
  (s1.readyFrom s).regionFault (stkRegion k) 0x21 (k * 2 ^ 43 + (pch % 32) * 2 ^ 38)

/-- Reads of bursts of a stack that give a corrected report are counted (R215, R223). -/
def State.corrected (s : State) (k : Nat) (bursts : List Nat) : State :=
  let n := (bursts.filter (s.stk k).ce.contains).length
  if n = 0 then s else s.countStk k 0x10 n

/-- The bursts that hold bytes `[a, a + n)` of a stack. -/
def burstsIn (a n : Nat) : List Nat := (List.range ((a + n - 1) / 32 + 1 - a / 32)).map fun i => 32 * (a / 32 + i)

/-- A self-refreshing stack is brought out for an access (R218). -/
def State.wakeStk (s : State) (k : Nat) : State := if (s.stk k).st = 3 then s.modStk k fun x => { x with st := 2 } else s

/-- A read of bytes of a stack by what is no porter (R217): its corrected reports are counted, the first uncorrectable burst is reported.
Gives whether the bytes are good. -/
def State.hbmRead (s : State) (k a n : Nat) (job : Bool := false) : State × Bool :=
  let bs := burstsIn a n
  let s1 := s.corrected k bs
  match bs.find? (s.stk k).ue.contains with
  | some b => (s1.hbmUe k b job, false)
  | none => (s1, true)

/-- What the stacks find on an access (R215, R217): bytes whose on-die ECC corrects, or cannot correct, from now on; reads of them report
it. (DEDUCED, log 14) -/
def State.cells (s : State) (e : HbmErr) : State :=
  match e with
  | .ce k a => s.modStk k fun m => { m with ce := if m.ce.contains (a / 32 * 32) then m.ce else m.ce ++ [a / 32 * 32] }
  | .ue k a => s.modStk k fun m => { m with ue := if m.ue.contains (a / 32 * 32) then m.ue else m.ue ++ [a / 32 * 32] }
  | _ => s

/-! ## What a transfer reads of a block -/

/-- `CV` as it applies: a gather of elements below 64 bytes reads under `NOBLOCK` (R210). -/
def Xfer.cv (x : Xfer) : Nat := if dDir x.d = 2 ∧ dL0 x.d < 64 then 2 else dCv x.d

/-- One block of a transfer: its number, the segments of it that move, all the transfer's segments of it, its stack and granule. -/
structure Part where
  blk : Nat
  segs : List Seg
  all : List Seg
  stk : Nat
  gran : Nat
deriving DecidableEq, Repr

/-- Whether not all of the transfer's bytes of the block move (R214). -/
def Part.short (p : Part) : Bool := decide (p.segs ≠ p.all)

/-- The blocks of a transfer of which the segments `l` move, in order. -/
def Xfer.blocks (x : Xfer) (j : Job) (l : List Seg) : List Part :=
  (segBlocks l).map fun b =>
    let k := winGranule (x.base j) (x.cfg j) b
    { blk := b, segs := l.filter (fun g => decide (g.blk = b)), all := x.segs.filter (fun g => decide (g.blk = b)), stk := k.1, gran := k.2 }

/-- Whether the controller reads and compares the whole block (R201, R204): of a store, a merge does. -/
def Xfer.readsWhole (x : Xfer) (p : Part) : Bool :=
  if dDir x.d = 1 then !wholeBlock p.all && !p.short else wholeBlock p.all || decide (x.cv ≠ 2)

/-- The bursts of a block that the transfer reads: all of it, or those of its segments; a short element of a gather takes one 64-byte
access (R210). The spec names no burst size: the model's is 32 bytes (DESIGN CHOICE, log 14). -/
def burstsOf (x : Xfer) (p : Part) : List Nat :=
  let unit := if dDir x.d = 2 ∧ dL0 x.d < 64 then 64 else 32
  if x.readsWhole p then burstsIn (4096 * p.gran) 4096
  else if dDir x.d = 1 then []
  else (p.segs.flatMap fun h =>
    let lo := h.off / unit * unit
    burstsIn (4096 * p.gran + lo) ((h.off + h.len + unit - 1) / unit * unit - lo)).eraseDups

/-! ## Transfers that touch the same bytes (R211, R224) -/

/-- The bytes of the stacks a transfer touches: stack, first byte, length. -/
def Xfer.ranges (x : Xfer) (j : Job) : List (Nat × Nat × Nat) :=
  if x.isHost j then []
  else x.segs.map fun g =>
    let k := winGranule (x.base j) (x.cfg j) g.blk
    (k.1, 4096 * k.2 + g.off, g.len)

/-- The bytes two lists of ranges have in common. -/
def common (a b : List (Nat × Nat × Nat)) : List (Nat × Nat × Nat) :=
  a.flatMap fun p => b.filterMap fun q =>
    let lo := max p.2.1 q.2.1
    let hi := min (p.2.1 + p.2.2) (q.2.1 + q.2.2)
    if p.1 = q.1 ∧ lo < hi then some (p.1, lo, hi - lo) else none

/-- The other transfers in flight, with their tiles. -/
def State.others (s : State) (t : Nat) (x : Xfer) : List (Nat × Xfer) :=
  s.job.tiles.flatMap fun u => ((s.tile u).io.tags.filter fun g => decide ((u, g.tag) ≠ (t, x.tag))).map fun g => (u, g)

/-- The bytes of a transfer that are unpredictable as it moves: those an unordered store has written since it issued, and those one in
flight may write (R211). -/
def State.muddy (s : State) (t : Nat) (x : Xfer) : List (Nat × Nat × Nat) :=
  x.racy ++ ((s.others t x).filter fun y => decide (dDir y.2.d = 1)).flatMap fun y => common (x.ranges s.job) (y.2.ranges s.job)

/-- A store has moved: the transfers in flight that touch its bytes find them written at no known time (R211). -/
def State.stirs (s : State) (t : Nat) (x : Xfer) : State :=
  if dDir x.d = 1 then
    (s.others t x).foldl (fun s y =>
      match common (y.2.ranges s.job) (x.ranges s.job) with
      | [] => s
      | l => s.setXfer y.1 { y.2 with racy := y.2.racy ++ l }) s
  else s

/-- Bytes from byte `a` of stack `k` on, those in the ranges unpredictable. -/
def State.muddied (s : State) (rs : List (Nat × Nat × Nat)) (k a : Nat) (b : List Byte) : List Byte :=
  if rs = [] then b
  else (b.zipIdx).map fun p =>
    if rs.any fun r => decide (r.1 = k ∧ r.2.1 ≤ a + p.2 ∧ a + p.2 < r.2.1 + r.2.2) then Config.freeByte s.free (2 ^ 42 * (k + 1) + a + p.2) else p.1

/-! ## Checks -/

/-- A check value of a block fails (R205): a load's or store's transfer stops under R69; of a store's block whose check fails nothing is
written. -/
def State.blockFault (s : State) (c : Acct) (x : Xfer) (plc blk index : Nat) : State :=
  let s1 := if dDir x.d = 1 then ((s.stopStore x 0 (some blk)).setXfer c.t { x with stuck := true }).took else s
  s1.crcFault c x plc blk index

/-- The first check that fails among the blocks of a transfer, as the state with the fault taken: uncorrectable bytes (R217), the stored
value against the block (R201, R204), the carried seal (R203), a block changed on its way to the scratchpad (R202), `e` naming it. -/
def State.blockCheck (s : State) (c : Acct) (x : Xfer) (l : List Seg) (src : List Byte) (e : HbmErr) : Option State :=
  let y := s.tile c.t
  ((x.blocks s.job l).zipIdx).findSome? fun q =>
    let p := q.1
    let m := s.stk p.stk
    match (burstsOf x p).find? m.ue.contains with
    | some a => some (s.hbmUe p.stk a)
    | none =>
      let stale := Map.get false m.crcV p.gran && decide (Map.get 0 m.crc p.gran ≠ crc32c (m.blockBytes p.gran))
      if dDir x.d ≠ 1 then
        if x.readsWhole p && stale then some (s.blockFault c x 1 p.blk q.2)
        else if dDir x.d = 0 ∧ e = .landed q.2 ∧ sealGroups p.segs ≠ [] then some (s.blockFault c x 2 p.blk q.2)
        else none
      else if wholeBlock p.all then
        match sealGroupOf p.all with
        | some gi =>
          let bytes := (src.drop (4096 * gi - 512 * dSrow x.d)).take 4096
          if Map.get false y.misc.sealV gi then
            (if !p.short && decide (Map.get 0 y.misc.sealE gi ≠ crc32c bytes) then some (s.blockFault c x 3 p.blk q.2) else none)
          else if dCv x.d = 1 then some (s.blockFault c x 4 p.blk q.2) else none
        | none => none
      else if !p.short && decide (dCv x.d ≠ 2) && stale then some (s.blockFault c x 5 p.blk q.2) else none

/-! ## Moving -/

/-- The bytes of a segment in memory: HBM, or the host bytes that came back (R220). -/
def State.memBytes (s : State) (x : Xfer) (mud : List (Nat × Nat × Nat)) (g : Seg) : List Byte :=
  if x.isHost s.job then Map.slice 0 x.host ((x.base s.job).toNat + 4096 * g.blk + g.off) g.len
  else
    let k := winGranule (x.base s.job) (x.cfg s.job) g.blk
    let a := 4096 * k.2 + g.off
    s.muddied mud k.1 a (Map.slice 0 (s.stk k.1).mem a g.len)

/-- How many landed bytes of a row segments hold. -/
def landedIn (l : List Seg) (r : Nat) : Nat :=
  l.foldl (fun n g => n + (min (g.sp + g.len) (512 * r + 512) - max g.sp (512 * r))) 0

/-- The transfer completes and frees its tag (R189, R221). -/
def State.portDone (s : State) (t : Nat) (x : Xfer) : State :=
  s.modTile t fun y =>
    let z := (y.dropAcc x.id).modIo fun io => { io with tags := io.tags.filter fun g => decide (g.tag ≠ x.tag) }
    if x.waited then z else z.count 0x510 1

/-- A load or gather lands (R165, R202, R220, R222): partly covered rows keep their other bytes, rows are marked with their
landed bytes, blocks that fill an aligned group in order seal it. (DEDUCED, log 14) -/
def State.landAll (s : State) (c : Acct) (x : Xfer) (l : List Seg) : State :=
  let y := s.tile c.t
  let rows := ((List.range (dRows x.d)).map (dSrow x.d + ·)).filter fun r => decide (0 < landedIn l r)
  match rows.find? fun r => decide (landedIn l r < 512) && (y.badRow r 1).isSome with
  | some r => s.tileFault c.t c.q 0x05 r c.pc
  | none =>
    let lo := dSrow x.d
    let mud := s.muddy c.t x
    let old := Map.slice 0 y.sp (512 * lo) (512 * rows.length)
    let new := l.foldl (fun b g => splice b (g.sp - 512 * lo) (s.memBytes x mud g)) old
    let racy := y.racyWrites x.id
    let host := x.isHost s.job
    let seals := if dDir x.d = 2 then [] else sealGroups l
    let s1 := s.writeRows c lo new racy
    let s2 := s1.modTile c.t fun y =>
      let z := rows.foldl (fun y r => y.modMisc fun m => { m with
        pf := Map.set 0 m.pf r (landedIn l r)
        pfTag := Map.set 0 m.pfTag r (if host then 0 else x.tag + 1)
        pfCnt := Map.set [] m.pfCnt r (if host then [] else
          ((l.filter fun g => decide (g.sp < 512 * r + 512 ∧ 512 * r < g.sp + g.len)).map fun g =>
            let k := winGranule (x.base s.job) (x.cfg s.job) g.blk
            (k.1, k.2, Map.get 0 (s.stk k.1).wcnt k.2)).eraseDups) }) y
      let z2 := seals.foldl (fun y gi => y.modMisc fun m => { m with
        sealE := Map.set 0 m.sealE gi (crc32c ((new.drop (4096 * gi - 512 * lo)).take 4096))
        sealV := Map.set false m.sealV gi
          (if racy.any fun r => decide (r / 8 = gi) then decide (Config.freeNat s.free gi % 2 = 0) else true) }) z
      z2.count 0x540 (l.foldl (fun n g => n + g.len) 0)
    s2.took

/-- A store to HBM is written (R203, R204, R214): a block of which not all has moved since the epoch advanced keeps no valid check value
(R207), a merge of which all has moved is one. (DEDUCED, log 14) -/
def State.storeAll (s : State) (c : Acct) (x : Xfer) (l : List Seg) (src : List Byte) : State :=
  let lo := dSrow x.d
  let mud := s.muddy c.t x
  let s1 := (x.blocks s.job l).foldl (fun s p =>
    let parts := p.segs.map fun g => (g.off, s.muddied mud p.stk (4096 * p.gran + g.off) ((src.drop (g.sp - 512 * lo)).take g.len))
    let s1 := s.modStk p.stk fun m => m.put p.gran parts (!p.short)
    if x.readsWhole p then (s1.countStk p.stk 0x28 1).countTile c.t 0x558 1 else s1) s
  (s1.countTile c.t 0x548 (l.foldl (fun n g => n + g.len) 0)).stirs c.t x

/-- The windows `DEV_STOW_WIN` marks. -/
def Job.marked (j : Job) : List Nat := (List.range 64).filter fun n => bit (j.reg 0x100A0) n

def Job.winSize (j : Job) (n : Nat) : Nat := (j.reg (0x20008 + 0x20 * n)).toNat

/-- Whether the stow mover, which sends the marked windows in ascending order, has passed block `b` of window `n` (R323 step 5). -/
def State.moverPast (s : State) (n b : Nat) : Bool :=
  let before := ((s.job.marked.filter (· < n)).map s.job.winSize).sum
  decide (before + min (4096 * (b + 1)) (s.job.winSize n) ≤ s.stow.sentB)

/-- The granules of a store that the stow mover has not copied yet: it copies them first, and the wait lasts some nanoseconds,
a number nothing constrains (R324). The stow holds what they were at the stow point. (DESIGN CHOICE, log 30) -/
def State.copyFirst (s : State) (x : Xfer) (l : List Seg) : State :=
  if s.stow.sending ∧ bit (s.job.reg 0x100A0) (dWin x.d) then
    let g := ((segBlocks l).filter fun b => !(s.moverPast (dWin x.d) b)).map (2 ^ 29 * dWin x.d + ·)
    if g.all s.stow.copied.contains then s
    else ((s.modStow fun w => { w with copied := (g ++ w.copied).eraseDups }).countJob 0x100B8 (Config.freeNat s.free 0)).took
  else s

/-- Whether the placement epoch has advanced since the transfer issued (R214). -/
def Xfer.cut (x : Xfer) (j : Job) : Bool := decide (x.epoch ≠ j.epoch)

/-- Rows of a transfer that have moved when the epoch advances before it ends: a number nothing constrains (R214). -/
def State.movedRows (s : State) (x : Xfer) : Nat := Config.freeNat s.free 0 % (dRows x.d + 1)

/-- The first scratchpad byte of a transfer of host memory whose line the host has not answered, as the start of its row. -/
def Xfer.hostTop (x : Xfer) (j : Job) : Nat :=
  (x.segs.filter fun g =>
    let a := (x.base j).toNat + 4096 * g.blk + g.off
    x.left.any fun k => decide (a < 64 * k + 64 ∧ 64 * k < a + g.len)).foldl (fun n g => min n (g.sp / 512 * 512)) (512 * 1024)

/-- Bytes of a store to host memory whose lines the host has taken. -/
def Xfer.hostSent (x : Xfer) (j : Job) : Nat :=
  x.segs.foldl (fun n g =>
    let a := (x.base j).toNat + 4096 * g.blk + g.off
    n + g.len - (x.left.foldl (fun m k => m + (min (a + g.len) (64 * k + 64) - max a (64 * k))) 0)) 0

/-- The index list of a gather is read and checked whole before any data moves (R208, R209): the state, and the transfer with its indices
behind the descriptor; none where a parity fault or reason 0x05 ends it. A refused gather moves nothing and keeps its tag (R199). -/
def State.readIndices (s : State) (c : Acct) (x : Xfer) : State × Option Xfer :=
  let r := s.opRead c x.id (dIrow x.d) (dIdxRows x.d)
  match r.2 with
  | none => (r.1, none)
  | some b =>
    let idx := (codesOf 32 (dC1 x.d) (leNat b))
    let bad := (dStarts x.d idx).any fun a => decide (a < 0 ∨ (x.limit s.job : Int) < a + dL0 x.d)
    if bad then ((r.1.setXfer c.t { x with stuck := true }).tileFault c.t c.q 0x09 (windowDetail 5 x.d) c.pc, none)
    else (r.1, some { x with d := x.d.take 8 ++ idx.map fun i => BitVec.ofNat 64 i })

/-- The bytes of a transfer of HBM move, unless a check fails. -/
def State.moveHbm (s : State) (c : Acct) (x : Xfer) (l : List Seg) (n : Nat) (e : HbmErr) : State :=
  if dDir x.d = 1 then
    andThen (s.opRead c x.id (dSrow x.d) n) fun s src =>
      match s.blockCheck c x l src e with
      | some s' => s'
      | none => ((s.copyFirst x l).storeAll c x l src).portDone c.t x
  else
    match s.blockCheck c x l [] e with
    | some s' => s'
    | none => (s.landAll c x l).portDone c.t x

/-- Moves the bytes of a transfer and completes it; one whose epoch has advanced moves only the rows it has moved (R214).
(DEDUCED, log 14) -/
def State.portMove (s : State) (c : Acct) (x : Xfer) (e : HbmErr) : State :=
  let cut := x.cut s.job
  let n := if cut then s.movedRows x else dRows x.d
  let l := if cut then clipSegs x.segs (512 * (dSrow x.d + n)) else x.segs
  let s0 := if cut then (s.took).countTile c.t 0x550 1 else s
  if x.isHost s.job then
    if dDir x.d = 1 then (s0.countTile c.t 0x548 (x.hostSent s.job)).portDone c.t x
    else (s0.landAll c x (clipSegs l (x.hostTop s.job))).portDone c.t x
  else
    let s1 := s0.cells e
    let bs := x.blocks s1.job l
    let s2 := bs.foldl (fun s p => s.corrected p.stk (burstsOf x p)) s1
    match e with
    | .parity k pch => if bs.any fun p => decide (p.stk = k) then s2.hbmParity k pch else s2.moveHbm c x l n e
    | _ => s2.moveHbm c x l n e

/-- `PORTER_COMPLETE` (R189, R199, R209, R214, R219, R224): the transfer holding `tag` moves its bytes and completes, unless it
has stopped, porters pause under the undervoltage clamp, it waits for the host, or a message holds the tile's inbound buffer (R270). For a
gather from host memory, or a transfer that the clamp kept from starting, the first such event sends its requests. (DESIGN CHOICE, log 3) -/
def execPorterComplete (t tag : Nat) (e : HbmErr) (s : State) : Out :=
  if 2304 ≤ t then .fault (.noSuchUnit "tile" t)
  else
    alongside t s fun s =>
      match (s.tile t).io.tags.find? fun g => decide (g.tag = tag) with
      | none => .next s
      | some x =>
        let c : Acct := { t := t, q := Strm.code x.q, eng := 4, pc := x.pc }
        if x.stuck ∨ s.power.clamp ∨ (s.tile t).blocked then .next s
        else if x.cut s.job ∧ (x.isHost s.job ∨ s.waitsLines x = true) then .next (s.portMove c x e)
        else if x.left ≠ [] then .next s
        else if s.waitsLines x then .next (s.askLines x)
        else if dDir x.d = 2 ∧ x.d.length ≤ 8 then
          match s.readIndices c x with
          | (s1, none) => .next s1
          | (s1, some y) =>
            let s2 := s1.setXfer t y
            if x.isHost s.job then .next (s2.askHost t y)
            else if s2.waitsLines y then .next (s2.askLines y)
            else .next (s2.portMove c y e)
        else if x.isHost s.job ∧ ¬ x.asked then .next (s.askHost t x)
        else .next (s.portMove c x e)

/-! ## Answers of the host (R369, R375, R220) -/

/-- The line is answered. -/
def Xfer.answered (x : Xfer) (line : Nat) : Xfer := { x with left := x.left.filter fun k => decide (k ≠ line) }

/-- A transfer of host memory that waits for a line whose request is outstanding, while Riendlink is `UP` and region 0 awake (R20, R28). -/
def State.waiting (s : State) (t tag line : Nat) (store : Bool) : Option Xfer :=
  (s.tile t).io.tags.find? fun g =>
    decide (g.tag = tag) && g.left.contains line && !g.stuck && decide ((dDir g.d = 1) = (store = true)) && decide (s.rl.st = 4) &&
      s.asked (if store then 3 else 2) line (ownOf t tag) && decide ((s.region 0).pwr = 0)

/-- `HRD_RESPONSE` (R369, R375). -/
def execHrdResponse (t tag addr : Nat) (err : Bool) (data : List Byte) (s : State) : Out :=
  if 2304 ≤ t then .fault (.noSuchUnit "tile" t)
  else
    match s.waiting t tag (addr / 64) false with
    | none => .next (if s.rl.st = 4 then s.askDone 2 (addr / 64) (ownOf t tag) else s)
    | some x =>
      let s1 := s.askDone 2 (addr / 64) (ownOf t tag)
      if err then .next (s1.devFault 0x45 (tag * 2 ^ 16 + t))
      else .next (s1.setXfer t { x.answered (addr / 64) with host := Map.setRange 0 x.host (addr / 64 * 64) (padTo 64 data) })

/-- The check of a store to host memory before any of its bytes leave (R220): each valid seal of a group it reads whole
against the group's bytes; under `REQUIRE` every byte must lie in such a group. The place and block that fail. Whether a source that covers
only part of a validly sealed group counts as one without a valid seal the spec does not say: the model raises place 4 there (DESIGN
CHOICE, log 14). -/
def hostSealCheck (y : Tile) (x : Xfer) : Option (Nat × Nat) :=
  let l := x.segs
  let whole := fun (gi : Nat) =>
    covers ((l.filter fun g => decide (g.sp < 4096 * gi + 4096 ∧ 4096 * gi < g.sp + g.len)).map fun g =>
      (max g.sp (4096 * gi) - 4096 * gi, min (g.sp + g.len) (4096 * gi + 4096) - max g.sp (4096 * gi))) 4096
  l.findSome? fun g =>
    (List.range ((g.sp + g.len - 1) / 4096 - g.sp / 4096 + 1)).findSome? fun i =>
      let gi := g.sp / 4096 + i
      if Map.get false y.misc.sealV gi && whole gi then
        (if Map.get 0 y.misc.sealE gi ≠ crc32c (Map.slice 0 y.sp (4096 * gi) 4096) then some (6, g.blk) else none)
      else if dCv x.d = 1 then some (4, g.blk) else none

/-- `HWR_COMPLETION` (R369, R375): the host has taken the line; its bytes are those of the source rows as they left. Under the undervoltage
clamp the transfer holds (R224); once the epoch has advanced it moves nothing more and completes (R214, R284). -/
def execHwrCompletion (t tag addr : Nat) (err : Bool) (s : State) : Out :=
  if 2304 ≤ t then .fault (.noSuchUnit "tile" t)
  else
    match s.waiting t tag (addr / 64) true with
    | none => .next (if s.rl.st = 4 then s.askDone 3 (addr / 64) (ownOf t tag) else s)
    | some x =>
      let c : Acct := { t := t, q := Strm.code x.q, eng := 4, pc := x.pc }
      let s0 := s.askDone 3 (addr / 64) (ownOf t tag)
      if err then .next (s0.devFault 0x45 (tag * 2 ^ 16 + t))
      else if s.power.clamp then .next s
      else if x.cut s.job then .next (s0.portMove c x .none)
      else
        let s := s0
        match (if x.sent then none else hostSealCheck (s.tile t) x) with
        | some p => .next (s.crcFault c x p.1 p.2 (((segBlocks x.segs).findIdx? fun b => decide (b = p.2)).getD 0))
        | none =>
          let base := (x.base s.job).toNat
          let line := 64 * (addr / 64)
          let parts := x.segs.filterMap fun g =>
            let a := base + 4096 * g.blk + g.off
            let lo := max a line
            let hi := min (a + g.len) (line + 64)
            if lo < hi then some (lo, g.sp + (lo - a), hi - lo) else none
          let s1 := parts.foldl (fun s p =>
            let r := p.2.1 / 512
            andThen (s.opRead c x.id r ((p.2.1 + p.2.2 - 1) / 512 - r + 1)) fun s b =>
              s.modRl fun rl => { rl with hostOut := rl.hostOut ++ [(p.1, (b.drop (p.2.1 - 512 * r)).take p.2.2)] }) s
          .next (s1.setXfer t { x.answered (addr / 64) with sent := true })

end Sys2Proof.Machine
end

