-- ==== Sys2Proof/Machine/RlLink.lean ====
section
/-! DEFINITION. Riendlink (chapter 13): link states and frames, loss of the link, the interrupt table, the coherent host window's
size; and the frame period of every link. -/

namespace Sys2Proof.Machine

/-! ## HBM as the host and Sextant see it (R196, R217, R219, R366) -/

/-- Stack and stack byte address of a module-interleaved device byte address. -/
def devByte (a : Nat) : Nat × Nat :=
  let g := interleaved (a / 4096)
  (g.1, 4096 * g.2 + a % 4096)

/-- Bytes at a stack address within one granule. (DESIGN CHOICE, log 5) -/
def Stack.bytes (x : Stack) (a n : Nat) : List Byte := Map.slice 0 x.mem a n

/-- A host write of bytes of one line: the block's check value becomes invalid (R219). -/
def State.hostStore (s : State) (line : Nat) (parts : List (Nat × List Byte)) : State :=
  let p := devByte (64 * line)
  s.modStk p.1 fun x => x.put (p.2 / 4096) (parts.map fun q => (p.2 % 4096 + q.1, q.2)) false

/-! ## Interrupt table (R371, R372) -/

/-- A write of word `w` of `RL_MSI` v. -/
def State.msiWrite (s : State) (v w : Nat) (x : Word) : State :=
  if 72 ≤ v then s
  else if w = 0 then
    (s.modRl fun r => { r with
      msiA := Map.set 0 r.msiA v (x &&& place 2 50 (2 ^ 50 - 1))
      unmask := Map.set false r.unmask v (!(bit x 63)) }).sendMsi v
  else s.modRl fun r => { r with msiD := Map.set 0 r.msiD v (x.setWidth 32) }

/-- `RL_MSI_WRITE` (R372). -/
def execRlMsiWrite (v w : Nat) (x : Word) (s : State) : Out :=
  if s.rl.st = 4 then .next (s.msiWrite v w x) else .next s

/-! ## The coherent host window (R366) -/

/-- Zeroes the module-interleaved granules `[lo, lo + n)`, check values invalid. -/
def State.zeroGranules (s : State) (lo n : Nat) : State :=
  s.forAll (List.range 32) fun s k =>
    let p := strided lo n 32 k
    if p.2 = 0 then s
    else s.modStk k fun x => { x with
      mem := Map.clear x.mem (4096 * p.1) (4096 * p.2)
      crcV := Map.clear x.crcV p.1 p.2
      ue := x.ue.filter fun b => decide (b < 4096 * p.1 ∨ 4096 * (p.1 + p.2) ≤ b)
      ce := x.ce.filter fun b => decide (b < 4096 * p.1 ∨ 4096 * (p.1 + p.2) ≤ b) }

/-- The lines the host holds above a window size. -/
def State.linesAbove (s : State) (gib : Nat) : List Nat :=
  (s.rl.snoop.filter fun p => decide (gib * 2 ^ 24 ≤ p.1)).map (·.1)

/-- The helm takes the requested size (R366): refused with a job or a stow, or without room; otherwise the lines of the removed
range come back first, and an added range is zero. (DEDUCED, log 38) -/
def State.resizeHcw (s : State) : State :=
  let n := s.rl.hcwReq
  let old := s.rl.hcwSize
  let set := fun (st : Nat) => s.modRl fun r => { r with hcwStat := st }
  if s.job.img.isSome ∨ s.stow.busy ∨ s.stow.hostBusy then set 2
  else if 256 < n then set 3
  else
    let meets := n ≠ 0 ∧ s.stow.area ≠ 0 ∧
      Alloc.meets { region := none, base := 0, n := n * 2 ^ 18 } { region := none, base := s.stow.areaBase, n := s.stow.area * 2 ^ 18 } = true
    if meets then set 3
    else
      let held := s.linesAbove n
      if held ≠ [] then (set 1).sendBinv held
      else
        let s1 := if old < n then s.zeroGranules (old * 2 ^ 18) ((n - old) * 2 ^ 18) else s
        s1.modRl fun r => { r with hcwSize := n, hcwStat := 0 }

/-- A write of `RL_HCW` (R366); without the helm the request is pending. -/
def State.hcwWrite (s : State) (v : Word) : State :=
  let s1 := s.modRl fun r => { r with hcwReq := fld v 0 9, hcwStat := 1 }
  if s.helm.run then s1.resizeHcw else s1

/-- A pending request goes on. -/
def State.retryHcw (s : State) : State := if s.rl.hcwStat = 1 ∧ s.helm.run then s.resizeHcw else s

/-- `RL_HCW_REQUEST` (R366). -/
def execRlHcwRequest (v : Word) (s : State) : Out := if s.rl.st = 4 then .next (s.hcwWrite v) else .next s

/-! ## Link states (R362, R363, R373, R374) -/

/-- Riendlink enters `RETRAIN` (R343, R362). -/
def State.rlRetrain (s : State) (reason : Nat) : State :=
  if s.rl.st = 4 then ((s.modRl fun r => { r with st := 5, reason := reason }).countRl 0x58 1).readyFrom s else s

/-- Whether a window of the loaded job lies in host memory or in the coherent host window. -/
def State.usesHost (s : State) : Bool :=
  (List.range 64).any fun n =>
    let w := s.job.reg (0x20010 + 0x20 * n)
    bit w 63 && (bit w 2 || bit w 7)

/-- Transfers of host memory, and stores that wait for the answer to a `BINV`, cannot complete any more (R374). -/
def State.stickHost (s : State) : State :=
  s.forAll s.job.tiles fun s t =>
    let x := s.tile t
    let dead := fun (g : Xfer) => g.left ≠ [] || (g.isHost s.job && decide (dDir g.d = 2)) ||
      (decide (dDir g.d = 1) && (g.hcohLines s.job).any s.rl.binv.contains)
    if x.io.tags.any dead then
      s.modTile t fun y => y.modIo fun io => { io with tags := io.tags.map fun g => if dead g then { g with stuck := true } else g }
    else s

/-- Riendlink goes `DOWN` (R374). -/
def State.rlDown (s : State) (reason : Nat) : State :=
  let owned := (s.rl.snoop.filter fun p => p.2).map (·.1)
  let s1 := (s.stickHost).modRl fun r => { r with
    st := 6, reason := reason, lanes := 0
    snoop := [], binv := [], recalls := [], held := [], outs := [], wants := [], units := 0
    ackRx := 4095, nak := false, seq := 0, disc := 0, replay := [], resend := [] }
  let s2 := (owned.zipIdx).foldl (fun s p =>
    s.hostStore p.1 [(0, (List.range 64).map fun j => Config.freeByte s.free (64 * p.2 + j))]) s1
  let s3 := ((s2.took.countRl 0x60 1).countRl 0x48 owned.length).readyFrom s
  let s4 := if owned = [] then s3 else s3.raiseMsi 69
  let s5 := if s4.job.img.isSome ∧ s4.usesHost then s4.devFault 0x44 0 else s4
  s5.retryHcw

/-- `RL_RETRAIN_TIMEOUT` (R362). -/
def execRlRetrainTimeout (s : State) : Out := if s.rl.st = 5 then .next (s.rlDown 7) else .next s

/-- `RL_TRAIN_RETRY` (R362). -/
def execRlTrainRetry (s : State) : Out :=
  if s.rl.st = 6 then .next (s.modRl fun r => { r with st := 2 }) else .next s

/-- `RL_LINK_UP` (R363, R371, R373, R374): training or retraining completes; traffic resumes by replay. -/
def execRlLinkUp (s : State) : Out :=
  if s.rl.st = 2 ∨ s.rl.st = 5 then
    let s1 := (s.modRl fun r => { r with st := 4, lanes := 0xFFFF, disc := 0, resend := r.replay }).readyFrom s
    .next (s1.forAll (List.range 72) State.sendMsi)
  else .next s

/-- `FRAME_LOCK_LOSS` (R343, R362): of port 0 to 31, or 32 for Riendlink. -/
def execFrameLockLoss (p : Nat) (s : State) : Out :=
  if p < 32 then .next (s.startRetrain p 5)
  else if p = 32 then .next (s.rlRetrain 5)
  else .fault (.noSuchUnit "link" p)

/-! ## Frames (R361, R362, R342) -/

/-- `RL_FRAME_RECEIVE` (R361, R362): accepted, or discarded and asked for again; on `NAK` the frames not acknowledged are sent again. The
transactions that its slot units hold are commands of their own. (DEDUCED, log 38) -/
def execRlFrameReceive (fr : RlFrame) (q : RxQuality) (s : State) : Out :=
  if s.rl.st ≠ 4 then .next s
  else
    let expect := (s.rl.ackRx + 1) % 4096
    if q.bad 2 then
      let s1 := s.modRl fun r => { r with nak := true, disc := r.disc + (if fr.seq = expect then 1 else 0) }
      .next (if 8 ≤ s1.rl.disc then s1.rlRetrain 6 else s1)
    else
      let rest := match s.rl.replay.findIdx? fun f => decide (f.seq = fr.ack) with
        | some i => s.rl.replay.drop (i + 1)
        | none => s.rl.replay
      let s1 := s.modRl fun r => { r with replay := rest, resend := if fr.nak then rest else r.resend }
      if fr.seq = expect then .next (s1.modRl fun r => { r with ackRx := expect, nak := false, disc := 0 })
      else .next (s1.modRl fun r => { r with nak := true })

/-- A frame as it is sent: acknowledgement written fresh, and credits, of which the spec says only that they are laid out as R336: free
numbers. (DESIGN CHOICE, log 49) -/
def Rl.fresh (r : Rl) (free : Nat) (f : RlFrame) (rpl : Bool) : RlFrame :=
  let c := fun (i : Nat) => Config.freeNat free i % 1024
  { f with ack := r.ackRx, nak := r.nak, rpl := rpl, crJ0 := c 0, crJ1 := c 1, crSt := c 2 }

/-- Riendlink sends one frame (R361, R362): one again, or a new one with up to 14 units of what waits. How a transaction is laid out in its
units the spec does not say: their bytes are free. (DESIGN CHOICE, log 49) -/
def State.rlSend (s : State) : State :=
  if s.rl.st ≠ 4 then s
  else match s.rl.resend with
    | f :: rest =>
      (s.modRl fun r => { r with resend := rest, last := (r.fresh s.free f true).bytes }).countRl 0x50 1 |>.took
    | [] =>
      (s.modRl fun r =>
        let n := min 14 r.units
        let u := (List.range n).map fun i => (List.range 16).map fun j => Config.freeByte s.free (16 * i + j)
        let f : RlFrame := { seq := r.seq, ack := 0, nak := false, rpl := false, crJ0 := 0, crJ1 := 0, crSt := 0, units := u }
        { r with
          seq := (r.seq + 1) % 4096
          units := r.units - n
          replay := (r.replay ++ [f]).drop ((r.replay.length + 1) - 128)
          last := (r.fresh s.free f false).bytes }).took

/-- `LINK_FRAME_SEND` (R334, R361): port 0 to 31, or 32 for Riendlink. -/
def execLinkFrameSend (p : Nat) (s : State) : Out :=
  if p < 32 then .next (s.llynSend p)
  else if p = 32 then .next s.rlSend
  else .fault (.noSuchUnit "link" p)

end Sys2Proof.Machine
end

