-- ==== Sys2Proof/Machine/Power.lean ====
section
/-! DEFINITION. Clocks, power and thermal control (chapter 15): the power manager, the limiters, droop, undervoltage and
brownout, the thermal trip, the ledger, power requests, region sleep and wake; and what a loss of power keeps (R473). -/

namespace Sys2Proof.Machine

/-! ## What survives a loss of power (R473) -/

/-- What a restart from power-on keeps besides the fuses and the flash (R473): the chronometer, the SMBus cap, the alignment
record, the ballast base, the service time. (DEDUCED, log 40) -/
structure Keep where
  chrono : Bool
  cap : Bool
  align : Bool
  bal : Bool
  hours : Bool
deriving DecidableEq, Repr

/-- Everything outside fuses, flash and what `k` names returns to its reset value (R467, R473). The free values go on. (DESIGN CHOICE, log 4; DESIGN CHOICE, log 5; DEDUCED, log 40) -/
def State.cold (s : State) (k : Keep) : State :=
  let h := s.helm
  let r := s.rel
  let p := s.power
  { State.reset with
    pending := s.pending
    free := s.free
    helm := {
      banks := h.banks, bank := h.bank, fuse := h.fuse, fuseTo := h.fuseTo, keys := h.keys, revoke := h.revoke
      owner := h.owner, ownSeq := h.ownSeq, policy := h.policy }
    rel := {
      fTiles := r.fTiles, fClus := r.fClus, fRtr := r.fRtr, fLink := r.fLink
      retired := r.retired, failed := r.failed
      evid := r.flash, flash := r.flash, flashH := r.flashH, sgSvc := r.sgSvc
      hours := if k.hours then r.hours else r.flashH
      balBase := if k.bal then r.balBase else 0 }
    power := {
      chrono := if k.chrono then p.chrono else 0
      smbCap := if k.cap then p.smbCap else 0
      align := if k.align then p.align else []
      on := p.on, vin := p.vin, refOk := p.refOk }
    pins := {
      resetLow := s.pins.resetLow, slot := s.pins.slot, slotNow := s.pins.slotNow, changed := s.pins.changed
      smb := s.pins.smb, chain := s.pins.chain }
    stks := r.failed.foldl (fun m k => Map.set {} m k { st := 4 }) []
    tiles := r.fencedTiles.foldl (fun m t => Map.set {} m t { st := 9 }) [] }

/-- Whether the power manager, the trip logic and the samplers of the islands act (R411, R468). -/
def State.islands (s : State) : Bool := s.power.on && !s.pins.resetLow && !s.power.brown

/-! ## The power manager (R416, R420 to R424) -/

/-- The allowed step (R416). -/
def Power.allowed (p : Power) : Nat := min p.capStep (min p.thermStep p.maxN)

/-- `model_C(n)` of a sample. -/
def modelC (m : PowerSample) (n : Nat) : Nat := m.modelC.getD (n - 16) 0

/-- By how much the links' draw exceeded what the period that ends allocated them, in hundredths of a watt (R422). -/
def Power.linkOver (p : Power) (m : PowerSample) : Nat := match p.lnkL with
  | some l => 100 * m.lnk - l
  | none => 0

/-- The division of the cap (R420) in hundredths of a watt: links, memory, compute, and cap_step; what the links drew beyond their part
before, `more`, reduces compute (R422). -/
def capShare (m : PowerSample) (cap more : Nat) : Int × Int × Int × Nat :=
  let P : Int := cap
  let F : Int := 100 * (m.f : Int)
  let L := max (6 * P) (min (100 * (m.dl : Int)) (100 * P - F - 14 * P - 40 * P))
  let M := max (14 * P) (min (100 * (m.dm : Int)) (100 * P - F - L - 40 * P))
  let C := 100 * P - F - L - M - more
  let fits := fun (n : Nat) => decide (100 * (modelC m n : Int) ≤ C)
  let step := (((List.range 49).map (· + 16)).filter fits).foldl max 16
  let M' := if C < 100 * (modelC m step : Int) then max (14 * P) (M - (100 * (modelC m 16 : Int) - C)) else M
  (L, M', C, step)

/-- Whether throttle reason `CAP` asks for the SMBus alert 3 (R405, R436). -/
def State.capAlert (s : State) : State := if s.throttled 0 then s.alert 3 else s

/-- `POWER_MANAGER_PERIOD` (R416, R420 to R424). (DEDUCED, log 40; DESIGN CHOICE, log 43) -/
def execPowerManagerPeriod (m : PowerSample) (s : State) : Out :=
  if s.islands then
    let cap := s.power.cap
    let (L, M, _, step) := capShare m cap (s.power.linkOver m)
    let floor_ := decide (M = 14 * (cap : Int))
    let s1 := s.modPower fun p => { p with
      capStep := step
      lnkL := some L.toNat
      memW := (M / 100).toNat
      memLim := decide (M < 100 * (m.dm : Int))
      capmiss := decide (cap < m.draw) && (p.capmiss || (decide (step = 16) && floor_)) }
    let s2 := s1.modPower fun p => { p with allow := p.allowed }
    .next (s2.updateRun.capAlert)
  else .next s

/-- `CURRENT_LIMITER_SAMPLE` (R426): the 1 µs average input current in milliamperes. -/
def execCurrentLimiterSample (avg : Nat) (s : State) : Out :=
  if s.islands then
    let p := s.power
    if 200000 < avg ∧ p.lowerAt ≤ s.now then
      .next (s.modPower fun p => { p with curStep := max 16 (p.curStep - 4), lowerAt := s.now + 1000 }).updateRun
    else if avg < 180000 ∧ p.raiseAt ≤ s.now then
      .next (s.modPower fun p => { p with curStep := min 64 (p.curStep + 1), raiseAt := s.now + 10000 }).updateRun
    else .next s
  else .next s

/-! ## Droop (R427, R428) -/

/-- `DROOP_DETECT`: the die's stretch starts. -/
def execDroopDetect (r : Nat) (s : State) : Out :=
  if 16 ≤ r then .fault (.noSuchUnit "region" r)
  else if (s.region r).pwr = 0 then .next (s.modRegion r fun x => { x with stretch := true, deferOn := false })
  else .next s

/-- `DROOP_STRETCH_END`. -/
def execDroopStretchEnd (r : Nat) (s : State) : Out :=
  if 16 ≤ r then .fault (.noSuchUnit "region" r)
  else if (s.region r).stretch then .next (s.modRegion r fun x => { x with stretch := false, deferOn := true })
  else .next s

/-- `STEP_DEFER_EXPIRY`: 1 µs after a stretch the deferred step applies. -/
def execStepDeferExpiry (r : Nat) (s : State) : Out :=
  if 16 ≤ r then .fault (.noSuchUnit "region" r)
  else if (s.region r).deferOn then
    .next (s.modRegion r fun x => { x with deferOn := false, run := x.defer.getD x.run, defer := none })
  else .next s

/-! ## Input voltage (R429, R475, R538) -/

def State.setVin (s : State) (mv : Nat) : State := s.modPower fun p => { p with vin := mv }

/-- `UV_CLAMP`. -/
def execUvClamp (mv : Nat) (s : State) : Out :=
  if s.islands ∧ mv < 46000 then
    .next (((((s.setVin mv).modPower fun p => { p with clamp := true, recover := false }).applyRun 16 true)).alert 0)
  else .next s

/-- `UV_RELEASE`: the porters resume, the running step starts to rise. -/
def execUvRelease (mv : Nat) (s : State) : Out :=
  if s.islands ∧ s.power.clamp ∧ 47000 < mv then
    .next ((s.setVin mv).modPower fun p => { p with clamp := false, recover := true })
  else .next s

/-- What a brownout and a lost reference clock leave of the islands (R429). -/
def keepBrown : Keep := { chrono := true, cap := true, align := true, bal := false, hours := true }

/-- A brownout (R429): all outside the islands loses power; the Llyn ports that ran are `DOWN`. (DEDUCED, log 40) -/
def State.brownout (s : State) : State :=
  let s1 := (s.cold keepBrown).modPower fun p => { p with brown := true, brownF := s.power.brownF }
  s1.forAll (List.range 32) fun y k => if (s.port k).st = 0 then y else y.modPort k fun x => { x with st := 6 }

/-- `BROWNOUT`. -/
def execBrownout (mv : Nat) (s : State) : Out :=
  if s.power.on ∧ ¬ s.power.brown ∧ (mv < 42000 ∨ 62000 < mv) then
    .next ((s.setVin mv).brownout.readyFrom s)
  else .next s

/-- The module starts again after a brownout (R429, R475 step 1). -/
def State.restartCold (s : State) : State :=
  (s.cold keepBrown).modPower fun p => { p with brownF := true, trip := s.power.trip }

/-- `BROWNOUT_RECOVERY`. -/
def execBrownoutRecovery (mv : Nat) (s : State) : Out :=
  if s.power.on ∧ s.power.brown ∧ s.power.refOk ∧ ¬ s.pins.resetLow ∧ 48000 ≤ mv ∧ mv ≤ 59500 then .next (s.setVin mv).restartCold
  else .next s

/-- `ISLANDS_STOP`: the module is unpowered. -/
def execIslandsStop (mv : Nat) (s : State) : Out :=
  if s.power.on ∧ mv < 36000 then
    .next (((s.setVin mv).cold { chrono := false, cap := false, align := false, bal := false, hours := false }).modPower
      fun p => { p with on := false })
  else .next s

/-- `POWER_ON` (R411, R468, R475): the islands start, the slot pins are sampled. -/
def execPowerOn (mv slot : Nat) (s : State) : Out :=
  if ¬ s.power.on ∧ 36000 ≤ mv then
    let s1 := (s.setVin mv).cold { chrono := false, cap := false, align := false, bal := false, hours := false }
    .next ((s1.modPower fun p => { p with on := true }).modPins fun n => { n with
      slot := slot % 8, slotNow := slot % 8, changed := false })
  else .next s

/-- `REFCLK_LOSS` (R538, R547): handled as a brownout; the trip latch stays. While `RESET_L` is low nothing is recorded. -/
def execRefclkLoss (s : State) : Out :=
  let s1 := s.modPower fun p => { p with refOk := false }
  if s.islands then .next ((s1.brownout.modPower fun p => { p with trip := s.power.trip }).readyFrom s) else .next s1

/-- `REFCLK_RETURN` (R538). -/
def execRefclkReturn (mv : Nat) (s : State) : Out :=
  if s.power.on ∧ ¬ s.power.refOk ∧ 48000 ≤ mv ∧ mv ≤ 59500 then
    let s1 := (s.setVin mv).modPower fun p => { p with refOk := true }
    .next (if s.power.brown ∧ ¬ s.pins.resetLow then s1.restartCold else s1)
  else .next s

/-! ## Regions (R218, R415, R472, R473) -/

/-- A region's clocks stop: no stretch, no deferred step (R439). -/
def Region.still (x : Region) : Region := { x with stretch := false, deferOn := false, defer := none }

/-- A stack enters self-refresh (R218): from ready or training; unpowered and failed ones stay. -/
def Stack.rest (x : Stack) : Stack := if x.st = 1 ∨ x.st = 2 then { x with st := 3 } else x

def State.restStacks (s : State) (r : Nat) : State := (s.modStk (2 * r) Stack.rest).modStk (2 * r + 1) Stack.rest

/-- Tiles and clusters of a region with their registers and SRAM at reset (R471 to R473); a fenced tile stays fenced. -/
def State.clearUnits (s : State) (r : Nat) : State :=
  let s1 := s.forAll (regionTiles r) fun s t => s.setTile t { st := if s.rel.fencedTiles.contains t then 9 else 1 }
  (s1.forAll ((List.range 12).map (12 * r + ·)) fun s c => s.setCluster c {}).stepLost

/-- The records of a region's part of a held fix are cleared (R473). -/
def Dbg.dropRegion (d : Dbg) (r : Nat) : Dbg :=
  { d with recs := d.recs.filter fun e =>
      let l := e.1 / 2 ^ 24
      let u := e.1 / 2 ^ 12 % 2 ^ 12
      !((l == 0 && regionOf u == r) || (l == 1 && u / 12 == r) || (l == 2 && u == r)) }

/-- What a region loses with its SRAM: tiles, clusters, its part of a fix, its controllers' counters (R473). -/
def State.loseRegion (s : State) (r : Nat) : State :=
  let s1 := (s.clearUnits r).modDbg fun d => d.dropRegion r
  (s1.modStk (2 * r) fun x => { x with ctr := [] }).modStk (2 * r + 1) fun x => { x with ctr := [] }

/-- A region goes to sleep: an off or tripped one stays (R389). -/
def State.sleepOne (s : State) (r : Nat) : State :=
  if (s.region r).pwr = 0 ∨ (s.region r).pwr = 3 then
    (s.modRegion r fun x => { x.still with pwr := 1, goal := 1 }).restStacks r
  else s

/-- A region is turned off (R389, R473). -/
def State.offOne (s : State) (r : Nat) : State :=
  if (s.region r).pwr = 2 ∨ (s.region r).pwr = 4 then s
  else ((s.loseRegion r).modRegion r fun x => { x.still with pwr := 2, goal := 2, watts := 0 }).restStacks r

/-- A region starts to wake, its stacks train after off (R415, R474). -/
def State.wakeOne (s : State) (r : Nat) : State :=
  let x := s.region r
  if x.pwr = 1 ∨ x.pwr = 2 then
    let s1 := s.modRegion r fun x => { x with pwr := 3, goal := 0 }
    if x.pwr = 2 then
      let train := fun (y : Stack) => if y.st = 4 ∨ y.st = 0 then y else { y with st := 1 }
      (s1.modStk (2 * r) train).modStk (2 * r + 1) train
    else s1
  else if x.pwr = 3 then s.modRegion r fun x => { x with goal := 0 }
  else s

/-- The mask of regions in a state. -/
def State.inPwr (s : State) (n : Nat) : Nat := maskOf 16 fun r => decide ((s.region r).pwr = n)

/-- The regions a mask names. -/
def named (m : Nat) : List Nat := (List.range 16).filter m.testBit

/-- The states that the regions of a sight between jobs return to, changed for those listed (R455). -/
def Rel.saveAs (x : Rel) (l : List Nat) (f : Nat → Nat) : Rel :=
  { x with sgSaved := x.sgSaved.map fun p => (p.1, if l.elem p.1 then f p.2 else p.2) }

/-- The entry's regions are in no region reset (R477). (DEDUCED, log 45) -/
def State.noReset (s : State) (e : List Word) : Bool := (named (fld (argOf e 1) 0 16)).all fun r => !(s.region r).rstBusy

/-- `REGION_SLEEP` and, with `OFF`, `REGION_OFF` (R28, R319, R389). During a sight between jobs the regions take their state when
it ends (R455). (DEDUCED, log 40) -/
def regionDown (k : Nat) (off : Bool) (s : State) : Out :=
  helmCmd k 0x70 s (fun e => decide (bit (argOf e 1) 16 = off) && s.noReset e) fun s e =>
    let l := named (fld (argOf e 1) 0 16)
    if s.stow.hostBusy ∨ (s.job.img.isSome ∧ l.any s.job.needs.testBit) then s.complete k 2 []
    else
      let s1 := if s.rel.sgRun = 1 then s.modRel fun x => x.saveAs l fun old => if off ∨ old = 2 then 2 else 1
        else s.forAll l (if off then State.offOne else State.sleepOne)
      let s2 := s1.refreshPorts.readyFrom s
      s2.complete k 0 [place 0 16 (s2.inPwr 1) ||| place 16 16 (s2.inPwr 2)]

/-- `REGION_SLEEP` without `OFF`. -/
def execRegionSleep (k : Nat) (s : State) : Out := regionDown k false s

/-- `REGION_SLEEP` with `OFF`. -/
def execRegionOff (k : Nat) (s : State) : Out := regionDown k true s

/-- Completes a `REGION_WAKE` in progress whose regions are all ready, or that cannot end (R389, R432). -/
def State.finishWakes (s : State) : State :=
  match s.helm.serialBusy with
  | none => s
  | some k =>
    let e := (s.page k).cur
    if opcOf e = 0x71 then
      let ready := [place 0 16 (maskOf 16 s.regionReady)]
      if s.power.trip ∨ s.power.deep ≠ 0 then s.complete k 0x0F ready
      else if (named (fld (argOf e 1) 0 16)).all s.regionReady then s.complete k 0 ready
      else s
    else s

/-- `REGION_WAKE` (R28, R389, R415). (DEDUCED, log 40) -/
def execRegionWake (k : Nat) (s : State) : Out :=
  helmCmd k 0x71 s s.noReset fun s e =>
    let l := named (fld (argOf e 1) 0 16)
    if s.job.img.isSome ∧ l.any s.job.needs.testBit then s.complete k 2 []
    else if s.power.trip ∨ s.power.deep ≠ 0 then s.finishWakes
    else
      let s1 := if s.rel.sgRun = 1 then
          s.modRel fun x => x.saveAs l fun _ => 0
        else s
      ((s1.forAll l State.wakeOne).refreshPorts.readyFrom s).finishWakes

/-- A stack of a waking region is trained: ready in a region that is on, else in self-refresh (R218, R474, R475). -/
def Stack.trained (x : Stack) (on : Bool) : Stack := if x.st = 4 then x else { x with st := if on then 2 else 3 }

/-- `REGION_READY` (R415, R471, R474, R475). -/
def execRegionReady (r : Nat) (s : State) : Out :=
  if 16 ≤ r then .fault (.noSuchUnit "region" r)
  else
    let x := s.region r
    if s.power.trip then .next s
    else if x.pwr = 3 then
      let s1 := s.modRegion r fun x => { x with
        pwr := x.goal, run := if x.goal = 0 then s.power.run else x.run, pat := if x.goal = 0 then 0 else x.pat }
      let s2 := (s1.modStk (2 * r) fun y => y.trained (x.goal == 0)).modStk (2 * r + 1) fun y => y.trained (x.goal == 0)
      .next (s2.readyFrom s).finishWakes
    else if x.rstBusy then
      let s1 := s.modRegion r fun x => { x.join s.power.run with rstBusy := false }
      let s2 := (s1.modStk (2 * r) fun y => y.trained true).modStk (2 * r + 1) fun y => y.trained true
      .next (s2.readyFrom s)
    else .next s

/-- `HBM_SELF_REFRESH_IDLE` (R218). -/
def execHbmSelfRefreshIdle (k : Nat) (s : State) : Out :=
  if 32 ≤ k then .fault (.noSuchUnit "stack" k)
  else if (s.stk k).st = 2 ∧ (s.region (k / 2)).pwr ≠ 0 then .next (s.modStk k fun x => { x with st := 3 })
  else .next s

/-! ## Power requests (R413, R414, R439) -/

/-- Deep idle: every region off, every Llyn port off. During a sight between jobs the regions follow when it ends (R455). -/
def State.deepIdle (s : State) : State :=
  let s1 := s.modPower fun p => { p with deep := 1 }
  let s2 := if s.rel.sgRun = 1 then s1.modRel fun x => x.saveAs (List.range 16) fun _ => 2
    else s1.forAll (List.range 16) State.offOne
  (s2.refreshPorts).readyFrom s

/-- Always-on only: what the islands keep (R414, R473). -/
def keepIslands : Keep := { chrono := true, cap := true, align := true, bal := true, hours := true }

/-- Applies or refuses the last `REQ` (R414). (DEDUCED, log 40) -/
def State.applyReq (s : State) : State :=
  let ok := s.job.img.isNone && !s.stow.busy && !s.stow.hostBusy
  let set := fun (s : State) (n : Nat) => s.modPower fun p => { p with preq := n }
  match s.power.req with
  | 1 => if ok then set (if s.power.deep = 1 then s else s.deepIdle) 0 else set s 2
  | 2 => if ok ∧ s.stow.area = 0 then
      ((s.cold keepIslands).modPower fun p => { p with deep := 2 }).readyFrom s
    else set s 2
  | _ => set (((s.modPower fun p => { p with deep := 0 }).refreshPorts).readyFrom s) 0

/-- A write of `DEV_PWR_CTL.REQ`: while a serial command runs it is pending (R439). -/
def State.powerReq (s : State) (n : Nat) : State :=
  let s1 := s.modPower fun p => { p with req := n, preq := 1 }
  if s.helm.serialBusy.isSome then s1 else s1.applyReq

/-- A pending request is resolved once no serial command runs. -/
def State.pendingReq (s : State) : State := if s.power.preq = 1 ∧ s.helm.serialBusy.isNone then s.applyReq else s

/-- `DEEP_IDLE_REQUEST`. -/
def execDeepIdleRequest (s : State) : Out := if s.regsOn then .next (s.powerReq 1) else .next s

/-- `ALWAYS_ON_ONLY_REQUEST`. -/
def execAlwaysOnOnlyRequest (s : State) : Out := if s.regsOn then .next (s.powerReq 2) else .next s

/-- `POWER_REQUEST_NONE`. -/
def execPowerRequestNone (s : State) : Out := if s.regsOn then .next (s.powerReq 0) else .next s

/-- `ALWAYS_ON_EXIT`: the module starts as after power-on (R414). -/
def execAlwaysOnExit (s : State) : Out :=
  if s.power.deep = 2 ∧ ¬ s.pins.resetLow then .next (s.cold keepIslands) else .next s

/-! ## Heat (R430 to R432) -/

/-- The hottest logic die against the target; during a sight the target is 5 °C higher (R454). -/
def State.target (s : State) : Nat := s.power.ttgt + (if s.rel.sgRun = 0 then 0 else 5)

/-- The temperatures become those the registers show. -/
def State.setTemps (s : State) (m : ThermalSample) : State :=
  let s1 := s.forAll (List.range 16) fun s r => s.modRegion r fun x => { x with temp := m.dies.getD r 0, iotemp := m.ios.getD r 0 }
  s1.forAll (List.range 32) fun s k => s.modStk k fun x => { x with temp := m.stks.getD k 0 }

/-- `THERMAL_CONTROL_PERIOD` (R430). (DESIGN CHOICE, log 43) -/
def execThermalControlPeriod (m : ThermalSample) (s : State) : Out :=
  if s.islands then
    let hot := max (hottest m.dies) (hottest m.ios)
    let t := s.target
    let s1 := (s.setTemps m).modPower fun p => { p with
      thermStep := if t < hot then max 16 (p.thermStep - 2) else if hot + 2 < t then min 64 (p.thermStep + 1) else p.thermStep }
    let s2 := s1.forAll (List.range 32) fun s k => s.modStk k fun x =>
      { x with hot := if 95 < x.temp then true else if x.temp < 90 then false else x.hot }
    .next (if t < hot then s2.alert 1 else s2)
  else .next s

/-- Clocks stop in every region and every stack enters self-refresh (R431). (DEDUCED, log 25) -/
def State.tripAll (s : State) : State :=
  s.forAll (List.range 16) fun s r =>
    (s.modRegion r fun x => { x.still with pwr := 4, goal := 1, rstBusy := false }).restStacks r

/-- A sensor's temperature as the registers show it. -/
def State.setSensor (s : State) (kind idx temp : Nat) : State :=
  if kind = 0 then s.modRegion idx fun x => { x with temp := temp }
  else if kind = 1 then s.modRegion idx fun x => { x with iotemp := temp }
  else s.modStk idx fun x => { x with temp := temp }

/-- A trip loses a tile's combine buffer: rows, contribution blocks and result blocks (R259). -/
def Tile.loseMeets (x : Tile) : Tile :=
  x.modXs fun v => { v with rows := [], outBlk := [], blks := v.blks.filter fun b => decide (b.key.getD 2 0 ≠ 1) }

/-- The thermal trip (R431): a sight ends without outcome (R466); fix latches at this tick; combine buffers are lost (R259); a stow that the
partner was sending here ends (R330). -/
def State.tripNow (s : State) (kind idx temp : Nat) : State :=
  let s1 := ((s.setSensor kind idx temp).modPower fun p => { p with trip := true }).tripAll
  let s2 := (s1.modRel fun r => { r with sgRun := 0, sgSaved := [] }).readyFrom s
  let s3 := (s2.alert 2).devFault 0x46 (idx % 32 + kind * 2 ^ 8 + temp % 256 * 2 ^ 16)
  let s4 := if s3.dbg.latched ∧ s.job.img.isNone then s3
    else s3.modDbg fun d => { d with pendSrc := some 2, pendTick := s.now, pendJob := s.job.img.isSome }
  ((s4.forAll s.job.tiles fun s t => s.modTile t Tile.loseMeets).modStow fun w => { w with hostBusy := false }).finishWakes

/-- `THERMAL_TRIP` (R431, R447, R466): kind 0 a compute die, 1 an I/O die, 2 a stack. (DESIGN CHOICE, log 8) -/
def execThermalTrip (kind idx temp : Nat) (s : State) : Out :=
  if 2 < kind then .fault (.noSuchUnit "sensor kind" kind)
  else if (if kind = 2 then 32 else 16) ≤ idx then .fault (.noSuchUnit "sensor" idx)
  else if s.islands = false ∨ s.power.trip = true ∨ temp < (if kind = 2 then 105 else 115) then .next s
  else .next (s.tripNow kind idx temp)

/-- Whether every die and stack has cooled (R432). -/
def State.cooled (s : State) : Bool :=
  ((List.range 16).all fun r => decide ((s.region r).temp < 85 ∧ (s.region r).iotemp < 85)) &&
    (List.range 32).all fun k => decide ((s.stk k).temp < 80)

/-- A write of 1 to `TRIP` (R432): every region is asleep, in deep idle off. (DEDUCED, log 25) -/
def State.clearTrip (s : State) : State :=
  if s.power.trip ∧ s.cooled then
    let s1 := (s.modPower fun p => { p with trip := false }).forAll (List.range 16) fun s r =>
      if (s.region r).pwr = 4 then s.modRegion r fun x => { x with pwr := 1, goal := 1 } else s
    let s2 := if s.power.deep = 1 then s1.forAll (List.range 16) State.offOne else s1
    (s2.refreshPorts).readyFrom s
  else s

/-- `DEV_PWR_STAT_TRIP_CLEAR`. -/
def execDevPwrStatTripClear (s : State) : Out := if s.regsOn then .next s.clearTrip else .next s

/-! ## Telemetry and the ledger (R400, R437, R438) -/

/-- `TELEMETRY_SAMPLE`. (DESIGN CHOICE, log 43) -/
def execTelemetrySample (m : TelemetrySample) (s : State) : Out :=
  if s.islands then
    let s1 := ((s.setTemps m.temps).setVin m.mv).modPower fun p => { p with telem := m, telemNs := p.chrono }
    .next (s1.forAll (List.range 16) fun s r => s.modRegion r fun x => { x with watts := m.regW.getD r 0, mv := m.regMv.getD r 0 })
  else .next s

/-- The energy of count `i` (R438): its number times the coefficient in force. -/
def Power.energy (p : Power) (i n : Nat) : Nat := n * p.coefs.getD i (Config.ledgerCoef i)

/-- The account count `i` is charged to (R437); a sight at a stow point charges the job's activity to ballast (R455). (DESIGN CHOICE, log 43) -/
def accountOf (sight : Bool) (i : Nat) : Nat := if sight ∧ i % 8 < 4 then 4 else i % 8

/-- `LEDGER_ACCUMULATE` (R437, R438): the activity counts of 10 µs, count i belonging to account i mod 8. (DESIGN CHOICE, log 43) -/
def execLedgerAccumulate (acts : List Nat) (s : State) : Out :=
  if s.islands then
    let sum := ((acts.zipIdx).map fun p => s.power.energy p.2 p.1).sum
    let s1 := s.modPower fun p => { p with total := p.total + BitVec.ofNat 64 sum }
    if s.job.img.isNone then .next s1
    else .next (s1.modPower fun p => { p with
      ledger := p.ledger + BitVec.ofNat 64 sum
      acct := (acts.zipIdx).foldl (fun m q =>
        Map.mod 0 m (accountOf (s.rel.sgRun == 2) q.2) (· + BitVec.ofNat 64 (p.energy q.2 q.1))) p.acct })
  else .next s

/-- `LEDGER_REFIT` (R438). (DESIGN CHOICE, log 43) -/
def execLedgerRefit (coefs : List Nat) (s : State) : Out :=
  if s.helm.run then .next (s.modPower fun p => { p with coefs := coefs, fitNs := s.now }) else .next s

end Sys2Proof.Machine
end

