-- ==== Sys2Proof/Machine/Resets.lean ====
section
/-! DEFINITION. Resets and bring-up (chapter 17): `RESET_L`, the boot of the helm, tile and region reset, the strap pins and
boundary scan (R479, R539). -/

namespace Sys2Proof.Machine

/-! ## Module reset (R467, R468) -/

/-- `RESET_L_ASSERT` (R468, R473, R547): everything but fuses, flash, the alignment record and the ballast base is reset; a clamp
or brownout follows the input. -/
def execResetLAssert (s : State) : Out :=
  if s.power.on ∧ ¬ s.pins.resetLow then
    let s1 := s.cold { chrono := false, cap := false, align := true, bal := true, hours := true }
    .next ((s1.modPower fun p => { p with
      brown := s.power.brown, clamp := s.power.clamp, run := if s.power.clamp then 16 else 64 }).modPins
        fun n => { n with resetLow := true, smb := none })
  else .next s

/-- `RESET_L_DEASSERT` (R412, R468): the slot pins are sampled, the chronometer starts at 0. -/
def execResetLDeassert (slot : Nat) (s : State) : Out :=
  if s.pins.resetLow then
    .next ((s.modPower fun p => { p with chrono := 0 }).modPins fun n => { n with
      resetLow := false, chain := [], slot := slot % 8, slotNow := slot % 8, changed := false })
  else .next s

/-! ## Bring-up (R475, R510) -/

/-- `HELM_DIE_POWER_UP` (R475 step 2): the input and the reference clock are in range; the boot ROM starts, Riendlink trains. -/
def execHelmDiePowerUp (s : State) : Out :=
  let p := s.power
  if s.islands ∧ p.refOk ∧ p.deep ≠ 2 ∧ s.helm.stage = 0 ∧ 48000 ≤ p.vin ∧ p.vin ≤ 59500 then
    .next ((s.modHelm fun h => { h with stage := 1 }).modRl fun r => { r with st := 2 })
  else .next s

/-- Whether a bank verifies (R508, R510, R512). -/
def Helm.verifies (h : Helm) (b : Nat) : Bool :=
  let x := Map.get {} h.banks b
  x.ok && !(h.revoke.testBit x.key) && decide (h.fuse ≤ x.svn)

/-- The firmware of a bank runs: mailboxes are served, pending fences committed, a waiting window request goes on (R383, R403,
R458). -/
def State.helmRuns (s : State) (b : Nat) : State :=
  let s1 := s.modHelm fun h => { h with run := true, stage := 4, bank := b, ver := (Map.get {} h.banks b).ver, restart := none }
  let s2 := (s1.modPins fun p => { p with readyLow := false }).readyFrom s
  let s3 := s2.forAll (List.range 64) fun s k => (s.drainPage k 300).serveBad k 32
  (s3.commitFences).retryHcw

/-- The helm brings every region up (R475 step 4): it ends asleep, its stacks trained and in self-refresh. -/
def State.bringUp (s : State) : State :=
  let s1 := s.forAll (List.range 16) fun s r => s.modRegion r fun x => { x with pwr := 3, goal := 1 }
  s1.forAll (List.range 32) fun s k => s.modStk k fun x => if x.st = 4 then x else { x with st := 1 }

/-- `BOOT_ROM_VERIFY_DONE` (R510): the active bank, else the other one, else held in boot ROM. -/
def execBootRomVerifyDone (s : State) : Out :=
  let h := s.helm
  if (h.stage = 1 ∨ h.stage = 2) ∧ h.restart = none then
    if h.verifies h.bank then .next (s.bringUp.helmRuns h.bank)
    else if h.verifies (1 - h.bank) then .next (s.bringUp.helmRuns (1 - h.bank))
    else .next (s.modHelm fun h => { h with stage := 5 })
  else .next s

/-! ## Tile and region reset (R470, R471) -/

/-- A tile's part of a held fix is cleared (R470). -/
def Dbg.dropTile (d : Dbg) (t : Nat) : Dbg :=
  { d with recs := d.recs.filter fun e => !(e.1 / 2 ^ 12 == t) }

/-- A write of 1 to `TILE_RST.REQ`. (DEDUCED, log 42) -/
def State.tileReset (s : State) (t : Nat) : State :=
  if s.regionOn (regionOf t) then
    let x := s.tile t
    if (x.st = 1 ∨ x.st = 9) ∧ ¬ s.job.tiles.contains t then (s.setTile t { st := x.st }).modDbg fun d => d.dropTile t
    else s.modTile t fun x => { x with misc := { x.misc with refused := true } }
  else s

/-- `TILE_RST` (R470). -/
def execTileRst (t : Nat) (s : State) : Out :=
  if 2304 ≤ t then .fault (.noSuchUnit "tile" t)
  else if s.regsOn then .next (s.tileReset t) else .next s

/-- A write of 1 to `REGION_RST.REQ`. (DEDUCED, log 40) -/
def State.regionReset (s : State) (r : Nat) : State :=
  let x := s.region r
  if x.pwr = 0 ∧ ¬ x.rstBusy ∧ ¬ (s.job.img.isSome ∧ s.job.needs.testBit r = true) ∧ ¬ s.stow.busy ∧ ¬ s.stow.hostBusy then
    let s1 := (s.loseRegion r).modRegion r fun x => { x with
      rstBusy := true, refused := false, fault := 0, faultTime := 0, stretch := false, defer := none, deferOn := false, ctr := [] }
    (s1.restStacks r).readyFrom s
  else s.modRegion r fun x => { x with refused := true }

/-- `REGION_RST` (R471). -/
def execRegionRst (r : Nat) (s : State) : Out :=
  if 16 ≤ r then .fault (.noSuchUnit "region" r)
  else if s.regsOn then .next (s.regionReset r) else .next s

/-! ## Straps and boundary scan (R479, R539) -/

/-- `SLOT_ID_CHANGE` (R539). -/
def execSlotIdChange (v : Nat) (s : State) : Out :=
  .next (s.modPins fun p => { p with slotNow := v % 8, changed := decide (v % 8 ≠ p.slot) })

/-- `EXTEST` (R479): only while `RESET_L` is low; otherwise it acts as `BYPASS`. (DESIGN CHOICE, log 8) -/
def execExtest (chain : List Bool) (s : State) : Out :=
  if s.pins.resetLow ∧ s.power.on then .next (s.modPins fun p => { p with chain := chain }) else .next s

end Sys2Proof.Machine
end

