-- ==== Sys2Proof/Machine/Firmware.lean ====
section
/-! DEFINITION. Firmware packages, activation and the helm watchdog (R402 to R404, R507 to R520), attestation, the links'
configuration (R346 to R348) and the SMBus target (R405, R406, R536). -/

namespace Sys2Proof.Machine

/-! ## Packages (R507, R508, R514, R515) -/

/-- A little-endian integer field of a byte string. -/
def leAt (b : List Byte) (off n : Nat) : Nat := leNat ((b.drop off).take n)

/-- The digest a package's signature signs, which is the firmware measurement (R507). -/
def pkgDigest (b : List Byte) : Nat := Config.sha256 (b.take 88 ++ (b.drop 152).take (leAt b 16 4))

/-- The owner record of a package, empty for none. -/
def pkgOwner (b : List Byte) : List Byte := (b.drop (152 + leAt b 16 4)).take (leAt b 20 4)

/-- The checks of R508 apart from `SVN`. (DESIGN CHOICE, log 7) -/
def Helm.pkgSigned (h : Helm) (b : List Byte) : Bool :=
  decide (leAt b 0 4 = 0x4D57464B) && decide (leAt b 4 2 = 1) && decide (leAt b 6 1 ≤ 3) && !(h.revoke.testBit (leAt b 6 1)) &&
    decide (Config.sha256 ((b.drop 24).take 64) = Map.get 0 h.keys (leAt b 6 1)) &&
    Config.p256Ok ((b.drop 24).take 64) (pkgDigest b) ((b.drop 88).take 64)

/-- Whether an owner record may be stored: well formed, and signed by the owner the module has (R514, R515). -/
def Helm.ownerOk (h : Helm) (r : List Byte) : Bool :=
  decide (r.length = 144) && decide (leAt r 0 4 = 0x52574E4F) && decide (h.ownSeq < leAt r 4 4) && decide (leAt r 8 8 < 4) &&
    (h.owner.isEmpty || Config.p256Ok h.owner (Config.sha256 (r.take 80)) ((r.drop 80).take 64))

/-- The owner record takes effect (R514, R515): a key of zeros releases ownership. -/
def Helm.storeOwner (h : Helm) : Helm :=
  let r := h.ownNext
  if r.isEmpty then h
  else
    let key := (r.drop 16).take 64
    { h with
      owner := if key.all (· == 0) then [] else key
      ownSeq := leAt r 4 4, policy := leAt r 8 8 % 4, ownNext := [] }

/-- The status of a package read for `FW_STAGE` of a given length (R389, R508, R511): `DATA`, `SIG`, `ROLLBACK` or `OK`. (DEDUCED, log 31) -/
def Helm.stageStatus (h : Helm) (len : Nat) (b : List Byte) : Nat :=
  if b.length ≠ len ∨ 2 ^ 22 < len ∨ 152 + leAt b 16 4 + leAt b 20 4 ≠ len then 9
  else if h.pkgSigned b = false then 6
  else if leAt b 12 2 < h.fuse then 7
  else if leAt b 20 4 ≠ 0 ∧ h.ownerOk (pkgOwner b) = false then 6
  else 0

/-- `FW_STAGE` (R511): `pkg` is what the host read returned, none for `ERR`. (DEDUCED, log 31) -/
def execFwStage (k : Nat) (pkg : Option (List Byte)) (s : State) : Out :=
  plainCmd k 0x50 s fun s e =>
    match pkg with
    | none => s.complete k 9 []
    | some b =>
      let st := s.helm.stageStatus (argOf e 2).toNat b
      if st ≠ 0 then s.complete k st []
      else
        let bank : FwBank := {
          pkg := b, ok := true, ver := leAt b 8 4, svn := leAt b 12 2, key := leAt b 6 1, meas := pkgDigest b }
        let s1 := s.modHelm fun h => { h with
          banks := Map.set {} h.banks (1 - h.bank) bank, staged := true, ownNext := pkgOwner b }
        (s1.raiseMsi 68).complete k 0 [place 0 32 bank.ver]

/-! ## Activation and the watchdog (R403, R404) -/

/-- The helm stops and restarts (R403): mailboxes are not served, the boot ROM verifies. -/
def State.helmRestarts (s : State) (cause k : Nat) : State :=
  (s.modHelm fun h => { h with run := false, stage := 2, restart := some (cause, k) }).readyFrom s

/-- `FW_ACTIVATE` (R403): not taken while a sight runs (R466); nothing staged completes with `STATE`. (DEDUCED, log 31) -/
def execFwActivate (k : Nat) (s : State) : Out :=
  helmCmd k 0x51 s (fun _ => decide (s.rel.sgRun = 0)) fun s _ =>
    if s.helm.staged then s.helmRestarts 0 k else s.complete k 2 []

/-- What a helm restart leaves of commands that were waiting for something (R398, R404, R407): each completes with `ABORTED`. (DEDUCED, log 31) -/
def State.abortCommands (s : State) : State :=
  let s1 := s.forAll (List.range 64) fun s k => s.complete k 0x0E []
  let s2 := s1.modJob fun j => { j with
    js := if j.js = 3 ∧ ¬ j.startPend then 2 else if j.js = 7 then 6 else j.js
    wave := { j.wave with pausePages := [], pauseReq := if j.wave.pauseReq = 1 then 0 else j.wave.pauseReq } }
  (s2.modStow fun w => { w with
    busy := if w.restore.isSome then false else w.busy
    freeze := if w.restore.isSome then false else w.freeze
    restore := none, cfgPage := none }).modDbg fun d =>
      { d with sxPage := none, sxBusy := if d.sxPage.isSome then false else d.sxBusy }

/-- One hour of the chronometer. -/
def hourNs : Nat := 3600000000000

/-- The helm watchdog expires (R404): during an activation the previous bank is restarted and `FW_ACTIVATE` ends with `HW`; a third
expiry within one hour restarts the other bank, or leaves the helm in boot ROM. (DEDUCED, log 31) -/
def State.watchdog (s : State) : State :=
  let h := s.helm
  let times := s.now :: h.wdTimes.filter fun t => decide (s.now ≤ t + hourNs)
  let s1 := ((s.modHelm fun h => { h with run := false, wdcnt := min 255 (h.wdcnt + 1), wdTimes := times }).readyFrom s).alert 5
  match h.restart with
  | some (0, k) => (s1.complete k 0x0F []).helmRestarts 3 k
  | _ =>
    let s2 := s1.abortCommands
    if times.length < 3 then s2.helmRestarts 1 0
    else if h.verifies (1 - h.bank) then s2.helmRestarts 2 0
    else (s2.modHelm fun h => { h with stage := 5, restart := none }).readyFrom s

/-- `HELM_WATCHDOG_EXPIRY` (R404). -/
def execHelmWatchdogExpiry (s : State) : Out :=
  if s.helm.run ∨ s.helm.restart.isSome then .next s.watchdog else .next s

/-- The banks a restart tries in order (R403, R404, R510). -/
def Helm.order (h : Helm) (cause : Nat) : List Nat :=
  match cause with
  | 0 => [1 - h.bank, h.bank]
  | 2 => [1 - h.bank]
  | _ => [h.bank, 1 - h.bank]

/-- A `HELM` event goes to page 0 and to the event page (R388). (DEDUCED, log 31) -/
def State.helmEvent (s : State) (cause : Nat) : State :=
  let ws := [s.helm.word, BitVec.ofNat 64 cause]
  let s1 := s.eventTo 0 0xE3 ws
  if s.evPage = 0 then s1 else s1.eventTo s.evPage 0xE3 ws

/-- `HELM_RESTART_DONE` (R403, R404, R512, R515): `ok` is whether the first bank tried verifies as the boot ROM reads it. (DEDUCED, log 31) -/
def execHelmRestartDone (ok : Bool) (s : State) : Out :=
  match s.helm.restart with
  | none => .next s
  | some (cause, k) =>
    let l := s.helm.order cause
    let first := l.headD 0
    match l.find? fun b => s.helm.verifies b && (ok || decide (b ≠ first)) with
    | none =>
      let s1 := s.modHelm fun h => { h with stage := 5, restart := none }
      .next (if cause = 0 then s1.complete k 0x0F [] else s1)
    | some b =>
      let done := decide (cause = 0 ∧ b = first)
      let s1 := if done then s.modHelm fun h => { h.storeOwner with
          staged := false
          fuseTo := if bit (argOf (s.page k).cur 1) 0 then max h.fuseTo (Map.get {} h.banks b).svn else h.fuseTo }
        else if b ≠ s.helm.bank ∨ cause = 0 then s.modHelm fun h => { h with staged := false, ownNext := [] }
        else s
      let v := place 0 32 (Map.get {} s.helm.banks b).ver
      let s2 := if done then s1.complete k 0 [v] else if cause = 0 then s1.complete k 0x0F [] else s1
      let s3 := (s2.helmRuns b).raiseMsi 68
      .next (s3.helmEvent (if done then 0 else if b ≠ first ∨ cause = 2 then 2 else 1))

/-- `HELM_FLASH_WRITE` (R457). (DEDUCED, log 31) -/
def execHelmFlashWrite (s : State) : Out :=
  if s.helm.run then .next (s.modRel fun r => { r with flash := r.evid, flashH := r.hours }) else .next s

/-- One fuse bit is burned where a raise is in progress and the helm runs (R512). (DESIGN CHOICE, log 2; DEDUCED, log 31) -/
def Helm.burn (h : Helm) : Helm := if h.run ∧ h.fuse < min 64 h.fuseTo then { h with fuse := h.fuse + 1 } else h

/-! ## Attestation (R518, R519) -/

/-- A number as big-endian bytes. -/
def natBe (n v : Nat) : List Byte := (natLe n v).reverse

/-- The signed report (R518); the job fields are filled where `job` holds. (DESIGN CHOICE, log 7) -/
def State.attestation (s : State) (nonce : List Byte) (job : Bool) : List Byte :=
  let h := s.helm
  let cert := Config.certChain.take 3808
  let w := fun (b : Bool) (x : Word) => if b then wordBytes x else zeros 8
  let flags := bnat job + 2 * bnat (!h.owner.isEmpty) + 4 * (h.policy % 2) + 8 * (h.policy / 2 % 2)
  let body :=
    natLe 4 0x5441514B ++ natLe 2 1 ++ natLe 2 flags ++ natLe 4 (288 + cert.length) ++ natLe 4 cert.length ++ nonce ++
    wordBytes (Config.identity 0) ++ wordBytes (Config.identity 1) ++ wordBytes devInfo1 ++ wordBytes s.net.modid ++
    wordBytes s.power.chrono ++ natBe 32 h.cur.meas ++ natLe 4 h.ver ++ natLe 2 h.cur.svn ++ natLe 2 h.fuse ++
    (if h.owner.isEmpty then zeros 32 else natBe 32 (Config.sha256 h.owner)) ++
    (if job then natBe 32 s.job.hash else zeros 32) ++ w job (s.jobStatus.headD 0) ++ w job s.job.sstep ++
    w true (place 0 1 (bnat s.dbg.wrote) ||| place 1 1 (bnat s.dbg.bpen) ||| place 2 1 (bnat (bit (s.job.reg 0x90020) 63))) ++
    zeros 8 ++ cert
  body ++ padTo 64 (Config.rootSign 0 (Config.sha256 body))

/-- `ATTEST` (R518, R519). -/
def execAttest (k : Nat) (s : State) : Out :=
  plainCmd k 0x52 s fun s e =>
    let job := bit (argOf e 6) 0
    if job = true ∧ s.job.js < 2 then s.complete k 2 []
    else
      let r := s.attestation ((List.range 4).flatMap fun i => wordBytes (argOf e (1 + i))) job
      let s1 := (s.modHelm fun h => { h with report := r }).modRl fun x => { x with
        hostOut := x.hostOut ++ [((argOf e 5).toNat, r)] }
      s1.complete k 0 [BitVec.ofNat 64 r.length]

/-! ## LINK_CONFIG (R346 to R348) -/

/-- One port as `LINK_CONFIG` sets it. -/
def Port.configured (x : Port) (en dl : Bool) (g : Byte) : Port :=
  { x with en := en, dl := dl, gvalid := g.getLsbD 7, group := g.toNat % 16 }

/-- `LINK_CONFIG`: `table` is what the host read of the 1,056 bytes returned. (DEDUCED, log 45) -/
def execLinkConfig (k : Nat) (table : List Byte) (s : State) : Out :=
  plainCmd k 0x60 s fun s e =>
    if s.job.img.isSome then s.complete k 2 []
    else if table.length ≠ 1056 then s.complete k 9 []
    else
      let w := argOf e 1
      let id := place 63 1 1 ||| place 32 16 (fld w 16 16) ||| place 0 10 (fld w 0 10)
      let at_ := fun (i : Nat) => table.getD i 0
      let rt := (List.range 1024).foldl (fun m n =>
        Map.set 0 m (0x31000 + 8 * n) (place 63 1 (bnat ((at_ (32 + n)).getLsbD 7)) ||| place 0 4 ((at_ (32 + n)).toNat % 16))) s.net.rt
      let s1 := s.modNet fun n => { n with modid := id, rt := rt }
      let s2 := s1.forAll (List.range 32) fun s p =>
        s.modPort p fun x => x.configured (bit (argOf e 2) p) (bit (argOf e 3) p) (at_ p)
      let s3 := if s.net.modid = id then s2
        else s2.forAll (List.range 32) fun s p => if (s.port p).st = 0 then s else s.modPort p fun x => x.dropped 1 x.reason
      ((s3.refreshPorts).readyFrom s).complete k 0 []

/-! ## SMBus (R405, R406, R536) -/

/-- An SMBus transaction: acknowledged and answered unless `RESET_L` is low or the islands are off. (DEDUCED, log 41) -/
def smbusOp (s : State) (s' : State) (answer : Word) : Out :=
  if s.power.on ∧ ¬ s.pins.resetLow then .next (s'.modPins fun p => { p with smb := some answer })
  else .next (s.modPins fun p => { p with smb := none })

/-- `SMB_DEV_INFO`. -/
def execSmbDevInfo (s : State) : Out := smbusOp s s devInfo1
/-- `SMB_HELM_VER`. -/
def execSmbHelmVer (s : State) : Out := smbusOp s s (place 0 16 (s.helm.ver / 2 ^ 16))
/-- `SMB_READY`. -/
def execSmbReady (s : State) : Out := smbusOp s s (place 0 16 (fld s.readyWord 0 16))
/-- `SMB_INPUT_MV`. -/
def execSmbInputMv (s : State) : Out := smbusOp s s (place 0 16 s.power.telem.mv)
/-- `SMB_INPUT_CURRENT`. -/
def execSmbInputCurrent (s : State) : Out := smbusOp s s (place 0 16 s.power.telem.cur10mA)
/-- `SMB_INPUT_POWER`. -/
def execSmbInputPower (s : State) : Out := smbusOp s s (place 0 16 s.power.telem.watts)
/-- `SMB_HOTTEST_DIE`. (DEDUCED, log 41) -/
def execSmbHottestDie (s : State) : Out :=
  smbusOp s s (place 0 8 (max (hottest s.power.telem.temps.dies) (hottest s.power.telem.temps.ios)))
/-- `SMB_HOTTEST_STACK`. -/
def execSmbHottestStack (s : State) : Out := smbusOp s s (place 0 8 (hottest s.power.telem.temps.stks))
/-- `SMB_THROTTLE`. -/
def execSmbThrottle (s : State) : Out := smbusOp s s (place 0 16 s.activeMask)
/-- `SMB_CAP_READ`. -/
def execSmbCapRead (s : State) : Out := smbusOp s s (place 0 16 s.power.smbCap)
/-- `SMB_CAP_WRITE` (R406): ignored outside its range. -/
def execSmbCapWrite (v : BitVec 16) (s : State) : Out :=
  let n := v.toNat
  smbusOp s (if n = 0 ∨ (2500 ≤ n ∧ n ≤ 8400) then s.modPower fun p => { p with smbCap := n } else s) 0
/-- `SMB_CAP_IN_FORCE`. -/
def execSmbCapInForce (s : State) : Out := smbusOp s s (place 0 16 s.power.cap)
/-- `SMB_THERMAL_TARGET`. -/
def execSmbThermalTarget (s : State) : Out := smbusOp s s (place 0 8 s.power.ttgt)
/-- `SMB_ALERTS_READ`. -/
def execSmbAlertsRead (s : State) : Out := smbusOp s s (place 0 16 s.power.alerts)

/-- Whether the condition of an alert bit that is a level still holds (R405, R536). (DEDUCED, log 41) -/
def State.alertHolds (s : State) (b : Nat) : Bool :=
  match b with
  | 0 => s.power.clamp
  | 1 => (List.range 16).any fun r => decide (s.target < (s.region r).temp ∨ s.target < (s.region r).iotemp)
  | 2 => s.power.trip
  | 3 => s.throttled 0
  | _ => false

/-- `SMB_ALERTS_CLEAR` (R536): a bit whose condition still holds sets itself again. (DEDUCED, log 41) -/
def execSmbAlertsClear (v : BitVec 16) (s : State) : Out :=
  let s1 := s.modPower fun p => { p with alerts := p.alerts &&& (0x3F ^^^ (v.toNat % 64)) }
  smbusOp s ((List.range 4).foldl (fun s b => if s.alertHolds b then s.alert b else s) s1) 0

/-- `SMB_CHRONO`. -/
def execSmbChrono (s : State) : Out := smbusOp s s s.power.chrono
/-- `SMB_MODID`. -/
def execSmbModid (s : State) : Out := smbusOp s s (place 0 16 (fld s.net.modid 0 16))
/-- `SMB_ENERGY` (joules). -/
def execSmbEnergy (s : State) : Out := smbusOp s s (BitVec.ofNat 64 (s.power.total.toNat / 1000000))

end Sys2Proof.Machine
end

