-- ==== Sys2Proof/Machine/Image.lean ====
section
/-! DEFINITION. The byte string of a Jeryn image as far as the spec lays it out (R391, R393, R516): header, section table, patch
entries, signature block and measurement. The spec gives the other sections no layout; the command brings what they say. -/

namespace Sys2Proof

open Sys2Proof.Machine

/-! ## Header and section table (R391) -/

/-- The offset of section entry `i`. -/
def sectAt (i : Nat) : Nat := 32 + 32 * i

/-- The offsets of the entries of the section table. -/
def Image.sects (im : Image) : List Nat := (List.range (leAt im.raw 6 2)).map sectAt

/-- The fields of the entry at `o`: type, offset and length of its section, and count. -/
def Image.sectType (im : Image) (o : Nat) : Nat := leAt im.raw o 2
def Image.sectOff (im : Image) (o : Nat) : Nat := leAt im.raw (o + 8) 8
def Image.sectLen (im : Image) (o : Nat) : Nat := leAt im.raw (o + 16) 8
def Image.sectCount (im : Image) (o : Nat) : Nat := leAt im.raw (o + 24) 4

/-- The entry of a section type, the first where there are several. -/
def Image.sect (im : Image) (typ : Nat) : Option Nat := im.sects.find? fun o => decide (im.sectType o = typ)

/-- The bytes of a section; none where the image has no such section. -/
def Image.section_ (im : Image) (typ : Nat) : List Byte := match im.sect typ with
  | some o => (im.raw.drop (im.sectOff o)).take (im.sectLen o)
  | none => []

/-- The byte offset of the first wrong field of a section entry: an unknown type, a field that must be zero, a section that leaves the
image, or patch entries that do not fill theirs. (DEDUCED, log 32) -/
def Image.entryBad (im : Image) (o : Nat) : Option Nat :=
  if im.sectType o = 0 ∨ 13 < im.sectType o then some o
  else if leAt im.raw (o + 2) 2 ≠ 0 then some (o + 2)
  else if leAt im.raw (o + 4) 4 ≠ 0 then some (o + 4)
  else if im.raw.length < im.sectOff o then some (o + 8)
  else if im.raw.length < im.sectOff o + im.sectLen o then some (o + 16)
  else if im.sectType o = 11 ∧ im.sectLen o ≠ 16 * im.sectCount o then some (o + 24)
  else if leAt im.raw (o + 28) 4 ≠ 0 then some (o + 28)
  else none

/-- The byte offset of the first wrong field of header and section table, for an image read with `len` bytes. (DEDUCED, log 32) -/
def Image.headBad (im : Image) (len : Nat) : Option Nat :=
  if leAt im.raw 0 4 ≠ 0x4E59524A then some 0
  else if leAt im.raw 4 2 ≠ 3 then some 4
  else if leAt im.raw 8 8 ≠ len then some 8
  else if im.raw.length < sectAt (leAt im.raw 6 2) then some 6
  else if leAt im.raw 16 16 ≠ 0 then some 16
  else im.sects.findSome? im.entryBad

/-! ## Patches (R393) -/

/-- The patch entry whose 16 bytes start at `b`. -/
def patchOf (b : List Byte) : Patch :=
  let w := wordAt b 0
  { typ := fld w 60 4, area := fld w 58 2, width := fld w 40 6, lsb := fld w 32 6, unit := fld w 16 12, off := (wordAt b 8).toNat }

/-- The patch entries in their order. -/
def Image.patches (im : Image) : List Patch :=
  let b := im.section_ 11
  (List.range (b.length / 16)).map fun i => patchOf (b.drop (16 * i))

/-- The byte offset of the first patch entry of a reserved type (R393, R395). (DEDUCED, log 32) -/
def Image.patchBad (im : Image) : Option Nat :=
  (im.patches.findIdx? fun p => decide (6 < p.typ)).map fun i => im.sectOff ((im.sect 11).getD 0) + 16 * i

/-- Reason `FORMAT` with its byte offset (R395). -/
def Image.formatBad (im : Image) (len : Nat) : Option Nat := match im.headBad len with
  | some d => some d
  | none => im.patchBad

/-! ## Measurement and signature (R391, R516) -/

/-- The image with the bytes of its `SIG` section taken as zero. -/
def Image.unsigned (im : Image) : List Byte := match im.sect 13 with
  | some o => im.raw.take (im.sectOff o) ++ zeros (im.section_ 13).length ++ im.raw.drop (im.sectOff o + (im.section_ 13).length)
  | none => im.raw

/-- The image measurement (R391). -/
def Image.measure (im : Image) : Nat := Config.sha256 im.unsigned

end Sys2Proof

namespace Sys2Proof.Machine

/-- Whether the owner's policy lets the image load (R516): unsigned images where no signature is required, else a block of 128 bytes that
holds the owner's key and a signature of the measurement by it. (DESIGN CHOICE, log 7) -/
def Helm.imageSigned (h : Helm) (im : Image) : Bool :=
  let b := im.section_ 13
  h.policy % 2 == 0 || (decide (b.length = 128) && decide (Config.sha256 (b.take 64) = Config.sha256 h.owner) &&
    Config.p256Ok (b.take 64) im.measure (b.drop 64))

end Sys2Proof.Machine
end

