-- ==== Sys2Proof/Machine/Sight.lean ====
section
/-! DEFINITION. Margin sights (R441, R454 to R458, R466): when a due sight starts, and what its end records and fences. -/

namespace Sys2Proof.Machine

/-- Whether a sight is due (R455): asked for at once, or the hours of service have passed. -/
def Rel.sightDue (r : Rel) : Bool := r.sgNow || decide (r.sgHours * hourNs ≤ r.hours - r.sgSvc)

/-- A region that is asleep or off runs for a sight. -/
def State.runRegion (s : State) (r : Nat) : State :=
  if (s.region r).pwr = 1 ∨ (s.region r).pwr = 2 then s.modRegion r fun x => { x.join s.power.run with pwr := 0 } else s

/-- The opportunity between jobs: every region that is off or asleep is woken (R455). -/
def State.sightBetween (s : State) : State :=
  let saved := (List.range 16).map fun r => (r, (s.region r).pwr)
  let s1 := s.modRel fun x => { x with sgRun := 1, sgSaved := saved }
  ((s1.forAll (List.range 16) State.runRegion).refreshPorts).readyFrom s

/-- `MARGIN_SIGHT` (R455): a due sight starts between jobs, or at a stow point after the freeze; while the job is paused or
halted it waits (R466). (DEDUCED, log 39) -/
def execMarginSight (s : State) : Out :=
  if s.helm.run ∧ s.rel.sightDue ∧ s.rel.sgRun = 0 ∧ s.islands ∧ ¬ s.power.trip then
    if s.job.img.isNone then
      if s.stow.busy ∨ s.stow.hostBusy ∨ s.power.deep = 2 ∨ (List.range 16).any (fun r => decide ((s.region r).pwr = 3)) then .next s
      else .next s.sightBetween
    else if s.rel.sgStow ∧ s.stow.en ∧ s.stow.freeze ∧ s.job.js = 4 ∧ s.suspended = false ∧ 100000000 ≤ (s.job.reg 0x10020).toNat then
      .next (s.modRel fun x => { x with sgRun := 2 })
    else .next s
  else .next s

/-- A region's memories after a sight between jobs. (DEDUCED, log 39) -/
def State.wildRegion (s : State) (r : Nat) : State := s.wildUnits (regionTiles r) ((List.range 12).map (12 * r + ·))

/-- After a sight between jobs a region returns to the state it had, or was asked to take since (R455). (DEDUCED, log 39) -/
def State.sightReturn (s : State) (p : Nat × Nat) : State :=
  let s1 := if p.2 = 2 then s else s.wildRegion p.1
  if p.2 = 2 then s1.offOne p.1 else if p.2 = 1 then s1.sleepOne p.1 else s1

/-- A fault a sight found is recorded at its level and noted in those above (R22, R441): `BALLAST` at a tile, with the unit of R452; for a cluster, a combine unit
or a link the spec names no cause, and cause and detail are free. (DEDUCED, log 39) -/
def State.sightRecord (s : State) (f : SightFault) : State :=
  let n := fun i => Config.freeNat s.free i
  let low := fun (s : State) => s.took
  match f.kind with
  | 0 =>
    let s1 := s.modTile f.id fun x => { x with
      fault := tileFaultWord x.fault 4 0x0C (f.unit % 256 * 2 ^ 24 + n 0 % 4096) 0
      faultTime := if bit x.fault 63 then x.faultTime else BitVec.ofNat 64 s.now }
    low ((s1.modCluster (clusterOf f.id) fun x => { x with fault := x.fault ||| place 61 1 1 }).noteRegion (regionOf f.id))
  | 1 => low ((s.modCluster f.id fun x =>
      let p := recordReg x.fault x.faultTime (n 0 % 256) (n 1) s.now
      { x with fault := p.1, faultTime := p.2 }).noteRegion (f.id / 12))
  | _ =>
    let r := if f.kind = 3 ∧ f.id < 264 then (linkRegions f.id).headD 0 else regionOf (if f.kind = 3 then f.id - 264 else f.id)
    low ((s.modRegion r fun x =>
      let p := recordReg x.fault x.faultTime (n 0 % 256) (n 1) s.now
      { x with fault := p.1, faultTime := p.2 }).modRel fun x => { x with fault := x.fault ||| place 61 1 1 })

/-- The unit a sight's fault fences (R457): the tile, the cluster, the combine unit's router; of a link the die-boundary link, or
else the receiving router (numbered 264 + tile). (DEDUCED, log 39) -/
def sightDecision (f : SightFault) : Nat × Nat :=
  match f.kind with
  | 0 => (0, f.id)
  | 1 => (1, f.id)
  | 2 => (2, f.id)
  | _ => if f.id < 264 then (3, f.id) else (2, f.id - 264)

/-- Whether a reported fault names a unit that exists. -/
def sightReal (f : SightFault) : Bool :=
  match f.kind with
  | 1 => decide (f.id < 192)
  | 3 => decide (f.id < 264 + 2304)
  | _ => decide (f.id < 2304 ∧ f.kind ≤ 3)

/-- The detail of `SIGHT_FAIL` (R447): tile and unit code; for a fault in no tile the tile ID is free. (DEDUCED, log 39) -/
def State.sightDetail (s : State) (f : SightFault) : Nat :=
  if f.kind = 0 then f.id + f.unit % 256 * 2 ^ 16
  else if f.kind = 2 then f.id
  else Config.freeNat s.free 0 % 2 ^ 12

/-- `SIGHT_END` (R455 to R457): outcome, faults recorded, fence decisions, and the return of what the sight held. (DEDUCED, log 39) -/
def execSightEnd (found : List SightFault) (s : State) : Out :=
  if s.rel.sgRun = 0 ∨ s.power.clamp then .next s
  else
    let l := found.filter sightReal
    let run := s.rel.sgRun
    let s1 := s.modRel fun r => { r with
      sgRun := 0, sgSaved := [], sgNow := false
      sgLast := s.now, sgSvc := r.hours
      sgOut := if l.isEmpty then 1 else 2 }
    let s2 := if run = 1 then ((s.rel.sgSaved.foldl State.sightReturn s1).took.refreshPorts).readyFrom s else s1
    let s3 := l.foldl (fun s f => (s.sightRecord f).fenceDecide (sightDecision f)) s2
    let s4 := s3.event 0xE4 [BitVec.ofNat 64 s3.rel.sgOut]
    if run = 1 then .next s4
    else match l with
      | [] => .next s4.atBoundary
      | f :: _ => .next ((s4.took).devFault 0x47 (s4.sightDetail f))
end Sys2Proof.Machine
end

