-- ==== Sys2Proof/Machine/JobLoad.lean ====
section
/-! DEFINITION. `JOB_LOAD` (R391 to R396): translation, patches, placement of the windows, the checks in the order of R395, and
what a successful load writes. -/

namespace Sys2Proof.Machine

/-! ## Translation (R392) -/

/-- A tile of the image moved by translation `t`. -/
def moveTile (t n : Nat) : Option Nat :=
  let x := tileX n + 12 * (t % 8)
  let y := tileY n + 12 * (t / 8)
  if x < 96 ∧ y < 24 then some (tileAt x y) else none

/-- A region of the image moved by translation `t`. -/
def moveRegion (t r : Nat) : Option Nat := if r % 8 + t % 8 < 8 ∧ r / 8 + t / 8 < 2 then some (r + t) else none

/-- A tile of the image moved by a translation under which it lies on the mesh. -/
def movedTile (t n : Nat) : Nat := (moveTile t n).getD 0

/-- A load-time register of an image tile. -/
def imgReg (x : TileImg) (off : Nat) : Word := Map.get (if off = 0x18 then 0xE4 else 0) x.regs off

/-- The first used tile that is fenced or off the mesh (R392); off the mesh the tile ID of the image is reported. -/
def State.tileFails (s : State) (im : Image) (t : Nat) : Option Nat :=
  im.tiles.findSome? fun x =>
    match moveTile t x.tile with
    | none => some x.tile
    | some n => if s.rel.fencedTiles.contains n then some n else none

/-! ## Windows (R195, R197, R198, R460) -/

/-- The request for window `n`, and how many granules it takes. -/
def imgWin (im : Image) (n : Nat) : Option WinReq := im.windows.find? fun w => decide (w.n = n)
def winGranules (w : WinReq) : Nat := (w.size + 4095) / 4096

/-- Where a window goes, given what is taken: none for host memory. -/
def State.placeWin (s : State) (t : Nat) (w : WinReq) (used hcoh : List Alloc) : Option Alloc :=
  let n := winGranules w
  let ok := fun (a : Alloc) => !(s.rel.failed.any fun k => decide (0 < (a.onStack k).2))
  if w.hcoh then
    match placeUp hcoh s.rel.retired n (placeFuel hcoh s.rel.retired) 0 with
    | some b => if b + n ≤ s.rl.hcwSize * 2 ^ 18 ∧ s.rel.failed = [] then some { region := none, base := b, n := n } else none
    | none => none
  else if w.mode = 1 then
    match s.placeAbove used n with
    | some b => if s.rel.failed = [] then some { region := none, base := b, n := n } else none
    | none => none
  else
    match moveRegion t w.region with
    | none => none
    | some r => match s.placeBelow used r n with
      | some b => if ok { region := some r, base := b, n := n } then some { region := some r, base := b, n := n } else none
      | none => none

/-- The windows placed in ascending order: number, request and place (`none` within for host memory); the first failure ends it. (DEDUCED, log 32) -/
def State.placeWins (s : State) (t : Nat) (im : Image) :
    List Nat → List Alloc → List Alloc → List (WinReq × Option Alloc) → List (WinReq × Option Alloc) × Option WinReq
  | [], _, _, out => (out, none)
  | n :: rest, used, hcoh, out =>
    match imgWin im n with
    | none => s.placeWins t im rest used hcoh out
    | some w =>
      if w.tgt then s.placeWins t im rest used hcoh (out ++ [(w, none)])
      else match s.placeWin t w used hcoh with
        | none => (out, some w)
        | some a =>
          if w.hcoh then s.placeWins t im rest used (hcoh ++ [a]) (out ++ [(w, some a)])
          else s.placeWins t im rest (used ++ [a]) hcoh (out ++ [(w, some a)])

def State.placed (s : State) (t : Nat) (im : Image) : List (WinReq × Option Alloc) × Option WinReq :=
  s.placeWins t im (List.range 64) s.reserved [] []

/-- The base register of a placed window (R195). -/
def winBase (a : Alloc) : Nat :=
  match a.region with
  | none => 4096 * a.base
  | some r => 2 ^ 37 * r + 4096 * a.base

/-! ## Needed regions (R28, R31) -/

/-- Whether the image has a uniform-mode tile, and how many. -/
def uniformTiles (im : Image) : Nat := (im.tiles.filter fun x => bit (imgReg x 0x18) 9).length

/-- The smallest rectangle of regions that holds the given ones. -/
def regionBox (l : List Nat) : List Nat :=
  let xs := l.map (· % 8)
  let ys := l.map (· / 8)
  (List.range 16).filter fun r =>
    decide (xs.foldl min 8 ≤ r % 8 ∧ r % 8 ≤ xs.foldl max 0 ∧ ys.foldl min 2 ≤ r / 8 ∧ r / 8 ≤ ys.foldl max 0)

/-- The bytes an image gives a unit. -/
def initBytes (l : List (Nat × Nat × List Byte)) (unit : Nat) : Map Byte :=
  (l.filter fun e => decide (e.1 = unit)).foldl (fun m e => Map.setRange 0 m e.2.1 e.2.2) []

/-- The Llyn ports that the remote route entries of an image name (R235). -/
def routePorts (im : Image) : List Nat :=
  (im.tiles.flatMap fun x =>
    let m := initBytes im.spInit x.tile
    (List.range (fld (imgReg x 0x28) 16 9)).filterMap fun e =>
      let w := wordAt (Map.slice 0 m (512 * fld (imgReg x 0x28) 0 10 + 64 * e) 8) 0
      if bit w 47 then some (fld w 40 5) else none).eraseDups

/-- The ports of the sync-tree edges of this member. -/
def treePorts (e : LoadEnv) : List Nat :=
  match e.tree with
  | some t => (t.parent.toList ++ t.children).map (·.1)
  | none => []

/-- The regions a job needs under translation `t` with the windows placed, `ports` the Llyn ports it uses: those of its tiles, of the stacks
of its windows, of those ports, of its routes, and region 0 for host windows (R20, R28, R31). (DEDUCED, log 21) -/
def needsOf (im : Image) (t : Nat) (wins : List (WinReq × Option Alloc)) (ports : List Nat) : Nat :=
  let foot := (named im.footprint).filterMap (moveRegion t)
  let mine := (im.tiles.filterMap fun x => moveTile t x.tile).map regionOf
  let box := if uniformTiles im = 0 then [] else regionBox mine
  let stacks_ := wins.flatMap fun w => match w.2 with
    | none => []
    | some a => ((List.range 32).filter fun k => decide (0 < (a.onStack k).2)).map (· / 2)
  let host := wins.any fun w => w.1.tgt
  maskOf 16 fun r => foot.elem r || mine.elem r || box.elem r || stacks_.elem r || ports.any (fun p => decide (p / 2 = r)) ||
    (host && decide (r = 0))

/-- The first needed region that is not ready; a footprint region off the mesh counts as itself (R392). -/
def State.regionFails (s : State) (im : Image) (t : Nat) (ports : List Nat) : Option Nat :=
  match (named im.footprint).find? fun r => (moveRegion t r).isNone with
  | some r => some r
  | none =>
    let m := needsOf im t (s.placed t im).1 ports
    (List.range 16).find? fun r => m.testBit r && !(s.regionReady r)

/-- The first failed router or die-boundary link within the moved footprint (R29, R392). (DEDUCED, log 21) -/
def State.routeFails (s : State) (im : Image) (t : Nat) : Option Nat :=
  let foot := (named im.footprint).filterMap (moveRegion t)
  match s.rel.fRtr.find? fun n => foot.elem (regionOf n) with
  | some n => some n
  | none => s.rel.fLink.find? fun l => (linkRegions l).all foot.elem

/-- Why translation `t` is rejected: reason and detail (R395). (DEDUCED, log 32) -/
def State.rejects (s : State) (im : Image) (t : Nat) (ports : List Nat) : Option (Nat × Nat) :=
  match s.tileFails im t with
  | some n => some (3, n)
  | none => match s.regionFails im t ports with
    | some r => some (4, r)
    | none => (s.routeFails im t).map fun l => (5, l)

/-! ## Patches (R393) -/

/-- The new value of a patched field, none where it leaves its range or its width. -/
def patchValue (p : Patch) (t : Nat) (members : List Nat) (v : Nat) : Option Nat :=
  let dx := 12 * (t % 8)
  let dy := 12 * (t / 8)
  let r : Option (Nat × Nat) := match p.typ with
    | 0 => some (v + 96 * dy + dx, 2304)
    | 1 => some (v + dx, 96)
    | 2 => some (v + dy, 24)
    | 3 => some (v + t, 16)
    | 4 => some (v + 12 * t, 192)
    | 5 => some (v + 2 * t, 32)
    | _ => members[v]?.map fun n => (n, 1024)
  match r with
  | some (n, lim) => if n < lim ∧ n < 2 ^ p.width ∧ p.lsb + p.width ≤ 64 then some n else none
  | none => none

/-- One patch on a word. -/
def patchWord (p : Patch) (t : Nat) (members : List Nat) (w : Word) : Option Word :=
  (patchValue p t members (fld w p.lsb p.width)).map fun n => setFld w p.lsb p.width n

/-- One patch on the image: area 0 instruction memory, 1 and 2 initial contents, 3 register values by tile offset. (DEDUCED, log 32) -/
def patchImage (t : Nat) (members : List Nat) (im : Image) (p : Patch) : Option Image :=
  let inTile := fun (f : TileImg → Option TileImg) =>
    match (im.tiles.find? fun x => decide (x.tile = p.unit)).bind f with
    | some y => some { im with tiles := im.tiles.map fun x => if x.tile = p.unit then y else x }
    | none => none
  let inBytes := fun (l : List (Nat × Nat × List Byte)) =>
    (patchWord p t members (wordAt (Map.slice 0 (initBytes l p.unit) p.off 8) 0)).map fun w => l ++ [(p.unit, p.off, wordBytes w)]
  match p.area with
  | 0 => inTile fun x => (patchWord p t members (Map.get 0 x.im (p.off / 8))).map fun w => { x with im := Map.set 0 x.im (p.off / 8) w }
  | 1 => (inBytes im.spInit).map fun l => { im with spInit := l }
  | 2 => (inBytes im.csInit).map fun l => { im with csInit := l }
  | _ => inTile fun x => (patchWord p t members (imgReg x p.off)).map fun w =>
      { x with regs := Map.set (if p.off = 0x18 then 0xE4 else 0) x.regs p.off w }

/-- All patches in order; left: the index of the first that fails. -/
def patchAll (t : Nat) (members : List Nat) : List Patch → Nat → Image → Nat ⊕ Image
  | [], _, im => .inr im
  | p :: rest, i, im => match patchImage t members im p with
    | some im' => patchAll t members rest (i + 1) im'
    | none => .inl i

/-- The patched image at its place: tiles and clusters with their physical numbers. -/
def relocate (t : Nat) (im : Image) : Image :=
  let cl := fun (c : Nat) => c + 12 * t
  { im with
    tiles := im.tiles.map fun x => { x with tile := movedTile t x.tile }
    spInit := im.spInit.map fun e => (movedTile t e.1, e.2)
    csInit := im.csInit.map fun e => (cl e.1, e.2)
    coef := im.coef.map fun e => (movedTile t e.1, e.2)
    queues := im.queues.map fun e => (movedTile t e.1, e.2)
    tallies := im.tallies.map fun e => (cl e.1, e.2)
    backing := im.backing.map fun b => { b with cluster := cl b.cluster, tile := movedTile t b.tile }
    toll := im.toll.map fun e => (cl e.1, e.2) }

/-! ## The remaining checks (R395), on the relocated image -/

/-- 680 KiB a tile and 24 MiB + 4 KiB a cluster (R320). -/
def freezeBytes (tiles clusters_ : Nat) : Nat := 696320 * tiles + 25169920 * clusters_

/-- The clusters that hold tiles of the image. -/
def imgClusters (im : Image) : List Nat := (im.tiles.map fun x => clusterOf x.tile).eraseDups

/-- Bytes short for stow (R321): the partner's slot, then the local freeze buffer. (DEDUCED, log 32) -/
def State.stowShort (s : State) (im : Image) (wins : List (WinReq × Option Alloc)) : Option Nat :=
  if s.stow.en then
    let fz := freezeBytes im.tiles.length (imgClusters im).length
    let need := ((im.windows.filter (·.stow)).map (·.size)).sum + fz
    let slot := s.stow.area * 2 ^ 30 / 2
    let taken := ((s.reserved ++ wins.filterMap fun w => if w.1.hcoh then none else w.2).map (·.n)).sum + s.rel.retired.length
    let free := (32 * stackGranules - taken) * 4096
    if slot < need then some (need - slot) else if free < fz then some (fz - free) else none
  else none

/-- Whether a table of `n` entries, `per` a row, from row `base` runs past row 767. -/
def pastRows (base n per : Nat) : Bool := decide (n ≠ 0 ∧ 768 < base + (n + per - 1) / per)

/-- The rows of a ring (R263). -/
def ringRows (cfg : Word) : Nat × Nat := (fld cfg 0 16, 2 ^ fld cfg 56 4)

/-- The configured queues of a tile. -/
def tileQueues (im : Image) (t : Nat) : List (Nat × Word) :=
  (im.queues.filter fun e => decide (e.1 = t) && bit e.2.2 63).map (·.2)

/-- Reason `ROWS` at a tile. -/
def rowsBad (im : Image) (x : TileImg) : Bool :=
  pastRows (fld (imgReg x 0x28) 0 10) (fld (imgReg x 0x28) 16 9) 8 || pastRows (fld (imgReg x 0x38) 0 10) (fld (imgReg x 0x38) 16 11) 32 ||
    pastRows (fld (imgReg x 0x40) 0 10) (fld (imgReg x 0x40) 16 7) 8 ||
    (tileQueues im x.tile).any fun q =>
      let r := ringRows q.2
      decide ((if bit q.2 62 then 49152 else 768) < r.1 + r.2)

/-- Whether rows of a SPLIT-mode tile touch a bank of the narrow class (R163, R171). -/
def narrowRows (x : TileImg) (lo n : Nat) : Bool :=
  bit (imgReg x 0x18) 8 == false && (List.range 8).any fun b => overlap lo n (96 * b) 96 && !(bit (imgReg x 0x30) b)

/-- Whether some two ranges of a list overlap. -/
def anyOverlap : List (Nat × Nat) → Bool
  | [] => false
  | r :: rest => (rest.any fun q => overlap r.1 r.2 q.1 q.2) || anyOverlap rest

/-- The scratchpad rings of a tile, and the cluster-store rings of a cluster. -/
def spRings (im : Image) (t : Nat) : List (Nat × Nat) := ((tileQueues im t).filter fun q => !(bit q.2 62)).map fun q => ringRows q.2
def csRings (im : Image) (c : Nat) : List (Nat × Nat) :=
  (clusterTiles c).flatMap fun t => ((tileQueues im t).filter fun q => bit q.2 62).map fun q => ringRows q.2

/-- Reason `QUEUES` at a tile: its rings, those of its cluster, and the tally backing (R264, R281). (DEDUCED, log 32) -/
def queuesBad (im : Image) (x : TileImg) : Bool :=
  let sp := spRings im x.tile
  let backs := (im.backing.filter fun b => !b.inCs && decide (b.tile = x.tile)).map fun b => (b.at_, 2)
  let cs := csRings im (clusterOf x.tile)
  let inCs := im.backing.filter fun b => b.inCs && decide (b.cluster = clusterOf x.tile)
  anyOverlap sp || anyOverlap cs || inCs.any (fun b => cs.any fun r => overlap b.at_ 768 (512 * r.1) (512 * r.2)) || sp.any (fun r => narrowRows x r.1 r.2) ||
    backs.any fun b => narrowRows x b.1 b.2 || sp.any fun r => overlap b.1 b.2 r.1 r.2

/-- The clusters in whose stores the image places a range: initial contents, rings, tally backing (R183). -/
def csNamed (im : Image) : List Nat :=
  im.csInit.map (·.1) ++ (imgClusters im).filter (fun c => csRings im c != []) ++ (im.backing.filter (·.inCs)).map (·.cluster)

/-- The slots of a tile's meet table (R244). -/
def meetSlots (im : Image) (x : TileImg) : Nat :=
  let m := initBytes im.spInit x.tile
  ((List.range (fld (imgReg x 0x40) 16 7)).map fun e =>
    fld (wordAt (Map.slice 0 m (512 * fld (imgReg x 0x40) 0 10 + 64 * e) 8) 0) 50 6 + 1).sum

/-- The first stage below the highest that no tile has (R311). -/
def stageBad (im : Image) : Option Nat :=
  let l := im.tiles.map fun x => fld (imgReg x 0x48) 32 3
  (List.range (l.foldl max 0)).find? fun n => !(l.elem n)

/-- The first limit out of range: 1 exchange, 2 ring, 3 watchdog (R255, R272, R285). -/
def limitBad (im : Image) : Option Nat :=
  let out := fun (v : Option Nat) (lo hi : Nat) => match v with
    | some n => decide (n < lo ∨ hi < n)
    | none => false
  if out im.xlimit 1000 10000000000 then some 1
  else if out im.ringWait 1000 100000000 then some 2
  else if out im.syncWdog 1000000 60000000000 then some 3
  else none

/-- The first bad entry of the member list (R347, R394). -/
def State.memberBad (s : State) (l : List Nat) (m idx : Nat) : Option Nat :=
  (List.range m).find? fun i =>
    let n := l.getD i 0
    decide (l.length ≤ i) || (l.take i).contains n || (decide (i = idx) && decide (n ≠ s.modid)) ||
      (decide (n ≠ s.modid) && !(bit (Map.get 0 s.net.rt (0x31000 + 8 * n)) 63))

/-- The smallest depth of a tree of `m` members with fan-out 8 (R230). -/
def treeDepth (m : Nat) : Nat := if m ≤ 1 then 0 else if m ≤ 9 then 1 else if m ≤ 73 then 2 else if m ≤ 585 then 3 else 4

/-- Whether the sync tree cannot be built (R354): at most 8 children by distinct ports, edges of at most 5 hops, the smallest depth. -/
def treeBad (e : LoadEnv) (m : Nat) : Bool :=
  match e.tree with
  | none => decide (1 < m)
  | some t => decide (8 < t.children.length) || decide (5 < t.hops) || decide (t.depth ≠ treeDepth m) || !((t.children.map (·.1)).eraseDups.length == t.children.length)

/-- The first failure of the checks after the patches: reason and detail. (DEDUCED, log 32) -/
def State.loadFails (s : State) (im : Image) (t m idx : Nat) (env : LoadEnv) : Option (Nat × Nat) :=
  let (wins, bad) := s.placed t im
  let first := fun (f : TileImg → Bool) (r : Nat) => (im.tiles.find? f).map fun x => (r, x.tile)
  let cond := fun (b : Bool) (r d : Nat) => if b then some (r, d) else none
  [ bad.map fun w => (if w.hcoh then 7 else 6, w.n),
    (s.stowShort im wins).map fun n => (8, n),
    (im.windows.find? fun w => w.stow && (w.tgt || w.hcoh)).map fun w => (9, w.n),
    first (rowsBad im) 0x0A,
    first (queuesBad im) 0x0B,
    ((csNamed im).find? s.rel.fClus.contains).map fun c => (0x0C, c),
    first (fun x => decide (64 < meetSlots im x)) 0x0D,
    cond (decide (24 < uniformTiles im)) 0x0E (uniformTiles im),
    (stageBad im).map fun n => (0x0F, n),
    (limitBad im).map fun n => (0x10, n),
    (s.memberBad env.members m idx).map fun n => (0x11, n),
    cond (treeBad env m) 0x12 env.treeBad ].findSome? id

/-- The Llyn ports a job uses under translation `t`: those of its remote routes once patched, and those of its tree edges. -/
def loadPorts (im : Image) (t : Nat) (members : List Nat) (env : LoadEnv) : List Nat :=
  routePorts (match patchAll t members im.patches 0 im with
    | .inr p => p
    | .inl _ => im) ++ treePorts env

/-- What the checks of R395 give: the accepted translation with the relocated image, or reason and detail; and the translations
rejected. (DEDUCED, log 32) -/
def State.checkLoad (s : State) (im : Image) (len m idx : Nat) (env : LoadEnv) : ((Nat × Image) ⊕ (Nat × Nat)) × Nat × Nat :=
  match im.formatBad len with
  | some d => (.inr (1, d), 0, 0)
  | none =>
    let allowed := named im.allowed
    let why := fun (t : Nat) => s.rejects im t (loadPorts im t (env.members.take m) env)
    match allowed.find? fun t => (why t).isNone with
    | none =>
      let f := match allowed with
        | [] => (3, Config.freeNat s.free 0)
        | t :: _ => (why t).getD (3, 0)
      (.inr f, 0, im.allowed % 2 ^ 16)
    | some t =>
      let tried := (allowed.filter fun u => decide (u < t)).foldl (fun a u => a + 2 ^ u) 0
      match patchAll t (env.members.take m) im.patches 0 im with
      | .inl i => (.inr (2, i), t, tried)
      | .inr p =>
        let im' := relocate t p
        match s.loadFails im' t m idx env with
        | some f => (.inr f, t, tried)
        | none => (.inl (t, im'), t, tried)

/-! ## What a load writes (R396) -/

/-- The registers of `TILEPROG` (R391). -/
def progRegs (l : Map Word) : Map Word :=
  (l.filter fun e => [0x18, 0x20, 0x28, 0x30, 0x38, 0x40, 0x48, 0x410].elem e.1).foldl
    (fun m e => Map.set (if e.1 = 0x18 then 0xE4 else 0) m e.1 e.2) []

/-- The tile as the image gives it, with the debug registers it had. (DEDUCED, log 32) -/
def Tile.loaded (x : Tile) (im : Image) (y : TileImg) : Tile :=
  { st := 2
    fault := x.fault
    faultTime := x.faultTime
    cfg := (tileQueues' im y.tile).foldl (fun m q => Map.set 0 m (0x1000 + 0x10 * q.1) q.2) (progRegs y.regs)
    ctr := x.ctr
    im := Map.ofList 0 8192 y.im
    sp := Map.clear (initBytes im.spInit y.tile) 393216 (2 ^ 64)
    ctab := (im.coef.filter fun e => decide (e.1 = y.tile ∧ e.2.1 < 64)).foldl (fun m e => Map.setRange 0 m (8 * e.2.1) (e.2.2.take 8)) []
    qu := { qs := (tileQueues' im y.tile).foldl (fun m q => Map.set {} m q.1 { open_ := bit q.2 63 && bit q.2 60 }) [] }
    misc := { bp := x.misc.bp, wp := x.misc.wp, dbg := x.misc.dbg, refused := x.misc.refused } }
where
  /-- Every queue the image names for the tile. -/
  tileQueues' (im : Image) (t : Nat) : List (Nat × Word) := (im.queues.filter fun e => decide (e.1 = t ∧ e.2.1 < 512)).map (·.2)

/-- The cluster as the image gives it: capacity, tallies, contents. -/
def Cluster.loaded (x : Cluster) (im : Image) (c : Nat) : Cluster :=
  { cap := ((im.toll.find? fun e => decide (e.1 = c)).map (·.2)).getD 0
    tally := (im.tallies.filter fun e => decide (e.1 = c ∧ e.2.1 < 48)).foldl
      (fun m e => Map.set {} m e.2.1 { count := e.2.2.1, ceil := e.2.2.2.toNat % 2 ^ 31 }) []
    cs := Map.clear (initBytes im.csInit c) 25165824 (2 ^ 64)
    fault := x.fault
    faultTime := x.faultTime
    ctr := x.ctr
    tw := x.tw }

/-- Writes a cluster's tally backing directly into the memory (R281). -/
def State.directBacking (s : State) (b : Backing) : State :=
  let d := (s.cluster b.cluster).backing
  if b.inCs then s.modCluster b.cluster fun c => { c with cs := Map.setRange 0 c.cs b.at_ d }
  else s.modTile b.tile fun x => { x with sp := Map.setRange 0 x.sp (512 * b.at_) d }

/-- The clusters a load writes: those of the image's tiles, and those the image names contents for (R184). -/
def loadClusters (im : Image) : List Nat := ((imgClusters im ++ im.csInit.map (·.1)).filter (· < 192)).eraseDups

/-- Steps 1 to 3 and 5 of R396 for tiles and clusters: contents, tables and registers of the image. -/
def State.writeImage (s : State) (im : Image) : State :=
  let s1 := im.tiles.foldl (fun s y => s.modTile y.tile fun x => x.loaded im y) s
  let s2 := s1.forAll (loadClusters im) fun s c => s.modCluster c fun x => x.loaded im c
  im.backing.foldl State.directBacking s2

/-- The module's load-time registers (R197, R231, R255, R272, R285, R316, R320, R322, R354, R433, R499). -/
def loadRegs (im : Image) (wins : List (WinReq × Option Alloc)) (env : LoadEnv) : Map Word :=
  let w := fun (m : Map Word) (off : Nat) (v : Word) => Map.set 0 m off v
  let num := fun (n : Nat) => BitVec.ofNat 64 n
  let win := fun (m : Map Word) (p : WinReq × Option Alloc) =>
    let base := match p.2 with
      | some a => winBase a
      | none => env.bases.getD p.1.n 0
    let cfg := place 63 1 1 ||| place 7 1 (bnat p.1.hcoh) ||| place 4 1 (bnat p.1.w) ||| place 3 1 (bnat p.1.r) |||
      place 2 1 (bnat p.1.tgt) ||| place 0 2 (if p.1.tgt then 0 else if p.1.hcoh then 1 else p.1.mode)
    let o := 0x20000 + 0x20 * p.1.n
    w (w (w m o (num base)) (o + 8) (num p.1.size)) (o + 0x10) cfg
  let edge := fun (e : Nat × Nat × Nat) => place 63 1 1 ||| place 48 10 e.2.1 ||| place 40 5 e.1 ||| place 0 16 e.2.2
  let tree := fun (m : Map Word) => match env.tree with
    | none => w m 0x10000 0
    | some t =>
      let cfg := place 60 4 t.depth ||| place 56 4 t.level ||| place 48 5 ((t.parent.map (·.1)).getD 0) |||
        place 0 32 ((t.children.map fun c => 2 ^ c.1).sum)
      let m1 := (t.children.zipIdx).foldl (fun m c => w m (0x10200 + 8 * c.2) (edge c.1)) (w m 0x10000 cfg)
      match t.parent with
      | some p => w m1 0x10240 (edge p)
      | none => m1
  let m1 := tree (wins.foldl win [])
  let m2 := w (w (w m1 0x10008 (num (im.xlimit.getD 50000000))) 0x10028 (num (im.ringWait.getD 64000)))
    0x10020 (num (im.syncWdog.getD 2000000000))
  let m3 := (im.permute.zipIdx).foldl (fun m e =>
    w (w m (0x10040 + 0x10 * e.2) (num e.1.1)) (0x10048 + 0x10 * e.2) (place 63 1 (bnat e.1.2.2) ||| place 0 63 e.1.2.1)) m2
  let marks := ((im.windows.filter (·.stow)).map fun x => 2 ^ x.n).sum
  w (w (w (w m3 0x100A0 (num marks)) 0x100A8 (place 0 32 im.stowIval)) 0x60030 (place 0 5 im.ballast)) 0x90020 im.sound

/-- A successful load (R396, R437, R487). -/
def State.load (s : State) (im : Image) (t m idx evpage : Nat) (env : LoadEnv) : State :=
  let wins := (s.placed t im).1
  let j : Job := {
    js := 2
    img := some im
    trans := t
    m := m
    idx := idx
    evpage := evpage
    members := env.members.take m
    needs := needsOf' im t wins (routePorts im ++ treePorts env)
    tiles := (List.range 2304).filter fun n => im.tiles.any fun x => decide (x.tile = n)
    cfg := loadRegs im wins env
    hash := im.measure }
  let s1 := (s.modJob fun _ => j).writeImage im
  (s1.modPower fun p => { p with ledger := 0, acct := [], jstep := 64, pj := none, pj2 := none }).modDbg fun d => { d with
    bpen := false, wrote := false, jobHalt := false, relAt := none }
where
  /-- The needed regions of an image already relocated: its footprint still moves. -/
  needsOf' (im : Image) (t : Nat) (wins : List (WinReq × Option Alloc)) (ports : List Nat) : Nat :=
    let foot := (named im.footprint).filterMap (moveRegion t)
    needsOf { im with footprint := maskOf 16 foot.elem } 0 wins ports

/-- `JOB_LOAD` (R391 to R396): not taken while a sight runs (R455). `env` is what the helm reads and learns. (DEDUCED, log 32) -/
def execJobLoad (k : Nat) (env : LoadEnv) (s : State) : Out :=
  helmCmd k 0x10 s (fun _ => decide (s.rel.sgRun = 0)) fun s e =>
    let m := fld (argOf e 3) 0 10
    let idx := fld (argOf e 3) 16 10
    if s.job.img.isSome then s.complete k 2 []
    else if m = 0 ∨ m ≤ idx then s.complete k 3 []
    else match env.img with
      | none => s.complete k 9 []
      | some im =>
        if s.helm.imageSigned im = false then s.complete k 6 []
        else
          let (r, t, tried) := s.checkLoad im (argOf e 2).toNat m idx env
          let w1 := fun (reason : Nat) => place 0 8 reason ||| place 8 8 t ||| place 16 16 tried
          match r with
          | .inr (reason, d) => s.took.complete k 8 [w1 reason, BitVec.ofNat 64 d]
          | .inl (t, im') =>
            let s1 := if bit (argOf e 6) 0 then s else s.load im' t m idx (fld (argOf e 3) 32 6) env
            s1.complete k 0 [w1 0, 0]

end Sys2Proof.Machine
end

