-- ==== Sys2Proof/Machine/Jobs.lean ====
section
/-! DEFINITION. Starting, pausing, resuming, aborting and unloading a job (R397 to R399, R407, R418). -/

namespace Sys2Proof.Machine

/-- Completes the command of code `opc` that page `k` has in progress. -/
def State.completeIf (s : State) (k opc status : Nat) (ws : List Word) : State :=
  if opcOf (s.page k).cur = opc then s.complete k status ws else s

/-- The start tick (R397): the root chooses it 100 µs ahead, the others learn it. -/
def State.startAt (s : State) (told : Nat) : Nat := if s.job.idx = 0 then s.now + 100000 else told

/-- `JOB_START` (R397, R418): waits for the members' reports, or ends with `MISMATCH`, or the start is agreed. (DEDUCED, log 33) -/
def execJobStart (k : Nat) (env : StartEnv) (s : State) : Out :=
  plainCmd k 0x11 s fun s _ =>
    if s.job.js ≠ 2 then s.complete k 2 []
    else match env.agree with
      | some false => s.complete k 0x0C []
      | none => s.modJob fun j => { j with js := 3, startPage := k }
      | some true => s.modJob fun j => { j with
        js := 3, startPage := k, startPend := true, startNs := s.startAt env.start
        startJ := min env.minA s.power.allow }

/-- A tile's and a cluster's counters at job start (R52, R63 and so on): zero. -/
def Tile.started (x : Tile) : Tile := { x with st := 3, ctr := [], io := { x.io with inflMax := 0 } }
def Cluster.started (x : Cluster) : Cluster := { x with ctr := [], heldMax := 0, chMax := 0 }

/-- What the root learns, or a member is told, while its `JOB_START` waits (R397): the members disagree, or the start is agreed. -/
def State.startReport (s : State) (e : StartEnv) : State :=
  if s.job.js = 3 ∧ ¬ s.job.startPend then
    match e.agree with
    | none => s
    | some false => (s.modJob fun j => { j with js := 2 }).completeIf s.job.startPage 0x11 0x0C []
    | some true => s.modJob fun j => { j with startPend := true, startNs := s.startAt e.start, startJ := min e.minA s.power.allow }
  else s

/-- `JOB_START_TICK` (R232, R397, R418, R450): every tile of the job enters `COMPUTE`. -/
def execJobStartTick (s : State) : Out :=
  if s.job.js = 3 ∧ s.job.startPend ∧ s.job.startNs ≤ s.now then
    let s1 := s.forAll s.job.tiles fun s t => s.modTile t Tile.started
    let s2 := s1.forAll s.job.clusters fun s c => s.modCluster c Cluster.started
    let s3 := s2.modJob fun j => { j with
      js := 4, startPend := false, started := true, sstep := 0, steps := 0, ctr := [], wave := {}, exch := false }
    let s4 := (s3.modRel fun r => { r with balB0 := r.balBase }).modPower fun p => { p with jstep := s.job.startJ, pj := none, pj2 := none }
    let s5 := s4.updateRun.completeIf s.job.startPage 0x11 0 [BitVec.ofNat 64 s.job.startNs]
    .next ((s5.forAll s.job.tiles State.arrive).ownReport)
  else .next s

/-- `JOB_START_TIMEOUT` (R397): the job stays loaded. -/
def execJobStartTimeout (s : State) : Out :=
  if s.job.js = 3 ∧ ¬ s.job.startPend then
    .next ((s.modJob fun j => { j with js := 2 }).completeIf s.job.startPage 0x11 0x0B [])
  else .next s

/-- `JOB_PAUSE` (R398): on a paused job nothing changes; on a running one the request travels with the next arrival wave. (DEDUCED, log 33) -/
def execJobPause (k : Nat) (s : State) : Out :=
  plainCmd k 0x12 s fun s _ =>
    if s.job.js = 5 then s.complete k 0 [s.job.sstep]
    else if s.job.js = 4 then
      s.modWave fun v => { v with pauseReq := max 1 v.pauseReq, pausePages := v.pausePages ++ [k] }
    else s.complete k 2 []

/-- `JOB_RESUME` (R398, R418): the resume tick is agreed; away from the root it is the tick the command of it names. (DEDUCED, log 33) -/
def execJobResume (k minA : Nat) (s : State) : Out :=
  plainCmd k 0x13 s fun s _ =>
    if s.job.js ≠ 5 ∨ s.job.startPend then s.complete k 2 []
    else s.modJob fun j => { j with
      startPage := k, startPend := true, startNs := s.startAt s.now, startJ := min minA s.power.allow }

/-- Requests of other members for a pause or a halt, with this superstep's arrival wave: they act at the boundary that ends it (R398, R484). -/
def Wave.asked (v : Wave) (pause halt : Bool) : Wave :=
  { v with pauseReq := if pause then 2 else v.pauseReq, haltReq := if halt then 2 else v.haltReq }

/-- The tick of another member's `JOB_RESUME` is known here (R398, R418). -/
def State.resumeReport (s : State) (tick minA : Nat) : State :=
  if s.job.js = 5 ∧ ¬ s.job.startPend then
    s.modJob fun j => { j with startPage := 64, startPend := true, startNs := tick, startJ := min minA s.power.allow }
  else s

/-- `JOB_RESUME_TICK` (R398, R418): the paused tiles go on; agreements from before the pause are discarded. Where another member asked for
the resume, a `JOB_STATE` event says so. (DEDUCED, log 33) -/
def execJobResumeTick (s : State) : Out :=
  if s.job.js = 5 ∧ s.job.startPend ∧ s.job.startNs ≤ s.now then
    let s1 := s.forAll s.job.tiles fun s t => s.modTile t fun x => if x.st = 6 then x.toCompute s.dbg.jobHalt else x
    let s2 := s1.modJob fun j => { j with js := 4, startPend := false, started := true, wave := {}, exch := false }
    let s3 := (s2.modRel fun r => { r with balB0 := if s.job.started then r.balB0 else r.balBase }).modPower fun p => { p with
      jstep := s.job.startJ, pj := none, pj2 := none }
    let s4 :=
      if s.job.startPage < 64 then s3.updateRun.completeIf s.job.startPage 0x13 0 [] else s3.updateRun.event 0xE1 s3.jobStatus
    .next ((s4.forAll s.job.tiles State.arrive).ownReport)
  else .next s

/-- `JOB_ABORT` with `MODE` 0 (R399): a loaded, running or paused job stops with module cause `ABORT` (the loaded one by chapter
02's table of tile states, which names any job state; DEDUCED, log 33). A job that is stopped already stays as it is. -/
def execJobAbortStop (k : Nat) (s : State) : Out :=
  helmCmd k 0x14 s (fun e => !(bit (argOf e 1) 0)) fun s _ =>
    if s.job.img.isNone then s.complete k 2 []
    else if s.job.js = 2 ∨ s.job.js = 4 ∨ s.job.js = 5 then (s.devFault 0x4E k).complete k 0 []
    else s.complete k 0 []

/-- `JOB_ABORT` with `MODE` 1 (R399): a running job is stopped first; then it is unloaded. (DEDUCED, log 33) -/
def execJobAbortUnload (k : Nat) (s : State) : Out :=
  helmCmd k 0x14 s (fun e => bit (argOf e 1) 0) fun s _ =>
    if s.job.img.isNone then s.complete k 2 []
    else
      let s1 := if s.job.js = 4 then s.devFault 0x4E k else s
      s1.unload.complete k 0 []

end Sys2Proof.Machine
end

