-- ==== Sys2Proof/Machine/Stow.lean ====
section
/-! DEFINITION. Stow (R318 to R330, R462, R469): pairing, taking a stow at a stow point, the area hosted for the partner, and
restoring a job from a stow. -/

namespace Sys2Proof.Machine

/-! ## Pairing (R318) -/

/-- Slots held for this member and slots hosted are discarded. -/
def Stow.dropSlots (w : Stow) : Stow := { w with va := false, vb := false, slotA := none, slotB := none, hostV := [] }

/-- What `STOW_CONFIG` answers before it asks the partner (R318, R389): an error status, or the first granule of the area; an area of the
same partner and size stays where it is. (DEDUCED, log 34) -/
def State.stowPlace (s : State) (partner area mask : Nat) : Nat ⊕ Nat :=
  let used := ({ s with stow := { s.stow with area := 0 } } : State).reserved
  if s.job.img.isSome then .inl 2
  else if s.stow.busy ∨ s.stow.hostBusy then .inl 4
  else if 536 < area then .inl 3
  else match (if area ≠ 0 ∧ s.stow.area = area ∧ s.stow.partner = partner then some s.stow.areaBase else s.placeAbove used (area * 2 ^ 18)) with
    | none => .inl 8
    | some base =>
      if ¬ s.rel.failed.isEmpty ∧ area ≠ 0 then .inl 8
      else if (List.range 32).any (fun p => mask.testBit p && !(s.portReady p)) then .inl 5
      else .inr base

/-- `STOW_CONFIG` (R318): `agree` is what the comparison with the partner's configuration shows, none while there is no answer. (DEDUCED, log 34) -/
def execStowConfig (k : Nat) (agree : Option Bool) (s : State) : Out :=
  plainCmd k 0x20 s fun s e =>
    let area := fld (argOf e 1) 16 10
    let partner := fld (argOf e 1) 0 10
    let mask := fld (argOf e 2) 0 32
    match s.stowPlace partner area mask with
    | .inl st => s.complete k st []
    | .inr base =>
      if area = 0 then
        let s1 := s.modStow fun w => { w.dropSlots with en := false, area := 0, areaBase := 0, partner := partner, ports := mask }
        s1.complete k 0 [s1.stowCfg]
      else match agree with
        | none => s.modStow fun w => { w with cfgPage := some k }
        | some false => (s.modStow fun w => { w with en := false }).complete k 0x0A []
        | some true =>
          let s1 := s.modStow fun w =>
            { (if w.partner = partner ∧ w.area = area then w else w.dropSlots) with
              en := true, partner := partner, area := area, ports := mask, areaBase := base }
          s1.complete k 0 [s1.stowCfg]

/-- `STOW_CONFIG_TIMEOUT` (R389): no agreement within one second. -/
def execStowConfigTimeout (s : State) : Out :=
  match s.stow.cfgPage with
  | none => .next s
  | some k => .next ((s.modStow fun w => { w with en := false, cfgPage := none }).completeIf k 0x20 0x0A [])

/-! ## The freeze (R320, R323) -/

def Job.winCfg (j : Job) (n : Nat) : Word := j.reg (0x20010 + 0x20 * n)

/-- The stack and stack granule of block `b` of window `n`. -/
def Job.winAt (j : Job) (n b : Nat) : Nat × Nat := winGranule (j.reg (0x20000 + 0x20 * n)) (j.winCfg n) b

/-- Blocks of a window. -/
def Job.winBlocks (j : Job) (n : Nat) : List Nat := List.range ((j.winSize n + 4095) / 4096)

/-- The bytes of a window. -/
def State.winBytes (s : State) (n : Nat) : Map Byte :=
  let all := (s.job.winBlocks n).foldl (fun m b =>
    let g := s.job.winAt n b
    Map.setRange 0 m (4096 * b) ((s.stk g.1).blockBytes g.2)) []
  Map.clear all (s.job.winSize n) 4096

/-- The valid check values of a window's blocks. -/
def State.winCrcs (s : State) (n : Nat) : Map W32 :=
  (s.job.winBlocks n).filterMap fun b =>
    let g := s.job.winAt n b
    if Map.get false (s.stk g.1).crcV g.2 then some (b, Map.get 0 (s.stk g.1).crc g.2) else none

/-- What the freeze image holds of a tile (R320). -/
def Tile.frozen (x : Tile) : Tile :=
  { sp := x.sp, am := x.am, sb0 := x.sb0, sb1 := x.sb1, ctab := x.ctab, sq := x.sq
    qu := { qs := x.qu.qs.map fun p => (p.1, { p.2 with drops := 0 }) }
    misc := { norm := x.misc.norm, ssq := x.misc.ssq, sealE := x.misc.sealE, sealV := x.misc.sealV } }

/-- What it holds of a cluster (R320). -/
def Cluster.frozen (x : Cluster) : Cluster := { cs := x.cs, tally := x.tally, cap := x.cap, held := x.held }

/-- The freeze image and the windows as they stand (R320). -/
def State.snapshot (s : State) : Snap :=
  let j := s.job
  { sstep := j.sstep, epoch := j.epoch, hash := j.hash, trans := j.trans
    wins := j.marked.map fun n => (n, s.winBytes n)
    sizes := j.marked.map j.winSize
    crcs := j.marked.map fun n => (n, s.winCrcs n)
    tiles := j.tiles.foldl (fun m t => Map.set {} m t (s.tile t).frozen) []
    clusters := j.clusters.foldl (fun m c => Map.set {} m c (s.cluster c).frozen) [] }

/-- Bytes of a stow (R320). -/
def Job.stowTotal (j : Job) : Nat := (j.marked.map j.winSize).sum + freezeBytes j.tiles.length j.clusters.length

/-- The details of the parity errors the freeze of a tile finds (R126, R177, R442). -/
def Tile.freezeParity (x : Tile) : List Nat :=
  let sb := fun (b : Nat) => ((List.range 64).find? fun k => (x.sbuf b).bad.any fun i => decide (i / 64 = k)).map fun k =>
    0x40000000 + 64 * b + k
  let ct := (List.range 64).findSome? fun r => (x.badCoef r).map (coefDetail r)
  [x.badRow 0 768, (x.badAm 0 1024).map (0x80000000 + ·), sb 0, sb 1, ct].filterMap id

/-- Faults that the freeze raises (R323 step 4). (DEDUCED, log 34) -/
def State.freezeFaults (s : State) : State :=
  let s1 := s.forAll s.job.tiles fun s t => (s.tile t).freezeParity.foldl (fun s d => s.tileFault t 4 0x05 d 0) s
  s1.forAll s.job.clusters fun s c => match (s.cluster c).badGranule 0 25165824 with
    | some g => s.clusterFault c 0x01 g
    | none => s

/-- Whether a module is a member of the loaded job. -/
def State.isMember (s : State) (m : Nat) : Bool := decide (m = s.modid) || s.job.members.contains m

/-- Whether a flit begins a message or slip of the job (R323 step 2, R338). -/
def State.msgFlit (s : State) (f : Flit) : Bool :=
  f.head && decide (recType f.chunk.toNat = 3) && s.isMember (bitsAt f.chunk.toNat 10 10)

/-- Whether the traffic of the job has drained at a stow point (R323 step 2). (DEDUCED, log 34) -/
def State.drainedForStow (s : State) : Bool :=
  s.net.msgs.isEmpty &&
    s.net.rmsg.all (fun p => !(s.isMember (hSmod p.2))) &&
    s.net.reasm.all (fun p => !(p.2.any s.msgFlit)) &&
    (List.range 32).all (fun p =>
      let x := (s.port p).rx
      !(x.buf.any s.msgFlit || x.tx.any s.msgFlit || x.replay.any fun f => f.flits.any s.msgFlit)) &&
    s.job.tiles.all fun t =>
      let x := s.tile t
      x.io.tags.isEmpty && x.qu.inbox.isNone && x.qu.wrs.isEmpty && x.qu.slips.isEmpty

/-- The slot a stow writes (R323 step 3): not the one of the most recent complete stow. (DEDUCED, log 34) -/
def Stow.target (w : Stow) : Nat := if w.va = w.vb then 1 - w.wslot else if w.va then 1 else 0

/-- A slot loses its contents. -/
def Stow.invalidate (w : Stow) (slot : Nat) : Stow :=
  if slot = 0 then { w with va := false, slotA := none } else { w with vb := false, slotB := none }

/-- `STOW_FREEZE_START` (R323 steps 3 and 4). (DEDUCED, log 34) -/
def execStowFreezeStart (s : State) : Out :=
  if s.stow.wait ∧ s.job.js = 4 ∧ s.job.wave.doneAt ∧ ¬ s.stow.freeze ∧ ¬ s.stow.busy ∧ s.drainedForStow then
    let slot := s.stow.target
    let s1 := s.modStow fun w => { w.invalidate slot with
      wslot := slot, busy := true, freeze := true, wait := false
      buf := some s.snapshot, total := s.job.stowTotal, sentB := 0, copied := [] }
    .next s1.freezeFaults
  else .next s

/-- The mover reads the marked windows: corrected reports are counted, the first uncorrectable burst is reported and ends it (R215, R217);
whether all could be read. (DEDUCED, log 34) -/
def State.moverReads (s : State) : State × Bool :=
  (s.job.marked.flatMap fun n => (s.job.winBlocks n).map (s.job.winAt n)).foldl
    (fun p g => if p.2 then p.1.hbmRead g.1 (4096 * g.2) 4096 true else p) (s, true)

/-- `STOW_FREEZE_DONE` (R323 step 5, R455): the mover starts to send, and the tiles return to compute unless a sight or a pause
holds them. An uncorrectable burst that the mover reads is a fault (R217). (DEDUCED, log 34) -/
def execStowFreezeDone (s : State) : Out :=
  if s.stow.freeze ∧ s.job.js = 4 ∧ s.stow.busy then
    let s1 := s.modStow fun w => { w with freeze := false, sending := true }
    let r := s1.moverReads
    .next (if r.2 then r.1.atBoundary else r.1)
  else .next s

/-! ## Landing and completion (R319, R323 step 6, R326) -/

/-- A block of the partner's stow lands in the hosted slot; a mismatch lands nothing and ends the partner's stow, as a trip does (R330). -/
def State.landHosted (s : State) (b : StowBlock) : State :=
  let w := s.stow
  let half := w.area * 2 ^ 17
  if w.area = 0 ∨ half ≤ b.blk ∨ 2 ≤ b.slot ∨ b.data.length ≠ 4096 ∨ s.power.trip then s
  else
    let others := w.hostV.filter fun h => decide (h.1 ≠ b.slot)
    if crc32c b.data ≠ b.crc then s.modStow fun w => { w with hostV := others, hostBusy := false }
    else
      let g := interleaved (w.areaBase + b.slot * half + b.blk)
      let s1 := (s.wakeStk g.1).modStk g.1 fun x => x.put g.2 [(0, b.data)] true
      s1.modStow fun w => { w with
        hostV := if b.last then others ++ [(b.slot, b.sstep)] else others
        hostBusy := !b.last }

/-- `STOW_BLOCK_LANDING` (R201, R319, R323 step 6): what the partner's mover brings. Before a restore is served, sleeping regions wake.
(DESIGN CHOICE, log 30; DEDUCED, log 34) -/
def execStowBlockLanding (b : StowArrival) (s : State) : Out :=
  match b with
  | .block b => .next (s.landHosted b)
  | .serve =>
    if s.stow.en ∧ s.stow.area ≠ 0 ∧ ¬ s.power.trip then
      let s1 := s.modStow fun w => { w with hostBusy := true }
      .next (((s1.forAll (List.range 16) fun s r => if (s.region r).pwr = 1 then s.wakeOne r else s).refreshPorts).readyFrom s)
    else .next s
  | .over => .next (s.modStow fun w => { w with hostBusy := false })

/-- The reason of `STOW_FAIL` (R447). -/
def stowReason : StowEnd → Nat
  | .ok => 0
  | .noPort => 1
  | .mismatch => 2
  | .hbmUe => 3

/-- The slot written becomes valid with its stow point. -/
def Stow.commit (w : Stow) : Stow :=
  let at_ := (w.buf.map fun (m : Snap) => m.sstep).getD 0
  let w1 := { w with busy := false, sending := false, buf := none, sentB := w.total, bytes := w.bytes + BitVec.ofNat 64 (w.total - w.sentB) }
  if w.wslot = 0 then { w1 with va := true, sa := at_, slotA := w.buf } else { w1 with vb := true, sb := at_, slotB := w.buf }

/-- `STOW_COMPLETE` (R323 step 6, R326, R388): the stow point becomes valid, or the stow fails. The partner's answer takes a stow port that is
up; that none is left shows in the ports. (DESIGN CHOICE, log 30) -/
def execStowComplete (res : StowEnd) (s : State) : Out :=
  if s.stow.busy ∧ s.stow.sending ∧ ¬ (res = .ok ∧ s.power.clamp) ∧ (s.stowCut = true ↔ res = .noPort) then
    match res with
    | .ok =>
      let at_ := ((s.stow.buf.map fun (m : Snap) => m.sstep).getD 0).toNat
      let s1 := s.modStow Stow.commit
      .next ((s1.event 0xE2 [BitVec.ofNat 64 at_, s1.stow.stat]).ownReport)
    | _ => .next (s.stowFail (stowReason res))
  else .next s

/-! ## Restoring (R327 to R329, R462, R469) -/

/-- The valid slot that holds a stow point. -/
def Stow.holds (w : Stow) (at_ : Word) : Option Snap :=
  if w.va ∧ w.sa = at_ then w.slotA else if w.vb ∧ w.sb = at_ then w.slotB else none

/-- `STOW_RESTORE` (R327, R328, R462): refused, or the job is reset and the slot comes back; `FREEZE` shows a freeze image on its way until
it is loaded. (DEDUCED, log 35) -/
def execStowRestore (k : Nat) (env : RestoreEnv) (s : State) : Out :=
  plainCmd k 0x21 s fun s e =>
    let at_ := argOf e 1
    if s.job.js ≠ 6 ∧ s.job.js ≠ 2 then s.complete k 2 []
    else match s.stow.holds at_ with
      | none => s.complete k 0x0D []
      | some m =>
        let win := decide (m.hash ≠ s.job.hash ∨ m.trans ≠ s.job.trans)
        if env.ready = false ∨ s.stow.en = false ∨ s.stowCut then s.complete k 0x0A []
        else if win ∧ m.sizes ≠ s.job.marked.map s.job.winSize then s.complete k 9 []
        else ((s.jobReset 2).modJob fun j => { j with js := 7 }).modStow fun w => { w with
          busy := true, freeze := !win, restore := some at_, rstPage := k, rstWin := win }

/-- A frozen tile is written back: it is paused at the start of its superstep (R327). -/
def Tile.thaw (x y : Tile) : Tile :=
  { x with
    st := 6, sp := y.sp, am := y.am, sb0 := y.sb0, sb1 := y.sb1, ctab := y.ctab, sq := y.sq
    qu := { x.qu with qs := y.qu.qs }
    misc := { x.misc with norm := y.misc.norm, ssq := y.misc.ssq, sealE := y.misc.sealE, sealV := y.misc.sealV } }

def Cluster.thaw (x y : Cluster) : Cluster := { x with cs := y.cs, tally := y.tally, cap := y.cap, held := y.held }

/-- The tallies that the 768 bytes of a backing hold (R281). -/
def backedTallies (b : List Byte) : Map Tally :=
  (List.range 48).foldl (fun m n =>
    let w := wordAt b (16 * n)
    Map.set {} m n { count := w.setWidth 32, ceil := fld w 32 31 }) []

/-- A cluster loads its tallies from the backing, as the freeze image holds it (R281). -/
def State.loadTallies (s : State) (b : Backing) : State :=
  let d := if b.inCs then Map.slice 0 (s.cluster b.cluster).cs b.at_ 768 else Map.slice 0 (s.tile b.tile).sp (512 * b.at_) 768
  s.modCluster b.cluster fun x => { x with tally := backedTallies d }

/-- The exchange plan entry of the superstep that comes next (R233). (DEDUCED, log 35) -/
def Tile.planFor (x : Tile) (sstep : Nat) : Tile :=
  let len := fld (x.reg 0x38) 16 11
  x.modXs fun v => { v with planIx := if len = 0 then 0 else sstep % len }

/-- Bytes and check values of block `b` of window `n` land. -/
def State.landBlock (s : State) (n b : Nat) (data : List Byte) (crc : Option W32) : State :=
  let g := s.job.winAt n b
  s.modStk g.1 fun x =>
    let y := x.put g.2 [(0, data)] false
    match crc with
    | some c => { y with crc := Map.set 0 y.crc g.2 c, crcV := Map.set false y.crcV g.2 true }
    | none => y

/-- One marked window from the slot. -/
def State.landWin (s : State) (n : Nat) (m : Map Byte) (crcs : Map W32) : State :=
  (s.job.winBlocks n).foldl (fun s b =>
    s.landBlock n b (Map.slice 0 m (4096 * b) (min 4096 (s.job.winSize n - 4096 * b))) (crcs.lookup b)) s

/-- A window holds unpredictable data and check values (R329). (DEDUCED, log 35) -/
def State.loseWin (s : State) (n : Nat) : State :=
  (s.job.winBlocks n).foldl (fun s b =>
    s.landBlock n b ((List.range 4096).map fun i => Config.freeByte s.free (2 ^ 48 * n + 4096 * b + i))
      (if Config.freeNat s.free (2 ^ 48 * n + b) % 2 = 0 then none
      else some ((Config.freeWord s.free (2 ^ 48 * n + b)).setWidth 32))) s

/-- The HBM windows of the job that a predicate names. -/
def Job.hbmWins (j : Job) (f : Nat → Bool) : List Nat :=
  (List.range 64).filter fun n => bit (j.winCfg n) 63 && !(bit (j.winCfg n) 2) && f n

/-- A tile of which no state is defined (R327): every memory and sequencer register is free. (DEDUCED, log 35) -/
def Tile.lost (x : Tile) (free t : Nat) : Tile :=
  let w := fun (i : Nat) => Config.freeWord free (2 ^ 40 * t + 2 ^ 36 + i)
  let n := fun (i : Nat) => Config.freeNat free (2 ^ 40 * t + 2 ^ 36 + i)
  let sq := fun (k : Nat) => ({
    pc := (w (128 * k)).setWidth 13
    s := Map.setRange 0 [] 1 ((List.range 31).map fun i => w (128 * k + i + 1))
    a := Map.setRange 0 [] 0 ((List.range 8).map fun i => w (128 * k + 40 + i))
    p := Map.setRange false [] 1 ((List.range 7).map fun i => decide (n (128 * k + i) % 2 = 1))
    m := Map.setRange 0 [] 0 ((List.range 16).map fun i => n (128 * k + 10 + i) % 128) } : Seq)
  let y := { x.wild free t with im := x.im }
  { y with sq := { f := sq 0, b := sq 1, u := sq 2, x := {
      pc := (w 400).setWidth 13
      l := Map.setRange 0 [] 0 ((List.range 4).map fun i => (w (401 + i)).setWidth 32) } } }

/-- A cluster of which no state is defined. -/
def Cluster.lost (x : Cluster) (free c : Nat) : Cluster :=
  { x with
    cs := Map.setRange 0 [] 0 ((List.range 25165824).map fun i => Config.freeByte free (2 ^ 52 + 2 ^ 32 * c + i))
    tally := Map.setRange {} [] 0 ((List.range 48).map fun i => ({
      count := (Config.freeWord free (2 ^ 52 + 2 ^ 32 * c + i)).setWidth 32
      ceil := Config.freeNat free (2 ^ 52 + 2 ^ 32 * c + i) % 2 ^ 31 } : Tally)) }

/-- A failed restore (R327): the job stays stopped and no state of it is defined. (DEDUCED, log 35) -/
def State.restoreFailed (s : State) : State :=
  let s1 := s.forAll s.job.tiles fun s t => s.modTile t fun x => x.lost s.free t
  let s2 := s1.forAll s.job.clusters fun s c => s.modCluster c fun x => x.lost s.free c
  ((s2.forAll (s.job.hbmWins fun n => bit (s.job.winCfg n) 7 == false) State.loseWin).modJob fun j => { j with
    js := 6, sstep := Config.freeWord s.free (2 ^ 60), epoch := Config.freeNat s.free (2 ^ 60) % 2 ^ 32 }).took

/-- The slot is loaded (R327 to R329, R462): marked windows in window order, then the freeze image, or the image's initial state; coherent
windows keep their contents (R366, R473). (DEDUCED, log 35) -/
def State.restored (s : State) (m : Snap) (win : Bool) : State :=
  let s1 := if win then
      match s.job.img with
      | some im => s.writeImage im
      | none => s
    else
      let y := (s.forAll s.job.tiles fun s t => s.modTile t fun x => x.thaw (Map.get {} m.tiles t)).forAll s.job.clusters
        fun s c => s.modCluster c fun x => x.thaw (Map.get {} m.clusters c)
      ((s.job.img.map (·.backing)).getD []).foldl State.loadTallies y
  let s2 := (s.job.marked.zipIdx).foldl (fun s p =>
    s.landWin p.1 ((m.wins.map (·.2)).getD p.2 []) ((m.crcs.map (·.2)).getD p.2 [])) s1
  let s3 := (s2.forAll (s.job.hbmWins fun n => !(s.job.marked.contains n) && !(bit (s.job.winCfg n) 7)) State.loseWin).took
  let s4 := s3.forAll s.job.tiles fun s t => s.modTile t fun x => { x.planFor m.sstep.toNat with st := 6 }
  s4.modJob fun j => { j with js := 5, sstep := m.sstep, epoch := m.epoch }

/-- `RESTORE_COMPLETE` (R327 to R329, R388): `ok` is false where a block mismatched at landing; a job fault
meanwhile fails it too. (DEDUCED, log 35) -/
def execRestoreComplete (ok : Bool) (s : State) : Out :=
  match s.stow.restore with
  | none => .next s
  | some at_ =>
    if (s.job.js ≠ 7 ∧ s.job.js ≠ 6) ∨ s.power.clamp then .next s
    else
      let w := s.stow
      let s0 := s.modStow fun w => { w with busy := false, freeze := false, restore := none }
      let fail := (s0.restoreFailed).completeIf w.rstPage 0x21 9 []
      let s1 := match w.holds at_ with
        | some m => if ok ∧ s.job.js = 7 then (s0.restored m w.rstWin).completeIf w.rstPage 0x21 0 [place 0 1 (bnat (!w.rstWin))] else fail
        | none => fail
      .next (s1.event 0xE1 s1.jobStatus)

end Sys2Proof.Machine
end

