-- ==== Sys2Proof/Machine/Registers.lean ====
section
/-! DEFINITION. Writes of the register window (R12, R521 to R528): the writable set of chapter 20. -/

namespace Sys2Proof.Machine

/-- A write-one-to-clear: the bits of `mask` that are 1 in `v` become 0. -/
def clearOnes (old v mask : Word) : Word := old &&& ~~~ (v &&& mask)

/-- `VALID`, `MULTI` and the lower-level flag of a fault register (R445). -/
def faultW1c : Word := place 61 3 7

/-- `VALID` and `MULTI`: a tile has no lower level (R67). -/
def tileW1c : Word := place 62 2 3

/-- A write to a fault register whose fault was recorded at `time`: in the tick of the fault `VALID` stays set (R526, R532). -/
def clearFault (old time v mask : Word) (now : Nat) : Word :=
  clearOnes old v (if time.toNat = now then mask &&& ~~~ (place 63 1 1) else mask)

/-- The read-write fields of `TILE_BP`, `TILE_WP` and `CLUSTER_TWATCH` (R488, R489, R491). -/
def bpFields : Word := place 63 1 1 ||| place 0 13 0x1FFF
def wpFields : Word := place 63 1 1 ||| place 0 12 0xFFF
def twFields : Word := place 60 4 0xF ||| place 0 38 (2 ^ 38 - 1)

/-- Whether a register of the module block has a field that the host may write (chapter 20). -/
def modWritable (off : Nat) : Bool :=
  off == 8 || (decide (0x50000 ≤ off ∧ off < 0x50400) && off % 8 == 0) || [0x60010, 0x60018, 0x60020, 0x70000, 0x90000].elem off

/-- The same of a tile. -/
def tileWritable (off : Nat) : Bool :=
  [0x08, 0x50, 0x740, 0xA80, 0xA88, 0xA90].elem off || (decide (0xA00 ≤ off ∧ off < 0xA80) && off % 8 == 0)

/-- The same of a cluster. -/
def clusterWritable (off : Nat) : Bool := off == 8 || (decide (0x300 ≤ off ∧ off < 0x320) && off % 8 == 0)

/-- The same of an address of the register window. (DEDUCED, log 36) -/
def writableAt (a : Nat) : Bool :=
  match placeOf a with
  | .module off => modWritable off
  | .region _ off => off == 8 || off == 0x200
  | .cluster _ off => clusterWritable off
  | .tile _ off => tileWritable off
  | _ => false

/-- A write to a register of the module block. -/
def State.writeMod (s : State) (off : Nat) (v : Word) : State :=
  if off = 8 then s.modPins fun p => { p with scratch := v }
  else if 0x50000 ≤ off ∧ off < 0x50400 ∧ off % 8 = 0 then
    if off % 16 = 0 then s.doorbell ((off - 0x50000) / 16) (v.setWidth 16) else s.freeSlots ((off - 0x50000) / 16) (v.setWidth 16)
  else if off = 0x60010 then s.modPower fun p => { p with maxn := fld v 0 7 }
  else if off = 0x60018 then
    let s1 := if bit v 18 then s.modPower fun p => { p with brownF := false } else s
    if bit v 16 then s1.clearTrip else s1
  else if off = 0x60020 then (if fld v 0 2 = 3 then s else s.powerReq (fld v 0 2))
  else if off = 0x70000 then s.modRel fun r => { r with fault := clearFault r.fault r.faultTime v faultW1c s.now }
  else if off = 0x90000 then s.modDbg fun d => { d with bpen := bit v 0, wrote := d.wrote && !(bit v 1) }
  else s

/-- A write to a register of a region (R445, R471). -/
def State.writeRegion (s : State) (r off : Nat) (v : Word) : State :=
  if off = 8 then s.modRegion r fun x => { x with fault := clearFault x.fault x.faultTime v faultW1c s.now }
  else if off = 0x200 ∧ bit v 0 then s.regionReset r
  else s

/-- A write to a register of an awake cluster (R280, R491). -/
def State.writeCluster (s : State) (c off : Nat) (v : Word) : State :=
  if off = 8 then s.modCluster c fun x => { x with fault := clearFault x.fault x.faultTime v faultW1c s.now }
  else if 0x300 ≤ off ∧ off < 0x320 ∧ off % 8 = 0 then
    s.modCluster c fun x =>
      let hit := place 59 1 (bnat (bit (Map.get 0 x.tw off) 59 && !(bit v 59)))
      { x with tw := Map.set 0 x.tw off ((v &&& twFields &&& ~~~ (place 59 1 1)) ||| hit) }
  else s

/-- A write to a register of an awake tile (R67, R286, R470, R488, R489, R492). -/
def State.writeTile (s : State) (t off : Nat) (v : Word) : State :=
  if off = 8 then s.modTile t fun x => { x with fault := clearFault x.fault x.faultTime v tileW1c s.now }
  else if off = 0x50 then (if bit v 0 then s.tileReset t else s)
  else if off = 0x740 then s.modTile t fun x => x.modQu fun u => { u with sel := place 0 9 (fld v 0 9) }
  else if 0xA00 ≤ off ∧ off < 0xA80 ∧ off % 8 = 0 then
    s.modTile t fun x => x.modMisc fun m => { m with bp := Map.set 0 m.bp off (v &&& bpFields) }
  else if off = 0xA80 ∨ off = 0xA88 then
    s.modTile t fun x => x.modMisc fun m => { m with wp := Map.set 0 m.wp off (v &&& wpFields) }
  else if off = 0xA90 then s.modTile t fun x => x.modMisc fun m => { m with dbg := clearOnes m.dbg v (place 63 1 1) }
  else s

/-- A write to the register window: fields that are not writable are ignored (R12), and so is a write to a tile or cluster of a region that
is not on (R528). A non-zero write to a reserved field, and a write to an address with no register, is unpredictable (R12, R523): the model
ignores it (DESIGN CHOICE, log 50). -/
def State.writeReg (s : State) (a : Nat) (v : Word) : State :=
  match placeOf a with
  | .module off => s.writeMod off v
  | .region r off => s.writeRegion r off v
  | .cluster c off => if s.regionOn (c / 12) then s.writeCluster c off v else s
  | .tile t off => if s.regionOn (regionOf t) then s.writeTile t off v else s
  | _ => s

/-- `REGISTER_WRITE` (R525): a write reaches its block while the helm die is powered and not in reset. -/
def execRegisterWrite (off : Nat) (v : Word) (s : State) : Out :=
  if s.regsOn then .next (s.writeReg off v) else .next s

end Sys2Proof.Machine
end

