-- ==== Sys2Proof/Machine/Sextant.lean ====
section
/-! DEFINITION. Sextant (R478 to R486, R517): the commands of the debug port and of the tunnel, and the halt notices of other
members. A command is executed from its command word and operands, whichever way it came. -/

namespace Sys2Proof.Machine

/-- What a Sextant command ends with: status, result words 1 and 2, bulk data. -/
structure SxEnd where
  stat : Nat := 0
  r1 : Word := 0
  r2 : Word := 0
  data : List Word := []
deriving DecidableEq, Repr

/-- The state after a command, and how it ended; none while a `STEP` waits. -/
abbrev SxOut := State × Option SxEnd

def sxOk (s : State) : SxOut := (s, some {})
def sxErr (s : State) (stat : Nat) : SxOut := (s, some { stat := stat })

/-! ## Halting and stepping (R484 to R486) -/

/-- Runs a command on an available tile: `BAD` for a tile that does not exist, `NOT_READY` in a region that is not on. -/
def onTile (s : State) (t : Nat) (f : SxOut) : SxOut :=
  if 2304 ≤ t then sxErr s 1 else if s.tileOn t then f else sxErr s 2

/-- Whether a command at job scope finds its job running or halted (R484). -/
def State.jobRuns (s : State) : Bool := decide (s.job.js = 4)

/-- `HALT`. -/
def State.sxHalt (s : State) (scope t : Nat) (q : Strm) : SxOut :=
  match scope with
  | 0 => onTile s t (sxOk (s.modTile t fun x => x.haltBy q 0))
  | 1 => onTile s t (sxOk (s.modTile t fun x => allStrms.foldl (fun x q => x.haltBy q 1) x))
  | 2 => sxOk (s.forAll s.job.tiles fun s t => s.modTile t fun x => allStrms.foldl (fun x q => x.haltBy q 2) x)
  | _ =>
    if s.jobRuns = false then sxErr s 3
    else if s.dbg.jobHalt then sxOk s
    else sxOk (s.modWave fun v => { v with haltReq := max 1 v.haltReq })

/-- A `RELEASE` of the job goes to the root, which chooses the tick of it 100 µs ahead, as R397 says (R484); the others learn that tick. -/
def State.askRelease (s : State) : State :=
  if s.job.idx = 0 then s.modDbg fun d => { d with relAt := some (s.now + 100000) } else s

/-- Releases every job tile of this member at a scope. -/
def State.releaseAll (s : State) (scope : Nat) : State :=
  s.forAll s.job.tiles fun s t => s.modTile t fun x => allStrms.foldl (fun x q => x.releaseAt q scope) x

/-- `RELEASE`. (DEDUCED, log 36) -/
def State.sxRelease (s : State) (scope t : Nat) (q : Strm) : SxOut :=
  match scope with
  | 0 => onTile s t (sxOk (s.modTile t fun x => x.releaseAt q 0))
  | 1 => onTile s t (sxOk (s.modTile t fun x => allStrms.foldl (fun x q => x.releaseAt q 1) x))
  | 2 => sxOk (s.releaseAll 2)
  | _ => if s.jobRuns then sxOk s.askRelease else sxErr s 3

/-- The tick of a `RELEASE` of the job has come (R484). -/
def State.tickRelease (s : State) : State :=
  match s.dbg.relAt with
  | none => s
  | some n => if s.now < n then s else (s.releaseAll 3).modDbg fun d => { d with jobHalt := false, relAt := none }

/-- Whether a tile belongs to a job that runs, is paused or about to start. -/
def State.steppable (s : State) (t : Nat) : Bool := s.job.tiles.contains t && decide (3 ≤ s.job.js ∧ s.job.js ≤ 5)

/-- The streams that a `STEP` of a tile lets issue: those with an instruction of the phase left (R50, R486). -/
def Tile.stepMask (x : Tile) : Nat :=
  maskOf 4 fun i =>
    let q := strmOf i
    x.used q && !x.synced q && decide (x.st = (match q with | .x => 5 | _ => 3))

/-- Whether a stream of this member's job is halted at module scope (R484). -/
def State.moduleHalted (s : State) : Bool :=
  s.job.tiles.any fun t => allStrms.any fun q =>
    (s.tile t).halted q && decide (Map.get 0 (s.tile t).misc.haltAt (Strm.code q) = 2)

/-- `STEP`; at job scope not while this member is halted at module scope (R506). (DEDUCED, log 26) -/
def State.sxStep (s : State) (scope t : Nat) (q : Strm) : SxOut :=
  match scope with
  | 0 => onTile s t (
      if (s.tile t).halted q ∧ s.steppable t then (s.modTile t fun x => x.modMisc fun m => { m with stepping := 2 ^ Strm.code q }, none)
      else sxErr s 3)
  | 1 => onTile s t (
      let x := s.tile t
      if allStrms.all x.halted ∧ s.steppable t then
        if x.stepMask = 0 then sxOk s else (s.modTile t fun x => x.modMisc fun m => { m with stepping := x.stepMask }, none)
      else sxErr s 3)
  | 2 => sxErr s 1
  | _ =>
    if s.jobRuns ∧ s.dbg.jobHalt ∧ s.moduleHalted = false then
      sxOk (s.askRelease.modWave fun v => { v with oneStep := true, haltReq := max 1 v.haltReq })
    else sxErr s 3

/-- `STATUS` (R482). (DEDUCED, log 36) -/
def State.sxStatus (s : State) (scope t : Nat) : SxOut :=
  if scope < 2 then onTile s t (s, some { r1 := s.tileState t, r2 := (s.tile t).misc.dbg })
  else (s, some { r1 := s.jobStatus.headD 0, r2 := s.dbg.fixStat })

/-- `EVENT` (R482, R492, R493). -/
def State.sxEvent (s : State) (t : Nat) : SxOut := onTile s t (sxOk (s.debugEvent t 5 4 0 0 0))

/-! ## Memory (R483) -/

/-- The first address past a space, its unit given. -/
def spaceTop : Nat → Nat
  | 0 => 2 ^ 32
  | 1 => 65536
  | 2 => 393216
  | 3 => 262144
  | 4 => 32768
  | 5 => 4096
  | 6 => 25165824
  | 7 => 1151999934464
  | _ => 16 * 2 ^ 37

/-- Whether a region-local run stays inside one region's addressable bytes (R195). -/
def localOk (addr len : Nat) : Bool := decide (addr % 2 ^ 37 + len ≤ 71999995904)

/-- Whether space, unit, address and length name memory that exists (R481, R483). -/
def sxRange (space unit addr len : Nat) : Bool :=
  decide (space ≤ 8 ∧ 8 ≤ len ∧ len ≤ 1048576 ∧ len % 8 = 0 ∧ addr % 8 = 0 ∧ addr + len ≤ spaceTop space) &&
    (decide (space = 0 ∨ 6 ≤ space) || decide (unit < 2304)) && (decide (space ≠ 6) || decide (unit < 192)) &&
    (decide (space ≠ 8) || localOk addr len)

/-- The stack granules of an HBM run with the bytes of it in each: offset in the run, stack, granule, offset, length. -/
def hbmRuns (space addr len : Nat) : List (Nat × Nat × Nat × Nat × Nat) :=
  let g0 := addr / 4096
  (List.range ((addr + len - 1) / 4096 - g0 + 1)).map fun i =>
    let g := g0 + i
    let lo := max addr (4096 * g)
    let hi := min (addr + len) (4096 * g + 4096)
    let p := if space = 7 then interleaved g else regionLocal g
    (lo - addr, p.1, p.2, lo - 4096 * g, hi - lo)

/-- Whether the target of an access is available (R480). -/
def State.sxReady (s : State) (space unit addr len : Nat) : Bool :=
  match space with
  | 0 => match placeOf addr with
    | .tile t _ => s.regionOn (regionOf t)
    | .cluster c _ => s.regionOn (c / 12)
    | _ => true
  | 6 => s.regionOn (unit / 12)
  | 7 => (hbmRuns 7 addr len).all fun p => s.stackReady p.2.1
  | 8 => (hbmRuns 8 addr len).all fun p => s.stackReady p.2.1
  | _ => s.tileOn unit

/-- An element of a stationary buffer as `READ` shows it: its FP32 value, an INT8 element sign-extended. (DEDUCED, log 36) -/
def StatBuf.shown (b : StatBuf) (i : Nat) : W32 :=
  if b.fmt = 16 then 0
  else
    let code := (Map.get 0 b.el i).toNat
    if b.fmt = 0xA then BitVec.ofInt 32 (sextNat 8 code)
    else f32 (widen b.fmt code (Map.get 0 b.sc (2 * (i % 64) + i / 2048)).toNat)

/-- Pairs of 32-bit values as words. -/
def pairWord (lo hi : W32) : Word := place 32 32 hi.toNat ||| place 0 32 lo.toNat

/-- Rows of a tile that an access of Sextant shares with operations in flight. -/
def Tile.sxBusy (x : Tile) (am wr : Bool) (lo n : Nat) : List Nat :=
  x.busyRows { id := x.io.nextId, eng := 8, q := 4, am := am, lo := lo, n := n, wr := wr }

/-- Whether a tile runs: some stream is not halted while its job runs. -/
def State.tileRuns (s : State) (t : Nat) : Bool :=
  s.job.tiles.contains t && decide (s.job.js = 4) && !(allStrms.all (s.tile t).halted)

/-- Reads HBM: corrected and uncorrectable bursts report again (R215, R217). -/
def State.sxHbmRead (s : State) (space addr len : Nat) : State × List Byte :=
  (hbmRuns space addr len).foldl (fun p r =>
    let a := 4096 * r.2.2.1 + r.2.2.2.1
    (((p.1.wakeStk r.2.1).hbmRead r.2.1 a r.2.2.2.2).1, p.2 ++ (p.1.stk r.2.1).bytes a r.2.2.2.2)) (s, [])

/-- The words of a run (R483), with the state a read leaves. -/
def State.sxRead (s : State) (space unit addr len : Nat) : State × List Word :=
  let n := len / 8
  let x := s.tile unit
  let free := fun (i : Nat) => Config.freeWord s.free i
  match space with
  | 0 => (s, (List.range n).map fun i => s.readReg (addr + 8 * i))
  | 1 => (s, Map.slice 0 x.im (addr / 8) n)
  | 2 =>
    let racy := x.sxBusy false false (addr / 512) ((addr + len - 1) / 512 - addr / 512 + 1)
    let ws := wordsOf (Map.slice 0 x.sp addr len) n
    (s.took, (ws.zipIdx).map fun p => if racy.contains ((addr + 8 * p.2) / 512) then free p.2 else p.1)
  | 3 =>
    let racy := x.sxBusy true false (addr / 256) ((addr + len - 1) / 256 - addr / 256 + 1)
    (s.took, (List.range n).map fun i =>
      let l := addr / 4 + 2 * i
      if racy.contains (l / 64) then free i else pairWord (Map.get 0 x.am l) (Map.get 0 x.am (l + 1)))
  | 4 => (s, (List.range n).map fun i =>
      let e := (addr / 4 + 2 * i) % 4096
      let b := x.sbuf ((addr + 8 * i) / 16384)
      pairWord (b.shown e) (b.shown (e + 1)))
  | 5 => (s, Map.slice 0 x.ctab (addr / 8) n)
  | 6 => (s, wordsOf (Map.slice 0 (s.cluster unit).cs addr len) n)
  | _ =>
    let p := s.sxHbmRead space addr len
    (p.1, wordsOf p.2 n)

/-- Whether a device granule lies in a window of the loaded job. -/
def Job.ownsGranule (j : Job) (k g : Nat) : Bool :=
  (j.hbmWins fun _ => true).any fun n =>
    let base := (j.reg (0x20000 + 0x20 * n)).toNat / 4096
    let gran := if fld (j.winCfg n) 0 2 = 1 ∨ bit (j.winCfg n) 7 then 32 * g + k else 2 ^ 25 * (k / 2) + 2 * g + k % 2
    decide (base ≤ gran ∧ gran < base + (j.winSize n + 4095) / 4096)

/-- Whether a write changes state of the loaded job (R483). -/
def State.sxJobState (s : State) (space unit addr len : Nat) : Bool :=
  s.job.img.isSome && (match space with
    | 0 => false
    | 6 => s.job.clusters.contains unit
    | 7 => (hbmRuns 7 addr len).any fun p => s.job.ownsGranule p.2.1 p.2.2.1
    | 8 => (hbmRuns 8 addr len).any fun p => s.job.ownsGranule p.2.1 p.2.2.1
    | _ => s.job.tiles.contains unit)

/-- Rows of a tile written: a running tile, or a row in flight, leaves the bytes unpredictable (R64, chapter 6). (DEDUCED, log 36) -/
def State.sxWriteSp (s : State) (t addr : Nat) (b : List Byte) : State :=
  let x := s.tile t
  let lo := addr / 512
  let n := (addr + b.length - 1) / 512 - lo + 1
  let racy := x.sxBusy false true lo n
  let d := (b.zipIdx).map fun p =>
    if s.tileRuns t || racy.contains ((addr + p.2) / 512) then Config.freeByte s.free p.2 else p.1
  let a : Acc := { id := x.io.nextId, eng := 8, q := 4, lo := lo, n := n, wr := true }
  let y := (((x.addAcc a).dropAcc a.id).noteWrite lo n)
  (s.setTile t { y with sp := Map.setRange 0 y.sp addr d }).took

/-- Accumulator lanes written. -/
def State.sxWriteAm (s : State) (t addr : Nat) (l : List Word) : State :=
  let x := s.tile t
  let lane := addr / 4
  let racy := x.sxBusy true true (lane / 64) ((lane + 2 * l.length - 1) / 64 - lane / 64 + 1)
  let vs := l.flatMap fun (w : Word) => [w.setWidth 32, (w >>> 32).setWidth 32]
  let d := (vs.zipIdx).map fun (p : W32 × Nat) =>
    if s.tileRuns t || racy.contains ((lane + p.2) / 64) then (Config.freeWord s.free p.2).setWidth 32 else p.1
  (s.setTile t { x with
    am := Map.setRange 0 x.am lane d
    amBad := x.amBad.filter fun k => decide (k < lane ∨ lane + vs.length ≤ k) }).took

/-- Instruction slots written: a slot that a running stream may fetch, of a partition that wraps to granule 0 too (R42), is unpredictable
(R41). -/
def State.sxWriteIm (s : State) (t slot : Nat) (l : List Word) : State :=
  let x := s.tile t
  let runs := fun (k : Nat) => s.job.tiles.contains t && decide (s.job.js = 4) && allStrms.any fun q =>
    !(x.halted q) && decide ((k + 8192 - 64 * (x.part q).1) % 8192 < 64 * (x.part q).2)
  let d := (l.zipIdx).map fun p => if runs (slot + p.2) then Config.freeWord s.free p.2 else p.1
  (s.setTile t { x with
    im := Map.setRange 0 x.im slot d
    imBad := x.imBad.filter fun k => decide (k < slot ∨ slot + l.length ≤ k) }).took

/-- HBM written: a partial block is merged, and the block gets a computed check value (R204, R483). -/
def State.sxWriteHbm (s : State) (space addr : Nat) (b : List Byte) : State :=
  (hbmRuns space addr b.length).foldl (fun s r =>
    let d := (b.drop r.1).take r.2.2.2.2
    let whole := decide (r.2.2.2.2 = 4096)
    let s1 := s.wakeStk r.2.1
    let s2 := if whole then s1 else (s1.hbmRead r.2.1 (4096 * r.2.2.1) 4096).1
    let s3 := s2.modStk r.2.1 fun x => x.put r.2.2.1 [(r.2.2.2.1, d)] true
    if whole then s3 else s3.countStk r.2.1 0x28 1) s

/-- The words written to a space. -/
def State.sxWrite (s : State) (space unit addr : Nat) (l : List Word) : State :=
  let bytes := l.flatMap wordBytes
  match space with
  | 0 => (l.zipIdx).foldl (fun s p => s.writeReg (addr + 8 * p.2) p.1) s
  | 1 => s.sxWriteIm unit (addr / 8) l
  | 2 => s.sxWriteSp unit addr bytes
  | 3 => s.sxWriteAm unit addr l
  | 5 => s.modTile unit fun x => { x with
      ctab := Map.setRange 0 x.ctab (addr / 8) l
      ctabBad := x.ctabBad.filter fun k => decide (k < addr / 8 ∨ addr / 8 + l.length ≤ k) }
  | 6 => s.csWrite unit addr bytes
  | _ => s.sxWriteHbm space addr bytes

/-- `READ` and `WRITE` with the checks of R480, R481 and R483. (DEDUCED, log 36) -/
def State.sxMove (s : State) (wr : Bool) (space unit addr len : Nat) (data : List Word) : SxOut :=
  if sxRange space unit addr len = false ∨
      (wr ∧ (space = 4 ∨ (space = 0 ∧ ¬ (List.range (len / 8)).all fun i => writableAt (addr + 8 * i)))) then sxErr s 1
  else if s.sxReady space unit addr len = false then sxErr s 2
  else if wr then
    let s1 := s.sxWrite space unit addr ((List.range (len / 8)).map fun i => data.getD i 0)
    sxOk (if s.sxJobState space unit addr len then s1.modDbg fun d => { d with wrote := true } else s1)
  else
    let p := s.sxRead space unit addr len
    if len = 8 then (p.1, some { r2 := p.2.headD 0 }) else (p.1, some { data := p.2 })

/-! ## The engine (R480, R481, R517) -/

/-- Whether the owner's policy keeps the command out while a job is loaded (R517). -/
def State.dbgLocked (s : State) (op space : Nat) : Bool :=
  decide (2 ≤ s.helm.policy % 4) && s.job.img.isSome &&
    (op == 1 || op == 3 || ((op == 0x10 || op == 0x11) && decide (1 ≤ space ∧ space ≤ 8)))

/-- One command: command word, operands, and the bulk data of a long write. (DEDUCED, log 36) -/
def State.sextant (s : State) (w1 w2 w3 : Word) (bulk : List Word) : SxOut :=
  let op := fld w1 56 8
  let scope := fld w1 52 4
  let space := fld w1 48 4
  let q := strmOf (fld w1 46 2)
  let unit := fld w1 32 12
  let len := fld w1 0 32
  if s.regsOn = false then sxErr s 2
  else if fld w1 44 2 ≠ 0 ∨ 4 ≤ scope ∨ ¬ [1, 2, 3, 4, 5, 0x10, 0x11].contains op then sxErr s 1
  else if s.dbgLocked op space then sxErr s 3
  else match op with
    | 1 => s.sxHalt scope unit q
    | 2 => s.sxRelease scope unit q
    | 3 => s.sxStep scope unit q
    | 4 => s.sxStatus scope unit
    | 5 => s.sxEvent unit
    | 0x10 => s.sxMove false space unit w2.toNat len []
    | _ => s.sxMove true space unit w2.toNat len (if len = 8 then [w3] else bulk)

/-- A command word. -/
def sxWord (op scope space unit len : Nat) (q : Strm) : Word :=
  place 56 8 op ||| place 52 4 scope ||| place 48 4 space ||| place 46 2 (Strm.code q) ||| place 32 12 unit ||| place 0 32 len

/-- A command of the debug port: the port works while the always-on islands run, in brownout too, where the engine is unpowered;
one sent while another runs completes with `BUSY`. (DEDUCED, log 36) -/
def sxTap (w1 w2 w3 : Word) (bulk : List Word) (s : State) : Out :=
  if ¬ s.power.on then .next s
  else if s.dbg.sxBusy then .next (s.modDbg fun d => { d with sxStat := 4 })
  else match s.sextant w1 w2 w3 bulk with
    | (s1, some r) => .next (s1.modDbg fun d => { d with sxStat := r.stat, sx1 := r.r1, sx2 := r.r2, sxData := r.data })
    | (s1, none) => .next (s1.modDbg fun d => { d with sxBusy := true, sxStat := 0xFF, sxPage := none, sx1 := 0, sx2 := 0, sxData := [] })

/-- `HALT` (R484). -/
def execHalt (scope unit : Nat) (q : Strm) (s : State) : Out := sxTap (sxWord 1 scope 0 unit 0 q) 0 0 [] s
/-- `RELEASE` (R484). -/
def execRelease (scope unit : Nat) (q : Strm) (s : State) : Out := sxTap (sxWord 2 scope 0 unit 0 q) 0 0 [] s
/-- `STEP` (R486). -/
def execStep (scope unit : Nat) (q : Strm) (s : State) : Out := sxTap (sxWord 3 scope 0 unit 0 q) 0 0 [] s
/-- `STATUS` (R482). -/
def execStatus (scope unit : Nat) (s : State) : Out := sxTap (sxWord 4 scope 0 unit 0 .f) 0 0 [] s
/-- `EVENT` (R482). -/
def execEvent (unit : Nat) (s : State) : Out := sxTap (sxWord 5 1 0 unit 0 .f) 0 0 [] s
/-- `READ` (R483). -/
def execRead (space unit addr len : Nat) (s : State) : Out :=
  sxTap (sxWord 0x10 0 space unit len .f) (BitVec.ofNat 64 addr) 0 [] s
/-- `WRITE` (R483). -/
def execWrite (space unit addr len : Nat) (data : List Word) (s : State) : Out :=
  sxTap (sxWord 0x11 0 space unit len .f) (BitVec.ofNat 64 addr) (data.headD 0) data s

/-- `DEBUG_TUNNEL` (R481, R389): the same command through the mailbox; it waits while the engine is busy. A long read goes to the
host buffer. (DEDUCED, log 36) -/
def execDebugTunnel (k : Nat) (buf : List Word) (s : State) : Out :=
  helmCmd k 0x7F s (fun _ => !s.dbg.sxBusy) fun s e =>
    match s.sextant (argOf e 1) (argOf e 2) (argOf e 3) buf with
    | (s1, some r) =>
      let s2 := if r.data = [] then s1 else s1.modRl fun rl => { rl with
        hostOut := rl.hostOut ++ [((argOf e 4).toNat, r.data.flatMap wordBytes)] }
      s2.complete k r.stat [r.r1, r.r2]
    | (s1, none) => s1.modDbg fun d => { d with sxBusy := true, sxStat := 0xFF, sxPage := some k }

/-- What the notice of member `m` does here (R397, R398, R484, R485). (DEDUCED, log 33, 36) -/
def State.notice (s : State) (m : Nat) : Notice → State
  | .halted => s.modJob fun j => { j with notices := (m :: j.notices).eraseDups }
  | .released => s.modJob fun j => { j with notices := j.notices.filter fun n => decide (n ≠ m) }
  | .release n => if s.jobRuns then s.modDbg fun d => { d with relAt := some n } else s
  | .asked p h => if s.job.js = 4 ∧ ¬ s.job.exch then s.modWave fun v => v.asked p h else s
  | .start e => s.startReport e
  | .resume n minA => s.resumeReport n minA

/-- `HALT_NOTICE` (R485): of another member of the loaded job. -/
def execHaltNotice (m : Nat) (on : Notice) (s : State) : Out :=
  if s.job.img.isSome ∧ s.job.members.contains m ∧ m ≠ s.modid then .next (s.notice m on) else .next s

end Sys2Proof.Machine
end

