-- ==== Sys2Proof/Machine/Host.lean ====
section
/-! DEFINITION. Requests of the host over Riendlink (R219, R364 to R374, R377, R378, R522): windows, the snoop filter, line and masked
accesses, configuration space, and the answers to back-invalidations and recalls. -/

namespace Sys2Proof.Machine

/-! ## Windows (R364 to R366) -/

/-- Where a host address lies, as offsets. -/
inductive HostAt where
  | mailbox (off : Nat)
  | register (off : Nat)
  | coherent (off : Nat)
  | none
deriving DecidableEq, Repr

/-- The windows an address decodes to (R365): exactly one, else none. -/
def State.hostAt (s : State) (addr : Nat) : HostAt :=
  let r := s.rl
  let a := addr % 2 ^ 52
  let inW := fun (base : Word) (lo size : Nat) =>
    let b := fld base lo (52 - lo) * 2 ^ lo
    bit base 0 && decide (b ≤ a ∧ a < b + size)
  let off := fun (base : Word) (lo : Nat) => a - fld base lo (52 - lo) * 2 ^ lo
  match inW r.mbxBase 18 262144, inW r.regBase 32 (2 ^ 32), inW r.hcwBase 30 (r.hcwSize * 2 ^ 30) with
  | true, false, false => .mailbox (off r.mbxBase 18)
  | false, true, false => .register (off r.regBase 32)
  | false, false, true => .coherent (off r.hcwBase 30)
  | _, _, _ => .none

/-! ## Answers -/

/-- A response to a host request (R367): 0 `OK`, 1 `UR`, 2 `ERR`. -/
def State.respond (s : State) (id status : Nat) (data : List Byte) : State :=
  (s.modRl fun r => { r with resp := some (id % 4096, status, data) }).rlPost (decide (data.length = 64))

/-- A request that is refused with `UR` (R365). -/
def State.unsupported (s : State) (id : Nat) : State := (s.countRl 0x40 1).respond id 1 []

/-! ## The stacks behind the coherent window (R217, R218, R377) -/

/-- How a stack takes an access of the host: 0 at once, 1 the access waits, 2 it ends with `ERR`. (DEDUCED, log 38) -/
def State.stackTakes (s : State) (k : Nat) : Nat :=
  let x := s.stk k
  if s.power.trip ∨ x.st = 4 ∨ s.rel.failed.contains k then 2
  else if (s.region (k / 2)).rstBusy then 1
  else if x.st = 2 ∨ x.st = 3 then 0
  else 1

def lineStack (line : Nat) : Nat := (devByte (64 * line)).1

/-- The bytes of a coherent line, none where on-die ECC cannot correct them: the report is recorded (R217). (DEDUCED, log 38) -/
def State.lineRead (s : State) (line : Nat) : State × Option (List Byte) :=
  let p := devByte (64 * line)
  let r := (s.wakeStk p.1).hbmRead p.1 p.2 64
  (r.1, if r.2 then some ((s.stk p.1).bytes p.2 64) else none)

/-- Bytes of a line written by the host (R219). -/
def State.lineWrite (s : State) (line : Nat) (parts : List (Nat × List Byte)) : State :=
  (s.wakeStk (lineStack line)).hostStore line parts

/-! ## The snoop filter (R368) -/

/-- The entries of the filter. -/
def filterSize : Nat := 1048576

/-- A line as the filter records it, at its age. -/
def setLine (l : List (Nat × Bool)) (line : Nat) (owned : Bool) : List (Nat × Bool) :=
  if l.any fun p => decide (p.1 = line) then l.map fun p => if p.1 = line then (line, owned) else p else l ++ [(line, owned)]

/-- A read that the host may cache, of a line with no back-invalidation outstanding; it waits while the filter is full, whose oldest entry
is back-invalidated; an owned read of a line held shared moves no data. Gives the state and whether it waits. (DEDUCED, log 38) -/
def State.grantLine (s : State) (id line : Nat) (owned : Bool) : State × Bool :=
  let read := fun (s1 : State) (s2 : State) => match s1.lineRead line with
    | (s3, some d) => ((s3.modRl fun r => { r with snoop := s2.rl.snoop }).respond id 0 d, false)
    | (s3, none) => (s3.respond id 2 [], false)
  match s.rl.snoop.find? fun p => decide (p.1 = line) with
  | some p =>
    let s1 := s.modRl fun r => { r with snoop := setLine r.snoop line (owned || p.2) }
    if owned then (s1.respond id 0 [], false) else read s s1
  | none =>
    if filterSize ≤ s.rl.snoop.length then
      (s.sendBinv (((s.rl.snoop.find? fun p => !(s.rl.binv.contains p.1)).map (·.1)).toList), true)
    else read s (s.modRl fun r => { r with snoop := setLine r.snoop line owned })

/-- Whether a porter store that reached the home of a line before request number `n` has not completed (R370, R377). -/
def State.storeAhead (s : State) (line n : Nat) : Bool :=
  s.job.tiles.any fun t => (s.tile t).io.tags.any fun x =>
    decide (dDir x.d = 1 ∧ x.home < n) && !x.stuck && (x.hcohLines s.job).contains line

/-! ## Requests (R365, R367, R370) -/

/-- A write of bytes within one line of a mailbox page (R378). -/
def State.pageWrite (s : State) (off : Nat) (parts : List (Nat × List Byte)) : State :=
  let base := off / 64 * 8 % 512
  s.modPage (off / 4096 % 64) fun p =>
    let old := (List.range 8).flatMap fun i => wordBytes (Map.get 0 p.mem (base + i))
    { p with mem := Map.setRange 0 p.mem base (wordsOf (parts.foldl (fun b q => splice b q.1 q.2) old) 8) }

/-- The 64 bytes of a line of a mailbox page. -/
def State.pageRead (s : State) (off : Nat) : List Byte :=
  (List.range 8).flatMap fun i => wordBytes (Map.get 0 (s.page (off / 4096 % 64)).mem (off / 64 * 8 % 512 + i))

/-- The bytes a mask names, one by one. -/
def maskParts (mask : Word) (data : List Byte) : List (Nat × List Byte) :=
  (List.range 64).filterMap fun i => if bit mask i then some (i, [data.getD i 0]) else none

/-- The aligned 8-byte group that a mask names exactly (R522). -/
def maskGroup (mask : Word) : Option Nat := (List.range 8).find? fun i => decide (mask = place (8 * i) 8 0xFF)

/-- A write to a configuration register: read-write fields only. -/
def State.cfgWrite (s : State) (off : Nat) (v : Word) : State :=
  let en := place 0 1 1
  if off = 0x10 then s.modRl fun r => { r with mbxBase := v &&& (place 18 34 (2 ^ 34 - 1) ||| en) }
  else if off = 0x18 then s.modRl fun r => { r with regBase := v &&& (place 32 20 (2 ^ 20 - 1) ||| en) }
  else if off = 0x20 then s.modRl fun r => { r with hcwBase := v &&& (place 30 22 (2 ^ 22 - 1) ||| en) }
  else if off = 0x28 then s.hcwWrite v
  else if 0x400 ≤ off ∧ off < 0x400 + 0x10 * 72 then s.msiWrite ((off - 0x400) / 16) (off / 8 % 2) v
  else s

/-- The coherent line a request names (R365). -/
def State.lineOf (s : State) (c : Instr) : Option Nat :=
  let at_ := fun (addr : Nat) => match s.hostAt addr with
    | .coherent off => some (off / 64)
    | _ => none
  match c with
  | .rds _ addr => at_ addr
  | .rdo _ addr => at_ addr
  | .rdnc _ addr _ => at_ addr
  | .wrline _ addr _ => at_ addr
  | .wrpart _ addr _ _ => at_ addr
  | .evict _ addr => at_ addr
  | _ => none

/-- A host write, which later requests do not pass (R370). -/
def isWrite (c : Instr) : Bool :=
  match c with
  | .wrline _ _ _ => true
  | .wrpart _ _ _ _ => true
  | .cfgwr _ _ _ => true
  | _ => false

/-- Whether the host gives back a line it holds: a write-back of an owned line, or the drop of one (R367). -/
def State.givesBack (s : State) (c : Instr) (line : Nat) : Bool :=
  match c with
  | .wrline _ _ _ => s.rl.snoop.any fun p => decide (p.1 = line) && p.2
  | .evict _ _ => true
  | _ => false

/-- Whether request `h` must wait for others at home (R370, R377): a `BINV` or `RECALL` of its line, a porter store to it that came first,
or one of `ahead`, requests that came first: to its line, or a write where it is a read or a write itself. What gives a line back goes on.
(DEDUCED, log 38) -/
def State.mustWait (s : State) (ahead : List HostWait) (h : HostWait) : Bool :=
  (match h.line with
    | some l => !(s.givesBack h.c l) &&
        (s.rl.binv.contains l || s.rl.recalls.contains l || s.storeAhead l h.at_ || ahead.any fun e => decide (e.line = some l))
    | none => false) ||
  (ahead.any (fun e => isWrite e.c) && (match h.c with
    | .evict _ _ => false
    | _ => true))

/-- One request, on the line it names; the state, and whether it waits. (DEDUCED, log 38) -/
def State.hostOne (s : State) (c : Instr) : State × Bool :=
  let coherent := fun (id off : Nat) (f : Nat → State × Bool) =>
    let line := off / 64
    match s.stackTakes (lineStack line) with
    | 0 => f line
    | 1 => (s, true)
    | _ => (s.respond id 2 [], false)
  match c with
  | .rds id addr => match s.hostAt addr with
    | .coherent off => coherent id off fun l => s.grantLine id l false
    | _ => (s.unsupported id, false)
  | .rdo id addr => match s.hostAt addr with
    | .coherent off => coherent id off fun l => s.grantLine id l true
    | _ => (s.unsupported id, false)
  | .rdnc id addr len => match s.hostAt addr with
    | .mailbox off => (if len = 64 then s.respond id 0 (s.pageRead off) else s.unsupported id, false)
    | .register off => (if len = 8 ∧ off % 8 = 0 then s.respond id 0 (wordBytes (s.readReg off)) else s.unsupported id, false)
    | .coherent off =>
      if len ≠ 64 then (s.unsupported id, false)
      else coherent id off fun l => match s.lineRead l with
        | (s1, some d) => (s1.respond id 0 d, false)
        | (s1, none) => (s1.respond id 2 [], false)
    | .none => (s.unsupported id, false)
  | .wrline id addr data => match s.hostAt addr with
    | .mailbox off => ((s.pageWrite off [(0, padTo 64 data)]).respond id 0 [], false)
    | .coherent off => coherent id off fun l =>
      let s1 := s.lineWrite l [(0, padTo 64 data)]
      let s2 := if s1.rl.snoop.any fun p => decide (p.1 = l) then s1.modRl fun r => { r with snoop := setLine r.snoop l false } else s1
      (s2.respond id 0 [], false)
    | _ => (s.unsupported id, false)
  | .wrpart id addr mask data => match s.hostAt addr with
    | .mailbox off => ((s.pageWrite off (maskParts mask data)).respond id 0 [], false)
    | .register off => match maskGroup mask with
      | some i => ((s.writeReg (off / 64 * 64 + 8 * i) (wordAt (padTo 64 data) (8 * i))).respond id 0 [], false)
      | none => (s.unsupported id, false)
    | .coherent off => coherent id off fun l => ((s.lineWrite l (maskParts mask data)).respond id 0 [], false)
    | .none => (s.unsupported id, false)
  | .evict id addr => match s.hostAt addr with
    | .coherent off => coherent id off fun l =>
      ((s.modRl fun r => { r with snoop := r.snoop.filter fun p => decide (p.1 ≠ l) }).respond id 0 [], false)
    | _ => (s.unsupported id, false)
  | .cfgrd id off =>
    (if off % 8 = 0 ∧ off < 4096 then s.respond id 0 (wordBytes (s.rlReg off)) else s.unsupported id, false)
  | .cfgwr id off v =>
    (if off % 8 = 0 ∧ off < 4096 then (s.cfgWrite off v).respond id 0 [] else s.unsupported id, false)
  | _ => (s, false)

/-- Serves the requests `l` in arrival order, those that can go; `kept` are those before them that wait. (DEDUCED, log 38) -/
def State.serve (s : State) : List HostWait → List HostWait → State
  | kept, [] => s.modRl fun r => { r with held := kept }
  | kept, h :: rest =>
    if s.mustWait kept h then s.serve (kept ++ [h]) rest
    else match s.hostOne h.c with
      | (s1, false) => s1.serve kept rest
      | (s1, true) => s1.serve (kept ++ [h]) rest

/-- The requests that wait are tried in order. -/
def State.serveHeld (s : State) : State := s.serve [] s.rl.held

/-- A request of the host while the link is `UP` (R370, R373): behind those that wait, or at once. (DESIGN CHOICE, log 1; DEDUCED, log 38) -/
def hostReq (c : Instr) (s : State) : Out :=
  if s.rl.st ≠ 4 then .next s
  else
    let h : HostWait := { at_ := s.rl.home, line := s.lineOf c, c := c }
    let s1 := s.modRl fun r => { r with home := r.home + 1 }
    .next (s1.serve [] (s1.rl.held ++ [h]))

/-- `RDS` (R368). -/
def execRds (id addr : Nat) (s : State) : Out := hostReq (.rds id addr) s
/-- `RDO` (R368). -/
def execRdo (id addr : Nat) (s : State) : Out := hostReq (.rdo id addr) s
/-- `RDNC` (R367). -/
def execRdnc (id addr len : Nat) (s : State) : Out := hostReq (.rdnc id addr len) s
/-- `WRLINE` (R219, R367). -/
def execWrline (id addr : Nat) (data : List Byte) (s : State) : Out := hostReq (.wrline id addr data) s
/-- `WRPART` (R367, R522). -/
def execWrpart (id addr : Nat) (mask : Word) (data : List Byte) (s : State) : Out := hostReq (.wrpart id addr mask data) s
/-- `EVICT` (R367). -/
def execEvict (id addr : Nat) (s : State) : Out := hostReq (.evict id addr) s

/-! ## Configuration space (R364, R366, R372) -/

/-- `CFGRD` (R364). -/
def execCfgrd (id off : Nat) (s : State) : Out := hostReq (.cfgrd id off) s

/-- `CFGWR` (R364). -/
def execCfgwr (id off : Nat) (v : Word) (s : State) : Out := hostReq (.cfgwr id off v) s

/-- `INVACK` (R219, R366 to R368): the line of a `BINV` leaves the filter, that of a `RECALL` stays shared; data the host returns are
written; what waited goes on. (DEDUCED, log 38) -/
def execInvack (line : Nat) (data : Option (List Byte)) (s : State) : Out :=
  if s.rl.st ≠ 4 then .next s
  else
    let back := fun (s : State) => match data with
      | some d => s.lineWrite line [(0, padTo 64 d)]
      | none => s
    if s.asked 0 line 0 then
      let s1 := ((back s).modRl fun r => { r with
        binv := r.binv.filter fun k => decide (k ≠ line)
        snoop := r.snoop.filter fun p => decide (p.1 ≠ line) }).askDone 0 line 0
      .next s1.serveHeld.retryHcw
    else if s.asked 1 line 0 then
      .next (((back s).modRl fun r => { r with
        recalls := r.recalls.filter fun k => decide (k ≠ line)
        snoop := if r.snoop.any fun p => decide (p.1 = line) then setLine r.snoop line false else r.snoop }).askDone 1 line 0).serveHeld
    else .next s

end Sys2Proof.Machine
end

