-- ==== Sys2Proof/Machine/Scalar.lean ====
section
/-! DEFINITION. Scalar and address instructions (R138 to R141). -/

namespace Sys2Proof.Machine

/-- An instruction that writes an S register from register and immediate operands at once (R138, R162). -/
def scalarOp (key : Nat) (t : Nat) (q : Strm) (s : State) (regs : Word → List Nat) (f : Seq → Word → Word) : Out :=
  tileInsn key t q s (fun w => fD w :: regs w) fun i x s =>
    s.issueSeq i fun y => y.modSeq i.q fun v => v.setS (fD i.w) (f (x.seq i.q) i.w)

/-- A two-operand arithmetic instruction: `Sd` ← `Sa` op `Sb`. -/
def aluOp (key : Nat) (t : Nat) (q : Strm) (s : State) (f : Word → Word → Word) : Out :=
  scalarOp key t q s (fun w => [fA w, fB w]) fun v w => f (v.sreg (fA w)) (v.sreg (fB w))

/-- `ADD` (R138). -/
def execAdd (t : Nat) (q : Strm) (s : State) : Out := aluOp 0x100 t q s fun a b => a + b
/-- `SUB` (R138). -/
def execSub (t : Nat) (q : Strm) (s : State) : Out := aluOp 0x110 t q s fun a b => a - b
/-- `AND` (R138). -/
def execAnd (t : Nat) (q : Strm) (s : State) : Out := aluOp 0x120 t q s fun a b => a &&& b
/-- `OR` (R138). -/
def execOr (t : Nat) (q : Strm) (s : State) : Out := aluOp 0x130 t q s fun a b => a ||| b
/-- `XOR` (R138). -/
def execXor (t : Nat) (q : Strm) (s : State) : Out := aluOp 0x140 t q s fun a b => a ^^^ b
/-- `SHL` (R138): shifts use `Sb`[5:0]. -/
def execShl (t : Nat) (q : Strm) (s : State) : Out := aluOp 0x150 t q s fun a b => a <<< (fld b 0 6)
/-- `SHR` (R138). -/
def execShr (t : Nat) (q : Strm) (s : State) : Out := aluOp 0x160 t q s fun a b => a >>> (fld b 0 6)
/-- `SAR` (R138). -/
def execSar (t : Nat) (q : Strm) (s : State) : Out := aluOp 0x170 t q s fun a b => a.sshiftRight (fld b 0 6)
/-- `MUL` (R138): the low 64 bits. -/
def execMul (t : Nat) (q : Strm) (s : State) : Out := aluOp 0x180 t q s fun a b => a * b
/-- `MIN` (R138): signed. -/
def execMin (t : Nat) (q : Strm) (s : State) : Out := aluOp 0x190 t q s fun a b => if b.toInt < a.toInt then b else a
/-- `MAX` (R138): signed. -/
def execMax (t : Nat) (q : Strm) (s : State) : Out := aluOp 0x1A0 t q s fun a b => if a.toInt < b.toInt then b else a

/-- `ADDI` (R138). -/
def execAddi (t : Nat) (q : Strm) (s : State) : Out :=
  scalarOp 0x1B0 t q s (fun w => [fA w]) fun v w => v.sreg (fA w) + immS w
/-- `LI` (R138). -/
def execLi (t : Nat) (q : Strm) (s : State) : Out := scalarOp 0x1C0 t q s (fun _ => []) fun _ w => immS w
/-- `LIH` (R138): the low half is kept. -/
def execLih (t : Nat) (q : Strm) (s : State) : Out :=
  scalarOp 0x1D0 t q s (fun _ => []) fun v w => place 32 32 (fld w 0 32) ||| place 0 32 (fld (v.sreg (fD w)) 0 32)

/-- `MOVX` (R44, R139): tile ID, superstep counter, placement epoch or `NORM`. -/
def execMovx (t : Nat) (q : Strm) (s : State) : Out :=
  scalarOp 0x1E0 t q s (fun _ => []) fun _ w =>
    match fld w 0 4 with
    | 0 => BitVec.ofNat 64 t
    | 1 => s.job.sstep
    | 2 => BitVec.ofNat 64 s.job.epoch
    | _ => (s.tile t).misc.norm

/-- An instruction that writes a predicate (R138, R140). -/
def predOp (key : Nat) (t : Nat) (q : Strm) (s : State) (regs : Word → List Nat) (f : Seq → Word → Bool) : Out :=
  tileInsn key t q s regs fun i x s =>
    s.issueSeq i fun y => y.modSeq i.q fun v => v.setP (fld i.w 42 3) (f (x.seq i.q) i.w)

/-- `CMP` (R140). -/
def execCmp (t : Nat) (q : Strm) (s : State) : Out :=
  predOp 0x200 t q s (fun w => [fA w, fB w]) fun v w => condHolds (fld w 28 4) (v.sreg (fA w)) (v.sreg (fB w))
/-- `CMPI` (R140). -/
def execCmpi (t : Nat) (q : Strm) (s : State) : Out :=
  predOp 0x210 t q s (fun w => [fA w]) fun v w => condHolds (fld w 32 4) (v.sreg (fA w)) (immS w)
/-- `PLOG` (R138). -/
def execPlog (t : Nat) (q : Strm) (s : State) : Out :=
  predOp 0x220 t q s (fun _ => []) fun v w =>
    let a := v.preg (fld w 37 3)
    let b := v.preg (fld w 32 3)
    match fld w 28 4 with
    | 0 => a && b
    | 1 => a || b
    | 2 => a != b
    | _ => a && !b

/-- `AMOV` (R138). -/
def execAmov (t : Nat) (q : Strm) (s : State) : Out :=
  tileInsn 0x230 t q s (fun w => [fA w]) fun i x s =>
    s.issueSeq i fun y => y.modSeq i.q fun v => v.setA (fld i.w 42 3) ((x.seq i.q).sreg (fA i.w))
/-- `AADDI` (R138). -/
def execAaddi (t : Nat) (q : Strm) (s : State) : Out :=
  tileInsn 0x240 t q s (fun _ => []) fun i x s =>
    s.issueSeq i fun y => y.modSeq i.q fun v => v.setA (fld i.w 42 3) ((x.seq i.q).areg (fld i.w 37 3) + immS i.w)
/-- `ARD` (R138). -/
def execArd (t : Nat) (q : Strm) (s : State) : Out :=
  scalarOp 0x250 t q s (fun _ => []) fun v w => v.areg (fld w 37 3)

/-- The row `LDS` and `STS` name: `Aa` + `ROFF` modulo 2^64 (R43, R138). -/
def scalarRow (v : Seq) (w : Word) : Nat := (v.areg (fld w 37 3) + sext64 16 (fld w 16 16)).toNat

/-- `LDS` (R138, R162): `Sd` is written when the scalar port completes (`SCALAR_PORT_COMPLETE`). -/
def execLds (t : Nat) (q : Strm) (s : State) : Out :=
  tileInsn 0x300 t q s (fun w => [fD w]) fun i x s =>
    let r := scalarRow (x.seq i.q) i.w
    s.rowCheck i [spRun r 1] <|
      let o := i.op x [BitVec.ofNat 64 r] []
      let s1 := s.issueSeq i fun y =>
        ((y.startOp i).modIo fun io => { io with sca := io.sca ++ [o] }).modSeq i.q fun v =>
          if fD i.w = 0 then v else { v with busy := fD i.w :: v.busy }
      s1.addAccs t i.pc [{ id := o.id, eng := 3, q := Strm.code i.q, lo := r, n := 1, wr := false }]

/-- `STS` (R141): reads the row at issue, writes it back at completion. (DESIGN CHOICE, log 9) -/
def execSts (t : Nat) (q : Strm) (s : State) : Out :=
  tileInsn 0x310 t q s (fun w => [fB w]) fun i x s =>
    let r := scalarRow (x.seq i.q) i.w
    s.rowCheck i [spRun r 1] <|
      let c : Acct := { t := t, q := Strm.code i.q, eng := 3, pc := i.pc }
      match s.readNow c r 1 with
      | (s1, none) => s1
      | (s1, some row) =>
        let y := s1.tile t
        let o := i.op y [BitVec.ofNat 64 r, (x.seq i.q).sreg (fB i.w)] row
        let s2 := s1.issueSeq i fun y => (y.startOp i).modIo fun io => { io with sca := io.sca ++ [o] }
        s2.addAccs t i.pc [{ id := o.id, eng := 3, q := Strm.code i.q, lo := r, n := 1, wr := true }]

/-- `SCALAR_PORT_COMPLETE` (R141, R162): the oldest scalar-port operation completes: a load's bytes reach its register, a
store's row is written back with its bytes replaced. -/
def execScalarPortComplete (t : Nat) (s : State) : Out :=
  if 2304 ≤ t then .fault (.noSuchUnit "tile" t)
  else
    alongside t s fun s =>
      let x := s.tile t
      match x.io.sca with
      | [] => .next s
      | o :: rest =>
        let r := (o.v.headD 0).toNat
        let slot := 8 * fld o.w 0 6
        let c : Acct := { t := t, q := Strm.code o.q, eng := 3, pc := o.pc }
        let done := fun (s : State) => s.modTile t fun y => (y.dropAcc o.id).modIo fun io => { io with sca := rest }
        if fld o.w 56 8 = 0x30 then
          match s.readRows c r 1 (x.racyReads o.id false) with
          | (s1, none) => .next s1
          | (s1, some row) => .next ((done s1).modTile t fun y => y.result o.q (fD o.w) (wordAt row slot))
        else
          let s1 := s.writeRows c r (splice o.dat slot (wordBytes (o.v.getD 1 0))) (x.racyWrites o.id)
          .next ((done s1).modTile t fun y => y.unmark o)

end Sys2Proof.Machine
end

