-- ==== Sys2Proof/Machine/Dispatch.lean ====
section
/-! DEFINITION. The dispatch: one arm for each command, one direct call of its meaning. -/

namespace Sys2Proof.Machine

/-- The effect of a command on everything but the queue. -/
def exec (i : Instr) (s : State) : Host.Outcome State Fault Refusal :=
  match i with
  | .nop t q => Sys2Proof.Machine.execNop t q s
  | .br t q => Sys2Proof.Machine.execBr t q s
  | .call t q => Sys2Proof.Machine.execCall t q s
  | .ret t q => Sys2Proof.Machine.execRet t q s
  | .bri t q => Sys2Proof.Machine.execBri t q s
  | .mwait t q => Sys2Proof.Machine.execMwait t q s
  | .pwait t q => Sys2Proof.Machine.execPwait t q s
  | .sync t q => Sys2Proof.Machine.execSync t q s
  | .brk t q => Sys2Proof.Machine.execBrk t q s
  | .add t q => Sys2Proof.Machine.execAdd t q s
  | .sub t q => Sys2Proof.Machine.execSub t q s
  | .and_ t q => Sys2Proof.Machine.execAnd t q s
  | .or_ t q => Sys2Proof.Machine.execOr t q s
  | .xor t q => Sys2Proof.Machine.execXor t q s
  | .shl t q => Sys2Proof.Machine.execShl t q s
  | .shr t q => Sys2Proof.Machine.execShr t q s
  | .sar t q => Sys2Proof.Machine.execSar t q s
  | .mul t q => Sys2Proof.Machine.execMul t q s
  | .min_ t q => Sys2Proof.Machine.execMin t q s
  | .max_ t q => Sys2Proof.Machine.execMax t q s
  | .addi t q => Sys2Proof.Machine.execAddi t q s
  | .li t q => Sys2Proof.Machine.execLi t q s
  | .lih t q => Sys2Proof.Machine.execLih t q s
  | .movx t q => Sys2Proof.Machine.execMovx t q s
  | .cmp t q => Sys2Proof.Machine.execCmp t q s
  | .cmpi t q => Sys2Proof.Machine.execCmpi t q s
  | .plog t q => Sys2Proof.Machine.execPlog t q s
  | .amov t q => Sys2Proof.Machine.execAmov t q s
  | .aaddi t q => Sys2Proof.Machine.execAaddi t q s
  | .ard t q => Sys2Proof.Machine.execArd t q s
  | .lds t q => Sys2Proof.Machine.execLds t q s
  | .sts t q => Sys2Proof.Machine.execSts t q s
  | .vadd t q => Sys2Proof.Machine.execVadd t q s
  | .vmul t q => Sys2Proof.Machine.execVmul t q s
  | .vfma t q => Sys2Proof.Machine.execVfma t q s
  | .vmin t q => Sys2Proof.Machine.execVmin t q s
  | .vmax t q => Sys2Proof.Machine.execVmax t q s
  | .vsfma t q => Sys2Proof.Machine.execVsfma t q s
  | .vexp2 t q => Sys2Proof.Machine.execVexp2 t q s
  | .vlog2 t q => Sys2Proof.Machine.execVlog2 t q s
  | .vrsqrt t q => Sys2Proof.Machine.execVrsqrt t q s
  | .vrecip t q => Sys2Proof.Machine.execVrecip t q s
  | .vcvt t q => Sys2Proof.Machine.execVcvt t q s
  | .vrsum t q => Sys2Proof.Machine.execVrsum t q s
  | .vrmax t q => Sys2Proof.Machine.execVrmax t q s
  | .vcpy t q => Sys2Proof.Machine.execVcpy t q s
  | .vectorOpComplete t => Sys2Proof.Machine.execVectorOpComplete t s
  | .ald t q => Sys2Proof.Machine.execAld t q s
  | .amac t q => Sys2Proof.Machine.execAmac t q s
  | .apreZero t q => Sys2Proof.Machine.execApreZero t q s
  | .apreBias t q => Sys2Proof.Machine.execApreBias t q s
  | .apreResid t q => Sys2Proof.Machine.execApreResid t q s
  | .adrn t q => Sys2Proof.Machine.execAdrn t q s
  | .tollGrant t => Sys2Proof.Machine.execTollGrant t s
  | .arrayOpComplete t j => Sys2Proof.Machine.execArrayOpComplete t j s
  | .port t q => Sys2Proof.Machine.execPort t q s
  | .porterComplete t tag e => Sys2Proof.Machine.execPorterComplete t tag e s
  | .cld t q => Sys2Proof.Machine.execCld t q s
  | .cst t q => Sys2Proof.Machine.execCst t q s
  | .csRequestAccept c => Sys2Proof.Machine.execCsRequestAccept c s
  | .csAccessComplete c j => Sys2Proof.Machine.execCsAccessComplete c j s
  | .uld t q => Sys2Proof.Machine.execUld t q s
  | .ust t q => Sys2Proof.Machine.execUst t q s
  | .uniformChannelAccept t j => Sys2Proof.Machine.execUniformChannelAccept t j s
  | .uniformComplete t j k => Sys2Proof.Machine.execUniformComplete t j k s
  | .tadd t q => Sys2Proof.Machine.execTadd t q s
  | .taddr t q => Sys2Proof.Machine.execTaddr t q s
  | .tallyAddApply t => Sys2Proof.Machine.execTallyAddApply t s
  | .twait t q => Sys2Proof.Machine.execTwait t q s
  | .trd t q => Sys2Proof.Machine.execTrd t q s
  | .qsend t q => Sys2Proof.Machine.execQsend t q s
  | .qsends t q => Sys2Proof.Machine.execQsends t q s
  | .sendComplete t => Sys2Proof.Machine.execSendComplete t s
  | .qhead t q => Sys2Proof.Machine.execQhead t q s
  | .qlen t q => Sys2Proof.Machine.execQlen t q s
  | .qctlOpen t q => Sys2Proof.Machine.execQctlOpen t q s
  | .qctlClose t q => Sys2Proof.Machine.execQctlClose t q s
  | .qctlReset t q => Sys2Proof.Machine.execQctlReset t q s
  | .upd t q => Sys2Proof.Machine.execUpd t q s
  | .ctw t q => Sys2Proof.Machine.execCtw t q s
  | .ctr t q => Sys2Proof.Machine.execCtr t q s
  | .xsend t => Sys2Proof.Machine.execXsend t s
  | .xrsend t => Sys2Proof.Machine.execXrsend t s
  | .xnorm t => Sys2Proof.Machine.execXnorm t s
  | .xsetl t => Sys2Proof.Machine.execXsetl t s
  | .xloop t => Sys2Proof.Machine.execXloop t s
  | .xend t => Sys2Proof.Machine.execXend t s
  | .xbr t => Sys2Proof.Machine.execXbr t s
  | .xnop t => Sys2Proof.Machine.execXnop t s
  | .xwait t => Sys2Proof.Machine.execXwait t s
  | .staleFetchReport t row => Sys2Proof.Machine.execStaleFetchReport t row s
  | .arrivalWaveRelease => Sys2Proof.Machine.execArrivalWaveRelease s
  | .exchangeLanding j e => Sys2Proof.Machine.execExchangeLanding j e s
  | .remotePacketIngress p => Sys2Proof.Machine.execRemotePacketIngress p s
  | .transitPacket p => Sys2Proof.Machine.execTransitPacket p s
  | .contributionArrival j => Sys2Proof.Machine.execContributionArrival j s
  | .meetResultOutput t e rix => Sys2Proof.Machine.execMeetResultOutput t e rix s
  | .normDelivery j => Sys2Proof.Machine.execNormDelivery j s
  | .doneWaveRelease => Sys2Proof.Machine.execDoneWaveRelease s
  | .ballastRampStep r => Sys2Proof.Machine.execBallastRampStep r s
  | .ballastQuantum t bad => Sys2Proof.Machine.execBallastQuantum t bad s
  | .overrunLimitExpiry t => Sys2Proof.Machine.execOverrunLimitExpiry t s
  | .messageArrival j => Sys2Proof.Machine.execMessageArrival j s
  | .messageAccept t => Sys2Proof.Machine.execMessageAccept t s
  | .messageVisible t => Sys2Proof.Machine.execMessageVisible t s
  | .returnSlipSend t => Sys2Proof.Machine.execReturnSlipSend t s
  | .ringWaitExpiry t => Sys2Proof.Machine.execRingWaitExpiry t s
  | .syncWdogExpiry t kind q => Sys2Proof.Machine.execSyncWdogExpiry t kind q s
  | .stowFreezeStart => Sys2Proof.Machine.execStowFreezeStart s
  | .stowFreezeDone => Sys2Proof.Machine.execStowFreezeDone s
  | .stowBlockLanding b => Sys2Proof.Machine.execStowBlockLanding b s
  | .stowComplete res => Sys2Proof.Machine.execStowComplete res s
  | .restoreComplete ok => Sys2Proof.Machine.execRestoreComplete ok s
  | .devInfo k => Sys2Proof.Machine.execDevInfo k s
  | .readyQuery k => Sys2Proof.Machine.execReadyQuery k s
  | .jobLoad k env => Sys2Proof.Machine.execJobLoad k env s
  | .jobStart k env => Sys2Proof.Machine.execJobStart k env s
  | .jobStartTick => Sys2Proof.Machine.execJobStartTick s
  | .jobStartTimeout => Sys2Proof.Machine.execJobStartTimeout s
  | .jobPause k => Sys2Proof.Machine.execJobPause k s
  | .jobResume k minA => Sys2Proof.Machine.execJobResume k minA s
  | .jobResumeTick => Sys2Proof.Machine.execJobResumeTick s
  | .jobAbortStop k => Sys2Proof.Machine.execJobAbortStop k s
  | .jobAbortUnload k => Sys2Proof.Machine.execJobAbortUnload k s
  | .jobStatus k => Sys2Proof.Machine.execJobStatus k s
  | .stowConfig k agree => Sys2Proof.Machine.execStowConfig k agree s
  | .stowRestore k env => Sys2Proof.Machine.execStowRestore k env s
  | .capSet k => Sys2Proof.Machine.execCapSet k s
  | .telemetryRead k => Sys2Proof.Machine.execTelemetryRead k s
  | .ledgerRead k => Sys2Proof.Machine.execLedgerRead k s
  | .throttleRead k => Sys2Proof.Machine.execThrottleRead k s
  | .fenceQuery k => Sys2Proof.Machine.execFenceQuery k s
  | .sightSchedule k => Sys2Proof.Machine.execSightSchedule k s
  | .fixArm k => Sys2Proof.Machine.execFixArm k s
  | .fixRead k => Sys2Proof.Machine.execFixRead k s
  | .fwStage k pkg => Sys2Proof.Machine.execFwStage k pkg s
  | .fwActivate k => Sys2Proof.Machine.execFwActivate k s
  | .attest k => Sys2Proof.Machine.execAttest k s
  | .linkConfig k table => Sys2Proof.Machine.execLinkConfig k table s
  | .chronoAlignStep k => Sys2Proof.Machine.execChronoAlignStep k s
  | .chronoAlignRead k => Sys2Proof.Machine.execChronoAlignRead k s
  | .regionSleep k => Sys2Proof.Machine.execRegionSleep k s
  | .regionOff k => Sys2Proof.Machine.execRegionOff k s
  | .regionWake k => Sys2Proof.Machine.execRegionWake k s
  | .debugTunnel k buf => Sys2Proof.Machine.execDebugTunnel k buf s
  | .devMbxDb k v => Sys2Proof.Machine.execDevMbxDb k v s
  | .devMbxCq k v => Sys2Proof.Machine.execDevMbxCq k v s
  | .helmWatchdogExpiry => Sys2Proof.Machine.execHelmWatchdogExpiry s
  | .helmRestartDone ok => Sys2Proof.Machine.execHelmRestartDone ok s
  | .helmFlashWrite => Sys2Proof.Machine.execHelmFlashWrite s
  | .marginSight => Sys2Proof.Machine.execMarginSight s
  | .sightEnd found => Sys2Proof.Machine.execSightEnd found s
  | .smbDevInfo => Sys2Proof.Machine.execSmbDevInfo s
  | .smbHelmVer => Sys2Proof.Machine.execSmbHelmVer s
  | .smbReady => Sys2Proof.Machine.execSmbReady s
  | .smbInputMv => Sys2Proof.Machine.execSmbInputMv s
  | .smbInputCurrent => Sys2Proof.Machine.execSmbInputCurrent s
  | .smbInputPower => Sys2Proof.Machine.execSmbInputPower s
  | .smbHottestDie => Sys2Proof.Machine.execSmbHottestDie s
  | .smbHottestStack => Sys2Proof.Machine.execSmbHottestStack s
  | .smbThrottle => Sys2Proof.Machine.execSmbThrottle s
  | .smbCapRead => Sys2Proof.Machine.execSmbCapRead s
  | .smbCapWrite v => Sys2Proof.Machine.execSmbCapWrite v s
  | .smbCapInForce => Sys2Proof.Machine.execSmbCapInForce s
  | .smbThermalTarget => Sys2Proof.Machine.execSmbThermalTarget s
  | .smbAlertsRead => Sys2Proof.Machine.execSmbAlertsRead s
  | .smbAlertsClear v => Sys2Proof.Machine.execSmbAlertsClear v s
  | .smbChrono => Sys2Proof.Machine.execSmbChrono s
  | .smbModid => Sys2Proof.Machine.execSmbModid s
  | .smbEnergy => Sys2Proof.Machine.execSmbEnergy s
  | .halt scope unit q => Sys2Proof.Machine.execHalt scope unit q s
  | .release scope unit q => Sys2Proof.Machine.execRelease scope unit q s
  | .step scope unit q => Sys2Proof.Machine.execStep scope unit q s
  | .status scope unit => Sys2Proof.Machine.execStatus scope unit s
  | .event unit => Sys2Proof.Machine.execEvent unit s
  | .read space unit addr len => Sys2Proof.Machine.execRead space unit addr len s
  | .write space unit addr len data => Sys2Proof.Machine.execWrite space unit addr len data s
  | .haltNotice m on => Sys2Proof.Machine.execHaltNotice m on s
  | .fixTimeTrigger => Sys2Proof.Machine.execFixTimeTrigger s
  | .fixTrigEdge => Sys2Proof.Machine.execFixTrigEdge s
  | .fixLatch => Sys2Proof.Machine.execFixLatch s
  | .fixCopyDone => Sys2Proof.Machine.execFixCopyDone s
  | .arrive p dmod smod n => Sys2Proof.Machine.execArrive p dmod smod n s
  | .go p dmod smod n => Sys2Proof.Machine.execGo p dmod smod n s
  | .part p dmod smod => Sys2Proof.Machine.execPart p dmod smod s
  | .done p dmod smod => Sys2Proof.Machine.execDone p dmod smod s
  | .stop p dmod smod code => Sys2Proof.Machine.execStop p dmod smod code s
  | .fix p dmod tick fault => Sys2Proof.Machine.execFix p dmod tick fault s
  | .align p recv rpl stamp => Sys2Proof.Machine.execAlign p recv rpl stamp s
  | .link p idx val => Sys2Proof.Machine.execLink p idx val s
  | .symbolHoldRelease j => Sys2Proof.Machine.execSymbolHoldRelease j s
  | .alignExchangeTimer p => Sys2Proof.Machine.execAlignExchangeTimer p s
  | .llynFrameReceive p fr q => Sys2Proof.Machine.execLlynFrameReceive p fr q s
  | .frameLockLoss p => Sys2Proof.Machine.execFrameLockLoss p s
  | .llynRetrainDone p => Sys2Proof.Machine.execLlynRetrainDone p s
  | .llynRetrainTimeout p => Sys2Proof.Machine.execLlynRetrainTimeout p s
  | .llynDetectPoll p seen => Sys2Proof.Machine.execLlynDetectPoll p seen s
  | .llynTrainLock p => Sys2Proof.Machine.execLlynTrainLock p s
  | .llynTrainRetry p => Sys2Proof.Machine.execLlynTrainRetry p s
  | .rlFrameReceive fr q => Sys2Proof.Machine.execRlFrameReceive fr q s
  | .rlRetrainTimeout => Sys2Proof.Machine.execRlRetrainTimeout s
  | .rlTrainRetry => Sys2Proof.Machine.execRlTrainRetry s
  | .rds id addr => Sys2Proof.Machine.execRds id addr s
  | .rdo id addr => Sys2Proof.Machine.execRdo id addr s
  | .rdnc id addr len => Sys2Proof.Machine.execRdnc id addr len s
  | .wrline id addr data => Sys2Proof.Machine.execWrline id addr data s
  | .wrpart id addr mask data => Sys2Proof.Machine.execWrpart id addr mask data s
  | .evict id addr => Sys2Proof.Machine.execEvict id addr s
  | .cfgrd id off => Sys2Proof.Machine.execCfgrd id off s
  | .cfgwr id off v => Sys2Proof.Machine.execCfgwr id off v s
  | .invack line data => Sys2Proof.Machine.execInvack line data s
  | .hrdResponse t tag addr err data => Sys2Proof.Machine.execHrdResponse t tag addr err data s
  | .hwrCompletion t tag addr err => Sys2Proof.Machine.execHwrCompletion t tag addr err s
  | .rlHcwRequest v => Sys2Proof.Machine.execRlHcwRequest v s
  | .rlMsiWrite v w x => Sys2Proof.Machine.execRlMsiWrite v w x s
  | .hbmSelfRefreshIdle k => Sys2Proof.Machine.execHbmSelfRefreshIdle k s
  | .powerManagerPeriod m => Sys2Proof.Machine.execPowerManagerPeriod m s
  | .currentLimiterSample avg => Sys2Proof.Machine.execCurrentLimiterSample avg s
  | .droopDetect r => Sys2Proof.Machine.execDroopDetect r s
  | .droopStretchEnd r => Sys2Proof.Machine.execDroopStretchEnd r s
  | .stepDeferExpiry r => Sys2Proof.Machine.execStepDeferExpiry r s
  | .uvClamp mv => Sys2Proof.Machine.execUvClamp mv s
  | .uvRelease mv => Sys2Proof.Machine.execUvRelease mv s
  | .brownout mv => Sys2Proof.Machine.execBrownout mv s
  | .brownoutRecovery mv => Sys2Proof.Machine.execBrownoutRecovery mv s
  | .islandsStop mv => Sys2Proof.Machine.execIslandsStop mv s
  | .powerOn mv slot => Sys2Proof.Machine.execPowerOn mv slot s
  | .thermalControlPeriod m => Sys2Proof.Machine.execThermalControlPeriod m s
  | .thermalTrip kind idx temp => Sys2Proof.Machine.execThermalTrip kind idx temp s
  | .devPwrStatTripClear => Sys2Proof.Machine.execDevPwrStatTripClear s
  | .telemetrySample m => Sys2Proof.Machine.execTelemetrySample m s
  | .ledgerAccumulate acts => Sys2Proof.Machine.execLedgerAccumulate acts s
  | .ledgerRefit coefs => Sys2Proof.Machine.execLedgerRefit coefs s
  | .deepIdleRequest => Sys2Proof.Machine.execDeepIdleRequest s
  | .alwaysOnOnlyRequest => Sys2Proof.Machine.execAlwaysOnOnlyRequest s
  | .powerRequestNone => Sys2Proof.Machine.execPowerRequestNone s
  | .alwaysOnExit => Sys2Proof.Machine.execAlwaysOnExit s
  | .refclkLoss => Sys2Proof.Machine.execRefclkLoss s
  | .refclkReturn mv => Sys2Proof.Machine.execRefclkReturn mv s
  | .resetLAssert => Sys2Proof.Machine.execResetLAssert s
  | .resetLDeassert slot => Sys2Proof.Machine.execResetLDeassert slot s
  | .tileRst t => Sys2Proof.Machine.execTileRst t s
  | .regionRst r => Sys2Proof.Machine.execRegionRst r s
  | .registerWrite off v => Sys2Proof.Machine.execRegisterWrite off v s
  | .scalarPortComplete t => Sys2Proof.Machine.execScalarPortComplete t s
  | .linkFrameSend p => Sys2Proof.Machine.execLinkFrameSend p s
  | .llynTrainTimeout p => Sys2Proof.Machine.execLlynTrainTimeout p s
  | .rlLinkUp => Sys2Proof.Machine.execRlLinkUp s
  | .regionReady r => Sys2Proof.Machine.execRegionReady r s
  | .helmDiePowerUp => Sys2Proof.Machine.execHelmDiePowerUp s
  | .bootRomVerifyDone => Sys2Proof.Machine.execBootRomVerifyDone s
  | .stowConfigTimeout => Sys2Proof.Machine.execStowConfigTimeout s
  | .extest chain => Sys2Proof.Machine.execExtest chain s
  | .slotIdChange v => Sys2Proof.Machine.execSlotIdChange v s

end Sys2Proof.Machine
end

