-- ==== Sys2Proof/Machine/Tick.lean ====
section
/-! DEFINITION. One tick of the 100 MHz always-on clock, 10 ns (R409, R412): what time alone does. The model's step takes it when no
command waits (DESIGN CHOICE, log 2). -/

namespace Sys2Proof.Machine

/-- Whether base cycle `k` is passed at compute step `n` (R409). -/
def passed (n k : Nat) : Bool := decide ((k % 64) * n / 64 < (k % 64 + 1) * n / 64)

/-- The first base cycle of this tick, of 2 exchange cycles each, and the first of the next. -/
def State.baseNow (s : State) : Nat := s.power.exc / 2
def State.baseNext (s : State) : Nat := (s.power.exc + s.tickLen) / 2

/-- The step whose pattern base cycle `k` of this tick follows: that of the frame begun, and from the next frame the new one (R409). -/
def State.patAt (s : State) (pat run k : Nat) : Nat :=
  if k / 64 = s.baseNow / 64 ∧ s.baseNow % 64 ≠ 0 then pat else run

/-- The base cycles of this tick that a die passes whose frame follows `pat` and whose step is now `run`. -/
def State.passedNow (s : State) (pat run : Nat) : Nat :=
  countOf (s.baseNext - s.baseNow) fun i => passed (s.patAt pat run (s.baseNow + i)) (s.baseNow + i)

/-- The pattern of the frame that the tick ends in. -/
def State.patNext (s : State) (pat run : Nat) : Nat := if s.baseNext = s.baseNow then pat else s.patAt pat run (s.baseNext - 1)

/-- Whether the clocks of the dies run: not in reset, brownout or a trip (R410, R431). -/
def State.clocks (s : State) : Bool := s.islands && !s.power.trip

/-- The compute cycles of a region in this tick (R409, R410, R427): every other one in a stretch. -/
def State.regionCycles (s : State) (r : Nat) : Nat :=
  let x := s.region r
  if x.pwr ≠ 0 then 0
  else
    let n := s.passedNow x.pat x.run
    if x.stretch then (s.power.cc + n + 1) / 2 - (s.power.cc + 1) / 2 else n

/-- The chronometer, service time and clock counts (R409, R412, R457). The compute cycles that commands have begun ahead of the clock are
among those the tick passes. (DESIGN CHOICE, log 2; DESIGN CHOICE, log 46) -/
def State.tickClocks (s : State) : State :=
  let s1 := s.modRel fun r => { r with hours := r.hours + 10 }
  if s.pins.resetLow then s1
  else
    let s2 := s1.modPower fun p => { p with chrono := p.chrono + 10 }
    if s.clocks then
      let n := s.passedNow s.power.pat s.power.run
      let e := s.tickLen
      let s3 := s2.modPower fun p => { p with
        exc := p.exc + e, cc := p.cc + n, slewAt := if e = 17 then p.slewAt else p.exc }
      { s3 with sub := s.sub - n }
    else s2

/-- The frames move on: a step that changed in the frame is in force from the next (R409), on a die that woke too. -/
def State.tickFrames (s s0 : State) : State :=
  if s0.clocks then
    (s.modPower fun p => { p with pat := s0.patNext p.pat p.run }).forAll (List.range 16) fun s r =>
      if (s.region r).pwr = 0 ∧ (s.region r).pat ≠ (s.region r).run then
        s.modRegion r fun x => { x with pat := s0.patNext x.pat x.run }
      else s
  else s

/-- Throttle reasons and droop (R427, R436). (DESIGN CHOICE, log 2) -/
def State.tickThrottle (s : State) : State :=
  let s1 := s.modPower fun p => { p with
    thrNs := (List.range 9).foldl (fun m k => if s.throttled k then ctrAdd m k 10 else m) p.thrNs }
  s1.forAll (List.range 16) fun s r =>
    if (s.region r).stretch then s.modRegion r fun x => { x with ctr := ctrAdd x.ctr 0x108 10 } else s

/-- Cycles that synchronised streams wait (R52, cause `SYNC`). -/
def Tile.syncStalls (x : Tile) (n : Nat) : Tile :=
  allStrms.foldl (fun x q =>
    let waits := !x.halted q && x.used q && (match q with
      | .x => x.sq.x.ended && decide (x.st = 5)
      | _ => (x.seq q).sync && decide (3 ≤ x.st ∧ x.st ≤ 5))
    if waits then x.count (0x100 + 0x40 * Strm.code q + 0x30) n else x) x

/-- Whether a stream stands at a `PWAIT` on transfers in flight (R221). -/
def State.atPwait (s : State) (t : Nat) : Bool :=
  let x := s.tile t
  [Strm.f, .b, .u].any fun q =>
    let w := Map.get 0 x.im (x.slot q)
    s.mayIssue t q && decide (keyOf w = 0x060) && (x.seq q).predOk w &&
      x.io.tags.any fun g => decide (g.q = q) && bit ((x.seq q).sreg (fA w)) g.tag

/-- What a tick brings a tile of the job whatever the job's state: time of a blocked inbound buffer is counted (R287), and what the queue
unit does by itself is done. -/
def State.tickQueue (s : State) (t : Nat) : State :=
  let s1 := if (s.tile t).blocked then s.countTile t 0x730 10 else s
  if (s1.tile t).io.late = [] then s1 else s1.refreshQueue t

/-- Time counters of one tile of the job (R52, R176, R221), `s0` the state the tick found; how long bank ports waited is a count the model leaves free. (DESIGN CHOICE, log 2) -/
def State.tickTile (s0 s : State) (t : Nat) : State :=
  let n := s0.regionCycles (regionOf t)
  let x := (s.tile t).syncStalls n
  let x1 := if s.atPwait t then x.count 0x520 10 else x
  let x3 := (x1.count 0x210 (Config.freeNat s.free (2 * t) % (n + 1))).count 0x218 (Config.freeNat s.free (2 * t + 1) % (n + 1))
  s.setTile t x3

/-- The stages named on this member with every tile arrived while a tile of another stage has not (R312). -/
def State.idleStages (s : State) : List Nat :=
  let stage := fun (t : Nat) => fld ((s.tile t).reg 0x48) 32 3
  let here := fun (t : Nat) => (s.tile t).misc.dest
  (List.range 8).filter fun n =>
    s.job.tiles.any (fun t => decide (stage t = n)) && s.job.tiles.all (fun t => decide (stage t ≠ n) || here t) &&
      s.job.tiles.any fun t => decide (stage t ≠ n) && !(here t)

/-- Whether this member waits in a wave after its own last tile has reported (R232): for other members, be they its children, its parent
or others. -/
def State.waveWait (s : State) : Bool :=
  !s.stow.hold && !s.job.wave.doneAt &&
    (if s.job.exch then s.job.tiles.all fun t => (s.tile t).xs.part else s.job.tiles.all fun t => (s.tile t).misc.dest)

/-- Time counters of the job (R232, R312, R323, R435). (DESIGN CHOICE, log 2) -/
def State.tickJob (s0 s : State) : State :=
  let v := s.job.wave
  if s.job.js ≠ 4 then s
  else
    let s1 := if s.waveWait then s.countJob 0x10018 10 else s
    let s2 := if v.doneAt then s1.countJob 0x60038 10 else s1
    let s3 := if s.job.exch ∨ v.doneAt then s2 else s.idleStages.foldl (fun s n => s.countJob (0x10100 + 8 * n) 10) s2
    let s4 := if s.stow.hold then s3.countJob 0x100B0 10 else s3
    s4.forAll s.job.tiles (State.tickTile s0)

/-- The ramp after an undervoltage clamp: 4 steps up in each microsecond (R429). (DESIGN CHOICE, log 2) -/
def State.tickRamp (s : State) : State :=
  let p := s.power
  if p.recover ∧ s.now / 1000 ≠ (s.now - 10) / 1000 then
    let n := min p.want (p.run + 4)
    (s.applyRun n false).modPower fun q => { q with recover := decide (n ≠ p.want) }
  else s

/-- Whether a request to the stacks may be queued: a porter transfer that moves, a host access, a stow or a restore (R192). -/
def State.memBusy (s : State) : Bool :=
  s.stow.sending || s.stow.hostBusy || s.stow.restore.isSome || !s.rl.held.isEmpty ||
    s.job.tiles.any fun t => (s.tile t).io.tags.any fun g => !g.stuck

/-- Queue depth, refresh management and full queues of a stack (R223): what they are the spec does not state as a function of the commands,
so they are free values; no request is queued where none can be, or where the stack does not serve. (DESIGN CHOICE, log 2) -/
def State.tickStack (s : State) (k : Nat) : State :=
  let serves := (s.stk k).st = 2
  let f := fun (i : Nat) => Config.freeNat s.free (2 ^ 20 + 4 * k + i)
  let d := if serves ∧ s.memBusy = true then f 0 % 2049 else 0
  s.modStk k fun x => { x with
    qdepth := d
    qmax := max x.qmax d
    ctr := if serves then ctrAdd (ctrAdd x.ctr 0x20 (f 1)) 0x30 (if d = 0 then 0 else f 2 % 18) else x.ctr }

/-- A cluster of the job counts the cycles in which requests waited at its arbiter (R185). -/
def State.tickCluster (s : State) (c : Nat) : State := s.modCluster c fun x => x.countWait s.cycle

/-- `FIX_TRIG` is released 1 µs after the latch tick (R497). -/
def Dbg.tickTrig (d : Dbg) (now : Nat) : Dbg := if d.trigLow ∧ d.tick.toNat + 1000 ≤ now then { d with trigLow := false } else d

/-- The boot ROM has started and verifies the banks (R475, R510). (DESIGN CHOICE, log 2) -/
def Helm.tickBoot (h : Helm) : Helm := if h.stage = 1 then { h with stage := 2 } else h

/-- One tick. With the islands stopped nothing moves; in brownout the islands alone do (R411, R429). (DESIGN CHOICE, log 2) -/
def State.clockTick (s : State) : State :=
  if ¬ s.power.on then s
  else
    let s1 := s.tickClocks.tickFrames s
    if ¬ s.islands then s1
    else
      let s2 := if s.power.trip then s1.tickThrottle
        else
          let j := ((State.tickJob s s1.tickThrottle).forAll s.job.tiles State.tickQueue).forAll s.job.clusters State.tickCluster
          (j.tickRelease.forAll (List.range 32) State.tickStack).took
      let s3 := s2.tickRamp.modDbg fun d => d.tickTrig s1.now
      let s4 := (s3.modHelm fun h => h.tickBoot.burn).pendingReq
      s4.serveHeld

end Sys2Proof.Machine
end

