-- ==== Sys2Proof/Machine/Step.lean ====
section
/-! DEFINITION. One step: the command at the front of the queue, or one clock tick where none waits. -/

namespace Sys2Proof.Machine

/-- The front command runs with the rest of the queue; with an empty queue one tick of the always-on clock passes (log 2). -/
def step (s : State) : Host.Outcome State Fault Refusal :=
  match s.pending with
  | [] => .next s.clockTick
  | i :: rest => exec i { s with pending := rest }

/-- The state with the command that a word spells at the front of its queue; the opcode table gives no row a word. (DESIGN CHOICE, log 1) -/
def State.withFetchWord (s : State) (nbits w : Nat) : State :=
  match Sys2Proof.decodeTableWord nbits w with
  | some i => { s with pending := i :: s.pending }
  | none => s

end Sys2Proof.Machine
end

