-- ==== Sys2Proof/Machine/Signals.lean ====
section
/-! DEFINITION. What the module shows on its pins (R405, R476, R478, R533, R536): the level of each output as a function of the state, and
the data registers of the debug port. -/

namespace Sys2Proof.Machine

/-- What the module does with an output: an open-drain one is released or driven low (R533). -/
inductive Drive where
  | released
  | low
deriving DecidableEq, Repr

def Drive.lowIf (b : Bool) : Drive := if b then .low else .released

/-- Whether `RESET_L` leaves the islands' outputs to the state: the islands run and `RESET_L` is high (R476). -/
def State.shows (s : State) : Bool := s.power.on && !s.pins.resetLow

/-- `READY_OD`: low from the start of the islands until the helm runs, and in reset (R476). -/
def State.readyOd (s : State) : Drive := .lowIf (s.power.on && (s.pins.resetLow || s.pins.readyLow))

/-- `ALERT_L`: low while any alert bit is set (R405, R536). -/
def State.alertL (s : State) : Drive := .lowIf (s.shows && decide (s.power.alerts ≠ 0))

/-- `THERMTRIP_L`: low while the trip is latched (R431, R432). -/
def State.thermtripL (s : State) : Drive := .lowIf (s.shows && s.power.trip)

/-- `FIX_TRIG`: released until the helm runs, then low for 1 µs from a latch tick of another source than itself (R476, R497). -/
def State.fixTrigL (s : State) : Drive := .lowIf (s.shows && !s.pins.readyLow && s.dbg.trigLow)

/-- Whether the SMBus target acknowledges a 7-bit address: its own, from the strap, while the islands run and `RESET_L` is high; the alert
response address 0x0C not (R405, R536, R539). -/
def State.smbAcks (s : State) (addr : Nat) : Bool := s.shows && decide (addr = 0x58 + s.pins.slot)

/-- Whether the lanes of a Llyn port carry anything: else they are in electrical idle (R331, R345, R476). -/
def State.lanesRun (s : State) (p : Nat) : Bool := s.shows && !s.power.brown && decide ((s.port p).st ≠ 0)

/-- Whether the Riendlink lanes train or carry traffic (R363, R476). -/
def State.rlRuns (s : State) : Bool := s.shows && !s.power.brown && decide (s.rl.st ≠ 0)

/-! ## The debug port (R478 to R481) -/

/-- What the instruction register captures. -/
def tapCapture : Nat := 0x01

/-- The data register that `IDCODE` shows: version, part, manufacturer and a 1. -/
def tapIdcode : BitVec 32 := 0x20F240A9

/-- The data registers of the instruction codes. -/
inductive TapReg where
  | boundary
  | idcode
  | sxcmd
  | sxres
  | sxdata
  | bypass
deriving DecidableEq, Repr

/-- The data register an instruction code selects; every code without a name selects bypass, and so does `EXTEST` outside reset (R478, R479). -/
def State.tapReg (s : State) (ir : Nat) : TapReg :=
  match ir with
  | 0x00 => if s.pins.resetLow then .boundary else .bypass
  | 0x01 => .boundary
  | 0x02 => .idcode
  | 0x20 => .sxcmd
  | 0x21 => .sxres
  | 0x22 => .sxdata
  | _ => .bypass

/-- The 136 bits that `SXRES` captures: status, then the result words (R478, R481). -/
def State.sxres (s : State) : BitVec 136 :=
  (s.dbg.sx2.setWidth 136 <<< 72) ||| (s.dbg.sx1.setWidth 136 <<< 8) ||| BitVec.ofNat 136 (s.dbg.sxStat % 256)

end Sys2Proof.Machine
end

