-- ==== Sys2Proof/WellFormed.lean ====
section
/-! DEFINITION. Well-formed commands: those whose unit numbers name units the module has (R6, R7, R14, R16, R18, R365). -/

namespace Sys2Proof

/-- Whether the tile, cluster, region, stack, port, mailbox page, router or sensor a command names exists. -/
def Instr.wf (i : Instr) : Bool :=
  match i with
  | .nop t _ => decide (t < 2304)
  | .br t _ => decide (t < 2304)
  | .call t _ => decide (t < 2304)
  | .ret t _ => decide (t < 2304)
  | .bri t _ => decide (t < 2304)
  | .mwait t _ => decide (t < 2304)
  | .pwait t _ => decide (t < 2304)
  | .sync t _ => decide (t < 2304)
  | .brk t _ => decide (t < 2304)
  | .add t _ => decide (t < 2304)
  | .sub t _ => decide (t < 2304)
  | .and_ t _ => decide (t < 2304)
  | .or_ t _ => decide (t < 2304)
  | .xor t _ => decide (t < 2304)
  | .shl t _ => decide (t < 2304)
  | .shr t _ => decide (t < 2304)
  | .sar t _ => decide (t < 2304)
  | .mul t _ => decide (t < 2304)
  | .min_ t _ => decide (t < 2304)
  | .max_ t _ => decide (t < 2304)
  | .addi t _ => decide (t < 2304)
  | .li t _ => decide (t < 2304)
  | .lih t _ => decide (t < 2304)
  | .movx t _ => decide (t < 2304)
  | .cmp t _ => decide (t < 2304)
  | .cmpi t _ => decide (t < 2304)
  | .plog t _ => decide (t < 2304)
  | .amov t _ => decide (t < 2304)
  | .aaddi t _ => decide (t < 2304)
  | .ard t _ => decide (t < 2304)
  | .lds t _ => decide (t < 2304)
  | .sts t _ => decide (t < 2304)
  | .vadd t _ => decide (t < 2304)
  | .vmul t _ => decide (t < 2304)
  | .vfma t _ => decide (t < 2304)
  | .vmin t _ => decide (t < 2304)
  | .vmax t _ => decide (t < 2304)
  | .vsfma t _ => decide (t < 2304)
  | .vexp2 t _ => decide (t < 2304)
  | .vlog2 t _ => decide (t < 2304)
  | .vrsqrt t _ => decide (t < 2304)
  | .vrecip t _ => decide (t < 2304)
  | .vcvt t _ => decide (t < 2304)
  | .vrsum t _ => decide (t < 2304)
  | .vrmax t _ => decide (t < 2304)
  | .vcpy t _ => decide (t < 2304)
  | .vectorOpComplete t => decide (t < 2304)
  | .ald t _ => decide (t < 2304)
  | .amac t _ => decide (t < 2304)
  | .apreZero t _ => decide (t < 2304)
  | .apreBias t _ => decide (t < 2304)
  | .apreResid t _ => decide (t < 2304)
  | .adrn t _ => decide (t < 2304)
  | .tollGrant t => decide (t < 2304)
  | .arrayOpComplete t _ => decide (t < 2304)
  | .port t _ => decide (t < 2304)
  | .porterComplete t _ _ => decide (t < 2304)
  | .cld t _ => decide (t < 2304)
  | .cst t _ => decide (t < 2304)
  | .csRequestAccept c => decide (c < 192)
  | .csAccessComplete c _ => decide (c < 192)
  | .uld t _ => decide (t < 2304)
  | .ust t _ => decide (t < 2304)
  | .uniformChannelAccept t _ => decide (t < 2304)
  | .uniformComplete t _ _ => decide (t < 2304)
  | .tadd t _ => decide (t < 2304)
  | .taddr t _ => decide (t < 2304)
  | .tallyAddApply t => decide (t < 2304)
  | .twait t _ => decide (t < 2304)
  | .trd t _ => decide (t < 2304)
  | .qsend t _ => decide (t < 2304)
  | .qsends t _ => decide (t < 2304)
  | .sendComplete t => decide (t < 2304)
  | .qhead t _ => decide (t < 2304)
  | .qlen t _ => decide (t < 2304)
  | .qctlOpen t _ => decide (t < 2304)
  | .qctlClose t _ => decide (t < 2304)
  | .qctlReset t _ => decide (t < 2304)
  | .upd t _ => decide (t < 2304)
  | .ctw t _ => decide (t < 2304)
  | .ctr t _ => decide (t < 2304)
  | .xsend t => decide (t < 2304)
  | .xrsend t => decide (t < 2304)
  | .xnorm t => decide (t < 2304)
  | .xsetl t => decide (t < 2304)
  | .xloop t => decide (t < 2304)
  | .xend t => decide (t < 2304)
  | .xbr t => decide (t < 2304)
  | .xnop t => decide (t < 2304)
  | .xwait t => decide (t < 2304)
  | .staleFetchReport t _ => decide (t < 2304)
  | .arrivalWaveRelease => true
  | .exchangeLanding _ e => e.all fun m => decide (m.rtr < 2304)
  | .remotePacketIngress p => decide (p < 32)
  | .transitPacket p => decide (p < 32)
  | .contributionArrival _ => true
  | .meetResultOutput t _ _ => decide (t < 2304)
  | .normDelivery _ => true
  | .doneWaveRelease => true
  | .ballastRampStep r => decide (r < 16)
  | .ballastQuantum t _ => decide (t < 2304)
  | .overrunLimitExpiry t => decide (t < 2304)
  | .messageArrival _ => true
  | .messageAccept t => decide (t < 2304)
  | .messageVisible t => decide (t < 2304)
  | .returnSlipSend t => decide (t < 2304)
  | .ringWaitExpiry t => decide (t < 2304)
  | .syncWdogExpiry t _ _ => decide (t < 2304)
  | .stowFreezeStart => true
  | .stowFreezeDone => true
  | .stowBlockLanding _ => true
  | .stowComplete _ => true
  | .restoreComplete _ => true
  | .devInfo k => decide (k < 64)
  | .readyQuery k => decide (k < 64)
  | .jobLoad k _ => decide (k < 64)
  | .jobStart k _ => decide (k < 64)
  | .jobStartTick => true
  | .jobStartTimeout => true
  | .jobPause k => decide (k < 64)
  | .jobResume k _ => decide (k < 64)
  | .jobResumeTick => true
  | .jobAbortStop k => decide (k < 64)
  | .jobAbortUnload k => decide (k < 64)
  | .jobStatus k => decide (k < 64)
  | .stowConfig k _ => decide (k < 64)
  | .stowRestore k _ => decide (k < 64)
  | .capSet k => decide (k < 64)
  | .telemetryRead k => decide (k < 64)
  | .ledgerRead k => decide (k < 64)
  | .throttleRead k => decide (k < 64)
  | .fenceQuery k => decide (k < 64)
  | .sightSchedule k => decide (k < 64)
  | .fixArm k => decide (k < 64)
  | .fixRead k => decide (k < 64)
  | .fwStage k _ => decide (k < 64)
  | .fwActivate k => decide (k < 64)
  | .attest k => decide (k < 64)
  | .linkConfig k _ => decide (k < 64)
  | .chronoAlignStep k => decide (k < 64)
  | .chronoAlignRead k => decide (k < 64)
  | .regionSleep k => decide (k < 64)
  | .regionOff k => decide (k < 64)
  | .regionWake k => decide (k < 64)
  | .debugTunnel k _ => decide (k < 64)
  | .devMbxDb k _ => decide (k < 64)
  | .devMbxCq k _ => decide (k < 64)
  | .helmWatchdogExpiry => true
  | .helmRestartDone _ => true
  | .helmFlashWrite => true
  | .marginSight => true
  | .sightEnd _ => true
  | .smbDevInfo => true
  | .smbHelmVer => true
  | .smbReady => true
  | .smbInputMv => true
  | .smbInputCurrent => true
  | .smbInputPower => true
  | .smbHottestDie => true
  | .smbHottestStack => true
  | .smbThrottle => true
  | .smbCapRead => true
  | .smbCapWrite _ => true
  | .smbCapInForce => true
  | .smbThermalTarget => true
  | .smbAlertsRead => true
  | .smbAlertsClear _ => true
  | .smbChrono => true
  | .smbModid => true
  | .smbEnergy => true
  | .halt _ _ _ => true
  | .release _ _ _ => true
  | .step _ _ _ => true
  | .status _ _ => true
  | .event _ => true
  | .read _ _ _ _ => true
  | .write _ _ _ _ _ => true
  | .haltNotice _ _ => true
  | .fixTimeTrigger => true
  | .fixTrigEdge => true
  | .fixLatch => true
  | .fixCopyDone => true
  | .arrive p _ _ _ => decide (p < 32)
  | .go p _ _ _ => decide (p < 32)
  | .part p _ _ => decide (p < 32)
  | .done p _ _ => decide (p < 32)
  | .stop p _ _ _ => decide (p < 32)
  | .fix p _ _ _ => decide (p < 32)
  | .align p _ _ _ => decide (p < 32)
  | .link p _ _ => decide (p < 32)
  | .symbolHoldRelease _ => true
  | .alignExchangeTimer p => decide (p < 32)
  | .llynFrameReceive p _ _ => decide (p < 32)
  | .frameLockLoss p => decide (p ≤ 32)
  | .llynRetrainDone p => decide (p < 32)
  | .llynRetrainTimeout p => decide (p < 32)
  | .llynDetectPoll p _ => decide (p < 32)
  | .llynTrainLock p => decide (p < 32)
  | .llynTrainRetry p => decide (p < 32)
  | .rlFrameReceive _ _ => true
  | .rlRetrainTimeout => true
  | .rlTrainRetry => true
  | .rds _ _ => true
  | .rdo _ _ => true
  | .rdnc _ _ _ => true
  | .wrline _ _ _ => true
  | .wrpart _ _ _ _ => true
  | .evict _ _ => true
  | .cfgrd _ _ => true
  | .cfgwr _ _ _ => true
  | .invack _ _ => true
  | .hrdResponse t _ _ _ _ => decide (t < 2304)
  | .hwrCompletion t _ _ _ => decide (t < 2304)
  | .rlHcwRequest _ => true
  | .rlMsiWrite _ _ _ => true
  | .hbmSelfRefreshIdle k => decide (k < 32)
  | .powerManagerPeriod _ => true
  | .currentLimiterSample _ => true
  | .droopDetect r => decide (r < 16)
  | .droopStretchEnd r => decide (r < 16)
  | .stepDeferExpiry r => decide (r < 16)
  | .uvClamp _ => true
  | .uvRelease _ => true
  | .brownout _ => true
  | .brownoutRecovery _ => true
  | .islandsStop _ => true
  | .powerOn _ _ => true
  | .thermalControlPeriod _ => true
  | .thermalTrip kind idx _ => decide (kind ≤ 2 ∧ idx < (if kind = 2 then 32 else 16))
  | .devPwrStatTripClear => true
  | .telemetrySample _ => true
  | .ledgerAccumulate _ => true
  | .ledgerRefit _ => true
  | .deepIdleRequest => true
  | .alwaysOnOnlyRequest => true
  | .powerRequestNone => true
  | .alwaysOnExit => true
  | .refclkLoss => true
  | .refclkReturn _ => true
  | .resetLAssert => true
  | .resetLDeassert _ => true
  | .tileRst t => decide (t < 2304)
  | .regionRst r => decide (r < 16)
  | .registerWrite _ _ => true
  | .scalarPortComplete t => decide (t < 2304)
  | .linkFrameSend p => decide (p ≤ 32)
  | .llynTrainTimeout p => decide (p < 32)
  | .rlLinkUp => true
  | .regionReady r => decide (r < 16)
  | .helmDiePowerUp => true
  | .bootRomVerifyDone => true
  | .stowConfigTimeout => true
  | .extest _ => true
  | .slotIdChange _ => true

end Sys2Proof
end

