-- ==== Sys2Proof/Safety.lean ====
section
/-! DEFINITION. What counts as a safe run: no step of it ends in a fault or a refusal of the model. A job fault of the hardware is
no fault of the model; it is part of the state. -/

namespace Sys2Proof.Machine

/-- A state that the module reaches from another in one step. -/
def Steps (s t : State) : Prop := step s = .next t

/-- Every step of a run of `n` steps answers a next state. -/
def SafeFor : Nat → State → Prop
  | 0, _ => True
  | n + 1, s => ∃ t, step s = .next t ∧ SafeFor n t

/-- A queue of well-formed commands, which no step can fault on. -/
def State.queueWf (s : State) : Bool := s.pending.all Instr.wf

/-- The unit tables are in the one canonical form of a sparse table: unit numbers rising, no unit listed at its reset. -/
structure State.Canon (s : State) : Prop where
  tiles : Map.wf {} s.tiles
  clusters : Map.wf {} s.clusters
  regions : Map.wf {} s.regions
  stks : Map.wf {} s.stks
  ports : Map.wf {} s.ports

/-- The fence map and the retirements of `x` are all in `y` (R458, R460). -/
structure Rel.Grows (x y : Rel) : Prop where
  fTiles : x.fTiles ⊆ y.fTiles
  fClus : x.fClus ⊆ y.fClus
  fRtr : x.fRtr ⊆ y.fRtr
  fLink : x.fLink ⊆ y.fLink
  failed : x.failed ⊆ y.failed
  retired : x.retired ⊆ y.retired

/-- A tile's stored state is one of the codes 1 to 9 of `TILE_STATE` (R66); 0 is what a tile of a region that is off reads. -/
def Tile.Legal (x : Tile) : Prop := 1 ≤ x.st ∧ x.st ≤ 9

/-- A region's power state, and the one a wake returns to, are among the five of log 25. -/
def Region.Legal (x : Region) : Prop := x.pwr ≤ 4 ∧ x.goal ≤ 4

/-- Every mode of the module is one the spec names: `JSTATE` (R390), the state of Riendlink and of every port (R345, R361), of
every tile (R66), region and stack. -/
structure State.Legal (s : State) : Prop where
  job : s.job.js ≤ 7
  rl : s.rl.st ≤ 6
  tiles : ∀ t, (s.tile t).Legal
  ports : ∀ p, (s.port p).st ≤ 6
  regions : ∀ r, (s.region r).Legal
  stks : ∀ k, (s.stk k).st ≤ 4

/-! ## An instruction that issues -/

/-! An instruction is looked at in its turn: `s` here is the module once the stream has taken its turn in a compute cycle
(`State.enter`, R47). -/

/-- The word `w` is what stream `q` of tile `t` fetches: the stream may issue (R38, R47, R66), its slot lies in the partition
(R39), is under no breakpoint (R488) and without parity error (R40), and the word is legal (R133). -/
structure State.Offers (s : State) (t : Nat) (q : Strm) (w : Word) : Prop where
  unit : t < 2304
  may : s.mayIssue t q = true
  inPart : (s.tile t).pc q < 64 * ((s.tile t).part q).2
  noBreak : s.dbg.bpen = false ∨ (s.tile t).halted q = true ∨ (s.tile t).breakAt q ((s.tile t).slot q) = none
  parity : (s.tile t).imBad.contains ((s.tile t).slot q) = false
  word : Map.get 0 (s.tile t).im ((s.tile t).slot q) = w
  legal : legal q w = true

/-- Nothing holds back that instruction: its predicate holds (R130), no register of `regs` waits for a result (R48), the mark it
names is below 127 (R53), and no stream of higher priority takes its shared unit in this compute cycle, unless it waits for a
condition that uses none (R49, R50). -/
structure State.Issues (s : State) (t : Nat) (q : Strm) (w : Word) (regs : List Nat) : Prop extends State.Offers s t q w where
  pred : q = .x ∨ ((s.tile t).seq q).predOk w = true
  ready : ∀ r ∈ regs, ((s.tile t).seq q).busy.contains r = false
  mark : bit w 51 = true → ((s.tile t).seq q).mark (fld w 47 4) < 127
  free : (s.waitMet t w && s.contended t q w) = false

/-- The place of that instruction. -/
def State.site (s : State) (t : Nat) (q : Strm) (w : Word) : Site := { t := t, q := q, pc := (s.tile t).slot q, w := w }

/-- The slot after the one a stream stands at. -/
def State.nextPc (s : State) (t : Nat) (q : Strm) : BitVec 13 := BitVec.ofNat 13 ((s.tile t).pc q + 1)

/-- Everything of a tile but its sequencers, its counters, the record of its compute cycle and the streams a Sextant step still owes an
instruction. -/
structure Tile.SameData (x y : Tile) : Prop where
  st : y.st = x.st
  fault : y.fault = x.fault
  faultTime : y.faultTime = x.faultTime
  cfg : y.cfg = x.cfg
  im : y.im = x.im ∧ y.imBad = x.imBad
  sp : y.sp = x.sp ∧ y.spBad = x.spBad
  am : y.am = x.am ∧ y.amBad = x.amBad
  sb : y.sb0 = x.sb0 ∧ y.sb1 = x.sb1
  ctab : y.ctab = x.ctab ∧ y.ctabBad = x.ctabBad
  io : y.io = x.io
  xs : y.xs = x.xs
  qu : y.qu = x.qu
  misc : y.misc = { x.misc with stepping := y.misc.stepping }

/-- Everything of the module but tile `t` is as before; the mailbox, the interrupts and Sextant's status too, unless the tile owed a
Sextant step an instruction (R486). -/
structure State.SameBut (t : Nat) (s s' : State) : Prop where
  tiles : ∀ u, u ≠ t → s'.tile u = s.tile u
  clusters : s'.clusters = s.clusters
  regions : s'.regions = s.regions
  stks : s'.stks = s.stks
  ports : s'.ports = s.ports
  job : s'.job = s.job
  stow : s'.stow = s.stow
  power : s'.power = s.power
  rel : s'.rel = s.rel
  pins : s'.pins = s.pins
  net : s'.net = s.net
  sub : s'.sub = s.sub
  free : s'.free = s.free
  pending : s'.pending = s.pending
  still : (s.tile t).misc.stepping = 0 → s'.rl = s.rl ∧ s'.helm = s.helm ∧ s'.dbg = s.dbg

/-- What an instruction that only touches registers leaves: the registers of its sequencer are `v` but for the program counter, which
is `next`; `n` bubble cycles are counted (R41); nothing else changes but the recompute count (R315). -/
structure State.Issued (s s' : State) (t : Nat) (q : Strm) (next : BitVec 13) (n : Nat) (v : Seq) : Prop where
  seq : (s'.tile t).seq q = { v with pc := next, last := BitVec.ofNat 13 ((s.tile t).slot q) }
  streams : ∀ r, r ≠ q → (s'.tile t).seq r = (s.tile t).seq r
  x : (s'.tile t).sq.x = (s.tile t).sq.x
  data : (s.tile t).SameData (s'.tile t)
  bubble : Map.get 0 (s'.tile t).ctr (0x138 + 0x40 * Strm.code q) =
    Map.get 0 (s.tile t).ctr (0x138 + 0x40 * Strm.code q) + BitVec.ofNat 64 n
  ctr : ∀ o, o ≠ 0x220 → o ≠ 0x138 + 0x40 * Strm.code q → Map.get 0 (s'.tile t).ctr o = Map.get 0 (s.tile t).ctr o
  rest : s.SameBut t s'

/-- The instructions of the streams F, B and U, each with its key: opcode, and mode or function for `APRE` and `QCTL` (R129). -/
def streamInsns : List (Nat × (Nat → Strm → Instr)) := [
    (0x000, .nop), (0x010, .br), (0x020, .call), (0x030, .ret), (0x040, .bri), (0x050, .mwait), (0x060, .pwait),
    (0x070, .sync), (0x080, .brk), (0x100, .add), (0x110, .sub), (0x120, .and_), (0x130, .or_), (0x140, .xor), (0x150, .shl),
    (0x160, .shr), (0x170, .sar), (0x180, .mul), (0x190, .min_), (0x1A0, .max_), (0x1B0, .addi), (0x1C0, .li), (0x1D0, .lih),
    (0x1E0, .movx), (0x200, .cmp), (0x210, .cmpi), (0x220, .plog), (0x230, .amov), (0x240, .aaddi), (0x250, .ard),
    (0x300, .lds), (0x310, .sts), (0x400, .vadd), (0x410, .vmul), (0x420, .vfma), (0x430, .vmin), (0x440, .vmax),
    (0x450, .vsfma), (0x460, .vexp2), (0x470, .vlog2), (0x480, .vrsqrt), (0x490, .vrecip), (0x4A0, .vcvt), (0x4B0, .vrsum),
    (0x4C0, .vrmax), (0x4D0, .vcpy), (0x500, .ald), (0x510, .amac), (0x520, .apreZero), (0x521, .apreBias),
    (0x522, .apreResid), (0x530, .adrn), (0x600, .port), (0x610, .cld), (0x620, .cst), (0x630, .uld), (0x640, .ust),
    (0x700, .tadd), (0x710, .taddr), (0x720, .twait), (0x730, .trd), (0x740, .qsend), (0x750, .qsends), (0x760, .qhead),
    (0x770, .qlen), (0x780, .qctlOpen), (0x781, .qctlClose), (0x782, .qctlReset), (0x800, .upd), (0x810, .ctw),
    (0x820, .ctr)]

/-- The instructions of X (R158). -/
def xInsns : List (Nat × (Nat → Instr)) := [
    (0xC00, .xsend), (0xC10, .xrsend), (0xC20, .xnorm), (0xC30, .xsetl), (0xC40, .xloop), (0xC50, .xend), (0xC60, .xbr),
    (0xC70, .xnop), (0xC80, .xwait)]

/-- Nothing of a tile but `ops`, the operations in flight, and the accesses `acc` they add changes beside the sequencers and
`TILE_RECOMP` (R315): what an instruction does whose operation goes on after it has issued (R53). The sequencer's registers are `v`
but for the program counter; the mark the instruction names is one higher. -/
structure State.Taken (s s' : State) (t : Nat) (q : Strm) (w : Word) (v : Seq) (ops : TileIo → TileIo) (acc : List Acc) : Prop where
  seq : (s'.tile t).seq q = { (if bit w 51 then v.addMark (fld w 47 4) else v) with
    pc := s.nextPc t q, last := BitVec.ofNat 13 ((s.tile t).slot q) }
  streams : ∀ r, r ≠ q → (s'.tile t).seq r = (s.tile t).seq r
  x : (s'.tile t).sq.x = (s.tile t).sq.x
  data : (s.tile t).SameData { s'.tile t with io := (s.tile t).io }
  ops : { (s'.tile t).io with acc := [] } = ops { (s.tile t).io with nextId := (s.tile t).io.nextId + 1, acc := [] }
  acc : (s'.tile t).io.acc.map (fun a => { a with racy := [] }) =
    (s.tile t).io.acc.map (fun a => { a with racy := [] }) ++ acc
  ctr : ∀ o, o ≠ 0x220 → Map.get 0 (s'.tile t).ctr o = Map.get 0 (s.tile t).ctr o
  rest : s.SameBut t s'

/-- The operation record of an instruction that issues, with the register values `v` it captures and the bytes `dat`. -/
def State.opOf (s : State) (t : Nat) (q : Strm) (w : Word) (v : List Word) (dat : List Byte) : Op :=
  (s.site t q w).op (s.tile t) v dat

/-! ## What an operation reads and writes -/

/-- Consecutive scratchpad rows, and consecutive accumulator rows. -/
def Tile.rows (x : Tile) (lo n : Nat) : List Byte := (List.range n).flatMap fun i => Map.slice 0 x.sp (512 * (lo + i)) 512
def Tile.amRows (x : Tile) (lo n : Nat) : List W32 := (List.range n).flatMap fun i => x.amRow (lo + i)

/-- Operation `id` of tile `t` meets no race (R64), no parity error (R126, R177), no bank of the other class (R171); no watchpoint
can hit (R489). -/
structure State.Quiet (s : State) (t id : Nat) : Prop where
  noBreak : s.dbg.bpen = false
  parity : (s.tile t).spBad = [] ∧ (s.tile t).amBad = [] ∧ (s.tile t).ctabBad = []
  reads : ∀ am, (s.tile t).racyReads id am = []
  writes : (s.tile t).racyWrites id = []
  banks : ∀ eng row, (s.tile t).foreign eng row = false

/-- The scratchpad of `y` is that of `x` with `b` written from row `lo`: every other byte reads as before. -/
def Tile.Wrote (x y : Tile) (lo : Nat) (b : List Byte) : Prop :=
  Map.slice 0 y.sp (512 * lo) b.length = b ∧
  ∀ k, k < 512 * lo ∨ 512 * lo + b.length ≤ k → Map.get 0 y.sp k = Map.get 0 x.sp k

/-- The accumulator memory of `y` is that of `x` with `v` written from row `lo`. -/
def Tile.WroteAm (x y : Tile) (lo : Nat) (v : List W32) : Prop :=
  Map.slice 0 y.am (64 * lo) v.length = v ∧
  ∀ k, k < 64 * lo ∨ 64 * lo + v.length ≤ k → Map.get 0 y.am k = Map.get 0 x.am k

/-- The events of R95 that `l` lists are counted in the five numeric counters. -/
def Tile.CountedEvs (x y : Tile) (l : List NumEv) : Prop :=
  ∀ e, Map.get 0 y.ctr (numEvOff e) = Map.get 0 x.ctr (numEvOff e) + BitVec.ofNat 64 (l.count e)

/-- The vector unit's oldest operation `o` of tile `t` ends in `s'`: its slot frees, its mark falls, its accesses leave (R53, R54);
the sequencer it came from has the registers `v` but for that mark; the others, the accumulator memory and the array operations
are as before. -/
structure State.VecEnds (s s' : State) (t : Nat) (o : Op) (rest : List Op) (v : Seq) : Prop where
  vec : (s'.tile t).io.vec = rest
  seq : (s'.tile t).seq o.q = if bit o.w 51 then v.subMark (fld o.w 47 4) else v
  streams : ∀ r, r ≠ o.q → (s'.tile t).seq r = (s.tile t).seq r
  acc : ∀ a ∈ (s'.tile t).io.acc, a.id ≠ o.id
  am : (s'.tile t).am = (s.tile t).am
  arr : (s'.tile t).io.arr = (s.tile t).io.arr
  st : (s'.tile t).st = (s.tile t).st
  tiles : ∀ u, u ≠ t → s'.tile u = s.tile u
  clusters : s'.clusters = s.clusters
  job : s'.job = s.job

/-- The vector unit's operations are `o`, the oldest, and `rest`, none of them an `UPD` that waits to start; it is not the tick in which
the job stopped. -/
structure State.VecHead (s : State) (t : Nat) (o : Op) (rest : List Op) : Prop where
  unit : t < 2304
  tick : s.sameTick = false
  vec : (s.tile t).io.vec = o :: rest
  ids : ∀ p ∈ rest, p.id ≠ o.id ∧ fld p.w 56 8 ≠ 0x80
  quiet : s.Quiet t o.id

/-- Operand a of a vector instruction as element codes (R143): scratchpad rows, or accumulator rows with `SA` set. -/
def Tile.vecOperand (x : Tile) (o : Op) : List Nat :=
  let n := fN o.w
  let lo := (o.v.getD 1 0).toNat
  if bit o.w 18 then (x.amRows lo (2 * n)).map (·.toNat)
  else (unpackRows (vFi o.w) (rowsFor (vFi o.w) (128 * n)) (x.rows lo (rowsFor (vFi o.w) (128 * n)))).take (128 * n)

/-- Array operation `o` of tile `t` ends in `s'`: it leaves the queue, its toll units free, its mark falls, its accesses leave (R53,
R54, R58, R123); the other registers, the vector operations, every other tile and cluster and the job are as before. -/
structure State.ArrEnds (s s' : State) (t : Nat) (o : Op) : Prop where
  arr : (s'.tile t).io.arr = (s.tile t).io.arr.filter fun p => p.id != o.id
  seq : (s'.tile t).seq o.q = if bit o.w 51 then ((s.tile t).seq o.q).subMark (fld o.w 47 4) else (s.tile t).seq o.q
  streams : ∀ r, r ≠ o.q → (s'.tile t).seq r = (s.tile t).seq r
  acc : ∀ a ∈ (s'.tile t).io.acc, a.id ≠ o.id
  toll : (s'.tile t).io.toll = (s.tile t).io.toll - tollW o.w
  held : (s'.cluster (clusterOf t)).held = (s.cluster (clusterOf t)).held - tollW o.w
  vec : (s'.tile t).io.vec = (s.tile t).io.vec
  st : (s'.tile t).st = (s.tile t).st
  tiles : ∀ u, u ≠ t → s'.tile u = s.tile u
  clusters : ∀ c, c ≠ clusterOf t → s'.cluster c = s.cluster c
  job : s'.job = s.job

/-- The registers `v` of a sequencer once instruction `w` has issued: the named mark counts up, the program counter moves on. -/
def State.seqAfter (s : State) (t : Nat) (q : Strm) (w : Word) (v : Seq) : Seq :=
  { (if bit w 51 then v.addMark (fld w 47 4) else v) with pc := s.nextPc t q, last := BitVec.ofNat 13 ((s.tile t).slot q) }

/-- An instruction of tile `t` may read whole rows at once and meet nothing: no operation in flight touches rows, no parity error
(R177), no bank of the other class (R171), no watchpoint can hit (R489). -/
structure State.Clear (s : State) (t : Nat) : Prop where
  acc : (s.tile t).io.acc = []
  parity : (s.tile t).spBad = []
  noBreak : s.dbg.bpen = false
  banks : ∀ eng row, (s.tile t).foreign eng row = false

/-- What an operation that completes leaves beside its result: the sequencer it came from with its mark lowered, the others, the
accumulator memory, the instruction memory, the other tiles and the job as before. -/
structure State.OpEnds (s s' : State) (t : Nat) (o : Op) : Prop where
  seq : (s'.tile t).seq o.q = if bit o.w 51 then ((s.tile t).seq o.q).subMark (fld o.w 47 4) else (s.tile t).seq o.q
  streams : ∀ r, r ≠ o.q → (s'.tile t).seq r = (s.tile t).seq r
  am : (s'.tile t).am = (s.tile t).am
  im : (s'.tile t).im = (s.tile t).im
  st : (s'.tile t).st = (s.tile t).st
  tiles : ∀ u, u ≠ t → s'.tile u = s.tile u
  job : s'.job = s.job

/-- The values of one operand of a completing `UPD` with runs `l` (R289, R297): zeros where the row does not use it. -/
def Tile.updVals (x : Tile) (o : Op) (l : List (Nat × Nat × Nat × Bool)) (i : Nat) (bias : Int) : List Fp :=
  match l.find? fun r => decide (r.1 = i) with
  | none => List.replicate (512 * updN o.w) zero32
  | some r => (unpackRows r.2.2.1 (updRows o.w r.2.2.1) (x.rows r.2.1 (updRows o.w r.2.2.1))).map
      fun e => (elemNum r.2.2.1 e).scale (if r.2.2.1 = 0 then 0 else -bias)

/-- Operand `i` of a `UPD` is written to its run, if its row uses it. -/
def Tile.WroteUpd (x y : Tile) (o : Op) (l : List (Nat × Nat × Nat × Bool)) (i : Nat) (codes : List Nat) : Prop :=
  match l.find? fun r => decide (r.1 = i) with
  | none => y.sp = x.sp
  | some r => x.Wrote y r.2.1 (packRows r.2.2.1 (updRows o.w r.2.2.1) codes)

/-! ## The mailbox -/

/-- Word `i` of the entry at the head of page `k` (R384). -/
def State.cmdArg (s : State) (k i : Nat) : Word := argOf ((s.page k).entry 0) i

/-- The head of page `k` is a command of code `opc` that the helm may take; it is the page's last, nothing of the page waits for a
completion slot, and the next slot is free (R380 to R383). -/
structure State.Waits (s : State) (k opc : Nat) : Prop where
  unit : k < 64
  start : s.mayStart k opc = true
  none : (s.page k).hold = [] ∧ (s.page k).evts = []
  room : (s.page k).room = true
  only : (s.page k).ctail = (s.page k).chead + 1

/-- That command was taken and answered with status `st` and words `ws` in the page's next completion slot (R382, R385); every other
page is as before. -/
structure State.Posted (s s' : State) (k st : Nat) (ws : List Word) : Prop where
  slot : Map.slice 0 (s'.page k).mem (256 + 8 * ((s.page k).posted % 32)) 8 =
    (entryHead false (fld (s.cmdArg k 0) 56 8) st 0 (fld (s.cmdArg k 0) 32 16) ||| place 63 1 (1 - (s.page k).posted / 32 % 2) |||
      place 0 16 ((s.page k).chead + 1).toNat) :: (ws ++ List.replicate 7 0).take 7
  page : (s'.page k).chead = (s.page k).chead + 1 ∧ (s'.page k).posted = (s.page k).posted + 1 ∧ (s'.page k).done = true
  others : ∀ j, j ≠ k → s'.page j = s.page j

/-- Everything but the mailbox pages and the interrupts pending is as before. -/
structure State.AllButHelm (s s' : State) : Prop where
  tiles : s'.tiles = s.tiles
  clusters : s'.clusters = s.clusters
  regions : s'.regions = s.regions
  stks : s'.stks = s.stks
  ports : s'.ports = s.ports
  job : s'.job = s.job
  stow : s'.stow = s.stow
  power : s'.power = s.power
  rel : s'.rel = s.rel
  dbg : s'.dbg = s.dbg
  pins : s'.pins = s.pins
  net : s'.net = s.net
  sub : s'.sub = s.sub
  free : s'.free = s.free
  pending : s'.pending = s.pending
  helm : s'.helm = { s.helm with pages := s'.helm.pages, serial := s'.helm.serial, serialBusy := s'.helm.serialBusy }
  rl : s'.rl = { s.rl with pend := s'.rl.pend, msiOut := s'.rl.msiOut }

/-- The command `c` of page `k` is answered with status `st` and words `ws`, and the module is `m` but for the mailbox. -/
def State.Answers (s : State) (c : Instr) (k st : Nat) (ws : List Word) (m : State) : Prop :=
  ∃ s', exec c s = .next s' ∧ s.Posted s' k st ws ∧ m.AllButHelm s'

end Sys2Proof.Machine
end

