-- ==== Sys2Proof/Certificates/Slice0/Obligations.lean ====
section
/-! DEFINITION. The statements for the provers. -/

open Sys2Proof Sys2Proof.Machine

/-- For every command c and state s, a step of s with c put at the front of its queue is exec c on s with the queue's rest. The queue of waiting commands is the model's own (log 1). -/
def Obligations.StepRunsTheFrontCommand : Prop :=
  ∀ (c : Instr) (s : State), step { s with pending := c :: s.pending } = exec c s

/-- With no command waiting a step answers a next state with an empty queue. While the islands run and RESET_L is high the chronometer is 10 ns further, and the service time is 10 ns further whenever the islands run. With the islands stopped nothing changes. That time passes when no command waits is the model's choice (log 2). -/
def Obligations.EmptyQueueStepIsOneTick : Prop :=
  ∀ s : State, s.pending = [] → ∃ s', step s = .next s' ∧ s'.pending = [] ∧
    (s.power.on = false → s' = s) ∧
    (s.power.on = true → s'.rel.hours = s.rel.hours + 10) ∧
    (s.power.on = true → s.pins.resetLow = false → s'.power.chrono = s.power.chrono + 10)

/-- State.reset is the module just after power-on: no command waits, the islands run, nothing but the islands is powered (every region is off, no stack and no port has started, Riendlink is down), the helm does not run and shows stage 0, READY_OD is pulled low, the chronometer stands at 0, no job is loaded, every tile register reads 0 and predicate P0 reads true. The values the spec gives no reset value for are those of log 4. State.reset lists its units canonically, every mode of it is one the spec names, and its queue holds no ill-formed command. -/
def Obligations.ResetIsTheStartOfBringUp : Prop :=
  (
    State.reset.pending = [] ∧ State.reset.power.on = true ∧ State.reset.power.chrono = 0 ∧
    (∀ r, (State.reset.region r).pwr = 2) ∧ (∀ k, (State.reset.stk k).st = 0) ∧ (∀ p, (State.reset.port p).st = 0) ∧
    State.reset.rl.st = 0 ∧ State.reset.helm.run = false ∧ State.reset.helm.stage = 0 ∧ State.reset.pins.readyLow = true ∧
    State.reset.job.img = none ∧ State.reset.job.js = 0 ∧
    (∀ t q i, ((State.reset.tile t).seq q).sreg i = 0 ∧ ((State.reset.tile t).seq q).areg i = 0 ∧
      ((State.reset.tile t).seq q).preg 0 = true ∧ (i ≠ 0 → ((State.reset.tile t).seq q).preg i = false))) ∧
  (
    State.reset.Canon ∧ State.reset.Legal ∧ State.reset.queueWf = true ∧ State.reset.helm.fuse ≤ 64)

/-- From any state whose modes are legal, a step that answers a next state answers one whose modes are legal: JSTATE is at most 7, Riendlink and every port are in a state of their state machines, every tile is in a state of TILE_STATE, every region and stack in one of theirs. -/
def Obligations.StepKeepsEveryModeLegal : Prop :=
  ∀ s s' : State, s.Legal → step s = .next s' → s'.Legal

/-- In every step, of any command or of the clock, the fuse level after is at least the fuse level before, and a level within 0 to 64 stays within 0 to 64: no reset, power loss, restart or command lowers it. No step changes the revoke bits, which only the factory burns. A DEV_INFO that the helm starts is answered with the level in word 5. -/
def Obligations.FuseLevelNeverFalls : Prop :=
  (∀ s s' : State, step s = .next s' →
    s.helm.fuse ≤ s'.helm.fuse ∧ (s.helm.fuse ≤ 64 → s'.helm.fuse ≤ 64) ∧ s'.helm.revoke = s.helm.revoke) ∧
  (∀ (s : State) (k : Nat), k < 64 → s.mayStart k 0x01 = true → s.helm.fuse ≤ 64 →
    ∃ ws, exec (.devInfo k) s = .next ((s.take k).complete k 0 ws) ∧ fld (ws.getD 4 0) 0 16 = s.helm.fuse)

/-- Every step keeps every fenced tile, cluster, router and link, every failed stack and every retired granule in the fence map: a step may add entries and removes none, whatever the command, a reset and a loss of power included. -/
def Obligations.FencesArePermanent : Prop :=
  ∀ s s' : State, step s = .next s' → s.rel.Grows s'.rel

/-- From any state whose tables of tiles, clusters, regions, stacks and ports are in the one canonical form (unit numbers rising, none listed at its reset), a step that answers a next state answers one in that form, so that equal machines are equal data. -/
def Obligations.StepKeepsTheTablesCanonical : Prop :=
  ∀ s s' : State, s.Canon → step s = .next s' → s'.Canon

/-- A command whose units exist answers a next state on every state of the module: no fault, no refusal. A command leaves the queue as it is. So from any state whose queue holds well-formed commands, every run, of any length, is safe. -/
def Obligations.WellFormedRunsAreSafe : Prop :=
  (∀ (c : Instr) (s : State), c.wf = true → ∃ s', exec c s = .next s') ∧
  (∀ (c : Instr) (s s' : State), exec c s = .next s' → s'.pending = s.pending) ∧
  (∀ (n : Nat) (s : State), s.queueWf = true → SafeFor n s)

/-- For every instruction of F, B, U and X, outside the tick in which the job stopped: where the stream may not issue in its turn (region not on, no running job, another phase, unused, past its SYNC or XEND, or halted without a step), the command changes nothing; nor does it where the stream offers a legal word of another instruction. A stream's turn (State.enter) is the model's account of the compute cycle it tries to issue in (log 46). For every instruction of F, B and U in its turn. With a false predicate it issues as a no-op: the program counter moves to the next slot and no register, mark, memory or operation in flight changes. With its predicate true and every register ready, one whose condition holds and whose shared unit a stream of higher priority takes in this compute cycle does not issue: TILE_STALL cause UNIT counts one cycle (none of a halted stream) and nothing else changes. Where none takes it, or it waits for its condition, one that names a mark at 127 does not issue and counts under cause LIMIT. An ADD with its predicate true whose register A waits for a result counts under cause REG. -/
def Obligations.HeldInstructionsChangeNothing : Prop :=
  (
    ∀ (s : State) (t : Nat), t < 2304 → s.sameTick = false →
      (∀ e ∈ streamInsns, ∀ q, (s.enter t q).mayIssue t q = false → exec (e.2 t q) s = .next s) ∧
      (∀ e ∈ xInsns, (s.enter t .x).mayIssue t .x = false → exec (e.2 t) s = .next s) ∧
      (∀ e ∈ streamInsns, ∀ q w, (s.enter t q).Offers t q w → keyOf w ≠ e.1 → exec (e.2 t q) s = .next s) ∧
      (∀ e ∈ xInsns, ∀ w, (s.enter t .x).Offers t .x w → keyOf w ≠ e.1 → exec (e.2 t) s = .next s)) ∧
  (
    ∀ (s₀ : State) (t : Nat) (q : Strm) (w : Word), q ≠ .x →
      let s := s₀.enter t q
      let stall := fun (k : Nat) => if (s.tile t).halted q then s else s.countTile t (0x100 + 0x40 * Strm.code q + 8 * k) 1
      s.Offers t q w →
      (∀ e ∈ streamInsns, keyOf w = e.1 →
        (((s.tile t).seq q).predOk w = false →
          ∃ s', exec (e.2 t q) s₀ = .next s' ∧ s.Issued s' t q (s.nextPc t q) 0 ((s.tile t).seq q)) ∧
        (((s.tile t).seq q).predOk w = true → ((s.tile t).seq q).busy = [] →
          (s.waitMet t w = true → s.contended t q w = true → exec (e.2 t q) s₀ = .next (stall 0)) ∧
          ((s.waitMet t w && s.contended t q w) = false → bit w 51 = true → 127 ≤ ((s.tile t).seq q).mark (fld w 47 4) →
            exec (e.2 t q) s₀ = .next (stall 1)))) ∧
      (keyOf w = 0x100 → ((s.tile t).seq q).predOk w = true → fA w ∈ ((s.tile t).seq q).busy →
        exec (.add t q) s₀ = .next (stall 2)))

/-- For every instruction of every stream: where the stream may issue in its turn, stands inside its partition under no breakpoint, and the slot has a parity error, the command stops the job of the tile with primary cause IM_PARITY (0x03) at level tile, the program counter stays, and the tile is in state 8 or fenced. The slot's parity is its one parity bit. -/
def Obligations.InstructionParityStopsTheJob : Prop :=
  ∀ (s₀ : State) (t : Nat) (q : Strm), t < 2304 →
    let s := s₀.enter t q
    s.mayIssue t q = true → (s.tile t).pc q < 64 * ((s.tile t).part q).2 → s.dbg.bpen = false → (s.tile t).imBad.contains ((s.tile t).slot q) = true →
    s.job.img.isSome = true → t ∈ s.job.tiles →
    ∀ c, (∃ e ∈ streamInsns, c = e.2 t q) ∨ (q = .x ∧ ∃ e ∈ xInsns, c = e.2 t) →
      ∃ s', exec c s₀ = .next s' ∧ s'.job.js = 6 ∧ s'.job.prim.valid = true ∧ s'.job.prim.level = 0 ∧ s'.job.prim.unit = t ∧
        s'.job.prim.cause = 0x03 ∧ (s'.tile t).pc q = (s.tile t).pc q ∧ ((s'.tile t).st = 8 ∨ (s'.tile t).st = 9)

/-- For NOP, and in the same way for every instruction (they share the fetch): past the end of the partition the tile records IFETCH (0x02) with the program counter as detail; a legal place with an illegal word records ENCODING (0x01) with the slot; an enabled breakpoint at the slot of a stream that is not halted halts it and is a debug event of kind 1. In the tick in which the job stopped, an illegal word that the stream stands at in the tile as it stood then is recorded too: in the tile without a recorded fault as its fault with cause ENCODING, in the job as a further fault of the primary cause (log 47). What tileFault and debugEvent do is stated in their own obligations. -/
def Obligations.FetchFaultsAndBreakpoints : Prop :=
  ∀ (s₀ : State) (t : Nat) (q : Strm), t < 2304 → q ≠ .x →
    (let s := s₀.enter t q
    s.mayIssue t q = true →
    (64 * ((s.tile t).part q).2 ≤ (s.tile t).pc q →
      exec (.nop t q) s₀ = .next (s.tileFault t (Strm.code q) 0x02 ((s.tile t).pc q % 8192) ((s.tile t).seq q).last.toNat)) ∧
    ((s.tile t).pc q < 64 * ((s.tile t).part q).2 → s.dbg.bpen = false →
      (s.tile t).imBad.contains ((s.tile t).slot q) = false →
      legal q (Map.get 0 (s.tile t).im ((s.tile t).slot q)) = false →
      exec (.nop t q) s₀ = .next (s.tileFault t (Strm.code q) 0x01 0 ((s.tile t).slot q))) ∧
    ((s.tile t).pc q < 64 * ((s.tile t).part q).2 → s.dbg.bpen = true → (s.tile t).halted q = false →
      (∃ i < 4, bit (Map.get 0 (s.tile t).misc.bp (0xA00 + 0x20 * Strm.code q + 8 * i)) 63 = true ∧
        fld (Map.get 0 (s.tile t).misc.bp (0xA00 + 0x20 * Strm.code q + 8 * i)) 0 13 = (s.tile t).slot q) →
      exec (.nop t q) s₀ =
        .next ((s.modTile t fun x => x.haltBy q 0).debugEvent t 1 (Strm.code q) 0 0 ((s.tile t).slot q)))) ∧
    (s₀.sameTick = true → s₀.job.img.isSome = true → t ∈ s₀.job.tiles → s₀.job.prim.valid = true →
      bit (s₀.tile t).fault 63 = false →
      let s := (s₀.unstopped t).enter t q
      s.mayIssue t q = true → (s.tile t).pc q < 64 * ((s.tile t).part q).2 → s.dbg.bpen = false →
      (s.tile t).imBad.contains ((s.tile t).slot q) = false →
      legal q (Map.get 0 (s.tile t).im ((s.tile t).slot q)) = false →
      ∃ s', exec (.nop t q) s₀ = .next s' ∧ s'.job.js = 6 ∧ s'.job.prim.nsec = s₀.job.prim.nsec + 1 ∧
        bit (s'.tile t).fault 63 = true ∧ fld (s'.tile t).fault 48 8 = 0x01 ∧ fld (s'.tile t).fault 59 3 = Strm.code q)

/-- What a fault of a tile of a running job leaves: TILE_FAULT holds stream, cause, detail and slot of the tile's first fault, a later one only sets MULTI; the cluster, the region and the module note a fault below them; the job is stopped (JSTATE 6) with this cause as the primary one at the present time; every tile of the job is stopped or fenced, and no operation, toll request or stream step is left in flight in one of them. -/
def Obligations.TileFaultStopsTheJob : Prop :=
  ∀ (s : State) (t k cause detail pc : Nat), s.job.img.isSome = true → t ∈ s.job.tiles → s.job.js = 4 →
    let s' := s.tileFault t k cause detail pc
    (s'.tile t).fault = tileFaultWord (s.tile t).fault k cause detail pc ∧
    bit (s'.cluster (clusterOf t)).fault 61 = true ∧ bit (s'.region (regionOf t)).fault 61 = true ∧ bit s'.rel.fault 61 = true ∧
    s'.job.js = 6 ∧ s'.job.prim.cause = cause ∧ s'.job.prim.unit = t ∧ s'.job.prim.level = 0 ∧ s'.job.prim.detail = detail ∧
    s'.job.prim.time = s.now ∧
    (∀ u ∈ s.job.tiles, ((s'.tile u).st = 8 ∨ (s'.tile u).st = 9) ∧ (s'.tile u).io.arr = [] ∧ (s'.tile u).io.vec = [] ∧
      (s'.tile u).io.out = [] ∧ (s'.tile u).io.cs = none ∧ (s'.tile u).misc.stepping = 0) ∧
    (∀ u, (s'.tile u).im = (s.tile u).im ∧ (s'.tile u).cfg = (s.tile u).cfg)

/-- ADD, SUB, AND, OR, XOR, SHL, SHR, SAR, MUL, MIN and MAX, issuing, write their result to register D, computed modulo 2^64 from registers A and B (shifts by B[5:0]; MIN and MAX signed), move on by one slot, and change nothing else: no other register, predicate, mark, memory byte, special register or other tile. Register 0 reads as zero and keeps no write (sreg and setS). -/
def Obligations.ScalarArithmetic : Prop :=
  ∀ e ∈ ([(0x100, Instr.add, fun a b => a + b), (0x110, .sub, fun a b => a - b), (0x120, .and_, fun a b => a &&& b),
      (0x130, .or_, fun a b => a ||| b), (0x140, .xor, fun a b => a ^^^ b), (0x150, .shl, fun a b => a <<< (b.toNat % 64)),
      (0x160, .shr, fun a b => a >>> (b.toNat % 64)), (0x170, .sar, fun a b => a.sshiftRight (b.toNat % 64)),
      (0x180, .mul, fun a b => BitVec.ofNat 64 (a.toNat * b.toNat)),
      (0x190, .min_, fun a b => BitVec.ofInt 64 (min a.toInt b.toInt)), (0x1A0, .max_, fun a b => BitVec.ofInt 64 (max a.toInt b.toInt))] :
      List (Nat × (Nat → Strm → Instr) × (Word → Word → Word))),
    ∀ (s₀ : State) (t : Nat) (q : Strm) (w : Word), q ≠ .x → keyOf w = e.1 →
      let s := s₀.enter t q
      s.Issues t q w [fD w, fA w, fB w] →
      ∃ s', exec (e.2.1 t q) s₀ = .next s' ∧
        s.Issued s' t q (s.nextPc t q) 0
          (((s.tile t).seq q).setS (fD w) (e.2.2 (((s.tile t).seq q).sreg (fA w)) (((s.tile t).seq q).sreg (fB w))))

/-- ADDI, LI, LIH, MOVX (tile ID, superstep, epoch, NORM), ARD, AMOV and AADDI, issuing, write their one register with the value of R138 and R139, move on by one slot, and change nothing else. CMP, CMPI and PLOG, issuing, write predicate D (a write to P0 is discarded) with the condition of R140 or the function of R138, move on by one slot, and change nothing else. -/
def Obligations.ScalarMovesAndCompares : Prop :=
  (
    ∀ (s₀ : State) (t : Nat) (q : Strm) (w : Word), q ≠ .x →
      let s := s₀.enter t q
      let v := (s.tile t).seq q
      let imm := BitVec.signExtend 64 (w.setWidth 32)
      let done := fun (c : Instr) (v' : Seq) => ∃ s', exec c s₀ = .next s' ∧ s.Issued s' t q (s.nextPc t q) 0 v'
      (keyOf w = 0x1B0 → s.Issues t q w [fD w, fA w] → done (.addi t q) (v.setS (fD w) (v.sreg (fA w) + imm))) ∧
      (keyOf w = 0x1C0 → s.Issues t q w [fD w] → done (.li t q) (v.setS (fD w) imm)) ∧
      (keyOf w = 0x1D0 → s.Issues t q w [fD w] →
        done (.lih t q) (v.setS (fD w) ((w.setWidth 32 : BitVec 32) ++ ((v.sreg (fD w)).setWidth 32 : BitVec 32)))) ∧
      (keyOf w = 0x1E0 → s.Issues t q w [fD w] →
        (fld w 0 4 = 0 → done (.movx t q) (v.setS (fD w) (BitVec.ofNat 64 t))) ∧
        (fld w 0 4 = 1 → done (.movx t q) (v.setS (fD w) s.job.sstep)) ∧
        (fld w 0 4 = 2 → done (.movx t q) (v.setS (fD w) (BitVec.ofNat 64 s.job.epoch))) ∧
        (fld w 0 4 = 3 → done (.movx t q) (v.setS (fD w) (s.tile t).misc.norm))) ∧
      (keyOf w = 0x250 → s.Issues t q w [fD w] → done (.ard t q) (v.setS (fD w) (v.areg (fld w 37 3)))) ∧
      (keyOf w = 0x230 → s.Issues t q w [fA w] → done (.amov t q) (v.setA (fld w 42 3) (v.sreg (fA w)))) ∧
      (keyOf w = 0x240 → s.Issues t q w [] → done (.aaddi t q) (v.setA (fld w 42 3) (v.areg (fld w 37 3) + imm)))) ∧
  (
    ∀ (s₀ : State) (t : Nat) (q : Strm) (w : Word), q ≠ .x →
      let s := s₀.enter t q
      let v := (s.tile t).seq q
      let holds := fun (n : Nat) (a b : Word) => [a == b, a != b, a.slt b, a.sle b, a.ult b, a.ule b].getD n false
      let done := fun (c : Instr) (p : Bool) => ∃ s', exec c s₀ = .next s' ∧ s.Issued s' t q (s.nextPc t q) 0 (v.setP (fld w 42 3) p)
      (keyOf w = 0x200 → s.Issues t q w [fA w, fB w] → done (.cmp t q) (holds (fld w 28 4) (v.sreg (fA w)) (v.sreg (fB w)))) ∧
      (keyOf w = 0x210 → s.Issues t q w [fA w] →
        done (.cmpi t q) (holds (fld w 32 4) (v.sreg (fA w)) (BitVec.signExtend 64 (w.setWidth 32)))) ∧
      (keyOf w = 0x220 → s.Issues t q w [] →
        let a := v.preg (fld w 37 3)
        let b := v.preg (fld w 32 3)
        done (.plog t q) ([a && b, a || b, a != b, a && !b].getD (fld w 28 4) false)))

/-- NOP moves on by one slot. BR and CALL go to the target slot, RET to S31[12:0], BRI to register A's [12:0]; each counts two bubble cycles (none of a halted stream that is stepped); CALL also writes S31 with the slot after it. Nothing else changes. MWAIT with every named mark at zero, and PWAIT with no named tag in flight for the stream, issue as no-ops. Otherwise they do not issue: one cycle is counted under cause MWAIT or PWAIT, the sequencer stays, and a PWAIT notes the transfers it waits for as late, each once. -/
def Obligations.ControlAndWaits : Prop :=
  (
    ∀ (s₀ : State) (t : Nat) (q : Strm) (w : Word), q ≠ .x →
      let s := s₀.enter t q
      let v := (s.tile t).seq q
      let b := if (s.tile t).halted q then 0 else 2
      let done := fun (c : Instr) (pc : BitVec 13) (n : Nat) (v' : Seq) => ∃ s', exec c s₀ = .next s' ∧ s.Issued s' t q pc n v'
      (keyOf w = 0x000 → s.Issues t q w [] → done (.nop t q) (s.nextPc t q) 0 v) ∧
      (keyOf w = 0x010 → s.Issues t q w [] → done (.br t q) (w.setWidth 13) b v) ∧
      (keyOf w = 0x020 → s.Issues t q w [31] →
        done (.call t q) (w.setWidth 13) b (v.setS 31 (BitVec.ofNat 64 ((s.tile t).pc q + 1)))) ∧
      (keyOf w = 0x030 → s.Issues t q w [31] → done (.ret t q) ((v.sreg 31).setWidth 13) b v) ∧
      (keyOf w = 0x040 → s.Issues t q w [fA w] → done (.bri t q) ((v.sreg (fA w)).setWidth 13) b v)) ∧
  (
    ∀ (s₀ : State) (t : Nat) (q : Strm) (w : Word), q ≠ .x →
      let s := s₀.enter t q
      let v := (s.tile t).seq q
      let m := v.sreg (fA w)
      let stall := fun (s : State) (k : Nat) => if (s.tile t).halted q then s else s.countTile t (0x100 + 0x40 * Strm.code q + 8 * k) 1
      (keyOf w = 0x050 → s.Issues t q w [] →
        ((∀ n < 16, bit w n = true → v.mark n = 0) →
          ∃ s', exec (.mwait t q) s₀ = .next s' ∧ s.Issued s' t q (s.nextPc t q) 0 v) ∧
        ((∃ n < 16, bit w n = true ∧ v.mark n ≠ 0) → exec (.mwait t q) s₀ = .next (stall s 3))) ∧
      (keyOf w = 0x060 → s.Issues t q w [fA w] →
        ((∀ g ∈ (s.tile t).io.tags, g.q = q → bit m g.tag = false) →
          ∃ s', exec (.pwait t q) s₀ = .next s' ∧ s.Issued s' t q (s.nextPc t q) 0 v) ∧
        ((∃ g ∈ (s.tile t).io.tags, g.q = q ∧ bit m g.tag = true) →
          exec (.pwait t q) s₀ = .next (stall (s.modTile t fun y => y.noteLate q m) 4))))

/-- BRK, issuing, with breakpoints disabled leaves what a NOP leaves. With them enabled its stream is halted at stream scope as a Sextant halt leaves it, with the program counter past the BRK, its registers, memories and operations kept and the other streams running; and the debug event of kind 3 that carries CODE is recorded in TILE_DBG_STAT unless one is held there that is not of a higher kind and of the same compute cycle. -/
def Obligations.BrkHaltsItsStream : Prop :=
  ∀ (s₀ : State) (t : Nat) (q : Strm) (w : Word), q ≠ .x → keyOf w = 0x080 →
    let s := s₀.enter t q
    s.Issues t q w [] →
    (s.dbg.bpen = false → ∃ s', exec (.brk t q) s₀ = .next s' ∧ s.Issued s' t q (s.nextPc t q) 0 ((s.tile t).seq q)) ∧
    (s.dbg.bpen = true → ∃ s', exec (.brk t q) s₀ = .next s' ∧
      (s'.tile t).seq q = { (s.tile t).seq q with pc := s.nextPc t q, last := BitVec.ofNat 13 ((s.tile t).slot q), halted := true } ∧
      (∀ r, r ≠ q → (s'.tile t).seq r = (s.tile t).seq r) ∧ (s'.tile t).sq.x = (s.tile t).sq.x ∧
      (s'.tile t).sp = (s.tile t).sp ∧ (s'.tile t).am = (s.tile t).am ∧ (s'.tile t).io = (s.tile t).io ∧
      (∀ u, u ≠ t → s'.tile u = s.tile u) ∧ s'.job = s.job ∧
      let y := (s.tile t).misc
      let kept := bit y.dbg 63 && !(decide (y.dbgCyc = s.cycle) && decide (3 < fld y.dbg 60 3))
      (kept = true → (s'.tile t).misc.dbg = y.dbg) ∧
      (kept = false → bit (s'.tile t).misc.dbg 63 = true ∧ fld (s'.tile t).misc.dbg 60 3 = 3 ∧
        fld (s'.tile t).misc.dbg 56 3 = Strm.code q ∧ fld (s'.tile t).misc.dbg 40 8 = fld w 0 8))

/-- SYNC with an array, vector or outbound operation of its own stream in flight does not issue: one cycle is counted under cause SYNC. With none it issues: the stream stands after its SYNC, registers and marks kept. The tile arrives (state 4) exactly when F, B and U all stand after theirs; otherwise its state, and every other tile, stays. -/
def Obligations.SyncEndsTheComputePhase : Prop :=
  ∀ (s₀ : State) (t : Nat) (q : Strm) (w : Word), q ≠ .x → keyOf w = 0x070 →
    let s := s₀.enter t q
    s.Issues t q w [] →
    ((∃ o ∈ (s.tile t).io.arr ++ (s.tile t).io.vec ++ (s.tile t).io.out, o.q = q) →
      exec (.sync t q) s₀ = .next (if (s.tile t).halted q then s else s.countTile t (0x130 + 0x40 * Strm.code q) 1)) ∧
    ((∀ o ∈ (s.tile t).io.arr ++ (s.tile t).io.vec ++ (s.tile t).io.out, o.q ≠ q) →
      ∃ s', exec (.sync t q) s₀ = .next s' ∧
        (s'.tile t).seq q = { (s.tile t).seq q with
          pc := s.nextPc t q, last := BitVec.ofNat 13 ((s.tile t).slot q), sync := true } ∧
        (∀ r, r ≠ q → (s'.tile t).seq r = (s.tile t).seq r) ∧
        (s'.tile t).sp = (s.tile t).sp ∧ (s'.tile t).am = (s.tile t).am ∧ (s'.tile t).io = (s.tile t).io ∧
        ((s'.tile t).st = if [Strm.f, .b, .u].all fun r => r == q || (s.tile t).synced r then 4 else 3) ∧
        (q ≠ .u → (s'.tile t).ctab = (s.tile t).ctab) ∧
        ∀ u, u ≠ t → s'.tile u = s.tile u)

/-- LDS with its row in range issues: its load joins the operations of the scalar port, register D waits for the value, and nothing else changes but the place and the mark. STS with its row in range, in a quiet tile, issues likewise with the row as it stands captured. A row out of range raises ROW_RANGE (0x04) with the row as detail. SCALAR_PORT_COMPLETE with an LDS oldest, in a quiet tile, outside the tick of a stop: register D holds the eight bytes of the row at OFF, waits no more, and the scratchpad is as before. With an STS oldest: the scratchpad holds the captured row with its eight bytes replaced by the captured register, every other byte is as before, and the mark it names falls by one. Both leave the port. -/
def Obligations.ScalarPort : Prop :=
  (
    ∀ (s₀ : State) (t : Nat) (q : Strm) (w : Word), q ≠ .x →
      let s := s₀.enter t q
      let v := (s.tile t).seq q
      let r := (v.areg (fld w 37 3) + BitVec.signExtend 64 ((w >>> 16).setWidth 16)).toNat
      (keyOf w = 0x300 → s.Issues t q w [fD w] → s.soundChk 0 = false →
        (r < 768 → ∃ s', exec (.lds t q) s₀ = .next s' ∧
          s.Taken s' t q w (if fD w = 0 then v else { v with busy := fD w :: v.busy })
            (fun io => { io with sca := io.sca ++ [s.opOf t q w [BitVec.ofNat 64 r] []] })
            [{ id := (s.tile t).io.nextId, eng := 3, q := Strm.code q, lo := r, n := 1, wr := false }]) ∧
        (768 ≤ r → exec (.lds t q) s₀ =
          .next (s.tileFault t (Strm.code q) 0x04 (if 2 ^ 24 ≤ r then 0xFFFFFF else r) ((s.tile t).slot q)))) ∧
      (keyOf w = 0x310 → s.Issues t q w [fB w] → s.soundChk 0 = false →
        (r < 768 → (s.tile t).io.acc = [] → (s.tile t).spBad = [] → s.dbg.bpen = false →
          ∃ s', exec (.sts t q) s₀ = .next s' ∧ (s'.tile t).sp = (s.tile t).sp ∧
            (s'.tile t).seq q = { (if bit w 51 then v.addMark (fld w 47 4) else v) with
              pc := s.nextPc t q, last := BitVec.ofNat 13 ((s.tile t).slot q) } ∧
            (∃ o, (s'.tile t).io.sca = (s.tile t).io.sca ++ [o] ∧ o.w = w ∧ o.q = q ∧ o.dat = (s.tile t).rows r 1 ∧
              o.v = [BitVec.ofNat 64 r, v.sreg (fB w)]) ∧
            (∀ u, u ≠ t → s'.tile u = s.tile u) ∧ s'.job = s.job ∧ s'.clusters = s.clusters) ∧
        (768 ≤ r → exec (.sts t q) s₀ =
          .next (s.tileFault t (Strm.code q) 0x04 (if 2 ^ 24 ≤ r then 0xFFFFFF else r) ((s.tile t).slot q))))) ∧
  (
    ∀ (s : State) (t : Nat) (o : Op) (rest : List Op), t < 2304 → o.q ≠ .x → s.sameTick = false → (s.tile t).io.sca = o :: rest → s.Quiet t o.id →
      let r := (o.v.headD 0).toNat
      let at_ := 8 * fld o.w 0 6
      ∃ s', exec (.scalarPortComplete t) s = .next s' ∧ (s'.tile t).io.sca = rest ∧
        (∀ u, u ≠ t → s'.tile u = s.tile u) ∧ (s'.tile t).am = (s.tile t).am ∧ s'.job = s.job ∧
        (∀ q, q ≠ o.q → (s'.tile t).seq q = (s.tile t).seq q) ∧
        (fld o.w 56 8 = 0x30 →
          (s'.tile t).sp = (s.tile t).sp ∧
          (s'.tile t).seq o.q = { ((s.tile t).seq o.q).setS (fD o.w) (wordAt ((s.tile t).rows r 1) at_) with
            busy := ((s.tile t).seq o.q).busy.filter fun i => i != fD o.w }) ∧
        (fld o.w 56 8 = 0x31 → o.dat.length = 512 →
          (s.tile t).Wrote (s'.tile t) r (o.dat.take at_ ++ wordBytes (o.v.getD 1 0) ++ o.dat.drop (at_ + 8)) ∧
          (s'.tile t).seq o.q = if bit o.w 51 then ((s.tile t).seq o.q).subMark (fld o.w 47 4) else (s.tile t).seq o.q))

/-- VADD, VMUL, VFMA, VMIN, VMAX, VSFMA, VEXP2, VLOG2, VRSQRT, VRECIP, VCVT, VRSUM, VRMAX and VCPY, issuing with fewer than 16 operations in the vector unit: with every operand run in range the operation joins the unit with its registers captured, a sum or maximum keeps register D waiting, and nothing else changes. With a run out of range the first such run, in body-field order, raises ROW_RANGE. With 16 operations it stalls with cause LIMIT. -/
def Obligations.VectorIssue : Prop :=
  ∀ e ∈ ([(0x400, Instr.vadd), (0x410, .vmul), (0x420, .vfma), (0x430, .vmin), (0x440, .vmax), (0x450, .vsfma), (0x460, .vexp2),
      (0x470, .vlog2), (0x480, .vrsqrt), (0x490, .vrecip), (0x4A0, .vcvt), (0x4B0, .vrsum), (0x4C0, .vrmax), (0x4D0, .vcpy)] :
      List (Nat × (Nat → Strm → Instr))),
    ∀ (s₀ : State) (t : Nat) (q : Strm) (w : Word), q ≠ .x → keyOf w = e.1 →
      let s := s₀.enter t q
      s.Issues t q w (if e.1 = 0x450 then [fC w] else if e.1 = 0x4B0 ∨ e.1 = 0x4C0 then [fD w] else []) →
      let v := (s.tile t).seq q
      let regs := [v.areg (fld w 42 3), v.areg (fld w 37 3), v.areg (fld w 32 3), if e.1 = 0x450 then v.sreg (fC w) else v.areg (fld w 27 3)]
      let runs := vecRuns w regs
      (16 ≤ (s.tile t).io.vec.length →
        exec (e.2 t q) s₀ = .next (if (s.tile t).halted q then s else s.countTile t (0x108 + 0x40 * Strm.code q) 1)) ∧
      ((s.tile t).io.vec.length < 16 → (∀ r ∈ runs, r.lo + r.n ≤ if r.am then 1024 else 768) → s.soundChk 0 = false →
        ∃ s', exec (e.2 t q) s₀ = .next s' ∧
          s.Taken s' t q w (if (e.1 = 0x4B0 ∨ e.1 = 0x4C0) ∧ fD w ≠ 0 then { v with busy := fD w :: v.busy } else v)
            (fun io => { io with vec := io.vec ++ [s.opOf t q w regs []] })
            (runAccs (s.tile t).io.nextId 2 (Strm.code q) runs)) ∧
      ((s.tile t).io.vec.length < 16 → ∀ d, (runs.map Run.check).findSome? id = some d →
        exec (e.2 t q) s₀ = .next (s.tileFault t (Strm.code q) 0x04 d ((s.tile t).slot q)))

/-- VECTOR_OP_COMPLETE with an arithmetic, function or copy operation of N rows oldest, in a quiet tile: lane l of row i of the destination run holds the operation's value on the lanes of its operands (accumulator rows with SA set), the events of those lanes are counted, every other scratchpad byte, every register, the accumulator memory and the array operations are as before, and the operation ends. VECTOR_OP_COMPLETE with VCVT oldest: the destination rows hold the converted elements (an MX source with its scales) and the events are counted. With VCVT to an MX format the element rows and the scale rows are both written. With VRSUM or VRMAX: register D holds the tree sum or the maximum and waits no more, and the scratchpad is as before. Sum events: the model counts those of the last addition (log 23). -/
def Obligations.VectorOpsComplete : Prop :=
  (
    ∀ (s : State) (t : Nat) (o : Op) (rest : List Op), s.VecHead t o rest →
      let op := fld o.w 56 8
      let n := fN o.w
      let x := s.tile t
      (0x40 ≤ op ∧ op ≤ 0x49 ∨ op = 0x4D) →
      let b := if op ≤ 0x45 then unpackRows 0 n (x.rows (o.v.getD 2 0).toNat n) else List.replicate (128 * n) 0
      let c := if op = 0x45 then List.replicate (128 * n) ((o.v.getD 3 0).toNat % 2 ^ 32)
        else if op = 0x42 then unpackRows 0 n (x.rows (o.v.getD 3 0).toNat n) else List.replicate (128 * n) 0
      let lanes := ((x.vecOperand o).zip (b.zip c)).map fun p => vecLane op p.1 p.2.1 p.2.2
      ∃ s', exec (.vectorOpComplete t) s = .next s' ∧ s.VecEnds s' t o rest (x.seq o.q) ∧
        x.Wrote (s'.tile t) (o.v.getD 0 0).toNat (packRows 0 n (lanes.map (·.1))) ∧
        x.CountedEvs (s'.tile t) (lanes.filterMap (·.2))) ∧
  (
    ∀ (s : State) (t : Nat) (o : Op) (rest : List Op), s.VecHead t o rest → o.q ≠ .x →
      let op := fld o.w 56 8
      let n := fN o.w
      let x := s.tile t
      let a := x.vecOperand o
      let d := (o.v.getD 0 0).toNat
      let put := fun (w : Nat) => { (x.seq o.q).setS (fD o.w) (BitVec.ofNat 64 w) with busy := (x.seq o.q).busy.filter fun i => i != fD o.w }
      (op = 0x4A → isMx (vFo o.w) = false →
        let r := cvt (vFi o.w) (vFo o.w) (bit o.w 9) a
          (if isMx (vFi o.w) then (x.rows (o.v.getD 2 0).toNat (scaleRows n)).take (4 * n) else [])
        ∃ s', exec (.vectorOpComplete t) s = .next s' ∧ s.VecEnds s' t o rest (x.seq o.q) ∧
          x.Wrote (s'.tile t) d (packRows (vFo o.w) (rowsFor (vFo o.w) (128 * n)) r.2.1) ∧ x.CountedEvs (s'.tile t) r.2.2) ∧
      (op = 0x4A → isMx (vFi o.w) = false → isMx (vFo o.w) = true →
        let r := cvt (vFi o.w) (vFo o.w) (bit o.w 9) a []
        ∃ s' y, exec (.vectorOpComplete t) s = .next s' ∧ s.VecEnds s' t o rest (x.seq o.q) ∧
          x.Wrote y d (packRows (vFo o.w) (rowsFor (vFo o.w) (128 * n)) r.2.1) ∧
          y.Wrote (s'.tile t) (o.v.getD 2 0).toNat (padTo (512 * scaleRows n) r.1) ∧ x.CountedEvs (s'.tile t) r.2.2) ∧
      (op = 0x4B →
        let r := vecSum (chunks 128 n a)
        ∃ s', exec (.vectorOpComplete t) s = .next s' ∧ s.VecEnds s' t o rest (put r.1) ∧ (s'.tile t).sp = x.sp ∧
          x.CountedEvs (s'.tile t) r.2.toList) ∧
      (op = 0x4C →
        ∃ s', exec (.vectorOpComplete t) s = .next s' ∧ s.VecEnds s' t o rest (put (vecMax (chunks 128 n a))) ∧
          (s'.tile t).sp = x.sp ∧ x.CountedEvs (s'.tile t) []))

/-- ALD, AMAC, APRE in its three modes and ADRN, issuing with fewer than 8 operations in the queue: with every run in range the operation joins the queue, not started, with its registers captured, and nothing else changes. With a run out of range the first in body-field order raises ROW_RANGE. With 8 operations it stalls with cause LIMIT. -/
def Obligations.ArrayIssue : Prop :=
  ∀ e ∈ ([(0x500, Instr.ald), (0x510, .amac), (0x520, .apreZero), (0x521, .apreBias), (0x522, .apreResid), (0x530, .adrn)] :
      List (Nat × (Nat → Strm → Instr))),
    ∀ (s₀ : State) (t : Nat) (q : Strm) (w : Word), q ≠ .x → keyOf w = e.1 →
      let s := s₀.enter t q
      s.Issues t q w [] →
      let v := (s.tile t).seq q
      let o := s.opOf t q w [v.areg (fld w 42 3), v.areg (fld w 37 3), v.areg (fld w 32 3)] []
      let runs := arrRuns w o.v
      (8 ≤ (s.tile t).io.arr.length →
        exec (e.2 t q) s₀ = .next (if (s.tile t).halted q then s else s.countTile t (0x108 + 0x40 * Strm.code q) 1)) ∧
      ((s.tile t).io.arr.length < 8 → (∀ r ∈ runs, r.lo + r.n ≤ if r.am then 1024 else 768) → s.soundChk 0 = false →
        ∃ s', exec (e.2 t q) s₀ = .next s' ∧
          s.Taken s' t q w v (fun io => { io with arr := io.arr ++ [o] }) (arrAccs o)) ∧
      ((s.tile t).io.arr.length < 8 → ∀ d, (runs.map Run.check).findSome? id = some d →
        exec (e.2 t q) s₀ = .next (s.tileFault t (Strm.code q) 0x04 d ((s.tile t).slot q)))

/-- TOLL_GRANT with an operation at the head of the array queue that nothing earlier holds back, outside the tick of a stop; the request belongs to the present compute cycle, or to the next one where the tile has already made one in it. A weight above the cluster's capacity raises TOLL_EXCESS. Units that do not suffice beside those held, those released in this cycle and those asked for earlier in the cycle's order: one waiting cycle is counted at the tile, and at the cluster unless this cycle already is, and the operation stays. Else it starts in the next cycle, and the cluster and the tile hold its weight. With sounding off; no other tile, register or memory changes. With no such operation nothing changes. -/
def Obligations.TollAdmission : Prop :=
  ∀ (s₀ : State) (t : Nat), t < 2304 → s₀.sameTick = false →
    let s := s₀.tollRequest t
    ((s.tile t).arrHead s.cycle = none → exec (.tollGrant t) s₀ = .next s₀) ∧
    ∀ o, (s.tile t).arrHead s.cycle = some o → s.soundChk 3 = false →
      let c := s.cluster (clusterOf t)
      let w := tollW o.w
      let need := c.held + (if c.freedAt = s.cycle + 1 then c.freed else 0) + s.tollBefore t + w
      (c.cap < w → exec (.tollGrant t) s₀ = .next (s.tileFault t (Strm.code o.q) 0x06 (w + c.cap * 256) o.pc)) ∧
      (w ≤ c.cap → c.cap < need → ∃ s', exec (.tollGrant t) s₀ = .next s' ∧
        Map.get 0 (s'.tile t).ctr 0x200 = Map.get 0 (s.tile t).ctr 0x200 + 1 ∧
        Map.get 0 (s'.cluster (clusterOf t)).ctr 0x48 = Map.get 0 c.ctr 0x48 + (if c.tollAt = s.cycle + 1 then 0 else 1) ∧
        (s'.cluster (clusterOf t)).tollAt = s.cycle + 1 ∧
        (s'.cluster (clusterOf t)).held = c.held ∧ (s'.tile t).io.arr.map (·.go) = (s.tile t).io.arr.map (·.go) ∧
        (s'.tile t).sq = (s.tile t).sq ∧ (s'.tile t).sp = (s.tile t).sp ∧ ∀ u, u ≠ t → s'.tile u = s.tile u) ∧
      (need ≤ c.cap → ∃ s', exec (.tollGrant t) s₀ = .next s' ∧
        (s'.cluster (clusterOf t)).held = c.held + w ∧ (s'.cluster (clusterOf t)).heldMax = max c.heldMax (c.held + w) ∧
        (s'.tile t).io.toll = (s.tile t).io.toll + w ∧
        (s'.tile t).io.arr = (s.tile t).io.arr.map (fun p => if p.id = o.id then { p with go := true, at_ := s.cycle + 1 } else p) ∧
        (s'.tile t).sq = (s.tile t).sq ∧ (s'.tile t).sp = (s.tile t).sp ∧ (s'.tile t).am = (s.tile t).am ∧
        (∀ u, u ≠ t → s'.tile u = s.tile u) ∧ ∀ k, k ≠ clusterOf t → s'.cluster k = s.cluster k)

/-- ARRAY_OP_COMPLETE for a started operation that no earlier one holds back, in a quiet tile, outside the tick of a stop. ALD: the named stationary buffer holds the block, transposed as its TR bit says, with its scales. AMAC with the buffer of its format: the accumulator rows hold the accumulation. APRE: the rows hold zeros, one half-row repeated, or the vectors' bits. Each frees its toll units, leaves the queue and lowers its mark; the scratchpad, and every other accumulator row, is as before. ARRAY_OP_COMPLETE for a started ADRN that no earlier operation holds back, in a quiet tile, outside the tick of a stop: the destination rows hold the converted lanes, with an MX format the scale row its scales, and no other scratchpad byte changes; the drained accumulator rows are zero with CLR and as before without; TILE_SSQ has each row's squares added with SQ and stays without; with SEAL every aligned group of eight rows that the drain fills has its CRC-32C as a valid seal; the events are counted and the operation ends. -/
def Obligations.ArrayOpsComplete : Prop :=
  (
    ∀ (s : State) (t i : Nat) (o : Op), t < 2304 → s.sameTick = false → (s.tile t).io.arr[i]? = some o → o.go = true →
      ((s.tile t).io.arr.take i).any (fun e => arrBefore e o) = false → s.Quiet t o.id →
      let x := s.tile t
      let lo := fun k => (o.v.getD k 0).toNat
      let f := arrF o.w
      let n := arrN o.w
      let ends := fun (s' : State) => s.ArrEnds s' t o ∧ (s'.tile t).sp = x.sp
      (fld o.w 56 8 = 0x50 → ∃ s', exec (.arrayOpComplete t i) s = .next s' ∧ ends s' ∧ (s'.tile t).am = x.am ∧
        ((s'.tile t).sbuf (fld o.w 27 1)).fmt = f ∧ ((s'.tile t).sbuf (fld o.w 27 1)).bad = [] ∧
        (∀ k < 64, ∀ j < 64, Map.get 0 ((s'.tile t).sbuf (fld o.w 27 1)).el (64 * k + j) =
          BitVec.ofNat 32 ((unpackVecs f 64 (x.rows (lo 1) (vecRows f 64))).getD (if bit o.w 26 then 64 * k + j else 64 * j + k) 0)) ∧
        (isMx f = true → ∀ k < 128, Map.get 0 ((s'.tile t).sbuf (fld o.w 27 1)).sc k =
          (x.rows (lo 2) (scaleRun (fld o.w 15 9) 128)).getD (fld o.w 15 9 + k) 0) ∧
        (s'.tile t).sbuf (1 - fld o.w 27 1) = x.sbuf (1 - fld o.w 27 1)) ∧
      (fld o.w 56 8 = 0x51 → (x.sbuf (fld o.w 23 1)).bad = [] → (x.sbuf (fld o.w 23 1)).fmt = fld o.w 24 4 →
        let sc := if isMx f then (x.rows (lo 2) (scaleRun (fld o.w 1 9) (2 * n))).drop (fld o.w 1 9) else []
        let old := if bit o.w 22 then List.replicate (64 * n) 0 else x.amRows (lo 0) n
        let r := amacRows f (fld o.w 24 4) (bit o.w 22) n (unpackVecs f n (x.rows (lo 1) (vecRows f n))) sc (x.sbuf (fld o.w 23 1)) old
        ∃ s', exec (.arrayOpComplete t i) s = .next s' ∧ ends s' ∧ x.WroteAm (s'.tile t) (lo 0) r.1 ∧
          Map.get 0 (s'.tile t).ctr 0x310 = Map.get 0 x.ctr 0x310 + BitVec.ofNat 64 r.2) ∧
      (fld o.w 56 8 = 0x52 → fld o.w 30 2 ≤ 2 → ∃ s', exec (.arrayOpComplete t i) s = .next s' ∧ ends s' ∧
        x.WroteAm (s'.tile t) (lo 0) (
          if fld o.w 30 2 = 0 then List.replicate (64 * n) 0
          else if fld o.w 30 2 = 1 then
            (List.replicate n ((codesOf 32 64 (leNat (if bit o.w 29 then (x.rows (lo 1) 1).drop 256 else (x.rows (lo 1) 1).take 256))).map
              (BitVec.ofNat 32))).flatten
          else (codesOf 32 (64 * n) (leNat (x.rows (lo 1) (vecRows 0 n)))).map (BitVec.ofNat 32)))) ∧
  (
    ∀ (s : State) (t i : Nat) (o : Op), t < 2304 → s.sameTick = false → (s.tile t).io.arr[i]? = some o → o.go = true →
      ((s.tile t).io.arr.take i).any (fun e => arrBefore e o) = false → s.Quiet t o.id →
      fld o.w 56 8 = 0x53 →
      let x := s.tile t
      let f := arrF o.w
      let n := arrN o.w
      let d := (o.v.getD 0 0).toNat
      let m := (o.v.getD 1 0).toNat
      let out := (chunks 64 n (x.amRows m n)).map (drainRow o.w)
      let rows := packRows f (vecRows f n) (out.flatMap fun r => r.2.1)
      ∃ s' y, exec (.arrayOpComplete t i) s = .next s' ∧ s.ArrEnds s' t o ∧ x.Wrote y d rows ∧
        (isMx f = true → y.Wrote (s'.tile t) (o.v.getD 2 0).toNat (padTo 512 (out.flatMap fun r => r.1))) ∧
        (isMx f = false → (s'.tile t).sp = y.sp) ∧
        (bit o.w 25 = true → x.WroteAm (s'.tile t) m (List.replicate (64 * n) 0)) ∧
        (bit o.w 25 = false → (s'.tile t).am = x.am) ∧
        (s'.tile t).misc.ssq = (if bit o.w 24 then out.foldl (fun a r => addSsq a (rowSquares f r.1 r.2.1)) x.misc.ssq else x.misc.ssq) ∧
        (bit o.w 23 = true → ∀ g, g < 96 → d ≤ 8 * g → 8 * g + 8 ≤ d + vecRows f n →
          Map.get false (s'.tile t).misc.sealV g = true ∧
          Map.get 0 (s'.tile t).misc.sealE g = crc32c ((rows.drop (512 * (8 * g - d))).take 4096)) ∧
        x.CountedEvs (s'.tile t) (out.flatMap fun r => r.2.2))

/-- CTW and CTR, issuing with room and their row in range, join the vector unit and change nothing else; a row out of range raises ROW_RANGE. UPD joins it with its registers captured; behind other operations it waits; as the oldest it starts at once: with a coefficient row that passes the checks of R294 and operand runs in range it is started and keeps the row it read, with a run out of range it raises ROW_RANGE, with a row that fails the checks ENCODING with sub-code 0x10. With 16 operations each stalls with cause LIMIT. -/
def Obligations.UpdateIssue : Prop :=
  ∀ (s₀ : State) (t : Nat) (q : Strm) (w : Word), q ≠ .x →
    let s := s₀.enter t q
    s.soundChk 0 = false →
    let x := s.tile t
    let v := x.seq q
    let full := fun (c : Instr) => 16 ≤ x.io.vec.length →
      exec c s₀ = .next (if x.halted q then s else s.countTile t (0x108 + 0x40 * Strm.code q) 1)
    let joins := fun (o : Op) (io : TileIo) => { io with vec := io.vec ++ [o] }
    (∀ e ∈ ([(0x810, Instr.ctw, false), (0x820, .ctr, true)] : List (Nat × (Nat → Strm → Instr) × Bool)),
      keyOf w = e.1 → s.Issues t q w [] → full (e.2.1 t q) ∧
      (x.io.vec.length < 16 → (v.areg (fld w 38 3)).toNat < 768 →
        ∃ s', exec (e.2.1 t q) s₀ = .next s' ∧
          s.Taken s' t q w v (joins (s.opOf t q w [v.areg (fld w 38 3)] []))
            [{ id := x.io.nextId, eng := 2, q := Strm.code q, lo := (v.areg (fld w 38 3)).toNat, n := 1, wr := e.2.2 }]) ∧
      (x.io.vec.length < 16 → ∀ d, spRun (v.areg (fld w 38 3)).toNat 1 = some d →
        exec (e.2.1 t q) s₀ = .next (s.tileFault t (Strm.code q) 0x04 d (x.slot q)))) ∧
    (keyOf w = 0x800 → s.Issues t q w (if bit w 15 then [fld w 21 5, fld w 16 5] else []) →
      let o := s.opOf t q w ([38, 35, 32, 29, 26].map (fun p => v.areg (fld w p 3)) ++ [v.sreg (fld w 21 5), v.sreg (fld w 16 5)]) []
      let r := fld w 41 6
      let k := x.coef r
      let runs := (updRuns o.v k).map (updRun w)
      let accs := if coefOk k then runAccs o.id 2 (Strm.code q) runs else []
      full (.upd t q) ∧
      (x.io.vec.length < 16 → x.io.vec ≠ [] → (∀ p ∈ x.io.vec, fld p.w 56 8 ≠ 0x80 ∨ p.go = true) →
        ∃ s', exec (.upd t q) s₀ = .next s' ∧ s.Taken s' t q w v (joins o) accs) ∧
      (x.io.vec = [] → x.badCoef r = none → coefOk k = true → (∀ k ∈ runs, k.lo + k.n ≤ 768) →
        ∃ s', exec (.upd t q) s₀ = .next s' ∧ s.Taken s' t q w v (joins { o with go := true, v := o.v ++ k }) accs) ∧
      (x.io.vec = [] → x.badCoef r = none → coefOk k = true → ∀ d, (runs.map Run.check).findSome? id = some d →
        ∃ s', s.Taken s' t q w v (joins o) accs ∧ exec (.upd t q) s₀ = .next (s'.tileFault t (Strm.code q) 0x04 d (x.slot q))) ∧
      (x.io.vec = [] → x.badCoef r = none → coefOk k = false →
        ∃ s', s.Taken s' t q w v (joins o) [] ∧
          exec (.upd t q) s₀ = .next (s'.tileFault t (Strm.code q) 0x01 (0x10 * 2 ^ 24 + r) (x.slot q))))

/-- VECTOR_OP_COMPLETE with a started UPD oldest, whose runs share no row, in a quiet tile: the weight, the states and the narrow copy that its row uses hold the recurrence's values on the old ones under the row read at its start, each rounded to its format with its bias, word 7 of the row holds the merged statistics, the events, N blocks and a clip below 1 are counted, and nothing else in the scratchpad or the table changes. With CTW oldest the row holds 64 bytes of the scratchpad; with CTR the scratchpad's row holds the coefficient row's 64 bytes at its place. -/
def Obligations.UpdateComplete : Prop :=
  ∀ (s : State) (t : Nat) (o : Op) (rest : List Op), s.VecHead t o rest →
    let x := s.tile t
    let r := fld o.w 41 6
    let k := updRow o
    let l := updRuns o.v k
    let a := (o.v.headD 0).toNat
    let ends := fun (s' : State) => exec (.vectorOpComplete t) s = .next s' ∧ s.VecEnds s' t o rest (x.seq o.q)
    (fld o.w 56 8 = 0x80 → o.go = true → (∀ i, updShared o.w l i = []) →
      let w5 := k.getD 5 0
      let u := updCoef o.w o.v k x.misc.norm
      let sm := sextNat 7 (fld w5 0 7)
      let sv := sextNat 7 (fld w5 16 7)
      let res := (((x.updVals o l 0 0).zip (x.updVals o l 1 sm)).zip ((x.updVals o l 2 sv).zip (x.updVals o l 3 0))).map
        fun e => updLane (cMode k) u e.1.1 e.1.2 e.2.1 e.2.2
      let ovm := bit (k.getD 6 0) 6
      let cw := res.map fun e => updOut (cFw k) ovm 0 e.1
      let cm := res.map fun e => updOut (cFm k) ovm (sm + deltaVal (fld w5 8 2)) e.2.1
      let cv := res.map fun e => updOut (cFv k) ovm (sv + deltaVal (fld w5 24 2)) e.2.2
      let cn := res.map fun e => narrow (cFn k) (bit (k.getD 6 0) 8) e.1
      let useM := !cNom k
      let useV := decide (cMode k = 0)
      ∃ s' y1 y2 y3, ends s' ∧ x.WroteUpd y1 o l 0 (cw.map (·.1)) ∧ y1.WroteUpd y2 o l 1 (cm.map (·.1)) ∧
        y2.WroteUpd y3 o l 2 (cv.map (·.1)) ∧ y3.WroteUpd (s'.tile t) o l 4 (cn.map (·.1)) ∧
        Map.get 0 (s'.tile t).ctab (8 * r + 7) = mergeStats (Map.get 0 x.ctab (8 * r + 7))
          (if useM ∧ cFm k ≠ 0 then some (updStats (cFm k) (cm.map (·.1))) else none)
          (if useV ∧ cFv k ≠ 0 then some (updStats (cFv k) (cv.map (·.1))) else none) ∧
        (∀ j, j ≠ 8 * r + 7 → Map.get 0 (s'.tile t).ctab j = Map.get 0 x.ctab j) ∧
        x.CountedEvs (s'.tile t) (cw.filterMap (·.2) ++ (if useM then cm.filterMap (·.2) else []) ++
          (if useV then cv.filterMap (·.2) else []) ++ if cNc k then cn.filterMap (·.2) else []) ∧
        Map.get 0 (s'.tile t).ctr 0x418 = Map.get 0 x.ctr 0x418 + BitVec.ofNat 64 (updN o.w) ∧
        Map.get 0 (s'.tile t).ctr 0x420 =
          Map.get 0 x.ctr 0x420 + if decide (u.c = .nan) || Fp.less u.c one32 then 1 else 0) ∧
    (fld o.w 56 8 = 0x81 → ∃ s', ends s' ∧ (s'.tile t).sp = x.sp ∧
      (s'.tile t).coef r = wordsOf ((x.rows a 1).drop (64 * fld o.w 35 3)) 8 ∧
      ∀ j, j / 8 ≠ r → Map.get 0 (s'.tile t).ctab j = Map.get 0 x.ctab j) ∧
    (fld o.w 56 8 = 0x82 → ∃ s', ends s' ∧ (s'.tile t).ctab = x.ctab ∧
      x.Wrote (s'.tile t) a (splice (x.rows a 1) (64 * fld o.w 35 3) ((x.coef r).flatMap wordBytes)))

/-- PORT, issuing with its descriptor row in range, in a clear tile. With the tag free, a descriptor that passes R199 and its rows in range: the transfer holds the tag with the descriptor and the epoch of issue; a load or store of host memory, with region 0 awake and no undervoltage clamp, waits for an answer to every line it touches and sends a request for each, below 1,024 outstanding ones. With the tag in flight it stalls with cause LIMIT. With a descriptor that fails R199 it raises WINDOW with the reason, window and tag. Registers, memories and other tiles are as before. -/
def Obligations.PorterIssue : Prop :=
  ∀ (s₀ : State) (t : Nat) (q : Strm) (w : Word), q ≠ .x → keyOf w = 0x600 →
    let s := s₀.enter t q
    s.Issues t q w [] → s.Clear t → s.soundChk 0 = false →
    let x := s.tile t
    let a := ((x.seq q).areg (fld w 37 3)).toNat
    a < 768 →
    let d := wordsOf ((x.rows a 1).drop (64 * fld w 0 3)) 8
    let f : Xfer := { tag := dTag d, q := q, pc := x.slot q, d := d, epoch := s.job.epoch, home := s.rl.home }
    ((∃ g ∈ x.io.tags, g.tag = dTag d) →
      exec (.port t q) s₀ = .next (if x.halted q then s else s.countTile t (0x108 + 0x40 * Strm.code q) 1)) ∧
    ((∀ g ∈ x.io.tags, g.tag ≠ dTag d) → ∀ n, f.refuse s.job = some n → ∃ s', exec (.port t q) s₀ = .next s' ∧
      (s'.tile t).fault = tileFaultWord x.fault (Strm.code q) 0x09 (windowDetail n d) (x.slot q)) ∧
    ((∀ g ∈ x.io.tags, g.tag ≠ dTag d) → f.refuse s.job = none → (∀ r ∈ xferRuns d, r.lo + r.n ≤ 768) → f.isHcoh s.job = false →
      let ask := f.isHost s.job && decide (dDir d ≠ 2) && !s.power.clamp && decide ((s.region 0).pwr = 0)
      let lines := if ask then segLines (f.base s.job).toNat f.segs else []
      let seen := fun (o : RlReq) => (o.kind, o.line, o.own)
      s.rl.outs.length + lines.length ≤ 1024 →
      ∃ s' id, exec (.port t q) s₀ = .next s' ∧
        (s'.tile t).io.tags = x.io.tags ++ [{ f with id := id, left := lines, asked := ask }] ∧
        (s'.tile t).io.inflMax = max x.io.inflMax (x.io.tags.length + 1) ∧
        s'.rl.outs.map seen = s.rl.outs.map seen ++ lines.map (fun k => (if dDir d = 1 then 3 else 2, k, ownOf t (dTag d))) ∧
        (s'.tile t).seq q = s.seqAfter t q w (x.seq q) ∧ (∀ r, r ≠ q → (s'.tile t).seq r = x.seq r) ∧
        (s'.tile t).sp = x.sp ∧ (s'.tile t).am = x.am ∧ s'.stks = s.stks ∧ s'.job = s.job ∧ ∀ u, u ≠ t → s'.tile u = s.tile u)

/-- PORTER_COMPLETE for a transfer outside the coherent window, of the current epoch, with nothing to hold it, no error reported, no corrected burst, no other transfer in flight on its bytes, every check passing, in a quiet tile, outside the tick of a stop. A load of HBM, its segments within its rows as R194 lays them: the rows it touches hold the memory bytes of its segments over their old bytes, the stacks are as before. A store: the stacks hold the source bytes (what storeAll writes; the stack's own write is stated apart), the scratchpad is as before; one to host memory whose lines are all taken leaves the stacks too. Each frees its tag and counts its bytes. A gather first reads its indices: with one out of bounds it raises WINDOW reason 5, else it goes on as the transfer with its indices. A transfer that has stopped, waits for the host, stands under the undervoltage clamp or behind a waiting message does nothing; an uncorrectable burst that a load reads is taken as such. -/
def Obligations.PorterCompletes : Prop :=
  ∀ (s : State) (t tag : Nat) (e : HbmErr) (x : Xfer), t < 2304 → s.sameTick = false →
    ((s.tile t).io.tags.find? fun g => decide (g.tag = tag)) = some x →
    let y := s.tile t
    let bytes := x.segs.foldl (fun n g => n + g.len) 0
    let rows := ((List.range (dRows x.d)).map (dSrow x.d + ·)).filter fun r => decide (0 < landedIn x.segs r)
    let lo := dSrow x.d
    let c : Acct := { t := t, q := Strm.code x.q, eng := 4, pc := x.pc }
    let parts := x.blocks s.job x.segs
    let frees := fun (s' : State) => (s'.tile t).io.tags = y.io.tags.filter (fun g => g.tag != x.tag) ∧
      (s'.tile t).sq = y.sq ∧ (s'.tile t).am = y.am ∧ s'.job = s.job ∧ ∀ u, u ≠ t → s'.tile u = s.tile u
    (x.stuck = true ∨ s.power.clamp = true ∨ y.blocked = true ∨ (x.left ≠ [] ∧ x.epoch = s.job.epoch) →
      exec (.porterComplete t tag e) s = .next s) ∧
    (x.stuck = false → s.power.clamp = false → x.left = [] → y.blocked = false → x.isHcoh s.job = false →
      x.epoch = s.job.epoch → s.Quiet t x.id →
      (x.isHost s.job = false → dDir x.d = 0 → (∀ k, (s.stk k).ue = [] ∧ (s.stk k).ce = []) →
        (∀ p ∈ parts, Map.get false (s.stk p.stk).crcV p.gran = false) →
        ∀ k a, e = .ue k a → (∃ p ∈ parts, p.stk = k ∧ a / 32 * 32 ∈ burstsOf x p) →
        exec (.porterComplete t tag e) s = .next ((s.cells e).hbmUe k (a / 32 * 32))) ∧
      (x.isHost s.job = false → e = .none → (∀ p ∈ parts, ∀ b ∈ burstsOf x p, b ∉ (s.stk p.stk).ce) → x.racy = [] →
        (∀ o ∈ s.others t x, common (x.ranges s.job) (o.2.ranges s.job) = [] ∧ common (o.2.ranges s.job) (x.ranges s.job) = []) →
        (dDir x.d = 0 → (∀ g ∈ x.segs, 512 * lo ≤ g.sp ∧ g.sp + g.len ≤ 512 * (lo + rows.length)) →
          s.blockCheck c x x.segs [] e = none → ∃ s', exec (.porterComplete t tag e) s = .next s' ∧ frees s' ∧
          y.Wrote (s'.tile t) lo (x.segs.foldl (fun b g => splice b (g.sp - 512 * lo) (s.memBytes x [] g)) (y.rows lo rows.length)) ∧
          Map.get 0 (s'.tile t).ctr 0x540 = Map.get 0 y.ctr 0x540 + BitVec.ofNat 64 bytes ∧ s'.stks = s.stks) ∧
        (dDir x.d = 1 → s.stow.sending = false →
          let src := y.rows lo (dRows x.d)
          s.blockCheck c x x.segs src e = none → ∃ s', exec (.porterComplete t tag e) s = .next s' ∧ frees s' ∧
          s'.stks = (s.storeAll c x x.segs src).stks ∧ (s'.tile t).sp = y.sp ∧
          Map.get 0 (s'.tile t).ctr 0x548 = Map.get 0 y.ctr 0x548 + BitVec.ofNat 64 bytes)) ∧
      (x.isHost s.job = true → dDir x.d = 1 → x.asked = true → ∃ s', exec (.porterComplete t tag e) s = .next s' ∧ frees s' ∧
        (s'.tile t).sp = y.sp ∧ s'.stks = s.stks ∧
        Map.get 0 (s'.tile t).ctr 0x548 = Map.get 0 y.ctr 0x548 + BitVec.ofNat 64 (x.hostSent s.job)) ∧
      (x.isHost s.job = false → dDir x.d = 2 → x.d.length = 8 →
        let idx := codesOf 32 (dC1 x.d) (leNat (y.rows (dIrow x.d) (dIdxRows x.d)))
        ((∀ a ∈ dStarts x.d idx, 0 ≤ a ∧ a + dL0 x.d ≤ (x.limit s.job : Int)) → ∃ s₁,
          exec (.porterComplete t tag e) s = exec (.porterComplete t tag e) s₁ ∧
          (s₁.tile t).io.tags = y.io.tags.map (fun g => if g.tag = x.tag then { x with d := x.d ++ idx.map fun n => BitVec.ofNat 64 n } else g) ∧
          (s₁.tile t).sp = y.sp ∧ (s₁.tile t).sq = y.sq ∧ s₁.stks = s.stks ∧ s₁.job = s.job ∧ ∀ u, u ≠ t → s₁.tile u = s.tile u) ∧
        ((∃ a ∈ dStarts x.d idx, a < 0 ∨ (x.limit s.job : Int) < a + dL0 x.d) → ∃ s', exec (.porterComplete t tag e) s = .next s' ∧
          (s'.tile t).fault = tileFaultWord y.fault (Strm.code x.q) 0x09 (windowDetail 5 x.d) x.pc)))

/-- Writing bytes into one granule: they read back, every other byte of the stack reads as before, the granule's write count rises by one, its check value is that of its new contents where it stays valid, other granules' check values stay, and exactly the bursts wholly written no longer report an error, corrected or not. A burst of 32 bytes is the model's choice (log 14). -/
def Obligations.StackWritesOneGranule : Prop :=
  ∀ (x : Stack) (g off : Nat) (b : List Byte) (valid : Bool), off + b.length ≤ 4096 →
    let y := x.put g [(off, b)] valid
    let whole := fun (u : Nat) => 4096 * g + off ≤ u ∧ u + 32 ≤ 4096 * g + off + b.length
    Map.slice 0 y.mem (4096 * g + off) b.length = b ∧
    (∀ k, k < 4096 * g + off ∨ 4096 * g + off + b.length ≤ k → Map.get 0 y.mem k = Map.get 0 x.mem k) ∧
    Map.get 0 y.wcnt g = Map.get 0 x.wcnt g + 1 ∧ (∀ h, h ≠ g → Map.get 0 y.wcnt h = Map.get 0 x.wcnt h) ∧
    Map.get false y.crcV g = valid ∧ (valid = true → Map.get 0 y.crc g = crc32c (Map.slice 0 y.mem (4096 * g) 4096)) ∧
    (∀ h, h ≠ g → Map.get false y.crcV h = Map.get false x.crcV h ∧ Map.get 0 y.crc h = Map.get 0 x.crc h) ∧
    (∀ u, u % 32 = 0 → (u ∈ y.ue ↔ u ∈ x.ue ∧ ¬ whole u) ∧ (u ∈ y.ce ↔ u ∈ x.ce ∧ ¬ whole u)) ∧
    y.st = x.st ∧ y.ctr = x.ctr

/-- CLD and CST, issuing with the port free and both runs in range: the port holds the request, which reaches the arbiter two compute cycles on, and it joins the cluster's waiting ones; nothing else changes. With the port taken they stall. CS_REQUEST_ACCEPT with requests waiting takes the arbiter's next compute cycle: the cycles in which a request waited are counted, and with none ready that is all; else a ready request that is first in the order of the cycle leaves the waiting ones for a channel, and its tile's port is free. With none waiting nothing happens. CS_ACCESS_COMPLETE without parity error in the store. A tile's access that touches no ring and no tally backing, in a quiet tile that has not stopped. CST: the store holds the tile's rows at its place and every other byte of it, and the scratchpad, is as before. CLD: the tile's rows hold the store's bytes, every other byte of the scratchpad, and the store, is as before. The channel is free and the mark falls. A queue unit's write of a ring puts its bytes into the rows it holds and changes no other byte; the read for a QHEAD brings the register its 8 bytes. -/
def Obligations.ClusterStoreCopies : Prop :=
  (
    (∀ e ∈ ([(0x610, Instr.cld, false), (0x620, .cst, true)] : List (Nat × (Nat → Strm → Instr) × Bool)),
      ∀ (s₀ : State) (t : Nat) (q : Strm) (w : Word), q ≠ .x → keyOf w = e.1 →
        let s := s₀.enter t q
        s.Issues t q w [] → s.soundChk 0 = false →
        let v := (s.tile t).seq q
        let d := (v.areg (fld w 42 3)).toNat
        let a := (v.areg (fld w 37 3)).toNat / 512
        let req : CsReq :=
          { lt := localOf t, lo := 512 * a, n := fN w, wr := e.2.2, op := s.opOf t q w [BitVec.ofNat 64 d] [], at_ := s.cycle + 2 }
        ((s.tile t).io.cs.isSome = true →
          exec (e.2.1 t q) s₀ = .next (if (s.tile t).halted q then s else s.countTile t (0x108 + 0x40 * Strm.code q) 1)) ∧
        ((s.tile t).io.cs = none → d + fN w ≤ 768 → a + fN w ≤ 49152 → ∃ s', s.Taken s' t q w v (fun io => { io with cs := some req })
            [{ id := (s.tile t).io.nextId, eng := 7, q := Strm.code q, lo := d, n := fN w, wr := !e.2.2 }] ∧
          exec (e.2.1 t q) s₀ = .next (s'.modCluster (clusterOf t) fun c => { c with waiting := c.waiting ++ [req] }))) ∧
    (∀ (s : State) (c : Nat), c < 192 →
      ((s.cluster c).waiting = [] → exec (.csRequestAccept c) s = .next s) ∧
      ((s.cluster c).waiting ≠ [] →
        let e := s.csCycle c
        let s₁ := e.modCluster c fun x => x.countWait e.cycle
        (s₁.csReady c = [] → exec (.csRequestAccept c) s = .next (s₁.modCluster c fun x => x.countWait (e.cycle + 1))) ∧
        (s₁.csReady c ≠ [] → ∃ p ∈ s₁.csReady c, (∀ r ∈ s₁.csReady c, csTurn e.cycle p.1 ≤ csTurn e.cycle r.1) ∧
          ∃ s', exec (.csRequestAccept c) s = .next s' ∧
            (s'.cluster c).chans = (s.cluster c).chans ++ [p.1] ∧
            (s'.cluster c).waiting = nextOfUnit e.cycle p.1 ((s.cluster c).waiting.eraseIdx p.2) ∧
            (s'.cluster c).chMax = max (s.cluster c).chMax ((s.cluster c).chans.length + 1) ∧
            (s'.cluster c).cs = (s.cluster c).cs ∧ (s'.cluster c).tally = (s.cluster c).tally ∧
            (p.1.qu = false → (s'.tile (clusterTile c p.1.lt)).io.cs = none) ∧
            (∀ u, (s'.tile u).sp = (s.tile u).sp ∧ (s'.tile u).sq = (s.tile u).sq) ∧ s'.job = s.job)))) ∧
  (
    ∀ (s : State) (c i : Nat) (r : CsReq), c < 192 → (s.cluster c).chans[i]? = some r →
      let t := clusterTile c r.lt
      let d := (r.op.v.headD 0).toNat
      let old := Map.slice 0 (s.cluster c).cs r.lo (512 * r.n)
      let others := fun (s' : State) => (∀ k, k ≠ c → s'.cluster k = s.cluster k) ∧ (s'.cluster c).tally = (s.cluster c).tally ∧
        (s'.cluster c).chans = (s.cluster c).chans.eraseIdx i ∧
        ∀ k, k < r.lo ∨ r.lo + 512 * r.n ≤ k → Map.get 0 (s'.cluster c).cs k = Map.get 0 (s.cluster c).cs k
      (s.tile t).st ≠ 8 → (s.cluster c).badGranule r.lo (512 * r.n) = none →
      (r.qu = false → s.Quiet t r.op.id → (∀ g ∈ s.csRanges c, r.lo + 512 * r.n ≤ g.1 ∨ g.1 + g.2 ≤ r.lo) →
        ∃ s', exec (.csAccessComplete c i) s = .next s' ∧ others s' ∧ s.OpEnds s' t r.op ∧
          (r.wr = true → (s'.tile t).sp = (s.tile t).sp ∧ Map.slice 0 (s'.cluster c).cs r.lo (512 * r.n) = (s.tile t).rows d r.n) ∧
          (r.wr = false → (s'.cluster c).cs = (s.cluster c).cs ∧ (s.tile t).Wrote (s'.tile t) d old)) ∧
      (r.qu = true → r.wr = true → r.ad - r.lo + r.dat.length ≤ 512 * r.n →
        ∃ s', exec (.csAccessComplete c i) s = .next s' ∧ others s' ∧ s'.tile t = (s.tile t).ringAccessDone ∧
          (∀ u, u ≠ t → s'.tile u = s.tile u) ∧
          Map.slice 0 (s'.cluster c).cs r.lo (512 * r.n) = splice old (r.ad - r.lo) r.dat) ∧
      (r.qu = true → r.wr = false →
        ∃ s', exec (.csAccessComplete c i) s = .next s' ∧ others s' ∧ (s'.cluster c).cs = (s.cluster c).cs ∧
          s'.tile t = (s.tile t).result r.op.q (fD r.op.w) (wordAt old (r.ad - r.lo)) ∧ ∀ u, u ≠ t → s'.tile u = s.tile u))

/-- ULD and UST of a tile in uniform mode with the port free, rows in range, a cluster of the job and an open slot: the access is in flight and the next slot opens 54 exchange cycles later. Outside uniform mode they raise UNIFORM with reason 2, for a cluster not of the job with reason 1. UNIFORM_CHANNEL_ACCEPT of an access that nothing conflicts with or comes before, on bytes of no ring or backing, in a quiet tile: a write puts its 64 bytes in the store, a read takes them; the scoreboard holds it until the ninth exchange cycle, and how late it is follows from how long it has waited. UNIFORM_COMPLETE of an accepted access from 653 exchange cycles after its issue on, 16 later for each boundary it is late by: a read writes its 64 bytes into its row, the access ends, a late one is counted. Before that, or not accepted, it stays. -/
def Obligations.UniformAccesses : Prop :=
  (∀ e ∈ ([(0x630, Instr.uld, false), (0x640, .ust, true)] : List (Nat × (Nat → Strm → Instr) × Bool)),
    ∀ (s₀ : State) (t : Nat) (q : Strm) (w : Word), q ≠ .x → keyOf w = e.1 →
      let s := s₀.enter t q
      s.Issues t q w [fA w] → s.soundChk 0 = false → (s.tile t).io.cs = none →
      let v := (s.tile t).seq q
      let a := v.sreg (fA w)
      let c := fld a 32 8
      let d := (v.areg (fld w 42 3)).toNat
      (bit ((s.tile t).reg 0x18) 9 = false →
        exec (e.2.1 t q) s₀ = .next (s.tileFault t (Strm.code q) 0x08 (0x2000000 + c) ((s.tile t).slot q))) ∧
      (bit ((s.tile t).reg 0x18) 9 = true → d < 768 → fld a 6 19 < 393216 → c ∉ s.job.clusters →
        exec (e.2.1 t q) s₀ = .next (s.tileFault t (Strm.code q) 0x08 (0x1000000 + c) ((s.tile t).slot q))) ∧
      (bit ((s.tile t).reg 0x18) 9 = true → d < 768 → fld a 6 19 < 393216 → c ∈ s.job.clusters → (s.tile t).io.uniNext ≤ s.power.exc →
        ∃ s', exec (e.2.1 t q) s₀ = .next s' ∧ s.Taken s' t q w v
          (fun io => { io with
            uni := io.uni ++ [{ op := s.opOf t q w [BitVec.ofNat 64 d] [], c := c, ad := 64 * fld a 6 19, wr := e.2.2, at_ := s.power.exc, cyc := s.cycle }]
            uniNext := s.power.exc + 54
            uniWait := false })
          [{ id := (s.tile t).io.nextId, eng := 7, q := Strm.code q, lo := d, n := 1, wr := !e.2.2 }])) ∧
  (∀ (s : State) (t i : Nat) (u : UniOp), t < 2304 → (s.tile t).io.uni[i]? = some u → s.Quiet t u.op.id → (s.tile t).st ≠ 8 →
    let x := s.cluster u.c
    let d := (u.op.v.headD 0).toNat
    let go := max s.power.exc x.uniGo
    let k := if u.arr = 0 then 0 else lateBy (go + 1 - u.arr)
    (u.acc = false → s.uniClear u = true → s.uniBefore t u = false → go < s.power.exc + 17 → x.badGranule u.ad 64 = none →
      (∀ g ∈ s.csRanges u.c, u.ad + 64 ≤ g.1 ∨ g.1 + g.2 ≤ u.ad) →
      ∃ s', exec (.uniformChannelAccept t i) s = .next s' ∧
        (s'.cluster u.c).uch = s.uniHeld u.c ++ [(go + 9, u.ad, u.wr)] ∧ (s'.tile t).sp = (s.tile t).sp ∧
        (u.wr = true → (s'.cluster u.c).cs =
          Map.setRange 0 x.cs u.ad ((((s.tile t).rows d 1).drop (64 * fld u.op.w 0 3)).take 64) ∧
          (s'.tile t).io.uni[i]? = some { u with acc := true, k := k }) ∧
        (u.wr = false → (s'.cluster u.c).cs = x.cs ∧
          (s'.tile t).io.uni[i]? = some { u with acc := true, dat := Map.slice 0 x.cs u.ad 64, k := k })) ∧
    (u.acc = false → s.uniClear u = false → ∃ s', exec (.uniformChannelAccept t i) s = .next s' ∧
      (s'.tile t).io.uni[i]? = some { u with arr := if u.arr = 0 then s.power.exc + 1 else u.arr } ∧ s'.clusters = s.clusters) ∧
    (∀ k, u.acc = false ∨ k ≠ u.k ∨ s.power.exc < u.at_ + 653 + 16 * k → exec (.uniformComplete t i k) s = .next s) ∧
    (∀ k, u.acc = true → k = u.k → u.at_ + 653 + 16 * k ≤ s.power.exc → ∃ s', exec (.uniformComplete t i k) s = .next s' ∧
      s.OpEnds s' t u.op ∧ (s'.tile t).io.uni = (s.tile t).io.uni.eraseIdx i ∧ s'.clusters = s.clusters ∧
      Map.get 0 (s'.tile t).ctr 0x230 = Map.get 0 (s.tile t).ctr 0x230 + (if 0 < k then 1 else 0) ∧
      (u.wr = true → (s'.tile t).sp = (s.tile t).sp) ∧
      (u.wr = false → u.dat.length = 64 →
        (s.tile t).Wrote (s'.tile t) d (splice ((s.tile t).rows d 1) (64 * fld u.op.w 0 3) u.dat))))

/-- TADD and TADDR, issuing, leave a signed 32-bit addition waiting and change nothing else. TALLY_ADD_APPLY of the tile's oldest, with breakpoints off, outside the tick of a stop: it stays while an earlier cluster-store access of the tile is unaccepted or another tile's addition comes before it; else, once the tally reads that are due have taken the count, a sum within 0 and CEIL is the new count and the mark falls; below zero is TALLY_UNDER (2), above CEIL TALLY_OVER (3), and the count stays. TWAIT issues once the count, as it stands at the tile's turn with no addition due, reaches its threshold and takes it from the count unless K is 1, else stalls with cause TWAIT; a threshold below 0 or above CEIL raises TALLY_WAIT (4). TRD takes its place; three compute cycles on its register has the count, sign-extended, and waits no more. -/
def Obligations.Tallies : Prop :=
  (∀ (s₀ : State) (t : Nat) (q : Strm) (w : Word), q ≠ .x →
    let s := s₀.enter t q
    let v := (s.tile t).seq q
    let tl := fld w 41 6
    let c := clusterOf t
    let y := Map.get {} (s.cluster c).tally tl
    let n := ((w.setWidth 32 : BitVec 32).toInt)
    let e := s.settleCluster c
    let adds := fun (cmd : Instr) (d : Int) => ∃ s', exec cmd s₀ = .next s' ∧
      s.Taken s' t q w v (fun io => { io with tal := io.tal ++ [{ tl := tl, d := d, op := s.opOf t q w [] [], at_ := s.cycle }] }) []
    (keyOf w = 0x700 → s.Issues t q w [] → adds (.tadd t q) n) ∧
    (keyOf w = 0x710 → s.Issues t q w [fld w 36 5] → adds (.taddr t q) ((v.sreg (fld w 36 5)).setWidth 32 : BitVec 32).toInt) ∧
    (keyOf w = 0x730 → s.Issues t q w [fld w 36 5] → ∃ s', exec (.trd t q) s₀ = .next s' ∧
      s.Taken s' t q w (if fld w 36 5 = 0 then v else { v with busy := fld w 36 5 :: v.busy })
        (fun io => { io with late := io.late ++ [{ op := s.opOf t q w [] [], due := s.cycle + 3 }] }) []) ∧
    (keyOf w = 0x720 → s.Issues t q w [] →
      (n < 0 ∨ (y.ceil : Int) < n → exec (.twait t q) s₀ = .next (s.clusterFault c 4 (tallyDetail tl t 2))) ∧
      (0 ≤ n → n ≤ y.ceil → s.addDue c tl = true ∨ s.countAtTurn t tl < n →
        exec (.twait t q) s₀ = .next (if (s.tile t).halted q then s else s.countTile t (0x128 + 0x40 * Strm.code q) 1)) ∧
      (0 ≤ n → n ≤ y.ceil → s.addDue c tl = false → n ≤ s.countAtTurn t tl → s.dbg.bpen = false →
        ∃ s', e.Issued s' t q (s.nextPc t q) 0 ((e.tile t).seq q) ∧
        exec (.twait t q) s₀ = .next (s'.modCluster c fun x => { x with
          tally := Map.set {} x.tally tl { y with count := if bit w 35 then y.count else BitVec.ofInt 32 (y.count.toInt - n) } })))) ∧
  (∀ (s : State) (t : Nat) (l : LateOp), (s.tile t).io.late = [l] → fld l.op.w 56 8 = 0x73 → l.due ≤ s.cycle → l.op.q ≠ .x →
    let v := (s.tile t).seq l.op.q
    let d := fld l.op.w 36 5
    ((s.settle t).tile t).io.late = [] ∧ ((s.settle t).tile t).seq l.op.q =
      { v.setS d ((Map.get {} (s.cluster (clusterOf t)).tally (fld l.op.w 41 6)).count.signExtend 64) with
        busy := v.busy.filter fun i => i != d }) ∧
  (∀ (s : State) (t : Nat) (a : TAdd) (rest : List TAdd), t < 2304 → s.sameTick = false → (s.tile t).io.tal = a :: rest →
    s.dbg.bpen = false →
    let c := clusterOf t
    let y := Map.get {} (s.cluster c).tally a.tl
    let n := y.count.toInt + a.d
    let e := s.settleCluster c
    ((s.tile t).csPending c a.op.id = true ∨ s.addBefore t a = true → exec (.tallyAddApply t) s = .next s) ∧
    ((s.tile t).csPending c a.op.id = false → s.addBefore t a = false →
      (n < 0 → exec (.tallyAddApply t) s = .next (e.clusterFault c 2 (tallyDetail a.tl t 0))) ∧
      ((y.ceil : Int) < n → 0 ≤ n → exec (.tallyAddApply t) s = .next (e.clusterFault c 3 (tallyDetail a.tl t 0))) ∧
      (0 ≤ n → n ≤ y.ceil → ∃ s', exec (.tallyAddApply t) s = .next s' ∧ e.OpEnds s' t a.op ∧ (s'.tile t).io.tal = rest ∧
        Map.get {} (s'.cluster c).tally a.tl = { y with count := BitVec.ofInt 32 n } ∧
        (∀ k, k ≠ a.tl → Map.get {} (s'.cluster c).tally k = Map.get {} (s.cluster c).tally k) ∧
        (s'.tile t).sp = (s.tile t).sp ∧ (s'.cluster c).cs = (s.cluster c).cs ∧ ∀ k, k ≠ c → s'.cluster k = s.cluster k)))

/-- QSEND in a clear tile and QSENDS, issuing with fewer than 32 operations outbound and a header that passes R261: the operation is in flight with the header the queue unit has completed (source, epoch; the length of a QSENDS is 2 units), TILE_Q_TX counts one, and registers, memories and other tiles are as before. A header that fails raises what R261 names. SEND_COMPLETE with a QSENDS or QSEND oldest in a quiet tile, outside the tick of a stop: a message for this module is on its way with its payload, one for another module goes to the port its flow takes, and the operation ends. -/
def Obligations.MessagesAreSent : Prop :=
  (∀ (s₀ : State) (t : Nat) (q : Strm) (w : Word), q ≠ .x →
    let s := s₀.enter t q
    s.soundChk 0 = false → (s.tile t).io.out.length < 32 →
    let x := s.tile t
    let v := x.seq q
    let taken := fun (c : Instr) (m : Msg) (lo n : Nat) => ∃ s' o, exec c s₀ = .next s' ∧ (s'.tile t).io.out = x.io.out ++ [o] ∧
      o.w = w ∧ o.q = q ∧ o.dat = m.pay ∧ o.v = [m.h0, (s.sealHeader t m).h1, BitVec.ofNat 64 lo, BitVec.ofNat 64 n] ∧
      Map.get 0 (s'.tile t).ctr 0x700 = Map.get 0 x.ctr 0x700 + 1 ∧ (s'.tile t).seq q = s.seqAfter t q w v ∧
      (∀ r, r ≠ q → (s'.tile t).seq r = x.seq r) ∧ (s'.tile t).sp = x.sp ∧ (s'.tile t).am = x.am ∧ (s'.tile t).qu = x.qu ∧
      s'.net = s.net ∧ s'.job = s.job ∧ ∀ u, u ≠ t → s'.tile u = s.tile u
    let fails := fun (c : Instr) (f : Nat × Nat) => ∃ s', exec c s₀ = .next s' ∧
      (s'.tile t).fault = tileFaultWord x.fault (Strm.code q) f.1 f.2 (x.slot q)
    (keyOf w = 0x750 → s.Issues t q w [fA w, fB w, fC w, fD w] →
      let m : Msg := { h0 := v.sreg (fA w), h1 := v.sreg (fB w), pay := wordBytes (v.sreg (fC w)) ++ wordBytes (v.sreg (fD w)) }
      (s.headerCheck m false = none → taken (.qsends t q) { m with h0 := setFld m.h0 0 8 1 } 0 0) ∧
      (∀ f, s.headerCheck m false = some f → fails (.qsends t q) f)) ∧
    (keyOf w = 0x740 → s.Issues t q w [] → s.Clear t →
      let r := (v.areg (fld w 37 3)).toNat
      let row := x.rows r 1
      let m : Msg := { h0 := wordAt row (16 * fld w 32 5), h1 := wordAt row (16 * fld w 32 5 + 8) }
      let n := (fld w 32 5 + fld m.h0 0 8) / 32 + 1
      r + n ≤ 768 →
      (s.headerCheck m true = none → taken (.qsend t q) m r n) ∧ (∀ f, s.headerCheck m true = some f → fails (.qsend t q) f))) ∧
  (∀ (s : State) (t : Nat) (o : Op) (rest : List Op), t < 2304 → s.sameTick = false → (s.tile t).io.out = o :: rest →
    (∀ p ∈ rest, p.id ≠ o.id) → s.Quiet t o.id → (fld o.w 56 8 = 0x74 ∨ fld o.w 56 8 = 0x75) →
    let rows := (s.tile t).rows (o.v.getD 2 0).toNat (o.v.getD 3 0).toNat
    let m0 : Msg := { h0 := o.v.getD 0 0, h1 := o.v.getD 1 0, pay := o.dat }
    let m : Msg := if fld o.w 56 8 = 0x75 then m0 else { m0 with pay := (rows.drop (16 * fld o.w 32 5 + 16)).take (hLen m0 - 16) }
    (hDmod m = s.modid → ∃ s', exec (.sendComplete t) s = .next s' ∧ s.OpEnds s' t o ∧ (s'.tile t).io.out = rest ∧
      (s'.tile t).sp = (s.tile t).sp ∧ s'.net = { s.net with msgs := s.net.msgs ++ [m] }) ∧
    (hDmod m ≠ s.modid → ∀ p, s.route (hDmod m) (hSmod m + hStile m + hDtile m) false = .inr p →
      ∃ s', exec (.sendComplete t) s = .next s' ∧ s.OpEnds s' t o ∧ (s'.tile t).io.out = rest ∧
        (s'.tile t).sp = (s.tile t).sp ∧ s'.net = { s.net with rmsg := s.net.rmsg ++ [(p, m)] }))

/-- On a configured queue. QHEAD with 8 visible bytes: head and occupancy move by 8; from a ring in the scratchpad, in a clear tile, D holds the bytes at the head; from one in the cluster store a request of the queue unit for their row joins the cluster's waiting ones, due at the arbiter two cycles on, and D waits for it. With fewer it stalls with cause 5. QLEN: D holds the occupancy. QCTL takes its place with its mark raised; once it is due and alone, OPEN and CLOSE set whether the queue is open and keep its contents, RESET leaves it closed and empty, or waits while a message is being written into it; the mark falls. No other queue, register, memory or tile changes. On an unconfigured queue each raises RING reason 0x04. -/
def Obligations.QueueInstructions : Prop :=
  (∀ (s₀ : State) (t : Nat) (q : Strm) (w : Word), q ≠ .x →
    let s := s₀.enter t q
    let x := s.tile t
    let v := x.seq q
    let k := fld w 32 9
    let y := x.queue k
    let cfg := x.qcfg k
    let a := ringBase cfg + y.head
    let c := clusterOf t
    let popped := { y with head := (y.head + 8) % ringSize cfg, occ := y.occ - 8 }
    let leaves := fun (cmd : Instr) (v' : Seq) (y' : Queue) (late : List LateOp) (reqs : List CsReq) => ∃ s', exec cmd s₀ = .next s' ∧
      (s'.tile t).seq q = s.seqAfter t q w v' ∧ (s'.tile t).queue k = y' ∧ (∀ j, j ≠ k → (s'.tile t).queue j = x.queue j) ∧
      (s'.tile t).io.late = x.io.late ++ late ∧ (s'.tile t).qu.wrs = x.qu.wrs ∧ (∀ r, r ≠ q → (s'.tile t).seq r = x.seq r) ∧
      (s'.tile t).sp = x.sp ∧ (s'.cluster c).waiting = (s.cluster c).waiting ++ reqs ∧ (s'.cluster c).cs = (s.cluster c).cs ∧
      (∀ d, d ≠ c → s'.cluster d = s.cluster d) ∧ s'.job = s.job ∧ ∀ u, u ≠ t → s'.tile u = s.tile u
    (∀ e ∈ ([(0x760, Instr.qhead), (0x770, .qlen), (0x780, .qctlOpen), (0x781, .qctlClose), (0x782, .qctlReset)] :
        List (Nat × (Nat → Strm → Instr))), keyOf w = e.1 → s.Issues t q w (if e.1 ≤ 0x770 then [fD w] else []) →
      (bit cfg 63 = false → exec (e.2 t q) s₀ = .next (s.tileFault t (Strm.code q) 0xB (0x4000000 + k) (x.slot q))) ∧
      (bit cfg 63 = true → 0x780 ≤ e.1 → leaves (e.2 t q) v y [{ op := s.opOf t q w [] [], due := s.cycle + 2 }] [])) ∧
    (bit cfg 63 = true →
      (keyOf w = 0x760 → s.Issues t q w [fD w] →
        (y.occ < 8 → exec (.qhead t q) s₀ = .next (if x.halted q then s else s.countTile t (0x128 + 0x40 * Strm.code q) 1)) ∧
        (8 ≤ y.occ → ringInCs cfg = false → s.Clear t →
          leaves (.qhead t q) (v.setS (fD w) (wordAt (x.rows (a / 512) 1) (a % 512))) popped [] []) ∧
        (8 ≤ y.occ → ringInCs cfg = true →
          leaves (.qhead t q) (if fD w = 0 then v else { v with busy := fD w :: v.busy }) popped []
            [{ lt := localOf t, qu := true, lo := a / 512 * 512, n := 1, wr := false, op := s.opOf t q w [] [], at_ := s.cycle + 2, ad := a }])) ∧
      (keyOf w = 0x770 → s.Issues t q w [fD w] → leaves (.qlen t q) (v.setS (fD w) (BitVec.ofNat 64 y.occ)) y [] []))) ∧
  (∀ (s : State) (t : Nat) (l : LateOp), (s.tile t).io.late = [l] → fld l.op.w 56 8 = 0x78 → l.due ≤ s.cycle →
    let x := s.tile t
    let k := fld l.op.w 32 9
    let y := x.queue k
    let z := (s.settle t).tile t
    (fld l.op.w 28 4 = 2 → (∃ m ∈ x.qu.wrs, m.q = k) → z = x) ∧
    (fld l.op.w 28 4 < 2 ∨ (fld l.op.w 28 4 = 2 ∧ ∀ m ∈ x.qu.wrs, m.q ≠ k) → z.io.late = [] ∧
      z.queue k = (if fld l.op.w 28 4 = 2 then { y with open_ := false, head := 0, occ := 0 } else { y with open_ := fld l.op.w 28 4 == 0 }) ∧
      (∀ j, j ≠ k → z.queue j = x.queue j) ∧ z.sp = x.sp ∧ (s.settle t).clusters = s.clusters ∧
      z.seq l.op.q = (if bit l.op.w 51 then (x.seq l.op.q).subMark (fld l.op.w 47 4) else x.seq l.op.q)))

/-- MESSAGE_ARRIVAL of the first message of its flow at a tile that takes arrivals, and MESSAGE_ACCEPT of a waiting one: of an older epoch it is dropped and counted; in tally form it is added to its tally and counted; for a queue not configured or not open it is dropped, counted and, if it asks, answered CLOSED; one larger than the ring is dropped and answered OVERSIZE (or faults with OVF set); one that fits is accepted and being written, with requests for its rows where the ring lies in the cluster store; one that does not fit yet waits. What the queue unit did by itself by then is done before. Tally watches off. The message leaves the mesh; other queues and tiles are as before. Outside the tick of a stop. MESSAGE_VISIBLE of the oldest accepted message, written, with no queue control in flight and none waiting: the occupancy grows by its length, TILE_Q_RX counts it, and if it asks a slip DELIVERED waits; in a clear tile, of a scratchpad ring it does not wrap, its bytes stand in the ring and every other byte of the scratchpad is as before; of a ring in the cluster store, which its accesses wrote, no memory changes. RETURN_SLIP_SEND sends the oldest slip. RING_WAIT_EXPIRY, with no limit suspended, discards the waiting message with RING reason 0x01 and counts it. SYNC_WDOG_EXPIRY changes nothing while the limits are suspended. -/
def Obligations.MessagesArrive : Prop :=
  (
    ∀ (s₀ : State) (t i : Nat) (m : Msg) (c : Instr) (net : List Msg), t < 2304 →
      let s := s₀.refreshQueue t
      ((c = .messageArrival i ∧ s₀.net.msgs[i]? = some m ∧ t = hDtile m ∧ s.takesArrivals t = true ∧
          (∀ e ∈ s₀.net.msgs.take i, msgFlow e ≠ msgFlow m) ∧ net = s.net.msgs.eraseIdx i) ∨
        (c = .messageAccept t ∧ (s.tile t).qu.inbox = some m ∧ s.accepts t = true ∧ net = s.net.msgs)) →
      let x := s.tile t
      let k := hDq m
      let y := x.queue k
      let cfg := x.qcfg k
      let cl := clusterOf t
      let tl := Map.get {} (s.cluster cl).tally (hTix m)
      let sum := tl.count.toInt + (BitVec.ofNat 32 (leNat (m.pay.take 4))).toInt
      let slips := fun (status : Nat) => x.qu.slips ++ if hRcpt m then [s.slipOf t m status] else []
      let left := fun (s' : State) => exec c s₀ = .next s' ∧ (s'.tile t).qu.inbox = none ∧ s'.net.msgs = net
      let dropped := fun (ctr : Nat) (out : List Msg) => ∃ s', left s' ∧
        (s'.tile t).queue k = { y with drops := y.drops + 1 } ∧ Map.get 0 (s'.tile t).ctr ctr = Map.get 0 x.ctr ctr + 1 ∧
        (s'.tile t).qu.slips = out ∧ (s'.tile t).sp = x.sp ∧ (∀ j, j ≠ k → (s'.tile t).queue j = x.queue j) ∧
        ∀ u, u ≠ t → s'.tile u = s.tile u
      (hEpoch m < s.job.epoch → hTform m = false → dropped 0x720 x.qu.slips) ∧
      (hEpoch m < s.job.epoch → hTform m = true → ∃ s', left s' ∧
        Map.get 0 (s'.cluster cl).ctr 0x60 = Map.get 0 (s.cluster cl).ctr 0x60 + 1 ∧ (s'.cluster cl).tally = (s.cluster cl).tally) ∧
      (s.job.epoch ≤ hEpoch m →
        (hTform m = true → s.dbg.bpen = false → 0 ≤ sum → sum ≤ tl.ceil → ∃ s', left s' ∧
          Map.get {} (s'.cluster cl).tally (hTix m) = { tl with count := BitVec.ofInt 32 sum } ∧
          Map.get 0 (s'.cluster cl).ctr 0x68 = Map.get 0 (s.cluster cl).ctr 0x68 + 1 ∧ (s'.tile t).qu.slips = slips 0) ∧
        (hTform m = false →
          (bit cfg 63 = false ∨ y.open_ = false → dropped 0x710 (slips 1)) ∧
          (bit cfg 63 = true → y.open_ = true →
            (ringSize cfg < hLen m → bit cfg 61 = false → dropped 0x718 (slips 2)) ∧
            (ringSize cfg < hLen m → bit cfg 61 = true → ∃ s', exec c s₀ = .next s' ∧
              ((s'.tile t).queue k).drops = y.drops + 1 ∧ (s'.tile t).fault = tileFaultWord x.fault 4 0xB (0x2000000 + k) 0) ∧
            (hLen m ≤ ringSize cfg → hLen m ≤ ringSize cfg - y.occ - y.wr →
              let reqs := if ringInCs cfg then ringReqs t s.cycle cfg ((y.head + y.occ + y.wr) % ringSize cfg) (msgBytes m) else []
              ∃ s', left s' ∧ (s'.tile t).queue k = { y with wr := y.wr + hLen m } ∧
              (s'.tile t).qu.wrs = x.qu.wrs ++ [{ q := k, m := m, wait := reqs.length, waited := x.qu.inbox.isSome }] ∧
              (s'.cluster cl).waiting = (s.cluster cl).waiting ++ reqs ∧ (s'.tile t).sp = x.sp) ∧
            (hLen m ≤ ringSize cfg → ringSize cfg - y.occ - y.wr < hLen m → ∃ s', exec c s₀ = .next s' ∧
              (s'.tile t).qu.inbox = some m ∧ s'.net.msgs = net ∧ (s'.tile t).queue k = y ∧ (s'.tile t).sp = x.sp))))) ∧
  (
    (∀ (s : State) (t : Nat) (r : MsgWr) (rest : List MsgWr), t < 2304 → s.sameTick = false → (s.tile t).qu.wrs = r :: rest → r.wait = 0 →
      (s.tile t).st ≠ 8 → (s.tile t).io.late = [] → (s.tile t).qu.inbox = none →
      let x := s.tile t
      let y := x.queue r.q
      let cfg := x.qcfg r.q
      let off := (y.head + y.occ) % ringSize cfg
      let seen := fun (s' : State) => exec (.messageVisible t) s = .next s' ∧ (s'.tile t).qu.wrs = rest ∧
        (s'.tile t).queue r.q = { y with occ := y.occ + hLen r.m, wr := y.wr - hLen r.m } ∧
        Map.get 0 (s'.tile t).ctr 0x708 = Map.get 0 x.ctr 0x708 + 1 ∧
        (s'.tile t).qu.slips = x.qu.slips ++ (if hRcpt r.m then [s.slipOf t r.m 0] else []) ∧ (s'.tile t).sq = x.sq ∧
        s'.clusters = s.clusters
      (ringInCs cfg = true → ∃ s', seen s' ∧ (s'.tile t).sp = x.sp) ∧
      (ringInCs cfg = false → s.Clear t → s.soundChk 0 = false → off + hLen r.m ≤ ringSize cfg → ∃ s', seen s' ∧
        Map.slice 0 (s'.tile t).sp (ringBase cfg + off) (hLen r.m) = msgBytes r.m ∧
        ∀ k, k < ringBase cfg + off ∨ ringBase cfg + off + hLen r.m ≤ k → Map.get 0 (s'.tile t).sp k = Map.get 0 x.sp k)) ∧
    (∀ (s : State) (t : Nat) (m : Msg) (rest : List Msg), t < 2304 → (s.tile t).qu.slips = m :: rest → (s.tile t).st ≠ 8 →
      hDmod m = s.modid → ∃ s', exec (.returnSlipSend t) s = .next s' ∧ (s'.tile t).qu.slips = rest ∧
        s'.net = { s.net with msgs := s.net.msgs ++ [m] } ∧ Map.get 0 (s'.tile t).ctr 0x728 = Map.get 0 (s.tile t).ctr 0x728 + 1 ∧
        (s'.tile t).sp = (s.tile t).sp ∧ ∀ u, u ≠ t → s'.tile u = s.tile u) ∧
    (∀ (s : State) (t : Nat) (m : Msg), t < 2304 → (s.tile t).qu.inbox = some m → s.job.js ≠ 6 →
      (s.suspended = true → exec (.ringWaitExpiry t) s = .next s) ∧
      (s.suspended = false → ∃ s', exec (.ringWaitExpiry t) s = .next s' ∧ (s'.tile t).qu.inbox = none ∧
        ((s'.tile t).queue (hDq m)).drops = ((s.tile t).queue (hDq m)).drops + 1 ∧
        (s'.tile t).fault = tileFaultWord (s.tile t).fault 4 0xB (0x1000000 + hDq m) 0)) ∧
    (∀ (s : State) (t kind : Nat) (q : Strm), t < 2304 → s.sameTick = false → s.suspended = true → exec (.syncWdogExpiry t kind q) s = .next s))

/-- XNOP, XBR, XSETL and XLOOP write X's program counter and loop counter as R158 says (a taken branch counts two bubble cycles, none while X is halted). XWAIT and XEND stall with cause MWAIT while a send of X has not left the exchange port. With none left XWAIT issues; XEND ends X's part, which makes the tile's part complete where the counts are met, or raises OVERRUN reason 0x04 where too few bytes were sent. Nothing else of the machine changes. -/
def Obligations.XControl : Prop :=
  ∀ (s₀ : State) (t : Nat) (w : Word),
    let s := s₀.enter t .x
    s.Issues t .x w [] →
    let x := s.tile t
    let v := x.sq.x
    let i := fld w 45 2
    let b := if x.halted .x then 0 else 2
    let goes := fun (c : Instr) (pc : BitVec 13) (n : Nat) (l : Map W32) => ∃ s', exec c s₀ = .next s' ∧
      (s'.tile t).sq = { x.sq with x := { v with pc := pc, last := BitVec.ofNat 13 (x.slot .x), l := l } } ∧ x.SameData (s'.tile t) ∧
      Map.get 0 (s'.tile t).ctr 0x1F8 = Map.get 0 x.ctr 0x1F8 + BitVec.ofNat 64 n ∧ s.SameBut t s'
    let waits := fun (c : Instr) => (∃ o ∈ x.io.out, o.q = .x) →
      exec c s₀ = .next (if x.halted .x then s else s.countTile t 0x1D8 1)
    (keyOf w = 0xC70 → goes (.xnop t) (s.nextPc t .x) 0 v.l) ∧
    (keyOf w = 0xC60 → goes (.xbr t) (w.setWidth 13) b v.l) ∧
    (keyOf w = 0xC30 → goes (.xsetl t) (s.nextPc t .x) 0 (Map.set 0 v.l i (w.setWidth 32))) ∧
    (keyOf w = 0xC40 → (Map.get 0 v.l i = 0 → goes (.xloop t) (s.nextPc t .x) 0 v.l) ∧
      (Map.get 0 v.l i ≠ 0 → goes (.xloop t) (w.setWidth 13) b (Map.set 0 v.l i (Map.get 0 v.l i - 1)))) ∧
    (keyOf w = 0xC80 → waits (.xwait t) ∧ ((∀ o ∈ x.io.out, o.q ≠ .x) → goes (.xwait t) (s.nextPc t .x) 0 v.l)) ∧
    (keyOf w = 0xC50 → waits (.xend t) ∧ ((∀ o ∈ x.io.out, o.q ≠ .x) →
      (x.xs.sent.toNat < x.planSent → exec (.xend t) s₀ = .next (s.tileFault t 3 0x0D 0x04000000 (x.slot .x))) ∧
      (x.planSent ≤ x.xs.sent.toNat → ∃ s', exec (.xend t) s₀ = .next s' ∧
        (s'.tile t).sq = { x.sq with x := { v with pc := s.nextPc t .x, last := BitVec.ofNat 13 (x.slot .x), ended := true } } ∧
        (s'.tile t).xs.part = (x.xs.part || (s.job.exch && decide (x.xs.sent.toNat = x.planSent ∧
          x.xs.recv.toNat = x.planRecv ∧ x.xs.meet = x.planMeet))) ∧
        (s'.tile t).sp = x.sp ∧ (s'.tile t).xs.sent = x.xs.sent ∧ ∀ u, u ≠ t → s'.tile u = s.tile u)))

/-- XSEND, XRSEND and XNORM in a clear tile with room, a route entry in the table that passes R236, rows in range and bytes within the plan: the send is in flight with its entry; XNORM takes TILE_SSQ's sum and clears it. An entry that fails raises DEST with the reason and entry, too many bytes raise OVERRUN reason 0x03. SEND_COMPLETE with an XSEND or XRSEND oldest by a local entry, in a quiet tile, checks off, outside the tick of a stop: one packet for each row and destination tile of the entry's rectangles is on the mesh, XSENT grows by 512 bytes a row, and the send is no longer in flight. -/
def Obligations.XSends : Prop :=
  (∀ e ∈ ([(0xC00, Instr.xsend, 0), (0xC10, .xrsend, 1), (0xC20, .xnorm, 1)] : List (Nat × (Nat → Instr) × Nat)),
    ∀ (s₀ : State) (t : Nat) (w : Word), keyOf w = e.1 →
      let s := s₀.enter t .x
      s.Issues t .x w [] → s.Clear t → s.soundChk 0 = false →
      (s.tile t).io.out.length < 32 → (s.tile t).hasRoute (fld w 39 8) = true →
      let x := s.tile t
      let en := fld w 39 8
      let k := wordsOf ((x.rows (fld (x.reg 0x28) 0 10 + en / 8) 1).drop (64 * (en % 8))) 8
      let norm := decide (e.1 = 0xC20)
      let n := if norm then 1 else fld w 11 8 + 1
      let lo := fld w 29 10 + (Map.get 0 x.sq.x.l (fld w 27 2)).toNat * fld w 19 8
      let reason := s.routeReason k (some e.2.2) (rDrow k) (rDrow k) n
      let faults := fun (cause detail : Nat) => ∃ s', exec (e.2.1 t) s₀ = .next s' ∧
        (s'.tile t).fault = tileFaultWord x.fault 3 cause detail (x.slot .x)
      (∀ r, reason = some r → faults 0x07 (r * 2 ^ 24 + en)) ∧
      (reason = none → (norm = true ∨ lo + n ≤ 768) →
        (x.planSent < x.xs.sent.toNat + x.leaving + xBytes w → faults 0x0D 0x03000000) ∧
        (x.xs.sent.toNat + x.leaving + xBytes w ≤ x.planSent → ∃ s' o, exec (e.2.1 t) s₀ = .next s' ∧
          (s'.tile t).io.out = x.io.out ++ [o] ∧ o.w = w ∧ o.q = .x ∧ o.dat = k.flatMap wordBytes ∧
          o.v = [if norm then place 0 32 (fld x.misc.ssq 0 32) else BitVec.ofNat 64 lo] ∧
          (s'.tile t).misc.ssq = (if norm then 0 else x.misc.ssq) ∧
          (s'.tile t).sq = { x.sq with x := { x.sq.x with pc := s.nextPc t .x, last := BitVec.ofNat 13 (x.slot .x) } } ∧
          (s'.tile t).sp = x.sp ∧ s'.net = s.net ∧ s'.job = s.job ∧ ∀ u, u ≠ t → s'.tile u = s.tile u))) ∧
  (∀ (s : State) (t : Nat) (o : Op) (rest : List Op), t < 2304 → s.sameTick = false → (s.tile t).io.out = o :: rest →
    (∀ p ∈ rest, p.id ≠ o.id) → s.Quiet t o.id → s.soundChk 2 = false → (fld o.w 56 8 = 0xC0 ∨ fld o.w 56 8 = 0xC1) →
    let x := s.tile t
    let k := wordsOf o.dat 8
    let n := fld o.w 11 8 + 1
    let lo := (o.v.headD 0).toNat
    let proto : Pkt := { smod := s.modid, stile := t, src := t, int := decide (fld o.w 56 8 = 0xC1) && bit o.w 10 }
    rRemote k = false → ∃ s', exec (.sendComplete t) s = .next s' ∧ (s'.tile t).io.out = rest ∧
      (s'.tile t).xs.sent = x.xs.sent + BitVec.ofNat 32 (512 * n) ∧ (s'.tile t).sp = x.sp ∧ (s'.tile t).sq = x.sq ∧
      s'.net.pkts = s.net.pkts ++ (List.range n).flatMap (fun i => (unionTiles (rRects k)).map fun u =>
        { x.rowPkt k proto lo n (x.rows lo n) i with dmod := s.modid, rects := [rectOf u] }) ∧
      ∀ u, u ≠ t → s'.tile u = s.tile u)

/-- EXCHANGE_LANDING of a row packet at the front of its flow and of the links of its way, its way awake, at a clear tile that takes packets, checks off, outside the tick of a stop, completes. Within the plan and, at the last row of its block, with a matching check value: the tile's row holds the data, every other byte of the scratchpad is as before, XRECV grows by 512, and an aligned block of eight rows leaves its check value as a valid seal. A mismatch raises CRC place 7. More than the plan raises OVERRUN reason 0x02 and lands nothing. A packet that waits, or whose tile takes none, stays. A flit of any packet whose mesh check value mismatches at a link of its way is lost and is a region fault; no packet has a flit at another link. -/
def Obligations.RowsLand : Prop :=
  (∀ (s : State) (i : Nat) (p : Pkt) (m : MeshErr), s.net.pkts[i]? = some p →
    exec (.exchangeLanding i (some m)) s = .next (if (m.rtr, m.lnk) ∈ meshPath p.src p.tile then (s.dropPkt i).meshCrc m else s)) ∧
  (∀ (s : State) (i : Nat) (p : Pkt), s.net.pkts[i]? = some p → p.kind = 0 →
    (s.pktFirst i p = false ∨ s.landsAt p.tile = false → exec (.exchangeLanding i none) s = .next s) ∧
    (s.pktFirst i p = true → s.landsAt p.tile = true → s.sameTick = false →
      p.one = false → s.Clear p.tile → s.soundChk 0 = false → s.soundChk 2 = false →
      let t := p.tile
      let x := s.tile t
      let b := (growBlk x.xs.blks [p.smod, p.stile, 0] p.row p.first 512 p.data).1
      (x.planRecv < x.xs.recv.toNat + 512 → ∃ s', exec (.exchangeLanding i none) s = .next s' ∧
        (s'.tile t).fault = tileFaultWord x.fault 4 0x0D 0x02000000 0) ∧
      (x.xs.recv.toNat + 512 ≤ x.planRecv →
        (p.last = false ∨ crc32c b.data = p.crc → ∃ s', exec (.exchangeLanding i none) s = .next s' ∧
          x.Wrote (s'.tile t) p.row (padTo 512 p.data) ∧ (s'.tile t).xs.recv = x.xs.recv + 512 ∧
          s'.net.pkts = s.net.pkts.eraseIdx i ∧ (s'.tile t).sq = x.sq ∧ (s'.tile t).am = x.am ∧
          (p.last = true → b.row0 % 8 = 0 → b.data.length = 4096 →
            Map.get false (s'.tile t).misc.sealV (b.row0 / 8) = true ∧ Map.get 0 (s'.tile t).misc.sealE (b.row0 / 8) = p.crc) ∧
          ∀ u, u ≠ t → s'.tile u = s.tile u) ∧
        (p.last = true → crc32c b.data ≠ p.crc → ∃ s', exec (.exchangeLanding i none) s = .next s' ∧
          (s'.tile t).fault = tileFaultWord x.fault 4 0x0A (7 * 2 ^ 24 + b.row0 * 2 ^ 8) 0))))

/-- CONTRIBUTION_ARRIVAL of a packet at the front of its flow, at a tile that takes packets, for a meet entry that exists, of a kind that is not reserved, with a CIX below the fan-in that has not come: with every slot taken it waits; else the row notes it, and with the last row of a block whose check value matches the block reaches its sums (meetBlock). A block that mismatches raises CRC place 8; a CIX out of range or come before OVERRUN reason 0x05. Two contributions to a fresh row give the same sum in either order of arrival: the second CIX added to the first. Outside the tick of a stop. MEET_RESULT_OUTPUT of a row that holds every contribution, lowest of those ready, within the plan, of kind FORWARD, in a clear tile: by a local entry that passes R236 MEET grows by one, the row is out, and one packet for each destination tile carries the sum; by one that fails it raises DEST, sends and counts nothing. Beyond the plan it raises OVERRUN reason 0x06. NORM_DELIVERY with a matching check value, first of its phase, with no relay: NORM holds the value and the superstep, XRECV grows by 16. STALE_FETCH_REPORT clears the row's tag, and with the check on and a changed write count raises HAZARD kind 2. -/
def Obligations.CombineUnit : Prop :=
  (
    (∀ (s : State) (i : Nat) (p : Pkt), s.net.pkts[i]? = some p → p.kind = 1 → s.pktFirst i p = true → s.landsAt p.tile = true →
      s.sameTick = false → (s.tile p.tile).spBad = [] →
      let t := p.tile
      let x := s.tile t
      let w := x.meetWord p.meete
      let m := findMeet x.xs.rows p.meete p.rix
      let size := if p.one then 128 else 512
      let g := growBlk x.xs.blks [p.smod, p.stile, 1, p.meete, p.cix] p.rix p.first size p.data
      let noted := setMeet x.xs.rows (m.note (mInt w) p)
      let r := meetBlock (mInt w) p.meete p.cix (chunks size (g.1.data.length / size) g.1.data) g.1.row0 noted 0
      let faults := fun (cause detail : Nat) => ∃ s', exec (.contributionArrival i) s = .next s' ∧
        (s'.tile t).fault = tileFaultWord x.fault 4 cause detail 0
      let takes := fun (rows : List MeetRow) (blks : List Blk) (sat : Nat) => ∃ s', exec (.contributionArrival i) s = .next s' ∧
        (s'.tile t).xs.rows = rows ∧ (s'.tile t).xs.blks = blks ∧ s'.net.pkts = s.net.pkts.eraseIdx i ∧
        Map.get 0 (s'.tile t).ctr 0x310 = Map.get 0 x.ctr 0x310 + BitVec.ofNat 64 sat ∧ (s'.tile t).sp = x.sp ∧
        ∀ u, u ≠ t → s'.tile u = s.tile u
      (x.meetCount ≤ p.meete ∨ mKind w = 3 ∨ mFan w ≤ p.cix ∨ p.cix ∈ m.got → faults 0x0D (5 * 2 ^ 24 + p.meete * 2 ^ 8 + p.rix)) ∧
      (p.meete < x.meetCount → mKind w ≠ 3 → p.cix < mFan w → p.cix ∉ m.got →
        (s.pktWaits p = true → exec (.contributionArrival i) s = .next s) ∧
        (s.pktWaits p = false → p.last = true → crc32c g.1.data ≠ p.crc → faults 0x0A (8 * 2 ^ 24 + g.1.row0 * 2 ^ 8)) ∧
        (s.pktWaits p = false → p.int = mInt w →
          (p.last = false → takes noted (g.2 ++ [g.1]) 0) ∧
          (p.last = true → crc32c g.1.data = p.crc → takes r.1 g.2 r.2)))) ∧
    (∀ (int : Bool) (e rix : Nat) (d0 d1 : List Byte),
      let a := meetTake int (meetTake int [] e rix 0 d0).1 e rix 1 d1
      let b := meetTake int (meetTake int [] e rix 1 d1).1 e rix 0 d0
      (findMeet a.1 e rix).sum = (addLanes int (lanesOf d0) (lanesOf d1)).1 ∧ (findMeet b.1 e rix).sum = (findMeet a.1 e rix).sum ∧
      (findMeet a.1 e rix).next = 2 ∧ (findMeet b.1 e rix).next = 2)) ∧
  (
    (∀ (s : State) (t e rix : Nat) (m : MeetRow), t < 2304 → s.sameTick = false →
      let x := s.tile t
      let w := x.meetWord e
      (x.xs.rows.find? fun m => decide (m.e = e ∧ m.rix = rix)) = some m → m.out = false → m.next = mFan w → s.job.js ≠ 6 → x.st ≠ 8 →
      (∀ k ∈ x.xs.rows, (k.e < e ∨ (k.e = e ∧ k.rix < rix)) → k.out = true ∨ k.next ≠ mFan (x.meetWord k.e)) →
      s.Clear t → s.soundChk 0 = false → mKind w = 1 →
      let k := wordsOf ((x.rows (fld (x.reg 0x28) 0 10 + mOnrt w / 8) 1).drop (64 * (mOnrt w % 8))) 8
      (x.planMeet < x.xs.meet + 1 → exec (.meetResultOutput t e rix) s = .next (s.tileFault t 4 0x0D (6 * 2 ^ 24 + e * 2 ^ 8 + rix) 0)) ∧
      (x.xs.meet + 1 ≤ x.planMeet → x.hasRoute (mOnrt w) = true →
        (∀ n, s.routeReason k none (rDrow k + rix) rix 1 = some n → ∃ s', exec (.meetResultOutput t e rix) s = .next s' ∧
          (s'.tile t).fault = tileFaultWord x.fault 4 0x07 (n * 2 ^ 24 + mOnrt w) 0 ∧ s'.net.pkts = s.net.pkts ∧
          (s'.tile t).xs.meet = x.xs.meet) ∧
        (m.wild = false → s.routeReason k none (rDrow k + rix) rix 1 = none →
          rRemote k = false → ∃ s', exec (.meetResultOutput t e rix) s = .next s' ∧ (s'.tile t).xs.meet = x.xs.meet + 1 ∧
            (s'.tile t).xs.rows = setMeet x.xs.rows { m with out := true } ∧ (s'.tile t).sp = x.sp ∧
            ∃ p : Pkt, p.data = lanesBytes m.sum ∧ p.row = rDrow k + rix ∧ p.kind = rKind k ∧ p.src = t ∧
              s'.net.pkts = s.net.pkts ++ (unionTiles (rRects k)).map fun u => { p with dmod := s.modid, rects := [rectOf u] }))) ∧
    (∀ (s : State) (i : Nat) (p : Pkt), s.net.pkts[i]? = some p → p.kind = 2 → s.pktFirst i p = true → s.landsAt p.tile = true →
      s.sameTick = false → (s.tile p.tile).spBad = [] → crc32c p.data = p.crc → (s.tile p.tile).xs.norms = 0 →
      (s.tile p.tile).xs.recv.toNat + 16 ≤ (s.tile p.tile).planRecv → (∀ k < 7, bit ((s.tile p.tile).reg 0x410) (56 + k) = false) →
      ∃ s', exec (.normDelivery i) s = .next s' ∧
        (s'.tile p.tile).misc.norm = place 32 32 s.job.sstep.toNat ||| place 0 32 (leNat (p.data.take 4)) ∧
        (s'.tile p.tile).xs.recv = (s.tile p.tile).xs.recv + 16 ∧ s'.net.pkts = s.net.pkts.eraseIdx i ∧
        (s'.tile p.tile).sp = (s.tile p.tile).sp ∧ ∀ u, u ≠ p.tile → s'.tile u = s.tile u) ∧
    (∀ (s : State) (t row : Nat), t < 2304 →
      let x := s.tile t
      let g := Map.get 0 x.misc.pfTag row
      (g ≤ 64 → exec (.staleFetchReport t row) s = .next s) ∧
      (64 < g → s.soundChk 1 = false ∨ (∀ c ∈ Map.get [] x.misc.pfCnt row, Map.get 0 (s.stk c.1).wcnt c.2.1 = c.2.2) →
        ∃ s', exec (.staleFetchReport t row) s = .next s' ∧ Map.get 0 (s'.tile t).misc.pfTag row = 0 ∧ (s'.tile t).fault = x.fault ∧
          (s'.tile t).sp = x.sp ∧ ∀ u, u ≠ t → s'.tile u = s.tile u) ∧
      (64 < g → s.soundChk 1 = true → (∃ c ∈ Map.get [] x.misc.pfCnt row, Map.get 0 (s.stk c.1).wcnt c.2.1 ≠ c.2.2) →
        ∃ s', exec (.staleFetchReport t row) s = .next s' ∧ (s'.tile t).fault = tileFaultWord x.fault ((g - 1) / 64 % 8 - 1) 0x0E
          (0x02000000 + (g - 1) % 64 * 2 ^ 10 + row % 1024) ((g - 1) / 512))))

/-- ARRIVAL_WAVE_RELEASE, once the agreed step has reached a member that has reported, lets every arrived tile of the job enter EXCHANGE, keeps the step for its superstep; before that it changes nothing. DONE_WAVE_RELEASE, once released, ends the exchange phase: SSTEP and the completed supersteps grow by one, the placement epoch by one where the phase is marked, the job step takes the one agreed, every tile's counts are zero and TILE_XPHASE_NS shows the time of its part. OVERRUN_LIMIT_EXPIRY of a tile whose part is not complete, and SYNC_WDOG_EXPIRY of a wait that holds, with no limit suspended, fault as R255 and R285 name. -/
def Obligations.WavesOfASuperstep : Prop :=
  (∀ s : State, s.job.js ≠ 4 ∨ s.job.wave.go = none ∨ s.job.wave.arrSent = false ∨ s.job.exch = true →
    exec .arrivalWaveRelease s = .next s) ∧
  (∀ (s : State) (n : Nat), s.job.js = 4 → s.job.wave.go = some n → s.job.wave.arrSent = true → s.job.exch = false →
    ∃ s', exec .arrivalWaveRelease s = .next s' ∧ s'.job.exch = true ∧
      s'.job.wave.pauseReq = s.job.wave.pauseReq ∧ s'.job.wave.haltReq = s.job.wave.haltReq ∧ s'.job.wave.go = none ∧ s'.job.wave.arrSent = false ∧
      s'.power.pj2 = some n ∧ s'.job.sstep = s.job.sstep ∧
      (∀ t ∈ s.job.tiles, (s'.tile t).st = if (s.tile t).st = 4 then 5 else (s.tile t).st) ∧
      (∀ t, t ∉ s.job.tiles → s'.tile t = s.tile t) ∧
      ∀ t, (s'.tile t).sp = (s.tile t).sp ∧ (s'.tile t).am = (s.tile t).am ∧ (s'.tile t).sq = (s.tile t).sq) ∧
  (∀ s : State, s.job.js ≠ 4 ∨ s.job.exch = false ∨ s.job.wave.done = false → exec .doneWaveRelease s = .next s) ∧
  (∀ s : State, s.job.js = 4 → s.job.exch = true → s.job.wave.done = true → s.job.epoch + 1 < 2 ^ 32 → s.soundChk 0 = false →
    ∃ s', exec .doneWaveRelease s = .next s' ∧ s'.job.sstep = s.job.sstep + 1 ∧ s'.job.steps = s.job.steps + 1 ∧
      s'.job.exch = false ∧ s'.job.epoch = (if s.job.permuteAt s.job.sstep.toNat then s.job.epoch + 1 else s.job.epoch) ∧
      s'.power.jstep = s.power.pj.getD s.power.jstep ∧ s'.power.pj = s.power.pj2 ∧ s'.power.pj2 = none ∧
      (∀ t ∈ s.job.tiles, (s'.tile t).xs.sent = 0 ∧ (s'.tile t).xs.recv = 0 ∧ (s'.tile t).xs.meet = 0 ∧ (s'.tile t).xs.part = false ∧
        (s'.tile t).sq.x.ended = false ∧ Map.get 0 (s'.tile t).ctr 0x610 = BitVec.ofNat 64 (s.tile t).xs.partNs) ∧
      ∀ t, (s'.tile t).am = (s.tile t).am) ∧
  (∀ (s : State) (t : Nat), t < 2304 → (s.tile t).st = 5 → s.job.exch = true → (s.tile t).xs.part = false → s.job.js = 4 →
    s.suspended = false → exec (.overrunLimitExpiry t) s = .next (s.tileFault t 4 0x0D 0x01000000 0)) ∧
  (∀ (s : State) (t : Nat) (q : Strm), t < 2304 → s.job.js = 4 → t ∈ s.job.tiles → s.suspended = false →
    ((s.tile t).st = 4 → exec (.syncWdogExpiry t 0 q) s = .next (s.devFault 0x40 (t + 4 * 2 ^ 12))) ∧
    ((s.tile t).st = 5 → s.job.exch = true → (s.tile t).xs.part = true →
      exec (.syncWdogExpiry t 1 q) s = .next (s.devFault 0x40 (t + 4 * 2 ^ 12 + 2 ^ 16))) ∧
    (∀ k, (k = 2 ∨ k = 3) → s.waitsIn t k q = true →
      exec (.syncWdogExpiry t k q) s = .next (s.devFault 0x40 (t + Strm.code q * 2 ^ 12 + k * 2 ^ 16))))

/-- BALLAST_RAMP_STEP of a region of a running job, before the done wave: each of the job's tiles there that has arrived loses one sixty-fourth of duty, or gains one, up to where it began, once all of them have reported their part complete; nothing else changes. BALLAST_QUANTUM of an arrived tile that has not run its quantum, its slice's reads without parity error: before the done wave it is noted as run and nothing else changes; a result that mismatches raises BALLAST with the unit and the slice. -/
def Obligations.BallastRampsAndChecks : Prop :=
  (∀ (s : State) (r : Nat), r < 16 → s.job.js ≠ 4 → exec (.ballastRampStep r) s = .next s) ∧
  (∀ (s : State) (r : Nat), r < 16 → s.job.js = 4 → s.job.wave.doneAt = false → s.job.tiles.Nodup →
    let up := s.job.exch && (s.job.tiles.filter fun t => decide (regionOf t = r)).all fun t => (s.tile t).xs.part
    ∃ s', exec (.ballastRampStep r) s = .next s' ∧
      (∀ t ∈ s.job.tiles, regionOf t = r → ((s.tile t).st = 4 ∨ (s.tile t).st = 5) → s'.tile t = { s.tile t with
        misc := { (s.tile t).misc with
          duty := if up then min (s.tile t).misc.d0 ((s.tile t).misc.duty + 1) else (s.tile t).misc.duty - 1 } }) ∧
      (∀ t, (t ∉ s.job.tiles ∨ regionOf t ≠ r ∨ ((s.tile t).st ≠ 4 ∧ (s.tile t).st ≠ 5)) → s'.tile t = s.tile t) ∧
      { s' with tiles := s.tiles } = s) ∧
  (∀ (s : State) (t : Nat), t < 2304 → s.job.js = 4 → ((s.tile t).st = 4 ∨ (s.tile t).st = 5) → (s.tile t).misc.quantum = false →
    (s.tile t).sliceParity s.slice = [] →
    (s.job.wave.doneAt = false → exec (.ballastQuantum t none) s =
      .next (s.modTile t fun y => y.modMisc fun m => { m with quantum := true })) ∧
    ∀ u, ∃ s', exec (.ballastQuantum t (some u)) s = .next s' ∧
      (s'.tile t).fault = tileFaultWord (s.tile t).fault 4 0x0C (u % 256 * 2 ^ 24 + s.slice) 0)

/-- LLYN_DETECT_POLL, LLYN_TRAIN_LOCK, LLYN_TRAIN_TIMEOUT, LLYN_TRAIN_RETRY, FRAME_LOCK_LOSS, LLYN_RETRAIN_DONE and LLYN_RETRAIN_TIMEOUT act in the states they belong to and change nothing in any other: DETECT to TRAIN once seen, TRAIN to PARAM with the port's LINK symbols queued, TRAIN or PARAM to DOWN, DOWN to TRAIN where the port may run, UP to RETRAIN with its replay buffer kept, RETRAIN to UP with the buffer to resend or to DOWN with replay buffer and credits discarded and whole received packets kept; exchange packets that wait for a port that goes DOWN take the group's next UP port; a DOWN that loses job flits not acknowledged stops the loaded job with LINK_DOWN. Every other port is as before, and the job but for the measured latency of tree edges over the port. -/
def Obligations.LlynLinkStates : Prop :=
  ∀ (s : State) (p : Nat), p < 32 →
    let x := s.port p
    let goes := fun (c : Instr) (f : Port → Prop) => ∃ s', exec c s = .next s' ∧ f (s'.port p) ∧
      (∀ k, k ≠ p → s'.port k = s.port k) ∧ { s'.job with cfg := s.job.cfg } = s.job ∧
      (∀ o, (∀ e ∈ s.edges, e.2.2 = p → o ≠ 0x10200 + 8 * e.1) → s'.job.reg o = s.job.reg o) ∧ s'.tiles = s.tiles
    let still := s.job.img = none ∧ s.stow.busy = false ∧ x.rx.tx = [] ∧ ∀ e ∈ s.net.rmsg, e.1 ≠ p
    let alone := still ∧ ∀ e ∈ s.net.rport, e.1 ≠ p
    let down := fun (reason : Nat) (y : Port) => y.st = 6 ∧ y.reason = reason ∧
      y.rx = { buf := wholePackets x.rx.buf, last := x.rx.last } ∧ Map.get 0 y.ctr 0x140 = Map.get 0 x.ctr 0x140 + 1
    let acts := fun (st : Nat) (c : Instr) (f : Port → Prop) => (x.st = st → goes c f) ∧ (x.st ≠ st → exec c s = .next s)
    acts 1 (.llynDetectPoll p true) (fun y => y = { x with st := 2 }) ∧
    acts 1 (.llynDetectPoll p false) (fun y => y = { x with reason := 1 }) ∧
    acts 2 (.llynTrainLock p) (fun y => y.st = 3 ∧ y.lanes = 0xFF ∧ y.aligns = 0 ∧ y.seen = [] ∧ y.rx = { x.rx with syms := s.linkSyms p }) ∧
    (x.st ≠ 2 → x.st ≠ 3 → exec (.llynTrainTimeout p) s = .next s) ∧
    (x.st = 2 → alone → goes (.llynTrainTimeout p) (down 2)) ∧
    (x.st = 3 → alone → goes (.llynTrainTimeout p) (down (if x.reason = 3 ∨ x.reason = 4 then x.reason else 2))) ∧
    (x.st = 6 → s.portAllowed p = true → goes (.llynTrainRetry p) fun y => y = { x with st := 2 }) ∧
    (x.st ≠ 6 ∨ s.portAllowed p = false → exec (.llynTrainRetry p) s = .next s) ∧
    acts 4 (.frameLockLoss p) (fun y => y.st = 5 ∧ y.reason = 5 ∧ y.rx = x.rx ∧ Map.get 0 y.ctr 0x138 = Map.get 0 x.ctr 0x138 + 1) ∧
    acts 5 (.llynRetrainDone p) (fun y => y.st = 4 ∧ y.rx = { x.rx with disc := 0, resend := x.rx.replay }) ∧
    (x.st ≠ 5 → exec (.llynRetrainTimeout p) s = .next s) ∧
    (x.st = 5 → alone → goes (.llynRetrainTimeout p) (down 7)) ∧
    (x.st = 5 → still → ∀ q, s.nextUp p = some q → ∃ s', exec (.llynRetrainTimeout p) s = .next s' ∧
      s'.net.rport = s.net.rport.filter (fun e => e.1 != p) ++ (s.net.rport.filter fun e => e.1 == p).map fun e => (q, e.2)) ∧
    (x.st = 5 → s.job.img.isSome = true → s.job.js ≠ 6 → x.rx.replay.any Frame.hasJob = true →
      ∃ s', exec (.llynRetrainTimeout p) s = .next s' ∧ (s'.port p).st = 6 ∧ s'.job.js = 6 ∧ s'.job.prim.level = 3 ∧
        s'.job.prim.cause = 0x42 ∧ s'.job.prim.detail = p + 7 * 2 ^ 8)

/-- LINK_FRAME_SEND of a port in PARAM or UP: a frame to resend goes first, with its header written fresh and RPL set; else a new frame of seven slots takes the next SEQ, acknowledges the last frame accepted, carries the symbol that waits first, and stands in the replay buffer; its bytes are those of R334. LLYN_FRAME_RECEIVE: a frame with an error, or out of sequence, is discarded and asked for again, the eighth time in UP the port retrains; one in sequence is accepted with its job flits. REMOTE_PACKET_INGRESS, with no transit packet waiting at the port, hands the oldest packet for this module to the mesh, one copy for each tile, or faults the edge tile for R30. TRANSIT_PACKET moves the oldest packet for another module to its egress port once every region on the way is awake, and waits before. -/
def Obligations.FramesAndPackets : Prop :=
  ∀ (s : State) (p : Nat), p < 32 →
    let x := s.port p
    let rx := x.rx
    let live := x.st = 3 ∨ x.st = 4
    (¬ live → exec (.linkFrameSend p) s = .next s ∧ ∀ fr q, exec (.llynFrameReceive p fr q) s = .next s) ∧
    (live → ∀ f rest, rx.resend = f :: rest → ∃ s', exec (.linkFrameSend p) s = .next s' ∧ (s'.port p).rx.resend = rest ∧
      (s'.port p).rx.last = Frame.bytes { f with ack := rx.ackRx, nak := rx.nak, rpl := true, crJ0 := rx.freed.getD 0 0 % 1024, crJ1 := rx.freed.getD 1 0 % 1024, crSt := rx.freed.getD 2 0 % 1024 } ∧
      (s'.port p).rx.seq = rx.seq ∧ Map.get 0 (s'.port p).ctr 0x130 = Map.get 0 x.ctr 0x130 + 1 ∧ ∀ k, k ≠ p → s'.port k = s.port k) ∧
    (live → rx.resend = [] → ∃ s' f, exec (.linkFrameSend p) s = .next s' ∧ (s'.port p).rx.last = f.bytes ∧ f.seq = rx.seq ∧
      f.ack = rx.ackRx ∧ f.rpl = false ∧ f.sym = rx.syms.head? ∧ f.flits.length = 7 ∧ (s'.port p).rx.seq = (rx.seq + 1) % 4096 ∧
      (s'.port p).rx.syms = rx.syms.drop 1 ∧ (s'.port p).rx.replay.getLast? = some f ∧ (∀ k, k ≠ p → s'.port k = s.port k) ∧
      s'.tiles = s.tiles ∧ s'.job = s.job) ∧
    (live → ∀ fr q, q.bad 8 = true → rx.disc + 1 < 8 → ∃ s', exec (.llynFrameReceive p fr q) s = .next s' ∧
      (s'.port p).rx.nak = true ∧ (s'.port p).rx.ackRx = rx.ackRx ∧ (s'.port p).rx.buf = rx.buf ∧ (s'.port p).st = x.st ∧
      Map.get 0 (s'.port p).ctr 0x120 = Map.get 0 x.ctr 0x120 + BitVec.ofNat 64 (q.ue 8)) ∧
    (x.st = 4 → ∀ fr q, q.bad 8 = true → rx.disc = 7 → fr.seq = (rx.ackRx + 1) % 4096 → ∃ s',
      exec (.llynFrameReceive p fr q) s = .next s' ∧ (s'.port p).st = 5 ∧ (s'.port p).reason = 6 ∧ (s'.port p).rx.replay = rx.replay) ∧
    (live → ∀ fr q, q.bad 8 = false → fr.seq ≠ (rx.ackRx + 1) % 4096 → ∃ s', exec (.llynFrameReceive p fr q) s = .next s' ∧
      (s'.port p).rx.nak = true ∧ (s'.port p).rx.ackRx = rx.ackRx ∧ (s'.port p).rx.buf = rx.buf) ∧
    (live → ∀ fr q, q.bad 8 = false → fr.seq = (rx.ackRx + 1) % 4096 → fr.sym = none →
      ∃ s', exec (.llynFrameReceive p fr q) s = .next s' ∧ (s'.port p).rx.nak = false ∧ (s'.port p).rx.ackRx = fr.seq ∧
        (s'.port p).rx.buf = rx.buf ++ fr.flits.filter (fun f => decide (f.vc ≤ 1)) ∧ (s'.port p).rx.replay = (rx.header fr).replay ∧
        (s'.port p).rx.cred = (rx.header fr).cred ∧ ∀ k, k ≠ p → s'.port k = s.port k) ∧
    (∀ vc l, rx.frontBy (fun r => decide (recDmod r = s.modid)) = some (vc, l) →
      (s.transitWaits p = true ∨ (s.region (p / 2)).pwr ≠ 0 → exec (.remotePacketIngress p) s = .next s) ∧
      (s.transitWaits p = false → (s.region (p / 2)).pwr = 0 → 3 ≤ s.job.js → s.job.js ≤ 6 →
        let r := chunksOf l
        let k := recPkt r (payOf l)
        let rest := fun (s' : State) => (s'.port p).rx.buf = dropFlits vc l.length rx.buf ∧
          (s'.port p).rx.freed = addAt rx.freed vc l.length ∧ s'.tiles = s.tiles
        (recType r ≠ 3 → (unionTiles k.rects).any s.breaksR30 = false → ∃ s', exec (.remotePacketIngress p) s = .next s' ∧ rest s' ∧
          s'.net.pkts = s.net.pkts ++ (unionTiles k.rects).map fun t => { k with src := edgeTile p, rects := [rectOf t] }) ∧
        (recType r = 3 → s.breaksR30 (bitsAt r 48 12) = false → ∃ s', exec (.remotePacketIngress p) s = .next s' ∧ rest s' ∧
          ∃ m : Msg, m.bytes = wordBytes m.h0 ++ wordBytes m.h1 ++ (payOf l).drop 16 ∧ m.h0 = wordAt (payOf l) 0 ∧
            m.h1 = wordAt (payOf l) 8 ∧ s'.net.msgs = s.net.msgs ++ [m]) ∧
        (recType r ≠ 3 → (unionTiles k.rects).any s.breaksR30 = true → ∃ s', exec (.remotePacketIngress p) s = .next s' ∧
          (s'.tile (edgeTile p)).fault = tileFaultWord (s.tile (edgeTile p)).fault 4 0x07 (3 * 2 ^ 24) 0))) ∧
    (∀ vc l q, rx.frontBy (fun r => decide (recDmod r ≠ s.modid)) = some (vc, l) → s.transitRoute (chunksOf l) = .inr q →
      ((∃ c ∈ transitRegions p q, (s.region c).pwr ≠ 0) → exec (.transitPacket p) s = .next s) ∧
      ((∀ c ∈ transitRegions p q, (s.region c).pwr = 0) → s.transitWaits p = false → ∃ s', exec (.transitPacket p) s = .next s' ∧
        (s'.port p).rx.buf = dropFlits vc l.length rx.buf ∧
        (s'.port q).rx.tx = (s.port q).rx.tx ++ l.map (fun f => { f with vc := if vc = 1 ∨ (s.port q).dl then 1 else 0 }) ∧
        s'.net = s.net ∧ s'.tiles = s.tiles))

/-- On a port that is UP, for this module with a job loaded: ARRIVE and GO with a step of 16 to 64, PART and DONE are held; SYMBOL_HOLD_RELEASE of the first of its port lets an ARRIVE or PART of a child count as its report, and the parent's GO or DONE reach this member. For another module they go on to the port of the route. A step out of range is ignored and counted. STOP stops the job with REMOTE, the origin and code; FIX sets the latch tick ahead, or latches late. ALIGN of a replayed frame is ignored; a receive stamp is paired with the oldest send stamp, the far stamp completes an exchange with its delay after the calibrated latency, and the sixteenth, the checks passed, brings a port in PARAM UP. LINK in PARAM checks the fabric. ALIGN_EXCHANGE_TIMER queues the port's stamps. -/
def Obligations.SymbolsAct : Prop :=
  (∀ (s : State) (p dmod smod n : Nat), p < 32 → (s.port p).st = 4 →
    let held := fun (c : Instr) (y : Sym) => ∃ s', exec c s = .next s' ∧ s'.job.wave.held = s.job.wave.held ++ [(p, y)] ∧
      s'.job.wave.go = s.job.wave.go ∧ s'.job.wave.done = s.job.wave.done ∧ s'.tiles = s.tiles ∧ s'.ports = s.ports
    (dmod % 1024 = s.modid → s.job.img.isSome = true →
      (16 ≤ n → n ≤ 64 → held (.arrive p dmod smod n) (Sym.mk5 1 dmod smod n) ∧ held (.go p dmod smod n) (Sym.mk5 2 dmod smod n)) ∧
      held (.part p dmod smod) (Sym.mk5 3 dmod smod 0) ∧ held (.done p dmod smod) (Sym.mk5 4 dmod smod 0) ∧
      ∀ code, s.job.js ≠ 6 → ∃ s', exec (.stop p dmod smod code) s = .next s' ∧ s'.job.js = 6 ∧ s'.job.prim.cause = 0x4F ∧
        s'.job.prim.detail = smod % 1024 + code % 256 * 2 ^ 16 ∧ s'.job.prim.origin = smod % 1024) ∧
    (dmod % 1024 ≠ s.modid → ∀ k, s.route (dmod % 1024) (smod % 1024) true = .inr k →
      exec (.part p dmod smod) s = .next (s.queueSym k (Sym.mk5 3 dmod smod 0)) ∧
      exec (.done p dmod smod) s = .next (s.queueSym k (Sym.mk5 4 dmod smod 0)) ∧
      ∀ code, exec (.stop p dmod smod code) s = .next (s.queueSym k (Sym.mk5 5 dmod smod code))) ∧
    (n < 16 ∨ (64 < n ∧ n < 256) → exec (.arrive p dmod smod n) s = .next (s.countPort p 0x150 1) ∧
      exec (.go p dmod smod n) s = .next (s.countPort p 0x150 1)) ∧
    (dmod % 1024 = s.modid → s.dbg.latched = false → s.dbg.pendSrc = none → ∀ tick,
      ∃ s', exec (.fix p dmod tick false) s = .next s' ∧ s'.job = s.job ∧ s'.tiles = s.tiles ∧
        (s.now < fixTickOf s.now tick → s'.dbg.latched = false ∧ s'.dbg.pendSrc = some 5 ∧ s'.dbg.pendTick = fixTickOf s.now tick) ∧
        (fixTickOf s.now tick ≤ s.now → s'.dbg.latched = true ∧ s'.dbg.late = true ∧ s'.dbg.src = 5))) ∧
  (∀ (s : State) (i q : Nat) (y : Sym), s.job.wave.held[i]? = some (q, y) → (∀ h ∈ s.job.wave.held.take i, h.1 ≠ q) →
    ∃ s', exec (.symbolHoldRelease i) s = .next s' ∧ s'.job.wave.held = s.job.wave.held.eraseIdx i ∧ s'.tiles = s.tiles ∧
      (∀ e, s.childEdges.find? (fun e => decide (e.2.1 = Sym.smod y)) = some e →
        (y.code = 1 → (e.2.2, Sym.low y) ∈ s'.job.wave.arrFrom) ∧ (y.code = 3 → e.2.2 ∈ s'.job.wave.partFrom)) ∧
      ((∃ e, s.parentEdge = some e ∧ e.2.1 = Sym.smod y) →
        (y.code = 2 → s.job.wave.arrSent = true → s'.job.wave.go = some (Sym.low y)) ∧
        (y.code = 4 → s.job.wave.partSent = true → s'.job.wave.done = true))) ∧
  (∀ (s : State) (p stamp : Nat) (recv : Bool), p < 32 → ((s.port p).st = 3 ∨ (s.port p).st = 4) →
    let x := s.port p
    let v := fun i => Map.get 0 x.stamps i
    let others := fun (s' : State) => ∀ k, k ≠ p → s'.port k = s.port k
    exec (.align p recv true stamp) s = .next s ∧
    (∀ k rest, x.sends = k :: rest → (v 2 = 0 ∨ v 3 = 0) → ∃ s', exec (.align p true false stamp) s = .next s' ∧ others s' ∧
      (s'.port p).sends = rest ∧ Map.get 0 (s'.port p).stamps 0 = 1 + k ∧ Map.get 0 (s'.port p).stamps 1 = 1 + stamp % 2 ^ 27) ∧
    (0 < v 0 → 0 < v 1 → ∃ s', exec (.align p false false stamp) s = .next s' ∧ (s'.port p).aligns = x.aligns + 1 ∧ others s' ∧
      (s'.port p).delayPs = BitVec.ofInt 32 ((stampDiff (v 1 - 1) (v 0 - 1) + stampDiff s.stamp (stamp % 2 ^ 27)) * 125 - Config.linkCal p) ∧
      (15 ≤ x.aligns → Map.get 0 s'.power.align p = (s'.port p).delayPs ∧
        (x.st = 3 → [0, 1, 2].all x.seen.contains = true → (s'.port p).st = 4 ∧ (s'.port p).rvalid = true))) ∧
    (x.rx.syms.length + 2 ≤ 64 → ∃ s', exec (.alignExchangeTimer p) s = .next s' ∧ (s'.port p).sends = x.sends ++ [s.stamp] ∧
      (s'.port p).rx.syms = x.rx.syms ++ { code := 7, pay := s.stamp } ::
        (if v 3 = 0 then [] else [{ code := 7, pay := 2 ^ 27 + (v 3 - 1) }]) ∧ others s') ∧
    (x.st = 3 → ∀ val, val < 2 ^ 26 → ∃ s', exec (.link p 1 val) s = .next s' ∧
      (val % 2 ^ 16 = fld s.net.modid 32 16 → 1 ∈ (s'.port p).seen) ∧
      (val % 2 ^ 16 ≠ fld s.net.modid 32 16 → (s'.port p).reason = 3 ∧ (s'.port p).st = 3)))

/-- RL_LINK_UP in TRAIN or RETRAIN brings the link UP on all lanes; RL_RETRAIN_TIMEOUT in RETRAIN takes it DOWN with the snoop filter and every waiting request gone; RL_TRAIN_RETRY in DOWN trains again; elsewhere they change nothing. RL_FRAME_RECEIVE accepts the next frame in sequence, asks again for one with an error or out of sequence, and on NAK has the frames not acknowledged sent again; LINK_FRAME_SEND sends one again with its header fresh, or a new one with up to 14 units; FRAME_LOCK_LOSS retrains with the replay buffer kept. RL_MSI_WRITE and a CFGWR of RL_MSI set a vector's address, mask and data; RL_HCW_REQUEST with a job loaded is refused with STATUS 2; with neither job nor stow nor hosted area, of a size up to 256 GiB above which the host holds no line, it sets the window's size, zeroes what the window gains, check values invalid, and leaves every other byte of the stacks; with no request waiting a CFGRD of an aligned offset below 4,096 answers the register, and every other CFGRD and CFGWR answers UR and is counted. -/
def Obligations.RiendlinkStates : Prop :=
  ∀ s : State,
    (s.rl.st = 2 ∨ s.rl.st = 5 → ∃ s', exec .rlLinkUp s = .next s' ∧ s'.rl.st = 4 ∧ s'.rl.lanes = 0xFFFF ∧ s'.rl.snoop = s.rl.snoop ∧
      s'.rl.resend = s.rl.replay ∧ s'.job = s.job ∧ s'.tiles = s.tiles) ∧
    (s.rl.st ≠ 2 → s.rl.st ≠ 5 → exec .rlLinkUp s = .next s) ∧
    (s.rl.st = 5 → s.job.img = none → ∃ s', exec .rlRetrainTimeout s = .next s' ∧ s'.rl.st = 6 ∧ s'.rl.reason = 7 ∧ s'.rl.snoop = [] ∧
      s'.rl.held = [] ∧ s'.rl.binv = [] ∧ Map.get 0 s'.rl.ctr 0x60 = Map.get 0 s.rl.ctr 0x60 + 1 ∧ s'.ports = s.ports) ∧
    (s.rl.st ≠ 5 → exec .rlRetrainTimeout s = .next s) ∧
    (s.rl.st = 6 → exec .rlTrainRetry s = .next (s.modRl fun r => { r with st := 2 })) ∧
    (s.rl.st ≠ 6 → exec .rlTrainRetry s = .next s) ∧
    (s.rl.st = 4 →
      (∀ fr q, q.bad 2 = true → s.rl.disc + 1 < 8 → ∃ s', exec (.rlFrameReceive fr q) s = .next s' ∧ s'.rl.nak = true ∧
        s'.rl.ackRx = s.rl.ackRx ∧ s'.rl.st = 4) ∧
      (∀ fr q, q.bad 2 = false → ∃ s', exec (.rlFrameReceive fr q) s = .next s' ∧
        (fr.seq = (s.rl.ackRx + 1) % 4096 → s'.rl.nak = false ∧ s'.rl.ackRx = fr.seq ∧ s'.rl.disc = 0) ∧
        (fr.seq ≠ (s.rl.ackRx + 1) % 4096 → s'.rl.nak = true ∧ s'.rl.ackRx = s.rl.ackRx) ∧
        s'.rl.resend = (if fr.nak then s'.rl.replay else s.rl.resend)) ∧
      (∀ f rest, s.rl.resend = f :: rest → ∃ s' g, exec (.linkFrameSend 32) s = .next s' ∧ s'.rl.resend = rest ∧ s'.rl.last = RlFrame.bytes g ∧
        g.seq = f.seq ∧ g.units = f.units ∧ g.rpl = true ∧ g.ack = s.rl.ackRx ∧ Map.get 0 s'.rl.ctr 0x50 = Map.get 0 s.rl.ctr 0x50 + 1) ∧
      (s.rl.resend = [] → ∃ s' f, exec (.linkFrameSend 32) s = .next s' ∧ s'.rl.replay.getLast? = some f ∧ f.seq = s.rl.seq ∧
        f.units.length = min 14 s.rl.units ∧ s'.rl.units = s.rl.units - min 14 s.rl.units ∧ s'.rl.seq = (s.rl.seq + 1) % 4096) ∧
      (∃ s', exec (.frameLockLoss 32) s = .next s' ∧ s'.rl.st = 5 ∧ s'.rl.reason = 5 ∧ s'.rl.replay = s.rl.replay ∧
        Map.get 0 s'.rl.ctr 0x58 = Map.get 0 s.rl.ctr 0x58 + 1) ∧
      (∀ v x, v < 72 → (∃ s', exec (.rlMsiWrite v 0 x) s = .next s' ∧ Map.get 0 s'.rl.msiA v = x &&& place 2 50 (2 ^ 50 - 1) ∧
          Map.get false s'.rl.unmask v = !(bit x 63) ∧ s'.rl.msiD = s.rl.msiD) ∧
        exec (.rlMsiWrite v 1 x) s = .next (s.modRl fun r => { r with msiD := Map.set 0 r.msiD v (x.setWidth 32) })) ∧
      (∀ v x, 72 ≤ v → ∀ w, exec (.rlMsiWrite v w x) s = .next s) ∧
      (∀ v, s.helm.run = true → s.job.img.isSome = true →
        exec (.rlHcwRequest v) s = .next (s.modRl fun r => { r with hcwReq := fld v 0 9, hcwStat := 2 })) ∧
      (∀ v, s.helm.run = true → s.job.img = none → s.stow.busy = false → s.stow.hostBusy = false → s.stow.area = 0 →
        let n := fld v 0 9
        let gains := fun (a : Nat) => s.rl.hcwSize * 2 ^ 30 ≤ a ∧ a < n * 2 ^ 30
        n ≤ 256 → s.linesAbove n = [] → ∃ s', exec (.rlHcwRequest v) s = .next s' ∧ s'.rl.hcwSize = n ∧ s'.rl.hcwStat = 0 ∧
          s'.rl.snoop = s.rl.snoop ∧ s'.job = s.job ∧ s'.tiles = s.tiles ∧ (n ≤ s.rl.hcwSize → s'.stks = s.stks) ∧
          ∀ a, let d := devByte a
            Map.get 0 (s'.stk d.1).mem d.2 = (if gains a then 0 else Map.get 0 (s.stk d.1).mem d.2) ∧
            (Map.get false (s'.stk d.1).crcV (d.2 / 4096) = (if gains a then false else Map.get false (s.stk d.1).crcV (d.2 / 4096)))) ∧
      (s.rl.held = [] →
        let h := s.modRl fun r => { r with home := r.home + 1 }
        (∀ id off, off % 8 = 0 → off < 4096 → exec (.cfgrd id off) s = .next (h.respond id 0 (wordBytes (s.rlReg off)))) ∧
        (∀ id off v, ¬ (off % 8 = 0 ∧ off < 4096) → exec (.cfgrd id off) s = .next (h.unsupported id) ∧
          exec (.cfgwr id off v) s = .next (h.unsupported id)) ∧
        (∀ id v, exec (.cfgwr id 0x10 v) s =
            .next ((h.modRl fun r => { r with mbxBase := v &&& (place 18 34 (2 ^ 34 - 1) ||| 1) }).respond id 0 []) ∧
          exec (.cfgwr id 0x18 v) s =
            .next ((h.modRl fun r => { r with regBase := v &&& (place 32 20 (2 ^ 20 - 1) ||| 1) }).respond id 0 [])))) ∧
    (s.rl.st ≠ 4 → (∀ fr q, exec (.rlFrameReceive fr q) s = .next s) ∧ (∀ v w x, exec (.rlMsiWrite v w x) s = .next s) ∧
      (∀ v, exec (.rlHcwRequest v) s = .next s) ∧ exec (.linkFrameSend 32) s = .next s ∧ exec (.frameLockLoss 32) s = .next s ∧ (∀ id off v, exec (.cfgrd id off) s = .next s ∧ exec (.cfgwr id off v) s = .next s))

/-- While the link is UP and no request waits. A request outside every window is answered UR and counted. RDNC of 64 bytes answers a mailbox line; RDNC and WRPART of one aligned 8-byte group read and write a register. In the coherent window, of a line with no BINV, RECALL or earlier porter store outstanding, on a stack that takes it: with no uncorrectable bytes RDNC, and RDS or RDO of a line the host does not hold with room in the filter, answer the line, RDS and RDO recording it shared or owned; RDO of a line held moves no data; WRLINE and WRPART write the line's bytes; EVICT drops its record. INVACK of an outstanding RECALL leaves the line shared, of a BINV not held, with the bytes given. HRD_RESPONSE gives a waiting load its line, HWR_COMPLETION lets a store's line leave, but not under the undervoltage clamp, and ends a store of an old epoch; an error faults the module. -/
def Obligations.HostRequests : Prop :=
  (∀ (s : State) (id addr : Nat), s.rl.st = 4 → s.rl.held = [] →
    let h := s.modRl fun r => { r with home := r.home + 1 }
    let ans := fun (c : Instr) (data : List Byte) (f : State → Prop) => ∃ s', exec c s = .next s' ∧
      s'.rl.resp = some (id % 4096, 0, data) ∧ s'.job = s.job ∧ s'.tiles = s.tiles ∧ f s'
    (s.hostAt addr = .none → ∀ len mask data,
      exec (.rds id addr) s = .next (h.unsupported id) ∧ exec (.rdo id addr) s = .next (h.unsupported id) ∧
      exec (.rdnc id addr len) s = .next (h.unsupported id) ∧ exec (.wrline id addr data) s = .next (h.unsupported id) ∧
      exec (.wrpart id addr mask data) s = .next (h.unsupported id) ∧ exec (.evict id addr) s = .next (h.unsupported id)) ∧
    (∀ off, s.hostAt addr = .mailbox off → ans (.rdnc id addr 64) (s.pageRead off) (fun s' => s'.helm = s.helm) ∧
      ∀ data, data.length = 64 → ∃ s', exec (.wrline id addr data) s = .next s' ∧ s'.pageRead off = data ∧
        s'.rl.resp = some (id % 4096, 0, []) ∧ ∀ k, k ≠ off / 4096 % 64 → s'.page k = s.page k) ∧
    (∀ off, s.hostAt addr = .register off →
      (off % 8 = 0 → ans (.rdnc id addr 8) (wordBytes (s.readReg off)) (fun s' => s'.stks = s.stks)) ∧
      ∀ i < 8, ∀ data, exec (.wrpart id addr (place (8 * i) 8 0xFF) data) s =
        .next (((h.writeReg (off / 64 * 64 + 8 * i) (wordAt (padTo 64 data) (8 * i))).respond id 0 []).modRl fun r => { r with held := [] })) ∧
    (∀ off, s.hostAt addr = .coherent off →
      let line := off / 64
      let k := (devByte (64 * line)).1
      let a := (devByte (64 * line)).2
      let bytes := Map.slice 0 (s.stk k).mem a 64
      s.stackTakes k = 0 → line ∉ s.rl.binv → line ∉ s.rl.recalls → s.storeAhead line s.rl.home = false →
      ((∀ b ∈ burstsIn a 64, b ∉ (s.stk k).ue) → ans (.rdnc id addr 64) bytes (fun s' => s'.rl.snoop = s.rl.snoop) ∧
        ((∀ e ∈ s.rl.snoop, e.1 ≠ line) → s.rl.snoop.length < 1048576 →
          ans (.rds id addr) bytes (fun s' => s'.rl.snoop = s.rl.snoop ++ [(line, false)]) ∧
          ans (.rdo id addr) bytes (fun s' => s'.rl.snoop = s.rl.snoop ++ [(line, true)]))) ∧
      ((∃ e ∈ s.rl.snoop, e.1 = line) → ans (.rdo id addr) [] fun s' => (line, true) ∈ s'.rl.snoop ∧ s'.stks = s.stks) ∧
      (∀ data, data.length = 64 → ans (.wrline id addr data) [] fun s' => Map.slice 0 (s'.stk k).mem a 64 = data ∧
        (∀ j, j < a ∨ a + 64 ≤ j → Map.get 0 (s'.stk k).mem j = Map.get 0 (s.stk k).mem j) ∧
        Map.get false (s'.stk k).crcV (a / 4096) = false ∧ ∀ u, u ≠ k → s'.stk u = s.stk u) ∧
      (∀ mask data, ans (.wrpart id addr mask data) [] fun s' =>
        (∀ i < 64, Map.get 0 (s'.stk k).mem (a + i) = if bit mask i then data.getD i 0 else Map.get 0 (s.stk k).mem (a + i)) ∧
        ∀ j, j < a ∨ a + 64 ≤ j → Map.get 0 (s'.stk k).mem j = Map.get 0 (s.stk k).mem j) ∧
      ans (.evict id addr) [] fun s' => s'.rl.snoop = s.rl.snoop.filter (fun e => e.1 != line) ∧ s'.stks = s.stks)) ∧
  (∀ (s : State) (line : Nat) (data : List Byte), s.rl.st = 4 → s.rl.held = [] → s.rl.hcwStat ≠ 1 → data.length = 64 →
    let back := fun (s' : State) => Map.slice 0 (s'.stk (devByte (64 * line)).1).mem (devByte (64 * line)).2 64 = data
    (s.asked 0 line 0 = false → s.asked 1 line 0 = false → exec (.invack line (some data)) s = .next s) ∧
    (s.asked 0 line 0 = true → ∃ s', exec (.invack line (some data)) s = .next s' ∧ line ∉ s'.rl.binv ∧
      (∀ e ∈ s'.rl.snoop, e.1 ≠ line) ∧ back s') ∧
    (s.asked 0 line 0 = false → s.asked 1 line 0 = true → ∃ s', exec (.invack line (some data)) s = .next s' ∧ line ∉ s'.rl.recalls ∧
      (line, true) ∉ s'.rl.snoop ∧ back s')) ∧
  (∀ (s : State) (t tag addr : Nat) (x : Xfer) (data : List Byte), t < 2304 → s.waiting t tag (addr / 64) false = some x →
    let s₁ := s.askDone 2 (addr / 64) (ownOf t tag)
    exec (.hrdResponse t tag addr true data) s = .next (s₁.devFault 0x45 (tag * 2 ^ 16 + t)) ∧
    exec (.hrdResponse t tag addr false data) s = .next (s₁.setXfer t { x with
      left := x.left.filter (fun k => k != addr / 64), host := Map.setRange 0 x.host (addr / 64 * 64) (padTo 64 data) })) ∧
  (∀ (s : State) (t tag addr : Nat) (x : Xfer), t < 2304 → s.waiting t tag (addr / 64) true = some x →
    exec (.hwrCompletion t tag addr true) s = .next ((s.askDone 3 (addr / 64) (ownOf t tag)).devFault 0x45 (tag * 2 ^ 16 + t)) ∧
    (s.power.clamp = true → exec (.hwrCompletion t tag addr false) s = .next s) ∧
    (s.power.clamp = false → x.epoch ≠ s.job.epoch → x.isHost s.job = true → ∃ s', exec (.hwrCompletion t tag addr false) s = .next s' ∧
      (s'.tile t).io.tags = (s.tile t).io.tags.filter (fun g => g.tag != tag) ∧
      Map.get 0 (s'.tile t).ctr 0x550 = Map.get 0 (s.tile t).ctr 0x550 + 1) ∧
    (s.power.clamp = false → x.epoch = s.job.epoch → x.sent = true → s.Quiet t x.id →
      ∃ s', exec (.hwrCompletion t tag addr false) s = .next s' ∧
      (∀ g ∈ (s'.tile t).io.tags, g.tag = tag → addr / 64 ∉ g.left) ∧ (s'.tile t).sp = (s.tile t).sp ∧
      (s'.tile t).io.tags.length = (s.tile t).io.tags.length ∧ s'.rl.hostOut.take s.rl.hostOut.length = s.rl.hostOut))

/-- A command that completes writes its entry into the page's next completion slot with its code, status, tag and phase, its words in order padded with zeros, and the head index moves on; nothing else of the module changes but the interrupt. Without a free slot the page holds the entry. A doorbell sets CTAIL, keeping the commands for the helm while it does not run; a write of CQH frees slots, and a held entry then follows. Both are ignored while the registers do not answer. -/
def Obligations.MailboxTakesAndAnswers : Prop :=
  (∀ (s : State) (k opc st : Nat) (ws : List Word), s.Waits k opc →
    s.Posted ((s.take k).complete k st ws) k st ws ∧ s.AllButHelm ((s.take k).complete k st ws)) ∧
  (∀ (s : State) (k opc st : Nat) (ws : List Word), k < 64 → s.mayStart k opc = true → (s.page k).room = false →
    (s.page k).ctail = (s.page k).chead + 1 →
    let s' := (s.take k).complete k st ws
    (s'.page k).hold = (s.page k).hold ++ [entry8 (entryHead false opc st 0 (fld (s.cmdArg k 0) 32 16)) ws] ∧
      (s'.page k).posted = (s.page k).posted ∧ (s'.page k).mem = (s.page k).mem ∧ s.AllButHelm s') ∧
  (∀ (s : State) (k : Nat) (v : Word), k < 64 →
    (s.regsOn = true →
      (∃ s', exec (.devMbxDb k v) s = .next s' ∧ (s'.page k).ctail = v.setWidth 16 ∧ (∀ j, j ≠ k → s'.page j = s.page j) ∧
        s.AllButHelm s' ∧ (s.helm.run = false → (s'.page k).chead = (s.page k).chead ∧ (s'.page k).mem = (s.page k).mem ∧
          s'.helm.serial = (s.helm.ring s.now k (v.setWidth 16 - (s.page k).ctail).toNat).serial)) ∧
      (∃ s', exec (.devMbxCq k v) s = .next s' ∧ (s'.page k).cqh = v.setWidth 16 ∧ (s'.page k).ctail = (s.page k).ctail ∧
        (∀ j, j ≠ k → s'.page j = s.page j) ∧ s.AllButHelm s' ∧
        (s.helm.run = true → (s.page k).hold ≠ [] → (BitVec.ofNat 16 (s.page k).posted - v.setWidth 16).toNat < 32 →
          (s.page k).posted < (s'.page k).posted))) ∧
    (s.regsOn = false → exec (.devMbxDb k v) s = .next s ∧ exec (.devMbxCq k v) s = .next s))

/-- DEV_INFO, READY_QUERY, JOB_STATUS, LEDGER_READ, THROTTLE_READ, FENCE_QUERY, TELEMETRY_READ, and CHRONO_ALIGN with MODE 1 while no job is loaded, are answered OK with the words the command table names, and nothing but the mailbox changes. Bit b of word j of FENCE_QUERY says whether unit BASE + 64j + b is fenced. A telemetry selector above 16 and a fence BASE past the units end with RANGE. -/
def Obligations.HelmQueries : Prop :=
  ∀ (s : State) (k : Nat),
    let a := fun i => s.cmdArg k i
    (s.Waits k 0x01 → s.Answers (.devInfo k) k 0 [0x4B510F2400C00000, place 0 32 s.helm.ver, s.net.modid,
      place 0 16 s.rel.fencedTiles.length ||| place 16 8 s.rel.fClus.length, place 0 16 s.helm.fuse] s) ∧
    (s.Waits k 0x02 → s.Answers (.readyQuery k) k 0
      [place 0 16 (maskOf 16 s.regionReady) ||| place 16 1 (bnat s.helm.run) ||| place 17 1 (bnat s.rlReady),
        place 0 32 (maskOf 32 s.stackReady), place 0 32 (maskOf 32 s.portReady), place 0 16 (fld s.readyWord 0 16)] s) ∧
    (s.Waits k 0x15 → s.Answers (.jobStatus k) k 0 s.jobStatus s) ∧
    (s.Waits k 0x31 → (fld (a 1) 0 64 ≤ 16 → s.Answers (.telemetryRead k) k 0 (s.telemRecord (fld (a 1) 0 64)) s) ∧
      (16 < fld (a 1) 0 64 → s.Answers (.telemetryRead k) k 3 [] s)) ∧
    (s.Waits k 0x32 → s.Answers (.ledgerRead k) k 0
      [if s.job.img.isSome then s.power.ledger else 0, s.power.total, s.power.chrono, BitVec.ofNat 64 (s.now - s.power.fitNs)] s) ∧
    (s.Waits k 0x33 → s.Answers (.throttleRead k) k 0
      (if bit (a 1) 0 then [Map.get 0 s.power.thrNs 7, Map.get 0 s.power.thrNs 8, place 0 9 s.activeMask]
        else (List.range 7).map (Map.get 0 s.power.thrNs)) s) ∧
    (s.Waits k 0x34 →
      let kind := fld (a 1) 0 2
      let base := 448 * fld (a 1) 8 3
      let units := if kind = 1 then 192 else if kind = 3 then 264 else 2304
      (units ≤ base → s.Answers (.fenceQuery k) k 3 [] s) ∧
      (base < units → ∃ ws, s.Answers (.fenceQuery k) k 0 ws s ∧ ws.length = 7 ∧ ∀ j < 7, ∀ b < 64,
        bit (ws.getD j 0) b = (decide (base + 64 * j + b < units) && s.rel.fenced kind (base + 64 * j + b)))) ∧
    (s.Waits k 0x61 → bit (a 2) 0 = true →
      (s.job.img = none → s.Answers (.chronoAlignRead k) k 0 [s.power.chrono, s.power.chrono] s) ∧
      (s.job.img.isSome = true → s.Answers (.chronoAlignRead k) k 2 [] s))

/-- CAP_SET, SIGHT_SCHEDULE, FIX_ARM, FIX_READ, CHRONO_ALIGN with MODE 0 and LINK_CONFIG: outside its range, in the wrong state, while a fix is held, or with no table of 1,056 bytes, the command ends with RANGE, STATE, BUSY or DATA and nothing but the mailbox changes. Else it is answered OK and sets exactly the settings its fields name, 0 leaving the cap, the thermal target and the hours as they were; LINK_CONFIG, with no stow in progress, sets the module ID, the 1,024 route entries and enable, dateline and group of every port. FIX_READ answers seven words of the record it names and, with DONE, clears the fix. -/
def Obligations.HelmSettings : Prop :=
  ∀ (s : State) (k : Nat),
    let w := s.cmdArg k 1
    (s.Waits k 0x30 →
      let cap := fld w 0 16
      let tg := fld w 16 8
      let good := (cap = 0 ∨ 2500 ≤ cap ∧ cap ≤ 8400) ∧ (tg = 0 ∨ 80 ≤ tg ∧ tg ≤ 100)
      let m := s.modPower fun p => { p with hostCap := if cap = 0 then p.hostCap else cap, ttgt := if tg = 0 then p.ttgt else tg }
      (good → s.Answers (.capSet k) k 0 [place 0 16 m.power.cap ||| place 16 8 m.power.ttgt] m) ∧
      (¬ good → s.Answers (.capSet k) k 3 [] s)) ∧
    (s.Waits k 0x35 →
      let h := fld w 0 16
      (h ≤ 720 → s.Answers (.sightSchedule k) k 0 [BitVec.ofNat 64 s.rel.sgLast, BitVec.ofNat 64 s.rel.sgOut]
        (s.modRel fun r => { r with sgHours := if h = 0 then r.sgHours else h, sgNow := r.sgNow || bit w 16, sgStow := bit w 17 })) ∧
      (720 < h → s.Answers (.sightSchedule k) k 3 [] s)) ∧
    (s.Waits k 0x40 →
      (s.dbg.latched = true → bit w 9 = false → s.Answers (.fixArm k) k 4 [] s) ∧
      (s.dbg.latched = false → bit w 9 = false → s.Answers (.fixArm k) k 0 []
        (s.modDbg fun d => { d with armed := fld w 0 5, jobwide := bit w 8, trigNs := s.cmdArg k 2 })) ∧
      (bit w 9 = true → s.Answers (.fixArm k) k 0 [] (s.modDbg fun d => { d with
        latched := false, late := false, overF := false, recs := [], copied := false, armed := fld w 0 5, jobwide := bit w 8
        trigNs := s.cmdArg k 2 }))) ∧
    (s.Waits k 0x41 →
      let ws := (List.range 7).map fun i => Map.get 0 s.dbg.recs (fixKey (fld w 0 2) (fld w 4 12) (fld w 16 8 + i))
      (s.dbg.latched = false → s.Answers (.fixRead k) k 2 [] s) ∧
      (s.dbg.latched = true → bit w 31 = false → s.Answers (.fixRead k) k 0 ws s) ∧
      (s.dbg.latched = true → bit w 31 = true → s.Answers (.fixRead k) k 0 ws (s.modDbg fun d => { d with
        latched := false, late := false, overF := false, recs := [], copied := false }))) ∧
    (s.Waits k 0x61 → bit (s.cmdArg k 2) 0 = false →
      (s.job.img = none → s.Answers (.chronoAlignStep k) k 0 [s.power.chrono, w] (s.modPower fun p => { p with chrono := w })) ∧
      (s.job.img.isSome = true → s.Answers (.chronoAlignStep k) k 2 [] s)) ∧
    (s.Waits k 0x60 → ∀ table : List Byte,
      (s.job.img.isSome = true → s.Answers (.linkConfig k table) k 2 [] s) ∧
      (s.job.img = none → table.length ≠ 1056 → s.Answers (.linkConfig k table) k 9 [] s) ∧
      (s.job.img = none → table.length = 1056 → s.stow.busy = false → ∃ s', exec (.linkConfig k table) s = .next s' ∧ s.Posted s' k 0 [] ∧
        s'.net.modid = place 63 1 1 ||| place 32 16 (fld w 16 16) ||| place 0 10 (fld w 0 10) ∧
        (∀ n < 1024, Map.get 0 s'.net.rt (0x31000 + 8 * n) =
          place 63 1 (bnat ((table.getD (32 + n) 0).getLsbD 7)) ||| place 0 4 ((table.getD (32 + n) 0).toNat % 16)) ∧
        (∀ p < 32, (s'.port p).en = bit (s.cmdArg k 2) p ∧ (s'.port p).dl = bit (s.cmdArg k 3) p ∧
          (s'.port p).gvalid = (table.getD p 0).getLsbD 7 ∧ (s'.port p).group = (table.getD p 0).toNat % 16) ∧
        s'.tiles = s.tiles ∧ s'.power = s.power ∧ s'.stks = s.stks ∧
        (s.edges = [] → s.net.rport = [] → s.net.rmsg = [] → (∀ p, (s.port p).rx.tx = []) → s'.job = s.job ∧ s'.rel = s.rel)))

/-- JOB_LOAD with a job loaded, a member index out of range, no image, no signature, or an image that fails a check ends with the status of that failure and loads nothing; with CHECK it loads nothing either. Else every tile of the image is LOADED with the image's instructions, other tiles keep what they hold, the ledger starts at 0 and debugging is off. JOB_START on a loaded job waits for the members, ends with MISMATCH, or agrees a tick. At that tick every tile of the job enters COMPUTE with its counters at 0 and J is the agreed minimum. With no agreement in time, or where another helm's notice says that the members disagree, the job stays loaded; where it says that they agree, the tick is set (that reports come by HALT_NOTICE is the model's choice, log 33). -/
def Obligations.JobsLoadAndStart : Prop :=
  (∀ (s : State) (k : Nat) (env : LoadEnv), s.Waits k 0x10 → s.rel.sgRun = 0 →
    let a := fun i => s.cmdArg k i
    let m := fld (a 3) 0 10
    let idx := fld (a 3) 16 10
    (s.job.img.isSome = true → s.Answers (.jobLoad k env) k 2 [] s) ∧
    (s.job.img = none → (m = 0 ∨ m ≤ idx) → s.Answers (.jobLoad k env) k 3 [] s) ∧
    (s.job.img = none → 0 < m → idx < m →
      (env.img = none → s.Answers (.jobLoad k env) k 9 [] s) ∧
      ∀ im, env.img = some im →
        (s.helm.imageSigned im = false → s.Answers (.jobLoad k env) k 6 [] s) ∧
        (s.helm.imageSigned im = true →
          let c := (s.take k).checkLoad im (a 2).toNat m idx env
          (∀ f d, c.1 = .inr (f, d) → s.Answers (.jobLoad k env) k 8
            [place 0 8 f ||| place 8 8 c.2.1 ||| place 16 16 c.2.2, BitVec.ofNat 64 d] s.took) ∧
          (∀ t im', c.1 = .inl (t, im') →
            (bit (a 6) 0 = true → s.Answers (.jobLoad k env) k 0 [place 8 8 c.2.1 ||| place 16 16 c.2.2, 0] s) ∧
            (bit (a 6) 0 = false → ∃ s', exec (.jobLoad k env) s = .next s' ∧
              s.Posted s' k 0 [place 8 8 c.2.1 ||| place 16 16 c.2.2, 0] ∧ s'.job.js = 2 ∧ s'.job.img = some im' ∧
              s'.job.trans = t ∧ s'.job.m = m ∧ s'.job.idx = idx ∧ s'.power.ledger = 0 ∧ s'.dbg.bpen = false ∧
              (∀ y ∈ im'.tiles, (s'.tile y.tile).st = 2) ∧
              ((im'.tiles.map fun (y : TileImg) => y.tile).Nodup → ∀ y ∈ im'.tiles, (s'.tile y.tile).im = Map.ofList 0 8192 y.im) ∧
              (∀ u, u ∉ im'.tiles.map (fun (y : TileImg) => y.tile) → u ∉ im'.backing.map (fun (y : Backing) => y.tile) →
                s'.tile u = s.tile u) ∧ s'.stks = s.stks ∧ s'.regions = s.regions ∧ s'.ports = s.ports ∧ s'.stow = s.stow))))) ∧
  (∀ (s : State) (k : Nat) (env : StartEnv), s.Waits k 0x11 →
    (s.job.js ≠ 2 → s.Answers (.jobStart k env) k 2 [] s) ∧
    (s.job.js = 2 →
      (env.agree = some false → s.Answers (.jobStart k env) k 0x0C [] s) ∧
      (env.agree = none → exec (.jobStart k env) s = .next ((s.take k).modJob fun j => { j with js := 3, startPage := k })) ∧
      (env.agree = some true → exec (.jobStart k env) s = .next ((s.take k).modJob fun j => { j with
        js := 3, startPage := k, startPend := true, startNs := if s.job.idx = 0 then s.now + 100000 else env.start
        startJ := min env.minA s.power.allow })))) ∧
  (∀ s : State,
    (s.job.js = 3 → s.job.startPend = true → s.job.startNs ≤ s.now → ∃ s', exec .jobStartTick s = .next s' ∧ s'.job.js = 4 ∧
      s'.job.sstep = 0 ∧ s'.job.startPend = false ∧ s'.power.jstep = s.job.startJ ∧ s'.job.img = s.job.img ∧
      (∀ t ∈ s.job.tiles, ((s'.tile t).st = 3 ∨ (s'.tile t).st = 4) ∧ (s'.tile t).ctr = []) ∧
      (∀ t, t ∉ s.job.tiles → s'.tile t = s.tile t) ∧ s'.stks = s.stks ∧
      (opcOf (s.page s.job.startPage).cur = 0x11 → (s'.page s.job.startPage).done = true)) ∧
    (¬ (s.job.js = 3 ∧ s.job.startPend = true ∧ s.job.startNs ≤ s.now) → exec .jobStartTick s = .next s) ∧
    (∀ (m : Nat) (e : StartEnv), s.job.img.isSome = true → m ∈ s.job.members → m ≠ s.modid → s.job.js = 3 → s.job.startPend = false →
      (e.agree = some false → ∃ s', exec (.haltNotice m (.start e)) s = .next s' ∧ s'.job = { s.job with js := 2 } ∧
        s'.tiles = s.tiles ∧ s'.power = s.power) ∧
      (e.agree = some true → exec (.haltNotice m (.start e)) s = .next (s.modJob fun j => { j with
        startPend := true, startNs := s.startAt e.start, startJ := min e.minA s.power.allow }))) ∧
    (s.job.js = 3 → s.job.startPend = false → ∃ s', exec .jobStartTimeout s = .next s' ∧ s'.job = { s.job with js := 2 } ∧
      s'.tiles = s.tiles ∧ s'.power = s.power) ∧
    (¬ (s.job.js = 3 ∧ s.job.startPend = false) → exec .jobStartTimeout s = .next s))

/-- JOB_PAUSE on a paused job is answered OK with nothing changed; on a running one it is recorded for the next arrival wave; else it ends with STATE. JOB_RESUME on a paused job agrees a tick, at which every paused tile of the job returns to COMPUTE, J is the agreed minimum and agreements from before are gone; HALT_NOTICE brings the tick of another member's JOB_RESUME, and its request for a pause or a halt, which takes the place of one recorded here (the model's choice, log 33). JOB_ABORT with MODE 0 on a loaded, running or paused job stops it with module cause ABORT and the page as detail, every tile of the job in state 8 (that a loaded job is stopped is the model's reading, log 33); on a job that is stopped already it is answered OK with nothing changed; with MODE 1 the job leaves the module, its tiles idle or fenced without configuration and instructions, the ballast base advanced by its supersteps, hosted areas and the coherent window kept. Without a job both end with STATE. -/
def Obligations.JobsPauseResumeAndEnd : Prop :=
  (∀ (s : State) (k : Nat), s.Waits k 0x12 →
    (s.job.js = 5 → s.Answers (.jobPause k) k 0 [s.job.sstep] s) ∧
    (s.job.js = 4 → exec (.jobPause k) s = .next ((s.take k).modJob fun j => { j with
      wave := { j.wave with pauseReq := max 1 j.wave.pauseReq, pausePages := j.wave.pausePages ++ [k] } })) ∧
    (s.job.js ≠ 4 → s.job.js ≠ 5 → s.Answers (.jobPause k) k 2 [] s)) ∧
  (∀ (s : State) (k minA : Nat), s.Waits k 0x13 →
    (s.job.js ≠ 5 ∨ s.job.startPend = true → s.Answers (.jobResume k minA) k 2 [] s) ∧
    (s.job.js = 5 → s.job.startPend = false → exec (.jobResume k minA) s = .next ((s.take k).modJob fun j => { j with
      startPage := k, startPend := true, startNs := if s.job.idx = 0 then s.now + 100000 else s.now
      startJ := min minA s.power.allow }))) ∧
  (∀ s : State,
    (s.job.js = 5 → s.job.startPend = true → s.job.startNs ≤ s.now → ∃ s', exec .jobResumeTick s = .next s' ∧ s'.job.js = 4 ∧
      s'.job.sstep = s.job.sstep ∧ s'.job.startPend = false ∧ s'.power.jstep = s.job.startJ ∧ s'.power.pj = none ∧ s'.power.pj2 = none ∧
      (∀ t ∈ s.job.tiles, (s.tile t).st = 6 → (s'.tile t).st = 3 ∨ (s'.tile t).st = 4) ∧
      (∀ t, t ∉ s.job.tiles → s'.tile t = s.tile t) ∧ ∀ t, (s'.tile t).sp = (s.tile t).sp ∧ (s'.tile t).am = (s.tile t).am) ∧
    (∀ m n J, s.job.img.isSome = true → m ∈ s.job.members → m ≠ s.modid → s.job.js = 5 → s.job.startPend = false →
      exec (.haltNotice m (.resume n J)) s = .next (s.modJob fun j => { j with
        startPage := 64, startPend := true, startNs := n, startJ := min J s.power.allow })) ∧
    (∀ m p h, s.job.img.isSome = true → m ∈ s.job.members → m ≠ s.modid → s.job.js = 4 → s.job.exch = false →
      exec (.haltNotice m (.asked p h)) s = .next (s.modJob fun j => { j with wave := { j.wave with
        pauseReq := if p then 2 else j.wave.pauseReq, haltReq := if h then 2 else j.wave.haltReq } })) ∧
    (¬ (s.job.js = 5 ∧ s.job.startPend = true ∧ s.job.startNs ≤ s.now) → exec .jobResumeTick s = .next s)) ∧
  (∀ (s : State) (k : Nat), s.Waits k 0x14 →
    (bit (s.cmdArg k 1) 0 = false →
      (s.job.img = none → s.Answers (.jobAbortStop k) k 2 [] s) ∧
      (s.job.img.isSome = true → s.job.js ≠ 2 → s.job.js ≠ 4 → s.job.js ≠ 5 → s.Answers (.jobAbortStop k) k 0 [] s) ∧
      (s.job.img.isSome = true → (s.job.js = 2 ∨ s.job.js = 4 ∨ s.job.js = 5) → ∃ s', exec (.jobAbortStop k) s = .next s' ∧ s'.job.js = 6 ∧
        s'.job.img = s.job.img ∧ s'.job.prim.cause = 0x4E ∧ s'.job.prim.detail = k ∧ s'.job.prim.level = 3 ∧
        (∀ t ∈ s.job.tiles, (s'.tile t).st = 8) ∧ (∀ t, t ∉ s.job.tiles → s'.tile t = s.tile t) ∧ (s'.page k).done = true)) ∧
    (bit (s.cmdArg k 1) 0 = true →
      (s.job.img = none → s.Answers (.jobAbortUnload k) k 2 [] s) ∧
      (s.job.img.isSome = true → ∃ s', exec (.jobAbortUnload k) s = .next s' ∧ s'.job = {} ∧
        (∀ t ∈ s.job.tiles, ((s'.tile t).st = 1 ∨ (s'.tile t).st = 9) ∧ (s'.tile t).cfg = [] ∧ (s'.tile t).im = [] ∧
          (s'.tile t).sp = []) ∧
        s'.rel.balBase = (s.rel.balBase + s.job.steps) % 4096 ∧ s'.power.ledger = s.power.ledger ∧ s'.power.jstep = 64 ∧
        s'.stow.area = s.stow.area ∧ s'.stow.hostV = s.stow.hostV ∧ s'.rl.hcwSize = s.rl.hcwSize ∧ (s'.page k).done = true)))

/-- STOW_CONFIG sets or releases the pairing the partner agrees to, ends with the status of the check that fails, or waits. STOW_FREEZE_START at a drained stow point invalidates the slot it will write and holds the image of the job; STOW_FREEZE_DONE lets the mover send; STOW_COMPLETE makes that slot valid with its superstep, or stops the job with STOW_FAIL and leaves the slot invalid. STOW_BLOCK_LANDING writes a good block of the partner at its place in the hosted slot, ends the partner's stow on a bad one, and wakes the sleeping regions before a restore is served (that this comes with the partner's traffic is the model's choice, log 30). STOW_RESTORE of a slot held resets the job and waits; RESTORE_COMPLETE writes windows and freeze image back, the job paused at the superstep of the stow. -/
def Obligations.StowAndRestore : Prop :=
  (∀ (s : State) (k : Nat) (agree : Option Bool), s.Waits k 0x20 →
    let area := fld (s.cmdArg k 1) 16 10
    let partner := fld (s.cmdArg k 1) 0 10
    let mask := fld (s.cmdArg k 2) 0 32
    (∀ st, s.stowPlace partner area mask = .inl st → s.Answers (.stowConfig k agree) k st [] s) ∧
    (∀ base, s.stowPlace partner area mask = .inr base →
      (area = 0 → let m := s.modStow fun w => { w.dropSlots with en := false, area := 0, areaBase := 0, partner := partner, ports := mask }
        s.Answers (.stowConfig k agree) k 0 [m.stowCfg] m) ∧
      (area ≠ 0 →
        (agree = none → exec (.stowConfig k agree) s = .next ((s.take k).modStow fun w => { w with cfgPage := some k })) ∧
        (agree = some false → s.Answers (.stowConfig k agree) k 0x0A [] (s.modStow fun w => { w with en := false })) ∧
        (agree = some true →
          let m := s.modStow fun w => { (if w.partner = partner ∧ w.area = area then w else w.dropSlots) with
            en := true, partner := partner, area := area, ports := mask, areaBase := base }
          s.Answers (.stowConfig k agree) k 0 [m.stowCfg] m)))) ∧
  (∀ s : State,
    (s.stow.wait = true → s.job.js = 4 → s.job.wave.doneAt = true → s.stow.freeze = false → s.stow.busy = false →
      s.drainedForStow = true → (∀ t ∈ s.job.tiles, (s.tile t).freezeParity = []) →
      (∀ c ∈ s.job.clusters, (s.cluster c).badGranule 0 25165824 = none) →
      exec .stowFreezeStart s = .next (s.modStow fun w => { w.invalidate w.target with
        wslot := w.target, busy := true, freeze := true, wait := false, buf := some s.snapshot, total := s.job.stowTotal
        sentB := 0, copied := [] })) ∧
    (s.drainedForStow = false ∨ s.stow.wait = false → exec .stowFreezeStart s = .next s) ∧
    (s.stow.freeze = true → s.job.js = 4 → s.stow.busy = true →
      (∀ n ∈ s.job.marked, ∀ b ∈ s.job.winBlocks n, ∀ a ∈ burstsIn (4096 * (s.job.winAt n b).2) 4096,
        a ∉ (s.stk (s.job.winAt n b).1).ue ∧ a ∉ (s.stk (s.job.winAt n b).1).ce) → ∃ s', exec .stowFreezeDone s = .next s' ∧
      s'.stow.freeze = false ∧ s'.stow.buf = s.stow.buf ∧ s'.stow.wslot = s.stow.wslot ∧ s'.stow.sending = true ∧ s'.stks = s.stks) ∧
    (s.stow.freeze = false → exec .stowFreezeDone s = .next s) ∧
    (s.stow.cfgPage = none → exec .stowConfigTimeout s = .next s) ∧
    (s.stow.cfgPage.isSome = true → ∃ s', exec .stowConfigTimeout s = .next s' ∧ s'.tiles = s.tiles ∧
      s'.stow = { s.stow with en := false, cfgPage := none })) ∧
  (∀ (s : State) (b : StowBlock),
    let half := s.stow.area * 2 ^ 17
    (half ≤ b.blk ∨ 2 ≤ b.slot ∨ b.data.length ≠ 4096 ∨ s.power.trip = true → exec (.stowBlockLanding (.block b)) s = .next s) ∧
    (b.blk < half → b.slot < 2 → b.data.length = 4096 → s.power.trip = false →
      (crc32c b.data ≠ b.crc → exec (.stowBlockLanding (.block b)) s = .next (s.modStow fun w => { w with
        hostV := w.hostV.filter fun h => decide (h.1 ≠ b.slot), hostBusy := false })) ∧
      (crc32c b.data = b.crc →
        let g := interleaved (s.stow.areaBase + b.slot * half + b.blk)
        ∃ s', exec (.stowBlockLanding (.block b)) s = .next s' ∧ Map.slice 0 (s'.stk g.1).mem (4096 * g.2) 4096 = b.data ∧
          Map.get 0 (s'.stk g.1).crc g.2 = b.crc ∧ Map.get false (s'.stk g.1).crcV g.2 = true ∧
          (∀ j, j < 4096 * g.2 ∨ 4096 * g.2 + 4096 ≤ j → Map.get 0 (s'.stk g.1).mem j = Map.get 0 (s.stk g.1).mem j) ∧
          (∀ j, j ≠ g.1 → s'.stk j = s.stk j) ∧ s'.stow.hostBusy = !b.last ∧
          (b.last = true → (b.slot, b.sstep) ∈ s'.stow.hostV) ∧ s'.tiles = s.tiles ∧ s'.job = s.job))) ∧
  (∀ s : State,
    (s.stow.en = true → s.stow.area ≠ 0 → s.power.trip = false → ∃ s', exec (.stowBlockLanding .serve) s = .next s' ∧
      s'.stow.hostBusy = true ∧ ∀ r < 16, (s'.region r).pwr = if (s.region r).pwr = 1 then 3 else (s.region r).pwr) ∧
    (s.stow.en = false ∨ s.stow.area = 0 ∨ s.power.trip = true → exec (.stowBlockLanding .serve) s = .next s) ∧
    exec (.stowBlockLanding .over) s = .next (s.modStow fun w => { w with hostBusy := false })) ∧
  (∀ (s : State) (m : Snap), s.stow.busy = true → s.stow.sending = true → s.stow.buf = some m →
    (s.power.clamp = false → s.stowCut = false → ∃ s', exec (.stowComplete .ok) s = .next s' ∧ s'.stow.busy = false ∧ s'.stow.sending = false ∧
      (s.stow.wslot = 0 → s'.stow.va = true ∧ s'.stow.sa = m.sstep ∧ s'.stow.slotA = some m ∧ s'.stow.slotB = s.stow.slotB ∧
        s'.stow.vb = s.stow.vb) ∧
      (s.stow.wslot ≠ 0 → s'.stow.vb = true ∧ s'.stow.sb = m.sstep ∧ s'.stow.slotB = some m ∧ s'.stow.slotA = s.stow.slotA ∧
        s'.stow.va = s.stow.va) ∧ s'.tiles = s.tiles) ∧
    (s.power.clamp = true ∨ s.stowCut = true → exec (.stowComplete .ok) s = .next s) ∧
    (∀ r, ¬ (s.stowCut = true ↔ r = .noPort) → exec (.stowComplete r) s = .next s) ∧
    (s.job.img.isSome = true → s.job.js ≠ 6 → s.stow.restore = none → ∀ r, r ≠ .ok → (s.stowCut = true ↔ r = .noPort) → ∃ s', exec (.stowComplete r) s = .next s' ∧ s'.job.js = 6 ∧
      s'.job.prim.cause = 0x41 ∧ s'.job.prim.detail = stowReason r + m.sstep.toNat % 2 ^ 32 * 2 ^ 16 ∧ s'.stow.busy = false ∧
      s'.stow.va = s.stow.va ∧ s'.stow.vb = s.stow.vb)) ∧
  (∀ (s : State) (k : Nat) (env : RestoreEnv), s.Waits k 0x21 →
    (s.job.js ≠ 2 → s.job.js ≠ 6 → s.Answers (.stowRestore k env) k 2 [] s) ∧
    ((s.job.js = 2 ∨ s.job.js = 6) →
      (s.stow.holds (s.cmdArg k 1) = none → s.Answers (.stowRestore k env) k 0x0D [] s) ∧
      ∀ m, s.stow.holds (s.cmdArg k 1) = some m →
        (env.ready = false ∨ s.stow.en = false ∨ s.stowCut = true → s.Answers (.stowRestore k env) k 0x0A [] s) ∧
        (env.ready = true → s.stow.en = true → s.stowCut = false → m.hash = s.job.hash → m.trans = s.job.trans → ∃ s',
          exec (.stowRestore k env) s = .next s' ∧ s'.job.js = 7 ∧ s'.stow.busy = true ∧ s'.stow.freeze = true ∧ s'.stow.restore = some (s.cmdArg k 1) ∧
          s'.stow.rstPage = k ∧ s'.stow.rstWin = false ∧ s'.job.img = s.job.img ∧
          (∀ t ∈ s.job.tiles, (s'.tile t).st = 2 ∧ (s'.tile t).sp = [])))) ∧
  (∀ (s : State) (at_ : Word) (m : Snap), s.stow.restore = some at_ → s.stow.holds at_ = some m → s.job.js = 7 →
    s.power.clamp = false → s.stow.rstWin = false → ∃ s', exec (.restoreComplete true) s = .next s' ∧ s'.job.js = 5 ∧
      s'.job.sstep = m.sstep ∧ s'.job.epoch = m.epoch ∧ s'.stow.restore = none ∧ s'.stow.busy = false ∧ s'.stow.freeze = false ∧
      (∀ t ∈ s.job.tiles, (s'.tile t).st = 6 ∧ (s'.tile t).sp = (Map.get {} m.tiles t).sp ∧ (s'.tile t).am = (Map.get {} m.tiles t).am ∧
        (s'.tile t).sq = (Map.get {} m.tiles t).sq) ∧
      (∀ c ∈ s.job.clusters, (s'.cluster c).cs = (Map.get {} m.clusters c).cs))

/-- A region the loaded job needs is not put down or woken. REGION_SLEEP puts named regions to sleep with every tile as it was; REGION_OFF turns them off and loses their tiles; REGION_WAKE starts to wake them, and ends with HW under a trip or in deep idle; REGION_READY ends waking. A tile reset clears an IDLE or FENCED tile and is refused elsewhere; a region reset clears a region no job needs and is refused else. Deep idle turns every region off, always-on only leaves the islands; with a job loaded both are refused, and they wait for a serial command. -/
def Obligations.RegionsAndPowerRequests : Prop :=
  (∀ (s : State) (k : Nat), s.Waits k 0x70 → s.noReset ((s.page k).entry 0) = true → s.rel.sgRun ≠ 1 → s.stow.hostBusy = false →
      s.stow.busy = false →
    let m := fld (s.cmdArg k 1) 0 16
    let hit := fun r => m.testBit r = true
    let off := bit (s.cmdArg k 1) 16
    ((∃ r < 16, hit r ∧ s.job.needs.testBit r = true) → s.job.img.isSome = true →
      (off = false → s.Answers (.regionSleep k) k 2 [] s) ∧ (off = true → s.Answers (.regionOff k) k 2 [] s)) ∧
    (s.job.img = none → off = false → ∃ s', exec (.regionSleep k) s = .next s' ∧
      s.Posted s' k 0 [place 0 16 (s'.inPwr 1) ||| place 16 16 (s'.inPwr 2)] ∧ s'.tiles = s.tiles ∧ s'.clusters = s.clusters ∧
      (s.edges = [] → s'.job = s.job) ∧ ∀ r < 16, (s'.region r).pwr =
        if m.testBit r && ((s.region r).pwr == 0 || (s.region r).pwr == 3) then 1 else (s.region r).pwr) ∧
    (s.job.img = none → off = true → s.dbg.sxBusy = false → ∃ s', exec (.regionOff k) s = .next s' ∧
      s.Posted s' k 0 [place 0 16 (s'.inPwr 1) ||| place 16 16 (s'.inPwr 2)] ∧ (s.edges = [] → s'.job = s.job) ∧
      (∀ r < 16, (s'.region r).pwr = if m.testBit r && (s.region r).pwr != 4 then 2 else (s.region r).pwr) ∧
      (∀ r < 16, hit r → (s.region r).pwr ≠ 2 → (s.region r).pwr ≠ 4 → ∀ t ∈ regionTiles r,
        s'.tile t = { st := if s.rel.fencedTiles.contains t then 9 else 1 }) ∧
      ∀ t, (∀ r < 16, hit r → t ∉ regionTiles r) → s'.tile t = s.tile t)) ∧
  (∀ (s : State) (k : Nat), s.Waits k 0x71 → s.noReset ((s.page k).entry 0) = true →
    let m := fld (s.cmdArg k 1) 0 16
    ((∃ r < 16, m.testBit r = true ∧ s.job.needs.testBit r = true) → s.job.img.isSome = true → s.Answers (.regionWake k) k 2 [] s) ∧
    (s.job.img = none → (s.power.trip = true ∨ s.power.deep ≠ 0) →
      s.Answers (.regionWake k) k 0x0F [place 0 16 (maskOf 16 s.regionReady)] s) ∧
    (s.job.img = none → s.power.trip = false → s.power.deep = 0 → s.rel.sgRun ≠ 1 → s.stow.busy = false → ∃ s', exec (.regionWake k) s = .next s' ∧
      (∀ r < 16, (s'.region r).pwr =
        if m.testBit r && ((s.region r).pwr == 1 || (s.region r).pwr == 2) then 3 else (s.region r).pwr) ∧
      s'.tiles = s.tiles ∧ (s.edges = [] → s'.job = s.job))) ∧
  (∀ (s : State) (r : Nat), r < 16 →
    (s.power.trip = false → (s.region r).pwr = 3 → ∃ s', exec (.regionReady r) s = .next s' ∧
      (s'.region r).pwr = (s.region r).goal ∧ (∀ j, j ≠ r → s'.region j = s.region j) ∧ s'.tiles = s.tiles ∧
      ∀ k, k / 2 = r → (s.stk k).st ≠ 4 → (s'.stk k).st = if (s.region r).goal = 0 then 2 else 3) ∧
    (s.power.trip = false → (s.region r).pwr ≠ 3 → (s.region r).rstBusy = true → ∃ s', exec (.regionReady r) s = .next s' ∧
      (s'.region r).rstBusy = false ∧ (s'.region r).pwr = (s.region r).pwr ∧ s'.tiles = s.tiles) ∧
    (s.power.trip = true ∨ ((s.region r).pwr ≠ 3 ∧ (s.region r).rstBusy = false) → exec (.regionReady r) s = .next s) ∧
    (s.regsOn = true →
      (s.job.img = none → (s.region r).pwr = 0 → (s.region r).rstBusy = false → s.stow.busy = false → s.stow.hostBusy = false →
        ∃ s', exec (.regionRst r) s = .next s' ∧ (s'.region r).rstBusy = true ∧ (s'.region r).refused = false ∧
          (s'.region r).fault = 0 ∧ (∀ t ∈ regionTiles r, s'.tile t = { st := if s.rel.fencedTiles.contains t then 9 else 1 }) ∧
          (∀ t, t ∉ regionTiles r → s'.tile t = s.tile t) ∧ ∀ j, j ≠ r → s'.region j = s.region j) ∧
      ((s.region r).pwr ≠ 0 ∨ (s.region r).rstBusy = true ∨ s.stow.busy = true ∨ s.stow.hostBusy = true ∨
          (s.job.img.isSome = true ∧ s.job.needs.testBit r = true) →
        exec (.regionRst r) s = .next (s.modRegion r fun x => { x with refused := true })))) ∧
  (∀ (s : State) (t : Nat), t < 2304 → s.regsOn = true →
    (s.regionOn (regionOf t) = false → exec (.tileRst t) s = .next s) ∧
    (s.regionOn (regionOf t) = true →
      (((s.tile t).st = 1 ∨ (s.tile t).st = 9) → t ∉ s.job.tiles →
        exec (.tileRst t) s = .next ((s.setTile t { st := (s.tile t).st }).modDbg fun d =>
          { d with recs := d.recs.filter fun e => !(e.1 / 2 ^ 12 == t) })) ∧
      ((¬ ((s.tile t).st = 1 ∨ (s.tile t).st = 9) ∨ t ∈ s.job.tiles) →
        exec (.tileRst t) s = .next (s.modTile t fun x => { x with misc := { x.misc with refused := true } })))) ∧
  (∀ (s : State) (k : Nat), k < 32 →
    ((s.stk k).st = 2 → (s.region (k / 2)).pwr ≠ 0 → exec (.hbmSelfRefreshIdle k) s = .next (s.modStk k fun x => { x with st := 3 })) ∧
    ((s.stk k).st ≠ 2 ∨ (s.region (k / 2)).pwr = 0 → exec (.hbmSelfRefreshIdle k) s = .next s)) ∧
  (∀ s : State,
    (s.regsOn = true →
      (s.helm.serialBusy.isSome = true →
        exec .deepIdleRequest s = .next (s.modPower fun p => { p with req := 1, preq := 1 }) ∧
        exec .alwaysOnOnlyRequest s = .next (s.modPower fun p => { p with req := 2, preq := 1 }) ∧
        exec .powerRequestNone s = .next (s.modPower fun p => { p with req := 0, preq := 1 })) ∧
      (s.helm.serialBusy = none → s.job.img.isSome = true →
        exec .deepIdleRequest s = .next (s.modPower fun p => { p with req := 1, preq := 2 }) ∧
        exec .alwaysOnOnlyRequest s = .next (s.modPower fun p => { p with req := 2, preq := 2 })) ∧
      (s.helm.serialBusy = none → s.job.img = none → s.stow.busy = false → s.stow.hostBusy = false →
        (s.power.deep = 0 → s.rel.sgRun ≠ 1 → ∃ s', exec .deepIdleRequest s = .next s' ∧ s'.power.deep = 1 ∧ s'.power.preq = 0 ∧
          ∀ r < 16, (s'.region r).pwr = 2 ∨ (s'.region r).pwr = 4) ∧
        (s.stow.area = 0 → ∃ s', exec .alwaysOnOnlyRequest s = .next s' ∧ s'.power.deep = 2 ∧ s'.power.chrono = s.power.chrono ∧
          s'.helm.run = false ∧ s'.helm.banks = s.helm.banks ∧ s'.rel.fTiles = s.rel.fTiles ∧ (∀ r, (s'.region r).pwr = 2) ∧
          ∀ t, (s'.tile t).sp = [])) ∧
      (s.helm.serialBusy = none → ∃ s', exec .powerRequestNone s = .next s' ∧ s'.power.deep = 0 ∧ s'.power.preq = 0 ∧
        ((∀ p < 32, (s.port p).st = 0 ∨ s.portAllowed p = true) → s'.tiles = s.tiles ∧ s'.regions = s.regions ∧ s'.job = s.job))) ∧
    (s.regsOn = false → exec .deepIdleRequest s = .next s ∧ exec .alwaysOnOnlyRequest s = .next s ∧ exec .powerRequestNone s = .next s) ∧
    (s.power.deep = 2 → s.pins.resetLow = false → ∃ s', exec .alwaysOnExit s = .next s' ∧ s'.power.deep = 0 ∧ s'.helm.stage = 0 ∧
      s'.power.chrono = s.power.chrono ∧ s'.power.smbCap = s.power.smbCap ∧ s'.rel.balBase = s.rel.balBase) ∧
    (s.power.deep ≠ 2 → exec .alwaysOnExit s = .next s))

/-- While the islands run: a power-manager period sets cap_step to the largest step from 16 to 64 whose compute draw fits C (16 if none), the allowed step to the least of cap, thermal and MAXN, and the running step from it; the current limiter moves current_step by -4 or +1 within 16 to 64 and its intervals; the thermal period moves thermal_step by -2 or +1. A droop starts a stretch, its end defers a waiting step by 1 microsecond, which then applies. Each LEDGER_ACCUMULATE adds the same energy to the total and, with a job loaded, to the ledger. A trip stops every region and rests every stack, and the latch clears only when all have cooled. No period changes a tile. -/
def Obligations.PowerManagement : Prop :=
  (∀ s : State, s.islands = true →
    let same := fun (s' : State) => s'.tiles = s.tiles ∧ s'.clusters = s.clusters ∧ s'.job = s.job ∧ s'.ports = s.ports ∧
      s'.power.chrono = s.power.chrono
    let runs := fun (s' : State) => s'.power.run = if s.power.recover then min s'.power.want s.power.run else s'.power.want
    (∀ m, ∃ s', exec (.powerManagerPeriod m) s = .next s' ∧ same s' ∧ runs s' ∧
      s'.power.allow = min s'.power.capStep (min s.power.thermStep s.power.maxN) ∧
      let c := (capShare m s.power.cap (100 * m.lnk - s.power.lnkL.getD (100 * m.lnk))).2.2.1
      let n := s'.power.capStep
      16 ≤ n ∧ n ≤ 64 ∧ (100 * (modelC m n : Int) ≤ c ∨ n = 16) ∧ (∀ j, n < j → j ≤ 64 → c < 100 * (modelC m j : Int)) ∧
      s'.stks = s.stks) ∧
    (∀ avg, 200000 < avg → s.power.lowerAt ≤ s.now → ∃ s', exec (.currentLimiterSample avg) s = .next s' ∧ same s' ∧ runs s' ∧
      s'.power.curStep = max 16 (s.power.curStep - 4) ∧ s'.power.lowerAt = s.now + 1000 ∧ s'.power.allow = s.power.allow) ∧
    (∀ avg, avg < 180000 → s.power.raiseAt ≤ s.now → ∃ s', exec (.currentLimiterSample avg) s = .next s' ∧ same s' ∧ runs s' ∧
      s'.power.curStep = min 64 (s.power.curStep + 1) ∧ s'.power.raiseAt = s.now + 10000 ∧ s'.power.allow = s.power.allow) ∧
    (∀ avg, 180000 ≤ avg → avg ≤ 200000 → exec (.currentLimiterSample avg) s = .next s) ∧
    (∀ m : ThermalSample,
      let hot := max (hottest m.dies) (hottest m.ios)
      ∃ s', exec (.thermalControlPeriod m) s = .next s' ∧ same s' ∧
        (s.target < hot → s'.power.thermStep = max 16 (s.power.thermStep - 2)) ∧
        (hot + 2 < s.target → s'.power.thermStep = min 64 (s.power.thermStep + 1)) ∧
        (hot ≤ s.target → s.target ≤ hot + 2 → s'.power.thermStep = s.power.thermStep) ∧
        (∀ r < 16, (s'.region r).temp = m.dies.getD r 0 ∧ (s'.region r).iotemp = m.ios.getD r 0) ∧
        ∀ k < 32, (s'.stk k).hot = if 95 < m.stks.getD k 0 then true else if m.stks.getD k 0 < 90 then false else (s.stk k).hot) ∧
    (∀ m : TelemetrySample, ∃ s', exec (.telemetrySample m) s = .next s' ∧ same s' ∧ s'.power.telem = m ∧
      s'.power.telemNs = s.power.chrono ∧ s'.power.vin = m.mv) ∧
    (∀ acts : List Nat, ∃ s', exec (.ledgerAccumulate acts) s = .next s' ∧ same s' ∧
      s'.power.total = s.power.total + BitVec.ofNat 64 ((acts.zipIdx).map fun p => p.1 * s.power.coefs.getD p.2 (Config.ledgerCoef p.2)).sum ∧
      (s.job.img = none → s'.power.ledger = s.power.ledger) ∧
      (s.job.img.isSome = true → s'.power.ledger - s.power.ledger = s'.power.total - s.power.total)) ∧
    (∀ kind idx temp, kind ≤ 2 → idx < (if kind = 2 then 32 else 16) → s.power.trip = false →
      (temp < (if kind = 2 then 105 else 115) → exec (.thermalTrip kind idx temp) s = .next s) ∧
      ((if kind = 2 then 105 else 115) ≤ temp → ∃ s', exec (.thermalTrip kind idx temp) s = .next s' ∧ s'.power.trip = true ∧
        s'.power.alerts.testBit 2 = true ∧ (s.shows = true → s'.thermtripL = .low ∧ s'.alertL = .low) ∧ (∀ r < 16, (s'.region r).pwr = 4 ∧ (s'.region r).stretch = false) ∧
        (∀ k < 32, (s'.stk k).st ≠ 1 ∧ (s'.stk k).st ≠ 2) ∧ s'.rel.sgRun = 0 ∧
        (s.job.img.isSome = true → s.job.js ≠ 6 → s'.job.js = 6 ∧ s'.job.prim.cause = 0x46)))) ∧
  (∀ s : State, s.islands = false → ∀ m avg th tl acts,
    exec (.powerManagerPeriod m) s = .next s ∧ exec (.currentLimiterSample avg) s = .next s ∧
    exec (.thermalControlPeriod th) s = .next s ∧ exec (.telemetrySample tl) s = .next s ∧ exec (.ledgerAccumulate acts) s = .next s) ∧
  (∀ (s : State) (coefs : List Nat), (s.helm.run = true → exec (.ledgerRefit coefs) s =
    .next (s.modPower fun p => { p with coefs := coefs, fitNs := s.now })) ∧
    (s.helm.run = false → exec (.ledgerRefit coefs) s = .next s)) ∧
  (∀ (s : State) (r : Nat), r < 16 →
    let x := s.region r
    (x.pwr = 0 → exec (.droopDetect r) s = .next (s.modRegion r fun x => { x with stretch := true, deferOn := false })) ∧
    (x.pwr ≠ 0 → exec (.droopDetect r) s = .next s) ∧
    (x.stretch = true → exec (.droopStretchEnd r) s = .next (s.modRegion r fun x => { x with stretch := false, deferOn := true })) ∧
    (x.stretch = false → exec (.droopStretchEnd r) s = .next s) ∧
    (x.deferOn = true → exec (.stepDeferExpiry r) s = .next (s.modRegion r fun x => { x with
      deferOn := false, run := x.defer.getD x.run, defer := none })) ∧
    (x.deferOn = false → exec (.stepDeferExpiry r) s = .next s)) ∧
  (∀ s : State, s.regsOn = true → s.power.trip = true →
    (s.cooled = false → exec .devPwrStatTripClear s = .next s) ∧
    (s.cooled = true → s.power.deep ≠ 1 → ∃ s', exec .devPwrStatTripClear s = .next s' ∧ s'.power.trip = false ∧
      (∀ r < 16, (s'.region r).pwr = if (s.region r).pwr = 4 then 1 else (s.region r).pwr) ∧
      ((∀ p < 32, (s.port p).st = 0 ∨ s.portAllowed p = true) → s'.tiles = s.tiles)))

/-- The undervoltage clamp brings every running die to step 16 at once. A brownout and a lost reference clock leave only the islands: the chronometer and service time go on, SRAM and job are gone, ports that ran are DOWN, fuses, flash, fences and caps are kept; on recovery the module starts again. Below 36 V the islands stop, and power-on starts from nothing but fuses, flash and fences. RESET_L low resets all else and keeps the ballast base; its deassertion samples the slot pins with the chronometer at 0. In bring-up the boot ROM starts, and runs the active bank if it verifies, else the other, else stays in boot ROM. READY_OD is low from power-on until the helm runs, and in reset, where the other outputs are released. EXTEST acts only under RESET_L. -/
def Obligations.InputResetsAndBringUp : Prop :=
  ∀ s : State,
    let cold := fun (s' : State) => s'.helm.banks = s.helm.banks ∧ s'.helm.bank = s.helm.bank ∧ s'.helm.fuse = s.helm.fuse ∧
      s'.rel.fTiles = s.rel.fTiles ∧ s'.rel.failed = s.rel.failed ∧ s'.rel.retired = s.rel.retired ∧ s'.helm.run = false ∧
      s'.helm.stage = 0 ∧ s'.job = {} ∧ (∀ t, (s'.tile t).sp = []) ∧ (∀ r, (s'.region r).pwr = 2) ∧ s'.pending = s.pending
    (∀ mv, (s.islands = true → mv < 46000 → ∃ s', exec (.uvClamp mv) s = .next s' ∧ s'.power.clamp = true ∧ s'.power.run = 16 ∧
        s'.power.vin = mv ∧ s'.power.alerts.testBit 0 = true ∧
        (∀ r < 16, (s.region r).pwr = 0 → (s'.region r).run = 16 ∧ (s'.region r).defer = none) ∧ s'.tiles = s.tiles ∧ s'.job = s.job) ∧
      (s.islands = false ∨ 46000 ≤ mv → exec (.uvClamp mv) s = .next s) ∧
      (s.islands = true → s.power.clamp = true → 47000 < mv →
        exec (.uvRelease mv) s = .next (s.modPower fun p => { p with vin := mv, clamp := false, recover := true })) ∧
      (s.power.clamp = false ∨ mv ≤ 47000 → exec (.uvRelease mv) s = .next s) ∧
      (s.power.on = true → s.power.brown = false → (mv < 42000 ∨ 62000 < mv) → ∃ s', exec (.brownout mv) s = .next s' ∧ cold s' ∧
        s'.power.brown = true ∧ s'.power.chrono = s.power.chrono ∧ s'.power.smbCap = s.power.smbCap ∧ s'.rel.hours = s.rel.hours ∧
        ∀ p < 32, (s'.port p).st = if (s.port p).st = 0 then 0 else 6) ∧
      (42000 ≤ mv → mv ≤ 62000 → exec (.brownout mv) s = .next s) ∧
      (s.power.on = true → s.power.brown = true → s.power.refOk = true → s.pins.resetLow = false → 48000 ≤ mv → mv ≤ 59500 →
        ∃ s', exec (.brownoutRecovery mv) s = .next s' ∧ cold s' ∧ s'.power.brown = false ∧ s'.power.brownF = true ∧
          s'.power.chrono = s.power.chrono) ∧
      (s.power.brown = false ∨ mv < 48000 ∨ 59500 < mv → exec (.brownoutRecovery mv) s = .next s) ∧
      (s.power.on = true → mv < 36000 → ∃ s', exec (.islandsStop mv) s = .next s' ∧ cold s' ∧ s'.power.on = false ∧ s'.readyOd = .released ∧
        s'.power.chrono = 0 ∧ s'.power.smbCap = 0 ∧ s'.rel.balBase = 0) ∧
      (s.power.on = false ∨ 36000 ≤ mv → exec (.islandsStop mv) s = .next s) ∧
      (∀ slot, s.power.on = false → 36000 ≤ mv → ∃ s', exec (.powerOn mv slot) s = .next s' ∧ cold s' ∧ s'.power.on = true ∧ s'.readyOd = .low ∧
        s'.power.chrono = 0 ∧ s'.pins.slot = slot % 8) ∧
      (∀ slot, s.power.on = true → exec (.powerOn mv slot) s = .next s) ∧
      (s.power.on = true → s.power.refOk = false → 48000 ≤ mv → mv ≤ 59500 → s.power.brown = false →
        exec (.refclkReturn mv) s = .next (s.modPower fun p => { p with vin := mv, refOk := true })) ∧
      (s.power.on = true → s.power.refOk = false → 48000 ≤ mv → mv ≤ 59500 → s.power.brown = true → s.pins.resetLow = false →
        ∃ s', exec (.refclkReturn mv) s = .next s' ∧ cold s' ∧ s'.power.refOk = true ∧ s'.power.brown = false ∧ s'.power.brownF = true)) ∧
    (s.islands = true → ∃ s', exec .refclkLoss s = .next s' ∧ cold s' ∧ s'.power.refOk = false ∧ s'.power.brown = true ∧
      s'.power.trip = s.power.trip) ∧
    (s.islands = false → exec .refclkLoss s = .next (s.modPower fun p => { p with refOk := false })) ∧
    (s.power.on = true → s.pins.resetLow = false → ∃ s', exec .resetLAssert s = .next s' ∧ cold s' ∧ s'.pins.resetLow = true ∧
      s'.readyOd = .low ∧ s'.alertL = .released ∧ s'.thermtripL = .released ∧ (∀ a, s'.smbAcks a = false) ∧ (∀ p, s'.lanesRun p = false) ∧
      s'.power.chrono = 0 ∧ s'.rel.balBase = s.rel.balBase ∧ s'.rel.hours = s.rel.hours) ∧
    (s.pins.resetLow = true ∨ s.power.on = false → exec .resetLAssert s = .next s) ∧
    (∀ slot, (s.pins.resetLow = true → ∃ s', exec (.resetLDeassert slot) s = .next s' ∧ s'.pins.resetLow = false ∧
        s'.pins.slot = slot % 8 ∧ s'.power.chrono = 0 ∧ s'.helm = s.helm ∧ s'.tiles = s.tiles) ∧
      (s.pins.resetLow = false → exec (.resetLDeassert slot) s = .next s)) ∧
    (∀ v, exec (.slotIdChange v) s = .next (s.modPins fun p => { p with slotNow := v % 8, changed := decide (v % 8 ≠ p.slot) })) ∧
    (∀ chain, (s.pins.resetLow = true → s.power.on = true → exec (.extest chain) s = .next (s.modPins fun p => { p with chain := chain })) ∧
      (s.pins.resetLow = false → exec (.extest chain) s = .next s)) ∧
    (s.islands = true → s.power.refOk = true → s.power.deep ≠ 2 → s.helm.stage = 0 → 48000 ≤ s.power.vin → s.power.vin ≤ 59500 →
      exec .helmDiePowerUp s = .next ((s.modHelm fun h => { h with stage := 1 }).modRl fun r => { r with st := 2 })) ∧
    (s.helm.stage ≠ 0 ∨ s.islands = false → exec .helmDiePowerUp s = .next s) ∧
    (s.helm.stage = 1 ∨ s.helm.stage = 2 → s.helm.restart = none →
      let runs := fun (b : Nat) => ∃ s', exec .bootRomVerifyDone s = .next s' ∧ s'.helm.run = true ∧ s'.helm.stage = 4 ∧
        s'.helm.bank = b ∧ s'.helm.ver = (Map.get {} s.helm.banks b).ver ∧ s'.pins.readyLow = false ∧
        (s.pins.resetLow = false → s'.readyOd = .released) ∧ ∀ r < 16, (s'.region r).pwr = 3
      (s.helm.verifies s.helm.bank = true → runs s.helm.bank) ∧
      (s.helm.verifies s.helm.bank = false → s.helm.verifies (1 - s.helm.bank) = true → runs (1 - s.helm.bank)) ∧
      (s.helm.verifies s.helm.bank = false → s.helm.verifies (1 - s.helm.bank) = false →
        exec .bootRomVerifyDone s = .next (s.modHelm fun h => { h with stage := 5 }))) ∧
    (s.helm.stage ≠ 1 ∧ s.helm.stage ≠ 2 ∨ s.helm.restart ≠ none → exec .bootRomVerifyDone s = .next s)

/-- FW_STAGE of a package that is not read, of the wrong length, not signed or below the fuse level ends with the status of that failure and writes no bank; else the inactive bank holds it and it is staged. FW_ACTIVATE without a staged bank ends with STATE; with one the helm restarts. A watchdog expiry stops the helm, counts, and restarts the running bank unless it is the third within an hour; a running job goes on. A restart ends on the first bank that verifies, the activated bank then being the running one; with none the helm stays in boot ROM. ATTEST answers the length of a report that carries the nonce and a signature over all before it. -/
def Obligations.FirmwareAndAttestation : Prop :=
  (∀ (s : State) (k : Nat) (pkg : Option (List Byte)), s.Waits k 0x50 →
    (pkg = none → s.Answers (.fwStage k pkg) k 9 [] s) ∧
    ∀ b, pkg = some b →
      let st := s.helm.stageStatus (s.cmdArg k 2).toNat b
      (st ≠ 0 → s.Answers (.fwStage k pkg) k st [] s) ∧
      (st = 0 → ∃ s', exec (.fwStage k pkg) s = .next s' ∧ s.Posted s' k 0 [place 0 32 (leAt b 8 4)] ∧ s'.helm.staged = true ∧
        Map.get {} s'.helm.banks (1 - s.helm.bank) = {
          pkg := b, ok := true, ver := leAt b 8 4, svn := leAt b 12 2, key := leAt b 6 1, meas := pkgDigest b } ∧
        Map.get {} s'.helm.banks s.helm.bank = Map.get {} s.helm.banks s.helm.bank ∧ s'.helm.bank = s.helm.bank ∧
        s'.helm.run = true ∧ s'.helm.fuse = s.helm.fuse ∧ s'.tiles = s.tiles ∧ s'.job = s.job)) ∧
  (∀ (s : State) (k : Nat), s.Waits k 0x51 → s.rel.sgRun = 0 →
    (s.helm.staged = false → s.Answers (.fwActivate k) k 2 [] s) ∧
    (s.helm.staged = true → ∃ s', exec (.fwActivate k) s = .next s' ∧ s'.helm.run = false ∧ s'.helm.stage = 2 ∧
      s'.helm.restart = some (0, k) ∧ s'.helm.bank = s.helm.bank ∧ (s'.page k).done = false ∧ s'.tiles = s.tiles ∧ s'.job = s.job)) ∧
  (∀ s : State,
    (s.helm.run = false → s.helm.restart = none → exec .helmWatchdogExpiry s = .next s) ∧
    ((s.helm.run = true ∨ s.helm.restart.isSome = true) → ∃ s', exec .helmWatchdogExpiry s = .next s' ∧ s'.helm.run = false ∧
      s'.helm.wdcnt = min 255 (s.helm.wdcnt + 1) ∧ s'.power.alerts.testBit 5 = true ∧ s'.tiles = s.tiles ∧
      (s.job.js = 4 → s'.job.js = 4) ∧
      (s.helm.restart = none → (s.helm.wdTimes.filter fun t => decide (s.now ≤ t + 3600000000000)).length < 2 →
        s'.helm.restart = some (1, 0) ∧ s'.helm.stage = 2 ∧ s'.helm.bank = s.helm.bank)) ∧
    (s.helm.restart = none → ∀ ok, exec (.helmRestartDone ok) s = .next s) ∧
    (s.helm.restart = some (1, 0) →
      (s.helm.verifies s.helm.bank = true → ∃ s', exec (.helmRestartDone true) s = .next s' ∧ s'.helm.run = true ∧
        s'.helm.stage = 4 ∧ s'.helm.bank = s.helm.bank ∧ s'.helm.restart = none ∧ s'.helm.fuse = s.helm.fuse ∧ s'.job = s.job) ∧
      (s.helm.verifies s.helm.bank = false → s.helm.verifies (1 - s.helm.bank) = false → ∀ ok,
        exec (.helmRestartDone ok) s = .next (s.modHelm fun h => { h with stage := 5, restart := none }))) ∧
    (∀ k, s.helm.restart = some (0, k) → s.helm.verifies (1 - s.helm.bank) = true → ∃ s', exec (.helmRestartDone true) s = .next s' ∧
      s'.helm.run = true ∧ s'.helm.bank = 1 - s.helm.bank ∧ s'.helm.staged = false ∧ s'.helm.restart = none ∧ (s'.page k).done = true ∧
      s'.helm.fuseTo = if bit (argOf (s.page k).cur 1) 0 then max s.helm.fuseTo (Map.get {} s.helm.banks (1 - s.helm.bank)).svn
        else s.helm.fuseTo) ∧
    (s.helm.run = true → exec .helmFlashWrite s = .next (s.modRel fun r => { r with flash := r.evid, flashH := r.hours })) ∧
    (s.helm.run = false → exec .helmFlashWrite s = .next s)) ∧
  (∀ (s : State) (k : Nat), s.Waits k 0x52 →
    let job := bit (s.cmdArg k 6) 0
    (job = true → s.job.js < 2 → s.Answers (.attest k) k 2 [] s) ∧
    (job = false ∨ 2 ≤ s.job.js → ∃ body : List Byte,
      let r := body ++ padTo 64 (Config.rootSign 0 (Config.sha256 body))
      (body.drop 16).take 32 = (List.range 4).flatMap (fun i => wordBytes (s.cmdArg k (1 + i))) ∧
      s.Answers (.attest k) k 0 [BitVec.ofNat 64 r.length] ((s.modHelm fun h => { h with report := r }).modRl fun x => { x with
        hostOut := x.hostOut ++ [((s.cmdArg k 5).toNat, r)] })))

/-- A due sight with no job loaded runs every region that is off or asleep; at a stow point after the freeze of a job that allows it the sight runs with the tiles held. Without one due, or while one runs, nothing happens. A sight that ends without a fault records the time, and after a sight between jobs every region returns to the state it had. A fault found in a tile of the job at a stow point fences the tile or records the pending decision, and stops the job with SIGHT_FAIL naming tile and unit. -/
def Obligations.MarginSights : Prop :=
  ∀ s : State,
    let due := s.rel.sgNow = true ∨ s.rel.sgHours * 3600000000000 ≤ s.rel.hours - s.rel.sgSvc
    (s.helm.run = true → due → s.rel.sgRun = 0 → s.islands = true → s.power.trip = false →
      (s.job.img = none → s.stow.busy = false → s.stow.hostBusy = false → s.power.deep ≠ 2 → (∀ r < 16, (s.region r).pwr ≠ 3) →
        ∃ s', exec .marginSight s = .next s' ∧ s'.rel.sgRun = 1 ∧
          s'.rel.sgSaved = (List.range 16).map (fun r => (r, (s.region r).pwr)) ∧ s'.tiles = s.tiles ∧
          ∀ r < 16, (s'.region r).pwr = if (s.region r).pwr = 1 ∨ (s.region r).pwr = 2 then 0 else (s.region r).pwr) ∧
      (s.job.img.isSome = true → s.rel.sgStow = true → s.stow.en = true → s.stow.freeze = true → s.job.js = 4 →
        100000000 ≤ (s.job.reg 0x10020).toNat → exec .marginSight s = .next (s.modRel fun x => { x with sgRun := 2 }))) ∧
    (¬ due ∨ s.rel.sgRun ≠ 0 ∨ s.helm.run = false → exec .marginSight s = .next s) ∧
    (∀ found, s.rel.sgRun = 0 ∨ s.power.clamp = true → exec (.sightEnd found) s = .next s) ∧
    (s.rel.sgRun = 1 → s.power.clamp = false → ∃ s', exec (.sightEnd []) s = .next s' ∧ s'.rel.sgRun = 0 ∧ s'.rel.sgOut = 1 ∧
      s'.rel.sgLast = s.now ∧ s'.rel.sgSvc = s.rel.hours ∧ s'.rel.sgNow = false ∧ s'.rel.fTiles = s.rel.fTiles ∧
      ∀ g : Nat → Nat, s.rel.sgSaved = (List.range 16).map (fun r => (r, g r)) → (∀ r < 16, (s.region r).pwr = 0 ∧ g r ≤ 2) →
        ∀ r < 16, (s'.region r).pwr = g r) ∧
    (∀ id unit, id < 2304 → s.rel.sgRun = 2 → s.power.clamp = false → s.job.img.isSome = true → s.job.js ≠ 6 →
      ∃ s', exec (.sightEnd [{ kind := 0, id := id, unit := unit }]) s = .next s' ∧ s'.rel.sgRun = 0 ∧ s'.rel.sgOut = 2 ∧
        s'.job.js = 6 ∧ s'.job.prim.cause = 0x47 ∧ s'.job.prim.detail = id + unit % 256 * 2 ^ 16 ∧
        ((0, id) ∈ s'.rel.pendF ∨ id ∈ s'.rel.fTiles))

/-- With the islands running and RESET_L high every SMBus read answers its quantity and changes nothing else. A cap write of 0 or of 2,500 to 8,400 W sets the SMBus cap, any other is ignored. The cap in force is the lower of the SMBus cap and the host cap, a cap of 0 taking no part, and 8,400 W with neither. A write to the alerts clears the bits it names, but for those whose condition still holds. Under RESET_L or without power nothing answers and nothing changes. -/
def Obligations.SmbusTarget : Prop :=
  (∀ s : State, s.power.on = true → s.pins.resetLow = false →
    let ans := fun (c : Instr) (w : Word) => exec c s = .next (s.modPins fun p => { p with smb := some w })
    let t := s.power.telem
    ans .smbDevInfo 0x4B510F2400C00000 ∧ ans .smbHelmVer (place 0 16 (s.helm.ver / 2 ^ 16)) ∧
    ans .smbReady (place 0 16 (fld s.readyWord 0 16)) ∧ ans .smbInputMv (place 0 16 t.mv) ∧
    ans .smbInputCurrent (place 0 16 t.cur10mA) ∧ ans .smbInputPower (place 0 16 t.watts) ∧
    ans .smbHottestDie (place 0 8 (max (hottest t.temps.dies) (hottest t.temps.ios))) ∧
    ans .smbHottestStack (place 0 8 (hottest t.temps.stks)) ∧ ans .smbThrottle (place 0 16 s.activeMask) ∧
    ans .smbCapRead (place 0 16 s.power.smbCap) ∧ ans .smbThermalTarget (place 0 8 s.power.ttgt) ∧
    ans .smbAlertsRead (place 0 16 s.power.alerts) ∧ ans .smbChrono s.power.chrono ∧
    ans .smbModid (place 0 16 (fld s.net.modid 0 16)) ∧ ans .smbEnergy (BitVec.ofNat 64 (s.power.total.toNat / 1000000)) ∧
    (∃ cap, ans .smbCapInForce (place 0 16 cap) ∧ (s.power.hostCap = 0 → s.power.smbCap = 0 → cap = 8400) ∧
      (s.power.hostCap = 0 → s.power.smbCap ≠ 0 → cap = s.power.smbCap) ∧ (s.power.hostCap ≠ 0 → s.power.smbCap = 0 → cap = s.power.hostCap) ∧
      (s.power.hostCap ≠ 0 → s.power.smbCap ≠ 0 → cap = min s.power.hostCap s.power.smbCap)) ∧
    (∀ v : BitVec 16,
      ((v = 0 ∨ 2500 ≤ v.toNat ∧ v.toNat ≤ 8400) → ∃ s', exec (.smbCapWrite v) s = .next s' ∧
        s' = (s.modPower fun p => { p with smbCap := v.toNat }).modPins fun p => { p with smb := s'.pins.smb }) ∧
      (¬ (v = 0 ∨ 2500 ≤ v.toNat ∧ v.toNat ≤ 8400) → ∃ s', exec (.smbCapWrite v) s = .next s' ∧
        s' = s.modPins fun p => { p with smb := s'.pins.smb }) ∧
      (∃ s', exec (.smbAlertsClear v) s = .next s' ∧ s'.tiles = s.tiles ∧ s'.job = s.job ∧ s'.power.smbCap = s.power.smbCap ∧
        ∀ b < 6, s'.power.alerts.testBit b = (s.power.alerts.testBit b && !(bit (v.setWidth 64) b) || s.alertHolds b)))) ∧
  (∀ s : State, (s.power.on = false ∨ s.pins.resetLow = true) → ∀ v,
    ∀ c ∈ [Instr.smbDevInfo, .smbHelmVer, .smbReady, .smbInputMv, .smbInputCurrent, .smbInputPower, .smbHottestDie, .smbHottestStack,
      .smbThrottle, .smbCapRead, .smbCapWrite v, .smbCapInForce, .smbThermalTarget, .smbAlertsRead, .smbAlertsClear v, .smbChrono,
      .smbModid, .smbEnergy], exec c s = .next (s.modPins fun p => { p with smb := none }))

/-- With the engine powered and idle and no owner policy against it: HALT halts the stream, the tile, this member's tiles, or asks for the boundary; RELEASE frees what no lower scope holds, that of the job at the tick the root chooses 100 us ahead; STEP of a halted stream or tile of a job waits for its instructions, and at scope 3 runs one superstep; and ends with STATE while a tile is halted at module scope; STATUS and EVENT answer; READ shows registers and scratchpad bytes, WRITE changes exactly the bytes named and records that job state was written. Memory that does not exist ends with BAD, memory not available with NOT_READY, a command while another runs with BUSY and without effect. HALT_NOTICE of another member sets or clears its notice. DEBUG_TUNNEL runs the same command and answers its page. -/
def Obligations.SextantCommands : Prop :=
  let fin := fun (m : State) (st : Nat) (r1 r2 : Word) => m.modDbg fun d => { d with sxStat := st, sx1 := r1, sx2 := r2, sxData := [] }
  (∀ s : State, s.power.on = true → s.power.brown = false → s.dbg.sxBusy = false → s.regsOn = true →
    (s.helm.policy % 4 < 2 ∨ s.job.img = none) →
    (∀ (t : Nat) (q : Strm), t < 2304 →
      (s.tileOn t = false → exec (.halt 0 t q) s = .next (fin s 2 0 0) ∧ exec (.status 0 t) s = .next (fin s 2 0 0) ∧
        exec (.event t) s = .next (fin s 2 0 0)) ∧
      (s.tileOn t = true →
        (∃ s', exec (.halt 0 t q) s = .next s' ∧ s'.dbg.sxStat = 0 ∧ (s'.tile t).halted q = true ∧
          (∀ r, r ≠ q → (s'.tile t).halted r = (s.tile t).halted r) ∧ (∀ u, u ≠ t → s'.tile u = s.tile u) ∧ s'.job = s.job) ∧
        (∃ s', exec (.halt 1 t q) s = .next s' ∧ s'.dbg.sxStat = 0 ∧ (∀ r, (s'.tile t).halted r = true) ∧
          (∀ u, u ≠ t → s'.tile u = s.tile u) ∧ s'.job = s.job) ∧
        (∃ s', exec (.release 0 t q) s = .next s' ∧ s'.dbg.sxStat = 0 ∧ (s'.tile t).halted q = false ∧
          (∀ r, r ≠ q → (s'.tile t).halted r = (s.tile t).halted r) ∧ (∀ u, u ≠ t → s'.tile u = s.tile u) ∧ s'.job = s.job) ∧
        (∃ s', exec (.release 1 t q) s = .next s' ∧ s'.dbg.sxStat = 0 ∧ (∀ r, (s'.tile t).halted r =
          ((s.tile t).halted r && decide (Map.get 0 (s.tile t).misc.haltAt (Strm.code r) < 1))) ∧ ∀ u, u ≠ t → s'.tile u = s.tile u) ∧
        ((s.tile t).halted q = true → s.steppable t = true → exec (.step 0 t q) s = .next
          ((s.modTile t fun x => { x with misc := { x.misc with stepping := 2 ^ Strm.code q } }).modDbg fun d => { d with
            sxBusy := true, sxStat := 0xFF, sxPage := none, sx1 := 0, sx2 := 0, sxData := [] })) ∧
        ((s.tile t).halted q = false ∨ s.steppable t = false → exec (.step 0 t q) s = .next (fin s 3 0 0)) ∧
        exec (.status 0 t) s = .next (fin s 0 (s.tileState t) (s.tile t).misc.dbg) ∧
        exec (.event t) s = .next (fin (s.debugEvent t 5 4 0 0 0) 0 0 0) ∧
        (∀ addr len, sxRange 2 t addr len = true → (s.tile t).io.acc = [] →
          (∃ s', exec (.read 2 t addr len) s = .next s' ∧ s'.dbg.sxStat = 0 ∧ s'.tiles = s.tiles ∧
            (len ≠ 8 → s'.dbg.sxData = wordsOf (Map.slice 0 (s.tile t).sp addr len) (len / 8)) ∧
            (len = 8 → s'.dbg.sx2 = wordAt (Map.slice 0 (s.tile t).sp addr 8) 0)) ∧
          (∀ data : List Word, data.length = len / 8 → s.tileRuns t = false → ∃ s', exec (.write 2 t addr len data) s = .next s' ∧
            s'.dbg.sxStat = 0 ∧ Map.slice 0 (s'.tile t).sp addr len = data.flatMap wordBytes ∧
            (∀ j, j < addr ∨ addr + len ≤ j → Map.get 0 (s'.tile t).sp j = Map.get 0 (s.tile t).sp j) ∧
            (∀ u, u ≠ t → s'.tile u = s.tile u) ∧
            s'.dbg.wrote = (s.dbg.wrote || (s.job.img.isSome && s.job.tiles.contains t))))) ∧
      (∀ space addr len, space < 16 → addr < 2 ^ 64 → len < 2 ^ 32 → ∀ data,
        (sxRange space t addr len = false → exec (.read space t addr len) s = .next (fin s 1 0 0) ∧
          exec (.write space t addr len data) s = .next (fin s 1 0 0)) ∧
        (sxRange space t addr len = true → s.sxReady space t addr len = false →
          exec (.read space t addr len) s = .next (fin s 2 0 0)))) ∧
    (∀ (t : Nat) (q : Strm),
      (∃ s', exec (.halt 2 t q) s = .next s' ∧ s'.dbg.sxStat = 0 ∧ (∀ u ∈ s.job.tiles, ∀ r, (s'.tile u).halted r = true) ∧
        ∀ u, u ∉ s.job.tiles → s'.tile u = s.tile u) ∧
      (s.job.js = 4 → s.dbg.jobHalt = false → exec (.halt 3 t q) s =
        .next (fin (s.modJob fun j => { j with wave := { j.wave with haltReq := max 1 j.wave.haltReq } }) 0 0 0)) ∧
      (s.job.js ≠ 4 → exec (.halt 3 t q) s = .next (fin s 3 0 0) ∧ exec (.release 3 t q) s = .next (fin s 3 0 0) ∧
        exec (.step 3 t q) s = .next (fin s 3 0 0)) ∧
      (s.job.js = 4 → exec (.release 3 t q) s = .next (fin s.askRelease 0 0 0)) ∧
      (s.job.js = 4 → s.dbg.jobHalt = true → s.moduleHalted = true → exec (.step 3 t q) s = .next (fin s 3 0 0)) ∧
      (s.job.js = 4 → s.dbg.jobHalt = true → s.moduleHalted = false → ∃ s', exec (.step 3 t q) s = .next s' ∧
        s'.dbg.sxStat = 0 ∧ s'.dbg.relAt = s.askRelease.dbg.relAt ∧ s'.job.wave.oneStep = true) ∧
      exec (.step 2 t q) s = .next (fin s 1 0 0) ∧
      exec (.status 2 t) s = .next (fin s 0 (s.jobStatus.headD 0) s.dbg.fixStat))) ∧
  (∀ (s : State) (scope t : Nat) (q : Strm), s.power.on = true → s.power.brown = false →
    (s.dbg.sxBusy = true → exec (.halt scope t q) s = .next (s.modDbg fun d => { d with sxStat := 4 })) ∧
    (s.dbg.sxBusy = false → s.regsOn = false → exec (.halt scope t q) s = .next (fin s 2 0 0)) ∧
    (s.dbg.sxBusy = false → s.regsOn = true → 2 ≤ s.helm.policy % 4 → s.job.img.isSome = true → scope < 4 →
      exec (.halt scope t q) s = .next (fin s 3 0 0) ∧ exec (.step scope t q) s = .next (fin s 3 0 0))) ∧
  (∀ (s : State) (m : Nat), s.job.img.isSome = true → m ∈ s.job.members → m ≠ s.modid →
    exec (.haltNotice m .halted) s = .next (s.modJob fun j => { j with notices := (m :: j.notices).eraseDups }) ∧
    exec (.haltNotice m .released) s = .next (s.modJob fun j => { j with notices := j.notices.filter fun n => decide (n ≠ m) }) ∧
    ∀ n, s.job.js = 4 → ∃ s', exec (.haltNotice m (.release n)) s = .next s' ∧ s'.dbg.relAt = some n ∧
      s'.job = s.job ∧ s'.tiles = s.tiles) ∧
  (∀ s : State, s.dbg.relAt = none ∨ (∃ n, s.dbg.relAt = some n ∧ s.now < n) → s.tickRelease = s) ∧
  (∀ (s : State) (n : Nat), s.dbg.relAt = some n → n ≤ s.now →
    s.tickRelease.dbg.jobHalt = false ∧ s.tickRelease.dbg.relAt = none ∧ (∀ u, u ∉ s.job.tiles → s.tickRelease.tile u = s.tile u) ∧
    ∀ u ∈ s.job.tiles, ∀ r, (s.tickRelease.tile u).halted r =
      ((s.tile u).halted r && decide (Map.get 0 (s.tile u).misc.haltAt (Strm.code r) < 3))) ∧
  (∀ (s : State) (k : Nat) (buf : List Word), s.Waits k 0x7F → s.dbg.sxBusy = false →
    let out := (s.take k).sextant (s.cmdArg k 1) (s.cmdArg k 2) (s.cmdArg k 3) buf
    (out.2 = none → exec (.debugTunnel k buf) s = .next (out.1.modDbg fun d => { d with sxBusy := true, sxStat := 0xFF, sxPage := some k })) ∧
    ∀ r, out.2 = some r → ∃ s', exec (.debugTunnel k buf) s = .next s' ∧ (s'.page k).done = true ∧ s'.tiles = out.1.tiles ∧
      s'.dbg = out.1.dbg ∧ s'.job = out.1.job)

/-- FIX_LATCH before the latch tick changes nothing, nor does it while a fix is held unless a job fault set it; else the fix latches with its source and tick, OVER set if one was held, FIX_TRIG driven unless the latch came from there, nothing stops, and the records hold what stood: of each tile on its state and fault, zeros of one that is not, of the module its superstep. A time trigger that is armed and whose time has come sets its tick as the latch tick, an armed edge the next one; one not armed, and any while a fix is held or its tick set, does nothing. FIX_COPY_DONE raises vector 67 once for a latch. -/
def Obligations.FixLatchesOnce : Prop :=
  ∀ s : State,
    (s.dbg.pendSrc = none → exec .fixLatch s = .next s) ∧
    (∀ src, s.dbg.pendSrc = some src →
      (s.now < s.dbg.pendTick ∨ (s.dbg.latched = true ∧ s.dbg.pendJob = false) → exec .fixLatch s = .next s) ∧
      (s.dbg.pendTick ≤ s.now → (s.dbg.latched = false ∨ s.dbg.pendJob = true) → ∃ s', exec .fixLatch s = .next s' ∧
        s'.dbg.latched = true ∧ s'.dbg.late = false ∧ s'.dbg.src = src ∧ s'.dbg.tick = BitVec.ofNat 64 s.dbg.pendTick ∧
        s'.dbg.overF = s.dbg.latched ∧ s'.dbg.pendSrc = none ∧ (src = 4 → s'.dbg.trigLow = false) ∧ (src ≠ 4 → s'.dbg.trigLow = true) ∧
        s'.dbg.armed = s.dbg.armed ∧ s'.dbg.copied = false ∧ s'.tiles = s.tiles ∧ s'.clusters = s.clusters ∧ s'.regions = s.regions ∧
        s'.stks = s.stks ∧ s'.ports = s.ports ∧ s'.job = s.job ∧
        (∀ t < 2304, (s.tileOn t = true → Map.get 0 s'.dbg.recs (fixKey 0 t 0) = s.tileState t ∧
            Map.get 0 s'.dbg.recs (fixKey 0 t 11) = (s.tile t).fault) ∧
          (s.tileOn t = false → ∀ i < 4096, Map.get 0 s'.dbg.recs (fixKey 0 t i) = 0)) ∧
        Map.get 0 s'.dbg.recs (fixKey 3 0 3) = s.job.sstep)) ∧
    (s.dbg.armed.testBit 0 = true → s.dbg.latched = false → s.dbg.pendSrc = none → s.dbg.trigNs.toNat / 10 = s.now / 10 →
      exec .fixTimeTrigger s = .next (s.modDbg fun d => { d with pendSrc := some 0, pendTick := 10 * (s.now / 10) })) ∧
    (s.dbg.armed.testBit 0 = false ∨ s.dbg.latched = true ∨ s.dbg.pendSrc.isSome = true ∨ s.dbg.trigNs.toNat / 10 ≠ s.now / 10 →
      exec .fixTimeTrigger s = .next s) ∧
    (s.dbg.armed.testBit 4 = true → s.dbg.latched = false → s.dbg.pendSrc = none →
      (s.dbg.jobwide = false ∨ s.job.img = none →
        exec .fixTrigEdge s = .next (s.modDbg fun d => { d with pendSrc := some 4, pendTick := s.now + 10, pendJob := false })) ∧
      (s.dbg.jobwide = true → s.job.img.isSome = true → ∃ s', exec .fixTrigEdge s = .next s' ∧ s'.dbg.pendSrc = some 4 ∧
        s'.dbg.pendTick = s.now + 10 ∧ s'.tiles = s.tiles ∧ s'.job = s.job)) ∧
    (s.dbg.armed.testBit 4 = false ∨ s.dbg.latched = true ∨ s.dbg.pendSrc.isSome = true → exec .fixTrigEdge s = .next s) ∧
    (s.dbg.latched = true → s.dbg.copied = false → s.helm.run = true → ∃ s', exec .fixCopyDone s = .next s' ∧
      s'.dbg = { s.dbg with copied := true } ∧ s'.tiles = s.tiles ∧ s'.job = s.job ∧
      ((s.rl.st ≠ 4 ∨ Map.get false s.rl.unmask 67 = false) → Map.get false s'.rl.pend 67 = true)) ∧
    (s.dbg.latched = false ∨ s.dbg.copied = true ∨ s.helm.run = false → exec .fixCopyDone s = .next s)

/-- While the registers answer, a write to a register without a writable field is ignored, and so is one to a tile or cluster of a region that is not on. DEV_SCRATCH takes the value; MAXN its field; DEV_DBG_CTL its enable, and clears WROTE on a 1; a fault register loses exactly VALID, MULTI and, above a tile, the lower-level flag where the value has a 1, but VALID stays in the tick of the fault; a breakpoint keeps its enable and slot; a doorbell acts as DEV_MBX_DB. Without power to the helm die every write is ignored. -/
def Obligations.RegisterWrites : Prop :=
  (∀ (s : State) (a : Nat) (v : Word), s.regsOn = false → exec (.registerWrite a v) s = .next s) ∧
  (∀ (s : State) (v : Word), s.regsOn = true →
    let w1c := fun (n : Nat) (w time : Word) => w &&& ~~~ (v &&& (place n (64 - n) (2 ^ (64 - n) - 1) &&&
      if time.toNat = s.now then ~~~ (place 63 1 1) else ~~~ 0))
    (∀ a, writableAt a = false → exec (.registerWrite a v) s = .next s) ∧
    exec (.registerWrite 8 v) s = .next (s.modPins fun p => { p with scratch := v }) ∧
    exec (.registerWrite 0x60010 v) s = .next (s.modPower fun p => { p with maxn := fld v 0 7 }) ∧
    exec (.registerWrite 0x90000 v) s = .next (s.modDbg fun d => { d with bpen := bit v 0, wrote := d.wrote && !(bit v 1) }) ∧
    exec (.registerWrite 0x70000 v) s = .next (s.modRel fun r => { r with fault := w1c 61 r.fault r.faultTime }) ∧
    (∀ k < 64, exec (.registerWrite (0x50000 + 16 * k) v) s = exec (.devMbxDb k v) s ∧
      exec (.registerWrite (0x50008 + 16 * k) v) s = exec (.devMbxCq k v) s) ∧
    (∀ r < 16, exec (.registerWrite (0x20000008 + 0x100000 * r) v) s = .next (s.modRegion r fun x => { x with fault := w1c 61 x.fault x.faultTime })) ∧
    (∀ c < 192,
      (s.regionOn (c / 12) = true → exec (.registerWrite (0x30000008 + 0x4000 * c) v) s =
        .next (s.modCluster c fun x => { x with fault := w1c 61 x.fault x.faultTime })) ∧
      (s.regionOn (c / 12) = false → ∀ off < 0x4000, exec (.registerWrite (0x30000000 + 0x4000 * c + off) v) s = .next s)) ∧
    (∀ t < 2304,
      (s.regionOn (regionOf t) = true →
        exec (.registerWrite (0x40000008 + 0x10000 * t) v) s = .next (s.modTile t fun x => { x with fault := w1c 62 x.fault x.faultTime }) ∧
        ∀ i < 16, exec (.registerWrite (0x40000A00 + 0x10000 * t + 8 * i) v) s = .next (s.modTile t fun x => { x with
          misc := { x.misc with bp := Map.set 0 x.misc.bp (0xA00 + 8 * i) (v &&& (place 63 1 1 ||| place 0 13 0x1FFF)) } })) ∧
      (s.regionOn (regionOf t) = false → ∀ off < 0x10000, exec (.registerWrite (0x40000000 + 0x10000 * t + off) v) s = .next s)))
end

