-- ==== Sys2Proof/Laws/Map.lean ====
section
/-! SUPPORT. What the operations on sparse maps do: reading after writing, and that every writing operation keeps the
canonical form. The read laws hold of every list, canonical or not. -/

namespace Sys2Proof

variable {α : Type}

theorem Map.get_nil (d : α) (k : Nat) : Map.get d [] k = d := rfl

theorem Map.lookup_filter (m : Map α) (P : Nat → Bool) (k : Nat) :
    (m.filter fun p => P p.1).lookup k = if P k then m.lookup k else none := by
  induction m with
  | nil => simp
  | cons p m ih =>
    obtain ⟨a, v⟩ := p
    by_cases h : k = a
    · subst h
      by_cases hp : P k <;> simp [hp, ih]
    · have hb : (k == a) = false := by simpa using h
      by_cases hp : P a <;> simp [List.lookup_cons, hp, ih, hb]

theorem Map.lookup_entries [DecidableEq α] (d : α) (vs : List α) (lo k : Nat) :
    ((Map.entries d lo vs).lookup k).getD d = if lo ≤ k then (vs[k - lo]?).getD d else d := by
  induction vs generalizing lo with
  | nil => simp [Map.entries]
  | cons v vs ih =>
    by_cases hk : k = lo
    · subst hk
      by_cases hv : v = d
      · simp [Map.entries, hv, ih]
      · simp [Map.entries, hv]
    · have hs : lo ≤ k → (v :: vs)[k - lo]? = vs[k - (lo + 1)]? := by
        intro h
        have : k - lo = (k - (lo + 1)) + 1 := by omega
        rw [this, List.getElem?_cons_succ]
      by_cases hv : v = d
      · simp only [Map.entries, hv, if_true, ih]
        by_cases h : lo ≤ k
        · have h' : lo + 1 ≤ k := by omega
          rw [if_pos h, if_pos h', ← hv, hs h]
        · have h' : ¬ lo + 1 ≤ k := by omega
          rw [if_neg h, if_neg h']
      · have hb : (k == lo) = false := by simpa using hk
        simp only [Map.entries, hv, if_false, List.lookup_cons, hb, ih]
        by_cases h : lo ≤ k
        · have h' : lo + 1 ≤ k := by omega
          rw [if_pos h, if_pos h', hs h]
        · have h' : ¬ lo + 1 ≤ k := by omega
          rw [if_neg h, if_neg h']

theorem Map.lookup_append (m n : Map α) (k : Nat) :
    (m ++ n).lookup k = (m.lookup k).or (n.lookup k) := by
  induction m with
  | nil => simp
  | cons p m ih =>
    obtain ⟨a, v⟩ := p
    by_cases h : k = a
    · simp [h]
    · have hb : (k == a) = false := by simpa using h
      simp [List.lookup_cons, hb, ih]

theorem Map.entries_lookup_none [DecidableEq α] (d : α) (vs : List α) (lo k : Nat)
    (h : k < lo ∨ lo + vs.length ≤ k) : (Map.entries d lo vs).lookup k = none := by
  induction vs generalizing lo with
  | nil => simp [Map.entries]
  | cons v vs ih =>
    have hk : (k == lo) = false := by
      simp only [List.length_cons] at h
      simp; omega
    have hi := ih (lo + 1) (by simp only [List.length_cons] at h; omega)
    by_cases hv : v = d <;> simp [Map.entries, hv, List.lookup_cons, hk, hi]

/-- Reading after writing a range: the written value inside it, the old one outside. -/
theorem Map.get_setRange [DecidableEq α] (d : α) (m : Map α) (lo k : Nat) (vs : List α) :
    Map.get d (Map.setRange d m lo vs) k =
      if lo ≤ k ∧ k < lo + vs.length then (vs[k - lo]?).getD d else Map.get d m k := by
  unfold Map.get Map.setRange
  rw [Map.lookup_append, Map.lookup_append]
  rw [Map.lookup_filter m (fun a => decide (a < lo)), Map.lookup_filter m (fun a => decide (lo + vs.length ≤ a))]
  by_cases h1 : k < lo
  · have h2 : ¬ (lo + vs.length ≤ k) := by omega
    have h3 : ¬ lo ≤ k := by omega
    rw [Map.entries_lookup_none d vs lo k (Or.inl h1)]
    simp [h1, h2, h3]
  · by_cases h2 : lo + vs.length ≤ k
    · have h3 : ¬ k < lo + vs.length := by omega
      rw [Map.entries_lookup_none d vs lo k (Or.inr h2)]
      simp [h1, h2, h3]
    · have h3 : lo ≤ k := by omega
      have h4 : k < lo + vs.length := by omega
      have := Map.lookup_entries d vs lo k
      rw [if_pos h3] at this
      simp [h1, h2, h3, h4, this]

/-- Reading after writing one key. -/
theorem Map.get_set [DecidableEq α] (d : α) (m : Map α) (k j : Nat) (v : α) :
    Map.get d (Map.set d m k v) j = if j = k then v else Map.get d m j := by
  unfold Map.set
  rw [Map.get_setRange]
  by_cases h : j = k
  · subst h; simp
  · have : ¬ (k ≤ j ∧ j < k + [v].length) := by simp; omega
    rw [if_neg this, if_neg h]

@[simp] theorem Map.get_set_self [DecidableEq α] (d : α) (m : Map α) (k : Nat) (v : α) :
    Map.get d (Map.set d m k v) k = v := by simp [Map.get_set]

theorem Map.get_set_ne [DecidableEq α] (d : α) (m : Map α) (k j : Nat) (v : α) (h : j ≠ k) :
    Map.get d (Map.set d m k v) j = Map.get d m j := by simp [Map.get_set, h]

/-- Reading after clearing a range. -/
theorem Map.get_clear (d : α) (m : Map α) (lo n k : Nat) :
    Map.get d (Map.clear m lo n) k = if lo ≤ k ∧ k < lo + n then d else Map.get d m k := by
  unfold Map.get Map.clear
  rw [Map.lookup_filter m (fun a => decide (a < lo ∨ lo + n ≤ a))]
  by_cases h : lo ≤ k ∧ k < lo + n
  · have h' : ¬ (k < lo ∨ lo + n ≤ k) := by omega
    simp only [h', decide_false, Bool.false_eq_true, if_false, h, and_self, if_true, Option.getD_none]
  · have h' : k < lo ∨ lo + n ≤ k := by omega
    simp only [h', decide_true, if_true, h, if_false]

/-- A slice holds what its keys read as. -/
theorem Map.slice_eq (d : α) (m : Map α) (lo n : Nat) :
    Map.slice d m lo n = (List.range n).map fun i => Map.get d m (lo + i) := by
  unfold Map.slice
  apply List.map_congr_left
  intro i hi
  have hi' : i < n := List.mem_range.mp hi
  unfold Map.get
  rw [Map.lookup_filter m (fun a => decide (lo ≤ a ∧ a < lo + n))]
  have : lo ≤ lo + i ∧ lo + i < lo + n := by omega
  simp [this]

theorem Map.length_slice (d : α) (m : Map α) (lo n : Nat) : (Map.slice d m lo n).length = n := by
  simp [Map.slice]

theorem Map.mem_entries [DecidableEq α] (d : α) (vs : List α) (lo : Nat) (p : Nat × α)
    (h : p ∈ Map.entries d lo vs) : lo ≤ p.1 ∧ p.1 < lo + vs.length ∧ p.2 ≠ d := by
  induction vs generalizing lo with
  | nil => simp [Map.entries] at h
  | cons v vs ih =>
    by_cases hv : v = d
    · simp only [Map.entries, hv, if_true] at h
      have := ih (lo + 1) h
      simp only [List.length_cons]
      exact ⟨by omega, by omega, this.2.2⟩
    · simp only [Map.entries, hv, if_false, List.mem_cons] at h
      rcases h with rfl | h
      · exact ⟨by simp, by simp, hv⟩
      · have := ih (lo + 1) h
        simp only [List.length_cons]
        exact ⟨by omega, by omega, this.2.2⟩

theorem Map.entries_pairwise [DecidableEq α] (d : α) (vs : List α) (lo : Nat) :
    (Map.entries d lo vs).Pairwise (fun p q => p.1 < q.1) := by
  induction vs generalizing lo with
  | nil => simp [Map.entries]
  | cons v vs ih =>
    by_cases hv : v = d
    · simp only [Map.entries, hv, if_true]; exact ih (lo + 1)
    · simp only [Map.entries, hv, if_false, List.pairwise_cons]
      refine ⟨fun q hq => ?_, ih (lo + 1)⟩
      have := Map.mem_entries d vs (lo + 1) q hq
      omega

/-- A range write keeps the canonical form. -/
theorem Map.wf_setRange [DecidableEq α] (d : α) (m : Map α) (lo : Nat) (vs : List α) (h : Map.wf d m) :
    Map.wf d (Map.setRange d m lo vs) := by
  obtain ⟨hp, hd⟩ := h
  constructor
  · unfold Map.setRange
    rw [List.pairwise_append, List.pairwise_append]
    refine ⟨⟨hp.filter _, Map.entries_pairwise d vs lo, ?_⟩, hp.filter _, ?_⟩
    · intro a ha b hb
      have h1 : a.1 < lo := by simpa using (List.mem_filter.mp ha).2
      have h2 := Map.mem_entries d vs lo b hb
      omega
    · intro a ha b hb
      have h2 : lo + vs.length ≤ b.1 := by simpa using (List.mem_filter.mp hb).2
      rcases List.mem_append.mp ha with ha | ha
      · have h1 : a.1 < lo := by simpa using (List.mem_filter.mp ha).2
        omega
      · have h1 := Map.mem_entries d vs lo a ha
        omega
  · intro p hp'
    unfold Map.setRange at hp'
    rcases List.mem_append.mp hp' with h' | h'
    · rcases List.mem_append.mp h' with h' | h'
      · exact hd p (List.mem_filter.mp h').1
      · exact (Map.mem_entries d vs lo p h').2.2
    · exact hd p (List.mem_filter.mp h').1

/-- A write keeps the canonical form. -/
theorem Map.wf_set [DecidableEq α] (d : α) (m : Map α) (k : Nat) (v : α) (h : Map.wf d m) :
    Map.wf d (Map.set d m k v) := Map.wf_setRange d m k [v] h

/-- A modification keeps the canonical form. -/
theorem Map.wf_mod [DecidableEq α] (d : α) (m : Map α) (k : Nat) (f : α → α) (h : Map.wf d m) :
    Map.wf d (Map.mod d m k f) := Map.wf_set d m k _ h

/-- Clearing a range keeps the canonical form. -/
theorem Map.wf_clear (d : α) (m : Map α) (lo n : Nat) (h : Map.wf d m) : Map.wf d (Map.clear m lo n) :=
  ⟨h.1.filter _, fun p hp => h.2 p (List.mem_filter.mp hp).1⟩

end Sys2Proof
end

