-- ==== Sys2Proof/Laws/State.lean ====
section
/-! SUPPORT. What each update of the state leaves in each field, so that no proof unfolds a record update; and what a unit reads as
after one of its kind is written. -/

namespace Sys2Proof.Machine

/-! `State.setTile` -/

@[simp] theorem State.setTile_pending (s : State) (k : Nat) (x : Tile) : (s.setTile k x).pending = s.pending := rfl
@[simp] theorem State.setTile_clusters (s : State) (k : Nat) (x : Tile) : (s.setTile k x).clusters = s.clusters := rfl
@[simp] theorem State.setTile_regions (s : State) (k : Nat) (x : Tile) : (s.setTile k x).regions = s.regions := rfl
@[simp] theorem State.setTile_stks (s : State) (k : Nat) (x : Tile) : (s.setTile k x).stks = s.stks := rfl
@[simp] theorem State.setTile_ports (s : State) (k : Nat) (x : Tile) : (s.setTile k x).ports = s.ports := rfl
@[simp] theorem State.setTile_rl (s : State) (k : Nat) (x : Tile) : (s.setTile k x).rl = s.rl := rfl
@[simp] theorem State.setTile_helm (s : State) (k : Nat) (x : Tile) : (s.setTile k x).helm = s.helm := rfl
@[simp] theorem State.setTile_job (s : State) (k : Nat) (x : Tile) : (s.setTile k x).job = s.job := rfl
@[simp] theorem State.setTile_stow (s : State) (k : Nat) (x : Tile) : (s.setTile k x).stow = s.stow := rfl
@[simp] theorem State.setTile_power (s : State) (k : Nat) (x : Tile) : (s.setTile k x).power = s.power := rfl
@[simp] theorem State.setTile_rel (s : State) (k : Nat) (x : Tile) : (s.setTile k x).rel = s.rel := rfl
@[simp] theorem State.setTile_dbg (s : State) (k : Nat) (x : Tile) : (s.setTile k x).dbg = s.dbg := rfl
@[simp] theorem State.setTile_pins (s : State) (k : Nat) (x : Tile) : (s.setTile k x).pins = s.pins := rfl
@[simp] theorem State.setTile_net (s : State) (k : Nat) (x : Tile) : (s.setTile k x).net = s.net := rfl
@[simp] theorem State.setTile_sub (s : State) (k : Nat) (x : Tile) : (s.setTile k x).sub = s.sub := rfl
@[simp] theorem State.setTile_free (s : State) (k : Nat) (x : Tile) : (s.setTile k x).free = s.free := rfl
@[simp] theorem State.setTile_cluster (s : State) (k : Nat) (x : Tile) (u : Nat) : (s.setTile k x).cluster u = s.cluster u := rfl
@[simp] theorem State.setTile_region (s : State) (k : Nat) (x : Tile) (u : Nat) : (s.setTile k x).region u = s.region u := rfl
@[simp] theorem State.setTile_stk (s : State) (k : Nat) (x : Tile) (u : Nat) : (s.setTile k x).stk u = s.stk u := rfl
@[simp] theorem State.setTile_port (s : State) (k : Nat) (x : Tile) (u : Nat) : (s.setTile k x).port u = s.port u := rfl
@[simp] theorem State.setTile_page (s : State) (k : Nat) (x : Tile) (u : Nat) : (s.setTile k x).page u = s.page u := rfl

/-! `State.modTile` -/

@[simp] theorem State.modTile_pending (s : State) (k : Nat) (f : Tile → Tile) : (s.modTile k f).pending = s.pending := rfl
@[simp] theorem State.modTile_clusters (s : State) (k : Nat) (f : Tile → Tile) : (s.modTile k f).clusters = s.clusters := rfl
@[simp] theorem State.modTile_regions (s : State) (k : Nat) (f : Tile → Tile) : (s.modTile k f).regions = s.regions := rfl
@[simp] theorem State.modTile_stks (s : State) (k : Nat) (f : Tile → Tile) : (s.modTile k f).stks = s.stks := rfl
@[simp] theorem State.modTile_ports (s : State) (k : Nat) (f : Tile → Tile) : (s.modTile k f).ports = s.ports := rfl
@[simp] theorem State.modTile_rl (s : State) (k : Nat) (f : Tile → Tile) : (s.modTile k f).rl = s.rl := rfl
@[simp] theorem State.modTile_helm (s : State) (k : Nat) (f : Tile → Tile) : (s.modTile k f).helm = s.helm := rfl
@[simp] theorem State.modTile_job (s : State) (k : Nat) (f : Tile → Tile) : (s.modTile k f).job = s.job := rfl
@[simp] theorem State.modTile_stow (s : State) (k : Nat) (f : Tile → Tile) : (s.modTile k f).stow = s.stow := rfl
@[simp] theorem State.modTile_power (s : State) (k : Nat) (f : Tile → Tile) : (s.modTile k f).power = s.power := rfl
@[simp] theorem State.modTile_rel (s : State) (k : Nat) (f : Tile → Tile) : (s.modTile k f).rel = s.rel := rfl
@[simp] theorem State.modTile_dbg (s : State) (k : Nat) (f : Tile → Tile) : (s.modTile k f).dbg = s.dbg := rfl
@[simp] theorem State.modTile_pins (s : State) (k : Nat) (f : Tile → Tile) : (s.modTile k f).pins = s.pins := rfl
@[simp] theorem State.modTile_net (s : State) (k : Nat) (f : Tile → Tile) : (s.modTile k f).net = s.net := rfl
@[simp] theorem State.modTile_sub (s : State) (k : Nat) (f : Tile → Tile) : (s.modTile k f).sub = s.sub := rfl
@[simp] theorem State.modTile_free (s : State) (k : Nat) (f : Tile → Tile) : (s.modTile k f).free = s.free := rfl
@[simp] theorem State.modTile_cluster (s : State) (k : Nat) (f : Tile → Tile) (u : Nat) : (s.modTile k f).cluster u = s.cluster u := rfl
@[simp] theorem State.modTile_region (s : State) (k : Nat) (f : Tile → Tile) (u : Nat) : (s.modTile k f).region u = s.region u := rfl
@[simp] theorem State.modTile_stk (s : State) (k : Nat) (f : Tile → Tile) (u : Nat) : (s.modTile k f).stk u = s.stk u := rfl
@[simp] theorem State.modTile_port (s : State) (k : Nat) (f : Tile → Tile) (u : Nat) : (s.modTile k f).port u = s.port u := rfl
@[simp] theorem State.modTile_page (s : State) (k : Nat) (f : Tile → Tile) (u : Nat) : (s.modTile k f).page u = s.page u := rfl

/-! `State.setCluster` -/

@[simp] theorem State.setCluster_pending (s : State) (k : Nat) (x : Cluster) : (s.setCluster k x).pending = s.pending := rfl
@[simp] theorem State.setCluster_tiles (s : State) (k : Nat) (x : Cluster) : (s.setCluster k x).tiles = s.tiles := rfl
@[simp] theorem State.setCluster_regions (s : State) (k : Nat) (x : Cluster) : (s.setCluster k x).regions = s.regions := rfl
@[simp] theorem State.setCluster_stks (s : State) (k : Nat) (x : Cluster) : (s.setCluster k x).stks = s.stks := rfl
@[simp] theorem State.setCluster_ports (s : State) (k : Nat) (x : Cluster) : (s.setCluster k x).ports = s.ports := rfl
@[simp] theorem State.setCluster_rl (s : State) (k : Nat) (x : Cluster) : (s.setCluster k x).rl = s.rl := rfl
@[simp] theorem State.setCluster_helm (s : State) (k : Nat) (x : Cluster) : (s.setCluster k x).helm = s.helm := rfl
@[simp] theorem State.setCluster_job (s : State) (k : Nat) (x : Cluster) : (s.setCluster k x).job = s.job := rfl
@[simp] theorem State.setCluster_stow (s : State) (k : Nat) (x : Cluster) : (s.setCluster k x).stow = s.stow := rfl
@[simp] theorem State.setCluster_power (s : State) (k : Nat) (x : Cluster) : (s.setCluster k x).power = s.power := rfl
@[simp] theorem State.setCluster_rel (s : State) (k : Nat) (x : Cluster) : (s.setCluster k x).rel = s.rel := rfl
@[simp] theorem State.setCluster_dbg (s : State) (k : Nat) (x : Cluster) : (s.setCluster k x).dbg = s.dbg := rfl
@[simp] theorem State.setCluster_pins (s : State) (k : Nat) (x : Cluster) : (s.setCluster k x).pins = s.pins := rfl
@[simp] theorem State.setCluster_net (s : State) (k : Nat) (x : Cluster) : (s.setCluster k x).net = s.net := rfl
@[simp] theorem State.setCluster_sub (s : State) (k : Nat) (x : Cluster) : (s.setCluster k x).sub = s.sub := rfl
@[simp] theorem State.setCluster_free (s : State) (k : Nat) (x : Cluster) : (s.setCluster k x).free = s.free := rfl
@[simp] theorem State.setCluster_tile (s : State) (k : Nat) (x : Cluster) (u : Nat) : (s.setCluster k x).tile u = s.tile u := rfl
@[simp] theorem State.setCluster_region (s : State) (k : Nat) (x : Cluster) (u : Nat) : (s.setCluster k x).region u = s.region u := rfl
@[simp] theorem State.setCluster_stk (s : State) (k : Nat) (x : Cluster) (u : Nat) : (s.setCluster k x).stk u = s.stk u := rfl
@[simp] theorem State.setCluster_port (s : State) (k : Nat) (x : Cluster) (u : Nat) : (s.setCluster k x).port u = s.port u := rfl
@[simp] theorem State.setCluster_page (s : State) (k : Nat) (x : Cluster) (u : Nat) : (s.setCluster k x).page u = s.page u := rfl

/-! `State.modCluster` -/

@[simp] theorem State.modCluster_pending (s : State) (k : Nat) (f : Cluster → Cluster) : (s.modCluster k f).pending = s.pending := rfl
@[simp] theorem State.modCluster_tiles (s : State) (k : Nat) (f : Cluster → Cluster) : (s.modCluster k f).tiles = s.tiles := rfl
@[simp] theorem State.modCluster_regions (s : State) (k : Nat) (f : Cluster → Cluster) : (s.modCluster k f).regions = s.regions := rfl
@[simp] theorem State.modCluster_stks (s : State) (k : Nat) (f : Cluster → Cluster) : (s.modCluster k f).stks = s.stks := rfl
@[simp] theorem State.modCluster_ports (s : State) (k : Nat) (f : Cluster → Cluster) : (s.modCluster k f).ports = s.ports := rfl
@[simp] theorem State.modCluster_rl (s : State) (k : Nat) (f : Cluster → Cluster) : (s.modCluster k f).rl = s.rl := rfl
@[simp] theorem State.modCluster_helm (s : State) (k : Nat) (f : Cluster → Cluster) : (s.modCluster k f).helm = s.helm := rfl
@[simp] theorem State.modCluster_job (s : State) (k : Nat) (f : Cluster → Cluster) : (s.modCluster k f).job = s.job := rfl
@[simp] theorem State.modCluster_stow (s : State) (k : Nat) (f : Cluster → Cluster) : (s.modCluster k f).stow = s.stow := rfl
@[simp] theorem State.modCluster_power (s : State) (k : Nat) (f : Cluster → Cluster) : (s.modCluster k f).power = s.power := rfl
@[simp] theorem State.modCluster_rel (s : State) (k : Nat) (f : Cluster → Cluster) : (s.modCluster k f).rel = s.rel := rfl
@[simp] theorem State.modCluster_dbg (s : State) (k : Nat) (f : Cluster → Cluster) : (s.modCluster k f).dbg = s.dbg := rfl
@[simp] theorem State.modCluster_pins (s : State) (k : Nat) (f : Cluster → Cluster) : (s.modCluster k f).pins = s.pins := rfl
@[simp] theorem State.modCluster_net (s : State) (k : Nat) (f : Cluster → Cluster) : (s.modCluster k f).net = s.net := rfl
@[simp] theorem State.modCluster_sub (s : State) (k : Nat) (f : Cluster → Cluster) : (s.modCluster k f).sub = s.sub := rfl
@[simp] theorem State.modCluster_free (s : State) (k : Nat) (f : Cluster → Cluster) : (s.modCluster k f).free = s.free := rfl
@[simp] theorem State.modCluster_tile (s : State) (k : Nat) (f : Cluster → Cluster) (u : Nat) : (s.modCluster k f).tile u = s.tile u := rfl
@[simp] theorem State.modCluster_region (s : State) (k : Nat) (f : Cluster → Cluster) (u : Nat) : (s.modCluster k f).region u = s.region u := rfl
@[simp] theorem State.modCluster_stk (s : State) (k : Nat) (f : Cluster → Cluster) (u : Nat) : (s.modCluster k f).stk u = s.stk u := rfl
@[simp] theorem State.modCluster_port (s : State) (k : Nat) (f : Cluster → Cluster) (u : Nat) : (s.modCluster k f).port u = s.port u := rfl
@[simp] theorem State.modCluster_page (s : State) (k : Nat) (f : Cluster → Cluster) (u : Nat) : (s.modCluster k f).page u = s.page u := rfl

/-! `State.setRegion` -/

@[simp] theorem State.setRegion_pending (s : State) (k : Nat) (x : Region) : (s.setRegion k x).pending = s.pending := rfl
@[simp] theorem State.setRegion_tiles (s : State) (k : Nat) (x : Region) : (s.setRegion k x).tiles = s.tiles := rfl
@[simp] theorem State.setRegion_clusters (s : State) (k : Nat) (x : Region) : (s.setRegion k x).clusters = s.clusters := rfl
@[simp] theorem State.setRegion_stks (s : State) (k : Nat) (x : Region) : (s.setRegion k x).stks = s.stks := rfl
@[simp] theorem State.setRegion_ports (s : State) (k : Nat) (x : Region) : (s.setRegion k x).ports = s.ports := rfl
@[simp] theorem State.setRegion_rl (s : State) (k : Nat) (x : Region) : (s.setRegion k x).rl = s.rl := rfl
@[simp] theorem State.setRegion_helm (s : State) (k : Nat) (x : Region) : (s.setRegion k x).helm = s.helm := rfl
@[simp] theorem State.setRegion_job (s : State) (k : Nat) (x : Region) : (s.setRegion k x).job = s.job := rfl
@[simp] theorem State.setRegion_stow (s : State) (k : Nat) (x : Region) : (s.setRegion k x).stow = s.stow := rfl
@[simp] theorem State.setRegion_power (s : State) (k : Nat) (x : Region) : (s.setRegion k x).power = s.power := rfl
@[simp] theorem State.setRegion_rel (s : State) (k : Nat) (x : Region) : (s.setRegion k x).rel = s.rel := rfl
@[simp] theorem State.setRegion_dbg (s : State) (k : Nat) (x : Region) : (s.setRegion k x).dbg = s.dbg := rfl
@[simp] theorem State.setRegion_pins (s : State) (k : Nat) (x : Region) : (s.setRegion k x).pins = s.pins := rfl
@[simp] theorem State.setRegion_net (s : State) (k : Nat) (x : Region) : (s.setRegion k x).net = s.net := rfl
@[simp] theorem State.setRegion_sub (s : State) (k : Nat) (x : Region) : (s.setRegion k x).sub = s.sub := rfl
@[simp] theorem State.setRegion_free (s : State) (k : Nat) (x : Region) : (s.setRegion k x).free = s.free := rfl
@[simp] theorem State.setRegion_tile (s : State) (k : Nat) (x : Region) (u : Nat) : (s.setRegion k x).tile u = s.tile u := rfl
@[simp] theorem State.setRegion_cluster (s : State) (k : Nat) (x : Region) (u : Nat) : (s.setRegion k x).cluster u = s.cluster u := rfl
@[simp] theorem State.setRegion_stk (s : State) (k : Nat) (x : Region) (u : Nat) : (s.setRegion k x).stk u = s.stk u := rfl
@[simp] theorem State.setRegion_port (s : State) (k : Nat) (x : Region) (u : Nat) : (s.setRegion k x).port u = s.port u := rfl
@[simp] theorem State.setRegion_page (s : State) (k : Nat) (x : Region) (u : Nat) : (s.setRegion k x).page u = s.page u := rfl

/-! `State.modRegion` -/

@[simp] theorem State.modRegion_pending (s : State) (k : Nat) (f : Region → Region) : (s.modRegion k f).pending = s.pending := rfl
@[simp] theorem State.modRegion_tiles (s : State) (k : Nat) (f : Region → Region) : (s.modRegion k f).tiles = s.tiles := rfl
@[simp] theorem State.modRegion_clusters (s : State) (k : Nat) (f : Region → Region) : (s.modRegion k f).clusters = s.clusters := rfl
@[simp] theorem State.modRegion_stks (s : State) (k : Nat) (f : Region → Region) : (s.modRegion k f).stks = s.stks := rfl
@[simp] theorem State.modRegion_ports (s : State) (k : Nat) (f : Region → Region) : (s.modRegion k f).ports = s.ports := rfl
@[simp] theorem State.modRegion_rl (s : State) (k : Nat) (f : Region → Region) : (s.modRegion k f).rl = s.rl := rfl
@[simp] theorem State.modRegion_helm (s : State) (k : Nat) (f : Region → Region) : (s.modRegion k f).helm = s.helm := rfl
@[simp] theorem State.modRegion_job (s : State) (k : Nat) (f : Region → Region) : (s.modRegion k f).job = s.job := rfl
@[simp] theorem State.modRegion_stow (s : State) (k : Nat) (f : Region → Region) : (s.modRegion k f).stow = s.stow := rfl
@[simp] theorem State.modRegion_power (s : State) (k : Nat) (f : Region → Region) : (s.modRegion k f).power = s.power := rfl
@[simp] theorem State.modRegion_rel (s : State) (k : Nat) (f : Region → Region) : (s.modRegion k f).rel = s.rel := rfl
@[simp] theorem State.modRegion_dbg (s : State) (k : Nat) (f : Region → Region) : (s.modRegion k f).dbg = s.dbg := rfl
@[simp] theorem State.modRegion_pins (s : State) (k : Nat) (f : Region → Region) : (s.modRegion k f).pins = s.pins := rfl
@[simp] theorem State.modRegion_net (s : State) (k : Nat) (f : Region → Region) : (s.modRegion k f).net = s.net := rfl
@[simp] theorem State.modRegion_sub (s : State) (k : Nat) (f : Region → Region) : (s.modRegion k f).sub = s.sub := rfl
@[simp] theorem State.modRegion_free (s : State) (k : Nat) (f : Region → Region) : (s.modRegion k f).free = s.free := rfl
@[simp] theorem State.modRegion_tile (s : State) (k : Nat) (f : Region → Region) (u : Nat) : (s.modRegion k f).tile u = s.tile u := rfl
@[simp] theorem State.modRegion_cluster (s : State) (k : Nat) (f : Region → Region) (u : Nat) : (s.modRegion k f).cluster u = s.cluster u := rfl
@[simp] theorem State.modRegion_stk (s : State) (k : Nat) (f : Region → Region) (u : Nat) : (s.modRegion k f).stk u = s.stk u := rfl
@[simp] theorem State.modRegion_port (s : State) (k : Nat) (f : Region → Region) (u : Nat) : (s.modRegion k f).port u = s.port u := rfl
@[simp] theorem State.modRegion_page (s : State) (k : Nat) (f : Region → Region) (u : Nat) : (s.modRegion k f).page u = s.page u := rfl

/-! `State.setStk` -/

@[simp] theorem State.setStk_pending (s : State) (k : Nat) (x : Stack) : (s.setStk k x).pending = s.pending := rfl
@[simp] theorem State.setStk_tiles (s : State) (k : Nat) (x : Stack) : (s.setStk k x).tiles = s.tiles := rfl
@[simp] theorem State.setStk_clusters (s : State) (k : Nat) (x : Stack) : (s.setStk k x).clusters = s.clusters := rfl
@[simp] theorem State.setStk_regions (s : State) (k : Nat) (x : Stack) : (s.setStk k x).regions = s.regions := rfl
@[simp] theorem State.setStk_ports (s : State) (k : Nat) (x : Stack) : (s.setStk k x).ports = s.ports := rfl
@[simp] theorem State.setStk_rl (s : State) (k : Nat) (x : Stack) : (s.setStk k x).rl = s.rl := rfl
@[simp] theorem State.setStk_helm (s : State) (k : Nat) (x : Stack) : (s.setStk k x).helm = s.helm := rfl
@[simp] theorem State.setStk_job (s : State) (k : Nat) (x : Stack) : (s.setStk k x).job = s.job := rfl
@[simp] theorem State.setStk_stow (s : State) (k : Nat) (x : Stack) : (s.setStk k x).stow = s.stow := rfl
@[simp] theorem State.setStk_power (s : State) (k : Nat) (x : Stack) : (s.setStk k x).power = s.power := rfl
@[simp] theorem State.setStk_rel (s : State) (k : Nat) (x : Stack) : (s.setStk k x).rel = s.rel := rfl
@[simp] theorem State.setStk_dbg (s : State) (k : Nat) (x : Stack) : (s.setStk k x).dbg = s.dbg := rfl
@[simp] theorem State.setStk_pins (s : State) (k : Nat) (x : Stack) : (s.setStk k x).pins = s.pins := rfl
@[simp] theorem State.setStk_net (s : State) (k : Nat) (x : Stack) : (s.setStk k x).net = s.net := rfl
@[simp] theorem State.setStk_sub (s : State) (k : Nat) (x : Stack) : (s.setStk k x).sub = s.sub := rfl
@[simp] theorem State.setStk_free (s : State) (k : Nat) (x : Stack) : (s.setStk k x).free = s.free := rfl
@[simp] theorem State.setStk_tile (s : State) (k : Nat) (x : Stack) (u : Nat) : (s.setStk k x).tile u = s.tile u := rfl
@[simp] theorem State.setStk_cluster (s : State) (k : Nat) (x : Stack) (u : Nat) : (s.setStk k x).cluster u = s.cluster u := rfl
@[simp] theorem State.setStk_region (s : State) (k : Nat) (x : Stack) (u : Nat) : (s.setStk k x).region u = s.region u := rfl
@[simp] theorem State.setStk_port (s : State) (k : Nat) (x : Stack) (u : Nat) : (s.setStk k x).port u = s.port u := rfl
@[simp] theorem State.setStk_page (s : State) (k : Nat) (x : Stack) (u : Nat) : (s.setStk k x).page u = s.page u := rfl

/-! `State.modStk` -/

@[simp] theorem State.modStk_pending (s : State) (k : Nat) (f : Stack → Stack) : (s.modStk k f).pending = s.pending := rfl
@[simp] theorem State.modStk_tiles (s : State) (k : Nat) (f : Stack → Stack) : (s.modStk k f).tiles = s.tiles := rfl
@[simp] theorem State.modStk_clusters (s : State) (k : Nat) (f : Stack → Stack) : (s.modStk k f).clusters = s.clusters := rfl
@[simp] theorem State.modStk_regions (s : State) (k : Nat) (f : Stack → Stack) : (s.modStk k f).regions = s.regions := rfl
@[simp] theorem State.modStk_ports (s : State) (k : Nat) (f : Stack → Stack) : (s.modStk k f).ports = s.ports := rfl
@[simp] theorem State.modStk_rl (s : State) (k : Nat) (f : Stack → Stack) : (s.modStk k f).rl = s.rl := rfl
@[simp] theorem State.modStk_helm (s : State) (k : Nat) (f : Stack → Stack) : (s.modStk k f).helm = s.helm := rfl
@[simp] theorem State.modStk_job (s : State) (k : Nat) (f : Stack → Stack) : (s.modStk k f).job = s.job := rfl
@[simp] theorem State.modStk_stow (s : State) (k : Nat) (f : Stack → Stack) : (s.modStk k f).stow = s.stow := rfl
@[simp] theorem State.modStk_power (s : State) (k : Nat) (f : Stack → Stack) : (s.modStk k f).power = s.power := rfl
@[simp] theorem State.modStk_rel (s : State) (k : Nat) (f : Stack → Stack) : (s.modStk k f).rel = s.rel := rfl
@[simp] theorem State.modStk_dbg (s : State) (k : Nat) (f : Stack → Stack) : (s.modStk k f).dbg = s.dbg := rfl
@[simp] theorem State.modStk_pins (s : State) (k : Nat) (f : Stack → Stack) : (s.modStk k f).pins = s.pins := rfl
@[simp] theorem State.modStk_net (s : State) (k : Nat) (f : Stack → Stack) : (s.modStk k f).net = s.net := rfl
@[simp] theorem State.modStk_sub (s : State) (k : Nat) (f : Stack → Stack) : (s.modStk k f).sub = s.sub := rfl
@[simp] theorem State.modStk_free (s : State) (k : Nat) (f : Stack → Stack) : (s.modStk k f).free = s.free := rfl
@[simp] theorem State.modStk_tile (s : State) (k : Nat) (f : Stack → Stack) (u : Nat) : (s.modStk k f).tile u = s.tile u := rfl
@[simp] theorem State.modStk_cluster (s : State) (k : Nat) (f : Stack → Stack) (u : Nat) : (s.modStk k f).cluster u = s.cluster u := rfl
@[simp] theorem State.modStk_region (s : State) (k : Nat) (f : Stack → Stack) (u : Nat) : (s.modStk k f).region u = s.region u := rfl
@[simp] theorem State.modStk_port (s : State) (k : Nat) (f : Stack → Stack) (u : Nat) : (s.modStk k f).port u = s.port u := rfl
@[simp] theorem State.modStk_page (s : State) (k : Nat) (f : Stack → Stack) (u : Nat) : (s.modStk k f).page u = s.page u := rfl

/-! `State.setPort` -/

@[simp] theorem State.setPort_pending (s : State) (k : Nat) (x : Port) : (s.setPort k x).pending = s.pending := rfl
@[simp] theorem State.setPort_tiles (s : State) (k : Nat) (x : Port) : (s.setPort k x).tiles = s.tiles := rfl
@[simp] theorem State.setPort_clusters (s : State) (k : Nat) (x : Port) : (s.setPort k x).clusters = s.clusters := rfl
@[simp] theorem State.setPort_regions (s : State) (k : Nat) (x : Port) : (s.setPort k x).regions = s.regions := rfl
@[simp] theorem State.setPort_stks (s : State) (k : Nat) (x : Port) : (s.setPort k x).stks = s.stks := rfl
@[simp] theorem State.setPort_rl (s : State) (k : Nat) (x : Port) : (s.setPort k x).rl = s.rl := rfl
@[simp] theorem State.setPort_helm (s : State) (k : Nat) (x : Port) : (s.setPort k x).helm = s.helm := rfl
@[simp] theorem State.setPort_job (s : State) (k : Nat) (x : Port) : (s.setPort k x).job = s.job := rfl
@[simp] theorem State.setPort_stow (s : State) (k : Nat) (x : Port) : (s.setPort k x).stow = s.stow := rfl
@[simp] theorem State.setPort_power (s : State) (k : Nat) (x : Port) : (s.setPort k x).power = s.power := rfl
@[simp] theorem State.setPort_rel (s : State) (k : Nat) (x : Port) : (s.setPort k x).rel = s.rel := rfl
@[simp] theorem State.setPort_dbg (s : State) (k : Nat) (x : Port) : (s.setPort k x).dbg = s.dbg := rfl
@[simp] theorem State.setPort_pins (s : State) (k : Nat) (x : Port) : (s.setPort k x).pins = s.pins := rfl
@[simp] theorem State.setPort_net (s : State) (k : Nat) (x : Port) : (s.setPort k x).net = s.net := rfl
@[simp] theorem State.setPort_sub (s : State) (k : Nat) (x : Port) : (s.setPort k x).sub = s.sub := rfl
@[simp] theorem State.setPort_free (s : State) (k : Nat) (x : Port) : (s.setPort k x).free = s.free := rfl
@[simp] theorem State.setPort_tile (s : State) (k : Nat) (x : Port) (u : Nat) : (s.setPort k x).tile u = s.tile u := rfl
@[simp] theorem State.setPort_cluster (s : State) (k : Nat) (x : Port) (u : Nat) : (s.setPort k x).cluster u = s.cluster u := rfl
@[simp] theorem State.setPort_region (s : State) (k : Nat) (x : Port) (u : Nat) : (s.setPort k x).region u = s.region u := rfl
@[simp] theorem State.setPort_stk (s : State) (k : Nat) (x : Port) (u : Nat) : (s.setPort k x).stk u = s.stk u := rfl
@[simp] theorem State.setPort_page (s : State) (k : Nat) (x : Port) (u : Nat) : (s.setPort k x).page u = s.page u := rfl

/-! `State.modPort` -/

@[simp] theorem State.modPort_pending (s : State) (k : Nat) (f : Port → Port) : (s.modPort k f).pending = s.pending := rfl
@[simp] theorem State.modPort_tiles (s : State) (k : Nat) (f : Port → Port) : (s.modPort k f).tiles = s.tiles := rfl
@[simp] theorem State.modPort_clusters (s : State) (k : Nat) (f : Port → Port) : (s.modPort k f).clusters = s.clusters := rfl
@[simp] theorem State.modPort_regions (s : State) (k : Nat) (f : Port → Port) : (s.modPort k f).regions = s.regions := rfl
@[simp] theorem State.modPort_stks (s : State) (k : Nat) (f : Port → Port) : (s.modPort k f).stks = s.stks := rfl
@[simp] theorem State.modPort_rl (s : State) (k : Nat) (f : Port → Port) : (s.modPort k f).rl = s.rl := rfl
@[simp] theorem State.modPort_helm (s : State) (k : Nat) (f : Port → Port) : (s.modPort k f).helm = s.helm := rfl
@[simp] theorem State.modPort_job (s : State) (k : Nat) (f : Port → Port) : (s.modPort k f).job = s.job := rfl
@[simp] theorem State.modPort_stow (s : State) (k : Nat) (f : Port → Port) : (s.modPort k f).stow = s.stow := rfl
@[simp] theorem State.modPort_power (s : State) (k : Nat) (f : Port → Port) : (s.modPort k f).power = s.power := rfl
@[simp] theorem State.modPort_rel (s : State) (k : Nat) (f : Port → Port) : (s.modPort k f).rel = s.rel := rfl
@[simp] theorem State.modPort_dbg (s : State) (k : Nat) (f : Port → Port) : (s.modPort k f).dbg = s.dbg := rfl
@[simp] theorem State.modPort_pins (s : State) (k : Nat) (f : Port → Port) : (s.modPort k f).pins = s.pins := rfl
@[simp] theorem State.modPort_net (s : State) (k : Nat) (f : Port → Port) : (s.modPort k f).net = s.net := rfl
@[simp] theorem State.modPort_sub (s : State) (k : Nat) (f : Port → Port) : (s.modPort k f).sub = s.sub := rfl
@[simp] theorem State.modPort_free (s : State) (k : Nat) (f : Port → Port) : (s.modPort k f).free = s.free := rfl
@[simp] theorem State.modPort_tile (s : State) (k : Nat) (f : Port → Port) (u : Nat) : (s.modPort k f).tile u = s.tile u := rfl
@[simp] theorem State.modPort_cluster (s : State) (k : Nat) (f : Port → Port) (u : Nat) : (s.modPort k f).cluster u = s.cluster u := rfl
@[simp] theorem State.modPort_region (s : State) (k : Nat) (f : Port → Port) (u : Nat) : (s.modPort k f).region u = s.region u := rfl
@[simp] theorem State.modPort_stk (s : State) (k : Nat) (f : Port → Port) (u : Nat) : (s.modPort k f).stk u = s.stk u := rfl
@[simp] theorem State.modPort_page (s : State) (k : Nat) (f : Port → Port) (u : Nat) : (s.modPort k f).page u = s.page u := rfl

/-! `State.modRl` -/

@[simp] theorem State.modRl_pending (s : State) (f : Rl → Rl) : (s.modRl f).pending = s.pending := rfl
@[simp] theorem State.modRl_tiles (s : State) (f : Rl → Rl) : (s.modRl f).tiles = s.tiles := rfl
@[simp] theorem State.modRl_clusters (s : State) (f : Rl → Rl) : (s.modRl f).clusters = s.clusters := rfl
@[simp] theorem State.modRl_regions (s : State) (f : Rl → Rl) : (s.modRl f).regions = s.regions := rfl
@[simp] theorem State.modRl_stks (s : State) (f : Rl → Rl) : (s.modRl f).stks = s.stks := rfl
@[simp] theorem State.modRl_ports (s : State) (f : Rl → Rl) : (s.modRl f).ports = s.ports := rfl
@[simp] theorem State.modRl_helm (s : State) (f : Rl → Rl) : (s.modRl f).helm = s.helm := rfl
@[simp] theorem State.modRl_job (s : State) (f : Rl → Rl) : (s.modRl f).job = s.job := rfl
@[simp] theorem State.modRl_stow (s : State) (f : Rl → Rl) : (s.modRl f).stow = s.stow := rfl
@[simp] theorem State.modRl_power (s : State) (f : Rl → Rl) : (s.modRl f).power = s.power := rfl
@[simp] theorem State.modRl_rel (s : State) (f : Rl → Rl) : (s.modRl f).rel = s.rel := rfl
@[simp] theorem State.modRl_dbg (s : State) (f : Rl → Rl) : (s.modRl f).dbg = s.dbg := rfl
@[simp] theorem State.modRl_pins (s : State) (f : Rl → Rl) : (s.modRl f).pins = s.pins := rfl
@[simp] theorem State.modRl_net (s : State) (f : Rl → Rl) : (s.modRl f).net = s.net := rfl
@[simp] theorem State.modRl_sub (s : State) (f : Rl → Rl) : (s.modRl f).sub = s.sub := rfl
@[simp] theorem State.modRl_free (s : State) (f : Rl → Rl) : (s.modRl f).free = s.free := rfl
@[simp] theorem State.modRl_tile (s : State) (f : Rl → Rl) (u : Nat) : (s.modRl f).tile u = s.tile u := rfl
@[simp] theorem State.modRl_cluster (s : State) (f : Rl → Rl) (u : Nat) : (s.modRl f).cluster u = s.cluster u := rfl
@[simp] theorem State.modRl_region (s : State) (f : Rl → Rl) (u : Nat) : (s.modRl f).region u = s.region u := rfl
@[simp] theorem State.modRl_stk (s : State) (f : Rl → Rl) (u : Nat) : (s.modRl f).stk u = s.stk u := rfl
@[simp] theorem State.modRl_port (s : State) (f : Rl → Rl) (u : Nat) : (s.modRl f).port u = s.port u := rfl
@[simp] theorem State.modRl_page (s : State) (f : Rl → Rl) (u : Nat) : (s.modRl f).page u = s.page u := rfl
@[simp] theorem State.modRl_rl (s : State) (f : Rl → Rl) : (s.modRl f).rl = f s.rl := rfl

/-! `State.modHelm` -/

@[simp] theorem State.modHelm_pending (s : State) (f : Helm → Helm) : (s.modHelm f).pending = s.pending := rfl
@[simp] theorem State.modHelm_tiles (s : State) (f : Helm → Helm) : (s.modHelm f).tiles = s.tiles := rfl
@[simp] theorem State.modHelm_clusters (s : State) (f : Helm → Helm) : (s.modHelm f).clusters = s.clusters := rfl
@[simp] theorem State.modHelm_regions (s : State) (f : Helm → Helm) : (s.modHelm f).regions = s.regions := rfl
@[simp] theorem State.modHelm_stks (s : State) (f : Helm → Helm) : (s.modHelm f).stks = s.stks := rfl
@[simp] theorem State.modHelm_ports (s : State) (f : Helm → Helm) : (s.modHelm f).ports = s.ports := rfl
@[simp] theorem State.modHelm_rl (s : State) (f : Helm → Helm) : (s.modHelm f).rl = s.rl := rfl
@[simp] theorem State.modHelm_job (s : State) (f : Helm → Helm) : (s.modHelm f).job = s.job := rfl
@[simp] theorem State.modHelm_stow (s : State) (f : Helm → Helm) : (s.modHelm f).stow = s.stow := rfl
@[simp] theorem State.modHelm_power (s : State) (f : Helm → Helm) : (s.modHelm f).power = s.power := rfl
@[simp] theorem State.modHelm_rel (s : State) (f : Helm → Helm) : (s.modHelm f).rel = s.rel := rfl
@[simp] theorem State.modHelm_dbg (s : State) (f : Helm → Helm) : (s.modHelm f).dbg = s.dbg := rfl
@[simp] theorem State.modHelm_pins (s : State) (f : Helm → Helm) : (s.modHelm f).pins = s.pins := rfl
@[simp] theorem State.modHelm_net (s : State) (f : Helm → Helm) : (s.modHelm f).net = s.net := rfl
@[simp] theorem State.modHelm_sub (s : State) (f : Helm → Helm) : (s.modHelm f).sub = s.sub := rfl
@[simp] theorem State.modHelm_free (s : State) (f : Helm → Helm) : (s.modHelm f).free = s.free := rfl
@[simp] theorem State.modHelm_tile (s : State) (f : Helm → Helm) (u : Nat) : (s.modHelm f).tile u = s.tile u := rfl
@[simp] theorem State.modHelm_cluster (s : State) (f : Helm → Helm) (u : Nat) : (s.modHelm f).cluster u = s.cluster u := rfl
@[simp] theorem State.modHelm_region (s : State) (f : Helm → Helm) (u : Nat) : (s.modHelm f).region u = s.region u := rfl
@[simp] theorem State.modHelm_stk (s : State) (f : Helm → Helm) (u : Nat) : (s.modHelm f).stk u = s.stk u := rfl
@[simp] theorem State.modHelm_port (s : State) (f : Helm → Helm) (u : Nat) : (s.modHelm f).port u = s.port u := rfl
@[simp] theorem State.modHelm_helm (s : State) (f : Helm → Helm) : (s.modHelm f).helm = f s.helm := rfl

/-! `State.modJob` -/

@[simp] theorem State.modJob_pending (s : State) (f : Job → Job) : (s.modJob f).pending = s.pending := rfl
@[simp] theorem State.modJob_tiles (s : State) (f : Job → Job) : (s.modJob f).tiles = s.tiles := rfl
@[simp] theorem State.modJob_clusters (s : State) (f : Job → Job) : (s.modJob f).clusters = s.clusters := rfl
@[simp] theorem State.modJob_regions (s : State) (f : Job → Job) : (s.modJob f).regions = s.regions := rfl
@[simp] theorem State.modJob_stks (s : State) (f : Job → Job) : (s.modJob f).stks = s.stks := rfl
@[simp] theorem State.modJob_ports (s : State) (f : Job → Job) : (s.modJob f).ports = s.ports := rfl
@[simp] theorem State.modJob_rl (s : State) (f : Job → Job) : (s.modJob f).rl = s.rl := rfl
@[simp] theorem State.modJob_helm (s : State) (f : Job → Job) : (s.modJob f).helm = s.helm := rfl
@[simp] theorem State.modJob_stow (s : State) (f : Job → Job) : (s.modJob f).stow = s.stow := rfl
@[simp] theorem State.modJob_power (s : State) (f : Job → Job) : (s.modJob f).power = s.power := rfl
@[simp] theorem State.modJob_rel (s : State) (f : Job → Job) : (s.modJob f).rel = s.rel := rfl
@[simp] theorem State.modJob_dbg (s : State) (f : Job → Job) : (s.modJob f).dbg = s.dbg := rfl
@[simp] theorem State.modJob_pins (s : State) (f : Job → Job) : (s.modJob f).pins = s.pins := rfl
@[simp] theorem State.modJob_net (s : State) (f : Job → Job) : (s.modJob f).net = s.net := rfl
@[simp] theorem State.modJob_sub (s : State) (f : Job → Job) : (s.modJob f).sub = s.sub := rfl
@[simp] theorem State.modJob_free (s : State) (f : Job → Job) : (s.modJob f).free = s.free := rfl
@[simp] theorem State.modJob_tile (s : State) (f : Job → Job) (u : Nat) : (s.modJob f).tile u = s.tile u := rfl
@[simp] theorem State.modJob_cluster (s : State) (f : Job → Job) (u : Nat) : (s.modJob f).cluster u = s.cluster u := rfl
@[simp] theorem State.modJob_region (s : State) (f : Job → Job) (u : Nat) : (s.modJob f).region u = s.region u := rfl
@[simp] theorem State.modJob_stk (s : State) (f : Job → Job) (u : Nat) : (s.modJob f).stk u = s.stk u := rfl
@[simp] theorem State.modJob_port (s : State) (f : Job → Job) (u : Nat) : (s.modJob f).port u = s.port u := rfl
@[simp] theorem State.modJob_page (s : State) (f : Job → Job) (u : Nat) : (s.modJob f).page u = s.page u := rfl
@[simp] theorem State.modJob_job (s : State) (f : Job → Job) : (s.modJob f).job = f s.job := rfl

/-! `State.modStow` -/

@[simp] theorem State.modStow_pending (s : State) (f : Stow → Stow) : (s.modStow f).pending = s.pending := rfl
@[simp] theorem State.modStow_tiles (s : State) (f : Stow → Stow) : (s.modStow f).tiles = s.tiles := rfl
@[simp] theorem State.modStow_clusters (s : State) (f : Stow → Stow) : (s.modStow f).clusters = s.clusters := rfl
@[simp] theorem State.modStow_regions (s : State) (f : Stow → Stow) : (s.modStow f).regions = s.regions := rfl
@[simp] theorem State.modStow_stks (s : State) (f : Stow → Stow) : (s.modStow f).stks = s.stks := rfl
@[simp] theorem State.modStow_ports (s : State) (f : Stow → Stow) : (s.modStow f).ports = s.ports := rfl
@[simp] theorem State.modStow_rl (s : State) (f : Stow → Stow) : (s.modStow f).rl = s.rl := rfl
@[simp] theorem State.modStow_helm (s : State) (f : Stow → Stow) : (s.modStow f).helm = s.helm := rfl
@[simp] theorem State.modStow_job (s : State) (f : Stow → Stow) : (s.modStow f).job = s.job := rfl
@[simp] theorem State.modStow_power (s : State) (f : Stow → Stow) : (s.modStow f).power = s.power := rfl
@[simp] theorem State.modStow_rel (s : State) (f : Stow → Stow) : (s.modStow f).rel = s.rel := rfl
@[simp] theorem State.modStow_dbg (s : State) (f : Stow → Stow) : (s.modStow f).dbg = s.dbg := rfl
@[simp] theorem State.modStow_pins (s : State) (f : Stow → Stow) : (s.modStow f).pins = s.pins := rfl
@[simp] theorem State.modStow_net (s : State) (f : Stow → Stow) : (s.modStow f).net = s.net := rfl
@[simp] theorem State.modStow_sub (s : State) (f : Stow → Stow) : (s.modStow f).sub = s.sub := rfl
@[simp] theorem State.modStow_free (s : State) (f : Stow → Stow) : (s.modStow f).free = s.free := rfl
@[simp] theorem State.modStow_tile (s : State) (f : Stow → Stow) (u : Nat) : (s.modStow f).tile u = s.tile u := rfl
@[simp] theorem State.modStow_cluster (s : State) (f : Stow → Stow) (u : Nat) : (s.modStow f).cluster u = s.cluster u := rfl
@[simp] theorem State.modStow_region (s : State) (f : Stow → Stow) (u : Nat) : (s.modStow f).region u = s.region u := rfl
@[simp] theorem State.modStow_stk (s : State) (f : Stow → Stow) (u : Nat) : (s.modStow f).stk u = s.stk u := rfl
@[simp] theorem State.modStow_port (s : State) (f : Stow → Stow) (u : Nat) : (s.modStow f).port u = s.port u := rfl
@[simp] theorem State.modStow_page (s : State) (f : Stow → Stow) (u : Nat) : (s.modStow f).page u = s.page u := rfl
@[simp] theorem State.modStow_stow (s : State) (f : Stow → Stow) : (s.modStow f).stow = f s.stow := rfl

/-! `State.modPower` -/

@[simp] theorem State.modPower_pending (s : State) (f : Power → Power) : (s.modPower f).pending = s.pending := rfl
@[simp] theorem State.modPower_tiles (s : State) (f : Power → Power) : (s.modPower f).tiles = s.tiles := rfl
@[simp] theorem State.modPower_clusters (s : State) (f : Power → Power) : (s.modPower f).clusters = s.clusters := rfl
@[simp] theorem State.modPower_regions (s : State) (f : Power → Power) : (s.modPower f).regions = s.regions := rfl
@[simp] theorem State.modPower_stks (s : State) (f : Power → Power) : (s.modPower f).stks = s.stks := rfl
@[simp] theorem State.modPower_ports (s : State) (f : Power → Power) : (s.modPower f).ports = s.ports := rfl
@[simp] theorem State.modPower_rl (s : State) (f : Power → Power) : (s.modPower f).rl = s.rl := rfl
@[simp] theorem State.modPower_helm (s : State) (f : Power → Power) : (s.modPower f).helm = s.helm := rfl
@[simp] theorem State.modPower_job (s : State) (f : Power → Power) : (s.modPower f).job = s.job := rfl
@[simp] theorem State.modPower_stow (s : State) (f : Power → Power) : (s.modPower f).stow = s.stow := rfl
@[simp] theorem State.modPower_rel (s : State) (f : Power → Power) : (s.modPower f).rel = s.rel := rfl
@[simp] theorem State.modPower_dbg (s : State) (f : Power → Power) : (s.modPower f).dbg = s.dbg := rfl
@[simp] theorem State.modPower_pins (s : State) (f : Power → Power) : (s.modPower f).pins = s.pins := rfl
@[simp] theorem State.modPower_net (s : State) (f : Power → Power) : (s.modPower f).net = s.net := rfl
@[simp] theorem State.modPower_sub (s : State) (f : Power → Power) : (s.modPower f).sub = s.sub := rfl
@[simp] theorem State.modPower_free (s : State) (f : Power → Power) : (s.modPower f).free = s.free := rfl
@[simp] theorem State.modPower_tile (s : State) (f : Power → Power) (u : Nat) : (s.modPower f).tile u = s.tile u := rfl
@[simp] theorem State.modPower_cluster (s : State) (f : Power → Power) (u : Nat) : (s.modPower f).cluster u = s.cluster u := rfl
@[simp] theorem State.modPower_region (s : State) (f : Power → Power) (u : Nat) : (s.modPower f).region u = s.region u := rfl
@[simp] theorem State.modPower_stk (s : State) (f : Power → Power) (u : Nat) : (s.modPower f).stk u = s.stk u := rfl
@[simp] theorem State.modPower_port (s : State) (f : Power → Power) (u : Nat) : (s.modPower f).port u = s.port u := rfl
@[simp] theorem State.modPower_page (s : State) (f : Power → Power) (u : Nat) : (s.modPower f).page u = s.page u := rfl
@[simp] theorem State.modPower_power (s : State) (f : Power → Power) : (s.modPower f).power = f s.power := rfl

/-! `State.modRel` -/

@[simp] theorem State.modRel_pending (s : State) (f : Rel → Rel) : (s.modRel f).pending = s.pending := rfl
@[simp] theorem State.modRel_tiles (s : State) (f : Rel → Rel) : (s.modRel f).tiles = s.tiles := rfl
@[simp] theorem State.modRel_clusters (s : State) (f : Rel → Rel) : (s.modRel f).clusters = s.clusters := rfl
@[simp] theorem State.modRel_regions (s : State) (f : Rel → Rel) : (s.modRel f).regions = s.regions := rfl
@[simp] theorem State.modRel_stks (s : State) (f : Rel → Rel) : (s.modRel f).stks = s.stks := rfl
@[simp] theorem State.modRel_ports (s : State) (f : Rel → Rel) : (s.modRel f).ports = s.ports := rfl
@[simp] theorem State.modRel_rl (s : State) (f : Rel → Rel) : (s.modRel f).rl = s.rl := rfl
@[simp] theorem State.modRel_helm (s : State) (f : Rel → Rel) : (s.modRel f).helm = s.helm := rfl
@[simp] theorem State.modRel_job (s : State) (f : Rel → Rel) : (s.modRel f).job = s.job := rfl
@[simp] theorem State.modRel_stow (s : State) (f : Rel → Rel) : (s.modRel f).stow = s.stow := rfl
@[simp] theorem State.modRel_power (s : State) (f : Rel → Rel) : (s.modRel f).power = s.power := rfl
@[simp] theorem State.modRel_dbg (s : State) (f : Rel → Rel) : (s.modRel f).dbg = s.dbg := rfl
@[simp] theorem State.modRel_pins (s : State) (f : Rel → Rel) : (s.modRel f).pins = s.pins := rfl
@[simp] theorem State.modRel_net (s : State) (f : Rel → Rel) : (s.modRel f).net = s.net := rfl
@[simp] theorem State.modRel_sub (s : State) (f : Rel → Rel) : (s.modRel f).sub = s.sub := rfl
@[simp] theorem State.modRel_free (s : State) (f : Rel → Rel) : (s.modRel f).free = s.free := rfl
@[simp] theorem State.modRel_tile (s : State) (f : Rel → Rel) (u : Nat) : (s.modRel f).tile u = s.tile u := rfl
@[simp] theorem State.modRel_cluster (s : State) (f : Rel → Rel) (u : Nat) : (s.modRel f).cluster u = s.cluster u := rfl
@[simp] theorem State.modRel_region (s : State) (f : Rel → Rel) (u : Nat) : (s.modRel f).region u = s.region u := rfl
@[simp] theorem State.modRel_stk (s : State) (f : Rel → Rel) (u : Nat) : (s.modRel f).stk u = s.stk u := rfl
@[simp] theorem State.modRel_port (s : State) (f : Rel → Rel) (u : Nat) : (s.modRel f).port u = s.port u := rfl
@[simp] theorem State.modRel_page (s : State) (f : Rel → Rel) (u : Nat) : (s.modRel f).page u = s.page u := rfl
@[simp] theorem State.modRel_rel (s : State) (f : Rel → Rel) : (s.modRel f).rel = f s.rel := rfl

/-! `State.modDbg` -/

@[simp] theorem State.modDbg_pending (s : State) (f : Dbg → Dbg) : (s.modDbg f).pending = s.pending := rfl
@[simp] theorem State.modDbg_tiles (s : State) (f : Dbg → Dbg) : (s.modDbg f).tiles = s.tiles := rfl
@[simp] theorem State.modDbg_clusters (s : State) (f : Dbg → Dbg) : (s.modDbg f).clusters = s.clusters := rfl
@[simp] theorem State.modDbg_regions (s : State) (f : Dbg → Dbg) : (s.modDbg f).regions = s.regions := rfl
@[simp] theorem State.modDbg_stks (s : State) (f : Dbg → Dbg) : (s.modDbg f).stks = s.stks := rfl
@[simp] theorem State.modDbg_ports (s : State) (f : Dbg → Dbg) : (s.modDbg f).ports = s.ports := rfl
@[simp] theorem State.modDbg_rl (s : State) (f : Dbg → Dbg) : (s.modDbg f).rl = s.rl := rfl
@[simp] theorem State.modDbg_helm (s : State) (f : Dbg → Dbg) : (s.modDbg f).helm = s.helm := rfl
@[simp] theorem State.modDbg_job (s : State) (f : Dbg → Dbg) : (s.modDbg f).job = s.job := rfl
@[simp] theorem State.modDbg_stow (s : State) (f : Dbg → Dbg) : (s.modDbg f).stow = s.stow := rfl
@[simp] theorem State.modDbg_power (s : State) (f : Dbg → Dbg) : (s.modDbg f).power = s.power := rfl
@[simp] theorem State.modDbg_rel (s : State) (f : Dbg → Dbg) : (s.modDbg f).rel = s.rel := rfl
@[simp] theorem State.modDbg_pins (s : State) (f : Dbg → Dbg) : (s.modDbg f).pins = s.pins := rfl
@[simp] theorem State.modDbg_net (s : State) (f : Dbg → Dbg) : (s.modDbg f).net = s.net := rfl
@[simp] theorem State.modDbg_sub (s : State) (f : Dbg → Dbg) : (s.modDbg f).sub = s.sub := rfl
@[simp] theorem State.modDbg_free (s : State) (f : Dbg → Dbg) : (s.modDbg f).free = s.free := rfl
@[simp] theorem State.modDbg_tile (s : State) (f : Dbg → Dbg) (u : Nat) : (s.modDbg f).tile u = s.tile u := rfl
@[simp] theorem State.modDbg_cluster (s : State) (f : Dbg → Dbg) (u : Nat) : (s.modDbg f).cluster u = s.cluster u := rfl
@[simp] theorem State.modDbg_region (s : State) (f : Dbg → Dbg) (u : Nat) : (s.modDbg f).region u = s.region u := rfl
@[simp] theorem State.modDbg_stk (s : State) (f : Dbg → Dbg) (u : Nat) : (s.modDbg f).stk u = s.stk u := rfl
@[simp] theorem State.modDbg_port (s : State) (f : Dbg → Dbg) (u : Nat) : (s.modDbg f).port u = s.port u := rfl
@[simp] theorem State.modDbg_page (s : State) (f : Dbg → Dbg) (u : Nat) : (s.modDbg f).page u = s.page u := rfl
@[simp] theorem State.modDbg_dbg (s : State) (f : Dbg → Dbg) : (s.modDbg f).dbg = f s.dbg := rfl

/-! `State.modPins` -/

@[simp] theorem State.modPins_pending (s : State) (f : Pins → Pins) : (s.modPins f).pending = s.pending := rfl
@[simp] theorem State.modPins_tiles (s : State) (f : Pins → Pins) : (s.modPins f).tiles = s.tiles := rfl
@[simp] theorem State.modPins_clusters (s : State) (f : Pins → Pins) : (s.modPins f).clusters = s.clusters := rfl
@[simp] theorem State.modPins_regions (s : State) (f : Pins → Pins) : (s.modPins f).regions = s.regions := rfl
@[simp] theorem State.modPins_stks (s : State) (f : Pins → Pins) : (s.modPins f).stks = s.stks := rfl
@[simp] theorem State.modPins_ports (s : State) (f : Pins → Pins) : (s.modPins f).ports = s.ports := rfl
@[simp] theorem State.modPins_rl (s : State) (f : Pins → Pins) : (s.modPins f).rl = s.rl := rfl
@[simp] theorem State.modPins_helm (s : State) (f : Pins → Pins) : (s.modPins f).helm = s.helm := rfl
@[simp] theorem State.modPins_job (s : State) (f : Pins → Pins) : (s.modPins f).job = s.job := rfl
@[simp] theorem State.modPins_stow (s : State) (f : Pins → Pins) : (s.modPins f).stow = s.stow := rfl
@[simp] theorem State.modPins_power (s : State) (f : Pins → Pins) : (s.modPins f).power = s.power := rfl
@[simp] theorem State.modPins_rel (s : State) (f : Pins → Pins) : (s.modPins f).rel = s.rel := rfl
@[simp] theorem State.modPins_dbg (s : State) (f : Pins → Pins) : (s.modPins f).dbg = s.dbg := rfl
@[simp] theorem State.modPins_net (s : State) (f : Pins → Pins) : (s.modPins f).net = s.net := rfl
@[simp] theorem State.modPins_sub (s : State) (f : Pins → Pins) : (s.modPins f).sub = s.sub := rfl
@[simp] theorem State.modPins_free (s : State) (f : Pins → Pins) : (s.modPins f).free = s.free := rfl
@[simp] theorem State.modPins_tile (s : State) (f : Pins → Pins) (u : Nat) : (s.modPins f).tile u = s.tile u := rfl
@[simp] theorem State.modPins_cluster (s : State) (f : Pins → Pins) (u : Nat) : (s.modPins f).cluster u = s.cluster u := rfl
@[simp] theorem State.modPins_region (s : State) (f : Pins → Pins) (u : Nat) : (s.modPins f).region u = s.region u := rfl
@[simp] theorem State.modPins_stk (s : State) (f : Pins → Pins) (u : Nat) : (s.modPins f).stk u = s.stk u := rfl
@[simp] theorem State.modPins_port (s : State) (f : Pins → Pins) (u : Nat) : (s.modPins f).port u = s.port u := rfl
@[simp] theorem State.modPins_page (s : State) (f : Pins → Pins) (u : Nat) : (s.modPins f).page u = s.page u := rfl
@[simp] theorem State.modPins_pins (s : State) (f : Pins → Pins) : (s.modPins f).pins = f s.pins := rfl

/-! `State.modNet` -/

@[simp] theorem State.modNet_pending (s : State) (f : Net → Net) : (s.modNet f).pending = s.pending := rfl
@[simp] theorem State.modNet_tiles (s : State) (f : Net → Net) : (s.modNet f).tiles = s.tiles := rfl
@[simp] theorem State.modNet_clusters (s : State) (f : Net → Net) : (s.modNet f).clusters = s.clusters := rfl
@[simp] theorem State.modNet_regions (s : State) (f : Net → Net) : (s.modNet f).regions = s.regions := rfl
@[simp] theorem State.modNet_stks (s : State) (f : Net → Net) : (s.modNet f).stks = s.stks := rfl
@[simp] theorem State.modNet_ports (s : State) (f : Net → Net) : (s.modNet f).ports = s.ports := rfl
@[simp] theorem State.modNet_rl (s : State) (f : Net → Net) : (s.modNet f).rl = s.rl := rfl
@[simp] theorem State.modNet_helm (s : State) (f : Net → Net) : (s.modNet f).helm = s.helm := rfl
@[simp] theorem State.modNet_job (s : State) (f : Net → Net) : (s.modNet f).job = s.job := rfl
@[simp] theorem State.modNet_stow (s : State) (f : Net → Net) : (s.modNet f).stow = s.stow := rfl
@[simp] theorem State.modNet_power (s : State) (f : Net → Net) : (s.modNet f).power = s.power := rfl
@[simp] theorem State.modNet_rel (s : State) (f : Net → Net) : (s.modNet f).rel = s.rel := rfl
@[simp] theorem State.modNet_dbg (s : State) (f : Net → Net) : (s.modNet f).dbg = s.dbg := rfl
@[simp] theorem State.modNet_pins (s : State) (f : Net → Net) : (s.modNet f).pins = s.pins := rfl
@[simp] theorem State.modNet_sub (s : State) (f : Net → Net) : (s.modNet f).sub = s.sub := rfl
@[simp] theorem State.modNet_free (s : State) (f : Net → Net) : (s.modNet f).free = s.free := rfl
@[simp] theorem State.modNet_tile (s : State) (f : Net → Net) (u : Nat) : (s.modNet f).tile u = s.tile u := rfl
@[simp] theorem State.modNet_cluster (s : State) (f : Net → Net) (u : Nat) : (s.modNet f).cluster u = s.cluster u := rfl
@[simp] theorem State.modNet_region (s : State) (f : Net → Net) (u : Nat) : (s.modNet f).region u = s.region u := rfl
@[simp] theorem State.modNet_stk (s : State) (f : Net → Net) (u : Nat) : (s.modNet f).stk u = s.stk u := rfl
@[simp] theorem State.modNet_port (s : State) (f : Net → Net) (u : Nat) : (s.modNet f).port u = s.port u := rfl
@[simp] theorem State.modNet_page (s : State) (f : Net → Net) (u : Nat) : (s.modNet f).page u = s.page u := rfl
@[simp] theorem State.modNet_net (s : State) (f : Net → Net) : (s.modNet f).net = f s.net := rfl

/-! `State.modWave` -/

@[simp] theorem State.modWave_pending (s : State) (f : Wave → Wave) : (s.modWave f).pending = s.pending := rfl
@[simp] theorem State.modWave_tiles (s : State) (f : Wave → Wave) : (s.modWave f).tiles = s.tiles := rfl
@[simp] theorem State.modWave_clusters (s : State) (f : Wave → Wave) : (s.modWave f).clusters = s.clusters := rfl
@[simp] theorem State.modWave_regions (s : State) (f : Wave → Wave) : (s.modWave f).regions = s.regions := rfl
@[simp] theorem State.modWave_stks (s : State) (f : Wave → Wave) : (s.modWave f).stks = s.stks := rfl
@[simp] theorem State.modWave_ports (s : State) (f : Wave → Wave) : (s.modWave f).ports = s.ports := rfl
@[simp] theorem State.modWave_rl (s : State) (f : Wave → Wave) : (s.modWave f).rl = s.rl := rfl
@[simp] theorem State.modWave_helm (s : State) (f : Wave → Wave) : (s.modWave f).helm = s.helm := rfl
@[simp] theorem State.modWave_stow (s : State) (f : Wave → Wave) : (s.modWave f).stow = s.stow := rfl
@[simp] theorem State.modWave_power (s : State) (f : Wave → Wave) : (s.modWave f).power = s.power := rfl
@[simp] theorem State.modWave_rel (s : State) (f : Wave → Wave) : (s.modWave f).rel = s.rel := rfl
@[simp] theorem State.modWave_dbg (s : State) (f : Wave → Wave) : (s.modWave f).dbg = s.dbg := rfl
@[simp] theorem State.modWave_pins (s : State) (f : Wave → Wave) : (s.modWave f).pins = s.pins := rfl
@[simp] theorem State.modWave_net (s : State) (f : Wave → Wave) : (s.modWave f).net = s.net := rfl
@[simp] theorem State.modWave_sub (s : State) (f : Wave → Wave) : (s.modWave f).sub = s.sub := rfl
@[simp] theorem State.modWave_free (s : State) (f : Wave → Wave) : (s.modWave f).free = s.free := rfl
@[simp] theorem State.modWave_tile (s : State) (f : Wave → Wave) (u : Nat) : (s.modWave f).tile u = s.tile u := rfl
@[simp] theorem State.modWave_cluster (s : State) (f : Wave → Wave) (u : Nat) : (s.modWave f).cluster u = s.cluster u := rfl
@[simp] theorem State.modWave_region (s : State) (f : Wave → Wave) (u : Nat) : (s.modWave f).region u = s.region u := rfl
@[simp] theorem State.modWave_stk (s : State) (f : Wave → Wave) (u : Nat) : (s.modWave f).stk u = s.stk u := rfl
@[simp] theorem State.modWave_port (s : State) (f : Wave → Wave) (u : Nat) : (s.modWave f).port u = s.port u := rfl
@[simp] theorem State.modWave_page (s : State) (f : Wave → Wave) (u : Nat) : (s.modWave f).page u = s.page u := rfl
@[simp] theorem State.modWave_job (s : State) (f : Wave → Wave) : (s.modWave f).job = { s.job with wave := f s.job.wave } := rfl

/-! `State.modPage` -/

@[simp] theorem State.modPage_pending (s : State) (k : Nat) (f : Page → Page) : (s.modPage k f).pending = s.pending := rfl
@[simp] theorem State.modPage_tiles (s : State) (k : Nat) (f : Page → Page) : (s.modPage k f).tiles = s.tiles := rfl
@[simp] theorem State.modPage_clusters (s : State) (k : Nat) (f : Page → Page) : (s.modPage k f).clusters = s.clusters := rfl
@[simp] theorem State.modPage_regions (s : State) (k : Nat) (f : Page → Page) : (s.modPage k f).regions = s.regions := rfl
@[simp] theorem State.modPage_stks (s : State) (k : Nat) (f : Page → Page) : (s.modPage k f).stks = s.stks := rfl
@[simp] theorem State.modPage_ports (s : State) (k : Nat) (f : Page → Page) : (s.modPage k f).ports = s.ports := rfl
@[simp] theorem State.modPage_rl (s : State) (k : Nat) (f : Page → Page) : (s.modPage k f).rl = s.rl := rfl
@[simp] theorem State.modPage_job (s : State) (k : Nat) (f : Page → Page) : (s.modPage k f).job = s.job := rfl
@[simp] theorem State.modPage_stow (s : State) (k : Nat) (f : Page → Page) : (s.modPage k f).stow = s.stow := rfl
@[simp] theorem State.modPage_power (s : State) (k : Nat) (f : Page → Page) : (s.modPage k f).power = s.power := rfl
@[simp] theorem State.modPage_rel (s : State) (k : Nat) (f : Page → Page) : (s.modPage k f).rel = s.rel := rfl
@[simp] theorem State.modPage_dbg (s : State) (k : Nat) (f : Page → Page) : (s.modPage k f).dbg = s.dbg := rfl
@[simp] theorem State.modPage_pins (s : State) (k : Nat) (f : Page → Page) : (s.modPage k f).pins = s.pins := rfl
@[simp] theorem State.modPage_net (s : State) (k : Nat) (f : Page → Page) : (s.modPage k f).net = s.net := rfl
@[simp] theorem State.modPage_sub (s : State) (k : Nat) (f : Page → Page) : (s.modPage k f).sub = s.sub := rfl
@[simp] theorem State.modPage_free (s : State) (k : Nat) (f : Page → Page) : (s.modPage k f).free = s.free := rfl
@[simp] theorem State.modPage_tile (s : State) (k : Nat) (f : Page → Page) (u : Nat) : (s.modPage k f).tile u = s.tile u := rfl
@[simp] theorem State.modPage_cluster (s : State) (k : Nat) (f : Page → Page) (u : Nat) : (s.modPage k f).cluster u = s.cluster u := rfl
@[simp] theorem State.modPage_region (s : State) (k : Nat) (f : Page → Page) (u : Nat) : (s.modPage k f).region u = s.region u := rfl
@[simp] theorem State.modPage_stk (s : State) (k : Nat) (f : Page → Page) (u : Nat) : (s.modPage k f).stk u = s.stk u := rfl
@[simp] theorem State.modPage_port (s : State) (k : Nat) (f : Page → Page) (u : Nat) : (s.modPage k f).port u = s.port u := rfl

/-! `State.took` -/

@[simp] theorem State.took_pending (s : State) : (s.took).pending = s.pending := rfl
@[simp] theorem State.took_tiles (s : State) : (s.took).tiles = s.tiles := rfl
@[simp] theorem State.took_clusters (s : State) : (s.took).clusters = s.clusters := rfl
@[simp] theorem State.took_regions (s : State) : (s.took).regions = s.regions := rfl
@[simp] theorem State.took_stks (s : State) : (s.took).stks = s.stks := rfl
@[simp] theorem State.took_ports (s : State) : (s.took).ports = s.ports := rfl
@[simp] theorem State.took_rl (s : State) : (s.took).rl = s.rl := rfl
@[simp] theorem State.took_helm (s : State) : (s.took).helm = s.helm := rfl
@[simp] theorem State.took_job (s : State) : (s.took).job = s.job := rfl
@[simp] theorem State.took_stow (s : State) : (s.took).stow = s.stow := rfl
@[simp] theorem State.took_power (s : State) : (s.took).power = s.power := rfl
@[simp] theorem State.took_rel (s : State) : (s.took).rel = s.rel := rfl
@[simp] theorem State.took_dbg (s : State) : (s.took).dbg = s.dbg := rfl
@[simp] theorem State.took_pins (s : State) : (s.took).pins = s.pins := rfl
@[simp] theorem State.took_net (s : State) : (s.took).net = s.net := rfl
@[simp] theorem State.took_sub (s : State) : (s.took).sub = s.sub := rfl
@[simp] theorem State.took_tile (s : State) (u : Nat) : (s.took).tile u = s.tile u := rfl
@[simp] theorem State.took_cluster (s : State) (u : Nat) : (s.took).cluster u = s.cluster u := rfl
@[simp] theorem State.took_region (s : State) (u : Nat) : (s.took).region u = s.region u := rfl
@[simp] theorem State.took_stk (s : State) (u : Nat) : (s.took).stk u = s.stk u := rfl
@[simp] theorem State.took_port (s : State) (u : Nat) : (s.took).port u = s.port u := rfl
@[simp] theorem State.took_page (s : State) (u : Nat) : (s.took).page u = s.page u := rfl
@[simp] theorem State.took_free (s : State) : s.took.free = s.free + 1 := rfl

theorem State.setTile_tile (s : State) (k : Nat) (x : Tile) (u : Nat) :
    (s.setTile k x).tile u = if u = k then x else s.tile u := Map.get_set _ _ _ _ _
@[simp] theorem State.setTile_tile_self (s : State) (k : Nat) (x : Tile) : (s.setTile k x).tile k = x := Map.get_set_self _ _ _ _
theorem State.modTile_tile (s : State) (k : Nat) (f : Tile → Tile) (u : Nat) :
    (s.modTile k f).tile u = if u = k then f (s.tile k) else s.tile u := Map.get_set _ _ _ _ _
@[simp] theorem State.modTile_tile_self (s : State) (k : Nat) (f : Tile → Tile) : (s.modTile k f).tile k = f (s.tile k) :=
  Map.get_set_self _ _ _ _
theorem State.modTile_tile_ne (s : State) (k u : Nat) (f : Tile → Tile) (h : u ≠ k) : (s.modTile k f).tile u = s.tile u :=
  Map.get_set_ne _ _ _ _ _ h

theorem State.setCluster_cluster (s : State) (k : Nat) (x : Cluster) (u : Nat) :
    (s.setCluster k x).cluster u = if u = k then x else s.cluster u := Map.get_set _ _ _ _ _
@[simp] theorem State.setCluster_cluster_self (s : State) (k : Nat) (x : Cluster) : (s.setCluster k x).cluster k = x := Map.get_set_self _ _ _ _
theorem State.modCluster_cluster (s : State) (k : Nat) (f : Cluster → Cluster) (u : Nat) :
    (s.modCluster k f).cluster u = if u = k then f (s.cluster k) else s.cluster u := Map.get_set _ _ _ _ _
@[simp] theorem State.modCluster_cluster_self (s : State) (k : Nat) (f : Cluster → Cluster) : (s.modCluster k f).cluster k = f (s.cluster k) :=
  Map.get_set_self _ _ _ _
theorem State.modCluster_cluster_ne (s : State) (k u : Nat) (f : Cluster → Cluster) (h : u ≠ k) : (s.modCluster k f).cluster u = s.cluster u :=
  Map.get_set_ne _ _ _ _ _ h

theorem State.setRegion_region (s : State) (k : Nat) (x : Region) (u : Nat) :
    (s.setRegion k x).region u = if u = k then x else s.region u := Map.get_set _ _ _ _ _
@[simp] theorem State.setRegion_region_self (s : State) (k : Nat) (x : Region) : (s.setRegion k x).region k = x := Map.get_set_self _ _ _ _
theorem State.modRegion_region (s : State) (k : Nat) (f : Region → Region) (u : Nat) :
    (s.modRegion k f).region u = if u = k then f (s.region k) else s.region u := Map.get_set _ _ _ _ _
@[simp] theorem State.modRegion_region_self (s : State) (k : Nat) (f : Region → Region) : (s.modRegion k f).region k = f (s.region k) :=
  Map.get_set_self _ _ _ _
theorem State.modRegion_region_ne (s : State) (k u : Nat) (f : Region → Region) (h : u ≠ k) : (s.modRegion k f).region u = s.region u :=
  Map.get_set_ne _ _ _ _ _ h

theorem State.setStk_stk (s : State) (k : Nat) (x : Stack) (u : Nat) :
    (s.setStk k x).stk u = if u = k then x else s.stk u := Map.get_set _ _ _ _ _
@[simp] theorem State.setStk_stk_self (s : State) (k : Nat) (x : Stack) : (s.setStk k x).stk k = x := Map.get_set_self _ _ _ _
theorem State.modStk_stk (s : State) (k : Nat) (f : Stack → Stack) (u : Nat) :
    (s.modStk k f).stk u = if u = k then f (s.stk k) else s.stk u := Map.get_set _ _ _ _ _
@[simp] theorem State.modStk_stk_self (s : State) (k : Nat) (f : Stack → Stack) : (s.modStk k f).stk k = f (s.stk k) :=
  Map.get_set_self _ _ _ _
theorem State.modStk_stk_ne (s : State) (k u : Nat) (f : Stack → Stack) (h : u ≠ k) : (s.modStk k f).stk u = s.stk u :=
  Map.get_set_ne _ _ _ _ _ h

theorem State.setPort_port (s : State) (k : Nat) (x : Port) (u : Nat) :
    (s.setPort k x).port u = if u = k then x else s.port u := Map.get_set _ _ _ _ _
@[simp] theorem State.setPort_port_self (s : State) (k : Nat) (x : Port) : (s.setPort k x).port k = x := Map.get_set_self _ _ _ _
theorem State.modPort_port (s : State) (k : Nat) (f : Port → Port) (u : Nat) :
    (s.modPort k f).port u = if u = k then f (s.port k) else s.port u := Map.get_set _ _ _ _ _
@[simp] theorem State.modPort_port_self (s : State) (k : Nat) (f : Port → Port) : (s.modPort k f).port k = f (s.port k) :=
  Map.get_set_self _ _ _ _
theorem State.modPort_port_ne (s : State) (k u : Nat) (f : Port → Port) (h : u ≠ k) : (s.modPort k f).port u = s.port u :=
  Map.get_set_ne _ _ _ _ _ h

theorem State.modPage_page (s : State) (k : Nat) (f : Page → Page) (u : Nat) :
    (s.modPage k f).page u = if u = k then f (s.page k) else s.page u := Map.get_set _ _ _ _ _
@[simp] theorem State.modPage_page_self (s : State) (k : Nat) (f : Page → Page) : (s.modPage k f).page k = f (s.page k) :=
  Map.get_set_self _ _ _ _

@[simp] theorem Tile.modSeq_st (x : Tile) (q : Strm) (f : Seq → Seq) : (x.modSeq q f).st = x.st := rfl
@[simp] theorem Tile.modSeq_fault (x : Tile) (q : Strm) (f : Seq → Seq) : (x.modSeq q f).fault = x.fault := rfl
@[simp] theorem Tile.modSeq_faultTime (x : Tile) (q : Strm) (f : Seq → Seq) : (x.modSeq q f).faultTime = x.faultTime := rfl
@[simp] theorem Tile.modSeq_cfg (x : Tile) (q : Strm) (f : Seq → Seq) : (x.modSeq q f).cfg = x.cfg := rfl
@[simp] theorem Tile.modSeq_ctr (x : Tile) (q : Strm) (f : Seq → Seq) : (x.modSeq q f).ctr = x.ctr := rfl
@[simp] theorem Tile.modSeq_im (x : Tile) (q : Strm) (f : Seq → Seq) : (x.modSeq q f).im = x.im := rfl
@[simp] theorem Tile.modSeq_imBad (x : Tile) (q : Strm) (f : Seq → Seq) : (x.modSeq q f).imBad = x.imBad := rfl
@[simp] theorem Tile.modSeq_sp (x : Tile) (q : Strm) (f : Seq → Seq) : (x.modSeq q f).sp = x.sp := rfl
@[simp] theorem Tile.modSeq_spBad (x : Tile) (q : Strm) (f : Seq → Seq) : (x.modSeq q f).spBad = x.spBad := rfl
@[simp] theorem Tile.modSeq_am (x : Tile) (q : Strm) (f : Seq → Seq) : (x.modSeq q f).am = x.am := rfl
@[simp] theorem Tile.modSeq_amBad (x : Tile) (q : Strm) (f : Seq → Seq) : (x.modSeq q f).amBad = x.amBad := rfl
@[simp] theorem Tile.modSeq_sb0 (x : Tile) (q : Strm) (f : Seq → Seq) : (x.modSeq q f).sb0 = x.sb0 := rfl
@[simp] theorem Tile.modSeq_sb1 (x : Tile) (q : Strm) (f : Seq → Seq) : (x.modSeq q f).sb1 = x.sb1 := rfl
@[simp] theorem Tile.modSeq_ctab (x : Tile) (q : Strm) (f : Seq → Seq) : (x.modSeq q f).ctab = x.ctab := rfl
@[simp] theorem Tile.modSeq_ctabBad (x : Tile) (q : Strm) (f : Seq → Seq) : (x.modSeq q f).ctabBad = x.ctabBad := rfl
@[simp] theorem Tile.modSeq_io (x : Tile) (q : Strm) (f : Seq → Seq) : (x.modSeq q f).io = x.io := rfl
@[simp] theorem Tile.modSeq_xs (x : Tile) (q : Strm) (f : Seq → Seq) : (x.modSeq q f).xs = x.xs := rfl
@[simp] theorem Tile.modSeq_qu (x : Tile) (q : Strm) (f : Seq → Seq) : (x.modSeq q f).qu = x.qu := rfl
@[simp] theorem Tile.modSeq_misc (x : Tile) (q : Strm) (f : Seq → Seq) : (x.modSeq q f).misc = x.misc := rfl
@[simp] theorem Tile.modSeq_cyc (x : Tile) (q : Strm) (f : Seq → Seq) : (x.modSeq q f).cyc = x.cyc := rfl

@[simp] theorem Tile.modX_st (x : Tile) (f : XSeq → XSeq) : (x.modX f).st = x.st := rfl
@[simp] theorem Tile.modX_fault (x : Tile) (f : XSeq → XSeq) : (x.modX f).fault = x.fault := rfl
@[simp] theorem Tile.modX_faultTime (x : Tile) (f : XSeq → XSeq) : (x.modX f).faultTime = x.faultTime := rfl
@[simp] theorem Tile.modX_cfg (x : Tile) (f : XSeq → XSeq) : (x.modX f).cfg = x.cfg := rfl
@[simp] theorem Tile.modX_ctr (x : Tile) (f : XSeq → XSeq) : (x.modX f).ctr = x.ctr := rfl
@[simp] theorem Tile.modX_im (x : Tile) (f : XSeq → XSeq) : (x.modX f).im = x.im := rfl
@[simp] theorem Tile.modX_imBad (x : Tile) (f : XSeq → XSeq) : (x.modX f).imBad = x.imBad := rfl
@[simp] theorem Tile.modX_sp (x : Tile) (f : XSeq → XSeq) : (x.modX f).sp = x.sp := rfl
@[simp] theorem Tile.modX_spBad (x : Tile) (f : XSeq → XSeq) : (x.modX f).spBad = x.spBad := rfl
@[simp] theorem Tile.modX_am (x : Tile) (f : XSeq → XSeq) : (x.modX f).am = x.am := rfl
@[simp] theorem Tile.modX_amBad (x : Tile) (f : XSeq → XSeq) : (x.modX f).amBad = x.amBad := rfl
@[simp] theorem Tile.modX_sb0 (x : Tile) (f : XSeq → XSeq) : (x.modX f).sb0 = x.sb0 := rfl
@[simp] theorem Tile.modX_sb1 (x : Tile) (f : XSeq → XSeq) : (x.modX f).sb1 = x.sb1 := rfl
@[simp] theorem Tile.modX_ctab (x : Tile) (f : XSeq → XSeq) : (x.modX f).ctab = x.ctab := rfl
@[simp] theorem Tile.modX_ctabBad (x : Tile) (f : XSeq → XSeq) : (x.modX f).ctabBad = x.ctabBad := rfl
@[simp] theorem Tile.modX_io (x : Tile) (f : XSeq → XSeq) : (x.modX f).io = x.io := rfl
@[simp] theorem Tile.modX_xs (x : Tile) (f : XSeq → XSeq) : (x.modX f).xs = x.xs := rfl
@[simp] theorem Tile.modX_qu (x : Tile) (f : XSeq → XSeq) : (x.modX f).qu = x.qu := rfl
@[simp] theorem Tile.modX_misc (x : Tile) (f : XSeq → XSeq) : (x.modX f).misc = x.misc := rfl
@[simp] theorem Tile.modX_cyc (x : Tile) (f : XSeq → XSeq) : (x.modX f).cyc = x.cyc := rfl

@[simp] theorem Tile.modIo_st (x : Tile) (f : TileIo → TileIo) : (x.modIo f).st = x.st := rfl
@[simp] theorem Tile.modIo_fault (x : Tile) (f : TileIo → TileIo) : (x.modIo f).fault = x.fault := rfl
@[simp] theorem Tile.modIo_faultTime (x : Tile) (f : TileIo → TileIo) : (x.modIo f).faultTime = x.faultTime := rfl
@[simp] theorem Tile.modIo_cfg (x : Tile) (f : TileIo → TileIo) : (x.modIo f).cfg = x.cfg := rfl
@[simp] theorem Tile.modIo_ctr (x : Tile) (f : TileIo → TileIo) : (x.modIo f).ctr = x.ctr := rfl
@[simp] theorem Tile.modIo_im (x : Tile) (f : TileIo → TileIo) : (x.modIo f).im = x.im := rfl
@[simp] theorem Tile.modIo_imBad (x : Tile) (f : TileIo → TileIo) : (x.modIo f).imBad = x.imBad := rfl
@[simp] theorem Tile.modIo_sp (x : Tile) (f : TileIo → TileIo) : (x.modIo f).sp = x.sp := rfl
@[simp] theorem Tile.modIo_spBad (x : Tile) (f : TileIo → TileIo) : (x.modIo f).spBad = x.spBad := rfl
@[simp] theorem Tile.modIo_am (x : Tile) (f : TileIo → TileIo) : (x.modIo f).am = x.am := rfl
@[simp] theorem Tile.modIo_amBad (x : Tile) (f : TileIo → TileIo) : (x.modIo f).amBad = x.amBad := rfl
@[simp] theorem Tile.modIo_sb0 (x : Tile) (f : TileIo → TileIo) : (x.modIo f).sb0 = x.sb0 := rfl
@[simp] theorem Tile.modIo_sb1 (x : Tile) (f : TileIo → TileIo) : (x.modIo f).sb1 = x.sb1 := rfl
@[simp] theorem Tile.modIo_ctab (x : Tile) (f : TileIo → TileIo) : (x.modIo f).ctab = x.ctab := rfl
@[simp] theorem Tile.modIo_ctabBad (x : Tile) (f : TileIo → TileIo) : (x.modIo f).ctabBad = x.ctabBad := rfl
@[simp] theorem Tile.modIo_sq (x : Tile) (f : TileIo → TileIo) : (x.modIo f).sq = x.sq := rfl
@[simp] theorem Tile.modIo_io (x : Tile) (f : TileIo → TileIo) : (x.modIo f).io = f x.io := rfl
@[simp] theorem Tile.modIo_xs (x : Tile) (f : TileIo → TileIo) : (x.modIo f).xs = x.xs := rfl
@[simp] theorem Tile.modIo_qu (x : Tile) (f : TileIo → TileIo) : (x.modIo f).qu = x.qu := rfl
@[simp] theorem Tile.modIo_misc (x : Tile) (f : TileIo → TileIo) : (x.modIo f).misc = x.misc := rfl
@[simp] theorem Tile.modIo_cyc (x : Tile) (f : TileIo → TileIo) : (x.modIo f).cyc = x.cyc := rfl

@[simp] theorem Tile.modXs_st (x : Tile) (f : TileX → TileX) : (x.modXs f).st = x.st := rfl
@[simp] theorem Tile.modXs_fault (x : Tile) (f : TileX → TileX) : (x.modXs f).fault = x.fault := rfl
@[simp] theorem Tile.modXs_faultTime (x : Tile) (f : TileX → TileX) : (x.modXs f).faultTime = x.faultTime := rfl
@[simp] theorem Tile.modXs_cfg (x : Tile) (f : TileX → TileX) : (x.modXs f).cfg = x.cfg := rfl
@[simp] theorem Tile.modXs_ctr (x : Tile) (f : TileX → TileX) : (x.modXs f).ctr = x.ctr := rfl
@[simp] theorem Tile.modXs_im (x : Tile) (f : TileX → TileX) : (x.modXs f).im = x.im := rfl
@[simp] theorem Tile.modXs_imBad (x : Tile) (f : TileX → TileX) : (x.modXs f).imBad = x.imBad := rfl
@[simp] theorem Tile.modXs_sp (x : Tile) (f : TileX → TileX) : (x.modXs f).sp = x.sp := rfl
@[simp] theorem Tile.modXs_spBad (x : Tile) (f : TileX → TileX) : (x.modXs f).spBad = x.spBad := rfl
@[simp] theorem Tile.modXs_am (x : Tile) (f : TileX → TileX) : (x.modXs f).am = x.am := rfl
@[simp] theorem Tile.modXs_amBad (x : Tile) (f : TileX → TileX) : (x.modXs f).amBad = x.amBad := rfl
@[simp] theorem Tile.modXs_sb0 (x : Tile) (f : TileX → TileX) : (x.modXs f).sb0 = x.sb0 := rfl
@[simp] theorem Tile.modXs_sb1 (x : Tile) (f : TileX → TileX) : (x.modXs f).sb1 = x.sb1 := rfl
@[simp] theorem Tile.modXs_ctab (x : Tile) (f : TileX → TileX) : (x.modXs f).ctab = x.ctab := rfl
@[simp] theorem Tile.modXs_ctabBad (x : Tile) (f : TileX → TileX) : (x.modXs f).ctabBad = x.ctabBad := rfl
@[simp] theorem Tile.modXs_sq (x : Tile) (f : TileX → TileX) : (x.modXs f).sq = x.sq := rfl
@[simp] theorem Tile.modXs_io (x : Tile) (f : TileX → TileX) : (x.modXs f).io = x.io := rfl
@[simp] theorem Tile.modXs_xs (x : Tile) (f : TileX → TileX) : (x.modXs f).xs = f x.xs := rfl
@[simp] theorem Tile.modXs_qu (x : Tile) (f : TileX → TileX) : (x.modXs f).qu = x.qu := rfl
@[simp] theorem Tile.modXs_misc (x : Tile) (f : TileX → TileX) : (x.modXs f).misc = x.misc := rfl
@[simp] theorem Tile.modXs_cyc (x : Tile) (f : TileX → TileX) : (x.modXs f).cyc = x.cyc := rfl

@[simp] theorem Tile.modQu_st (x : Tile) (f : TileQ → TileQ) : (x.modQu f).st = x.st := rfl
@[simp] theorem Tile.modQu_fault (x : Tile) (f : TileQ → TileQ) : (x.modQu f).fault = x.fault := rfl
@[simp] theorem Tile.modQu_faultTime (x : Tile) (f : TileQ → TileQ) : (x.modQu f).faultTime = x.faultTime := rfl
@[simp] theorem Tile.modQu_cfg (x : Tile) (f : TileQ → TileQ) : (x.modQu f).cfg = x.cfg := rfl
@[simp] theorem Tile.modQu_ctr (x : Tile) (f : TileQ → TileQ) : (x.modQu f).ctr = x.ctr := rfl
@[simp] theorem Tile.modQu_im (x : Tile) (f : TileQ → TileQ) : (x.modQu f).im = x.im := rfl
@[simp] theorem Tile.modQu_imBad (x : Tile) (f : TileQ → TileQ) : (x.modQu f).imBad = x.imBad := rfl
@[simp] theorem Tile.modQu_sp (x : Tile) (f : TileQ → TileQ) : (x.modQu f).sp = x.sp := rfl
@[simp] theorem Tile.modQu_spBad (x : Tile) (f : TileQ → TileQ) : (x.modQu f).spBad = x.spBad := rfl
@[simp] theorem Tile.modQu_am (x : Tile) (f : TileQ → TileQ) : (x.modQu f).am = x.am := rfl
@[simp] theorem Tile.modQu_amBad (x : Tile) (f : TileQ → TileQ) : (x.modQu f).amBad = x.amBad := rfl
@[simp] theorem Tile.modQu_sb0 (x : Tile) (f : TileQ → TileQ) : (x.modQu f).sb0 = x.sb0 := rfl
@[simp] theorem Tile.modQu_sb1 (x : Tile) (f : TileQ → TileQ) : (x.modQu f).sb1 = x.sb1 := rfl
@[simp] theorem Tile.modQu_ctab (x : Tile) (f : TileQ → TileQ) : (x.modQu f).ctab = x.ctab := rfl
@[simp] theorem Tile.modQu_ctabBad (x : Tile) (f : TileQ → TileQ) : (x.modQu f).ctabBad = x.ctabBad := rfl
@[simp] theorem Tile.modQu_sq (x : Tile) (f : TileQ → TileQ) : (x.modQu f).sq = x.sq := rfl
@[simp] theorem Tile.modQu_io (x : Tile) (f : TileQ → TileQ) : (x.modQu f).io = x.io := rfl
@[simp] theorem Tile.modQu_xs (x : Tile) (f : TileQ → TileQ) : (x.modQu f).xs = x.xs := rfl
@[simp] theorem Tile.modQu_qu (x : Tile) (f : TileQ → TileQ) : (x.modQu f).qu = f x.qu := rfl
@[simp] theorem Tile.modQu_misc (x : Tile) (f : TileQ → TileQ) : (x.modQu f).misc = x.misc := rfl
@[simp] theorem Tile.modQu_cyc (x : Tile) (f : TileQ → TileQ) : (x.modQu f).cyc = x.cyc := rfl

@[simp] theorem Tile.modMisc_st (x : Tile) (f : TileMisc → TileMisc) : (x.modMisc f).st = x.st := rfl
@[simp] theorem Tile.modMisc_fault (x : Tile) (f : TileMisc → TileMisc) : (x.modMisc f).fault = x.fault := rfl
@[simp] theorem Tile.modMisc_faultTime (x : Tile) (f : TileMisc → TileMisc) : (x.modMisc f).faultTime = x.faultTime := rfl
@[simp] theorem Tile.modMisc_cfg (x : Tile) (f : TileMisc → TileMisc) : (x.modMisc f).cfg = x.cfg := rfl
@[simp] theorem Tile.modMisc_ctr (x : Tile) (f : TileMisc → TileMisc) : (x.modMisc f).ctr = x.ctr := rfl
@[simp] theorem Tile.modMisc_im (x : Tile) (f : TileMisc → TileMisc) : (x.modMisc f).im = x.im := rfl
@[simp] theorem Tile.modMisc_imBad (x : Tile) (f : TileMisc → TileMisc) : (x.modMisc f).imBad = x.imBad := rfl
@[simp] theorem Tile.modMisc_sp (x : Tile) (f : TileMisc → TileMisc) : (x.modMisc f).sp = x.sp := rfl
@[simp] theorem Tile.modMisc_spBad (x : Tile) (f : TileMisc → TileMisc) : (x.modMisc f).spBad = x.spBad := rfl
@[simp] theorem Tile.modMisc_am (x : Tile) (f : TileMisc → TileMisc) : (x.modMisc f).am = x.am := rfl
@[simp] theorem Tile.modMisc_amBad (x : Tile) (f : TileMisc → TileMisc) : (x.modMisc f).amBad = x.amBad := rfl
@[simp] theorem Tile.modMisc_sb0 (x : Tile) (f : TileMisc → TileMisc) : (x.modMisc f).sb0 = x.sb0 := rfl
@[simp] theorem Tile.modMisc_sb1 (x : Tile) (f : TileMisc → TileMisc) : (x.modMisc f).sb1 = x.sb1 := rfl
@[simp] theorem Tile.modMisc_ctab (x : Tile) (f : TileMisc → TileMisc) : (x.modMisc f).ctab = x.ctab := rfl
@[simp] theorem Tile.modMisc_ctabBad (x : Tile) (f : TileMisc → TileMisc) : (x.modMisc f).ctabBad = x.ctabBad := rfl
@[simp] theorem Tile.modMisc_sq (x : Tile) (f : TileMisc → TileMisc) : (x.modMisc f).sq = x.sq := rfl
@[simp] theorem Tile.modMisc_io (x : Tile) (f : TileMisc → TileMisc) : (x.modMisc f).io = x.io := rfl
@[simp] theorem Tile.modMisc_xs (x : Tile) (f : TileMisc → TileMisc) : (x.modMisc f).xs = x.xs := rfl
@[simp] theorem Tile.modMisc_qu (x : Tile) (f : TileMisc → TileMisc) : (x.modMisc f).qu = x.qu := rfl
@[simp] theorem Tile.modMisc_misc (x : Tile) (f : TileMisc → TileMisc) : (x.modMisc f).misc = f x.misc := rfl
@[simp] theorem Tile.modMisc_cyc (x : Tile) (f : TileMisc → TileMisc) : (x.modMisc f).cyc = x.cyc := rfl

@[simp] theorem Tile.count_st (x : Tile) (o n : Nat) : (x.count o n).st = x.st := rfl
@[simp] theorem Tile.count_fault (x : Tile) (o n : Nat) : (x.count o n).fault = x.fault := rfl
@[simp] theorem Tile.count_faultTime (x : Tile) (o n : Nat) : (x.count o n).faultTime = x.faultTime := rfl
@[simp] theorem Tile.count_cfg (x : Tile) (o n : Nat) : (x.count o n).cfg = x.cfg := rfl
@[simp] theorem Tile.count_im (x : Tile) (o n : Nat) : (x.count o n).im = x.im := rfl
@[simp] theorem Tile.count_imBad (x : Tile) (o n : Nat) : (x.count o n).imBad = x.imBad := rfl
@[simp] theorem Tile.count_sp (x : Tile) (o n : Nat) : (x.count o n).sp = x.sp := rfl
@[simp] theorem Tile.count_spBad (x : Tile) (o n : Nat) : (x.count o n).spBad = x.spBad := rfl
@[simp] theorem Tile.count_am (x : Tile) (o n : Nat) : (x.count o n).am = x.am := rfl
@[simp] theorem Tile.count_amBad (x : Tile) (o n : Nat) : (x.count o n).amBad = x.amBad := rfl
@[simp] theorem Tile.count_sb0 (x : Tile) (o n : Nat) : (x.count o n).sb0 = x.sb0 := rfl
@[simp] theorem Tile.count_sb1 (x : Tile) (o n : Nat) : (x.count o n).sb1 = x.sb1 := rfl
@[simp] theorem Tile.count_ctab (x : Tile) (o n : Nat) : (x.count o n).ctab = x.ctab := rfl
@[simp] theorem Tile.count_ctabBad (x : Tile) (o n : Nat) : (x.count o n).ctabBad = x.ctabBad := rfl
@[simp] theorem Tile.count_sq (x : Tile) (o n : Nat) : (x.count o n).sq = x.sq := rfl
@[simp] theorem Tile.count_io (x : Tile) (o n : Nat) : (x.count o n).io = x.io := rfl
@[simp] theorem Tile.count_xs (x : Tile) (o n : Nat) : (x.count o n).xs = x.xs := rfl
@[simp] theorem Tile.count_qu (x : Tile) (o n : Nat) : (x.count o n).qu = x.qu := rfl
@[simp] theorem Tile.count_misc (x : Tile) (o n : Nat) : (x.count o n).misc = x.misc := rfl
@[simp] theorem Tile.count_cyc (x : Tile) (o n : Nat) : (x.count o n).cyc = x.cyc := rfl

@[simp] theorem SeqFile.get_set_self (f : SeqFile) (q : Strm) (v : Seq) (h : q ≠ .x) : (f.set q v).get q = v := by
  cases q <;> first | rfl | exact absurd rfl h
@[simp] theorem SeqFile.get_set_ne (f : SeqFile) (q r : Strm) (v : Seq) (h : r ≠ q) : (f.set q v).get r = f.get r := by
  cases q <;> cases r <;> first | rfl | exact absurd rfl h
@[simp] theorem SeqFile.set_x (f : SeqFile) (q : Strm) (v : Seq) : (f.set q v).x = f.x := by cases q <;> rfl
theorem Tile.modSeq_seq (x : Tile) (q : Strm) (f : Seq → Seq) (h : q ≠ .x) : (x.modSeq q f).seq q = f (x.seq q) :=
  SeqFile.get_set_self _ _ _ h
theorem Tile.modSeq_seq_ne (x : Tile) (q r : Strm) (f : Seq → Seq) (h : r ≠ q) : (x.modSeq q f).seq r = x.seq r :=
  SeqFile.get_set_ne _ _ _ _ h

end Sys2Proof.Machine
end

