-- ==== Sys2Proof/Laws/Ops.lean ====
section
/-! SUPPORT. What the shared operations of the mailbox, the interrupts and the symbol queues leave as it was: a posting touches the
helm and Riendlink only, a symbol its port only. -/

namespace Sys2Proof.Machine

/-! `State.rlPost` -/

@[simp] theorem State.rlPost_pending (s : State) (d : Bool) : (s.rlPost d).pending = s.pending := by rfl
@[simp] theorem State.rlPost_tiles (s : State) (d : Bool) : (s.rlPost d).tiles = s.tiles := by rfl
@[simp] theorem State.rlPost_clusters (s : State) (d : Bool) : (s.rlPost d).clusters = s.clusters := by rfl
@[simp] theorem State.rlPost_regions (s : State) (d : Bool) : (s.rlPost d).regions = s.regions := by rfl
@[simp] theorem State.rlPost_stks (s : State) (d : Bool) : (s.rlPost d).stks = s.stks := by rfl
@[simp] theorem State.rlPost_ports (s : State) (d : Bool) : (s.rlPost d).ports = s.ports := by rfl
@[simp] theorem State.rlPost_job (s : State) (d : Bool) : (s.rlPost d).job = s.job := by rfl
@[simp] theorem State.rlPost_stow (s : State) (d : Bool) : (s.rlPost d).stow = s.stow := by rfl
@[simp] theorem State.rlPost_power (s : State) (d : Bool) : (s.rlPost d).power = s.power := by rfl
@[simp] theorem State.rlPost_rel (s : State) (d : Bool) : (s.rlPost d).rel = s.rel := by rfl
@[simp] theorem State.rlPost_dbg (s : State) (d : Bool) : (s.rlPost d).dbg = s.dbg := by rfl
@[simp] theorem State.rlPost_pins (s : State) (d : Bool) : (s.rlPost d).pins = s.pins := by rfl
@[simp] theorem State.rlPost_net (s : State) (d : Bool) : (s.rlPost d).net = s.net := by rfl
@[simp] theorem State.rlPost_sub (s : State) (d : Bool) : (s.rlPost d).sub = s.sub := by rfl
@[simp] theorem State.rlPost_free (s : State) (d : Bool) : (s.rlPost d).free = s.free := by rfl
@[simp] theorem State.rlPost_helm (s : State) (d : Bool) : (s.rlPost d).helm = s.helm := by rfl

/-! `State.sendMsi` -/

@[simp] theorem State.sendMsi_pending (s : State) (v : Nat) : (s.sendMsi v).pending = s.pending := by unfold State.sendMsi; split <;> simp
@[simp] theorem State.sendMsi_tiles (s : State) (v : Nat) : (s.sendMsi v).tiles = s.tiles := by unfold State.sendMsi; split <;> simp
@[simp] theorem State.sendMsi_clusters (s : State) (v : Nat) : (s.sendMsi v).clusters = s.clusters := by unfold State.sendMsi; split <;> simp
@[simp] theorem State.sendMsi_regions (s : State) (v : Nat) : (s.sendMsi v).regions = s.regions := by unfold State.sendMsi; split <;> simp
@[simp] theorem State.sendMsi_stks (s : State) (v : Nat) : (s.sendMsi v).stks = s.stks := by unfold State.sendMsi; split <;> simp
@[simp] theorem State.sendMsi_ports (s : State) (v : Nat) : (s.sendMsi v).ports = s.ports := by unfold State.sendMsi; split <;> simp
@[simp] theorem State.sendMsi_job (s : State) (v : Nat) : (s.sendMsi v).job = s.job := by unfold State.sendMsi; split <;> simp
@[simp] theorem State.sendMsi_stow (s : State) (v : Nat) : (s.sendMsi v).stow = s.stow := by unfold State.sendMsi; split <;> simp
@[simp] theorem State.sendMsi_power (s : State) (v : Nat) : (s.sendMsi v).power = s.power := by unfold State.sendMsi; split <;> simp
@[simp] theorem State.sendMsi_rel (s : State) (v : Nat) : (s.sendMsi v).rel = s.rel := by unfold State.sendMsi; split <;> simp
@[simp] theorem State.sendMsi_dbg (s : State) (v : Nat) : (s.sendMsi v).dbg = s.dbg := by unfold State.sendMsi; split <;> simp
@[simp] theorem State.sendMsi_pins (s : State) (v : Nat) : (s.sendMsi v).pins = s.pins := by unfold State.sendMsi; split <;> simp
@[simp] theorem State.sendMsi_net (s : State) (v : Nat) : (s.sendMsi v).net = s.net := by unfold State.sendMsi; split <;> simp
@[simp] theorem State.sendMsi_sub (s : State) (v : Nat) : (s.sendMsi v).sub = s.sub := by unfold State.sendMsi; split <;> simp
@[simp] theorem State.sendMsi_free (s : State) (v : Nat) : (s.sendMsi v).free = s.free := by unfold State.sendMsi; split <;> simp
@[simp] theorem State.sendMsi_helm (s : State) (v : Nat) : (s.sendMsi v).helm = s.helm := by unfold State.sendMsi; split <;> simp

/-! `State.raiseMsi` -/

@[simp] theorem State.raiseMsi_pending (s : State) (v : Nat) : (s.raiseMsi v).pending = s.pending := by simp [State.raiseMsi]
@[simp] theorem State.raiseMsi_tiles (s : State) (v : Nat) : (s.raiseMsi v).tiles = s.tiles := by simp [State.raiseMsi]
@[simp] theorem State.raiseMsi_clusters (s : State) (v : Nat) : (s.raiseMsi v).clusters = s.clusters := by simp [State.raiseMsi]
@[simp] theorem State.raiseMsi_regions (s : State) (v : Nat) : (s.raiseMsi v).regions = s.regions := by simp [State.raiseMsi]
@[simp] theorem State.raiseMsi_stks (s : State) (v : Nat) : (s.raiseMsi v).stks = s.stks := by simp [State.raiseMsi]
@[simp] theorem State.raiseMsi_ports (s : State) (v : Nat) : (s.raiseMsi v).ports = s.ports := by simp [State.raiseMsi]
@[simp] theorem State.raiseMsi_job (s : State) (v : Nat) : (s.raiseMsi v).job = s.job := by simp [State.raiseMsi]
@[simp] theorem State.raiseMsi_stow (s : State) (v : Nat) : (s.raiseMsi v).stow = s.stow := by simp [State.raiseMsi]
@[simp] theorem State.raiseMsi_power (s : State) (v : Nat) : (s.raiseMsi v).power = s.power := by simp [State.raiseMsi]
@[simp] theorem State.raiseMsi_rel (s : State) (v : Nat) : (s.raiseMsi v).rel = s.rel := by simp [State.raiseMsi]
@[simp] theorem State.raiseMsi_dbg (s : State) (v : Nat) : (s.raiseMsi v).dbg = s.dbg := by simp [State.raiseMsi]
@[simp] theorem State.raiseMsi_pins (s : State) (v : Nat) : (s.raiseMsi v).pins = s.pins := by simp [State.raiseMsi]
@[simp] theorem State.raiseMsi_net (s : State) (v : Nat) : (s.raiseMsi v).net = s.net := by simp [State.raiseMsi]
@[simp] theorem State.raiseMsi_sub (s : State) (v : Nat) : (s.raiseMsi v).sub = s.sub := by simp [State.raiseMsi]
@[simp] theorem State.raiseMsi_free (s : State) (v : Nat) : (s.raiseMsi v).free = s.free := by simp [State.raiseMsi]
@[simp] theorem State.raiseMsi_helm (s : State) (v : Nat) : (s.raiseMsi v).helm = s.helm := by simp [State.raiseMsi]

/-! `State.drainPage` -/

@[simp] theorem State.drainPage_pending (s : State) (k n : Nat) : (s.drainPage k n).pending = s.pending := by
  induction n generalizing s with
  | zero => rfl
  | succ n ih =>
    unfold State.drainPage
    extract_lets p
    repeat' split
    all_goals simp [ih]
@[simp] theorem State.drainPage_tiles (s : State) (k n : Nat) : (s.drainPage k n).tiles = s.tiles := by
  induction n generalizing s with
  | zero => rfl
  | succ n ih =>
    unfold State.drainPage
    extract_lets p
    repeat' split
    all_goals simp [ih]
@[simp] theorem State.drainPage_clusters (s : State) (k n : Nat) : (s.drainPage k n).clusters = s.clusters := by
  induction n generalizing s with
  | zero => rfl
  | succ n ih =>
    unfold State.drainPage
    extract_lets p
    repeat' split
    all_goals simp [ih]
@[simp] theorem State.drainPage_regions (s : State) (k n : Nat) : (s.drainPage k n).regions = s.regions := by
  induction n generalizing s with
  | zero => rfl
  | succ n ih =>
    unfold State.drainPage
    extract_lets p
    repeat' split
    all_goals simp [ih]
@[simp] theorem State.drainPage_stks (s : State) (k n : Nat) : (s.drainPage k n).stks = s.stks := by
  induction n generalizing s with
  | zero => rfl
  | succ n ih =>
    unfold State.drainPage
    extract_lets p
    repeat' split
    all_goals simp [ih]
@[simp] theorem State.drainPage_ports (s : State) (k n : Nat) : (s.drainPage k n).ports = s.ports := by
  induction n generalizing s with
  | zero => rfl
  | succ n ih =>
    unfold State.drainPage
    extract_lets p
    repeat' split
    all_goals simp [ih]
@[simp] theorem State.drainPage_job (s : State) (k n : Nat) : (s.drainPage k n).job = s.job := by
  induction n generalizing s with
  | zero => rfl
  | succ n ih =>
    unfold State.drainPage
    extract_lets p
    repeat' split
    all_goals simp [ih]
@[simp] theorem State.drainPage_stow (s : State) (k n : Nat) : (s.drainPage k n).stow = s.stow := by
  induction n generalizing s with
  | zero => rfl
  | succ n ih =>
    unfold State.drainPage
    extract_lets p
    repeat' split
    all_goals simp [ih]
@[simp] theorem State.drainPage_power (s : State) (k n : Nat) : (s.drainPage k n).power = s.power := by
  induction n generalizing s with
  | zero => rfl
  | succ n ih =>
    unfold State.drainPage
    extract_lets p
    repeat' split
    all_goals simp [ih]
@[simp] theorem State.drainPage_rel (s : State) (k n : Nat) : (s.drainPage k n).rel = s.rel := by
  induction n generalizing s with
  | zero => rfl
  | succ n ih =>
    unfold State.drainPage
    extract_lets p
    repeat' split
    all_goals simp [ih]
@[simp] theorem State.drainPage_dbg (s : State) (k n : Nat) : (s.drainPage k n).dbg = s.dbg := by
  induction n generalizing s with
  | zero => rfl
  | succ n ih =>
    unfold State.drainPage
    extract_lets p
    repeat' split
    all_goals simp [ih]
@[simp] theorem State.drainPage_pins (s : State) (k n : Nat) : (s.drainPage k n).pins = s.pins := by
  induction n generalizing s with
  | zero => rfl
  | succ n ih =>
    unfold State.drainPage
    extract_lets p
    repeat' split
    all_goals simp [ih]
@[simp] theorem State.drainPage_net (s : State) (k n : Nat) : (s.drainPage k n).net = s.net := by
  induction n generalizing s with
  | zero => rfl
  | succ n ih =>
    unfold State.drainPage
    extract_lets p
    repeat' split
    all_goals simp [ih]
@[simp] theorem State.drainPage_sub (s : State) (k n : Nat) : (s.drainPage k n).sub = s.sub := by
  induction n generalizing s with
  | zero => rfl
  | succ n ih =>
    unfold State.drainPage
    extract_lets p
    repeat' split
    all_goals simp [ih]
@[simp] theorem State.drainPage_free (s : State) (k n : Nat) : (s.drainPage k n).free = s.free := by
  induction n generalizing s with
  | zero => rfl
  | succ n ih =>
    unfold State.drainPage
    extract_lets p
    repeat' split
    all_goals simp [ih]

/-! `State.take` -/

@[simp] theorem State.take_pending (s : State) (k : Nat) : (s.take k).pending = s.pending := by simp [State.take]
@[simp] theorem State.take_tiles (s : State) (k : Nat) : (s.take k).tiles = s.tiles := by simp [State.take]
@[simp] theorem State.take_clusters (s : State) (k : Nat) : (s.take k).clusters = s.clusters := by simp [State.take]
@[simp] theorem State.take_regions (s : State) (k : Nat) : (s.take k).regions = s.regions := by simp [State.take]
@[simp] theorem State.take_stks (s : State) (k : Nat) : (s.take k).stks = s.stks := by simp [State.take]
@[simp] theorem State.take_ports (s : State) (k : Nat) : (s.take k).ports = s.ports := by simp [State.take]
@[simp] theorem State.take_job (s : State) (k : Nat) : (s.take k).job = s.job := by simp [State.take]
@[simp] theorem State.take_stow (s : State) (k : Nat) : (s.take k).stow = s.stow := by simp [State.take]
@[simp] theorem State.take_power (s : State) (k : Nat) : (s.take k).power = s.power := by simp [State.take]
@[simp] theorem State.take_rel (s : State) (k : Nat) : (s.take k).rel = s.rel := by simp [State.take]
@[simp] theorem State.take_dbg (s : State) (k : Nat) : (s.take k).dbg = s.dbg := by simp [State.take]
@[simp] theorem State.take_pins (s : State) (k : Nat) : (s.take k).pins = s.pins := by simp [State.take]
@[simp] theorem State.take_net (s : State) (k : Nat) : (s.take k).net = s.net := by simp [State.take]
@[simp] theorem State.take_sub (s : State) (k : Nat) : (s.take k).sub = s.sub := by simp [State.take]
@[simp] theorem State.take_free (s : State) (k : Nat) : (s.take k).free = s.free := by simp [State.take]
@[simp] theorem State.take_rl (s : State) (k : Nat) : (s.take k).rl = s.rl := by simp [State.take]

/-! `State.postDone` -/

@[simp] theorem State.postDone_pending (s : State) (k st : Nat) (ws : List Word) : (s.postDone k st ws).pending = s.pending := by simp [State.postDone]
@[simp] theorem State.postDone_tiles (s : State) (k st : Nat) (ws : List Word) : (s.postDone k st ws).tiles = s.tiles := by simp [State.postDone]
@[simp] theorem State.postDone_clusters (s : State) (k st : Nat) (ws : List Word) : (s.postDone k st ws).clusters = s.clusters := by simp [State.postDone]
@[simp] theorem State.postDone_regions (s : State) (k st : Nat) (ws : List Word) : (s.postDone k st ws).regions = s.regions := by simp [State.postDone]
@[simp] theorem State.postDone_stks (s : State) (k st : Nat) (ws : List Word) : (s.postDone k st ws).stks = s.stks := by simp [State.postDone]
@[simp] theorem State.postDone_ports (s : State) (k st : Nat) (ws : List Word) : (s.postDone k st ws).ports = s.ports := by simp [State.postDone]
@[simp] theorem State.postDone_job (s : State) (k st : Nat) (ws : List Word) : (s.postDone k st ws).job = s.job := by simp [State.postDone]
@[simp] theorem State.postDone_stow (s : State) (k st : Nat) (ws : List Word) : (s.postDone k st ws).stow = s.stow := by simp [State.postDone]
@[simp] theorem State.postDone_power (s : State) (k st : Nat) (ws : List Word) : (s.postDone k st ws).power = s.power := by simp [State.postDone]
@[simp] theorem State.postDone_rel (s : State) (k st : Nat) (ws : List Word) : (s.postDone k st ws).rel = s.rel := by simp [State.postDone]
@[simp] theorem State.postDone_dbg (s : State) (k st : Nat) (ws : List Word) : (s.postDone k st ws).dbg = s.dbg := by simp [State.postDone]
@[simp] theorem State.postDone_pins (s : State) (k st : Nat) (ws : List Word) : (s.postDone k st ws).pins = s.pins := by simp [State.postDone]
@[simp] theorem State.postDone_net (s : State) (k st : Nat) (ws : List Word) : (s.postDone k st ws).net = s.net := by simp [State.postDone]
@[simp] theorem State.postDone_sub (s : State) (k st : Nat) (ws : List Word) : (s.postDone k st ws).sub = s.sub := by simp [State.postDone]
@[simp] theorem State.postDone_free (s : State) (k st : Nat) (ws : List Word) : (s.postDone k st ws).free = s.free := by simp [State.postDone]

/-! `State.serveBad` -/

@[simp] theorem State.serveBad_pending (s : State) (k n : Nat) : (s.serveBad k n).pending = s.pending := by
  induction n generalizing s with
  | zero => rfl
  | succ n ih =>
    unfold State.serveBad
    repeat' split
    all_goals simp [ih]
@[simp] theorem State.serveBad_tiles (s : State) (k n : Nat) : (s.serveBad k n).tiles = s.tiles := by
  induction n generalizing s with
  | zero => rfl
  | succ n ih =>
    unfold State.serveBad
    repeat' split
    all_goals simp [ih]
@[simp] theorem State.serveBad_clusters (s : State) (k n : Nat) : (s.serveBad k n).clusters = s.clusters := by
  induction n generalizing s with
  | zero => rfl
  | succ n ih =>
    unfold State.serveBad
    repeat' split
    all_goals simp [ih]
@[simp] theorem State.serveBad_regions (s : State) (k n : Nat) : (s.serveBad k n).regions = s.regions := by
  induction n generalizing s with
  | zero => rfl
  | succ n ih =>
    unfold State.serveBad
    repeat' split
    all_goals simp [ih]
@[simp] theorem State.serveBad_stks (s : State) (k n : Nat) : (s.serveBad k n).stks = s.stks := by
  induction n generalizing s with
  | zero => rfl
  | succ n ih =>
    unfold State.serveBad
    repeat' split
    all_goals simp [ih]
@[simp] theorem State.serveBad_ports (s : State) (k n : Nat) : (s.serveBad k n).ports = s.ports := by
  induction n generalizing s with
  | zero => rfl
  | succ n ih =>
    unfold State.serveBad
    repeat' split
    all_goals simp [ih]
@[simp] theorem State.serveBad_job (s : State) (k n : Nat) : (s.serveBad k n).job = s.job := by
  induction n generalizing s with
  | zero => rfl
  | succ n ih =>
    unfold State.serveBad
    repeat' split
    all_goals simp [ih]
@[simp] theorem State.serveBad_stow (s : State) (k n : Nat) : (s.serveBad k n).stow = s.stow := by
  induction n generalizing s with
  | zero => rfl
  | succ n ih =>
    unfold State.serveBad
    repeat' split
    all_goals simp [ih]
@[simp] theorem State.serveBad_power (s : State) (k n : Nat) : (s.serveBad k n).power = s.power := by
  induction n generalizing s with
  | zero => rfl
  | succ n ih =>
    unfold State.serveBad
    repeat' split
    all_goals simp [ih]
@[simp] theorem State.serveBad_rel (s : State) (k n : Nat) : (s.serveBad k n).rel = s.rel := by
  induction n generalizing s with
  | zero => rfl
  | succ n ih =>
    unfold State.serveBad
    repeat' split
    all_goals simp [ih]
@[simp] theorem State.serveBad_dbg (s : State) (k n : Nat) : (s.serveBad k n).dbg = s.dbg := by
  induction n generalizing s with
  | zero => rfl
  | succ n ih =>
    unfold State.serveBad
    repeat' split
    all_goals simp [ih]
@[simp] theorem State.serveBad_pins (s : State) (k n : Nat) : (s.serveBad k n).pins = s.pins := by
  induction n generalizing s with
  | zero => rfl
  | succ n ih =>
    unfold State.serveBad
    repeat' split
    all_goals simp [ih]
@[simp] theorem State.serveBad_net (s : State) (k n : Nat) : (s.serveBad k n).net = s.net := by
  induction n generalizing s with
  | zero => rfl
  | succ n ih =>
    unfold State.serveBad
    repeat' split
    all_goals simp [ih]
@[simp] theorem State.serveBad_sub (s : State) (k n : Nat) : (s.serveBad k n).sub = s.sub := by
  induction n generalizing s with
  | zero => rfl
  | succ n ih =>
    unfold State.serveBad
    repeat' split
    all_goals simp [ih]
@[simp] theorem State.serveBad_free (s : State) (k n : Nat) : (s.serveBad k n).free = s.free := by
  induction n generalizing s with
  | zero => rfl
  | succ n ih =>
    unfold State.serveBad
    repeat' split
    all_goals simp [ih]

/-! `State.complete` -/

@[simp] theorem State.complete_pending (s : State) (k st : Nat) (ws : List Word) : (s.complete k st ws).pending = s.pending := by unfold State.complete; split <;> simp
@[simp] theorem State.complete_tiles (s : State) (k st : Nat) (ws : List Word) : (s.complete k st ws).tiles = s.tiles := by unfold State.complete; split <;> simp
@[simp] theorem State.complete_clusters (s : State) (k st : Nat) (ws : List Word) : (s.complete k st ws).clusters = s.clusters := by unfold State.complete; split <;> simp
@[simp] theorem State.complete_regions (s : State) (k st : Nat) (ws : List Word) : (s.complete k st ws).regions = s.regions := by unfold State.complete; split <;> simp
@[simp] theorem State.complete_stks (s : State) (k st : Nat) (ws : List Word) : (s.complete k st ws).stks = s.stks := by unfold State.complete; split <;> simp
@[simp] theorem State.complete_ports (s : State) (k st : Nat) (ws : List Word) : (s.complete k st ws).ports = s.ports := by unfold State.complete; split <;> simp
@[simp] theorem State.complete_job (s : State) (k st : Nat) (ws : List Word) : (s.complete k st ws).job = s.job := by unfold State.complete; split <;> simp
@[simp] theorem State.complete_stow (s : State) (k st : Nat) (ws : List Word) : (s.complete k st ws).stow = s.stow := by unfold State.complete; split <;> simp
@[simp] theorem State.complete_power (s : State) (k st : Nat) (ws : List Word) : (s.complete k st ws).power = s.power := by unfold State.complete; split <;> simp
@[simp] theorem State.complete_rel (s : State) (k st : Nat) (ws : List Word) : (s.complete k st ws).rel = s.rel := by unfold State.complete; split <;> simp
@[simp] theorem State.complete_dbg (s : State) (k st : Nat) (ws : List Word) : (s.complete k st ws).dbg = s.dbg := by unfold State.complete; split <;> simp
@[simp] theorem State.complete_pins (s : State) (k st : Nat) (ws : List Word) : (s.complete k st ws).pins = s.pins := by unfold State.complete; split <;> simp
@[simp] theorem State.complete_net (s : State) (k st : Nat) (ws : List Word) : (s.complete k st ws).net = s.net := by unfold State.complete; split <;> simp
@[simp] theorem State.complete_sub (s : State) (k st : Nat) (ws : List Word) : (s.complete k st ws).sub = s.sub := by unfold State.complete; split <;> simp
@[simp] theorem State.complete_free (s : State) (k st : Nat) (ws : List Word) : (s.complete k st ws).free = s.free := by unfold State.complete; split <;> simp

/-! `State.eventTo` -/

@[simp] theorem State.eventTo_pending (s : State) (k o : Nat) (ws : List Word) : (s.eventTo k o ws).pending = s.pending := by simp only [State.eventTo]; split <;> simp
@[simp] theorem State.eventTo_tiles (s : State) (k o : Nat) (ws : List Word) : (s.eventTo k o ws).tiles = s.tiles := by simp only [State.eventTo]; split <;> simp
@[simp] theorem State.eventTo_clusters (s : State) (k o : Nat) (ws : List Word) : (s.eventTo k o ws).clusters = s.clusters := by simp only [State.eventTo]; split <;> simp
@[simp] theorem State.eventTo_regions (s : State) (k o : Nat) (ws : List Word) : (s.eventTo k o ws).regions = s.regions := by simp only [State.eventTo]; split <;> simp
@[simp] theorem State.eventTo_stks (s : State) (k o : Nat) (ws : List Word) : (s.eventTo k o ws).stks = s.stks := by simp only [State.eventTo]; split <;> simp
@[simp] theorem State.eventTo_ports (s : State) (k o : Nat) (ws : List Word) : (s.eventTo k o ws).ports = s.ports := by simp only [State.eventTo]; split <;> simp
@[simp] theorem State.eventTo_job (s : State) (k o : Nat) (ws : List Word) : (s.eventTo k o ws).job = s.job := by simp only [State.eventTo]; split <;> simp
@[simp] theorem State.eventTo_stow (s : State) (k o : Nat) (ws : List Word) : (s.eventTo k o ws).stow = s.stow := by simp only [State.eventTo]; split <;> simp
@[simp] theorem State.eventTo_power (s : State) (k o : Nat) (ws : List Word) : (s.eventTo k o ws).power = s.power := by simp only [State.eventTo]; split <;> simp
@[simp] theorem State.eventTo_rel (s : State) (k o : Nat) (ws : List Word) : (s.eventTo k o ws).rel = s.rel := by simp only [State.eventTo]; split <;> simp
@[simp] theorem State.eventTo_dbg (s : State) (k o : Nat) (ws : List Word) : (s.eventTo k o ws).dbg = s.dbg := by simp only [State.eventTo]; split <;> simp
@[simp] theorem State.eventTo_pins (s : State) (k o : Nat) (ws : List Word) : (s.eventTo k o ws).pins = s.pins := by simp only [State.eventTo]; split <;> simp
@[simp] theorem State.eventTo_net (s : State) (k o : Nat) (ws : List Word) : (s.eventTo k o ws).net = s.net := by simp only [State.eventTo]; split <;> simp
@[simp] theorem State.eventTo_sub (s : State) (k o : Nat) (ws : List Word) : (s.eventTo k o ws).sub = s.sub := by simp only [State.eventTo]; split <;> simp
@[simp] theorem State.eventTo_free (s : State) (k o : Nat) (ws : List Word) : (s.eventTo k o ws).free = s.free := by simp only [State.eventTo]; split <;> simp

/-! `State.event` -/

@[simp] theorem State.event_pending (s : State) (o : Nat) (ws : List Word) : (s.event o ws).pending = s.pending := by simp [State.event]
@[simp] theorem State.event_tiles (s : State) (o : Nat) (ws : List Word) : (s.event o ws).tiles = s.tiles := by simp [State.event]
@[simp] theorem State.event_clusters (s : State) (o : Nat) (ws : List Word) : (s.event o ws).clusters = s.clusters := by simp [State.event]
@[simp] theorem State.event_regions (s : State) (o : Nat) (ws : List Word) : (s.event o ws).regions = s.regions := by simp [State.event]
@[simp] theorem State.event_stks (s : State) (o : Nat) (ws : List Word) : (s.event o ws).stks = s.stks := by simp [State.event]
@[simp] theorem State.event_ports (s : State) (o : Nat) (ws : List Word) : (s.event o ws).ports = s.ports := by simp [State.event]
@[simp] theorem State.event_job (s : State) (o : Nat) (ws : List Word) : (s.event o ws).job = s.job := by simp [State.event]
@[simp] theorem State.event_stow (s : State) (o : Nat) (ws : List Word) : (s.event o ws).stow = s.stow := by simp [State.event]
@[simp] theorem State.event_power (s : State) (o : Nat) (ws : List Word) : (s.event o ws).power = s.power := by simp [State.event]
@[simp] theorem State.event_rel (s : State) (o : Nat) (ws : List Word) : (s.event o ws).rel = s.rel := by simp [State.event]
@[simp] theorem State.event_dbg (s : State) (o : Nat) (ws : List Word) : (s.event o ws).dbg = s.dbg := by simp [State.event]
@[simp] theorem State.event_pins (s : State) (o : Nat) (ws : List Word) : (s.event o ws).pins = s.pins := by simp [State.event]
@[simp] theorem State.event_net (s : State) (o : Nat) (ws : List Word) : (s.event o ws).net = s.net := by simp [State.event]
@[simp] theorem State.event_sub (s : State) (o : Nat) (ws : List Word) : (s.event o ws).sub = s.sub := by simp [State.event]
@[simp] theorem State.event_free (s : State) (o : Nat) (ws : List Word) : (s.event o ws).free = s.free := by simp [State.event]

/-! `State.queueSym` -/

@[simp] theorem State.queueSym_pending (s : State) (p : Nat) (y : Sym) : (s.queueSym p y).pending = s.pending := by simp [State.queueSym]
@[simp] theorem State.queueSym_tiles (s : State) (p : Nat) (y : Sym) : (s.queueSym p y).tiles = s.tiles := by simp [State.queueSym]
@[simp] theorem State.queueSym_clusters (s : State) (p : Nat) (y : Sym) : (s.queueSym p y).clusters = s.clusters := by simp [State.queueSym]
@[simp] theorem State.queueSym_regions (s : State) (p : Nat) (y : Sym) : (s.queueSym p y).regions = s.regions := by simp [State.queueSym]
@[simp] theorem State.queueSym_stks (s : State) (p : Nat) (y : Sym) : (s.queueSym p y).stks = s.stks := by simp [State.queueSym]
@[simp] theorem State.queueSym_job (s : State) (p : Nat) (y : Sym) : (s.queueSym p y).job = s.job := by simp [State.queueSym]
@[simp] theorem State.queueSym_stow (s : State) (p : Nat) (y : Sym) : (s.queueSym p y).stow = s.stow := by simp [State.queueSym]
@[simp] theorem State.queueSym_power (s : State) (p : Nat) (y : Sym) : (s.queueSym p y).power = s.power := by simp [State.queueSym]
@[simp] theorem State.queueSym_rel (s : State) (p : Nat) (y : Sym) : (s.queueSym p y).rel = s.rel := by simp [State.queueSym]
@[simp] theorem State.queueSym_dbg (s : State) (p : Nat) (y : Sym) : (s.queueSym p y).dbg = s.dbg := by simp [State.queueSym]
@[simp] theorem State.queueSym_pins (s : State) (p : Nat) (y : Sym) : (s.queueSym p y).pins = s.pins := by simp [State.queueSym]
@[simp] theorem State.queueSym_net (s : State) (p : Nat) (y : Sym) : (s.queueSym p y).net = s.net := by simp [State.queueSym]
@[simp] theorem State.queueSym_sub (s : State) (p : Nat) (y : Sym) : (s.queueSym p y).sub = s.sub := by simp [State.queueSym]
@[simp] theorem State.queueSym_free (s : State) (p : Nat) (y : Sym) : (s.queueSym p y).free = s.free := by simp [State.queueSym]
@[simp] theorem State.queueSym_rl (s : State) (p : Nat) (y : Sym) : (s.queueSym p y).rl = s.rl := by simp [State.queueSym]
@[simp] theorem State.queueSym_helm (s : State) (p : Nat) (y : Sym) : (s.queueSym p y).helm = s.helm := by simp [State.queueSym]

/-! `State.sendAlong` -/

@[simp] theorem State.sendAlong_pending (s : State) (es : List (Nat × Nat × Nat)) (mk : Nat → Sym) : (s.sendAlong es mk).pending = s.pending := by
  unfold State.sendAlong
  induction es generalizing s with
  | nil => rfl
  | cons e es ih => simp [ih]
@[simp] theorem State.sendAlong_tiles (s : State) (es : List (Nat × Nat × Nat)) (mk : Nat → Sym) : (s.sendAlong es mk).tiles = s.tiles := by
  unfold State.sendAlong
  induction es generalizing s with
  | nil => rfl
  | cons e es ih => simp [ih]
@[simp] theorem State.sendAlong_clusters (s : State) (es : List (Nat × Nat × Nat)) (mk : Nat → Sym) : (s.sendAlong es mk).clusters = s.clusters := by
  unfold State.sendAlong
  induction es generalizing s with
  | nil => rfl
  | cons e es ih => simp [ih]
@[simp] theorem State.sendAlong_regions (s : State) (es : List (Nat × Nat × Nat)) (mk : Nat → Sym) : (s.sendAlong es mk).regions = s.regions := by
  unfold State.sendAlong
  induction es generalizing s with
  | nil => rfl
  | cons e es ih => simp [ih]
@[simp] theorem State.sendAlong_stks (s : State) (es : List (Nat × Nat × Nat)) (mk : Nat → Sym) : (s.sendAlong es mk).stks = s.stks := by
  unfold State.sendAlong
  induction es generalizing s with
  | nil => rfl
  | cons e es ih => simp [ih]
@[simp] theorem State.sendAlong_job (s : State) (es : List (Nat × Nat × Nat)) (mk : Nat → Sym) : (s.sendAlong es mk).job = s.job := by
  unfold State.sendAlong
  induction es generalizing s with
  | nil => rfl
  | cons e es ih => simp [ih]
@[simp] theorem State.sendAlong_stow (s : State) (es : List (Nat × Nat × Nat)) (mk : Nat → Sym) : (s.sendAlong es mk).stow = s.stow := by
  unfold State.sendAlong
  induction es generalizing s with
  | nil => rfl
  | cons e es ih => simp [ih]
@[simp] theorem State.sendAlong_power (s : State) (es : List (Nat × Nat × Nat)) (mk : Nat → Sym) : (s.sendAlong es mk).power = s.power := by
  unfold State.sendAlong
  induction es generalizing s with
  | nil => rfl
  | cons e es ih => simp [ih]
@[simp] theorem State.sendAlong_rel (s : State) (es : List (Nat × Nat × Nat)) (mk : Nat → Sym) : (s.sendAlong es mk).rel = s.rel := by
  unfold State.sendAlong
  induction es generalizing s with
  | nil => rfl
  | cons e es ih => simp [ih]
@[simp] theorem State.sendAlong_dbg (s : State) (es : List (Nat × Nat × Nat)) (mk : Nat → Sym) : (s.sendAlong es mk).dbg = s.dbg := by
  unfold State.sendAlong
  induction es generalizing s with
  | nil => rfl
  | cons e es ih => simp [ih]
@[simp] theorem State.sendAlong_pins (s : State) (es : List (Nat × Nat × Nat)) (mk : Nat → Sym) : (s.sendAlong es mk).pins = s.pins := by
  unfold State.sendAlong
  induction es generalizing s with
  | nil => rfl
  | cons e es ih => simp [ih]
@[simp] theorem State.sendAlong_net (s : State) (es : List (Nat × Nat × Nat)) (mk : Nat → Sym) : (s.sendAlong es mk).net = s.net := by
  unfold State.sendAlong
  induction es generalizing s with
  | nil => rfl
  | cons e es ih => simp [ih]
@[simp] theorem State.sendAlong_sub (s : State) (es : List (Nat × Nat × Nat)) (mk : Nat → Sym) : (s.sendAlong es mk).sub = s.sub := by
  unfold State.sendAlong
  induction es generalizing s with
  | nil => rfl
  | cons e es ih => simp [ih]
@[simp] theorem State.sendAlong_free (s : State) (es : List (Nat × Nat × Nat)) (mk : Nat → Sym) : (s.sendAlong es mk).free = s.free := by
  unfold State.sendAlong
  induction es generalizing s with
  | nil => rfl
  | cons e es ih => simp [ih]
@[simp] theorem State.sendAlong_rl (s : State) (es : List (Nat × Nat × Nat)) (mk : Nat → Sym) : (s.sendAlong es mk).rl = s.rl := by
  unfold State.sendAlong
  induction es generalizing s with
  | nil => rfl
  | cons e es ih => simp [ih]
@[simp] theorem State.sendAlong_helm (s : State) (es : List (Nat × Nat × Nat)) (mk : Nat → Sym) : (s.sendAlong es mk).helm = s.helm := by
  unfold State.sendAlong
  induction es generalizing s with
  | nil => rfl
  | cons e es ih => simp [ih]

end Sys2Proof.Machine
end

