-- ==== Sys2Proof/Laws/Issue.lean ====
section
/-! SUPPORT. What fetching and issuing an instruction does, once for all tile instructions. -/

namespace Sys2Proof.Machine

theorem State.Issues.fetchAt {s : State} {t : Nat} {q : Strm} {w : Word} {regs : List Nat} (h : s.Issues t q w regs) :
    s.fetchAt t q = .insn (s.site t q w) := by
  have hb : (s.dbg.bpen && !(s.tile t).halted q && ((s.tile t).breakAt q ((s.tile t).slot q)).isSome) = false := by
    rcases h.noBreak with h | h | h <;> simp [h]
  unfold State.fetchAt
  extract_lets x pc slot last w'
  have hw : w' = w := h.word
  rw [if_neg (by rw [h.may]; decide), if_neg (Nat.not_le.2 h.inPart), if_neg (by rw [hb]; decide),
    if_neg (by rw [h.parity]; decide), hw, if_pos h.legal]
  rfl

/-- A stream's turn leaves all but its tile and the compute cycle. -/
theorem State.enter_frame (s : State) (t : Nat) (q : Strm) :
    (s.enter t q).job = s.job ∧ (s.enter t q).power = s.power ∧ (s.enter t q).dbg = s.dbg ∧
    (s.enter t q).clusters = s.clusters ∧ (s.enter t q).regions = s.regions ∧ (s.enter t q).stks = s.stks ∧
    (s.enter t q).ports = s.ports ∧ (s.enter t q).rl = s.rl ∧ (s.enter t q).helm = s.helm ∧ (s.enter t q).stow = s.stow ∧
    (s.enter t q).rel = s.rel ∧ (s.enter t q).pins = s.pins ∧ (s.enter t q).net = s.net ∧ (s.enter t q).free = s.free ∧
    (s.enter t q).pending = s.pending ∧ ∀ u, u ≠ t → (s.enter t q).tile u = s.tile u := by
  unfold State.enter State.settle State.nextCycle
  extract_lets x here
  split
  all_goals
    refine ⟨rfl, rfl, rfl, rfl, rfl, rfl, rfl, rfl, rfl, rfl, rfl, rfl, rfl, rfl, rfl, fun u hu => ?_⟩
    rw [State.modTile_tile_ne _ _ _ _ hu, State.modTile_tile_ne _ _ _ _ hu]
    try rfl

/-- In a running job no command is of the tick of a stop. -/
theorem State.sameTick_of_runs {s : State} (h : s.job.js = 4) : s.sameTick = false := by
  simp [State.sameTick, h]

theorem State.Offers.running {s : State} {t : Nat} {q : Strm} {w : Word} (h : s.Offers t q w) : s.job.js = 4 := by
  have := h.may
  unfold State.mayIssue at this
  simp only [Bool.and_eq_true, decide_eq_true_eq] at this
  exact this.1.1.1.1.2

theorem alongside_eq {t : Nat} {s : State} (f : State → Out) (h : s.sameTick = false) : alongside t s f = f s := by
  unfold alongside
  rw [if_neg (by rw [h]; decide)]

/-- A tile-instruction command whose instruction issues in its turn runs its body. -/
theorem tileInsn_runs {s : State} {t : Nat} {q : Strm} {w : Word} {key : Nat} {regs : Word → List Nat}
    {body : Site → Tile → State → State} (h : (s.enter t q).Issues t q w (regs w)) (hk : keyOf w = key) :
    tileInsn key t q s regs body =
      .next (body ((s.enter t q).site t q w) ((s.enter t q).tile t) (s.enter t q)) := by
  have hs : s.sameTick = false := State.sameTick_of_runs ((s.enter_frame t q).1 ▸ h.running)
  generalize he : s.enter t q = e at h ⊢
  have hp : ¬ (q ≠ .x ∧ ¬ ((e.tile t).seq q).predOk (e.site t q w).w = true) := fun g => h.pred.elim g.1 g.2
  have hr : ¬ (regs (e.site t q w).w).any (fun r => ((e.tile t).seq q).busy.contains r) = true := fun g => by
    obtain ⟨r, hr, g⟩ := List.any_eq_true.1 g
    rw [h.ready r hr] at g
    cases g
  have hf : ¬ (e.waitMet t (e.site t q w).w && e.contended t q (e.site t q w).w) = true := fun g => by
    rw [show (e.site t q w).w = w from rfl, h.free] at g
    cases g
  have hm : ¬ (bit (e.site t q w).w 51 = true ∧ 127 ≤ ((e.tile t).seq q).mark (fld (e.site t q w).w 47 4)) := fun g =>
    absurd (h.mark g.1) (Nat.not_lt.2 g.2)
  have hk' : ¬ keyOf (e.site t q w).w ≠ key := fun g => g hk
  unfold tileInsn
  rw [if_neg (Nat.not_le.2 h.unit), alongside_eq _ hs]
  dsimp only
  rw [he, h.fetchAt]
  dsimp only
  rw [if_neg hk', if_neg hp, if_neg hr, if_neg hf, if_neg hm]

/-- The end of a Sextant step touches the mailbox, the interrupts and Sextant's status only. -/
theorem State.stepEnds_frame (s : State) (t n : Nat) :
    (s.stepEnds t n).tiles = s.tiles ∧ (s.stepEnds t n).clusters = s.clusters ∧ (s.stepEnds t n).regions = s.regions ∧
    (s.stepEnds t n).stks = s.stks ∧ (s.stepEnds t n).ports = s.ports ∧ (s.stepEnds t n).job = s.job ∧
    (s.stepEnds t n).stow = s.stow ∧ (s.stepEnds t n).power = s.power ∧ (s.stepEnds t n).rel = s.rel ∧
    (s.stepEnds t n).pins = s.pins ∧ (s.stepEnds t n).net = s.net ∧ (s.stepEnds t n).sub = s.sub ∧ (s.stepEnds t n).free = s.free ∧
    (s.stepEnds t n).pending = s.pending := by
  unfold State.stepEnds
  repeat' split
  all_goals simp

theorem State.stepEnds_zero (s : State) (t : Nat) : s.stepEnds t 0 = s := by simp [State.stepEnds]

@[simp] theorem State.stepEnds_tile (s : State) (t n u : Nat) : (s.stepEnds t n).tile u = s.tile u := by
  rw [State.tile, (s.stepEnds_frame t n).1]; rfl

/-- What `issueWith` changes besides the tile is the end of a Sextant step. -/
theorem State.issueWith_sameBut (s : State) (i : Site) (next : BitVec 13) (f : Tile → Tile) :
    s.SameBut i.t (s.issueWith i next f) := by
  have h := (s.modTile i.t fun x => f (x.issue i next)).stepEnds_frame i.t (s.tile i.t).misc.stepping
  obtain ⟨-, h2, h3, h4, h5, h6, h7, h8, h9, h10, h11, h12, h13, h14⟩ := h
  refine ⟨fun u hu => ?_, h2, h3, h4, h5, h6, h7, h8, h9, h10, h11, h12, h13, h14, fun hs => ?_⟩
  · rw [State.issueWith, State.stepEnds_tile, State.modTile_tile_ne _ _ _ _ hu]
  · rw [State.issueWith, hs, State.stepEnds_zero]
    exact ⟨rfl, rfl, rfl⟩

@[simp] theorem State.issueWith_tile (s : State) (i : Site) (next : BitVec 13) (f : Tile → Tile) :
    (s.issueWith i next f).tile i.t = f ((s.tile i.t).issue i next) := by
  rw [State.issueWith, State.stepEnds_tile, State.modTile_tile_self]

theorem Tile.countOther (x : Tile) (o n p : Nat) (h : p ≠ o) : Map.get 0 (x.count o n).ctr p = Map.get 0 x.ctr p :=
  Map.get_set_ne _ _ _ _ _ h

theorem Tile.countSelf (x : Tile) (o n : Nat) : Map.get 0 (x.count o n).ctr o = Map.get 0 x.ctr o + BitVec.ofNat 64 n :=
  Map.get_set_self _ _ _ _

/-- What issuing changes of the tile. -/
theorem Tile.issue_data (x : Tile) (i : Site) (next : BitVec 13) : x.SameData (x.issue i next) := by
  unfold Tile.issue
  extract_lets x0 c x1 y
  have h0 : x.SameData x0 := by
    simp only [x0]
    split <;> exact ⟨rfl, rfl, rfl, rfl, ⟨rfl, rfl⟩, ⟨rfl, rfl⟩, ⟨rfl, rfl⟩, ⟨rfl, rfl⟩, ⟨rfl, rfl⟩, rfl, rfl, rfl, rfl⟩
  have h1 : x.SameData y := by
    simp only [y, x1, c]
    split <;> exact ⟨h0.st, h0.fault, h0.faultTime, h0.cfg, h0.im, h0.sp, h0.am, h0.sb, h0.ctab, h0.io, h0.xs, h0.qu, h0.misc⟩
  split
  · refine ⟨h1.st, h1.fault, h1.faultTime, h1.cfg, h1.im, h1.sp, h1.am, h1.sb, h1.ctab, h1.io, h1.xs, h1.qu, ?_⟩
    simp only [Tile.modMisc]
    rw [h1.misc]
  · exact h1

theorem Tile.issue_seq (x : Tile) (i : Site) (next : BitVec 13) (h : i.q ≠ .x) :
    (x.issue i next).seq i.q = { x.seq i.q with pc := next, last := BitVec.ofNat 13 i.pc } := by
  unfold Tile.issue
  obtain ⟨t, q, pc, w⟩ := i
  cases q <;> simp only at h ⊢ <;> first | exact absurd rfl h | skip
  all_goals
    repeat' split
    all_goals rfl

theorem Tile.issue_seq_ne (x : Tile) (i : Site) (next : BitVec 13) (r : Strm) (h : r ≠ i.q) :
    (x.issue i next).seq r = x.seq r := by
  unfold Tile.issue
  obtain ⟨t, q, pc, w⟩ := i
  cases q <;> cases r <;> simp only at h ⊢ <;> first | exact absurd rfl h | skip
  all_goals
    repeat' split
    all_goals rfl

theorem Tile.issue_x (x : Tile) (i : Site) (next : BitVec 13) (h : i.q ≠ .x) : (x.issue i next).sq.x = x.sq.x := by
  unfold Tile.issue
  obtain ⟨t, q, pc, w⟩ := i
  cases q <;> simp only at h ⊢ <;> first | exact absurd rfl h | skip
  all_goals
    repeat' split
    all_goals rfl

theorem Tile.issue_ctr (x : Tile) (i : Site) (next : BitVec 13) (o : Nat) (h : o ≠ 0x220) :
    Map.get 0 (x.issue i next).ctr o = Map.get 0 x.ctr o := by
  unfold Tile.issue
  obtain ⟨t, q, pc, w⟩ := i
  cases q <;> simp only
  all_goals
    repeat' split
    all_goals first
      | rfl
      | exact Tile.countOther _ _ _ _ h

/-- An instruction in order that only writes registers of its own sequencer. -/
theorem State.issueSeq_issued (s : State) (t : Nat) (q : Strm) (w : Word) (f : Seq → Seq) (hq : q ≠ .x)
    (hf : ∀ v : Seq, ∀ pc last, f { v with pc := pc, last := last } = { f v with pc := pc, last := last }) :
    s.Issued (s.issueSeq (s.site t q w) fun y => y.modSeq q f) t q (s.nextPc t q) 0 (f ((s.tile t).seq q)) := by
  have ht : (s.issueSeq (s.site t q w) fun y => y.modSeq q f).tile t =
      ((s.tile t).issue (s.site t q w) (s.nextPc t q)).modSeq q f := State.issueWith_tile s (s.site t q w) _ _
  have hd := (s.tile t).issue_data (s.site t q w) (s.nextPc t q)
  refine ⟨?_, fun r hr => ?_, ?_, ?_, ?_, fun o h _ => ?_, State.issueWith_sameBut s (s.site t q w) _ _⟩
  · rw [ht]
    exact (Tile.modSeq_seq _ _ _ hq).trans ((congrArg f (Tile.issue_seq _ (s.site t q w) _ hq)).trans (hf _ _ _))
  · rw [ht, Tile.modSeq_seq_ne _ _ _ _ hr, Tile.issue_seq_ne _ (s.site t q w) _ _ hr]
  · rw [ht]
    exact (SeqFile.set_x _ _ _).trans (Tile.issue_x _ (s.site t q w) _ hq)
  · rw [ht]
    exact ⟨hd.st, hd.fault, hd.faultTime, hd.cfg, hd.im, hd.sp, hd.am, hd.sb, hd.ctab, hd.io, hd.xs, hd.qu, hd.misc⟩
  · rw [ht]
    exact (Tile.issue_ctr _ _ _ _ (by cases q <;> decide)).trans (BitVec.add_zero _).symm
  · rw [ht]
    exact Tile.issue_ctr _ _ _ _ h

/-- A taken branch that only writes registers of its own sequencer. -/
theorem State.branchTo_issued (s : State) (t : Nat) (q : Strm) (w : Word) (next : BitVec 13) (f : Seq → Seq) (hq : q ≠ .x)
    (hf : ∀ v : Seq, ∀ pc last, f { v with pc := pc, last := last } = { f v with pc := pc, last := last }) :
    s.Issued (s.branchTo (s.site t q w) next fun y => y.modSeq q f) t q next ((s.tile t).bubbles q) (f ((s.tile t).seq q)) := by
  have e : s.branchTo (s.site t q w) next (fun y => y.modSeq q f) =
      (s.issueWith (s.site t q w) next fun y => y.modSeq q f).modTile t fun x => x.count (0x100 + 0x40 * Strm.code q + 8 * 7) ((s.tile t).bubbles q) :=
    rfl
  have ht : (s.branchTo (s.site t q w) next fun y => y.modSeq q f).tile t =
      (((s.tile t).issue (s.site t q w) next).modSeq q f).count (0x100 + 0x40 * Strm.code q + 8 * 7) ((s.tile t).bubbles q) := by
    rw [e, State.modTile_tile_self]
    exact congrArg (fun x => Tile.count x _ ((s.tile t).bubbles q)) (State.issueWith_tile s (s.site t q w) _ _)
  have hd := (s.tile t).issue_data (s.site t q w) next
  have hb : 0x100 + 0x40 * Strm.code q + 8 * 7 = 0x138 + 0x40 * Strm.code q := by omega
  have hs := State.issueWith_sameBut s (s.site t q w) next fun y => y.modSeq q f
  refine ⟨?_, fun r hr => ?_, ?_, ?_, ?_, fun o h h' => ?_, ?_⟩
  · rw [ht]
    exact (Tile.modSeq_seq _ _ _ hq).trans ((congrArg f (Tile.issue_seq _ (s.site t q w) _ hq)).trans (hf _ _ _))
  · rw [ht]
    exact (Tile.modSeq_seq_ne _ _ _ _ hr).trans (Tile.issue_seq_ne _ (s.site t q w) _ _ hr)
  · rw [ht]
    exact (SeqFile.set_x _ _ _).trans (Tile.issue_x _ (s.site t q w) _ hq)
  · rw [ht]
    exact ⟨hd.st, hd.fault, hd.faultTime, hd.cfg, hd.im, hd.sp, hd.am, hd.sb, hd.ctab, hd.io, hd.xs, hd.qu, hd.misc⟩
  · rw [ht, ← hb, Tile.countSelf]
    exact congrArg (· + _) (Tile.issue_ctr _ _ _ _ (by cases q <;> decide))
  · rw [ht, Tile.countOther _ _ _ _ (by omega)]
    exact Tile.issue_ctr _ _ _ _ h
  · exact ⟨fun u hu => (State.modTile_tile_ne _ _ _ _ hu).trans (hs.tiles u hu), hs.clusters, hs.regions, hs.stks, hs.ports, hs.job,
      hs.stow, hs.power, hs.rel, hs.pins, hs.net, hs.sub, hs.free, hs.pending, hs.still⟩

end Sys2Proof.Machine
end

