-- ==== Sys2Proof/Laws/Kept.lean ====
section
/-! SUPPORT. What every operation of the model keeps, as one relation between the state before and after: the queue, the fence map
and the fuses that only grow, the canonical unit tables, the legal modes. One lemma for each operation cites those of the
operations it calls. -/

namespace Sys2Proof.Machine

theorem subset_cons_dups (x : Nat) (l : List Nat) : l ⊆ (x :: l).eraseDups :=
  fun _ h => List.mem_eraseDups.2 (List.mem_cons.2 (Or.inr h))

theorem subset_append_dups (m l : List Nat) : l ⊆ (m ++ l).eraseDups :=
  fun _ h => List.mem_eraseDups.2 (List.mem_append.2 (Or.inr h))

theorem Rel.Grows.refl (x : Rel) : x.Grows x :=
  ⟨List.Subset.refl _, List.Subset.refl _, List.Subset.refl _, List.Subset.refl _, List.Subset.refl _, List.Subset.refl _⟩

theorem Rel.Grows.of_eq {x y : Rel} (h1 : y.fTiles = x.fTiles) (h2 : y.fClus = x.fClus) (h3 : y.fRtr = x.fRtr)
    (h4 : y.fLink = x.fLink) (h5 : y.failed = x.failed) (h6 : y.retired = x.retired) : x.Grows y :=
  ⟨fun _ h => h1 ▸ h, fun _ h => h2 ▸ h, fun _ h => h3 ▸ h, fun _ h => h4 ▸ h, fun _ h => h5 ▸ h, fun _ h => h6 ▸ h⟩

theorem Rel.Grows.trans {x y z : Rel} (h : x.Grows y) (g : y.Grows z) : x.Grows z :=
  ⟨List.Subset.trans h.fTiles g.fTiles, List.Subset.trans h.fClus g.fClus, List.Subset.trans h.fRtr g.fRtr,
    List.Subset.trans h.fLink g.fLink, List.Subset.trans h.failed g.failed, List.Subset.trans h.retired g.retired⟩

/-- What no operation of the model breaks. -/
structure Kept (a b : State) : Prop where
  pending : b.pending = a.pending
  fuse : a.helm.fuse ≤ b.helm.fuse
  fuseTop : a.helm.fuse ≤ 64 → b.helm.fuse ≤ 64
  revoke : b.helm.revoke = a.helm.revoke
  grows : a.rel.Grows b.rel
  canon : a.Canon → b.Canon
  legal : a.Legal → b.Legal

theorem Kept.refl (a : State) : Kept a a :=
  ⟨rfl, Nat.le_refl _, id, rfl, Rel.Grows.refl _, id, id⟩

theorem Kept.trans {a b c : State} (h : Kept a b) (g : Kept b c) : Kept a c :=
  ⟨g.pending.trans h.pending, Nat.le_trans h.fuse g.fuse, g.fuseTop ∘ h.fuseTop, g.revoke.trans h.revoke, h.grows.trans g.grows, g.canon ∘ h.canon,
    g.legal ∘ h.legal⟩

/-- An outcome that keeps what every operation keeps, if it is a next state. -/
structure KeptOut (a : State) (o : Host.Outcome State Fault Refusal) : Prop where
  of_next : ∀ b, o = .next b → Kept a b

theorem KeptOut.next {a b : State} (h : Kept a b) : KeptOut a (.next b) := ⟨fun _ e => by cases e; exact h⟩
theorem KeptOut.fault (a : State) (f : Fault) : KeptOut a (.fault f) := ⟨fun _ e => by cases e⟩

/-- An optional state that keeps what every operation keeps. -/
structure KeptOpt (a : State) (o : Option State) : Prop where
  of_some : ∀ b, o = some b → Kept a b

theorem KeptOpt.some {a b : State} (h : Kept a b) : KeptOpt a (some b) := ⟨fun _ e => by cases e; exact h⟩
theorem KeptOpt.none (a : State) : KeptOpt a none := ⟨fun _ e => by cases e⟩

theorem findSome_kept {β : Type} {a : State} (l : List β) (f : β → Option State) (hf : ∀ b, KeptOpt a (f b)) :
    KeptOpt a (l.findSome? f) := by
  refine ⟨fun s e => ?_⟩
  obtain ⟨b, -, e⟩ := List.exists_of_findSome?_eq_some e
  exact (hf b).of_some s e

/-- The state of a result that a match has taken apart. -/
theorem Kept.of_pair {α : Type} {a b : State} {v : α} {p : State × α} (e : p = (b, v)) (h : Kept a p.1) : Kept a b := by
  cases e; exact h

theorem Kept.of_next {a b : State} {p : Host.Outcome State Fault Refusal} (e : p = .next b) (h : KeptOut a p) : Kept a b :=
  h.of_next b e

theorem Kept.of_some {a b : State} {p : Option State} (e : p = Option.some b) (h : KeptOpt a p) : Kept a b := h.of_some b e

theorem Kept.ite {a x y : State} {c : Prop} [Decidable c] (hx : Kept a x) (hy : Kept a y) : Kept a (if c then x else y) := by
  split <;> assumption

/-- A fold of an operation that keeps. -/
theorem foldl_kept {β : Type} {a : State} {f : State → β → State} (l : List β) {s : State} (h : Kept a s)
    (hf : ∀ s b, Kept a s → Kept a (f s b)) : Kept a (l.foldl f s) := by
  induction l generalizing s with
  | nil => exact h
  | cons b l ih => exact ih (hf s b h)

/-- A fold that carries more than the state. -/
theorem foldl_pair_kept {α β : Type} {a : State} {f : State × α → β → State × α} (l : List β) {p : State × α}
    (h : Kept a p.1) (hf : ∀ p b, Kept a p.1 → Kept a (f p b).1) : Kept a (l.foldl f p).1 := by
  induction l generalizing p with
  | nil => exact h
  | cons b l ih => exact ih (hf p b h)

/-- A fold that carries two things beside the state. -/
theorem foldl_triple_kept {α γ β : Type} {a : State} {f : (State × α) × γ → β → (State × α) × γ} (l : List β)
    {p : (State × α) × γ} (h : Kept a p.1.1) (hf : ∀ p b, Kept a p.1.1 → Kept a (f p b).1.1) :
    Kept a (l.foldl f p).1.1 := by
  induction l generalizing p with
  | nil => exact h
  | cons b l ih => exact ih (hf p b h)

theorem Tile.Legal.congr {x y : Tile} (h : x.Legal) (e : y.st = x.st) : y.Legal := by
  unfold Tile.Legal; rw [e]; exact h

theorem Tile.Legal.ite {x y : Tile} {c : Prop} [Decidable c] (hx : x.Legal) (hy : y.Legal) : (if c then x else y).Legal := by
  split <;> assumption

/-- A fold over a tile. -/
theorem foldl_legal {β : Type} {f : Tile → β → Tile} (l : List β) {x : Tile} (h : x.Legal)
    (hf : ∀ x b, x.Legal → (f x b).Legal) : (l.foldl f x).Legal := by
  induction l generalizing x with
  | nil => exact h
  | cons b l ih => exact ih (hf x b h)

theorem State.forAll_kept {a s : State} (l : List Nat) (f : State → Nat → State) (h : Kept a s)
    (hf : ∀ s b, Kept a s → Kept a (f s b)) : Kept a (s.forAll l f) := foldl_kept l h hf

variable {a s : State}

theorem State.setTile_kept (t : Nat) (x : Tile) (h : Kept a s) (hx : (s.tile t).Legal → x.Legal) : Kept a (s.setTile t x) :=
  h.trans ⟨rfl, Nat.le_refl _, id, rfl, Rel.Grows.refl _, fun c => ⟨Map.wf_set _ _ _ _ c.tiles, c.clusters, c.regions, c.stks, c.ports⟩,
    fun l => ⟨l.job, l.rl, fun u => by
      simp only [State.setTile, State.tile, Map.get_set]
      split
      · exact hx (l.tiles t)
      · exact l.tiles u, l.ports, l.regions, l.stks⟩⟩

theorem State.modTile_kept (t : Nat) (f : Tile → Tile) (h : Kept a s) (hf : ∀ x, x.Legal → (f x).Legal) :
    Kept a (s.modTile t f) := State.setTile_kept t _ h (hf _)

theorem State.setCluster_kept (c : Nat) (x : Cluster) (h : Kept a s) : Kept a (s.setCluster c x) :=
  h.trans ⟨rfl, Nat.le_refl _, id, rfl, Rel.Grows.refl _, fun c => ⟨c.tiles, Map.wf_set _ _ _ _ c.clusters, c.regions, c.stks, c.ports⟩,
    fun l => ⟨l.job, l.rl, l.tiles, l.ports, l.regions, l.stks⟩⟩

theorem State.modCluster_kept (c : Nat) (f : Cluster → Cluster) (h : Kept a s) : Kept a (s.modCluster c f) :=
  State.setCluster_kept c _ h

theorem State.setRegion_kept (r : Nat) (x : Region) (h : Kept a s) (hx : (s.region r).Legal → x.Legal) :
    Kept a (s.setRegion r x) :=
  h.trans ⟨rfl, Nat.le_refl _, id, rfl, Rel.Grows.refl _, fun c => ⟨c.tiles, c.clusters, Map.wf_set _ _ _ _ c.regions, c.stks, c.ports⟩,
    fun l => ⟨l.job, l.rl, l.tiles, l.ports, fun u => by
      simp only [State.setRegion, State.region, Map.get_set]
      split
      · exact hx (l.regions r)
      · exact l.regions u, l.stks⟩⟩

theorem State.modRegion_kept (r : Nat) (f : Region → Region) (h : Kept a s) (hf : ∀ x, x.Legal → (f x).Legal) :
    Kept a (s.modRegion r f) := State.setRegion_kept r _ h (hf _)

theorem State.setStk_kept (k : Nat) (x : Stack) (h : Kept a s) (hx : (s.stk k).st ≤ 4 → x.st ≤ 4) :
    Kept a (s.setStk k x) :=
  h.trans ⟨rfl, Nat.le_refl _, id, rfl, Rel.Grows.refl _, fun c => ⟨c.tiles, c.clusters, c.regions, Map.wf_set _ _ _ _ c.stks, c.ports⟩,
    fun l => ⟨l.job, l.rl, l.tiles, l.ports, l.regions, fun u => by
      simp only [State.setStk, State.stk, Map.get_set]
      split
      · exact hx (l.stks k)
      · exact l.stks u⟩⟩

theorem State.modStk_kept (k : Nat) (f : Stack → Stack) (h : Kept a s) (hf : ∀ x, x.st ≤ 4 → (f x).st ≤ 4) :
    Kept a (s.modStk k f) := State.setStk_kept k _ h (hf _)

theorem State.setPort_kept (p : Nat) (x : Port) (h : Kept a s) (hx : (s.port p).st ≤ 6 → x.st ≤ 6) :
    Kept a (s.setPort p x) :=
  h.trans ⟨rfl, Nat.le_refl _, id, rfl, Rel.Grows.refl _, fun c => ⟨c.tiles, c.clusters, c.regions, c.stks, Map.wf_set _ _ _ _ c.ports⟩,
    fun l => ⟨l.job, l.rl, l.tiles, fun u => by
      simp only [State.setPort, State.port, Map.get_set]
      split
      · exact hx (l.ports p)
      · exact l.ports u, l.regions, l.stks⟩⟩

theorem State.modPort_kept (p : Nat) (f : Port → Port) (h : Kept a s) (hf : ∀ x, x.st ≤ 6 → (f x).st ≤ 6) :
    Kept a (s.modPort p f) := State.setPort_kept p _ h (hf _)

theorem State.modRl_kept (f : Rl → Rl) (h : Kept a s) (hf : s.rl.st ≤ 6 → (f s.rl).st ≤ 6) : Kept a (s.modRl f) :=
  h.trans ⟨rfl, Nat.le_refl _, id, rfl, Rel.Grows.refl _, fun c => ⟨c.tiles, c.clusters, c.regions, c.stks, c.ports⟩,
    fun l => ⟨l.job, hf l.rl, l.tiles, l.ports, l.regions, l.stks⟩⟩

theorem State.modJob_kept (f : Job → Job) (h : Kept a s) (hf : s.job.js ≤ 7 → (f s.job).js ≤ 7) : Kept a (s.modJob f) :=
  h.trans ⟨rfl, Nat.le_refl _, id, rfl, Rel.Grows.refl _, fun c => ⟨c.tiles, c.clusters, c.regions, c.stks, c.ports⟩,
    fun l => ⟨hf l.job, l.rl, l.tiles, l.ports, l.regions, l.stks⟩⟩

theorem State.modWave_kept (f : Wave → Wave) (h : Kept a s) : Kept a (s.modWave f) := State.modJob_kept _ h id

theorem State.modHelm_kept (f : Helm → Helm) (h : Kept a s) (h1 : s.helm.fuse ≤ (f s.helm).fuse)
    (h2 : s.helm.fuse ≤ 64 → (f s.helm).fuse ≤ 64) (h3 : (f s.helm).revoke = s.helm.revoke) : Kept a (s.modHelm f) :=
  h.trans ⟨rfl, h1, h2, h3, Rel.Grows.refl _, fun c => ⟨c.tiles, c.clusters, c.regions, c.stks, c.ports⟩,
    fun l => ⟨l.job, l.rl, l.tiles, l.ports, l.regions, l.stks⟩⟩

theorem State.modPage_kept (k : Nat) (f : Page → Page) (h : Kept a s) : Kept a (s.modPage k f) :=
  State.modHelm_kept _ h (Nat.le_refl _) id rfl

theorem State.modRel_kept (f : Rel → Rel) (h : Kept a s) (hf : s.rel.Grows (f s.rel)) : Kept a (s.modRel f) :=
  h.trans ⟨rfl, Nat.le_refl _, id, rfl, hf,
    fun c => ⟨c.tiles, c.clusters, c.regions, c.stks, c.ports⟩,
    fun l => ⟨l.job, l.rl, l.tiles, l.ports, l.regions, l.stks⟩⟩

theorem State.modStow_kept (f : Stow → Stow) (h : Kept a s) : Kept a (s.modStow f) :=
  h.trans ⟨rfl, Nat.le_refl _, id, rfl, Rel.Grows.refl _, fun c => ⟨c.tiles, c.clusters, c.regions, c.stks, c.ports⟩,
    fun l => ⟨l.job, l.rl, l.tiles, l.ports, l.regions, l.stks⟩⟩

theorem State.modPower_kept (f : Power → Power) (h : Kept a s) : Kept a (s.modPower f) :=
  h.trans ⟨rfl, Nat.le_refl _, id, rfl, Rel.Grows.refl _, fun c => ⟨c.tiles, c.clusters, c.regions, c.stks, c.ports⟩,
    fun l => ⟨l.job, l.rl, l.tiles, l.ports, l.regions, l.stks⟩⟩

theorem State.modDbg_kept (f : Dbg → Dbg) (h : Kept a s) : Kept a (s.modDbg f) :=
  h.trans ⟨rfl, Nat.le_refl _, id, rfl, Rel.Grows.refl _, fun c => ⟨c.tiles, c.clusters, c.regions, c.stks, c.ports⟩,
    fun l => ⟨l.job, l.rl, l.tiles, l.ports, l.regions, l.stks⟩⟩

theorem State.modPins_kept (f : Pins → Pins) (h : Kept a s) : Kept a (s.modPins f) :=
  h.trans ⟨rfl, Nat.le_refl _, id, rfl, Rel.Grows.refl _, fun c => ⟨c.tiles, c.clusters, c.regions, c.stks, c.ports⟩,
    fun l => ⟨l.job, l.rl, l.tiles, l.ports, l.regions, l.stks⟩⟩

theorem State.modNet_kept (f : Net → Net) (h : Kept a s) : Kept a (s.modNet f) :=
  h.trans ⟨rfl, Nat.le_refl _, id, rfl, Rel.Grows.refl _, fun c => ⟨c.tiles, c.clusters, c.regions, c.stks, c.ports⟩,
    fun l => ⟨l.job, l.rl, l.tiles, l.ports, l.regions, l.stks⟩⟩

theorem State.nextCycle_kept (h : Kept a s) : Kept a s.nextCycle :=
  h.trans ⟨rfl, Nat.le_refl _, id, rfl, Rel.Grows.refl _, fun c => ⟨c.tiles, c.clusters, c.regions, c.stks, c.ports⟩,
    fun l => ⟨l.job, l.rl, l.tiles, l.ports, l.regions, l.stks⟩⟩

theorem State.took_kept (h : Kept a s) : Kept a s.took :=
  h.trans ⟨rfl, Nat.le_refl _, id, rfl, Rel.Grows.refl _, fun c => ⟨c.tiles, c.clusters, c.regions, c.stks, c.ports⟩,
    fun l => ⟨l.job, l.rl, l.tiles, l.ports, l.regions, l.stks⟩⟩

end Sys2Proof.Machine
end

