-- ==== Sys2Proof/Laws/KeptOps.lean ====
section
/-! SUPPORT. One lemma for each operation: what the module-wide operations, those of a tile and those of a superstep keep (Laws/Kept.lean). -/

namespace Sys2Proof.Machine

theorem Stack.put_st (x : Stack) (g : Nat) (parts : List (Nat × List Byte)) (crc : Bool) (hx : x.st ≤ 4) :
    (Stack.put x g parts crc).st ≤ 4 := by
  unfold Stack.put
  repeat' first
    | with_reducible first
        | assumption

theorem Stack.stopped_st (m : Stack) (free : Nat) (i : Nat) (g : Nat) (parts : List (Nat × Nat)) (hm : m.st ≤ 4) :
    (Stack.stopped m free i g parts).st ≤ 4 := by
  unfold Stack.stopped
  repeat' first
    | with_reducible first
        | assumption | apply Stack.put_st
    | extract_lets | split

theorem State.stopStore_kept {a₀ s : State} (x : Xfer) (i : Nat) (keep : (Option Nat)) (h : Kept a₀ s) :
    Kept a₀ (State.stopStore s x i keep) := by
  unfold State.stopStore
  repeat' first
    | with_reducible first
        | assumption | apply Stack.stopped_st | apply State.modStk_kept | apply foldl_kept | apply Kept.ite
    | extract_lets | (intro; intros)

theorem State.rlPost_kept {a₀ s : State} (data : Bool) (h : Kept a₀ s) : Kept a₀ (State.rlPost s data) := by
  unfold State.rlPost
  repeat' first
    | with_reducible first
        | assumption | apply State.modRl_kept
    | extract_lets | exact id

theorem State.sendMsi_kept {a₀ s : State} (v : Nat) (h : Kept a₀ s) : Kept a₀ (State.sendMsi s v) := by
  unfold State.sendMsi
  repeat' first
    | with_reducible first
        | assumption | apply State.rlPost_kept | apply State.modRl_kept | apply Kept.ite
    | extract_lets | exact id

theorem State.raiseMsi_kept {a₀ s : State} (v : Nat) (h : Kept a₀ s) : Kept a₀ (State.raiseMsi s v) := by
  unfold State.raiseMsi
  repeat' first
    | with_reducible first
        | assumption | apply State.sendMsi_kept | apply State.modRl_kept
    | extract_lets | exact id

theorem State.alert_kept {a₀ s : State} (b : Nat) (h : Kept a₀ s) : Kept a₀ (State.alert s b) := by
  unfold State.alert
  repeat' first
    | with_reducible first
        | assumption | apply State.raiseMsi_kept | apply State.modPower_kept | apply Kept.ite

theorem State.drainPage_kept {a₀ s : State} (k : Nat) (x2 : Nat) (h : Kept a₀ s) : Kept a₀ (State.drainPage s k x2) := by
  induction x2 generalizing s with
  | zero => exact h
  | succ n ih =>
    unfold State.drainPage
    repeat' first
      | with_reducible first
          | assumption | apply ih | apply State.raiseMsi_kept | apply State.modPage_kept | apply Kept.ite
      | extract_lets | split

theorem State.countCluster_kept {a₀ s : State} (c : Nat) (off : Nat) (n : Nat) (h : Kept a₀ s) :
    Kept a₀ (State.countCluster s c off n) := by
  unfold State.countCluster
  repeat' first
    | with_reducible first
        | assumption | apply State.modCluster_kept

theorem State.fence_kept {a₀ s : State} (d : Nat × Nat) (h : Kept a₀ s) : Kept a₀ (State.fence s d) := by
  unfold State.fence
  repeat' first
    | with_reducible first
        | assumption | apply State.modRel_kept | apply State.modTile_kept | apply State.forAll_kept
    | extract_lets
    | exact (Rel.Grows.of_eq rfl rfl rfl rfl rfl rfl)
    | exact ⟨Nat.le_of_ble_eq_true rfl, Nat.le_of_ble_eq_true rfl⟩
    | (refine Rel.Grows.mk ?_ ?_ ?_ ?_ ?_ ?_ <;> first | exact List.Subset.refl _ | apply List.subset_append_left | apply subset_cons_dups | apply subset_append_dups)
    | split | (intro; intros)

theorem State.queueSym_kept {a₀ s : State} (p : Nat) (y : Sym) (h : Kept a₀ s) : Kept a₀ (State.queueSym s p y) := by
  unfold State.queueSym
  repeat' first
    | with_reducible first
        | assumption | apply State.modPort_kept
    | extract_lets | split | (intro; intros)

theorem State.sendAlong_kept {a₀ s : State} (es : List (Nat × Nat × Nat)) (mk : Nat → Sym) (h : Kept a₀ s) :
    Kept a₀ (State.sendAlong s es mk) := by
  unfold State.sendAlong
  repeat' first
    | with_reducible first
        | assumption | apply State.queueSym_kept | apply foldl_kept
    | extract_lets | (intro; intros)

theorem State.eventTo_kept {a₀ s : State} (k : Nat) (opc : Nat) (ws : List Word) (h : Kept a₀ s) :
    Kept a₀ (State.eventTo s k opc ws) := by
  unfold State.eventTo
  repeat' first
    | with_reducible first
        | assumption | apply State.drainPage_kept | apply State.modPage_kept | apply Kept.ite

theorem State.event_kept {a₀ s : State} (opc : Nat) (ws : List Word) (h : Kept a₀ s) : Kept a₀ (State.event s opc ws) := by
  unfold State.event
  repeat' first
    | with_reducible first
        | assumption | apply State.eventTo_kept

theorem State.fixTrigger_kept {a₀ s : State} (src : Nat) (jobFault : Bool) (h : Kept a₀ s) :
    Kept a₀ (State.fixTrigger s src jobFault) := by
  unfold State.fixTrigger
  repeat' first
    | with_reducible first
        | assumption | apply State.sendAlong_kept | apply State.modDbg_kept | apply Kept.ite

theorem Tile.count_legal (x : Tile) (off : Nat) (n : Nat) (hx : x.Legal) : (Tile.count x off n).Legal := by
  unfold Tile.count
  repeat' first
    | assumption

theorem Tile.partDone_legal (x : Tile) (free : Nat) (o : Op) (i : Nat) (hx : x.Legal) : (Tile.partDone x free o i).Legal := by
  unfold Tile.partDone
  repeat' first
    | with_reducible first
        | assumption | apply Tile.count_legal | apply Tile.Legal.ite
    | extract_lets | assumption

theorem Tile.scramble_legal (x : Tile) (free : Nat) (a : Acc) (i : Nat) (hx : x.Legal) :
    (Tile.scramble x free a i).Legal := by
  unfold Tile.scramble
  repeat' first
    | with_reducible first
        | apply Tile.Legal.ite
    | extract_lets | assumption

theorem Tile.scrambleOp_legal (x : Tile) (free : Nat) (o : Op) (i : Nat) (hx : x.Legal) :
    (Tile.scrambleOp x free o i).Legal := by
  unfold Tile.scrambleOp
  repeat' first
    | with_reducible first
        | assumption | apply Tile.Legal.ite
    | extract_lets | assumption | split

theorem Tile.stop_legal (x : Tile) (free : Nat) (hx : x.Legal) : (Tile.stop x free).Legal := by
  unfold Tile.stop
  repeat' first
    | extract_lets | exact ⟨Nat.le_of_ble_eq_true rfl, Nat.le_of_ble_eq_true rfl⟩

theorem State.postDone_kept {a₀ s : State} (k : Nat) (status : Nat) (ws : List Word) (h : Kept a₀ s) :
    Kept a₀ (State.postDone s k status ws) := by
  unfold State.postDone
  repeat' first
    | with_reducible first
        | assumption | apply State.drainPage_kept | apply State.modPage_kept | apply State.modHelm_kept | rfl
    | extract_lets | exact id

theorem State.take_kept {a₀ s : State} (k : Nat) (h : Kept a₀ s) : Kept a₀ (State.take s k) := by
  unfold State.take
  repeat' first
    | with_reducible first
        | assumption | apply State.modPage_kept | apply State.modHelm_kept | rfl
    | extract_lets | exact id

theorem State.serveBad_kept {a₀ s : State} (k : Nat) (x2 : Nat) (h : Kept a₀ s) : Kept a₀ (State.serveBad s k x2) := by
  induction x2 generalizing s with
  | zero => exact h
  | succ n ih =>
    unfold State.serveBad
    repeat' first
      | with_reducible first
          | assumption | apply ih | apply State.postDone_kept | apply State.take_kept | apply Kept.ite

theorem State.complete_kept {a₀ s : State} (k : Nat) (status : Nat) (ws : List Word) (h : Kept a₀ s) :
    Kept a₀ (State.complete s k status ws) := by
  unfold State.complete
  repeat' first
    | with_reducible first
        | assumption | apply State.serveBad_kept | apply State.postDone_kept | apply Kept.ite

theorem State.stepLost_kept {a₀ s : State} (h : Kept a₀ s) : Kept a₀ (State.stepLost s) := by
  unfold State.stepLost
  repeat' first
    | with_reducible first
        | assumption | apply State.complete_kept | apply State.modDbg_kept | apply Kept.ite
    | extract_lets | split

theorem Tile.wild_legal (x : Tile) (free : Nat) (t : Nat) (hx : x.Legal) : (x.wild free t).Legal := by
  simp only [Tile.wild, Tile.Legal] at hx ⊢
  exact hx

theorem State.wildUnits_kept {a₀ s : State} (tiles clusters_ : List Nat) (h : Kept a₀ s) :
    Kept a₀ (State.wildUnits s tiles clusters_) := by
  unfold State.wildUnits
  repeat' first
    | with_reducible first
        | assumption | apply Tile.wild_legal | apply State.forAll_kept | apply State.modTile_kept | apply State.modCluster_kept
        | apply Kept.ite
    | extract_lets | (intro; intros)

theorem State.sightCut_kept {a₀ s : State} (h : Kept a₀ s) : Kept a₀ (State.sightCut s) := by
  unfold State.sightCut
  repeat' first
    | with_reducible first
        | assumption | apply State.wildUnits_kept | apply State.took_kept | apply State.modRel_kept | apply Kept.ite
    | exact (Rel.Grows.of_eq rfl rfl rfl rfl rfl rfl)

theorem State.stopJob_kept {a₀ s : State} (h : Kept a₀ s) : Kept a₀ (State.stopJob s) := by
  unfold State.stopJob
  repeat' first
    | with_reducible first
        | assumption | apply State.stopStore_kept | apply Tile.stop_legal | apply State.stepLost_kept
        | apply State.complete_kept | apply State.forAll_kept | apply State.took_kept | apply State.modTile_kept
        | apply State.modCluster_kept | apply State.modJob_kept | apply State.modStow_kept | apply State.sightCut_kept
        | apply State.modDbg_kept | apply foldl_kept
    | extract_lets
    | exact (Rel.Grows.of_eq rfl rfl rfl rfl rfl rfl)
    | exact fun _ => Nat.le_of_ble_eq_true rfl | (intro; intros)

theorem State.jobFault_kept {a₀ s : State} (level : Nat) (unit : Nat) (cause : Nat) (detail : Nat) (origin : Nat)
    (skip : Option Nat) (h : Kept a₀ s) :
    Kept a₀ (State.jobFault s level unit cause detail origin skip) := by
  unfold State.jobFault
  repeat' first
    | with_reducible first
        | assumption | apply State.fixTrigger_kept | apply State.sendAlong_kept | apply State.stopJob_kept
        | apply State.event_kept | apply State.alert_kept | apply State.raiseMsi_kept | apply State.modJob_kept
        | apply Kept.ite
    | extract_lets | exact id

theorem State.countStk_kept {a₀ s : State} (k : Nat) (off : Nat) (n : Nat) (h : Kept a₀ s) :
    Kept a₀ (State.countStk s k off n) := by
  unfold State.countStk
  repeat' first
    | with_reducible first
        | assumption | apply State.modStk_kept
    | extract_lets | (intro; intros)

theorem State.devFault_kept {a₀ s : State} (cause : Nat) (detail : Nat) (skip : (Option Nat)) (origin : (Option Nat))
    (h : Kept a₀ s) :
    Kept a₀ (State.devFault s cause detail skip origin) := by
  unfold State.devFault
  repeat' first
    | with_reducible first
        | assumption | apply State.jobFault_kept | apply State.modRel_kept
    | extract_lets
    | exact (Rel.Grows.of_eq rfl rfl rfl rfl rfl rfl)

theorem State.countRl_kept {a₀ s : State} (off : Nat) (n : Nat) (h : Kept a₀ s) : Kept a₀ (State.countRl s off n) := by
  unfold State.countRl
  repeat' first
    | with_reducible first
        | assumption | apply State.modRl_kept
    | extract_lets | exact id

theorem State.commitFences_kept {a₀ s : State} (h : Kept a₀ s) : Kept a₀ (State.commitFences s) := by
  unfold State.commitFences
  repeat' first
    | with_reducible first
        | assumption | apply State.fence_kept | apply foldl_kept | apply Kept.ite
    | extract_lets | (intro; intros)

theorem State.fenceDecide_kept {a₀ s : State} (d : Nat × Nat) (h : Kept a₀ s) : Kept a₀ (State.fenceDecide s d) := by
  unfold State.fenceDecide
  repeat' first
    | with_reducible first
        | assumption | apply State.commitFences_kept | apply State.modRel_kept | apply Kept.ite
    | extract_lets
    | exact (Rel.Grows.of_eq rfl rfl rfl rfl rfl rfl)

theorem State.noteRegion_kept {a₀ s : State} (r : Nat) (h : Kept a₀ s) : Kept a₀ (State.noteRegion s r) := by
  unfold State.noteRegion
  repeat' first
    | with_reducible first
        | assumption | apply State.modRel_kept | apply State.modRegion_kept
    | extract_lets | assumption
    | exact (Rel.Grows.of_eq rfl rfl rfl rfl rfl rfl)
    | (intro; intros)

theorem State.evidence_kept {a₀ s : State} (kind : Nat) (unit : Nat) (h : Kept a₀ s) :
    Kept a₀ (State.evidence s kind unit).1 := by
  unfold State.evidence
  repeat' first
    | with_reducible first
        | assumption | apply State.modRel_kept
    | extract_lets
    | exact (Rel.Grows.of_eq rfl rfl rfl rfl rfl rfl)

theorem State.tileFault_kept {a₀ s : State} (t : Nat) (stream : Nat) (cause : Nat) (detail : Nat) (pc : Nat) (h : Kept a₀ s) :
    Kept a₀ (State.tileFault s t stream cause detail pc) := by
  unfold State.tileFault
  repeat' first
    | with_reducible first
        | assumption | apply State.noteRegion_kept | apply State.fenceDecide_kept | apply State.evidence_kept
        | apply State.jobFault_kept | apply State.fixTrigger_kept | apply State.modTile_kept | apply State.modCluster_kept
        | apply Kept.ite
    | extract_lets | assumption | (intro; intros)

theorem State.laterFault_kept {a₀ s : State} (t : Nat) (f : Word) (h : Kept a₀ s) : Kept a₀ (State.laterFault s t f) := by
  unfold State.laterFault
  repeat' first
    | with_reducible first
        | assumption | apply State.tileFault_kept | apply State.modTile_kept | apply State.modJob_kept | apply Kept.ite
    | extract_lets | assumption | exact id | (intro; intros)

theorem Tile.dbgRecord_legal (x : Tile) (cyc kind : Nat) (w : Word) (hx : x.Legal) : (Tile.dbgRecord x cyc kind w).Legal := by
  unfold Tile.dbgRecord
  split <;> exact hx

theorem State.debugEvent_kept {a₀ s : State} (t : Nat) (kind : Nat) (stream : Nat) (engine : Nat) (code : Nat) (pc : Nat)
    (h : Kept a₀ s) :
    Kept a₀ (State.debugEvent s t kind stream engine code pc) := by
  unfold State.debugEvent
  repeat' first
    | with_reducible first
        | assumption | apply State.fixTrigger_kept | apply State.modTile_kept | apply Tile.dbgRecord_legal
    | extract_lets | assumption | split | (intro; intros)

theorem State.clusterFault_kept {a₀ s : State} (c : Nat) (cause : Nat) (detail : Nat) (h : Kept a₀ s) :
    Kept a₀ (State.clusterFault s c cause detail) := by
  unfold State.clusterFault
  repeat' first
    | with_reducible first
        | assumption | apply State.noteRegion_kept | apply State.evidence_kept | apply State.fenceDecide_kept
        | apply State.jobFault_kept | apply State.fixTrigger_kept | apply State.modCluster_kept | apply Kept.ite

theorem Kept.network {a s : State} (h : Kept a s) (free sub : Nat) (net : Net) :
    Kept a { s with free := free, sub := sub, net := net } :=
  h.trans ⟨rfl, Nat.le_refl _, id, rfl, Rel.Grows.refl _, fun c => ⟨c.tiles, c.clusters, c.regions, c.stks, c.ports⟩,
    fun l => ⟨l.job, l.rl, l.tiles, l.ports, l.regions, l.stks⟩⟩

theorem State.alsoFaults_kept {a₀ s : State} (t : Nat) (v : State) (h : Kept a₀ s) : Kept a₀ (s.alsoFaults t v) := by
  unfold State.alsoFaults
  extract_lets y c s0
  have h0 : Kept a₀ s0 := h.network _ _ _
  exact Kept.ite (Kept.ite h (State.laterFault_kept _ _ h0))
    (Kept.ite (State.clusterFault_kept _ _ _ h0) (State.modJob_kept _ h0 id))

theorem alongside_kept {a₀ : State} (t : Nat) {s : State} (f : State → Out) (h : Kept a₀ s)
    (hf : ∀ s, Kept a₀ s → KeptOut a₀ (f s)) : KeptOut a₀ (alongside t s f) := by
  unfold alongside
  split
  · split
    · exact KeptOut.next (State.alsoFaults_kept t _ h)
    · rename_i o ho
      refine ⟨fun b e => ?_⟩
      exact absurd e (ho b)
  · exact hf s h

theorem State.countTile_kept {a₀ s : State} (t : Nat) (off : Nat) (n : Nat) (h : Kept a₀ s) :
    Kept a₀ (State.countTile s t off n) := by
  unfold State.countTile
  repeat' first
    | with_reducible first
        | assumption | apply Tile.count_legal | apply State.modTile_kept
    | extract_lets | (intro; intros)

theorem State.regionFault_kept {a₀ s : State} (r : Nat) (cause : Nat) (detail : Nat) (job : Bool) (h : Kept a₀ s) :
    Kept a₀ (State.regionFault s r cause detail job) := by
  unfold State.regionFault
  repeat' first
    | with_reducible first
        | assumption | apply State.jobFault_kept | apply State.fixTrigger_kept | apply State.modRegion_kept
        | apply State.modRel_kept | apply Kept.ite
    | extract_lets | assumption
    | exact (Rel.Grows.of_eq rfl rfl rfl rfl rfl rfl)
    | (intro; intros)

theorem State.countJob_kept {a₀ s : State} (off : Nat) (n : Nat) (h : Kept a₀ s) : Kept a₀ (State.countJob s off n) := by
  unfold State.countJob
  repeat' first
    | with_reducible first
        | assumption | apply State.modJob_kept
    | extract_lets | exact id

theorem State.countPort_kept {a₀ s : State} (p : Nat) (off : Nat) (n : Nat) (h : Kept a₀ s) :
    Kept a₀ (State.countPort s p off n) := by
  unfold State.countPort
  repeat' first
    | with_reducible first
        | assumption | apply State.modPort_kept
    | extract_lets | (intro; intros)

theorem Tile.modMisc_legal (x : Tile) (f : TileMisc → TileMisc) (hx : x.Legal) : (Tile.modMisc x f).Legal := by
  unfold Tile.modMisc
  repeat' first
    | assumption

theorem Tile.modSeq_legal (x : Tile) (q : Strm) (f : Seq → Seq) (hx : x.Legal) : (Tile.modSeq x q f).Legal := by
  unfold Tile.modSeq
  repeat' first
    | assumption

theorem Tile.modQu_legal (x : Tile) (f : TileQ → TileQ) (hx : x.Legal) : (Tile.modQu x f).Legal := by
  unfold Tile.modQu
  repeat' first
    | assumption

theorem Tile.modX_legal (x : Tile) (f : XSeq → XSeq) (hx : x.Legal) : (Tile.modX x f).Legal := by
  unfold Tile.modX
  repeat' first
    | extract_lets | assumption

theorem Tile.setHalt_legal (x : Tile) (q : Strm) (h : Bool) (hx : x.Legal) : (Tile.setHalt x q h).Legal := by
  unfold Tile.setHalt
  repeat' first
    | with_reducible first
        | assumption | apply Tile.modX_legal | apply Tile.modSeq_legal
    | split

theorem Tile.countEvs_legal (x : Tile) (l : List NumEv) (hx : x.Legal) : (Tile.countEvs x l).Legal := by
  unfold Tile.countEvs
  repeat' first
    | with_reducible first
        | assumption | apply Tile.count_legal | apply foldl_legal
    | extract_lets | (intro; intros)

theorem Tile.haltBy_legal (x : Tile) (q : Strm) (scope : Nat) (hx : x.Legal) : (Tile.haltBy x q scope).Legal := by
  unfold Tile.haltBy
  repeat' first
    | with_reducible first
        | assumption | apply Tile.modMisc_legal | apply Tile.setHalt_legal

theorem Tile.modIo_legal (x : Tile) (f : TileIo → TileIo) (hx : x.Legal) : (Tile.modIo x f).Legal := by
  unfold Tile.modIo
  repeat' first
    | assumption

theorem Tile.releaseAt_legal (x : Tile) (q : Strm) (scope : Nat) (hx : x.Legal) : (Tile.releaseAt x q scope).Legal := by
  unfold Tile.releaseAt
  repeat' first
    | with_reducible first
        | assumption | apply Tile.modMisc_legal | apply Tile.setHalt_legal | apply Tile.Legal.ite

theorem Tile.modXs_legal (x : Tile) (f : TileX → TileX) (hx : x.Legal) : (Tile.modXs x f).Legal := by
  unfold Tile.modXs
  repeat' first
    | assumption

theorem State.stall_kept {a₀ s : State} (i : Site) (cause : Nat) (h : Kept a₀ s) : Kept a₀ (State.stall s i cause) := by
  unfold State.stall
  repeat' first
    | with_reducible first
        | assumption | apply State.countTile_kept | apply Kept.ite

theorem Tile.addAcc_legal (x : Tile) (a : Acc) (hx : x.Legal) : (Tile.addAcc x a).Legal := by
  unfold Tile.addAcc
  repeat' first
    | with_reducible first
        | assumption | apply Tile.modIo_legal

theorem State.addAccs_kept {a₀ s : State} (t : Nat) (pc : Nat) (l : List Acc) (h : Kept a₀ s) :
    Kept a₀ (State.addAccs s t pc l) := by
  unfold State.addAccs
  repeat' first
    | with_reducible first
        | assumption | apply Tile.addAcc_legal | apply State.tileFault_kept | apply State.setTile_kept | apply Kept.ite
        | apply foldl_legal
    | extract_lets | split | (intro; intros) | dsimp +zetaDelta only []

theorem Tile.dropAcc_legal (x : Tile) (id : Nat) (hx : x.Legal) : (Tile.dropAcc x id).Legal := by
  unfold Tile.dropAcc
  repeat' first
    | with_reducible first
        | assumption | apply Tile.modIo_legal

theorem State.touch_kept {a₀ s : State} (c : Acct) (lo : Nat) (n : Nat) (wr : Bool) (h : Kept a₀ s) :
    Kept a₀ (State.touch s c lo n wr).1 := by
  unfold State.touch
  repeat' first
    | with_reducible first
        | assumption | apply State.addAccs_kept | apply Tile.modIo_legal | apply Tile.dropAcc_legal | apply State.modTile_kept
    | extract_lets | (intro; intros)

theorem State.watch_kept {a₀ s : State} (c : Acct) (lo : Nat) (n : Nat) (wr : Bool) (h : Kept a₀ s) :
    Kept a₀ (State.watch s c lo n wr) := by
  unfold State.watch
  repeat' first
    | with_reducible first
        | assumption | apply Tile.haltBy_legal | apply State.debugEvent_kept | apply State.modTile_kept | apply Kept.ite
        | apply foldl_legal
    | extract_lets | split | (intro; intros)

theorem Tile.noteRead_legal (x : Tile) (c : Acct) (lo : Nat) (n : Nat) (hx : x.Legal) : (Tile.noteRead x c lo n).Legal := by
  unfold Tile.noteRead
  repeat' first
    | with_reducible first
        | assumption | apply Tile.modMisc_legal | apply Tile.count_legal | apply foldl_legal | apply Tile.Legal.ite
    | extract_lets | (intro; intros)

theorem State.readRows_kept {a₀ s : State} (c : Acct) (lo : Nat) (n : Nat) (racy : List Nat) (h : Kept a₀ s) :
    Kept a₀ (State.readRows s c lo n racy).1 := by
  unfold State.readRows
  repeat' first
    | with_reducible first
        | assumption | apply State.tileFault_kept | apply State.watch_kept | apply Tile.noteRead_legal | apply State.took_kept
        | apply State.setTile_kept
    | extract_lets | split

theorem State.readNow_kept {a₀ s : State} (c : Acct) (lo : Nat) (n : Nat) (h : Kept a₀ s) :
    Kept a₀ (State.readNow s c lo n).1 := by
  unfold State.readNow
  repeat' first
    | with_reducible first
        | assumption | apply State.touch_kept | apply State.readRows_kept

theorem Tile.result_legal (x : Tile) (q : Strm) (d : Nat) (w : Word) (hx : x.Legal) : (Tile.result x q d w).Legal := by
  unfold Tile.result
  repeat' first
    | with_reducible first
        | assumption | apply Tile.modSeq_legal

theorem Tile.unmark_legal (x : Tile) (o : Op) (hx : x.Legal) : (Tile.unmark x o).Legal := by
  unfold Tile.unmark
  repeat' first
    | with_reducible first
        | assumption | apply Tile.modSeq_legal | apply Tile.Legal.ite

theorem Tile.modQueue_legal (x : Tile) (q : Nat) (f : Queue → Queue) (hx : x.Legal) : (Tile.modQueue x q f).Legal := by
  unfold Tile.modQueue
  repeat' first
    | with_reducible first
        | assumption | apply Tile.modQu_legal

theorem Tile.takeEffect_legal (x : Tile) (count : Nat → Word) (o : Op) (hx : x.Legal) :
    (Tile.takeEffect x count o).Legal := by
  unfold Tile.takeEffect
  repeat' first
    | with_reducible first
        | assumption | apply Tile.result_legal | apply Tile.unmark_legal | apply Tile.modQueue_legal | apply Tile.Legal.ite

theorem foldl_pair_legal {α β : Type} {f : Tile × α → β → Tile × α} (l : List β) {p : Tile × α} (h : p.1.Legal)
    (hf : ∀ p b, p.1.Legal → (f p b).1.Legal) : (l.foldl f p).1.Legal := by
  induction l generalizing p with
  | nil => exact h
  | cons b l ih => exact ih (hf p b h)

theorem Tile.settle_legal (x : Tile) (cycle : Nat) (count : Nat → Word) (hx : x.Legal) : (x.settle cycle count).Legal := by
  unfold Tile.settle
  refine Tile.modIo_legal _ _ (foldl_pair_legal _ hx fun p b hp => ?_)
  split
  · exact Tile.takeEffect_legal _ _ _ hp
  · exact hp

theorem State.settle_kept {a₀ s : State} (t : Nat) (h : Kept a₀ s) : Kept a₀ (State.settle s t) := by
  unfold State.settle
  repeat' first
    | with_reducible first
        | assumption | apply Tile.settle_legal | apply State.modTile_kept
    | extract_lets | (intro; intros)

theorem State.enter_kept {a₀ s : State} (t : Nat) (q : Strm) (h : Kept a₀ s) : Kept a₀ (State.enter s t q) := by
  unfold State.enter
  repeat' first
    | with_reducible first
        | assumption | apply State.settle_kept | apply State.modTile_kept | apply State.nextCycle_kept | apply Kept.ite
    | extract_lets | assumption | split | (intro; intros)

theorem Tile.noteWrite_legal (x : Tile) (lo : Nat) (n : Nat) (hx : x.Legal) : (Tile.noteWrite x lo n).Legal := by
  refine foldl_legal (f := _) (List.range n) hx fun y i hy => Tile.modMisc_legal _ _ (Tile.Legal.ite hy ?_)
  exact Tile.modMisc_legal _ _ (Tile.count_legal _ _ _ hy)

theorem State.stepEnds_kept {a₀ s : State} (t : Nat) (before : Nat) (h : Kept a₀ s) :
    Kept a₀ (State.stepEnds s t before) := by
  unfold State.stepEnds
  repeat' first
    | with_reducible first
        | assumption | apply State.complete_kept | apply State.modDbg_kept | apply Kept.ite
    | extract_lets | split

theorem Tile.issue_legal (x : Tile) (i : Site) (next : BitVec 13) (hx : x.Legal) : (Tile.issue x i next).Legal := by
  unfold Tile.issue
  repeat' first
    | with_reducible first
        | apply Tile.modX_legal | apply Tile.modSeq_legal | apply Tile.modMisc_legal | apply Tile.Legal.ite
    | extract_lets | assumption | split

theorem State.issueWith_kept {a₀ s : State} (i : Site) (next : BitVec 13) (f : Tile → Tile)
    (h : Kept a₀ s) (hf : ∀ x, x.Legal → (f x).Legal) :
    Kept a₀ (State.issueWith s i next f) := by
  unfold State.issueWith
  repeat' first
    | with_reducible first
        | assumption | apply hf | apply State.stepEnds_kept | apply Tile.issue_legal | apply State.modTile_kept
    | extract_lets | (intro; intros)

theorem State.issueSeq_kept {a₀ s : State} (i : Site) (f : Tile → Tile) (h : Kept a₀ s) (hf : ∀ x, x.Legal → (f x).Legal) :
    Kept a₀ (State.issueSeq s i f) := by
  unfold State.issueSeq
  repeat' first
    | with_reducible first
        | assumption | apply State.issueWith_kept

theorem State.fetchAt_kept {a s s' : State} (t : Nat) (q : Strm) (h : Kept a s) (e : s.fetchAt t q = .stop s') :
    Kept a s' := by
  unfold State.fetchAt at e
  extract_lets x pc slot w at e
  repeat' split at e
  all_goals first
    | cases e
  all_goals repeat' first
    | with_reducible assumption
    | with_reducible apply State.tileFault_kept
    | with_reducible apply State.debugEvent_kept
    | with_reducible apply State.modTile_kept
    | with_reducible apply Tile.haltBy_legal
    | (intro; intros)

theorem tileInsn_kept {a : State} (key : Nat) (t : Nat) (q : Strm) {s : State} (regs : Word → List Nat)
    (body : Site → Tile → State → State) (h : Kept a s) (hbody : ∀ i x s, Kept a s → Kept a (body i x s)) :
    KeptOut a (tileInsn key t q s regs body) := by
  unfold tileInsn
  repeat' first
    | with_reducible first
        | assumption | apply KeptOut.next | apply KeptOut.fault | apply hbody | apply alongside_kept | apply State.enter_kept
        | apply State.issueSeq_kept | apply State.stall_kept
    | (refine State.fetchAt_kept _ _ ?_ (by assumption)) | extract_lets | assumption | split | (intro; intros)

theorem State.writeRows_kept {a₀ s : State} (c : Acct) (lo : Nat) (b : List Byte) (racy : List Nat) (h : Kept a₀ s) :
    Kept a₀ (State.writeRows s c lo b racy) := by
  unfold State.writeRows
  repeat' first
    | with_reducible first
        | assumption | apply State.watch_kept | apply State.took_kept | apply State.setTile_kept
    | extract_lets | (intro; intros) | apply Tile.noteWrite_legal

theorem State.readAm_kept {a₀ s : State} (c : Acct) (lo : Nat) (n : Nat) (racy : List Nat) (h : Kept a₀ s) :
    Kept a₀ (State.readAm s c lo n racy).1 := by
  unfold State.readAm
  repeat' first
    | with_reducible first
        | assumption | apply State.tileFault_kept | apply State.took_kept
    | extract_lets | split

theorem State.rowCheck_kept {a₀ s : State} (i : Site) (l : List (Option Nat)) {k : State} (h : Kept a₀ s) (hk : Kept a₀ k) :
    Kept a₀ (State.rowCheck s i l k) := by
  unfold State.rowCheck
  repeat' first
    | with_reducible first
        | assumption | apply State.tileFault_kept
    | split

theorem State.writeNow_kept {a₀ s : State} (c : Acct) (lo : Nat) (b : List Byte) (h : Kept a₀ s) :
    Kept a₀ (State.writeNow s c lo b) := by
  unfold State.writeNow
  repeat' first
    | with_reducible first
        | assumption | apply State.touch_kept | apply State.writeRows_kept

theorem Tile.writeAm_legal (x : Tile) (lo : Nat) (v : List W32) (hx : x.Legal) : (Tile.writeAm x lo v).Legal := by
  unfold Tile.writeAm
  repeat' first
    | assumption

theorem Tile.startOp_legal (x : Tile) (i : Site) (hx : x.Legal) : (Tile.startOp x i).Legal := by
  unfold Tile.startOp
  repeat' first
    | with_reducible first
        | assumption | apply Tile.modIo_legal | apply Tile.modSeq_legal | apply Tile.Legal.ite

theorem State.addRecv_kept {a₀ s : State} (t : Nat) (n : Nat) (h : Kept a₀ s) : Kept a₀ (State.addRecv s t n).1 := by
  unfold State.addRecv
  repeat' first
    | with_reducible first
        | assumption | apply State.tileFault_kept | apply Tile.modXs_legal | apply State.modTile_kept
    | extract_lets | split | (intro; intros)

theorem State.ownReport_kept {a₀ s : State} (h : Kept a₀ s) : Kept a₀ (State.ownReport s) := by
  unfold State.ownReport
  repeat' first
    | with_reducible first
        | assumption | apply State.queueSym_kept | apply State.modStow_kept | apply State.modWave_kept | apply Kept.ite
    | extract_lets | split

theorem State.arrive_kept {a₀ s : State} (t : Nat) (h : Kept a₀ s) : Kept a₀ (State.arrive s t) := by
  unfold State.arrive
  repeat' first
    | with_reducible first
        | assumption | apply State.ownReport_kept | apply State.took_kept | apply State.modTile_kept | apply Kept.ite
    | extract_lets | exact ⟨Nat.le_of_ble_eq_true rfl, Nat.le_of_ble_eq_true rfl⟩ | (intro; intros)

theorem Tile.toCompute_legal (x : Tile) (halt : Bool) (hx : x.Legal) : (Tile.toCompute x halt).Legal := by
  unfold Tile.toCompute
  repeat' first
    | with_reducible first
        | assumption | apply Tile.haltBy_legal | apply foldl_legal | apply Tile.Legal.ite
    | extract_lets | exact ⟨Nat.le_of_ble_eq_true rfl, Nat.le_of_ble_eq_true rfl⟩ | (intro; intros)

theorem State.backToCompute_kept {a₀ s : State} (h : Kept a₀ s) : Kept a₀ (State.backToCompute s) := by
  unfold State.backToCompute
  repeat' first
    | with_reducible first
        | assumption | apply Tile.toCompute_legal | apply State.ownReport_kept | apply State.arrive_kept
        | apply State.forAll_kept | apply State.modTile_kept | apply State.modWave_kept | apply Kept.ite
    | extract_lets | (intro; intros)

theorem State.writeBacking_kept {a₀ s : State} (h : Kept a₀ s) : Kept a₀ (State.writeBacking s) := by
  unfold State.writeBacking
  repeat' first
    | with_reducible first
        | assumption | apply State.writeNow_kept | apply State.modCluster_kept | apply foldl_kept | apply Kept.ite
    | extract_lets | split | (intro; intros)

theorem Tile.biasStep_legal (x : Tile) (hx : x.Legal) : x.biasStep.Legal := by
  simp only [Tile.biasStep, Tile.Legal] at hx ⊢
  exact hx

theorem State.doneReport_kept {a₀ s : State} (h : Kept a₀ s) : Kept a₀ (State.doneReport s) := by
  unfold State.doneReport
  repeat' first
    | with_reducible first
        | assumption | apply State.queueSym_kept | apply State.modWave_kept | apply Kept.ite
    | extract_lets | split

theorem State.checkPart_kept {a₀ s : State} (t : Nat) (h : Kept a₀ s) : Kept a₀ (State.checkPart s t) := by
  unfold State.checkPart
  repeat' first
    | with_reducible first
        | assumption | apply State.doneReport_kept | apply Tile.modXs_legal | apply State.modTile_kept | apply Kept.ite
    | extract_lets | (intro; intros)

theorem Region.takeStep_legal (x : Region) (n : Nat) (now : Bool) (hx : x.Legal) : (Region.takeStep x n now).Legal := by
  unfold Region.takeStep
  repeat' first
    | with_reducible first
        | assumption
    | assumption | split

theorem State.applyRun_kept {a₀ s : State} (n : Nat) (now : Bool) (h : Kept a₀ s) : Kept a₀ (State.applyRun s n now) := by
  unfold State.applyRun
  repeat' first
    | with_reducible first
        | assumption | apply Region.takeStep_legal | apply State.forAll_kept | apply State.modPower_kept
        | apply State.modRegion_kept
    | extract_lets | (intro; intros)

theorem State.takePause_kept {a₀ s : State} (h : Kept a₀ s) : Kept a₀ (State.takePause s) := by
  unfold State.takePause
  repeat' first
    | with_reducible first
        | assumption | apply State.complete_kept | apply State.forAll_kept | apply State.modTile_kept | apply State.modJob_kept
        | apply foldl_kept | apply State.event_kept | apply Kept.ite
    | extract_lets | exact ⟨Nat.le_of_ble_eq_true rfl, Nat.le_of_ble_eq_true rfl⟩ | exact fun _ => Nat.le_of_ble_eq_true rfl
    | (intro; intros)

theorem State.atBoundary_kept {a₀ s : State} (h : Kept a₀ s) : Kept a₀ (State.atBoundary s) := by
  unfold State.atBoundary
  repeat' first
    | with_reducible first
        | assumption | apply State.takePause_kept | apply State.backToCompute_kept | apply State.modDbg_kept
        | apply State.modWave_kept | apply Kept.ite

theorem State.updateRun_kept {a₀ s : State} (h : Kept a₀ s) : Kept a₀ (State.updateRun s) := by
  unfold State.updateRun
  repeat' first
    | with_reducible first
        | assumption | apply State.applyRun_kept

theorem State.linkRoute_kept {a₀ s : State} (dmod : Nat) (p : Nat) (h : Kept a₀ s) : Kept a₀ (State.linkRoute s dmod p) := by
  unfold State.linkRoute
  repeat' first
    | with_reducible first
        | assumption | apply State.devFault_kept

theorem State.sendMsg_kept {a₀ s : State} (m : Msg) (h : Kept a₀ s) : Kept a₀ (State.sendMsg s m) := by
  unfold State.sendMsg
  repeat' first
    | with_reducible first
        | assumption | apply State.linkRoute_kept | apply State.modNet_kept | apply Kept.ite
    | extract_lets | split

end Sys2Proof.Machine
end

