-- ==== Sys2Proof/Laws/KeptTile.lean ====
section
/-! SUPPORT. One lemma for each operation: what the commands of the tiles, the cluster stores and the exchange keep (Laws/Kept.lean). -/

namespace Sys2Proof.Machine

theorem vecOp_kept {a₀ : State} (key : Nat) (t : Nat) (q : Strm) {s : State} (h : Kept a₀ s) :
    KeptOut a₀ (vecOp key t q s) := by
  unfold vecOp
  repeat' first
    | with_reducible first
        | assumption | apply tileInsn_kept | apply State.stall_kept | apply State.rowCheck_kept | apply State.issueSeq_kept
        | apply Tile.modSeq_legal | apply Tile.modIo_legal | apply Tile.startOp_legal | apply State.addAccs_kept
        | apply Kept.ite
    | extract_lets | split | (intro; intros)

theorem execVfma_kept {a₀ : State} (t : Nat) (q : Strm) {s : State} (h : Kept a₀ s) : KeptOut a₀ (execVfma t q s) := by
  unfold execVfma
  repeat' first
    | with_reducible first
        | assumption | apply vecOp_kept

theorem State.opWrite_kept {a₀ s : State} (c : Acct) (id : Nat) (lo : Nat) (b : List Byte) (h : Kept a₀ s) :
    Kept a₀ (State.opWrite s c id lo b) := by
  unfold State.opWrite
  repeat' first
    | with_reducible first
        | assumption | apply State.writeRows_kept

theorem execVadd_kept {a₀ : State} (t : Nat) (q : Strm) {s : State} (h : Kept a₀ s) : KeptOut a₀ (execVadd t q s) := by
  unfold execVadd
  repeat' first
    | with_reducible first
        | assumption | apply vecOp_kept

theorem execVcpy_kept {a₀ : State} (t : Nat) (q : Strm) {s : State} (h : Kept a₀ s) : KeptOut a₀ (execVcpy t q s) := by
  unfold execVcpy
  repeat' first
    | with_reducible first
        | assumption | apply vecOp_kept

theorem State.vecDone_kept {a₀ s : State} (t : Nat) (o : Op) (h : Kept a₀ s) : Kept a₀ (State.vecDone s t o) := by
  unfold State.vecDone
  repeat' first
    | with_reducible first
        | assumption | apply Tile.modIo_legal | apply Tile.unmark_legal | apply Tile.dropAcc_legal | apply State.modTile_kept
    | extract_lets | (intro; intros)

theorem execVmin_kept {a₀ : State} (t : Nat) (q : Strm) {s : State} (h : Kept a₀ s) : KeptOut a₀ (execVmin t q s) := by
  unfold execVmin
  repeat' first
    | with_reducible first
        | assumption | apply vecOp_kept

theorem execVrsqrt_kept {a₀ : State} (t : Nat) (q : Strm) {s : State} (h : Kept a₀ s) : KeptOut a₀ (execVrsqrt t q s) := by
  unfold execVrsqrt
  repeat' first
    | with_reducible first
        | assumption | apply vecOp_kept

theorem State.opReadAm_kept {a₀ s : State} (c : Acct) (id : Nat) (lo : Nat) (n : Nat) (h : Kept a₀ s) :
    Kept a₀ (State.opReadAm s c id lo n).1 := by
  unfold State.opReadAm
  repeat' first
    | with_reducible first
        | assumption | apply State.readAm_kept

theorem State.opRead_kept {a₀ s : State} (c : Acct) (id : Nat) (lo : Nat) (n : Nat) (h : Kept a₀ s) :
    Kept a₀ (State.opRead s c id lo n).1 := by
  unfold State.opRead
  repeat' first
    | with_reducible first
        | assumption | apply State.readRows_kept

theorem State.vecA_kept {a₀ s : State} (c : Acct) (o : Op) (h : Kept a₀ s) : Kept a₀ (State.vecA s c o).1 := by
  unfold State.vecA
  repeat' first
    | with_reducible first
        | assumption | apply State.opReadAm_kept | apply State.opRead_kept
    | extract_lets | split

theorem andThen_kept {α : Type} {a : State} (r : State × Option α) (k : State → α → State) (h : Kept a r.1)
    (hk : ∀ s x, Kept a s → Kept a (k s x)) : Kept a (andThen r k) := by
  unfold andThen
  split
  · exact h
  · exact hk _ _ h

theorem execVmax_kept {a₀ : State} (t : Nat) (q : Strm) {s : State} (h : Kept a₀ s) : KeptOut a₀ (execVmax t q s) := by
  unfold execVmax
  repeat' first
    | with_reducible first
        | assumption | apply vecOp_kept

theorem State.vecRow_kept {a₀ s : State} (c : Acct) (o : Op) (used : Bool) (i : Nat) (h : Kept a₀ s) :
    Kept a₀ (State.vecRow s c o used i).1 := by
  unfold State.vecRow
  repeat' first
    | with_reducible first
        | assumption | apply State.opRead_kept
    | extract_lets | split

theorem State.vecEnd_kept {a₀ s : State} (t : Nat) (o : Op) (h : Kept a₀ s) : Kept a₀ (State.vecEnd s t o) := by
  unfold State.vecEnd
  repeat' first
    | with_reducible first
        | assumption | apply andThen_kept | apply State.vecA_kept | apply State.opRead_kept | apply State.opWrite_kept
        | apply State.vecDone_kept | apply Tile.countEvs_legal | apply Tile.result_legal | apply State.vecRow_kept
        | apply State.modTile_kept
    | extract_lets | split | (intro; intros)

theorem execVlog2_kept {a₀ : State} (t : Nat) (q : Strm) {s : State} (h : Kept a₀ s) : KeptOut a₀ (execVlog2 t q s) := by
  unfold execVlog2
  repeat' first
    | with_reducible first
        | assumption | apply vecOp_kept

theorem execVcvt_kept {a₀ : State} (t : Nat) (q : Strm) {s : State} (h : Kept a₀ s) : KeptOut a₀ (execVcvt t q s) := by
  unfold execVcvt
  repeat' first
    | with_reducible first
        | assumption | apply vecOp_kept

theorem execVrsum_kept {a₀ : State} (t : Nat) (q : Strm) {s : State} (h : Kept a₀ s) : KeptOut a₀ (execVrsum t q s) := by
  unfold execVrsum
  repeat' first
    | with_reducible first
        | assumption | apply vecOp_kept

theorem execVrmax_kept {a₀ : State} (t : Nat) (q : Strm) {s : State} (h : Kept a₀ s) : KeptOut a₀ (execVrmax t q s) := by
  unfold execVrmax
  repeat' first
    | with_reducible first
        | assumption | apply vecOp_kept

theorem execVsfma_kept {a₀ : State} (t : Nat) (q : Strm) {s : State} (h : Kept a₀ s) : KeptOut a₀ (execVsfma t q s) := by
  unfold execVsfma
  repeat' first
    | with_reducible first
        | assumption | apply vecOp_kept

theorem execVexp2_kept {a₀ : State} (t : Nat) (q : Strm) {s : State} (h : Kept a₀ s) : KeptOut a₀ (execVexp2 t q s) := by
  unfold execVexp2
  repeat' first
    | with_reducible first
        | assumption | apply vecOp_kept

theorem execVmul_kept {a₀ : State} (t : Nat) (q : Strm) {s : State} (h : Kept a₀ s) : KeptOut a₀ (execVmul t q s) := by
  unfold execVmul
  repeat' first
    | with_reducible first
        | assumption | apply vecOp_kept

theorem execVrecip_kept {a₀ : State} (t : Nat) (q : Strm) {s : State} (h : Kept a₀ s) : KeptOut a₀ (execVrecip t q s) := by
  unfold execVrecip
  repeat' first
    | with_reducible first
        | assumption | apply vecOp_kept

theorem State.readyFrom_kept {a₀ : State} {s' : State} {s : State} (h : Kept a₀ s') (hs : Kept a₀ s) :
    Kept a₀ (State.readyFrom s' s) := by
  unfold State.readyFrom
  repeat' first
    | with_reducible first
        | assumption | apply State.raiseMsi_kept | apply Kept.ite

theorem State.clusterReset_kept {a₀ s : State} (c : Nat) (h : Kept a₀ s) : Kept a₀ (State.clusterReset s c) := by
  unfold State.clusterReset
  repeat' first
    | with_reducible first
        | assumption | apply State.modCluster_kept

theorem Tile.cleared_legal (x : Tile) (st : Nat) (keep : Bool) (h : 1 ≤ st ∧ st ≤ 9) : (x.cleared st keep).Legal := h

theorem State.jobReset_kept {a₀ s : State} (st : Nat) (h : Kept a₀ s) (hst : 1 ≤ st ∧ st ≤ 9) :
    Kept a₀ (State.jobReset s st) := by
  unfold State.jobReset
  extract_lets s1 s2 far s3 s4 s5 s6 s7
  have h1 : Kept a₀ s1 := by
    refine State.forAll_kept _ _ h fun s t h => State.took_kept (State.modTile_kept _ _ ?_ fun x _ => Tile.cleared_legal x _ _ hst)
    exact foldl_kept _ h fun s p h => State.stopStore_kept _ _ _ h
  have h2 : Kept a₀ s2 := State.forAll_kept _ _ h1 fun s c h => State.clusterReset_kept c h
  have h4 : Kept a₀ s4 := by
    refine State.forAll_kept _ _ (State.modNet_kept _ h2) fun s r h => Kept.ite (State.modRegion_kept _ _ h fun _ h => h) h
  have h7 : Kept a₀ s7 := by
    refine State.modPower_kept _ (State.modDbg_kept _ (State.modJob_kept _ (State.modRel_kept _ h4 ?_) id))
    exact (Rel.Grows.of_eq rfl rfl rfl rfl rfl rfl)
  exact State.stepLost_kept (Kept.ite (foldl_kept _ h7 fun s d h => State.fence_kept d h) h7)

theorem State.unload_kept {a₀ s : State} (h : Kept a₀ s) : Kept a₀ (State.unload s) := by
  unfold State.unload
  extract_lets s1 s2 s3 s4 s5
  have h1 : Kept a₀ s1 := State.jobReset_kept 1 h (by decide)
  have h2 : Kept a₀ s2 := State.forAll_kept _ _ h1 fun s t h => State.modTile_kept _ _ h fun x _ => by
    unfold Tile.Legal
    dsimp only
    split <;> decide
  have h3 : Kept a₀ s3 := State.forAll_kept _ _ h2 fun s c h => State.modCluster_kept _ _ h
  have h4 : Kept a₀ s4 := State.modRel_kept _ h3
    (Rel.Grows.of_eq rfl rfl rfl rfl rfl rfl)
  exact State.commitFences_kept (State.updateRun_kept (State.modPower_kept _ (State.modJob_kept _ h4 fun _ => Nat.zero_le _)))

theorem State.ask_kept {a₀ s : State} (kind : Nat) (line : Nat) (own : Nat) (h : Kept a₀ s) :
    Kept a₀ (State.ask s kind line own) := by
  unfold State.ask
  repeat' first
    | with_reducible first
        | assumption | apply State.rlPost_kept | apply State.modRl_kept | apply Kept.ite
    | extract_lets | exact id

theorem State.askDone_kept {a₀ s : State} (kind : Nat) (line : Nat) (own : Nat) (h : Kept a₀ s) :
    Kept a₀ (State.askDone s kind line own) := by
  unfold State.askDone
  repeat' first
    | with_reducible first
        | assumption | apply State.ask_kept | apply State.modRl_kept
    | extract_lets | exact id | split

theorem State.setXfer_kept {a₀ s : State} (t : Nat) (x : Xfer) (h : Kept a₀ s) : Kept a₀ (State.setXfer s t x) := by
  unfold State.setXfer
  repeat' first
    | with_reducible first
        | assumption | apply Tile.modIo_legal | apply State.modTile_kept
    | extract_lets | (intro; intros)

theorem execHrdResponse_kept {a₀ : State} (t : Nat) (tag : Nat) (addr : Nat) (err : Bool) (data : List Byte) {s : State}
    (h : Kept a₀ s) :
    KeptOut a₀ (execHrdResponse t tag addr err data s) := by
  unfold execHrdResponse
  repeat' first
    | with_reducible first
        | assumption | apply KeptOut.next | apply KeptOut.fault | apply State.askDone_kept | apply State.devFault_kept
        | apply State.setXfer_kept | apply Kept.ite
    | extract_lets | split

theorem State.stirs_kept {a₀ s : State} (t : Nat) (x : Xfer) (h : Kept a₀ s) : Kept a₀ (State.stirs s t x) := by
  unfold State.stirs
  repeat' first
    | with_reducible first
        | assumption | apply State.setXfer_kept | apply foldl_kept | apply Kept.ite
    | extract_lets | split | (intro; intros)

theorem State.storeAll_kept {a₀ s : State} (c : Acct) (x : Xfer) (l : List Seg) (src : List Byte) (h : Kept a₀ s) :
    Kept a₀ (State.storeAll s c x l src) := by
  unfold State.storeAll
  repeat' first
    | with_reducible first
        | assumption | apply Stack.put_st | apply State.countTile_kept | apply State.countStk_kept | apply State.stirs_kept
        | apply State.modStk_kept | apply foldl_kept | apply Kept.ite
    | extract_lets | (intro; intros)

theorem State.copyFirst_kept {a₀ s : State} (x : Xfer) (l : List Seg) (h : Kept a₀ s) : Kept a₀ (State.copyFirst s x l) := by
  unfold State.copyFirst
  repeat' first
    | with_reducible first
        | assumption | apply State.countJob_kept | apply State.took_kept | apply State.modStow_kept | apply Kept.ite

theorem State.crcFault_kept {a₀ s : State} (c : Acct) (x : Xfer) (plc : Nat) (blk : Nat) (index : Nat) (h : Kept a₀ s) :
    Kept a₀ (State.crcFault s c x plc blk index) := by
  unfold State.crcFault
  repeat' first
    | with_reducible first
        | assumption | apply Tile.modMisc_legal | apply State.tileFault_kept | apply State.modTile_kept
    | extract_lets | (intro; intros)

theorem State.blockFault_kept {a₀ s : State} (c : Acct) (x : Xfer) (plc : Nat) (blk : Nat) (index : Nat) (h : Kept a₀ s) :
    Kept a₀ (State.blockFault s c x plc blk index) := by
  unfold State.blockFault
  repeat' first
    | with_reducible first
        | assumption | apply State.setXfer_kept | apply State.stopStore_kept | apply State.crcFault_kept
        | apply State.took_kept | apply Kept.ite

theorem State.portDone_kept {a₀ s : State} (t : Nat) (x : Xfer) (h : Kept a₀ s) : Kept a₀ (State.portDone s t x) := by
  unfold State.portDone
  repeat' first
    | with_reducible first
        | assumption | apply Tile.modIo_legal | apply Tile.dropAcc_legal | apply Tile.count_legal | apply State.modTile_kept
    | extract_lets | split | (intro; intros)

theorem State.landAll_kept {a₀ s : State} (c : Acct) (x : Xfer) (l : List Seg) (h : Kept a₀ s) :
    Kept a₀ (State.landAll s c x l) := by
  unfold State.landAll
  repeat' first
    | with_reducible first
        | assumption | apply State.tileFault_kept | apply State.writeRows_kept | apply Tile.modMisc_legal
        | apply Tile.count_legal | apply State.modTile_kept | apply State.took_kept | apply foldl_legal
    | extract_lets | split | (intro; intros)

theorem State.cells_kept {a₀ s : State} (e : HbmErr) (h : Kept a₀ s) : Kept a₀ (State.cells s e) := by
  unfold State.cells
  repeat' first
    | with_reducible first
        | assumption | apply State.modStk_kept
    | extract_lets | split | (intro; intros)

theorem State.corrected_kept {a₀ s : State} (k : Nat) (bursts : List Nat) (h : Kept a₀ s) :
    Kept a₀ (State.corrected s k bursts) := by
  unfold State.corrected
  repeat' first
    | with_reducible first
        | assumption | apply State.countStk_kept | apply Kept.ite

theorem State.hbmParity_kept {a₀ s : State} (k : Nat) (pch : Nat) (h : Kept a₀ s) : Kept a₀ (State.hbmParity s k pch) := by
  unfold State.hbmParity
  repeat' first
    | with_reducible first
        | assumption | apply State.evidence_kept | apply State.regionFault_kept | apply State.readyFrom_kept
        | apply State.modStk_kept | apply State.modRel_kept | apply Kept.ite | rfl
    | extract_lets
    | exact (Rel.Grows.of_eq rfl rfl rfl rfl rfl rfl)
    | (refine Rel.Grows.mk ?_ ?_ ?_ ?_ ?_ ?_ <;> first | exact List.Subset.refl _ | apply List.subset_append_left | apply subset_cons_dups | apply subset_append_dups)
    | split | (intro; intros)

theorem State.hbmUe_kept {a₀ s : State} (k : Nat) (a : Nat) (job : Bool) (h : Kept a₀ s) :
    Kept a₀ (State.hbmUe s k a job) := by
  unfold State.hbmUe
  extract_lets s1 s2 s3
  have h2 : Kept a₀ s2 := by
    refine State.modRel_kept _ (State.modStk_kept _ _ h fun _ h => h) ?_
    refine ⟨List.Subset.refl _, List.Subset.refl _, List.Subset.refl _, List.Subset.refl _, ?_, ?_⟩
    all_goals
      dsimp only
      repeat' split
    all_goals first
      | exact List.Subset.refl _
      | exact List.subset_append_left _ _
  have h3 : Kept a₀ s3 := Kept.ite (State.modStk_kept _ _ h2 fun _ _ => Nat.le_of_ble_eq_true rfl) h2
  exact State.regionFault_kept _ _ _ _ (State.readyFrom_kept h3 h)

theorem State.blockCheck_kept {a₀ s : State} (c : Acct) (x : Xfer) (l : List Seg) (src : List Byte) (e : HbmErr)
    (h : Kept a₀ s) :
    KeptOpt a₀ (State.blockCheck s c x l src e) := by
  unfold State.blockCheck
  repeat' first
    | with_reducible first
        | assumption | apply KeptOpt.some | apply KeptOpt.none | apply State.hbmUe_kept | apply State.blockFault_kept
        | apply findSome_kept
    | extract_lets | split | (intro; intros)

theorem State.moveHbm_kept {a₀ s : State} (c : Acct) (x : Xfer) (l : List Seg) (n : Nat) (e : HbmErr) (h : Kept a₀ s) :
    Kept a₀ (State.moveHbm s c x l n e) := by
  unfold State.moveHbm
  repeat' first
    | with_reducible first
        | assumption | apply andThen_kept | apply State.opRead_kept | apply State.blockCheck_kept | apply State.portDone_kept
        | apply State.storeAll_kept | apply State.copyFirst_kept | apply State.landAll_kept | apply Kept.ite
        | refine Kept.of_some (by assumption) ?_
    | extract_lets | split | (intro; intros)

theorem State.portMove_kept {a₀ s : State} (c : Acct) (x : Xfer) (e : HbmErr) (h : Kept a₀ s) :
    Kept a₀ (State.portMove s c x e) := by
  unfold State.portMove
  repeat' first
    | with_reducible first
        | assumption | apply State.countTile_kept | apply State.portDone_kept | apply State.landAll_kept
        | apply State.cells_kept | apply State.corrected_kept | apply State.hbmParity_kept | apply State.moveHbm_kept
        | apply State.took_kept | apply foldl_kept | apply Kept.ite
    | extract_lets | split | (intro; intros)

theorem execHwrCompletion_kept {a₀ : State} (t : Nat) (tag : Nat) (addr : Nat) (err : Bool) {s : State} (h : Kept a₀ s) :
    KeptOut a₀ (execHwrCompletion t tag addr err s) := by
  unfold execHwrCompletion
  repeat' first
    | with_reducible first
        | assumption | apply KeptOut.next | apply KeptOut.fault | apply State.askDone_kept | apply State.devFault_kept
        | apply State.portMove_kept | apply State.crcFault_kept | apply andThen_kept | apply State.opRead_kept
        | apply State.setXfer_kept | apply State.modRl_kept | apply foldl_kept | apply Kept.ite
    | extract_lets | exact id | split | (intro; intros)

theorem State.sendRecall_kept {a₀ s : State} (l : List Nat) (h : Kept a₀ s) : Kept a₀ (State.sendRecall s l) := by
  unfold State.sendRecall
  repeat' first
    | with_reducible first
        | assumption | apply State.ask_kept | apply State.modRl_kept | apply foldl_kept
    | extract_lets | exact id | (intro; intros)

theorem State.hbmRead_kept {a₀ s : State} (k : Nat) (a : Nat) (n : Nat) (job : Bool) (h : Kept a₀ s) :
    Kept a₀ (State.hbmRead s k a n job).1 := by
  unfold State.hbmRead
  repeat' first
    | with_reducible first
        | assumption | apply State.corrected_kept | apply State.hbmUe_kept
    | extract_lets | split

theorem State.wakeStk_kept {a₀ s : State} (k : Nat) (h : Kept a₀ s) : Kept a₀ (State.wakeStk s k) := by
  unfold State.wakeStk
  repeat' first
    | with_reducible first
        | assumption | apply State.modStk_kept | apply Kept.ite
    | extract_lets | exact Nat.le_of_ble_eq_true rfl | (intro; intros)

theorem State.sendBinv_kept {a₀ s : State} (l : List Nat) (h : Kept a₀ s) : Kept a₀ (State.sendBinv s l) := by
  unfold State.sendBinv
  repeat' first
    | with_reducible first
        | assumption | apply State.ask_kept | apply State.modRl_kept | apply foldl_kept
    | extract_lets | exact id | (intro; intros)

theorem State.askHost_kept {a₀ s : State} (t : Nat) (x : Xfer) (h : Kept a₀ s) : Kept a₀ (State.askHost s t x) := by
  unfold State.askHost
  repeat' first
    | with_reducible first
        | assumption | apply State.ask_kept | apply State.setXfer_kept | apply foldl_kept | apply Kept.ite
    | extract_lets | split | (intro; intros)

theorem State.askLines_kept {a₀ s : State} (x : Xfer) (h : Kept a₀ s) : Kept a₀ (State.askLines s x) := by
  unfold State.askLines
  repeat' first
    | with_reducible first
        | assumption | apply State.sendBinv_kept | apply State.sendRecall_kept | apply Kept.ite

theorem State.startXfer_kept {a₀ s : State} (t : Nat) (x : Xfer) (h : Kept a₀ s) : Kept a₀ (State.startXfer s t x) := by
  unfold State.startXfer
  repeat' first
    | with_reducible first
        | assumption | apply State.askHost_kept | apply State.askLines_kept | apply Kept.ite

theorem State.readIndices_kept {a₀ s : State} (c : Acct) (x : Xfer) (h : Kept a₀ s) :
    Kept a₀ (State.readIndices s c x).1 := by
  unfold State.readIndices
  repeat' first
    | with_reducible first
        | assumption | apply State.opRead_kept | apply State.tileFault_kept | apply State.setXfer_kept
    | extract_lets | split

theorem execPort_kept {a₀ : State} (t : Nat) (q : Strm) {s : State} (h : Kept a₀ s) : KeptOut a₀ (execPort t q s) := by
  unfold execPort
  repeat' first
    | with_reducible first
        | assumption | apply tileInsn_kept | apply State.rowCheck_kept | apply State.readNow_kept | apply State.stall_kept
        | apply State.tileFault_kept | apply State.issueSeq_kept | apply Tile.modIo_legal | apply Tile.startOp_legal
        | apply State.addAccs_kept | apply State.startXfer_kept | apply State.modRl_kept | apply Kept.ite
        | refine Kept.of_pair (by assumption) ?_
    | extract_lets | exact id | split | (intro; intros)

theorem execPorterComplete_kept {a₀ : State} (t : Nat) (tag : Nat) (e : HbmErr) {s : State} (h : Kept a₀ s) :
    KeptOut a₀ (execPorterComplete t tag e s) := by
  unfold execPorterComplete
  repeat' first
    | with_reducible first
        | assumption | apply KeptOut.next | apply KeptOut.fault | apply alongside_kept | apply State.portMove_kept
        | apply State.askLines_kept | apply State.readIndices_kept | apply State.setXfer_kept | apply State.askHost_kept
        | refine Kept.of_pair (by assumption) ?_
    | extract_lets | split | (intro; intros)

theorem State.tallyWatch_kept {a₀ s : State} (c : Nat) (tl : Nat) (h : Kept a₀ s) : Kept a₀ (State.tallyWatch s c tl) := by
  unfold State.tallyWatch
  repeat' first
    | with_reducible first
        | assumption | apply Tile.haltBy_legal | apply Tile.dbgRecord_legal | apply State.fixTrigger_kept
        | apply State.modCluster_kept | apply State.modTile_kept | apply foldl_kept | apply Kept.ite | apply foldl_legal
    | extract_lets | split | (intro; intros)

theorem State.settleCluster_kept {a₀ s : State} (c : Nat) (h : Kept a₀ s) : Kept a₀ (State.settleCluster s c) := by
  unfold State.settleCluster
  repeat' first
    | with_reducible first
        | assumption | apply State.settle_kept | apply State.forAll_kept

theorem execTrd_kept {a₀ : State} (t : Nat) (q : Strm) {s : State} (h : Kept a₀ s) : KeptOut a₀ (execTrd t q s) := by
  unfold execTrd
  repeat' first
    | with_reducible first
        | assumption | apply tileInsn_kept | apply State.issueSeq_kept | apply Tile.modSeq_legal | apply Tile.modIo_legal
        | apply Tile.startOp_legal
    | extract_lets | split | (intro; intros)

theorem tallyIssue_kept {a₀ : State} (key : Nat) (t : Nat) (q : Strm) {s : State} (regs : Word → List Nat)
    (val : Seq → Word → Nat) (h : Kept a₀ s) :
    KeptOut a₀ (tallyIssue key t q s regs val) := by
  unfold tallyIssue
  repeat' first
    | with_reducible first
        | assumption | apply tileInsn_kept | apply State.issueSeq_kept | apply Tile.modIo_legal | apply Tile.startOp_legal
    | extract_lets | (intro; intros)

theorem execTadd_kept {a₀ : State} (t : Nat) (q : Strm) {s : State} (h : Kept a₀ s) : KeptOut a₀ (execTadd t q s) := by
  unfold execTadd
  repeat' first
    | with_reducible first
        | assumption | apply tallyIssue_kept

theorem execTaddr_kept {a₀ : State} (t : Nat) (q : Strm) {s : State} (h : Kept a₀ s) : KeptOut a₀ (execTaddr t q s) := by
  unfold execTaddr
  repeat' first
    | with_reducible first
        | assumption | apply tallyIssue_kept

theorem execTwait_kept {a₀ : State} (t : Nat) (q : Strm) {s : State} (h : Kept a₀ s) : KeptOut a₀ (execTwait t q s) := by
  unfold execTwait
  repeat' first
    | with_reducible first
        | assumption | apply tileInsn_kept | apply State.clusterFault_kept | apply State.stall_kept | apply State.issueSeq_kept
        | apply State.settleCluster_kept | apply State.tallyWatch_kept | apply State.modCluster_kept | apply Kept.ite
    | extract_lets | assumption | (intro; intros)

theorem State.tallyAdd_kept {a₀ s : State} (c : Nat) (tl : Nat) (d : ℤ) (src : Nat) (kind : Nat) (h : Kept a₀ s) :
    Kept a₀ (State.tallyAdd s c tl d src kind).1 := by
  unfold State.tallyAdd
  repeat' first
    | with_reducible first
        | assumption | apply State.clusterFault_kept | apply State.tallyWatch_kept | apply State.modCluster_kept
    | extract_lets | split

theorem execTallyAddApply_kept {a₀ : State} (t : Nat) {s : State} (h : Kept a₀ s) : KeptOut a₀ (execTallyAddApply t s) := by
  unfold execTallyAddApply
  repeat' first
    | with_reducible first
        | assumption | apply KeptOut.next | apply KeptOut.fault | apply alongside_kept | apply State.tallyAdd_kept
        | apply State.settleCluster_kept | apply Tile.modIo_legal | apply Tile.unmark_legal | apply State.modTile_kept
    | extract_lets | split | (intro; intros)

theorem State.csRead_kept {a₀ s : State} (c : Nat) (lo : Nat) (n : Nat) (spoil : (State → State))
    (h : Kept a₀ s) (hspoil : ∀ s, Kept a₀ s → Kept a₀ (spoil s)) :
    Kept a₀ (State.csRead s c lo n spoil).1 := by
  unfold State.csRead
  repeat' first
    | with_reducible first
        | assumption | apply hspoil | apply State.clusterFault_kept
    | split

theorem State.csWrite_kept {a₀ s : State} (c : Nat) (lo : Nat) (b : List Byte) (h : Kept a₀ s) :
    Kept a₀ (State.csWrite s c lo b) := by
  unfold State.csWrite
  repeat' first
    | with_reducible first
        | assumption | apply State.modCluster_kept

theorem Tile.ringAccessDone_legal (x : Tile) (hx : x.Legal) : (Tile.ringAccessDone x).Legal := by
  unfold Tile.ringAccessDone
  repeat' first
    | with_reducible first
        | assumption | apply Tile.modQu_legal

theorem State.ringAccess_kept {a₀ s : State} (c : Nat) (t : Nat) (r : CsReq) (h : Kept a₀ s) :
    Kept a₀ (State.ringAccess s c t r) := by
  unfold State.ringAccess
  repeat' first
    | with_reducible first
        | assumption | apply andThen_kept | apply State.csRead_kept | apply State.csWrite_kept
        | apply Tile.ringAccessDone_legal | apply Tile.result_legal | apply State.took_kept | apply State.modCluster_kept
        | apply State.modTile_kept | apply Kept.ite
    | extract_lets | assumption | (intro; intros)

theorem csOp_kept {a₀ : State} (key : Nat) (t : Nat) (q : Strm) {s : State} (store : Bool) (h : Kept a₀ s) :
    KeptOut a₀ (csOp key t q s store) := by
  unfold csOp
  repeat' first
    | with_reducible first
        | assumption | apply tileInsn_kept | apply State.stall_kept | apply State.rowCheck_kept | apply State.issueSeq_kept
        | apply Tile.modIo_legal | apply Tile.startOp_legal | apply State.addAccs_kept | apply State.modCluster_kept
        | apply Kept.ite
    | extract_lets | (intro; intros)

theorem execCld_kept {a₀ : State} (t : Nat) (q : Strm) {s : State} (h : Kept a₀ s) : KeptOut a₀ (execCld t q s) := by
  unfold execCld
  repeat' first
    | with_reducible first
        | assumption | apply csOp_kept

theorem uniOp_kept {a₀ : State} (key : Nat) (t : Nat) (q : Strm) {s : State} (store : Bool) (h : Kept a₀ s) :
    KeptOut a₀ (uniOp key t q s store) := by
  unfold uniOp
  repeat' first
    | with_reducible first
        | assumption | apply tileInsn_kept | apply State.stall_kept | apply State.tileFault_kept | apply State.rowCheck_kept
        | apply Tile.modIo_legal | apply Tile.count_legal | apply State.issueSeq_kept | apply Tile.startOp_legal
        | apply State.addAccs_kept | apply State.modTile_kept | apply Kept.ite | apply Tile.Legal.ite
    | extract_lets | (intro; intros)

theorem execUld_kept {a₀ : State} (t : Nat) (q : Strm) {s : State} (h : Kept a₀ s) : KeptOut a₀ (execUld t q s) := by
  unfold execUld
  repeat' first
    | with_reducible first
        | assumption | apply uniOp_kept

theorem execUniformComplete_kept {a₀ : State} (t : Nat) (i : Nat) (k : Nat) {s : State} (h : Kept a₀ s) :
    KeptOut a₀ (execUniformComplete t i k s) := by
  unfold execUniformComplete
  repeat' first
    | with_reducible first
        | assumption | apply KeptOut.next | apply KeptOut.fault | apply Tile.modIo_legal | apply Tile.unmark_legal
        | apply Tile.dropAcc_legal | apply Tile.count_legal | apply andThen_kept | apply State.opRead_kept
        | apply State.writeRows_kept | apply State.modTile_kept
    | extract_lets | split | (intro; intros)

theorem State.csCycle_kept {a₀ s : State} (c : Nat) (h : Kept a₀ s) : Kept a₀ (State.csCycle s c) :=
  h.network s.free _ s.net


theorem execCsRequestAccept_kept {a₀ : State} (c : Nat) {s : State} (h : Kept a₀ s) :
    KeptOut a₀ (execCsRequestAccept c s) := by
  unfold execCsRequestAccept
  repeat' first
    | with_reducible first
        | assumption | apply KeptOut.next | apply KeptOut.fault | apply State.csCycle_kept | apply Tile.modIo_legal
        | apply State.modCluster_kept | apply State.modTile_kept | apply Kept.ite
    | extract_lets | split | (intro; intros) | dsimp +zetaDelta only []

theorem State.csSpoil_kept {a₀ s : State} (c : Nat) (lo : Nat) (n : Nat) (h : Kept a₀ s) :
    Kept a₀ (State.csSpoil s c lo n) := by
  unfold State.csSpoil
  repeat' first
    | with_reducible first
        | assumption | apply State.took_kept | apply State.modCluster_kept | apply foldl_kept | apply Kept.ite
    | extract_lets | (intro; intros)

theorem execCsAccessComplete_kept {a₀ : State} (c : Nat) (i : Nat) {s : State} (h : Kept a₀ s) :
    KeptOut a₀ (execCsAccessComplete c i s) := by
  unfold execCsAccessComplete
  repeat' first
    | with_reducible first
        | assumption | apply KeptOut.next | apply KeptOut.fault | apply State.ringAccess_kept | apply Tile.unmark_legal
        | apply Tile.dropAcc_legal | apply andThen_kept | apply State.opRead_kept | apply State.csSpoil_kept
        | apply State.csWrite_kept | apply State.csRead_kept | apply State.writeRows_kept | apply State.modCluster_kept
        | apply State.modTile_kept | apply Kept.ite
    | extract_lets | split | (intro; intros)

theorem State.setUni_kept {a₀ s : State} (t : Nat) (i : Nat) (f : UniOp → UniOp) (h : Kept a₀ s) :
    Kept a₀ (State.setUni s t i f) := by
  unfold State.setUni
  repeat' first
    | with_reducible first
        | assumption | apply Tile.modIo_legal | apply State.modTile_kept
    | extract_lets | (intro; intros)

theorem execUniformChannelAccept_kept {a₀ : State} (t : Nat) (i : Nat) {s : State} (h : Kept a₀ s) :
    KeptOut a₀ (execUniformChannelAccept t i s) := by
  unfold execUniformChannelAccept
  repeat' first
    | with_reducible first
        | assumption | apply KeptOut.next | apply KeptOut.fault | apply State.setUni_kept | apply andThen_kept
        | apply State.opRead_kept | apply State.csSpoil_kept | apply State.csWrite_kept | apply State.csRead_kept
        | apply State.writeRows_kept | apply State.modCluster_kept
    | extract_lets | split | (intro; intros)

theorem execCst_kept {a₀ : State} (t : Nat) (q : Strm) {s : State} (h : Kept a₀ s) : KeptOut a₀ (execCst t q s) := by
  unfold execCst
  repeat' first
    | with_reducible first
        | assumption | apply csOp_kept

theorem execUst_kept {a₀ : State} (t : Nat) (q : Strm) {s : State} (h : Kept a₀ s) : KeptOut a₀ (execUst t q s) := by
  unfold execUst
  repeat' first
    | with_reducible first
        | assumption | apply uniOp_kept

theorem State.dropMsg_kept {a₀ s : State} (t : Nat) (m : Msg) (ctr : Nat) (h : Kept a₀ s) :
    Kept a₀ (State.dropMsg s t m ctr) := by
  unfold State.dropMsg
  repeat' first
    | with_reducible first
        | assumption | apply Tile.count_legal | apply Tile.modQueue_legal | apply State.modTile_kept
    | extract_lets | (intro; intros)

theorem State.answer_kept {a₀ s : State} (t : Nat) (m : Msg) (status : Nat) (h : Kept a₀ s) :
    Kept a₀ (State.answer s t m status) := by
  unfold State.answer
  repeat' first
    | with_reducible first
        | assumption | apply Tile.modQu_legal | apply State.modTile_kept | apply Kept.ite
    | extract_lets | (intro; intros)

theorem State.applyTally_kept {a₀ s : State} (t : Nat) (m : Msg) (h : Kept a₀ s) : Kept a₀ (State.applyTally s t m) := by
  unfold State.applyTally
  repeat' first
    | with_reducible first
        | assumption | apply State.tallyAdd_kept | apply State.settleCluster_kept | apply State.answer_kept
        | apply State.countCluster_kept | apply Kept.ite

theorem State.acceptMsg_kept {a₀ s : State} (t : Nat) (m : Msg) (waited : Bool) (h : Kept a₀ s) :
    Kept a₀ (State.acceptMsg s t m waited) := by
  unfold State.acceptMsg
  repeat' first
    | with_reducible first
        | assumption | apply Tile.modQu_legal | apply Tile.modQueue_legal | apply State.modTile_kept
        | apply State.modCluster_kept
    | extract_lets | split | (intro; intros)

theorem State.resolve_kept {a₀ s : State} (t : Nat) (m : Msg) (h : Kept a₀ s) : Kept a₀ (State.resolve s t m) := by
  unfold State.resolve
  repeat' first
    | with_reducible first
        | assumption | apply Tile.modQu_legal | apply State.countCluster_kept | apply State.dropMsg_kept
        | apply State.applyTally_kept | apply State.answer_kept | apply State.tileFault_kept | apply Tile.modQueue_legal
        | apply State.acceptMsg_kept | apply State.modTile_kept | apply Kept.ite
    | extract_lets | split | (intro; intros)

theorem queueInsn_kept {a₀ : State} (key : Nat) (t : Nat) (q : Strm) {s : State} (regs : Word → List Nat)
    (body : Site → Tile → Nat → State → State) (h : Kept a₀ s) (hbody : ∀ i x n s, Kept a₀ s → Kept a₀ (body i x n s)) :
    KeptOut a₀ (queueInsn key t q s regs body) := by
  unfold queueInsn
  repeat' first
    | with_reducible first
        | assumption | apply hbody | apply tileInsn_kept | apply State.tileFault_kept | apply Kept.ite
    | extract_lets | (intro; intros)

theorem State.refreshQueue_kept {a₀ s : State} (t : Nat) (h : Kept a₀ s) : Kept a₀ (State.refreshQueue s t) := by
  unfold State.refreshQueue
  repeat' first
    | with_reducible first
        | assumption | apply State.settle_kept | apply State.resolve_kept
    | extract_lets | split

theorem execMessageAccept_kept {a₀ : State} (t : Nat) {s : State} (h : Kept a₀ s) : KeptOut a₀ (execMessageAccept t s) := by
  unfold execMessageAccept
  repeat' first
    | with_reducible first
        | assumption | apply KeptOut.next | apply KeptOut.fault | apply State.refreshQueue_kept | apply State.resolve_kept
    | extract_lets | split

theorem execReturnSlipSend_kept {a₀ : State} (t : Nat) {s : State} (h : Kept a₀ s) : KeptOut a₀ (execReturnSlipSend t s) := by
  unfold execReturnSlipSend
  repeat' first
    | with_reducible first
        | assumption | apply KeptOut.next | apply KeptOut.fault | apply State.sendMsg_kept | apply Tile.count_legal
        | apply Tile.modQu_legal | apply State.modTile_kept
    | extract_lets | split | (intro; intros)

theorem State.sendIssue_kept {a₀ s : State} (i : Site) (m : Msg) (qsend : Bool) (lo : Nat) (n : Nat) (h : Kept a₀ s) :
    Kept a₀ (State.sendIssue s i m qsend lo n) := by
  unfold State.sendIssue
  repeat' first
    | with_reducible first
        | assumption | apply State.tileFault_kept | apply State.issueSeq_kept | apply Tile.modIo_legal | apply Tile.count_legal
        | apply Tile.startOp_legal | apply State.addAccs_kept | apply Kept.ite
    | extract_lets | split | (intro; intros)

theorem execQsends_kept {a₀ : State} (t : Nat) (q : Strm) {s : State} (h : Kept a₀ s) : KeptOut a₀ (execQsends t q s) := by
  unfold execQsends
  repeat' first
    | with_reducible first
        | assumption | apply tileInsn_kept | apply State.stall_kept | apply State.tileFault_kept | apply State.sendIssue_kept
        | apply Kept.ite
    | extract_lets | split | (intro; intros)

theorem execQlen_kept {a₀ : State} (t : Nat) (q : Strm) {s : State} (h : Kept a₀ s) : KeptOut a₀ (execQlen t q s) := by
  unfold execQlen
  repeat' first
    | with_reducible first
        | assumption | apply queueInsn_kept | apply State.issueSeq_kept | apply Tile.modSeq_legal
    | extract_lets | (intro; intros)

theorem State.ringWriteSp_kept {a₀ s : State} (t : Nat) (a : Nat) (b : List Byte) (h : Kept a₀ s) :
    Kept a₀ (State.ringWriteSp s t a b).1 := by
  unfold State.ringWriteSp
  repeat' first
    | with_reducible first
        | assumption | apply State.tileFault_kept | apply State.writeNow_kept
    | extract_lets | split | dsimp +zetaDelta only []

theorem execMessageVisible_kept {a₀ : State} (t : Nat) {s : State} (h : Kept a₀ s) : KeptOut a₀ (execMessageVisible t s) := by
  unfold execMessageVisible
  repeat' first
    | with_reducible first
        | assumption | apply KeptOut.next | apply KeptOut.fault | apply alongside_kept | apply State.ringWriteSp_kept
        | apply Tile.count_legal | apply Tile.modQueue_legal | apply Tile.modQu_legal | apply State.refreshQueue_kept
        | apply State.answer_kept | apply State.modTile_kept | apply foldl_triple_kept
    | extract_lets | split | (intro; intros)

theorem qctlOp_kept {a₀ : State} (key : Nat) (t : Nat) (q : Strm) {s : State} (h : Kept a₀ s) :
    KeptOut a₀ (qctlOp key t q s) := by
  unfold qctlOp
  repeat' first
    | with_reducible first
        | assumption | apply queueInsn_kept | apply State.issueSeq_kept | apply Tile.modIo_legal | apply Tile.startOp_legal
    | extract_lets | (intro; intros)

theorem execQctlReset_kept {a₀ : State} (t : Nat) (q : Strm) {s : State} (h : Kept a₀ s) :
    KeptOut a₀ (execQctlReset t q s) := by
  unfold execQctlReset
  repeat' first
    | with_reducible first
        | assumption | apply qctlOp_kept

theorem execMessageArrival_kept {a₀ : State} (i : Nat) {s : State} (h : Kept a₀ s) : KeptOut a₀ (execMessageArrival i s) := by
  unfold execMessageArrival
  repeat' first
    | with_reducible first
        | assumption | apply KeptOut.next | apply State.refreshQueue_kept | apply State.resolve_kept | apply State.modNet_kept
    | extract_lets | split

theorem execQctlClose_kept {a₀ : State} (t : Nat) (q : Strm) {s : State} (h : Kept a₀ s) :
    KeptOut a₀ (execQctlClose t q s) := by
  unfold execQctlClose
  repeat' first
    | with_reducible first
        | assumption | apply qctlOp_kept

theorem execQsend_kept {a₀ : State} (t : Nat) (q : Strm) {s : State} (h : Kept a₀ s) : KeptOut a₀ (execQsend t q s) := by
  unfold execQsend
  repeat' first
    | with_reducible first
        | assumption | apply tileInsn_kept | apply State.stall_kept | apply State.rowCheck_kept | apply andThen_kept
        | apply State.readNow_kept | apply State.sendIssue_kept | apply Kept.ite
    | extract_lets | (intro; intros)

theorem execQctlOpen_kept {a₀ : State} (t : Nat) (q : Strm) {s : State} (h : Kept a₀ s) :
    KeptOut a₀ (execQctlOpen t q s) := by
  unfold execQctlOpen
  repeat' first
    | with_reducible first
        | assumption | apply qctlOp_kept

theorem execRingWaitExpiry_kept {a₀ : State} (t : Nat) {s : State} (h : Kept a₀ s) : KeptOut a₀ (execRingWaitExpiry t s) := by
  unfold execRingWaitExpiry
  repeat' first
    | with_reducible first
        | assumption | apply KeptOut.next | apply KeptOut.fault | apply alongside_kept | apply State.tileFault_kept
        | apply Tile.modQueue_legal | apply Tile.modQu_legal | apply State.modTile_kept
    | extract_lets | split | (intro; intros)

theorem State.sendEnd_kept {a₀ s : State} (t : Nat) (o : Op) (h : Kept a₀ s) : Kept a₀ (State.sendEnd s t o) := by
  unfold State.sendEnd
  repeat' first
    | with_reducible first
        | assumption | apply State.sendMsg_kept | apply Tile.modIo_legal | apply Tile.unmark_legal | apply Tile.dropAcc_legal
        | apply andThen_kept | apply State.opRead_kept | apply State.modTile_kept | apply Kept.ite
    | extract_lets | (intro; intros)

theorem execQhead_kept {a₀ : State} (t : Nat) (q : Strm) {s : State} (h : Kept a₀ s) : KeptOut a₀ (execQhead t q s) := by
  unfold execQhead
  repeat' first
    | with_reducible first
        | assumption | apply queueInsn_kept | apply State.stall_kept | apply State.issueSeq_kept | apply Tile.modQueue_legal
        | apply Tile.modSeq_legal | apply Tile.startOp_legal | apply andThen_kept | apply State.readNow_kept
        | apply State.modCluster_kept | apply Kept.ite
    | extract_lets | split | (intro; intros)

theorem scalarOp_kept {a₀ : State} (key : Nat) (t : Nat) (q : Strm) {s : State} (regs : Word → List Nat)
    (f : Seq → Word → Word) (h : Kept a₀ s) :
    KeptOut a₀ (scalarOp key t q s regs f) := by
  unfold scalarOp
  repeat' first
    | with_reducible first
        | assumption | apply tileInsn_kept | apply State.issueSeq_kept | apply Tile.modSeq_legal
    | extract_lets | (intro; intros)

theorem aluOp_kept {a₀ : State} (key : Nat) (t : Nat) (q : Strm) {s : State} (f : Word → Word → Word) (h : Kept a₀ s) :
    KeptOut a₀ (aluOp key t q s f) := by
  unfold aluOp
  repeat' first
    | with_reducible first
        | assumption | apply scalarOp_kept

theorem execShl_kept {a₀ : State} (t : Nat) (q : Strm) {s : State} (h : Kept a₀ s) : KeptOut a₀ (execShl t q s) := by
  unfold execShl
  repeat' first
    | with_reducible first
        | assumption | apply aluOp_kept

theorem execArd_kept {a₀ : State} (t : Nat) (q : Strm) {s : State} (h : Kept a₀ s) : KeptOut a₀ (execArd t q s) := by
  unfold execArd
  repeat' first
    | with_reducible first
        | assumption | apply scalarOp_kept

theorem predOp_kept {a₀ : State} (key : Nat) (t : Nat) (q : Strm) {s : State} (regs : Word → List Nat)
    (f : Seq → Word → Bool) (h : Kept a₀ s) :
    KeptOut a₀ (predOp key t q s regs f) := by
  unfold predOp
  repeat' first
    | with_reducible first
        | assumption | apply tileInsn_kept | apply State.issueSeq_kept | apply Tile.modSeq_legal
    | extract_lets | (intro; intros)

theorem execCmpi_kept {a₀ : State} (t : Nat) (q : Strm) {s : State} (h : Kept a₀ s) : KeptOut a₀ (execCmpi t q s) := by
  unfold execCmpi
  repeat' first
    | with_reducible first
        | assumption | apply predOp_kept

theorem execAddi_kept {a₀ : State} (t : Nat) (q : Strm) {s : State} (h : Kept a₀ s) : KeptOut a₀ (execAddi t q s) := by
  unfold execAddi
  repeat' first
    | with_reducible first
        | assumption | apply scalarOp_kept

theorem execMovx_kept {a₀ : State} (t : Nat) (q : Strm) {s : State} (h : Kept a₀ s) : KeptOut a₀ (execMovx t q s) := by
  unfold execMovx
  repeat' first
    | with_reducible first
        | assumption | apply scalarOp_kept

theorem execMin_kept {a₀ : State} (t : Nat) (q : Strm) {s : State} (h : Kept a₀ s) : KeptOut a₀ (execMin t q s) := by
  unfold execMin
  repeat' first
    | with_reducible first
        | assumption | apply aluOp_kept

theorem execSub_kept {a₀ : State} (t : Nat) (q : Strm) {s : State} (h : Kept a₀ s) : KeptOut a₀ (execSub t q s) := by
  unfold execSub
  repeat' first
    | with_reducible first
        | assumption | apply aluOp_kept

theorem execOr_kept {a₀ : State} (t : Nat) (q : Strm) {s : State} (h : Kept a₀ s) : KeptOut a₀ (execOr t q s) := by
  unfold execOr
  repeat' first
    | with_reducible first
        | assumption | apply aluOp_kept

theorem execMax_kept {a₀ : State} (t : Nat) (q : Strm) {s : State} (h : Kept a₀ s) : KeptOut a₀ (execMax t q s) := by
  unfold execMax
  repeat' first
    | with_reducible first
        | assumption | apply aluOp_kept

theorem execAaddi_kept {a₀ : State} (t : Nat) (q : Strm) {s : State} (h : Kept a₀ s) : KeptOut a₀ (execAaddi t q s) := by
  unfold execAaddi
  repeat' first
    | with_reducible first
        | assumption | apply tileInsn_kept | apply State.issueSeq_kept | apply Tile.modSeq_legal
    | extract_lets | (intro; intros)

theorem execShr_kept {a₀ : State} (t : Nat) (q : Strm) {s : State} (h : Kept a₀ s) : KeptOut a₀ (execShr t q s) := by
  unfold execShr
  repeat' first
    | with_reducible first
        | assumption | apply aluOp_kept

theorem execScalarPortComplete_kept {a₀ : State} (t : Nat) {s : State} (h : Kept a₀ s) :
    KeptOut a₀ (execScalarPortComplete t s) := by
  unfold execScalarPortComplete
  repeat' first
    | with_reducible first
        | assumption | apply KeptOut.next | apply KeptOut.fault | apply alongside_kept | apply Tile.modIo_legal
        | apply Tile.dropAcc_legal | apply State.readRows_kept | apply Tile.result_legal | apply State.writeRows_kept
        | apply Tile.unmark_legal | apply State.modTile_kept | refine Kept.of_pair (by assumption) ?_
    | extract_lets | split | (intro; intros)

theorem execMul_kept {a₀ : State} (t : Nat) (q : Strm) {s : State} (h : Kept a₀ s) : KeptOut a₀ (execMul t q s) := by
  unfold execMul
  repeat' first
    | with_reducible first
        | assumption | apply aluOp_kept

theorem execPlog_kept {a₀ : State} (t : Nat) (q : Strm) {s : State} (h : Kept a₀ s) : KeptOut a₀ (execPlog t q s) := by
  unfold execPlog
  repeat' first
    | with_reducible first
        | assumption | apply predOp_kept

theorem execLih_kept {a₀ : State} (t : Nat) (q : Strm) {s : State} (h : Kept a₀ s) : KeptOut a₀ (execLih t q s) := by
  unfold execLih
  repeat' first
    | with_reducible first
        | assumption | apply scalarOp_kept

theorem execXor_kept {a₀ : State} (t : Nat) (q : Strm) {s : State} (h : Kept a₀ s) : KeptOut a₀ (execXor t q s) := by
  unfold execXor
  repeat' first
    | with_reducible first
        | assumption | apply aluOp_kept

theorem execLi_kept {a₀ : State} (t : Nat) (q : Strm) {s : State} (h : Kept a₀ s) : KeptOut a₀ (execLi t q s) := by
  unfold execLi
  repeat' first
    | with_reducible first
        | assumption | apply scalarOp_kept

theorem execAmov_kept {a₀ : State} (t : Nat) (q : Strm) {s : State} (h : Kept a₀ s) : KeptOut a₀ (execAmov t q s) := by
  unfold execAmov
  repeat' first
    | with_reducible first
        | assumption | apply tileInsn_kept | apply State.issueSeq_kept | apply Tile.modSeq_legal
    | extract_lets | (intro; intros)

theorem execSts_kept {a₀ : State} (t : Nat) (q : Strm) {s : State} (h : Kept a₀ s) : KeptOut a₀ (execSts t q s) := by
  unfold execSts
  repeat' first
    | with_reducible first
        | assumption | apply tileInsn_kept | apply State.rowCheck_kept | apply State.readNow_kept | apply State.issueSeq_kept
        | apply Tile.modIo_legal | apply Tile.startOp_legal | apply State.addAccs_kept | refine Kept.of_pair (by assumption) ?_
    | extract_lets | split | (intro; intros)

theorem execAnd_kept {a₀ : State} (t : Nat) (q : Strm) {s : State} (h : Kept a₀ s) : KeptOut a₀ (execAnd t q s) := by
  unfold execAnd
  repeat' first
    | with_reducible first
        | assumption | apply aluOp_kept

theorem execCmp_kept {a₀ : State} (t : Nat) (q : Strm) {s : State} (h : Kept a₀ s) : KeptOut a₀ (execCmp t q s) := by
  unfold execCmp
  repeat' first
    | with_reducible first
        | assumption | apply predOp_kept

theorem execSar_kept {a₀ : State} (t : Nat) (q : Strm) {s : State} (h : Kept a₀ s) : KeptOut a₀ (execSar t q s) := by
  unfold execSar
  repeat' first
    | with_reducible first
        | assumption | apply aluOp_kept

theorem execLds_kept {a₀ : State} (t : Nat) (q : Strm) {s : State} (h : Kept a₀ s) : KeptOut a₀ (execLds t q s) := by
  unfold execLds
  repeat' first
    | with_reducible first
        | assumption | apply tileInsn_kept | apply State.rowCheck_kept | apply State.issueSeq_kept | apply Tile.modSeq_legal
        | apply Tile.modIo_legal | apply Tile.startOp_legal | apply State.addAccs_kept
    | extract_lets | split | (intro; intros)

theorem execAdd_kept {a₀ : State} (t : Nat) (q : Strm) {s : State} (h : Kept a₀ s) : KeptOut a₀ (execAdd t q s) := by
  unfold execAdd
  repeat' first
    | with_reducible first
        | assumption | apply aluOp_kept

theorem Tile.noteLate_legal (x : Tile) (q : Strm) (m : Word) (hx : x.Legal) : (Tile.noteLate x q m).Legal := by
  unfold Tile.noteLate
  repeat' first
    | with_reducible first
        | assumption | apply Tile.count_legal | apply Tile.modIo_legal

theorem execPwait_kept {a₀ : State} (t : Nat) (q : Strm) {s : State} (h : Kept a₀ s) : KeptOut a₀ (execPwait t q s) := by
  unfold execPwait
  repeat' first
    | with_reducible first
        | assumption | apply tileInsn_kept | apply State.stall_kept | apply Tile.noteLate_legal | apply State.issueSeq_kept
        | apply State.modTile_kept | apply Kept.ite
    | extract_lets | assumption | (intro; intros)

theorem State.branchTo_kept {a₀ s : State} (i : Site) (next : BitVec 13) (f : Tile → Tile)
    (h : Kept a₀ s) (hf : ∀ x, x.Legal → (f x).Legal) :
    Kept a₀ (State.branchTo s i next f) := by
  unfold State.branchTo
  repeat' first
    | with_reducible first
        | assumption | apply State.countTile_kept | apply State.issueWith_kept

theorem execCall_kept {a₀ : State} (t : Nat) (q : Strm) {s : State} (h : Kept a₀ s) : KeptOut a₀ (execCall t q s) := by
  unfold execCall
  repeat' first
    | with_reducible first
        | assumption | apply tileInsn_kept | apply State.branchTo_kept | apply Tile.modSeq_legal
    | extract_lets | (intro; intros)

theorem execBr_kept {a₀ : State} (t : Nat) (q : Strm) {s : State} (h : Kept a₀ s) : KeptOut a₀ (execBr t q s) := by
  unfold execBr
  repeat' first
    | with_reducible first
        | assumption | apply tileInsn_kept | apply State.branchTo_kept
    | extract_lets | assumption | (intro; intros)

theorem execMwait_kept {a₀ : State} (t : Nat) (q : Strm) {s : State} (h : Kept a₀ s) : KeptOut a₀ (execMwait t q s) := by
  unfold execMwait
  repeat' first
    | with_reducible first
        | assumption | apply tileInsn_kept | apply State.issueSeq_kept | apply State.stall_kept | apply Kept.ite
    | extract_lets | assumption | (intro; intros)

theorem execSync_kept {a₀ : State} (t : Nat) (q : Strm) {s : State} (h : Kept a₀ s) : KeptOut a₀ (execSync t q s) := by
  unfold execSync
  repeat' first
    | with_reducible first
        | assumption | apply tileInsn_kept | apply State.arrive_kept | apply State.issueSeq_kept | apply Tile.modSeq_legal
        | apply Tile.biasStep_legal | apply State.stall_kept | apply Kept.ite
    | extract_lets | split | (intro; intros)

theorem execBri_kept {a₀ : State} (t : Nat) (q : Strm) {s : State} (h : Kept a₀ s) : KeptOut a₀ (execBri t q s) := by
  unfold execBri
  repeat' first
    | with_reducible first
        | assumption | apply tileInsn_kept | apply State.branchTo_kept
    | extract_lets | assumption | (intro; intros)

theorem execNop_kept {a₀ : State} (t : Nat) (q : Strm) {s : State} (h : Kept a₀ s) : KeptOut a₀ (execNop t q s) := by
  unfold execNop
  repeat' first
    | with_reducible first
        | assumption | apply tileInsn_kept | apply State.issueSeq_kept
    | extract_lets | assumption | (intro; intros)

theorem execBrk_kept {a₀ : State} (t : Nat) (q : Strm) {s : State} (h : Kept a₀ s) : KeptOut a₀ (execBrk t q s) := by
  unfold execBrk
  repeat' first
    | with_reducible first
        | assumption | apply tileInsn_kept | apply State.issueSeq_kept | apply Tile.haltBy_legal | apply State.debugEvent_kept
        | apply State.modTile_kept | apply Kept.ite
    | extract_lets | assumption | (intro; intros)

theorem execRet_kept {a₀ : State} (t : Nat) (q : Strm) {s : State} (h : Kept a₀ s) : KeptOut a₀ (execRet t q s) := by
  unfold execRet
  repeat' first
    | with_reducible first
        | assumption | apply tileInsn_kept | apply State.branchTo_kept
    | extract_lets | assumption | (intro; intros)

theorem State.startUpd_kept {a₀ s : State} (t : Nat) (h : Kept a₀ s) : Kept a₀ (State.startUpd s t) := by
  unfold State.startUpd
  repeat' first
    | with_reducible first
        | assumption | apply State.tileFault_kept | apply Tile.modIo_legal | apply State.addAccs_kept
        | apply Tile.dropAcc_legal | apply State.modTile_kept | apply Kept.ite
    | extract_lets | split | (intro; intros)

theorem execUpd_kept {a₀ : State} (t : Nat) (q : Strm) {s : State} (h : Kept a₀ s) : KeptOut a₀ (execUpd t q s) := by
  unfold execUpd
  repeat' first
    | with_reducible first
        | assumption | apply tileInsn_kept | apply State.stall_kept | apply State.issueSeq_kept | apply Tile.modIo_legal
        | apply Tile.startOp_legal | apply State.startUpd_kept | apply State.addAccs_kept | apply Kept.ite
    | extract_lets | (intro; intros)

theorem State.updWrite_kept {a₀ s : State} (c : Acct) (o : Op) (l : List (Nat × Nat × Nat × Bool)) (i : Nat)
    (codes : List Nat) (h : Kept a₀ s) :
    Kept a₀ (State.updWrite s c o l i codes) := by
  unfold State.updWrite
  repeat' first
    | with_reducible first
        | assumption | apply State.writeRows_kept
    | split

theorem coefOp_kept {a₀ : State} (key : Nat) (wr : Bool) (t : Nat) (q : Strm) {s : State} (h : Kept a₀ s) :
    KeptOut a₀ (coefOp key wr t q s) := by
  unfold coefOp
  repeat' first
    | with_reducible first
        | assumption | apply tileInsn_kept | apply State.stall_kept | apply State.rowCheck_kept | apply State.issueSeq_kept
        | apply Tile.modIo_legal | apply Tile.startOp_legal | apply State.addAccs_kept | apply Kept.ite
    | extract_lets | (intro; intros)

theorem execCtr_kept {a₀ : State} (t : Nat) (q : Strm) {s : State} (h : Kept a₀ s) : KeptOut a₀ (execCtr t q s) := by
  unfold execCtr
  repeat' first
    | with_reducible first
        | assumption | apply coefOp_kept

theorem State.ctwEnd_kept {a₀ s : State} (t : Nat) (o : Op) (h : Kept a₀ s) : Kept a₀ (State.ctwEnd s t o) := by
  unfold State.ctwEnd
  repeat' first
    | with_reducible first
        | assumption | apply andThen_kept | apply State.opRead_kept | apply State.vecDone_kept | apply State.modTile_kept
    | extract_lets | assumption | (intro; intros)

theorem State.ctrEnd_kept {a₀ s : State} (t : Nat) (o : Op) (h : Kept a₀ s) : Kept a₀ (State.ctrEnd s t o) := by
  unfold State.ctrEnd
  repeat' first
    | with_reducible first
        | assumption | apply State.tileFault_kept | apply andThen_kept | apply State.readRows_kept | apply State.vecDone_kept
        | apply State.opWrite_kept
    | extract_lets | split | (intro; intros)

theorem execCtw_kept {a₀ : State} (t : Nat) (q : Strm) {s : State} (h : Kept a₀ s) : KeptOut a₀ (execCtw t q s) := by
  unfold execCtw
  repeat' first
    | with_reducible first
        | assumption | apply coefOp_kept

theorem State.updRead_kept {a₀ s : State} (c : Acct) (o : Op) (l : List (Nat × Nat × Nat × Bool)) (i : Nat) (bias : ℤ)
    (h : Kept a₀ s) :
    Kept a₀ (State.updRead s c o l i bias).1 := by
  unfold State.updRead
  repeat' first
    | with_reducible first
        | assumption | apply State.readRows_kept
    | extract_lets | split

theorem State.updEnd_kept {a₀ s : State} (t : Nat) (o : Op) (h : Kept a₀ s) : Kept a₀ (State.updEnd s t o) := by
  unfold State.updEnd
  repeat' first
    | with_reducible first
        | assumption | apply andThen_kept | apply State.updRead_kept | apply State.updWrite_kept | apply State.vecDone_kept
        | apply Tile.count_legal | apply Tile.countEvs_legal | apply State.modTile_kept
    | extract_lets | assumption | split | (intro; intros)

theorem execVectorOpComplete_kept {a₀ : State} (t : Nat) {s : State} (h : Kept a₀ s) :
    KeptOut a₀ (execVectorOpComplete t s) := by
  unfold execVectorOpComplete
  repeat' first
    | with_reducible first
        | assumption | apply KeptOut.next | apply KeptOut.fault | apply alongside_kept | apply State.startUpd_kept
        | apply State.updEnd_kept | apply State.ctwEnd_kept | apply State.ctrEnd_kept | apply State.vecEnd_kept
    | extract_lets | split | (intro; intros)

theorem State.tollRequest_kept {a₀ s : State} (t : Nat) (h : Kept a₀ s) : Kept a₀ (State.tollRequest s t) := by
  unfold State.tollRequest
  repeat' first
    | with_reducible first
        | assumption | apply State.nextCycle_kept | apply State.modTile_kept | apply Kept.ite
    | extract_lets | assumption | split | (intro; intros)

theorem Tile.setSbuf_legal (x : Tile) (b : Nat) (v : StatBuf) (hx : x.Legal) : (Tile.setSbuf x b v).Legal := by
  unfold Tile.setSbuf
  repeat' first
    | with_reducible first
        | apply Tile.Legal.ite
    | extract_lets | assumption

theorem arrOp_kept {a₀ : State} (key : Nat) (t : Nat) (q : Strm) {s : State} (h : Kept a₀ s) :
    KeptOut a₀ (arrOp key t q s) := by
  unfold arrOp
  repeat' first
    | with_reducible first
        | assumption | apply tileInsn_kept | apply State.stall_kept | apply State.rowCheck_kept | apply State.addAccs_kept
        | apply State.issueSeq_kept | apply Tile.modIo_legal | apply Tile.startOp_legal | apply Kept.ite
    | extract_lets | (intro; intros)

theorem execApreBias_kept {a₀ : State} (t : Nat) (q : Strm) {s : State} (h : Kept a₀ s) :
    KeptOut a₀ (execApreBias t q s) := by
  unfold execApreBias
  repeat' first
    | with_reducible first
        | assumption | apply arrOp_kept

theorem execApreResid_kept {a₀ : State} (t : Nat) (q : Strm) {s : State} (h : Kept a₀ s) :
    KeptOut a₀ (execApreResid t q s) := by
  unfold execApreResid
  repeat' first
    | with_reducible first
        | assumption | apply arrOp_kept

theorem Tile.sealGroups_legal (x : Tile) (d : Nat) (rows : List Byte) (racy : List Nat) (hx : x.Legal) :
    (Tile.sealGroups x d rows racy).Legal := by
  unfold Tile.sealGroups
  repeat' first
    | with_reducible first
        | assumption | apply Tile.modMisc_legal | apply foldl_legal
    | extract_lets | (intro; intros)

theorem State.arrDone_kept {a₀ s : State} (t : Nat) (o : Op) (h : Kept a₀ s) : Kept a₀ (State.arrDone s t o) := by
  unfold State.arrDone
  repeat' first
    | with_reducible first
        | assumption | apply Tile.modIo_legal | apply Tile.count_legal | apply Tile.unmark_legal | apply Tile.dropAcc_legal
        | apply State.modTile_kept | apply State.modCluster_kept
    | extract_lets | (intro; intros)

theorem State.apreEnd_kept {a₀ s : State} (c : Acct) (o : Op) (h : Kept a₀ s) : Kept a₀ (State.apreEnd s c o) := by
  unfold State.apreEnd
  repeat' first
    | with_reducible first
        | assumption | apply State.arrDone_kept | apply Tile.writeAm_legal | apply andThen_kept | apply State.opRead_kept
        | apply State.modTile_kept
    | extract_lets | split | (intro; intros)

theorem execAdrn_kept {a₀ : State} (t : Nat) (q : Strm) {s : State} (h : Kept a₀ s) : KeptOut a₀ (execAdrn t q s) := by
  unfold execAdrn
  repeat' first
    | with_reducible first
        | assumption | apply arrOp_kept

theorem State.aldEnd_kept {a₀ s : State} (c : Acct) (o : Op) (h : Kept a₀ s) : Kept a₀ (State.aldEnd s c o) := by
  unfold State.aldEnd
  repeat' first
    | with_reducible first
        | assumption | apply andThen_kept | apply State.opRead_kept | apply State.arrDone_kept | apply Tile.setSbuf_legal
        | apply State.modTile_kept
    | extract_lets | split | (intro; intros)

theorem State.tollRefused_kept {a₀ s : State} (t : Nat) (h : Kept a₀ s) : Kept a₀ (State.tollRefused s t) := by
  unfold State.tollRefused
  repeat' first
    | with_reducible first
        | assumption | apply State.countTile_kept | apply State.countCluster_kept | apply State.modCluster_kept
        | apply Kept.ite

theorem execTollGrant_kept {a₀ : State} (t : Nat) {s : State} (h : Kept a₀ s) : KeptOut a₀ (execTollGrant t s) := by
  unfold execTollGrant
  repeat' first
    | with_reducible first
        | assumption | apply KeptOut.next | apply KeptOut.fault | apply alongside_kept | apply State.tollRequest_kept
        | apply Tile.modIo_legal | apply State.tileFault_kept | apply State.tollRefused_kept | apply State.modTile_kept
        | apply State.modCluster_kept
    | extract_lets | assumption | split | (intro; intros)

theorem execApreZero_kept {a₀ : State} (t : Nat) (q : Strm) {s : State} (h : Kept a₀ s) :
    KeptOut a₀ (execApreZero t q s) := by
  unfold execApreZero
  repeat' first
    | with_reducible first
        | assumption | apply arrOp_kept

theorem State.amacEnd_kept {a₀ s : State} (c : Acct) (o : Op) (h : Kept a₀ s) : Kept a₀ (State.amacEnd s c o) := by
  unfold State.amacEnd
  repeat' first
    | with_reducible first
        | assumption | apply State.tileFault_kept | apply andThen_kept | apply State.opRead_kept | apply State.opReadAm_kept
        | apply State.arrDone_kept | apply Tile.writeAm_legal | apply Tile.count_legal | apply State.took_kept
        | apply State.modTile_kept
    | extract_lets | split | (intro; intros)

theorem State.adrnEnd_kept {a₀ s : State} (c : Acct) (o : Op) (h : Kept a₀ s) : Kept a₀ (State.adrnEnd s c o) := by
  unfold State.adrnEnd
  repeat' first
    | with_reducible first
        | assumption | apply andThen_kept | apply State.opReadAm_kept | apply State.opWrite_kept | apply Tile.writeAm_legal
        | apply Tile.modMisc_legal | apply Tile.sealGroups_legal | apply Tile.countEvs_legal | apply State.arrDone_kept
        | apply State.modTile_kept
    | extract_lets | split | (intro; intros)

theorem execArrayOpComplete_kept {a₀ : State} (t : Nat) (i : Nat) {s : State} (h : Kept a₀ s) :
    KeptOut a₀ (execArrayOpComplete t i s) := by
  unfold execArrayOpComplete
  repeat' first
    | with_reducible first
        | assumption | apply KeptOut.next | apply KeptOut.fault | apply alongside_kept | apply State.aldEnd_kept
        | apply State.amacEnd_kept | apply State.apreEnd_kept | apply State.adrnEnd_kept
    | extract_lets | split | (intro; intros)

theorem execAld_kept {a₀ : State} (t : Nat) (q : Strm) {s : State} (h : Kept a₀ s) : KeptOut a₀ (execAld t q s) := by
  unfold execAld
  repeat' first
    | with_reducible first
        | assumption | apply arrOp_kept

theorem execAmac_kept {a₀ : State} (t : Nat) (q : Strm) {s : State} (h : Kept a₀ s) : KeptOut a₀ (execAmac t q s) := by
  unfold execAmac
  repeat' first
    | with_reducible first
        | assumption | apply arrOp_kept

theorem State.routeEntry_kept {a₀ s : State} (c : Acct) (e : Nat) (h : Kept a₀ s) : Kept a₀ (State.routeEntry s c e).1 := by
  unfold State.routeEntry
  repeat' first
    | with_reducible first
        | assumption | apply State.readNow_kept

theorem xsendOp_kept {a₀ : State} (key : Nat) (kind : Nat) (t : Nat) {s : State} (h : Kept a₀ s) :
    KeptOut a₀ (xsendOp key kind t s) := by
  unfold xsendOp
  repeat' first
    | with_reducible first
        | assumption | apply tileInsn_kept | apply State.stall_kept | apply andThen_kept | apply State.routeEntry_kept
        | apply State.tileFault_kept | apply State.rowCheck_kept | apply State.issueSeq_kept | apply Tile.modIo_legal
        | apply Tile.startOp_legal | apply Tile.modMisc_legal | apply State.addAccs_kept | apply Kept.ite
    | extract_lets | split | (intro; intros)

theorem execXsend_kept {a₀ : State} (t : Nat) {s : State} (h : Kept a₀ s) : KeptOut a₀ (execXsend t s) := by
  unfold execXsend
  repeat' first
    | with_reducible first
        | assumption | apply xsendOp_kept

theorem execOverrunLimitExpiry_kept {a₀ : State} (t : Nat) {s : State} (h : Kept a₀ s) :
    KeptOut a₀ (execOverrunLimitExpiry t s) := by
  unfold execOverrunLimitExpiry
  repeat' first
    | with_reducible first
        | assumption | apply KeptOut.next | apply KeptOut.fault | apply alongside_kept | apply State.tileFault_kept
    | extract_lets | split | (intro; intros)

theorem State.meshCrc_kept {a₀ s : State} (m : MeshErr) (h : Kept a₀ s) : Kept a₀ (State.meshCrc s m) := by
  unfold State.meshCrc
  repeat' first
    | with_reducible first
        | assumption | apply State.evidence_kept | apply State.regionFault_kept | apply State.fenceDecide_kept | apply Kept.ite

theorem State.sendPkt_kept {a₀ s : State} (k : List Word) (p : Pkt) (h : Kept a₀ s) : Kept a₀ (State.sendPkt s k p) := by
  unfold State.sendPkt
  repeat' first
    | with_reducible first
        | assumption | apply State.linkRoute_kept | apply State.modNet_kept | apply Kept.ite

theorem State.hazard_kept {a₀ s : State} (t : Nat) (kind : Nat) (detail : Nat) (h : Kept a₀ s) :
    Kept a₀ (State.hazard s t kind detail) := by
  unfold State.hazard
  repeat' first
    | with_reducible first
        | assumption | apply State.tileFault_kept | apply Kept.ite

theorem execXwait_kept {a₀ : State} (t : Nat) {s : State} (h : Kept a₀ s) : KeptOut a₀ (execXwait t s) := by
  unfold execXwait
  repeat' first
    | with_reducible first
        | assumption | apply tileInsn_kept | apply State.issueSeq_kept | apply State.stall_kept | apply Kept.ite
    | extract_lets | assumption | (intro; intros)

theorem execSyncWdogExpiry_kept {a₀ : State} (t : Nat) (kind : Nat) (q : Strm) {s : State} (h : Kept a₀ s) :
    KeptOut a₀ (execSyncWdogExpiry t kind q s) := by
  unfold execSyncWdogExpiry
  repeat' first
    | with_reducible first
        | assumption | apply KeptOut.next | apply KeptOut.fault | apply State.devFault_kept
    | extract_lets | split

theorem State.dropPkt_kept {a₀ s : State} (i : Nat) (h : Kept a₀ s) : Kept a₀ (State.dropPkt s i) := by
  unfold State.dropPkt
  repeat' first
    | with_reducible first
        | assumption | apply State.modNet_kept

theorem execXnorm_kept {a₀ : State} (t : Nat) {s : State} (h : Kept a₀ s) : KeptOut a₀ (execXnorm t s) := by
  unfold execXnorm
  repeat' first
    | with_reducible first
        | assumption | apply xsendOp_kept

theorem State.xBranch_kept {a₀ s : State} (i : Site) (f : Tile → Tile) (h : Kept a₀ s) (hf : ∀ x, x.Legal → (f x).Legal) :
    Kept a₀ (State.xBranch s i f) := by
  unfold State.xBranch
  repeat' first
    | with_reducible first
        | assumption | apply State.countTile_kept | apply State.issueWith_kept

theorem State.relay_kept {a₀ s : State} (t : Nat) (d : List Byte) (k : Nat) (h : Kept a₀ s) :
    Kept a₀ (State.relay s t d k) := by
  unfold State.relay
  repeat' first
    | with_reducible first
        | assumption | apply State.tileFault_kept | apply andThen_kept | apply State.routeEntry_kept | apply State.sendPkt_kept
        | apply Tile.modXs_legal | apply State.modTile_kept | apply Kept.ite
    | extract_lets | split | (intro; intros)

theorem State.contribute_kept {a₀ s : State} (i : Nat) (p : Pkt) (h : Kept a₀ s) : Kept a₀ (State.contribute s i p) := by
  unfold State.contribute
  repeat' first
    | with_reducible first
        | assumption | apply State.dropPkt_kept | apply State.tileFault_kept | apply State.hazard_kept | apply Tile.count_legal
        | apply Tile.modXs_legal | apply State.modTile_kept | apply Kept.ite
    | extract_lets | split | (intro; intros)

theorem execContributionArrival_kept {a₀ : State} (i : Nat) {s : State} (h : Kept a₀ s) :
    KeptOut a₀ (execContributionArrival i s) := by
  unfold execContributionArrival
  repeat' first
    | with_reducible first
        | assumption | apply KeptOut.next | apply alongside_kept | apply State.contribute_kept
    | extract_lets | split | (intro; intros)

theorem State.sentCheck_kept {a₀ s : State} (t : Nat) (lo : Nat) (n : Nat) (h : Kept a₀ s) :
    Kept a₀ (State.sentCheck s t lo n) := by
  unfold State.sentCheck
  repeat' first
    | with_reducible first
        | assumption | apply State.hazard_kept
    | split

theorem State.xsendEnd_kept {a₀ s : State} (t : Nat) (o : Op) (h : Kept a₀ s) : Kept a₀ (State.xsendEnd s t o) := by
  unfold State.xsendEnd
  repeat' first
    | with_reducible first
        | assumption | apply Tile.modXs_legal | apply Tile.modIo_legal | apply Tile.dropAcc_legal | apply State.checkPart_kept
        | apply State.sendPkt_kept | apply andThen_kept | apply State.opRead_kept | apply State.sentCheck_kept
        | apply State.modTile_kept | apply foldl_kept | apply Kept.ite
    | extract_lets | split | (intro; intros)

theorem execXsetl_kept {a₀ : State} (t : Nat) {s : State} (h : Kept a₀ s) : KeptOut a₀ (execXsetl t s) := by
  unfold execXsetl
  repeat' first
    | with_reducible first
        | assumption | apply tileInsn_kept | apply State.issueSeq_kept | apply Tile.modX_legal
    | extract_lets | (intro; intros)

theorem execXloop_kept {a₀ : State} (t : Nat) {s : State} (h : Kept a₀ s) : KeptOut a₀ (execXloop t s) := by
  unfold execXloop
  repeat' first
    | with_reducible first
        | assumption | apply tileInsn_kept | apply State.issueSeq_kept | apply State.xBranch_kept | apply Tile.modX_legal
        | apply Kept.ite
    | extract_lets | assumption | (intro; intros)

theorem State.landRow_kept {a₀ s : State} (t : Nat) (row : Nat) (key : List Nat) (p : Pkt) (h : Kept a₀ s) :
    Kept a₀ (State.landRow s t row key p) := by
  unfold State.landRow
  repeat' first
    | with_reducible first
        | assumption | apply State.addRecv_kept | apply State.writeNow_kept | apply Tile.modXs_legal | apply State.hazard_kept
        | apply State.checkPart_kept | apply Tile.modMisc_legal | apply State.tileFault_kept | apply State.modTile_kept
        | apply State.took_kept | apply Kept.ite
    | extract_lets | assumption | split | (intro; intros)

theorem State.meetOut_kept {a₀ s : State} (t : Nat) (r0 : Nat) (m : MeetRow) (outs : List Blk) (h : Kept a₀ s) :
    Kept a₀ (State.meetOut s t r0 m outs) := by
  unfold State.meetOut
  repeat' first
    | with_reducible first
        | assumption | apply Tile.modXs_legal | apply State.took_kept | apply State.modTile_kept
    | extract_lets | (intro; intros)

theorem State.meetSend_kept {a₀ s : State} (t : Nat) (m : MeetRow) (h : Kept a₀ s) : Kept a₀ (State.meetSend s t m) := by
  unfold State.meetSend
  repeat' first
    | with_reducible first
        | assumption | apply State.tileFault_kept | apply State.checkPart_kept | apply State.landRow_kept
        | apply State.meetOut_kept | apply andThen_kept | apply State.routeEntry_kept | apply State.sendPkt_kept
        | apply Kept.ite
    | extract_lets | split | (intro; intros)

theorem execMeetResultOutput_kept {a₀ : State} (t : Nat) (e : Nat) (rix : Nat) {s : State} (h : Kept a₀ s) :
    KeptOut a₀ (execMeetResultOutput t e rix s) := by
  unfold execMeetResultOutput
  repeat' first
    | with_reducible first
        | assumption | apply KeptOut.next | apply KeptOut.fault | apply alongside_kept | apply State.tileFault_kept
        | apply State.meetSend_kept
    | extract_lets | split | (intro; intros)

theorem execNormDelivery_kept {a₀ : State} (i : Nat) {s : State} (h : Kept a₀ s) : KeptOut a₀ (execNormDelivery i s) := by
  unfold execNormDelivery
  repeat' first
    | with_reducible first
        | assumption | apply KeptOut.next | apply alongside_kept | apply State.dropPkt_kept | apply State.tileFault_kept
        | apply State.addRecv_kept | apply Tile.modXs_legal | apply Tile.modMisc_legal | apply State.checkPart_kept
        | apply State.relay_kept | apply State.took_kept | apply State.modTile_kept | apply foldl_kept
    | extract_lets | split | (intro; intros)

theorem execStaleFetchReport_kept {a₀ : State} (t : Nat) (row : Nat) {s : State} (h : Kept a₀ s) :
    KeptOut a₀ (execStaleFetchReport t row s) := by
  unfold execStaleFetchReport
  repeat' first
    | with_reducible first
        | assumption | apply KeptOut.next | apply KeptOut.fault | apply Tile.modMisc_legal | apply State.tileFault_kept
        | apply State.modTile_kept
    | extract_lets | split | (intro; intros)

theorem execXrsend_kept {a₀ : State} (t : Nat) {s : State} (h : Kept a₀ s) : KeptOut a₀ (execXrsend t s) := by
  unfold execXrsend
  repeat' first
    | with_reducible first
        | assumption | apply xsendOp_kept

theorem execExchangeLanding_kept {a₀ : State} (i : Nat) (e : Option MeshErr) {s : State} (h : Kept a₀ s) :
    KeptOut a₀ (execExchangeLanding i e s) := by
  unfold execExchangeLanding
  repeat' first
    | with_reducible first
        | assumption | apply KeptOut.next | apply State.meshCrc_kept | apply State.dropPkt_kept | apply alongside_kept
        | apply State.landRow_kept
    | extract_lets | split | (intro; intros)

theorem execXend_kept {a₀ : State} (t : Nat) {s : State} (h : Kept a₀ s) : KeptOut a₀ (execXend t s) := by
  unfold execXend
  repeat' first
    | with_reducible first
        | assumption | apply tileInsn_kept | apply State.tileFault_kept | apply State.checkPart_kept
        | apply State.issueSeq_kept | apply Tile.modX_legal | apply State.stall_kept | apply Kept.ite
    | extract_lets | (intro; intros)

theorem execSendComplete_kept {a₀ : State} (t : Nat) {s : State} (h : Kept a₀ s) : KeptOut a₀ (execSendComplete t s) := by
  unfold execSendComplete
  repeat' first
    | with_reducible first
        | assumption | apply KeptOut.next | apply KeptOut.fault | apply alongside_kept | apply State.sendEnd_kept
        | apply State.xsendEnd_kept
    | extract_lets | split | (intro; intros)

theorem execXbr_kept {a₀ : State} (t : Nat) {s : State} (h : Kept a₀ s) : KeptOut a₀ (execXbr t s) := by
  unfold execXbr
  repeat' first
    | with_reducible first
        | assumption | apply tileInsn_kept | apply State.xBranch_kept
    | extract_lets | assumption | (intro; intros)

theorem execXnop_kept {a₀ : State} (t : Nat) {s : State} (h : Kept a₀ s) : KeptOut a₀ (execXnop t s) := by
  unfold execXnop
  repeat' first
    | with_reducible first
        | assumption | apply tileInsn_kept | apply State.issueSeq_kept
    | extract_lets | assumption | (intro; intros)

theorem Tile.toExchange_legal (x : Tile) (now : Nat) (hx : x.Legal) : (Tile.toExchange x now).Legal := by
  unfold Tile.toExchange
  repeat' first
    | with_reducible first
        | assumption | apply Tile.Legal.ite
    | extract_lets | exact ⟨Nat.le_of_ble_eq_true rfl, Nat.le_of_ble_eq_true rfl⟩

theorem execArrivalWaveRelease_kept {a₀ s : State} (h : Kept a₀ s) : KeptOut a₀ (execArrivalWaveRelease s) := by
  unfold execArrivalWaveRelease
  repeat' first
    | with_reducible first
        | assumption | apply KeptOut.next | apply State.sendAlong_kept | apply Tile.toExchange_legal
        | apply State.doneReport_kept | apply State.checkPart_kept | apply State.modJob_kept | apply State.forAll_kept
        | apply State.modPower_kept | apply State.modTile_kept
    | extract_lets | exact id | split | (intro; intros)

theorem Tile.endPhase_legal (x : Tile) (sstep : Nat) (hx : x.Legal) : (Tile.endPhase x sstep).Legal := by
  unfold Tile.endPhase
  repeat' first
    | with_reducible first
        | apply Tile.modXs_legal | apply Tile.modX_legal
    | extract_lets | assumption

theorem execBallastRampStep_kept {a₀ : State} (r : Nat) {s : State} (h : Kept a₀ s) :
    KeptOut a₀ (execBallastRampStep r s) := by
  unfold execBallastRampStep
  repeat' first
    | with_reducible first
        | assumption | apply KeptOut.next | apply KeptOut.fault | apply Tile.modMisc_legal | apply State.backToCompute_kept
        | apply State.forAll_kept | apply State.modTile_kept | apply Tile.Legal.ite
    | extract_lets | split | (intro; intros)

theorem execBallastQuantum_kept {a₀ : State} (t : Nat) (bad : Option Nat) {s : State} (h : Kept a₀ s) :
    KeptOut a₀ (execBallastQuantum t bad s) := by
  unfold execBallastQuantum
  repeat' first
    | with_reducible first
        | assumption | apply KeptOut.next | apply KeptOut.fault | apply Tile.modMisc_legal | apply State.tileFault_kept
        | apply State.backToCompute_kept | apply State.modTile_kept | apply foldl_kept
    | extract_lets | split | (intro; intros)

theorem State.advanceEpoch_kept {a₀ s : State} (n : Nat) (h : Kept a₀ s) : Kept a₀ (State.advanceEpoch s n) := by
  unfold State.advanceEpoch
  repeat' first
    | with_reducible first
        | assumption | apply State.devFault_kept | apply State.modJob_kept | apply Kept.ite
    | extract_lets | exact id

theorem execDoneWaveRelease_kept {a₀ s : State} (h : Kept a₀ s) : KeptOut a₀ (execDoneWaveRelease s) := by
  unfold execDoneWaveRelease
  repeat' first
    | with_reducible first
        | assumption | apply KeptOut.next | apply State.sendAlong_kept | apply Tile.endPhase_legal | apply State.updateRun_kept
        | apply State.advanceEpoch_kept | apply State.writeBacking_kept | apply State.atBoundary_kept | apply State.modJob_kept
        | apply State.forAll_kept | apply State.modTile_kept | apply State.modPower_kept | apply State.modStow_kept
        | apply Kept.ite
    | extract_lets | exact id | split | (intro; intros)

end Sys2Proof.Machine
end

