-- ==== Sys2Proof/Laws/KeptLink.lean ====
section
/-! SUPPORT. One lemma for each operation: what fix, the links and the mailbox keep (Laws/Kept.lean). -/

namespace Sys2Proof.Machine

theorem State.latch_kept {a₀ s : State} (src : Nat) (tick : Nat) (late : Bool) (h : Kept a₀ s) :
    Kept a₀ (State.latch s src tick late) := by
  unfold State.latch
  repeat' first
    | with_reducible first
        | assumption | apply State.modDbg_kept | apply State.took_kept

theorem State.fixIn_kept {a₀ s : State} (p : Nat) (pay : Nat) (fault : Bool) (h : Kept a₀ s) :
    Kept a₀ (State.fixIn s p pay fault) := by
  unfold State.fixIn
  repeat' first
    | with_reducible first
        | assumption | apply State.sendAlong_kept | apply State.latch_kept | apply State.modDbg_kept | apply Kept.ite

theorem execFixTimeTrigger_kept {a₀ s : State} (h : Kept a₀ s) : KeptOut a₀ (execFixTimeTrigger s) := by
  unfold execFixTimeTrigger
  repeat' first
    | with_reducible first
        | assumption | apply KeptOut.next | apply State.modDbg_kept
    | extract_lets | split

theorem execFixCopyDone_kept {a₀ s : State} (h : Kept a₀ s) : KeptOut a₀ (execFixCopyDone s) := by
  unfold execFixCopyDone
  repeat' first
    | with_reducible first
        | assumption | apply KeptOut.next | apply State.raiseMsi_kept | apply State.modDbg_kept
    | split

theorem execFixTrigEdge_kept {a₀ s : State} (h : Kept a₀ s) : KeptOut a₀ (execFixTrigEdge s) := by
  unfold execFixTrigEdge
  repeat' first
    | with_reducible first
        | assumption | apply KeptOut.next | apply State.fixTrigger_kept

theorem execFixLatch_kept {a₀ s : State} (h : Kept a₀ s) : KeptOut a₀ (execFixLatch s) := by
  unfold execFixLatch
  repeat' first
    | with_reducible first
        | assumption | apply KeptOut.next | apply State.latch_kept
    | split

theorem State.loadTx_kept {a₀ s : State} (p : Nat) (h : Kept a₀ s) : Kept a₀ (State.loadTx s p) := by
  unfold State.loadTx
  repeat' first
    | with_reducible first
        | assumption | apply State.modPort_kept | apply State.modNet_kept
    | extract_lets | (intro; intros)

theorem State.llynSend_kept {a₀ s : State} (p : Nat) (h : Kept a₀ s) : Kept a₀ (State.llynSend s p) := by
  unfold State.llynSend
  repeat' first
    | with_reducible first
        | assumption | apply State.countPort_kept | apply State.loadTx_kept | apply State.modPort_kept | apply State.took_kept
        | apply State.modStow_kept | apply Kept.ite
    | extract_lets | split | (intro; intros)

theorem State.refuseIn_kept {a₀ s : State} (p : Nat) (h : Kept a₀ s) : Kept a₀ (State.refuseIn s p) := by
  unfold State.refuseIn
  repeat' first
    | with_reducible first
        | assumption | apply State.tileFault_kept

theorem Port.dropped_st (x : Port) (st : Nat) (reason : Nat) (h : st ≤ 6) : (Port.dropped x st reason).st ≤ 6 := h

theorem State.stowFail_kept {a₀ s : State} (reason : Nat) (h : Kept a₀ s) : Kept a₀ (State.stowFail s reason) := by
  unfold State.stowFail
  repeat' first
    | with_reducible first
        | assumption | apply State.devFault_kept | apply State.event_kept | apply State.modStow_kept | apply Kept.ite

theorem State.stowCheck_kept {a₀ s : State} (h : Kept a₀ s) : Kept a₀ (State.stowCheck s) := by
  unfold State.stowCheck
  repeat' first
    | with_reducible first
        | assumption | apply State.stowFail_kept | apply Kept.ite

theorem State.measure_kept {a₀ s : State} (p : Nat) (h : Kept a₀ s) : Kept a₀ (State.measure s p) := by
  unfold State.measure
  repeat' first
    | with_reducible first
        | assumption | apply State.took_kept | apply State.modJob_kept | apply Kept.ite
    | extract_lets | exact id

theorem State.reroute_kept {a₀ s : State} (p : Nat) (h : Kept a₀ s) : Kept a₀ (State.reroute s p) := by
  unfold State.reroute
  repeat' first
    | with_reducible first
        | assumption | apply State.linkRoute_kept | apply State.modPort_kept | apply State.modNet_kept | apply foldl_kept
    | extract_lets | split | (intro; intros)

theorem State.portDown_kept {a₀ s : State} (p : Nat) (reason : Nat) (h : Kept a₀ s) :
    Kept a₀ (State.portDown s p reason) := by
  unfold State.portDown
  repeat' first
    | with_reducible first
        | assumption | apply State.readyFrom_kept | apply State.countPort_kept | apply Port.dropped_st
        | apply State.stowCheck_kept | apply State.measure_kept | apply State.reroute_kept | apply State.devFault_kept
        | apply State.modPort_kept | apply State.modStow_kept | apply Kept.ite | rfl
    | extract_lets | (intro; intros)

theorem execLlynTrainRetry_kept {a₀ : State} (p : Nat) {s : State} (h : Kept a₀ s) : KeptOut a₀ (execLlynTrainRetry p s) := by
  unfold execLlynTrainRetry
  repeat' first
    | with_reducible first
        | assumption | apply KeptOut.next | apply KeptOut.fault | apply State.modPort_kept
    | extract_lets | exact Nat.le_of_ble_eq_true rfl | split | (intro; intros)

theorem execLlynDetectPoll_kept {a₀ : State} (p : Nat) (seen : Bool) {s : State} (h : Kept a₀ s) :
    KeptOut a₀ (execLlynDetectPoll p seen s) := by
  unfold execLlynDetectPoll
  repeat' first
    | with_reducible first
        | assumption | apply KeptOut.next | apply KeptOut.fault | apply State.modPort_kept
    | extract_lets | exact Nat.le_of_ble_eq_true rfl | split | (intro; intros)

theorem State.paramCheck_kept {a₀ s : State} (p : Nat) (h : Kept a₀ s) : Kept a₀ (State.paramCheck s p) := by
  unfold State.paramCheck
  repeat' first
    | with_reducible first
        | assumption | apply State.measure_kept | apply State.readyFrom_kept | apply State.modPower_kept
        | apply State.modPort_kept | apply Kept.ite
    | extract_lets | exact Nat.le_of_ble_eq_true rfl | (intro; intros)

theorem State.linkIn_kept {a₀ s : State} (p : Nat) (idx : Nat) (val : Nat) (h : Kept a₀ s) :
    Kept a₀ (State.linkIn s p idx val) := by
  unfold State.linkIn
  repeat' first
    | with_reducible first
        | assumption | apply State.paramCheck_kept | apply State.modPort_kept | apply Kept.ite
    | extract_lets | assumption | (intro; intros)

theorem Port.alignEnd_st (x : Port) (p : Nat) (hx : x.st ≤ 6) : (Port.alignEnd x p).st ≤ 6 := by
  unfold Port.alignEnd
  repeat' first
    | with_reducible first
        | assumption
    | extract_lets | split

theorem State.alignIn_kept {a₀ s : State} (p : Nat) (recv : Bool) (rpl : Bool) (stamp : Nat) (h : Kept a₀ s) :
    Kept a₀ (State.alignIn s p recv rpl stamp) := by
  unfold State.alignIn
  repeat' first
    | with_reducible first
        | assumption | apply State.paramCheck_kept | apply Port.alignEnd_st | apply State.modPort_kept | apply Kept.ite
    | extract_lets | split | (intro; intros)

theorem State.forwardSym_kept {a₀ s : State} (y : Sym) (h : Kept a₀ s) : Kept a₀ (State.forwardSym s y) := by
  unfold State.forwardSym
  repeat' first
    | with_reducible first
        | assumption | apply State.queueSym_kept
    | split

theorem State.stopIn_kept {a₀ s : State} (p : Nat) (smod : Nat) (code : Nat) (h : Kept a₀ s) :
    Kept a₀ (State.stopIn s p smod code) := by
  unfold State.stopIn
  repeat' first
    | with_reducible first
        | assumption | apply State.devFault_kept | apply Kept.ite

theorem State.symIn_kept {a₀ s : State} (p : Nat) (y : Sym) (rpl : Bool) (fault : Bool) (h : Kept a₀ s) :
    Kept a₀ (State.symIn s p y rpl fault) := by
  unfold State.symIn
  repeat' first
    | with_reducible first
        | assumption | apply State.countPort_kept | apply State.linkIn_kept | apply State.alignIn_kept
        | apply State.forwardSym_kept | apply State.stopIn_kept | apply State.fixIn_kept | apply State.modWave_kept
        | apply Kept.ite

theorem symCmd_kept {a₀ : State} (p : Nat) (y : Sym) (rpl : Bool) (fault : Bool) {s : State} (h : Kept a₀ s) :
    KeptOut a₀ (symCmd p y rpl fault s) := by
  unfold symCmd
  repeat' first
    | with_reducible first
        | assumption | apply KeptOut.next | apply KeptOut.fault | apply State.symIn_kept
    | split

theorem execStop_kept {a₀ : State} (p : Nat) (dmod : Nat) (smod : Nat) (code : Nat) {s : State} (h : Kept a₀ s) :
    KeptOut a₀ (execStop p dmod smod code s) := by
  unfold execStop
  repeat' first
    | with_reducible first
        | assumption | apply symCmd_kept

theorem State.refreshPort_kept {a₀ s : State} (p : Nat) (h : Kept a₀ s) : Kept a₀ (State.refreshPort s p) := by
  unfold State.refreshPort
  repeat' first
    | with_reducible first
        | assumption | apply State.stowCheck_kept | apply State.measure_kept | apply State.reroute_kept | apply Port.dropped_st
        | apply State.modPort_kept | apply Kept.ite
    | extract_lets | exact Nat.le_of_ble_eq_true rfl | (intro; intros)

theorem State.refreshPorts_kept {a₀ s : State} (h : Kept a₀ s) : Kept a₀ (State.refreshPorts s) := by
  unfold State.refreshPorts
  repeat' first
    | with_reducible first
        | assumption | apply State.refreshPort_kept | apply State.forAll_kept

theorem State.waveAct_kept {a₀ s : State} (y : Sym) (h : Kept a₀ s) : Kept a₀ (State.waveAct s y) := by
  unfold State.waveAct
  repeat' first
    | with_reducible first
        | assumption | apply State.ownReport_kept | apply State.doneReport_kept | apply State.modWave_kept | apply Kept.ite
    | extract_lets | split

theorem State.startRetrain_kept {a₀ s : State} (p : Nat) (reason : Nat) (h : Kept a₀ s) :
    Kept a₀ (State.startRetrain s p reason) := by
  unfold State.startRetrain
  repeat' first
    | with_reducible first
        | assumption | apply State.measure_kept | apply State.readyFrom_kept | apply State.countPort_kept
        | apply State.modPort_kept | apply Kept.ite
    | extract_lets | exact Nat.le_of_ble_eq_true rfl | (intro; intros)

theorem execLlynTrainLock_kept {a₀ : State} (p : Nat) {s : State} (h : Kept a₀ s) : KeptOut a₀ (execLlynTrainLock p s) := by
  unfold execLlynTrainLock
  repeat' first
    | with_reducible first
        | assumption | apply KeptOut.next | apply KeptOut.fault | apply State.modPort_kept
    | extract_lets | exact Nat.le_of_ble_eq_true rfl | split | (intro; intros)

theorem State.takeFlits_kept {a₀ s : State} (p : Nat) (vc : Nat) (n : Nat) (h : Kept a₀ s) :
    Kept a₀ (State.takeFlits s p vc n) := by
  unfold State.takeFlits
  repeat' first
    | with_reducible first
        | assumption | apply State.modPort_kept
    | extract_lets | (intro; intros)

theorem execTransitPacket_kept {a₀ : State} (p : Nat) {s : State} (h : Kept a₀ s) : KeptOut a₀ (execTransitPacket p s) := by
  unfold execTransitPacket
  repeat' first
    | with_reducible first
        | assumption | apply KeptOut.next | apply KeptOut.fault | apply State.linkRoute_kept | apply State.takeFlits_kept
        | apply State.modPort_kept
    | extract_lets | split | (intro; intros)

theorem execGo_kept {a₀ : State} (p : Nat) (dmod : Nat) (smod : Nat) (n : Nat) {s : State} (h : Kept a₀ s) :
    KeptOut a₀ (execGo p dmod smod n s) := by
  unfold execGo
  repeat' first
    | with_reducible first
        | assumption | apply symCmd_kept

theorem execArrive_kept {a₀ : State} (p : Nat) (dmod : Nat) (smod : Nat) (n : Nat) {s : State} (h : Kept a₀ s) :
    KeptOut a₀ (execArrive p dmod smod n s) := by
  unfold execArrive
  repeat' first
    | with_reducible first
        | assumption | apply symCmd_kept

theorem execFix_kept {a₀ : State} (p : Nat) (dmod : Nat) (tick : Nat) (fault : Bool) {s : State} (h : Kept a₀ s) :
    KeptOut a₀ (execFix p dmod tick fault s) := by
  unfold execFix
  repeat' first
    | with_reducible first
        | assumption | apply symCmd_kept

theorem execLlynRetrainDone_kept {a₀ : State} (p : Nat) {s : State} (h : Kept a₀ s) :
    KeptOut a₀ (execLlynRetrainDone p s) := by
  unfold execLlynRetrainDone
  repeat' first
    | with_reducible first
        | assumption | apply KeptOut.next | apply KeptOut.fault | apply State.measure_kept | apply State.readyFrom_kept
        | apply State.modPort_kept
    | extract_lets | exact Nat.le_of_ble_eq_true rfl | split | (intro; intros)

theorem Port.alignAcked_st (x : Port) (acked : List Frame) (hx : x.st ≤ 6) : (Port.alignAcked x acked).st ≤ 6 := by
  unfold Port.alignAcked
  repeat' first
    | with_reducible first
        | assumption
    | extract_lets | split

theorem execLlynFrameReceive_kept {a₀ : State} (p : Nat) (fr : Frame) (q : RxQuality) {s : State} (h : Kept a₀ s) :
    KeptOut a₀ (execLlynFrameReceive p fr q s) := by
  unfold execLlynFrameReceive
  repeat' first
    | with_reducible first
        | assumption | apply KeptOut.next | apply KeptOut.fault | apply State.countPort_kept | apply State.startRetrain_kept
        | apply Port.alignAcked_st | apply State.symIn_kept | apply State.modPort_kept | apply Kept.ite
    | extract_lets | split | (intro; intros)

theorem execAlignExchangeTimer_kept {a₀ : State} (p : Nat) {s : State} (h : Kept a₀ s) :
    KeptOut a₀ (execAlignExchangeTimer p s) := by
  unfold execAlignExchangeTimer
  repeat' first
    | with_reducible first
        | assumption | apply KeptOut.next | apply KeptOut.fault | apply State.queueSym_kept | apply State.modPort_kept
        | apply Kept.ite
    | extract_lets | split | (intro; intros)

theorem execAlign_kept {a₀ : State} (p : Nat) (recv : Bool) (rpl : Bool) (stamp : Nat) {s : State} (h : Kept a₀ s) :
    KeptOut a₀ (execAlign p recv rpl stamp s) := by
  unfold execAlign
  repeat' first
    | with_reducible first
        | assumption | apply symCmd_kept

theorem execLink_kept {a₀ : State} (p : Nat) (idx : Nat) (val : Nat) {s : State} (h : Kept a₀ s) :
    KeptOut a₀ (execLink p idx val s) := by
  unfold execLink
  repeat' first
    | with_reducible first
        | assumption | apply symCmd_kept

theorem execLlynTrainTimeout_kept {a₀ : State} (p : Nat) {s : State} (h : Kept a₀ s) :
    KeptOut a₀ (execLlynTrainTimeout p s) := by
  unfold execLlynTrainTimeout
  repeat' first
    | with_reducible first
        | assumption | apply KeptOut.next | apply KeptOut.fault | apply State.portDown_kept
    | split

theorem execSymbolHoldRelease_kept {a₀ : State} (i : Nat) {s : State} (h : Kept a₀ s) :
    KeptOut a₀ (execSymbolHoldRelease i s) := by
  unfold execSymbolHoldRelease
  repeat' first
    | with_reducible first
        | assumption | apply KeptOut.next | apply State.waveAct_kept | apply State.modWave_kept
    | split

theorem execRemotePacketIngress_kept {a₀ : State} (p : Nat) {s : State} (h : Kept a₀ s) :
    KeptOut a₀ (execRemotePacketIngress p s) := by
  unfold execRemotePacketIngress
  repeat' first
    | with_reducible first
        | assumption | apply KeptOut.next | apply KeptOut.fault | apply State.takeFlits_kept | apply State.refuseIn_kept
        | apply State.modNet_kept
    | extract_lets | split

theorem execPart_kept {a₀ : State} (p : Nat) (dmod : Nat) (smod : Nat) {s : State} (h : Kept a₀ s) :
    KeptOut a₀ (execPart p dmod smod s) := by
  unfold execPart
  repeat' first
    | with_reducible first
        | assumption | apply symCmd_kept

theorem execLlynRetrainTimeout_kept {a₀ : State} (p : Nat) {s : State} (h : Kept a₀ s) :
    KeptOut a₀ (execLlynRetrainTimeout p s) := by
  unfold execLlynRetrainTimeout
  repeat' first
    | with_reducible first
        | assumption | apply KeptOut.next | apply KeptOut.fault | apply State.portDown_kept
    | split

theorem execDone_kept {a₀ : State} (p : Nat) (dmod : Nat) (smod : Nat) {s : State} (h : Kept a₀ s) :
    KeptOut a₀ (execDone p dmod smod s) := by
  unfold execDone
  repeat' first
    | with_reducible first
        | assumption | apply symCmd_kept

theorem State.msiWrite_kept {a₀ s : State} (v : Nat) (w : Nat) (x : Word) (h : Kept a₀ s) :
    Kept a₀ (State.msiWrite s v w x) := by
  unfold State.msiWrite
  repeat' first
    | with_reducible first
        | assumption | apply State.sendMsi_kept | apply State.modRl_kept | apply Kept.ite
    | extract_lets | exact id

theorem State.zeroGranules_kept {a₀ s : State} (lo : Nat) (n : Nat) (h : Kept a₀ s) :
    Kept a₀ (State.zeroGranules s lo n) := by
  unfold State.zeroGranules
  repeat' first
    | with_reducible first
        | assumption | apply State.forAll_kept | apply State.modStk_kept | apply Kept.ite
    | extract_lets | (intro; intros)

theorem State.resizeHcw_kept {a₀ s : State} (h : Kept a₀ s) : Kept a₀ (State.resizeHcw s) := by
  unfold State.resizeHcw
  repeat' first
    | with_reducible first
        | assumption | apply State.sendBinv_kept | apply State.zeroGranules_kept | apply State.modRl_kept | apply Kept.ite
    | extract_lets | exact id

theorem State.hcwWrite_kept {a₀ s : State} (v : Word) (h : Kept a₀ s) : Kept a₀ (State.hcwWrite s v) := by
  unfold State.hcwWrite
  repeat' first
    | with_reducible first
        | assumption | apply State.resizeHcw_kept | apply State.modRl_kept | apply Kept.ite
    | extract_lets | exact id

theorem State.stickHost_kept {a₀ s : State} (h : Kept a₀ s) : Kept a₀ (State.stickHost s) := by
  unfold State.stickHost
  repeat' first
    | with_reducible first
        | assumption | apply Tile.modIo_legal | apply State.forAll_kept | apply State.modTile_kept | apply Kept.ite
    | extract_lets | (intro; intros)

theorem State.hostStore_kept {a₀ s : State} (line : Nat) (parts : List (Nat × List Byte)) (h : Kept a₀ s) :
    Kept a₀ (State.hostStore s line parts) := by
  unfold State.hostStore
  repeat' first
    | with_reducible first
        | assumption | apply Stack.put_st | apply State.modStk_kept
    | extract_lets | (intro; intros)

theorem State.retryHcw_kept {a₀ s : State} (h : Kept a₀ s) : Kept a₀ (State.retryHcw s) := by
  unfold State.retryHcw
  repeat' first
    | with_reducible first
        | assumption | apply State.resizeHcw_kept | apply Kept.ite

theorem State.rlDown_kept {a₀ s : State} (reason : Nat) (h : Kept a₀ s) : Kept a₀ (State.rlDown s reason) := by
  unfold State.rlDown
  repeat' first
    | with_reducible first
        | assumption | apply State.stickHost_kept | apply State.hostStore_kept | apply State.readyFrom_kept
        | apply State.countRl_kept | apply State.raiseMsi_kept | apply State.devFault_kept | apply State.retryHcw_kept
        | apply State.modRl_kept | apply State.took_kept | apply foldl_kept | apply Kept.ite
    | extract_lets | exact fun _ => Nat.le_refl _ | (intro; intros)

theorem execRlRetrainTimeout_kept {a₀ s : State} (h : Kept a₀ s) : KeptOut a₀ (execRlRetrainTimeout s) := by
  unfold execRlRetrainTimeout
  repeat' first
    | with_reducible first
        | assumption | apply KeptOut.next | apply State.rlDown_kept
    | split

theorem execRlHcwRequest_kept {a₀ : State} (v : Word) {s : State} (h : Kept a₀ s) : KeptOut a₀ (execRlHcwRequest v s) := by
  unfold execRlHcwRequest
  repeat' first
    | with_reducible first
        | assumption | apply KeptOut.next | apply State.hcwWrite_kept
    | split

theorem State.rlRetrain_kept {a₀ s : State} (reason : Nat) (h : Kept a₀ s) : Kept a₀ (State.rlRetrain s reason) := by
  unfold State.rlRetrain
  repeat' first
    | with_reducible first
        | assumption | apply State.readyFrom_kept | apply State.countRl_kept | apply State.modRl_kept | apply Kept.ite
    | extract_lets | exact fun _ => Nat.le_of_ble_eq_true rfl

theorem execRlLinkUp_kept {a₀ s : State} (h : Kept a₀ s) : KeptOut a₀ (execRlLinkUp s) := by
  unfold execRlLinkUp
  repeat' first
    | with_reducible first
        | assumption | apply KeptOut.next | apply State.readyFrom_kept | apply State.sendMsi_kept | apply State.modRl_kept
        | apply State.forAll_kept
    | extract_lets | exact fun _ => Nat.le_of_ble_eq_true rfl | split

theorem execRlMsiWrite_kept {a₀ : State} (v : Nat) (w : Nat) (x : Word) {s : State} (h : Kept a₀ s) :
    KeptOut a₀ (execRlMsiWrite v w x s) := by
  unfold execRlMsiWrite
  repeat' first
    | with_reducible first
        | assumption | apply KeptOut.next | apply State.msiWrite_kept
    | split

theorem execRlTrainRetry_kept {a₀ s : State} (h : Kept a₀ s) : KeptOut a₀ (execRlTrainRetry s) := by
  unfold execRlTrainRetry
  repeat' first
    | with_reducible first
        | assumption | apply KeptOut.next | apply State.modRl_kept
    | extract_lets | exact fun _ => Nat.le_of_ble_eq_true rfl | split

theorem State.rlSend_kept {a₀ s : State} (h : Kept a₀ s) : Kept a₀ (State.rlSend s) := by
  unfold State.rlSend
  repeat' first
    | with_reducible first
        | assumption | apply State.countRl_kept | apply State.took_kept | apply State.modRl_kept | apply Kept.ite
    | extract_lets | exact id | split

theorem execLinkFrameSend_kept {a₀ : State} (p : Nat) {s : State} (h : Kept a₀ s) : KeptOut a₀ (execLinkFrameSend p s) := by
  unfold execLinkFrameSend
  repeat' first
    | with_reducible first
        | assumption | apply KeptOut.next | apply KeptOut.fault | apply State.llynSend_kept | apply State.rlSend_kept
    | split

theorem execFrameLockLoss_kept {a₀ : State} (p : Nat) {s : State} (h : Kept a₀ s) : KeptOut a₀ (execFrameLockLoss p s) := by
  unfold execFrameLockLoss
  repeat' first
    | with_reducible first
        | assumption | apply KeptOut.next | apply KeptOut.fault | apply State.startRetrain_kept | apply State.rlRetrain_kept
    | split

theorem execRlFrameReceive_kept {a₀ : State} (fr : RlFrame) (q : RxQuality) {s : State} (h : Kept a₀ s) :
    KeptOut a₀ (execRlFrameReceive fr q s) := by
  unfold execRlFrameReceive
  repeat' first
    | with_reducible first
        | assumption | apply KeptOut.next | apply State.rlRetrain_kept | apply State.modRl_kept | apply Kept.ite
    | extract_lets | exact id | split

theorem helmCmd_kept {a₀ : State} (k : Nat) (opc : Nat) {s : State} (sel : List Word → Bool)
    (body : State → List Word → State) (h : Kept a₀ s) (hbody : ∀ s e, Kept a₀ s → Kept a₀ (body s e)) :
    KeptOut a₀ (helmCmd k opc s sel body) := by
  unfold helmCmd
  repeat' first
    | with_reducible first
        | assumption | apply hbody | apply KeptOut.next | apply KeptOut.fault | apply State.take_kept
    | extract_lets | split

theorem plainCmd_kept {a₀ : State} (k : Nat) (opc : Nat) {s : State} (body : State → List Word → State)
    (h : Kept a₀ s) (hbody : ∀ s e, Kept a₀ s → Kept a₀ (body s e)) :
    KeptOut a₀ (plainCmd k opc s body) := by
  unfold plainCmd
  repeat' first
    | with_reducible first
        | assumption | apply helmCmd_kept

theorem execTelemetryRead_kept {a₀ : State} (k : Nat) {s : State} (h : Kept a₀ s) : KeptOut a₀ (execTelemetryRead k s) := by
  unfold execTelemetryRead
  repeat' first
    | with_reducible first
        | assumption | apply plainCmd_kept | apply State.complete_kept | apply Kept.ite
    | extract_lets | (intro; intros)

theorem execSightSchedule_kept {a₀ : State} (k : Nat) {s : State} (h : Kept a₀ s) : KeptOut a₀ (execSightSchedule k s) := by
  unfold execSightSchedule
  repeat' first
    | with_reducible first
        | assumption | apply plainCmd_kept | apply State.complete_kept | apply State.modRel_kept | apply Kept.ite
    | extract_lets
    | exact (Rel.Grows.of_eq rfl rfl rfl rfl rfl rfl)
    | (intro; intros)

theorem State.doorbell_kept {a₀ s : State} (k : Nat) (v : BitVec 16) (h : Kept a₀ s) : Kept a₀ (State.doorbell s k v) := by
  unfold State.doorbell
  repeat' first
    | with_reducible first
        | assumption | apply State.serveBad_kept | apply State.modPage_kept | apply State.modHelm_kept | rfl
    | extract_lets | exact Nat.le_refl _ | exact id | exact rfl

theorem execFixArm_kept {a₀ : State} (k : Nat) {s : State} (h : Kept a₀ s) : KeptOut a₀ (execFixArm k s) := by
  unfold execFixArm
  repeat' first
    | with_reducible first
        | assumption | apply plainCmd_kept | apply State.complete_kept | apply State.modDbg_kept | apply Kept.ite
    | extract_lets | (intro; intros)

theorem State.freeSlots_kept {a₀ s : State} (k : Nat) (v : BitVec 16) (h : Kept a₀ s) : Kept a₀ (State.freeSlots s k v) := by
  unfold State.freeSlots
  repeat' first
    | with_reducible first
        | assumption | apply State.serveBad_kept | apply State.drainPage_kept | apply State.modPage_kept

theorem execDevMbxCq_kept {a₀ : State} (k : Nat) (v : Word) {s : State} (h : Kept a₀ s) :
    KeptOut a₀ (execDevMbxCq k v s) := by
  unfold execDevMbxCq
  repeat' first
    | with_reducible first
        | assumption | apply KeptOut.next | apply KeptOut.fault | apply State.freeSlots_kept
    | split

theorem chronoAlign_kept {a₀ : State} (k : Nat) (read : Bool) {s : State} (h : Kept a₀ s) :
    KeptOut a₀ (chronoAlign k read s) := by
  unfold chronoAlign
  repeat' first
    | with_reducible first
        | assumption | apply helmCmd_kept | apply State.complete_kept | apply State.modPower_kept | apply Kept.ite
    | extract_lets | split | (intro; intros)

theorem execChronoAlignStep_kept {a₀ : State} (k : Nat) {s : State} (h : Kept a₀ s) :
    KeptOut a₀ (execChronoAlignStep k s) := by
  unfold execChronoAlignStep
  repeat' first
    | with_reducible first
        | assumption | apply chronoAlign_kept

theorem execJobStatus_kept {a₀ : State} (k : Nat) {s : State} (h : Kept a₀ s) : KeptOut a₀ (execJobStatus k s) := by
  unfold execJobStatus
  repeat' first
    | with_reducible first
        | assumption | apply plainCmd_kept | apply State.complete_kept
    | extract_lets | (intro; intros)

theorem execCapSet_kept {a₀ : State} (k : Nat) {s : State} (h : Kept a₀ s) : KeptOut a₀ (execCapSet k s) := by
  unfold execCapSet
  repeat' first
    | with_reducible first
        | assumption | apply plainCmd_kept | apply State.complete_kept | apply State.modPower_kept | apply Kept.ite
    | extract_lets | (intro; intros)

theorem execReadyQuery_kept {a₀ : State} (k : Nat) {s : State} (h : Kept a₀ s) : KeptOut a₀ (execReadyQuery k s) := by
  unfold execReadyQuery
  repeat' first
    | with_reducible first
        | assumption | apply plainCmd_kept | apply State.complete_kept
    | extract_lets | (intro; intros)

theorem execDevMbxDb_kept {a₀ : State} (k : Nat) (v : Word) {s : State} (h : Kept a₀ s) :
    KeptOut a₀ (execDevMbxDb k v s) := by
  unfold execDevMbxDb
  repeat' first
    | with_reducible first
        | assumption | apply KeptOut.next | apply KeptOut.fault | apply State.doorbell_kept
    | split

theorem execFenceQuery_kept {a₀ : State} (k : Nat) {s : State} (h : Kept a₀ s) : KeptOut a₀ (execFenceQuery k s) := by
  unfold execFenceQuery
  repeat' first
    | with_reducible first
        | assumption | apply plainCmd_kept | apply State.complete_kept | apply Kept.ite
    | extract_lets | (intro; intros)

theorem execDevInfo_kept {a₀ : State} (k : Nat) {s : State} (h : Kept a₀ s) : KeptOut a₀ (execDevInfo k s) := by
  unfold execDevInfo
  repeat' first
    | with_reducible first
        | assumption | apply plainCmd_kept | apply State.complete_kept
    | extract_lets | (intro; intros)

theorem execChronoAlignRead_kept {a₀ : State} (k : Nat) {s : State} (h : Kept a₀ s) :
    KeptOut a₀ (execChronoAlignRead k s) := by
  unfold execChronoAlignRead
  repeat' first
    | with_reducible first
        | assumption | apply chronoAlign_kept

theorem execLedgerRead_kept {a₀ : State} (k : Nat) {s : State} (h : Kept a₀ s) : KeptOut a₀ (execLedgerRead k s) := by
  unfold execLedgerRead
  repeat' first
    | with_reducible first
        | assumption | apply plainCmd_kept | apply State.complete_kept
    | extract_lets | (intro; intros)

theorem execThrottleRead_kept {a₀ : State} (k : Nat) {s : State} (h : Kept a₀ s) : KeptOut a₀ (execThrottleRead k s) := by
  unfold execThrottleRead
  repeat' first
    | with_reducible first
        | assumption | apply plainCmd_kept | apply State.complete_kept | apply Kept.ite
    | extract_lets | (intro; intros)

theorem execFixRead_kept {a₀ : State} (k : Nat) {s : State} (h : Kept a₀ s) : KeptOut a₀ (execFixRead k s) := by
  unfold execFixRead
  repeat' first
    | with_reducible first
        | assumption | apply plainCmd_kept | apply State.complete_kept | apply State.modDbg_kept | apply Kept.ite
    | extract_lets | (intro; intros)

end Sys2Proof.Machine
end

