-- ==== Sys2Proof/Laws/KeptModule.lean ====
section
/-! SUPPORT. One lemma for each operation: what power, resets, firmware, sights and jobs keep (Laws/Kept.lean). -/

namespace Sys2Proof.Machine

theorem wf_foldl_set {α : Type} [DecidableEq α] (d v : α) (l : List Nat) {m : Map α} (h : Map.wf d m) :
    Map.wf d (l.foldl (fun m k => Map.set d m k v) m) := by
  induction l generalizing m with
  | nil => exact h
  | cons k l ih => exact ih (Map.wf_set d m k v h)

theorem get_foldl_set {α : Type} [DecidableEq α] (d v : α) (P : α → Prop) (hv : P v) (l : List Nat) {m : Map α}
    (h : ∀ k, P (Map.get d m k)) (k : Nat) : P (Map.get d (l.foldl (fun m k => Map.set d m k v) m) k) := by
  induction l generalizing m with
  | nil => exact h k
  | cons j l ih =>
    refine ih fun k => ?_
    rw [Map.get_set]
    split
    · exact hv
    · exact h k

theorem State.cold_kept {a₀ s : State} (k : Keep) (h : Kept a₀ s) : Kept a₀ (State.cold s k) := by
  have empty : ∀ {α : Type} (d : α), Map.wf d ([] : Map α) := fun d => ⟨List.Pairwise.nil, fun _ h => by cases h⟩
  refine h.trans ⟨rfl, Nat.le_refl _, id, rfl, ?_, fun _ => ?_, fun _ => ?_⟩
  · exact ⟨List.Subset.refl _, List.Subset.refl _, List.Subset.refl _, List.Subset.refl _, List.Subset.refl _,
      List.Subset.refl _⟩
  · exact ⟨wf_foldl_set _ _ _ (empty _), empty _, empty _, wf_foldl_set _ _ _ (empty _), empty _⟩
  · refine ⟨Nat.zero_le _, Nat.zero_le _, fun t => ?_, fun _ => Nat.zero_le _, fun _ => ⟨Nat.le_of_ble_eq_true rfl, Nat.le_of_ble_eq_true rfl⟩, fun k => ?_⟩
    · exact get_foldl_set ({} : Tile) _ Tile.Legal (by constructor <;> decide) _
        (fun k => by rw [Map.get_nil]; constructor <;> decide) t
    · exact get_foldl_set ({} : Stack) _ (fun x : Stack => x.st ≤ 4) (by decide) _ (fun k => by rw [Map.get_nil]; decide) k

theorem Stack.rest_st (x : Stack) (hx : x.st ≤ 4) : (Stack.rest x).st ≤ 4 := by
  unfold Stack.rest
  repeat' first
    | with_reducible first
        | assumption
    | exact Nat.le_of_ble_eq_true rfl | split

theorem State.restStacks_kept {a₀ s : State} (r : Nat) (h : Kept a₀ s) : Kept a₀ (State.restStacks s r) := by
  unfold State.restStacks
  repeat' first
    | with_reducible first
        | assumption | apply Stack.rest_st | apply State.modStk_kept

theorem State.clearUnits_kept {a₀ s : State} (r : Nat) (h : Kept a₀ s) : Kept a₀ (State.clearUnits s r) := by
  unfold State.clearUnits
  repeat' first
    | with_reducible first
        | assumption | apply State.stepLost_kept | apply State.forAll_kept | apply State.setTile_kept
        | apply State.setCluster_kept
    | extract_lets | exact ⟨Nat.le_of_ble_eq_true rfl, Nat.le_of_ble_eq_true rfl⟩ | split | (intro; intros)

theorem State.loseRegion_kept {a₀ s : State} (r : Nat) (h : Kept a₀ s) : Kept a₀ (State.loseRegion s r) := by
  unfold State.loseRegion
  repeat' first
    | with_reducible first
        | assumption | apply State.clearUnits_kept | apply State.modDbg_kept | apply State.modStk_kept
    | extract_lets | (intro; intros)

theorem Region.still_legal (x : Region) (hx : x.Legal) : (Region.still x).Legal := by
  unfold Region.still
  repeat' first
    | assumption

theorem State.offOne_kept {a₀ s : State} (r : Nat) (h : Kept a₀ s) : Kept a₀ (State.offOne s r) := by
  unfold State.offOne
  repeat' first
    | with_reducible first
        | assumption | apply State.restStacks_kept | apply State.loseRegion_kept | apply State.modRegion_kept | apply Kept.ite
    | extract_lets | exact ⟨Nat.le_of_ble_eq_true rfl, Nat.le_of_ble_eq_true rfl⟩ | (intro; intros)

theorem State.clearTrip_kept {a₀ s : State} (h : Kept a₀ s) : Kept a₀ (State.clearTrip s) := by
  unfold State.clearTrip
  repeat' first
    | with_reducible first
        | assumption | apply State.offOne_kept | apply State.readyFrom_kept | apply State.refreshPorts_kept
        | apply State.forAll_kept | apply State.modPower_kept | apply State.modRegion_kept | apply Kept.ite
    | extract_lets | exact ⟨Nat.le_of_ble_eq_true rfl, Nat.le_of_ble_eq_true rfl⟩ | (intro; intros)

theorem execDevPwrStatTripClear_kept {a₀ s : State} (h : Kept a₀ s) : KeptOut a₀ (execDevPwrStatTripClear s) := by
  unfold execDevPwrStatTripClear
  repeat' first
    | with_reducible first
        | assumption | apply KeptOut.next | apply State.clearTrip_kept
    | split

theorem State.setVin_kept {a₀ s : State} (mv : Nat) (h : Kept a₀ s) : Kept a₀ (State.setVin s mv) := by
  unfold State.setVin
  repeat' first
    | with_reducible first
        | assumption | apply State.modPower_kept

theorem State.restartCold_kept {a₀ s : State} (h : Kept a₀ s) : Kept a₀ (State.restartCold s) := by
  unfold State.restartCold
  repeat' first
    | with_reducible first
        | assumption | apply State.cold_kept | apply State.modPower_kept

theorem execBrownoutRecovery_kept {a₀ : State} (mv : Nat) {s : State} (h : Kept a₀ s) :
    KeptOut a₀ (execBrownoutRecovery mv s) := by
  unfold execBrownoutRecovery
  repeat' first
    | with_reducible first
        | assumption | apply KeptOut.next | apply State.restartCold_kept | apply State.setVin_kept
    | split

theorem State.finishWakes_kept {a₀ s : State} (h : Kept a₀ s) : Kept a₀ (State.finishWakes s) := by
  unfold State.finishWakes
  repeat' first
    | with_reducible first
        | assumption | apply State.complete_kept | apply Kept.ite
    | extract_lets | split

theorem State.capAlert_kept {a₀ s : State} (h : Kept a₀ s) : Kept a₀ (State.capAlert s) := by
  unfold State.capAlert
  repeat' first
    | with_reducible first
        | assumption | apply State.alert_kept | apply Kept.ite

theorem execPowerManagerPeriod_kept {a₀ : State} (m : PowerSample) {s : State} (h : Kept a₀ s) :
    KeptOut a₀ (execPowerManagerPeriod m s) := by
  unfold execPowerManagerPeriod
  repeat' first
    | with_reducible first
        | assumption | apply KeptOut.next | apply State.capAlert_kept | apply State.updateRun_kept | apply State.modPower_kept
    | extract_lets | split

theorem State.brownout_kept {a₀ s : State} (h : Kept a₀ s) : Kept a₀ (State.brownout s) := by
  unfold State.brownout
  repeat' first
    | with_reducible first
        | assumption | apply State.cold_kept | apply State.modPower_kept | apply State.forAll_kept | apply State.modPort_kept
        | apply Kept.ite | rfl
    | extract_lets | (intro; intros)

theorem execRefclkLoss_kept {a₀ s : State} (h : Kept a₀ s) : KeptOut a₀ (execRefclkLoss s) := by
  unfold execRefclkLoss
  repeat' first
    | with_reducible first
        | assumption | apply KeptOut.next | apply State.readyFrom_kept | apply State.brownout_kept | apply State.modPower_kept
    | extract_lets | split

theorem execLedgerRefit_kept {a₀ : State} (coefs : List Nat) {s : State} (h : Kept a₀ s) :
    KeptOut a₀ (execLedgerRefit coefs s) := by
  unfold execLedgerRefit
  repeat' first
    | with_reducible first
        | assumption | apply KeptOut.next | apply State.modPower_kept
    | split

theorem State.sleepOne_kept {a₀ s : State} (r : Nat) (h : Kept a₀ s) : Kept a₀ (State.sleepOne s r) := by
  unfold State.sleepOne
  repeat' first
    | with_reducible first
        | assumption | apply State.restStacks_kept | apply State.modRegion_kept | apply Kept.ite
    | extract_lets | exact ⟨Nat.le_of_ble_eq_true rfl, Nat.le_of_ble_eq_true rfl⟩ | (intro; intros)

theorem regionDown_kept {a₀ : State} (k : Nat) (off : Bool) {s : State} (h : Kept a₀ s) :
    KeptOut a₀ (regionDown k off s) := by
  unfold regionDown
  repeat' first
    | with_reducible first
        | assumption | apply helmCmd_kept | apply State.complete_kept | apply State.offOne_kept | apply State.sleepOne_kept
        | apply State.readyFrom_kept | apply State.refreshPorts_kept | apply State.modRel_kept | apply State.forAll_kept
        | apply Kept.ite
    | extract_lets
    | exact (Rel.Grows.of_eq rfl rfl rfl rfl rfl rfl)
    | split | (intro; intros)

theorem execBrownout_kept {a₀ : State} (mv : Nat) {s : State} (h : Kept a₀ s) : KeptOut a₀ (execBrownout mv s) := by
  unfold execBrownout
  repeat' first
    | with_reducible first
        | assumption | apply KeptOut.next | apply State.readyFrom_kept | apply State.brownout_kept | apply State.setVin_kept
    | split

theorem State.deepIdle_kept {a₀ s : State} (h : Kept a₀ s) : Kept a₀ (State.deepIdle s) := by
  unfold State.deepIdle
  repeat' first
    | with_reducible first
        | assumption | apply State.offOne_kept | apply State.readyFrom_kept | apply State.refreshPorts_kept
        | apply State.modPower_kept | apply State.modRel_kept | apply State.forAll_kept | apply Kept.ite
    | extract_lets
    | exact (Rel.Grows.of_eq rfl rfl rfl rfl rfl rfl)

theorem State.applyReq_kept {a₀ s : State} (h : Kept a₀ s) : Kept a₀ (State.applyReq s) := by
  unfold State.applyReq
  repeat' first
    | with_reducible first
        | assumption | apply State.deepIdle_kept | apply State.readyFrom_kept | apply State.cold_kept
        | apply State.refreshPorts_kept | apply State.modPower_kept | apply Kept.ite
    | extract_lets | split

theorem State.powerReq_kept {a₀ s : State} (n : Nat) (h : Kept a₀ s) : Kept a₀ (State.powerReq s n) := by
  unfold State.powerReq
  repeat' first
    | with_reducible first
        | assumption | apply State.applyReq_kept | apply State.modPower_kept | apply Kept.ite

theorem execPowerRequestNone_kept {a₀ s : State} (h : Kept a₀ s) : KeptOut a₀ (execPowerRequestNone s) := by
  unfold execPowerRequestNone
  repeat' first
    | with_reducible first
        | assumption | apply KeptOut.next | apply State.powerReq_kept
    | split

theorem execStepDeferExpiry_kept {a₀ : State} (r : Nat) {s : State} (h : Kept a₀ s) :
    KeptOut a₀ (execStepDeferExpiry r s) := by
  unfold execStepDeferExpiry
  repeat' first
    | with_reducible first
        | assumption | apply KeptOut.next | apply KeptOut.fault | apply State.modRegion_kept
    | extract_lets | assumption | split | (intro; intros)

theorem State.setTemps_kept {a₀ s : State} (m : ThermalSample) (h : Kept a₀ s) : Kept a₀ (State.setTemps s m) := by
  unfold State.setTemps
  repeat' first
    | with_reducible first
        | assumption | apply State.forAll_kept | apply State.modRegion_kept | apply State.modStk_kept
    | extract_lets | assumption | (intro; intros)

theorem execThermalControlPeriod_kept {a₀ : State} (m : ThermalSample) {s : State} (h : Kept a₀ s) :
    KeptOut a₀ (execThermalControlPeriod m s) := by
  unfold execThermalControlPeriod
  repeat' first
    | with_reducible first
        | assumption | apply KeptOut.next | apply State.setTemps_kept | apply State.alert_kept | apply State.modPower_kept
        | apply State.forAll_kept | apply State.modStk_kept | apply Kept.ite
    | extract_lets | split | (intro; intros)

theorem State.tripAll_kept {a₀ s : State} (h : Kept a₀ s) : Kept a₀ (State.tripAll s) := by
  unfold State.tripAll
  repeat' first
    | with_reducible first
        | assumption | apply State.restStacks_kept | apply State.forAll_kept | apply State.modRegion_kept
    | extract_lets | exact ⟨Nat.le_of_ble_eq_true rfl, Nat.le_of_ble_eq_true rfl⟩ | (intro; intros)

theorem State.setSensor_kept {a₀ s : State} (kind : Nat) (idx : Nat) (temp : Nat) (h : Kept a₀ s) :
    Kept a₀ (State.setSensor s kind idx temp) := by
  unfold State.setSensor
  repeat' first
    | with_reducible first
        | assumption | apply State.modRegion_kept | apply State.modStk_kept | apply Kept.ite
    | extract_lets | assumption | (intro; intros)

theorem Tile.loseMeets_legal (x : Tile) (hx : x.Legal) : (Tile.loseMeets x).Legal := by
  unfold Tile.loseMeets
  repeat' first
    | with_reducible first
        | assumption | apply Tile.modXs_legal

theorem State.tripNow_kept {a₀ s : State} (kind : Nat) (idx : Nat) (temp : Nat) (h : Kept a₀ s) :
    Kept a₀ (State.tripNow s kind idx temp) := by
  unfold State.tripNow
  repeat' first
    | with_reducible first
        | assumption | apply State.tripAll_kept | apply State.setSensor_kept | apply State.readyFrom_kept
        | apply State.devFault_kept | apply State.alert_kept | apply State.finishWakes_kept | apply Tile.loseMeets_legal
        | apply State.modPower_kept | apply State.modRel_kept | apply State.modDbg_kept | apply State.modStow_kept
        | apply State.forAll_kept | apply State.modTile_kept | apply Kept.ite
    | extract_lets
    | exact (Rel.Grows.of_eq rfl rfl rfl rfl rfl rfl)
    | (intro; intros)

theorem State.pendingReq_kept {a₀ s : State} (h : Kept a₀ s) : Kept a₀ (State.pendingReq s) := by
  unfold State.pendingReq
  repeat' first
    | with_reducible first
        | assumption | apply State.applyReq_kept | apply Kept.ite

theorem execPowerOn_kept {a₀ : State} (mv : Nat) (slot : Nat) {s : State} (h : Kept a₀ s) :
    KeptOut a₀ (execPowerOn mv slot s) := by
  unfold execPowerOn
  repeat' first
    | with_reducible first
        | assumption | apply KeptOut.next | apply State.cold_kept | apply State.setVin_kept | apply State.modPins_kept
        | apply State.modPower_kept
    | extract_lets | split

theorem execCurrentLimiterSample_kept {a₀ : State} (avg : Nat) {s : State} (h : Kept a₀ s) :
    KeptOut a₀ (execCurrentLimiterSample avg s) := by
  unfold execCurrentLimiterSample
  repeat' first
    | with_reducible first
        | assumption | apply KeptOut.next | apply State.updateRun_kept | apply State.modPower_kept
    | extract_lets | split

theorem execDeepIdleRequest_kept {a₀ s : State} (h : Kept a₀ s) : KeptOut a₀ (execDeepIdleRequest s) := by
  unfold execDeepIdleRequest
  repeat' first
    | with_reducible first
        | assumption | apply KeptOut.next | apply State.powerReq_kept
    | split

theorem execDroopStretchEnd_kept {a₀ : State} (r : Nat) {s : State} (h : Kept a₀ s) :
    KeptOut a₀ (execDroopStretchEnd r s) := by
  unfold execDroopStretchEnd
  repeat' first
    | with_reducible first
        | assumption | apply KeptOut.next | apply KeptOut.fault | apply State.modRegion_kept
    | extract_lets | assumption | split | (intro; intros)

theorem execHbmSelfRefreshIdle_kept {a₀ : State} (k : Nat) {s : State} (h : Kept a₀ s) :
    KeptOut a₀ (execHbmSelfRefreshIdle k s) := by
  unfold execHbmSelfRefreshIdle
  repeat' first
    | with_reducible first
        | assumption | apply KeptOut.next | apply KeptOut.fault | apply State.modStk_kept
    | extract_lets | exact Nat.le_of_ble_eq_true rfl | split | (intro; intros)

theorem execUvRelease_kept {a₀ : State} (mv : Nat) {s : State} (h : Kept a₀ s) : KeptOut a₀ (execUvRelease mv s) := by
  unfold execUvRelease
  repeat' first
    | with_reducible first
        | assumption | apply KeptOut.next | apply State.setVin_kept | apply State.modPower_kept
    | split

theorem execAlwaysOnExit_kept {a₀ s : State} (h : Kept a₀ s) : KeptOut a₀ (execAlwaysOnExit s) := by
  unfold execAlwaysOnExit
  repeat' first
    | with_reducible first
        | assumption | apply KeptOut.next | apply State.cold_kept
    | split

theorem Stack.trained_st (x : Stack) (on : Bool) (hx : x.st ≤ 4) : (Stack.trained x on).st ≤ 4 := by
  unfold Stack.trained
  repeat' first
    | with_reducible first
        | assumption
    | exact Nat.le_of_ble_eq_true rfl | split

theorem execRegionReady_kept {a₀ : State} (r : Nat) {s : State} (h : Kept a₀ s) : KeptOut a₀ (execRegionReady r s) := by
  unfold execRegionReady
  repeat' first
    | with_reducible first
        | assumption | apply KeptOut.next | apply KeptOut.fault | apply Stack.trained_st | apply State.finishWakes_kept
        | apply State.readyFrom_kept | apply State.modRegion_kept | apply State.modStk_kept
    | extract_lets | assumption
    | (rename_i hx; first | exact ⟨hx.1, Nat.le_of_ble_eq_true rfl⟩ | exact ⟨hx.2, hx.2⟩ | exact ⟨Nat.le_of_ble_eq_true rfl, hx.2⟩)
    | split | (intro; intros)

theorem execTelemetrySample_kept {a₀ : State} (m : TelemetrySample) {s : State} (h : Kept a₀ s) :
    KeptOut a₀ (execTelemetrySample m s) := by
  unfold execTelemetrySample
  repeat' first
    | with_reducible first
        | assumption | apply KeptOut.next | apply State.setVin_kept | apply State.setTemps_kept | apply State.modPower_kept
        | apply State.forAll_kept | apply State.modRegion_kept
    | extract_lets | assumption | split | (intro; intros)

theorem execIslandsStop_kept {a₀ : State} (mv : Nat) {s : State} (h : Kept a₀ s) : KeptOut a₀ (execIslandsStop mv s) := by
  unfold execIslandsStop
  repeat' first
    | with_reducible first
        | assumption | apply KeptOut.next | apply State.cold_kept | apply State.setVin_kept | apply State.modPower_kept
    | split

theorem execRegionSleep_kept {a₀ : State} (k : Nat) {s : State} (h : Kept a₀ s) : KeptOut a₀ (execRegionSleep k s) := by
  unfold execRegionSleep
  repeat' first
    | with_reducible first
        | assumption | apply regionDown_kept

theorem execDroopDetect_kept {a₀ : State} (r : Nat) {s : State} (h : Kept a₀ s) : KeptOut a₀ (execDroopDetect r s) := by
  unfold execDroopDetect
  repeat' first
    | with_reducible first
        | assumption | apply KeptOut.next | apply KeptOut.fault | apply State.modRegion_kept
    | extract_lets | assumption | split | (intro; intros)

theorem execAlwaysOnOnlyRequest_kept {a₀ s : State} (h : Kept a₀ s) : KeptOut a₀ (execAlwaysOnOnlyRequest s) := by
  unfold execAlwaysOnOnlyRequest
  repeat' first
    | with_reducible first
        | assumption | apply KeptOut.next | apply State.powerReq_kept
    | split

theorem execUvClamp_kept {a₀ : State} (mv : Nat) {s : State} (h : Kept a₀ s) : KeptOut a₀ (execUvClamp mv s) := by
  unfold execUvClamp
  repeat' first
    | with_reducible first
        | assumption | apply KeptOut.next | apply State.alert_kept | apply State.applyRun_kept | apply State.setVin_kept
        | apply State.modPower_kept
    | split

theorem execThermalTrip_kept {a₀ : State} (kind : Nat) (idx : Nat) (temp : Nat) {s : State} (h : Kept a₀ s) :
    KeptOut a₀ (execThermalTrip kind idx temp s) := by
  unfold execThermalTrip
  repeat' first
    | with_reducible first
        | assumption | apply KeptOut.next | apply KeptOut.fault | apply State.tripNow_kept
    | split

theorem execRegionOff_kept {a₀ : State} (k : Nat) {s : State} (h : Kept a₀ s) : KeptOut a₀ (execRegionOff k s) := by
  unfold execRegionOff
  repeat' first
    | with_reducible first
        | assumption | apply regionDown_kept

theorem execLedgerAccumulate_kept {a₀ : State} (acts : List Nat) {s : State} (h : Kept a₀ s) :
    KeptOut a₀ (execLedgerAccumulate acts s) := by
  unfold execLedgerAccumulate
  repeat' first
    | with_reducible first
        | assumption | apply KeptOut.next | apply State.modPower_kept
    | extract_lets | split

theorem State.wakeOne_kept {a₀ s : State} (r : Nat) (h : Kept a₀ s) : Kept a₀ (State.wakeOne s r) := by
  unfold State.wakeOne
  repeat' first
    | with_reducible first
        | assumption | apply State.modRegion_kept | apply State.modStk_kept | apply Kept.ite
    | extract_lets | exact ⟨Nat.le_of_ble_eq_true rfl, Nat.le_of_ble_eq_true rfl⟩ | exact Nat.le_of_ble_eq_true rfl
    | (rename_i hx; first | exact ⟨hx.1, Nat.le_of_ble_eq_true rfl⟩ | exact ⟨hx.2, hx.2⟩ | exact ⟨Nat.le_of_ble_eq_true rfl, hx.2⟩)
    | split | (intro; intros)

theorem execRegionWake_kept {a₀ : State} (k : Nat) {s : State} (h : Kept a₀ s) : KeptOut a₀ (execRegionWake k s) := by
  unfold execRegionWake
  repeat' first
    | with_reducible first
        | assumption | apply helmCmd_kept | apply State.complete_kept | apply State.finishWakes_kept
        | apply State.readyFrom_kept | apply State.refreshPorts_kept | apply State.wakeOne_kept | apply State.modRel_kept
        | apply State.forAll_kept | apply Kept.ite
    | extract_lets
    | exact (Rel.Grows.of_eq rfl rfl rfl rfl rfl rfl)
    | (intro; intros)

theorem execRefclkReturn_kept {a₀ : State} (mv : Nat) {s : State} (h : Kept a₀ s) : KeptOut a₀ (execRefclkReturn mv s) := by
  unfold execRefclkReturn
  repeat' first
    | with_reducible first
        | assumption | apply KeptOut.next | apply State.setVin_kept | apply State.restartCold_kept | apply State.modPower_kept
        | apply Kept.ite
    | extract_lets | split

theorem State.tileReset_kept {a₀ s : State} (t : Nat) (h : Kept a₀ s) : Kept a₀ (State.tileReset s t) := by
  unfold State.tileReset
  repeat' first
    | with_reducible first
        | assumption | apply State.modDbg_kept | apply State.setTile_kept | apply State.modTile_kept | apply Kept.ite
    | extract_lets | assumption | exact id | (intro; intros)

theorem execTileRst_kept {a₀ : State} (t : Nat) {s : State} (h : Kept a₀ s) : KeptOut a₀ (execTileRst t s) := by
  unfold execTileRst
  repeat' first
    | with_reducible first
        | assumption | apply KeptOut.next | apply KeptOut.fault | apply State.tileReset_kept
    | split

theorem State.regionReset_kept {a₀ s : State} (r : Nat) (h : Kept a₀ s) : Kept a₀ (State.regionReset s r) := by
  unfold State.regionReset
  repeat' first
    | with_reducible first
        | assumption | apply State.loseRegion_kept | apply State.readyFrom_kept | apply State.restStacks_kept
        | apply State.modRegion_kept | apply Kept.ite
    | extract_lets | assumption | (intro; intros)

theorem State.helmRuns_kept {a₀ s : State} (b : Nat) (h : Kept a₀ s) : Kept a₀ (State.helmRuns s b) := by
  unfold State.helmRuns
  repeat' first
    | with_reducible first
        | assumption | apply State.readyFrom_kept | apply State.serveBad_kept | apply State.drainPage_kept
        | apply State.retryHcw_kept | apply State.commitFences_kept | apply State.modHelm_kept | apply State.modPins_kept
        | apply State.forAll_kept | rfl
    | extract_lets | exact id | (intro; intros)

theorem State.bringUp_kept {a₀ s : State} (h : Kept a₀ s) : Kept a₀ (State.bringUp s) := by
  unfold State.bringUp
  repeat' first
    | with_reducible first
        | assumption | apply State.forAll_kept | apply State.modRegion_kept | apply State.modStk_kept
    | extract_lets | exact ⟨Nat.le_of_ble_eq_true rfl, Nat.le_of_ble_eq_true rfl⟩ | exact Nat.le_of_ble_eq_true rfl | split
    | (intro; intros)

theorem execBootRomVerifyDone_kept {a₀ s : State} (h : Kept a₀ s) : KeptOut a₀ (execBootRomVerifyDone s) := by
  unfold execBootRomVerifyDone
  repeat' first
    | with_reducible first
        | assumption | apply KeptOut.next | apply State.helmRuns_kept | apply State.bringUp_kept | apply State.modHelm_kept
        | rfl
    | extract_lets | exact id | split

theorem execRegionRst_kept {a₀ : State} (r : Nat) {s : State} (h : Kept a₀ s) : KeptOut a₀ (execRegionRst r s) := by
  unfold execRegionRst
  repeat' first
    | with_reducible first
        | assumption | apply KeptOut.next | apply KeptOut.fault | apply State.regionReset_kept
    | split

theorem execHelmDiePowerUp_kept {a₀ s : State} (h : Kept a₀ s) : KeptOut a₀ (execHelmDiePowerUp s) := by
  unfold execHelmDiePowerUp
  repeat' first
    | with_reducible first
        | assumption | apply KeptOut.next | apply State.modRl_kept | apply State.modHelm_kept | rfl
    | extract_lets | exact id | exact fun _ => Nat.le_of_ble_eq_true rfl | split

theorem execResetLDeassert_kept {a₀ : State} (slot : Nat) {s : State} (h : Kept a₀ s) :
    KeptOut a₀ (execResetLDeassert slot s) := by
  unfold execResetLDeassert
  repeat' first
    | with_reducible first
        | assumption | apply KeptOut.next | apply State.modPins_kept | apply State.modPower_kept
    | split

theorem execResetLAssert_kept {a₀ s : State} (h : Kept a₀ s) : KeptOut a₀ (execResetLAssert s) := by
  unfold execResetLAssert
  repeat' first
    | with_reducible first
        | assumption | apply KeptOut.next | apply State.cold_kept | apply State.modPins_kept | apply State.modPower_kept
    | extract_lets | split

theorem execExtest_kept {a₀ : State} (chain : List Bool) {s : State} (h : Kept a₀ s) : KeptOut a₀ (execExtest chain s) := by
  unfold execExtest
  repeat' first
    | with_reducible first
        | assumption | apply KeptOut.next | apply State.modPins_kept
    | split

theorem execSlotIdChange_kept {a₀ : State} (v : Nat) {s : State} (h : Kept a₀ s) : KeptOut a₀ (execSlotIdChange v s) := by
  unfold execSlotIdChange
  repeat' first
    | with_reducible first
        | assumption | apply KeptOut.next | apply State.modPins_kept

theorem State.helmRestarts_kept {a₀ s : State} (cause : Nat) (k : Nat) (h : Kept a₀ s) :
    Kept a₀ (State.helmRestarts s cause k) := by
  unfold State.helmRestarts
  repeat' first
    | with_reducible first
        | assumption | apply State.readyFrom_kept | apply State.modHelm_kept | rfl
    | extract_lets | exact id

theorem Port.configured_st (x : Port) (en : Bool) (dl : Bool) (g : Byte) (hx : x.st ≤ 6) :
    (Port.configured x en dl g).st ≤ 6 := by
  unfold Port.configured
  repeat' first
    | with_reducible first
        | assumption

theorem smbusOp_kept {a₀ s : State} {s' : State} (answer : Word) (h : Kept a₀ s) (hs1 : Kept a₀ s') :
    KeptOut a₀ (smbusOp s s' answer) := by
  unfold smbusOp
  repeat' first
    | with_reducible first
        | assumption | apply KeptOut.next | apply State.modPins_kept
    | split

theorem execSmbDevInfo_kept {a₀ s : State} (h : Kept a₀ s) : KeptOut a₀ (execSmbDevInfo s) := by
  unfold execSmbDevInfo
  repeat' first
    | with_reducible first
        | assumption | apply smbusOp_kept

theorem execSmbThermalTarget_kept {a₀ s : State} (h : Kept a₀ s) : KeptOut a₀ (execSmbThermalTarget s) := by
  unfold execSmbThermalTarget
  repeat' first
    | with_reducible first
        | assumption | apply smbusOp_kept

theorem execSmbAlertsClear_kept {a₀ : State} (v : BitVec 16) {s : State} (h : Kept a₀ s) :
    KeptOut a₀ (execSmbAlertsClear v s) := by
  unfold execSmbAlertsClear
  repeat' first
    | with_reducible first
        | assumption | apply smbusOp_kept | apply State.alert_kept | apply State.modPower_kept | apply foldl_kept
        | apply Kept.ite
    | extract_lets | (intro; intros)

theorem execAttest_kept {a₀ : State} (k : Nat) {s : State} (h : Kept a₀ s) : KeptOut a₀ (execAttest k s) := by
  unfold execAttest
  repeat' first
    | with_reducible first
        | assumption | apply plainCmd_kept | apply State.complete_kept | apply State.modRl_kept | apply State.modHelm_kept
        | apply Kept.ite | rfl
    | extract_lets | exact id | (intro; intros)

theorem execSmbHottestDie_kept {a₀ s : State} (h : Kept a₀ s) : KeptOut a₀ (execSmbHottestDie s) := by
  unfold execSmbHottestDie
  repeat' first
    | with_reducible first
        | assumption | apply smbusOp_kept

theorem execSmbChrono_kept {a₀ s : State} (h : Kept a₀ s) : KeptOut a₀ (execSmbChrono s) := by
  unfold execSmbChrono
  repeat' first
    | with_reducible first
        | assumption | apply smbusOp_kept

theorem execSmbCapRead_kept {a₀ s : State} (h : Kept a₀ s) : KeptOut a₀ (execSmbCapRead s) := by
  unfold execSmbCapRead
  repeat' first
    | with_reducible first
        | assumption | apply smbusOp_kept

theorem State.helmEvent_kept {a₀ s : State} (cause : Nat) (h : Kept a₀ s) : Kept a₀ (State.helmEvent s cause) := by
  unfold State.helmEvent
  repeat' first
    | with_reducible first
        | assumption | apply State.eventTo_kept | apply Kept.ite

theorem Helm.storeOwner_fuse (h : Helm) : h.storeOwner.fuse = h.fuse ∧ h.storeOwner.revoke = h.revoke := by
  unfold Helm.storeOwner
  extract_lets r key
  split <;> exact ⟨rfl, rfl⟩

theorem execHelmRestartDone_kept {a₀ : State} (ok : Bool) {s : State} (h : Kept a₀ s) :
    KeptOut a₀ (execHelmRestartDone ok s) := by
  unfold execHelmRestartDone
  split
  · exact KeptOut.next h
  · extract_lets l first s1
    split
    · have h1 : Kept a₀ s1 := State.modHelm_kept _ h (Nat.le_refl _) id rfl
      exact KeptOut.next (Kept.ite (State.complete_kept _ _ _ h1) h1)
    · extract_lets done s1 v s2 s3
      have h1 : Kept a₀ s1 := by
        refine Kept.ite (State.modHelm_kept _ h ?_ ?_ (Helm.storeOwner_fuse _).2) (Kept.ite (State.modHelm_kept _ h (Nat.le_refl _) id rfl) h)
        · exact Nat.le_of_eq (Helm.storeOwner_fuse _).1.symm
        · exact fun h => Nat.le_trans (Nat.le_of_eq (Helm.storeOwner_fuse _).1) h
      have h2 : Kept a₀ s2 :=
        Kept.ite (State.complete_kept _ _ _ h1) (Kept.ite (State.complete_kept _ _ _ h1) h1)
      exact KeptOut.next (State.helmEvent_kept _ (State.raiseMsi_kept _ (State.helmRuns_kept _ h2)))

theorem execSmbEnergy_kept {a₀ s : State} (h : Kept a₀ s) : KeptOut a₀ (execSmbEnergy s) := by
  unfold execSmbEnergy
  repeat' first
    | with_reducible first
        | assumption | apply smbusOp_kept

theorem execHelmFlashWrite_kept {a₀ s : State} (h : Kept a₀ s) : KeptOut a₀ (execHelmFlashWrite s) := by
  unfold execHelmFlashWrite
  repeat' first
    | with_reducible first
        | assumption | apply KeptOut.next | apply State.modRel_kept
    | extract_lets
    | exact (Rel.Grows.of_eq rfl rfl rfl rfl rfl rfl)
    | split

theorem execSmbReady_kept {a₀ s : State} (h : Kept a₀ s) : KeptOut a₀ (execSmbReady s) := by
  unfold execSmbReady
  repeat' first
    | with_reducible first
        | assumption | apply smbusOp_kept

theorem execSmbHottestStack_kept {a₀ s : State} (h : Kept a₀ s) : KeptOut a₀ (execSmbHottestStack s) := by
  unfold execSmbHottestStack
  repeat' first
    | with_reducible first
        | assumption | apply smbusOp_kept

theorem execSmbCapInForce_kept {a₀ s : State} (h : Kept a₀ s) : KeptOut a₀ (execSmbCapInForce s) := by
  unfold execSmbCapInForce
  repeat' first
    | with_reducible first
        | assumption | apply smbusOp_kept

theorem execFwActivate_kept {a₀ : State} (k : Nat) {s : State} (h : Kept a₀ s) : KeptOut a₀ (execFwActivate k s) := by
  unfold execFwActivate
  repeat' first
    | with_reducible first
        | assumption | apply helmCmd_kept | apply State.helmRestarts_kept | apply State.complete_kept | apply Kept.ite
    | extract_lets | (intro; intros)

theorem execFwStage_kept {a₀ : State} (k : Nat) (pkg : Option (List Byte)) {s : State} (h : Kept a₀ s) :
    KeptOut a₀ (execFwStage k pkg s) := by
  unfold execFwStage
  repeat' first
    | with_reducible first
        | assumption | apply plainCmd_kept | apply State.complete_kept | apply State.raiseMsi_kept | apply State.modHelm_kept
        | apply Kept.ite | rfl
    | extract_lets | exact id | split | (intro; intros)

theorem State.abortCommands_kept {a₀ s : State} (h : Kept a₀ s) : Kept a₀ (State.abortCommands s) := by
  unfold State.abortCommands
  have h1 : Kept a₀ (s.forAll (List.range 64) fun s k => s.complete k 0x0E []) :=
    State.forAll_kept _ _ h fun s k h => State.complete_kept k _ _ h
  generalize s.forAll (List.range 64) (fun s k => s.complete k 0x0E []) = s1 at h1 ⊢
  refine State.modDbg_kept _ (State.modStow_kept _ (State.modJob_kept _ h1 fun hj => ?_))
  dsimp only
  repeat' split
  · decide
  · decide
  · exact hj

theorem State.watchdog_kept {a₀ s : State} (h : Kept a₀ s) : Kept a₀ (State.watchdog s) := by
  unfold State.watchdog
  extract_lets p times s1 s2
  have h1 : Kept a₀ s1 := State.alert_kept _ (State.readyFrom_kept (State.modHelm_kept _ h (Nat.le_refl _) id rfl) h)
  have h2 : Kept a₀ s2 := State.abortCommands_kept h1
  generalize s1 = s1 at h1
  generalize s2 = s2 at h2
  split
  · exact State.helmRestarts_kept _ _ (State.complete_kept _ _ _ h1)
  · refine Kept.ite (State.helmRestarts_kept _ _ h2) (Kept.ite (State.helmRestarts_kept _ _ h2) ?_)
    exact State.readyFrom_kept (State.modHelm_kept _ h2 (Nat.le_refl _) id rfl) h

theorem execHelmWatchdogExpiry_kept {a₀ s : State} (h : Kept a₀ s) : KeptOut a₀ (execHelmWatchdogExpiry s) := by
  unfold execHelmWatchdogExpiry
  repeat' first
    | with_reducible first
        | assumption | apply KeptOut.next | apply State.watchdog_kept
    | split

theorem execSmbInputCurrent_kept {a₀ s : State} (h : Kept a₀ s) : KeptOut a₀ (execSmbInputCurrent s) := by
  unfold execSmbInputCurrent
  repeat' first
    | with_reducible first
        | assumption | apply smbusOp_kept

theorem execSmbInputMv_kept {a₀ s : State} (h : Kept a₀ s) : KeptOut a₀ (execSmbInputMv s) := by
  unfold execSmbInputMv
  repeat' first
    | with_reducible first
        | assumption | apply smbusOp_kept

theorem execLinkConfig_kept {a₀ : State} (k : Nat) (table : List Byte) {s : State} (h : Kept a₀ s) :
    KeptOut a₀ (execLinkConfig k table s) := by
  unfold execLinkConfig
  repeat' first
    | with_reducible first
        | assumption | apply plainCmd_kept | apply State.complete_kept | apply Port.configured_st | apply Port.dropped_st
        | apply State.readyFrom_kept | apply State.refreshPorts_kept | apply State.modNet_kept | apply State.forAll_kept
        | apply State.modPort_kept | apply Kept.ite
    | extract_lets | exact Nat.le_of_ble_eq_true rfl | split | (intro; intros)

theorem execSmbModid_kept {a₀ s : State} (h : Kept a₀ s) : KeptOut a₀ (execSmbModid s) := by
  unfold execSmbModid
  repeat' first
    | with_reducible first
        | assumption | apply smbusOp_kept

theorem execSmbHelmVer_kept {a₀ s : State} (h : Kept a₀ s) : KeptOut a₀ (execSmbHelmVer s) := by
  unfold execSmbHelmVer
  repeat' first
    | with_reducible first
        | assumption | apply smbusOp_kept

theorem execSmbThrottle_kept {a₀ s : State} (h : Kept a₀ s) : KeptOut a₀ (execSmbThrottle s) := by
  unfold execSmbThrottle
  repeat' first
    | with_reducible first
        | assumption | apply smbusOp_kept

theorem execSmbAlertsRead_kept {a₀ s : State} (h : Kept a₀ s) : KeptOut a₀ (execSmbAlertsRead s) := by
  unfold execSmbAlertsRead
  repeat' first
    | with_reducible first
        | assumption | apply smbusOp_kept

theorem execSmbCapWrite_kept {a₀ : State} (v : BitVec 16) {s : State} (h : Kept a₀ s) : KeptOut a₀ (execSmbCapWrite v s) := by
  unfold execSmbCapWrite
  repeat' first
    | with_reducible first
        | assumption | apply smbusOp_kept | apply State.modPower_kept | apply Kept.ite

theorem execSmbInputPower_kept {a₀ s : State} (h : Kept a₀ s) : KeptOut a₀ (execSmbInputPower s) := by
  unfold execSmbInputPower
  repeat' first
    | with_reducible first
        | assumption | apply smbusOp_kept

theorem State.runRegion_kept {a₀ s : State} (r : Nat) (h : Kept a₀ s) : Kept a₀ (State.runRegion s r) := by
  unfold State.runRegion
  repeat' first
    | with_reducible first
        | assumption | apply State.modRegion_kept | apply Kept.ite
    | extract_lets
    | (rename_i hx _; exact ⟨Nat.le_of_ble_eq_true rfl, hx.2⟩)
    | (intro; intros)

theorem State.sightBetween_kept {a₀ s : State} (h : Kept a₀ s) : Kept a₀ (State.sightBetween s) := by
  unfold State.sightBetween
  repeat' first
    | with_reducible first
        | assumption | apply State.readyFrom_kept | apply State.refreshPorts_kept | apply State.runRegion_kept
        | apply State.modRel_kept | apply State.forAll_kept
    | extract_lets
    | exact (Rel.Grows.of_eq rfl rfl rfl rfl rfl rfl)

theorem State.wildRegion_kept {a₀ s : State} (r : Nat) (h : Kept a₀ s) : Kept a₀ (State.wildRegion s r) :=
  State.wildUnits_kept _ _ h

theorem State.sightReturn_kept {a₀ s : State} (p : Nat × Nat) (h : Kept a₀ s) : Kept a₀ (State.sightReturn s p) := by
  unfold State.sightReturn
  repeat' first
    | with_reducible first
        | assumption | apply State.wildRegion_kept | apply State.offOne_kept | apply State.sleepOne_kept | apply Kept.ite

theorem State.sightRecord_kept {a₀ s : State} (f : SightFault) (h : Kept a₀ s) : Kept a₀ (State.sightRecord s f) := by
  unfold State.sightRecord
  repeat' first
    | with_reducible first
        | assumption | apply State.noteRegion_kept | apply State.took_kept | apply State.modTile_kept
        | apply State.modCluster_kept | apply State.modRel_kept | apply State.modRegion_kept
    | extract_lets | assumption
    | exact (Rel.Grows.of_eq rfl rfl rfl rfl rfl rfl)
    | split | (intro; intros)

theorem execSightEnd_kept {a₀ : State} (found : List SightFault) {s : State} (h : Kept a₀ s) :
    KeptOut a₀ (execSightEnd found s) := by
  unfold execSightEnd
  repeat' first
    | with_reducible first
        | assumption | apply KeptOut.next | apply State.readyFrom_kept | apply State.refreshPorts_kept
        | apply State.sightReturn_kept | apply State.fenceDecide_kept | apply State.sightRecord_kept | apply State.event_kept
        | apply State.atBoundary_kept | apply State.devFault_kept | apply State.modRel_kept | apply State.took_kept
        | apply foldl_kept | apply Kept.ite
    | extract_lets
    | exact (Rel.Grows.of_eq rfl rfl rfl rfl rfl rfl)
    | split | (intro; intros) | dsimp +zetaDelta only []

theorem execMarginSight_kept {a₀ s : State} (h : Kept a₀ s) : KeptOut a₀ (execMarginSight s) := by
  unfold execMarginSight
  repeat' first
    | with_reducible first
        | assumption | apply KeptOut.next | apply State.sightBetween_kept | apply State.modRel_kept
    | extract_lets
    | exact (Rel.Grows.of_eq rfl rfl rfl rfl rfl rfl)
    | split

theorem Tile.loaded_legal (x : Tile) (im : Image) (y : TileImg) (hx : x.Legal) : (Tile.loaded x im y).Legal := by
  unfold Tile.loaded
  repeat' first
    | exact ⟨Nat.le_of_ble_eq_true rfl, Nat.le_of_ble_eq_true rfl⟩

theorem State.directBacking_kept {a₀ s : State} (b : Backing) (h : Kept a₀ s) : Kept a₀ (State.directBacking s b) := by
  unfold State.directBacking
  repeat' first
    | with_reducible first
        | assumption | apply State.modCluster_kept | apply State.modTile_kept | apply Kept.ite
    | extract_lets | assumption | (intro; intros)

theorem State.writeImage_kept {a₀ s : State} (im : Image) (h : Kept a₀ s) : Kept a₀ (State.writeImage s im) := by
  unfold State.writeImage
  repeat' first
    | with_reducible first
        | assumption | apply Tile.loaded_legal | apply State.directBacking_kept | apply State.modTile_kept
        | apply State.forAll_kept | apply State.modCluster_kept | apply foldl_kept
    | extract_lets | (intro; intros)

theorem State.load_kept {a₀ s : State} (im : Image) (t : Nat) (m : Nat) (idx : Nat) (evpage : Nat) (env : LoadEnv)
    (h : Kept a₀ s) :
    Kept a₀ (State.load s im t m idx evpage env) := by
  unfold State.load
  repeat' first
    | with_reducible first
        | assumption | apply State.writeImage_kept | apply State.modJob_kept | apply State.modDbg_kept
        | apply State.modPower_kept
    | extract_lets | exact fun _ => Nat.le_of_ble_eq_true rfl

theorem execJobLoad_kept {a₀ : State} (k : Nat) (env : LoadEnv) {s : State} (h : Kept a₀ s) :
    KeptOut a₀ (execJobLoad k env s) := by
  unfold execJobLoad
  repeat' first
    | with_reducible first
        | assumption | apply helmCmd_kept | apply State.complete_kept | apply State.load_kept | apply State.took_kept
        | apply Kept.ite
    | extract_lets | split | (intro; intros)

theorem State.completeIf_kept {a₀ s : State} (k : Nat) (opc : Nat) (status : Nat) (ws : List Word) (h : Kept a₀ s) :
    Kept a₀ (State.completeIf s k opc status ws) := by
  unfold State.completeIf
  repeat' first
    | with_reducible first
        | assumption | apply State.complete_kept | apply Kept.ite

theorem execJobStartTimeout_kept {a₀ s : State} (h : Kept a₀ s) : KeptOut a₀ (execJobStartTimeout s) := by
  unfold execJobStartTimeout
  repeat' first
    | with_reducible first
        | assumption | apply KeptOut.next | apply State.completeIf_kept | apply State.modJob_kept
    | extract_lets | exact fun _ => Nat.le_of_ble_eq_true rfl | split

theorem execJobResume_kept {a₀ : State} (k : Nat) (minA : Nat) {s : State} (h : Kept a₀ s) :
    KeptOut a₀ (execJobResume k minA s) := by
  unfold execJobResume
  repeat' first
    | with_reducible first
        | assumption | apply plainCmd_kept | apply State.complete_kept | apply State.modJob_kept | apply Kept.ite
    | extract_lets | exact id | (intro; intros)

theorem execJobAbortStop_kept {a₀ : State} (k : Nat) {s : State} (h : Kept a₀ s) : KeptOut a₀ (execJobAbortStop k s) := by
  unfold execJobAbortStop
  repeat' first
    | with_reducible first
        | assumption | apply helmCmd_kept | apply State.complete_kept | apply State.devFault_kept | apply Kept.ite
    | extract_lets | (intro; intros)

theorem Tile.started_legal (x : Tile) (hx : x.Legal) : (Tile.started x).Legal := by
  unfold Tile.started
  repeat' first
    | extract_lets | exact ⟨Nat.le_of_ble_eq_true rfl, Nat.le_of_ble_eq_true rfl⟩

theorem State.resumeReport_kept {a₀ s : State} (n minA : Nat) (h : Kept a₀ s) : Kept a₀ (State.resumeReport s n minA) := by
  unfold State.resumeReport
  split
  · exact State.modJob_kept _ h id
  · exact h

theorem execJobResumeTick_kept {a₀ s : State} (h : Kept a₀ s) : KeptOut a₀ (execJobResumeTick s) := by
  unfold execJobResumeTick
  repeat' first
    | with_reducible first
        | assumption | apply KeptOut.next | apply Tile.toCompute_legal | apply State.completeIf_kept
        | apply State.updateRun_kept | apply State.ownReport_kept | apply State.arrive_kept | apply State.forAll_kept
        | apply State.modTile_kept | apply State.modJob_kept | apply State.modPower_kept | apply State.modRel_kept
        | apply Tile.Legal.ite | apply State.event_kept | apply Kept.ite
    | extract_lets
    | exact (Rel.Grows.of_eq rfl rfl rfl rfl rfl rfl)
    | exact fun _ => Nat.le_of_ble_eq_true rfl | split | (intro; intros)

theorem execJobStart_kept {a₀ : State} (k : Nat) (env : StartEnv) {s : State} (h : Kept a₀ s) :
    KeptOut a₀ (execJobStart k env s) := by
  unfold execJobStart
  repeat' first
    | with_reducible first
        | assumption | apply plainCmd_kept | apply State.complete_kept | apply State.modJob_kept | apply Kept.ite
    | extract_lets | exact fun _ => Nat.le_of_ble_eq_true rfl | split | (intro; intros)

theorem State.startReport_kept {a₀ s : State} (e : StartEnv) (h : Kept a₀ s) : Kept a₀ (State.startReport s e) := by
  unfold State.startReport
  repeat' first
    | with_reducible first
        | assumption | apply State.completeIf_kept | apply State.modJob_kept | apply Kept.ite
    | exact fun _ => Nat.le_of_ble_eq_true rfl | exact id | split

theorem execJobStartTick_kept {a₀ s : State} (h : Kept a₀ s) : KeptOut a₀ (execJobStartTick s) := by
  unfold execJobStartTick
  repeat' first
    | with_reducible first
        | assumption | apply KeptOut.next | apply Tile.started_legal | apply State.completeIf_kept | apply State.updateRun_kept
        | apply State.ownReport_kept | apply State.arrive_kept | apply State.forAll_kept | apply State.modTile_kept
        | apply State.modCluster_kept | apply State.modJob_kept | apply State.modPower_kept | apply State.modRel_kept
    | extract_lets
    | exact (Rel.Grows.of_eq rfl rfl rfl rfl rfl rfl)
    | exact fun _ => Nat.le_of_ble_eq_true rfl | split | (intro; intros)

theorem execJobAbortUnload_kept {a₀ : State} (k : Nat) {s : State} (h : Kept a₀ s) : KeptOut a₀ (execJobAbortUnload k s) := by
  unfold execJobAbortUnload
  repeat' first
    | with_reducible first
        | assumption | apply helmCmd_kept | apply State.complete_kept | apply State.devFault_kept | apply State.unload_kept
        | apply Kept.ite
    | extract_lets | (intro; intros)

theorem execJobPause_kept {a₀ : State} (k : Nat) {s : State} (h : Kept a₀ s) : KeptOut a₀ (execJobPause k s) := by
  unfold execJobPause
  repeat' first
    | with_reducible first
        | assumption | apply plainCmd_kept | apply State.complete_kept | apply State.modWave_kept | apply Kept.ite
    | extract_lets | (intro; intros)

end Sys2Proof.Machine
end

