-- ==== Sys2Proof/Laws/KeptHost.lean ====
section
/-! SUPPORT. One lemma for each operation: what stow, registers, Sextant, host requests and the clock tick keep (Laws/Kept.lean). -/

namespace Sys2Proof.Machine

theorem execStowConfig_kept {a₀ : State} (k : Nat) (agree : Option Bool) {s : State} (h : Kept a₀ s) :
    KeptOut a₀ (execStowConfig k agree s) := by
  unfold execStowConfig
  repeat' first
    | with_reducible first
        | assumption | apply plainCmd_kept | apply State.complete_kept | apply State.modStow_kept | apply Kept.ite
    | extract_lets | split | (intro; intros)

theorem State.freezeFaults_kept {a₀ s : State} (h : Kept a₀ s) : Kept a₀ (State.freezeFaults s) := by
  unfold State.freezeFaults
  refine State.forAll_kept _ _ (State.forAll_kept _ _ h fun s t h => ?_) fun s c h => ?_
  · exact foldl_kept _ h fun s d h => State.tileFault_kept _ _ _ _ _ h
  · split
    · exact State.clusterFault_kept _ _ _ h
    · exact h

theorem execStowFreezeStart_kept {a₀ s : State} (h : Kept a₀ s) : KeptOut a₀ (execStowFreezeStart s) := by
  unfold execStowFreezeStart
  repeat' first
    | with_reducible first
        | assumption | apply KeptOut.next | apply State.freezeFaults_kept | apply State.modStow_kept
    | extract_lets | split

theorem Tile.planFor_legal (x : Tile) (sstep : Nat) (hx : x.Legal) : (Tile.planFor x sstep).Legal := by
  unfold Tile.planFor
  repeat' first
    | with_reducible first
        | assumption | apply Tile.modXs_legal

theorem Tile.frozen_legal (x : Tile) (hx : x.Legal) : (Tile.frozen x).Legal := by
  unfold Tile.frozen
  repeat' first
    | exact ⟨Nat.le_of_ble_eq_true rfl, Nat.le_of_ble_eq_true rfl⟩

theorem State.landBlock_kept {a₀ s : State} (n : Nat) (b : Nat) (data : List Byte) (crc : Option W32) (h : Kept a₀ s) :
    Kept a₀ (State.landBlock s n b data crc) := by
  unfold State.landBlock
  repeat' first
    | with_reducible first
        | assumption | apply Stack.put_st | apply State.modStk_kept
    | extract_lets | split | (intro; intros)

theorem State.landWin_kept {a₀ s : State} (n : Nat) (m : Map Byte) (crcs : Map W32) (h : Kept a₀ s) :
    Kept a₀ (State.landWin s n m crcs) := by
  unfold State.landWin
  repeat' first
    | with_reducible first
        | assumption | apply State.landBlock_kept | apply foldl_kept
    | extract_lets | (intro; intros)

theorem execStowConfigTimeout_kept {a₀ s : State} (h : Kept a₀ s) : KeptOut a₀ (execStowConfigTimeout s) := by
  unfold execStowConfigTimeout
  repeat' first
    | with_reducible first
        | assumption | apply KeptOut.next | apply State.completeIf_kept | apply State.modStow_kept
    | split

theorem execStowComplete_kept {a₀ : State} (res : StowEnd) {s : State} (h : Kept a₀ s) :
    KeptOut a₀ (execStowComplete res s) := by
  unfold execStowComplete
  repeat' first
    | with_reducible first
        | assumption | apply KeptOut.next | apply State.ownReport_kept | apply State.event_kept | apply State.stowFail_kept
        | apply State.modStow_kept
    | extract_lets | split

theorem Tile.lost_legal (x : Tile) (free : Nat) (t : Nat) (hx : x.Legal) : (x.lost free t).Legal := by
  simp only [Tile.lost, Tile.wild, Tile.Legal] at hx ⊢
  exact hx

theorem State.loseWin_kept {a₀ s : State} (n : Nat) (h : Kept a₀ s) : Kept a₀ (State.loseWin s n) := by
  unfold State.loseWin
  repeat' first
    | with_reducible first
        | assumption | apply State.landBlock_kept | apply foldl_kept
    | extract_lets | (intro; intros)

theorem State.moverReads_kept {a₀ s : State} (h : Kept a₀ s) : Kept a₀ (State.moverReads s).1 := by
  unfold State.moverReads
  repeat' first
    | with_reducible first
        | assumption | apply State.hbmRead_kept | apply foldl_pair_kept
    | extract_lets | split | (intro; intros)

theorem State.loadTallies_kept {a₀ s : State} (b : Backing) (h : Kept a₀ s) : Kept a₀ (State.loadTallies s b) := by
  unfold State.loadTallies
  repeat' first
    | with_reducible first
        | assumption | apply State.modCluster_kept

theorem State.restoreFailed_kept {a₀ s : State} (h : Kept a₀ s) : Kept a₀ (State.restoreFailed s) := by
  unfold State.restoreFailed
  repeat' first
    | with_reducible first
        | assumption | apply Tile.lost_legal | apply State.loseWin_kept | apply State.forAll_kept | apply State.modTile_kept
        | apply State.modCluster_kept | apply State.took_kept | apply State.modJob_kept
    | extract_lets | exact fun _ => Nat.le_of_ble_eq_true rfl | (intro; intros)

theorem Tile.thaw_legal (x y : Tile) : (x.thaw y).Legal := by
  constructor <;> exact Nat.le_of_ble_eq_true rfl

theorem State.restored_kept {a₀ s : State} (m : Snap) (win : Bool) (h : Kept a₀ s) : Kept a₀ (State.restored s m win) := by
  unfold State.restored
  extract_lets y s1 s2 s3 s4
  have hy : Kept a₀ y := by
    refine State.forAll_kept _ _ (State.forAll_kept _ _ h fun s t h => ?_) fun s c h => ?_
    · exact State.modTile_kept _ _ h fun x _ => Tile.thaw_legal x _
    · exact State.modCluster_kept _ _ h
  have h1 : Kept a₀ s1 := by
    refine Kept.ite ?_ (foldl_kept _ hy fun s p h => State.loadTallies_kept _ h)
    split
    · exact State.writeImage_kept _ h
    · exact h
  have h2 : Kept a₀ s2 := foldl_kept _ h1 fun s p h => State.landWin_kept _ _ _ h
  have h3 : Kept a₀ s3 := State.took_kept (State.forAll_kept _ _ h2 fun s n h => State.loseWin_kept _ h)
  have h4 : Kept a₀ s4 := State.forAll_kept _ _ h3 fun s t h => State.modTile_kept _ _ h fun x _ => by
    constructor <;> exact Nat.le_of_ble_eq_true rfl
  exact State.modJob_kept _ h4 fun _ => Nat.le_of_ble_eq_true rfl

theorem execRestoreComplete_kept {a₀ : State} (ok : Bool) {s : State} (h : Kept a₀ s) :
    KeptOut a₀ (execRestoreComplete ok s) := by
  unfold execRestoreComplete
  repeat' first
    | with_reducible first
        | assumption | apply KeptOut.next | apply State.completeIf_kept | apply State.restoreFailed_kept
        | apply State.restored_kept | apply State.event_kept | apply State.modStow_kept | apply Kept.ite
    | extract_lets | split | dsimp +zetaDelta only []

theorem State.landHosted_kept {a₀ s : State} (b : StowBlock) (h : Kept a₀ s) : Kept a₀ (State.landHosted s b) := by
  unfold State.landHosted
  repeat' first
    | with_reducible first
        | assumption | apply State.wakeStk_kept | apply Stack.put_st | apply State.modStow_kept | apply State.modStk_kept
        | apply Kept.ite
    | extract_lets | (intro; intros)

theorem execStowFreezeDone_kept {a₀ s : State} (h : Kept a₀ s) : KeptOut a₀ (execStowFreezeDone s) := by
  unfold execStowFreezeDone
  repeat' first
    | with_reducible first
        | assumption | apply KeptOut.next | apply State.moverReads_kept | apply State.atBoundary_kept
        | apply State.modStow_kept | apply Kept.ite
    | extract_lets | split

theorem execStowBlockLanding_kept {a₀ : State} (b : StowArrival) {s : State} (h : Kept a₀ s) :
    KeptOut a₀ (execStowBlockLanding b s) := by
  unfold execStowBlockLanding
  repeat' first
    | with_reducible first
        | assumption | apply KeptOut.next | apply State.landHosted_kept | apply State.readyFrom_kept
        | apply State.refreshPorts_kept | apply State.wakeOne_kept | apply State.modStow_kept | apply State.forAll_kept
        | apply Kept.ite
    | extract_lets | split | (intro; intros)

theorem execStowRestore_kept {a₀ : State} (k : Nat) (env : RestoreEnv) {s : State} (h : Kept a₀ s) :
    KeptOut a₀ (execStowRestore k env s) := by
  unfold execStowRestore
  repeat' first
    | with_reducible first
        | assumption | apply plainCmd_kept | apply State.complete_kept | apply State.jobReset_kept | apply State.modStow_kept
        | apply State.modJob_kept | apply Kept.ite
    | extract_lets | exact fun _ => Nat.le_refl _ | exact ⟨Nat.le_of_ble_eq_true rfl, Nat.le_of_ble_eq_true rfl⟩ | split
    | (intro; intros)

theorem State.writeTile_kept {a₀ s : State} (t : Nat) (off : Nat) (v : Word) (h : Kept a₀ s) :
    Kept a₀ (State.writeTile s t off v) := by
  unfold State.writeTile
  repeat' first
    | with_reducible first
        | assumption | apply State.tileReset_kept | apply Tile.modQu_legal | apply Tile.modMisc_legal
        | apply State.modTile_kept | apply Kept.ite
    | extract_lets | assumption | (intro; intros)

theorem State.writeCluster_kept {a₀ s : State} (c : Nat) (off : Nat) (v : Word) (h : Kept a₀ s) :
    Kept a₀ (State.writeCluster s c off v) := by
  unfold State.writeCluster
  repeat' first
    | with_reducible first
        | assumption | apply State.modCluster_kept | apply Kept.ite

theorem State.writeMod_kept {a₀ s : State} (off : Nat) (v : Word) (h : Kept a₀ s) : Kept a₀ (State.writeMod s off v) := by
  unfold State.writeMod
  repeat' first
    | with_reducible first
        | assumption | apply State.doorbell_kept | apply State.freeSlots_kept | apply State.clearTrip_kept
        | apply State.powerReq_kept | apply State.modPins_kept | apply State.modPower_kept | apply State.modRel_kept
        | apply State.modDbg_kept | apply Kept.ite
    | extract_lets
    | exact (Rel.Grows.of_eq rfl rfl rfl rfl rfl rfl)

theorem State.writeRegion_kept {a₀ s : State} (r : Nat) (off : Nat) (v : Word) (h : Kept a₀ s) :
    Kept a₀ (State.writeRegion s r off v) := by
  unfold State.writeRegion
  repeat' first
    | with_reducible first
        | assumption | apply State.regionReset_kept | apply State.modRegion_kept | apply Kept.ite
    | extract_lets | assumption | (intro; intros)

theorem State.writeReg_kept {a₀ s : State} (a : Nat) (v : Word) (h : Kept a₀ s) : Kept a₀ (State.writeReg s a v) := by
  unfold State.writeReg
  repeat' first
    | with_reducible first
        | assumption | apply State.writeMod_kept | apply State.writeRegion_kept | apply State.writeCluster_kept
        | apply State.writeTile_kept | apply Kept.ite
    | split

theorem execRegisterWrite_kept {a₀ : State} (off : Nat) (v : Word) {s : State} (h : Kept a₀ s) :
    KeptOut a₀ (execRegisterWrite off v s) := by
  unfold execRegisterWrite
  repeat' first
    | with_reducible first
        | assumption | apply KeptOut.next | apply State.writeReg_kept
    | split

theorem State.releaseAll_kept {a₀ s : State} (scope : Nat) (h : Kept a₀ s) : Kept a₀ (State.releaseAll s scope) := by
  unfold State.releaseAll
  repeat' first
    | with_reducible first
        | assumption | apply Tile.releaseAt_legal | apply State.forAll_kept | apply State.modTile_kept | apply foldl_legal
    | extract_lets | (intro; intros)

theorem sxErr_kept {a₀ s : State} (stat : Nat) (h : Kept a₀ s) : Kept a₀ (sxErr s stat).1 := by
  unfold sxErr
  repeat' first
    | with_reducible first
        | assumption

theorem onTile_kept {a₀ s : State} (t : Nat) (f : SxOut) (h : Kept a₀ s) (hf : Kept a₀ f.1) : Kept a₀ (onTile s t f).1 := by
  unfold onTile
  repeat' split
  all_goals first
    | exact h
    | exact hf

theorem sxOk_kept {a₀ s : State} (h : Kept a₀ s) : Kept a₀ (sxOk s).1 := by
  unfold sxOk
  repeat' first
    | with_reducible first
        | assumption

theorem State.sxHalt_kept {a₀ s : State} (scope : Nat) (t : Nat) (q : Strm) (h : Kept a₀ s) :
    Kept a₀ (State.sxHalt s scope t q).1 := by
  unfold State.sxHalt
  repeat' first
    | with_reducible first
        | assumption | apply onTile_kept | apply sxOk_kept | apply Tile.haltBy_legal | apply sxErr_kept
        | apply State.modTile_kept | apply State.forAll_kept | apply State.modWave_kept | apply foldl_legal
    | extract_lets | split | (intro; intros)

theorem State.askRelease_kept {a₀ s : State} (h : Kept a₀ s) : Kept a₀ (State.askRelease s) :=
  Kept.ite (State.modDbg_kept _ h) h

theorem State.tickRelease_kept {a₀ s : State} (h : Kept a₀ s) : Kept a₀ (State.tickRelease s) := by
  unfold State.tickRelease
  split
  · exact h
  · exact Kept.ite h (State.modDbg_kept _ (State.releaseAll_kept _ h))

theorem State.sxRelease_kept {a₀ s : State} (scope : Nat) (t : Nat) (q : Strm) (h : Kept a₀ s) :
    Kept a₀ (State.sxRelease s scope t q).1 := by
  unfold State.sxRelease
  repeat' first
    | with_reducible first
        | assumption | apply onTile_kept | apply sxOk_kept | apply Tile.releaseAt_legal | apply State.releaseAll_kept | apply State.askRelease_kept
        | apply sxErr_kept | apply State.modTile_kept | apply State.modDbg_kept | apply foldl_legal
    | extract_lets | split | (intro; intros)

theorem State.sxStep_kept {a₀ s : State} (scope : Nat) (t : Nat) (q : Strm) (h : Kept a₀ s) :
    Kept a₀ (State.sxStep s scope t q).1 := by
  unfold State.sxStep
  repeat' first
    | with_reducible first
        | assumption | apply onTile_kept | apply Tile.modMisc_legal | apply sxErr_kept | apply sxOk_kept
        | apply State.releaseAll_kept | apply State.askRelease_kept | apply State.modTile_kept | apply State.modWave_kept | apply State.modDbg_kept
    | extract_lets | split | (intro; intros)

theorem State.sxStatus_kept {a₀ s : State} (scope : Nat) (t : Nat) (h : Kept a₀ s) :
    Kept a₀ (State.sxStatus s scope t).1 := by
  unfold State.sxStatus
  repeat' first
    | with_reducible first
        | assumption | apply onTile_kept
    | split

theorem State.sxEvent_kept {a₀ s : State} (t : Nat) (h : Kept a₀ s) : Kept a₀ (State.sxEvent s t).1 := by
  unfold State.sxEvent
  repeat' first
    | with_reducible first
        | assumption | apply onTile_kept | apply sxOk_kept | apply State.debugEvent_kept

theorem State.sxWriteIm_kept {a₀ s : State} (t : Nat) (slot : Nat) (l : List Word) (h : Kept a₀ s) :
    Kept a₀ (State.sxWriteIm s t slot l) := by
  unfold State.sxWriteIm
  repeat' first
    | with_reducible first
        | assumption | apply State.took_kept | apply State.setTile_kept
    | extract_lets | exact id

theorem State.sxWriteSp_kept {a₀ s : State} (t : Nat) (addr : Nat) (b : List Byte) (h : Kept a₀ s) :
    Kept a₀ (State.sxWriteSp s t addr b) := by
  unfold State.sxWriteSp
  repeat' first
    | with_reducible first
        | assumption | apply Tile.dropAcc_legal | apply Tile.addAcc_legal | apply State.took_kept | apply State.setTile_kept
    | extract_lets | (intro; intros) | apply Tile.noteWrite_legal

theorem State.sxWriteAm_kept {a₀ s : State} (t : Nat) (addr : Nat) (l : List Word) (h : Kept a₀ s) :
    Kept a₀ (State.sxWriteAm s t addr l) := by
  unfold State.sxWriteAm
  repeat' first
    | with_reducible first
        | assumption | apply State.took_kept | apply State.setTile_kept
    | extract_lets | exact id

theorem State.sxWriteHbm_kept {a₀ s : State} (space : Nat) (addr : Nat) (b : List Byte) (h : Kept a₀ s) :
    Kept a₀ (State.sxWriteHbm s space addr b) := by
  unfold State.sxWriteHbm
  repeat' first
    | with_reducible first
        | assumption | apply State.wakeStk_kept | apply State.hbmRead_kept | apply Stack.put_st | apply State.countStk_kept
        | apply State.modStk_kept | apply foldl_kept | apply Kept.ite
    | extract_lets | (intro; intros)

theorem State.sxWrite_kept {a₀ s : State} (space : Nat) (unit : Nat) (addr : Nat) (l : List Word) (h : Kept a₀ s) :
    Kept a₀ (State.sxWrite s space unit addr l) := by
  unfold State.sxWrite
  repeat' first
    | with_reducible first
        | assumption | apply State.writeReg_kept | apply State.sxWriteIm_kept | apply State.sxWriteSp_kept
        | apply State.sxWriteAm_kept | apply State.csWrite_kept | apply State.sxWriteHbm_kept | apply State.modTile_kept
        | apply foldl_kept
    | extract_lets | assumption | split | (intro; intros)

theorem State.sxHbmRead_kept {a₀ s : State} (space : Nat) (addr : Nat) (len : Nat) (h : Kept a₀ s) :
    Kept a₀ (State.sxHbmRead s space addr len).1 := by
  unfold State.sxHbmRead
  repeat' first
    | with_reducible first
        | assumption | apply State.hbmRead_kept | apply State.wakeStk_kept | apply foldl_pair_kept
    | extract_lets | (intro; intros)

theorem State.sxRead_kept {a₀ s : State} (space : Nat) (unit : Nat) (addr : Nat) (len : Nat) (h : Kept a₀ s) :
    Kept a₀ (State.sxRead s space unit addr len).1 := by
  unfold State.sxRead
  repeat' first
    | with_reducible first
        | assumption | apply State.sxHbmRead_kept | apply State.took_kept
    | extract_lets | split

theorem State.sxMove_kept {a₀ s : State} (wr : Bool) (space : Nat) (unit : Nat) (addr : Nat) (len : Nat) (data : List Word)
    (h : Kept a₀ s) :
    Kept a₀ (State.sxMove s wr space unit addr len data).1 := by
  unfold State.sxMove
  repeat' first
    | with_reducible first
        | assumption | apply sxErr_kept | apply State.sxWrite_kept | apply sxOk_kept | apply State.sxRead_kept
        | apply State.modDbg_kept | apply Kept.ite
    | extract_lets | split

theorem State.sextant_kept {a₀ s : State} (w1 : Word) (w2 : Word) (w3 : Word) (bulk : List Word) (h : Kept a₀ s) :
    Kept a₀ (State.sextant s w1 w2 w3 bulk).1 := by
  unfold State.sextant
  repeat' first
    | with_reducible first
        | assumption | apply sxErr_kept | apply State.sxHalt_kept | apply State.sxRelease_kept | apply State.sxStep_kept
        | apply State.sxStatus_kept | apply State.sxEvent_kept | apply State.sxMove_kept
    | extract_lets | split | dsimp +zetaDelta only []

theorem sxTap_kept {a₀ : State} (w1 : Word) (w2 : Word) (w3 : Word) (bulk : List Word) {s : State} (h : Kept a₀ s) :
    KeptOut a₀ (sxTap w1 w2 w3 bulk s) := by
  unfold sxTap
  repeat' first
    | with_reducible first
        | assumption | apply KeptOut.next | apply State.sextant_kept | apply State.modDbg_kept
        | refine Kept.of_pair (by assumption) ?_
    | split

theorem execHalt_kept {a₀ : State} (scope : Nat) (unit : Nat) (q : Strm) {s : State} (h : Kept a₀ s) :
    KeptOut a₀ (execHalt scope unit q s) := by
  unfold execHalt
  repeat' first
    | with_reducible first
        | assumption | apply sxTap_kept

theorem execStatus_kept {a₀ : State} (scope : Nat) (unit : Nat) {s : State} (h : Kept a₀ s) :
    KeptOut a₀ (execStatus scope unit s) := by
  unfold execStatus
  repeat' first
    | with_reducible first
        | assumption | apply sxTap_kept

theorem execRead_kept {a₀ : State} (space : Nat) (unit : Nat) (addr : Nat) (len : Nat) {s : State} (h : Kept a₀ s) :
    KeptOut a₀ (execRead space unit addr len s) := by
  unfold execRead
  repeat' first
    | with_reducible first
        | assumption | apply sxTap_kept

theorem execStep_kept {a₀ : State} (scope : Nat) (unit : Nat) (q : Strm) {s : State} (h : Kept a₀ s) :
    KeptOut a₀ (execStep scope unit q s) := by
  unfold execStep
  repeat' first
    | with_reducible first
        | assumption | apply sxTap_kept

theorem execDebugTunnel_kept {a₀ : State} (k : Nat) (buf : List Word) {s : State} (h : Kept a₀ s) :
    KeptOut a₀ (execDebugTunnel k buf s) := by
  unfold execDebugTunnel
  repeat' first
    | with_reducible first
        | assumption | apply helmCmd_kept | apply State.sextant_kept | apply State.complete_kept | apply State.modRl_kept
        | apply State.modDbg_kept | apply Kept.ite | refine Kept.of_pair (by assumption) ?_
    | extract_lets | exact id | split | (intro; intros)

theorem State.notice_kept {a₀ : State} (m : Nat) (on : Notice) {s : State} (h : Kept a₀ s) : Kept a₀ (State.notice s m on) := by
  unfold State.notice
  repeat' first
    | with_reducible first
        | assumption | apply State.modJob_kept | apply State.modDbg_kept | apply State.modWave_kept | apply State.startReport_kept
        | apply State.resumeReport_kept | apply Kept.ite
    | exact id | split

theorem execHaltNotice_kept {a₀ : State} (m : Nat) (on : Notice) {s : State} (h : Kept a₀ s) :
    KeptOut a₀ (execHaltNotice m on s) := by
  unfold execHaltNotice
  split
  · exact KeptOut.next (State.notice_kept m on h)
  · exact KeptOut.next h

theorem execEvent_kept {a₀ : State} (unit : Nat) {s : State} (h : Kept a₀ s) : KeptOut a₀ (execEvent unit s) := by
  unfold execEvent
  repeat' first
    | with_reducible first
        | assumption | apply sxTap_kept

theorem execWrite_kept {a₀ : State} (space : Nat) (unit : Nat) (addr : Nat) (len : Nat) (data : List Word) {s : State}
    (h : Kept a₀ s) :
    KeptOut a₀ (execWrite space unit addr len data s) := by
  unfold execWrite
  repeat' first
    | with_reducible first
        | assumption | apply sxTap_kept

theorem execRelease_kept {a₀ : State} (scope : Nat) (unit : Nat) (q : Strm) {s : State} (h : Kept a₀ s) :
    KeptOut a₀ (execRelease scope unit q s) := by
  unfold execRelease
  repeat' first
    | with_reducible first
        | assumption | apply sxTap_kept

theorem State.respond_kept {a₀ s : State} (id : Nat) (status : Nat) (data : List Byte) (h : Kept a₀ s) :
    Kept a₀ (State.respond s id status data) := by
  unfold State.respond
  repeat' first
    | with_reducible first
        | assumption | apply State.rlPost_kept | apply State.modRl_kept
    | extract_lets | (intro; intros)

theorem State.lineRead_kept {a₀ s : State} (line : Nat) (h : Kept a₀ s) : Kept a₀ (State.lineRead s line).1 := by
  unfold State.lineRead
  repeat' first
    | with_reducible first
        | assumption | apply State.hbmRead_kept | apply State.wakeStk_kept

theorem State.grantLine_kept {a₀ s : State} (id : Nat) (line : Nat) (owned : Bool) (h : Kept a₀ s) :
    Kept a₀ (State.grantLine s id line owned).1 := by
  unfold State.grantLine
  repeat' first
    | with_reducible first
        | assumption | apply State.lineRead_kept | apply State.respond_kept | apply State.sendBinv_kept
        | apply State.modRl_kept | refine Kept.of_pair (by assumption) ?_
    | extract_lets | split | (intro; intros) | dsimp +zetaDelta only []

theorem State.unsupported_kept {a₀ s : State} (id : Nat) (h : Kept a₀ s) : Kept a₀ (State.unsupported s id) := by
  unfold State.unsupported
  repeat' first
    | with_reducible first
        | assumption | apply State.respond_kept | apply State.countRl_kept

theorem State.pageWrite_kept {a₀ s : State} (off : Nat) (parts : List (Nat × List Byte)) (h : Kept a₀ s) :
    Kept a₀ (State.pageWrite s off parts) := by
  unfold State.pageWrite
  repeat' first
    | with_reducible first
        | assumption | apply State.modPage_kept

theorem State.lineWrite_kept {a₀ s : State} (line : Nat) (parts : List (Nat × List Byte)) (h : Kept a₀ s) :
    Kept a₀ (State.lineWrite s line parts) := by
  unfold State.lineWrite
  repeat' first
    | with_reducible first
        | assumption | apply State.hostStore_kept | apply State.wakeStk_kept

theorem State.cfgWrite_kept {a₀ s : State} (off : Nat) (v : Word) (h : Kept a₀ s) : Kept a₀ (State.cfgWrite s off v) := by
  unfold State.cfgWrite
  repeat' first
    | with_reducible first
        | assumption | apply State.hcwWrite_kept | apply State.msiWrite_kept | apply State.modRl_kept | apply Kept.ite
    | extract_lets | exact id

theorem State.hostOne_kept {a₀ s : State} (c : Instr) (h : Kept a₀ s) : Kept a₀ (State.hostOne s c).1 := by
  unfold State.hostOne
  repeat' first
    | with_reducible first
        | assumption | apply State.respond_kept | apply State.grantLine_kept | apply State.unsupported_kept
        | apply State.lineRead_kept | apply State.pageWrite_kept | apply State.lineWrite_kept | apply State.writeReg_kept
        | apply State.cfgWrite_kept | apply State.modRl_kept | apply Kept.ite | refine Kept.of_pair (by assumption) ?_
    | extract_lets | exact id | split | dsimp +zetaDelta only []

theorem State.serve_kept {a₀ s : State} (left l : List HostWait) (h : Kept a₀ s) : Kept a₀ (State.serve s left l) := by
  induction l generalizing s left with
  | nil => exact State.modRl_kept _ h fun h => h
  | cons w r ih =>
    unfold State.serve
    split
    · exact ih _ h
    · have hw := State.hostOne_kept w.c h
      split
      · rename_i e
        rw [e] at hw
        exact ih _ hw
      · rename_i e
        rw [e] at hw
        exact ih _ hw

theorem hostReq_kept {a₀ : State} (c : Instr) {s : State} (h : Kept a₀ s) : KeptOut a₀ (hostReq c s) := by
  unfold hostReq
  repeat' first
    | with_reducible first
        | assumption | apply KeptOut.next | apply State.serve_kept | apply State.modRl_kept
    | extract_lets | exact id | split

theorem execRds_kept {a₀ : State} (id : Nat) (addr : Nat) {s : State} (h : Kept a₀ s) : KeptOut a₀ (execRds id addr s) := by
  unfold execRds
  repeat' first
    | with_reducible first
        | assumption | apply hostReq_kept

theorem execWrline_kept {a₀ : State} (id : Nat) (addr : Nat) (data : List Byte) {s : State} (h : Kept a₀ s) :
    KeptOut a₀ (execWrline id addr data s) := by
  unfold execWrline
  repeat' first
    | with_reducible first
        | assumption | apply hostReq_kept

theorem execRdo_kept {a₀ : State} (id : Nat) (addr : Nat) {s : State} (h : Kept a₀ s) : KeptOut a₀ (execRdo id addr s) := by
  unfold execRdo
  repeat' first
    | with_reducible first
        | assumption | apply hostReq_kept

theorem State.serveHeld_kept {a₀ s : State} (h : Kept a₀ s) : Kept a₀ (State.serveHeld s) := by
  unfold State.serveHeld
  repeat' first
    | with_reducible first
        | assumption | apply State.serve_kept

theorem execInvack_kept {a₀ : State} (line : Nat) (data : Option (List Byte)) {s : State} (h : Kept a₀ s) :
    KeptOut a₀ (execInvack line data s) := by
  unfold execInvack
  repeat' first
    | with_reducible first
        | assumption | apply KeptOut.next | apply State.lineWrite_kept | apply State.askDone_kept | apply State.retryHcw_kept
        | apply State.serveHeld_kept | apply State.modRl_kept
    | extract_lets | exact id | split | dsimp +zetaDelta only []

theorem execCfgwr_kept {a₀ : State} (id : Nat) (off : Nat) (v : Word) {s : State} (h : Kept a₀ s) :
    KeptOut a₀ (execCfgwr id off v s) := by
  unfold execCfgwr
  repeat' first
    | with_reducible first
        | assumption | apply hostReq_kept

theorem execCfgrd_kept {a₀ : State} (id : Nat) (off : Nat) {s : State} (h : Kept a₀ s) : KeptOut a₀ (execCfgrd id off s) := by
  unfold execCfgrd
  repeat' first
    | with_reducible first
        | assumption | apply hostReq_kept

theorem execRdnc_kept {a₀ : State} (id : Nat) (addr : Nat) (len : Nat) {s : State} (h : Kept a₀ s) :
    KeptOut a₀ (execRdnc id addr len s) := by
  unfold execRdnc
  repeat' first
    | with_reducible first
        | assumption | apply hostReq_kept

theorem execEvict_kept {a₀ : State} (id : Nat) (addr : Nat) {s : State} (h : Kept a₀ s) :
    KeptOut a₀ (execEvict id addr s) := by
  unfold execEvict
  repeat' first
    | with_reducible first
        | assumption | apply hostReq_kept

theorem execWrpart_kept {a₀ : State} (id : Nat) (addr : Nat) (mask : Word) (data : List Byte) {s : State} (h : Kept a₀ s) :
    KeptOut a₀ (execWrpart id addr mask data s) := by
  unfold execWrpart
  repeat' first
    | with_reducible first
        | assumption | apply hostReq_kept

theorem Tile.syncStalls_legal (x : Tile) (n : Nat) (hx : x.Legal) : (Tile.syncStalls x n).Legal := by
  unfold Tile.syncStalls
  repeat' first
    | with_reducible first
        | assumption | apply Tile.count_legal | apply foldl_legal | apply Tile.Legal.ite
    | extract_lets | (intro; intros)

theorem State.tickTile_kept {a₀ s : State} (s0 : State) (t : Nat) (h : Kept a₀ s) : Kept a₀ (State.tickTile s0 s t) := by
  unfold State.tickTile
  repeat' first
    | with_reducible first
        | assumption | apply Tile.syncStalls_legal | apply Tile.count_legal | apply State.setTile_kept
    | extract_lets | split | (intro; intros)

theorem State.tickJob_kept {a₀ s : State} (s0 : State) (h : Kept a₀ s) : Kept a₀ (State.tickJob s0 s) := by
  unfold State.tickJob
  repeat' first
    | with_reducible first
        | assumption | apply State.countJob_kept | apply State.tickTile_kept | apply State.forAll_kept | apply foldl_kept
        | apply Kept.ite
    | extract_lets | (intro; intros)

theorem State.tickCluster_kept {a₀ s : State} (c : Nat) (h : Kept a₀ s) : Kept a₀ (State.tickCluster s c) := by
  unfold State.tickCluster
  repeat' first
    | with_reducible first
        | assumption | apply State.modCluster_kept

theorem State.tickClocks_kept {a₀ s : State} (h : Kept a₀ s) : Kept a₀ (State.tickClocks s) := by
  unfold State.tickClocks
  extract_lets s1 s2 n e s3
  have h1 : Kept a₀ s1 := State.modRel_kept _ h
    (Rel.Grows.of_eq rfl rfl rfl rfl rfl rfl)
  have h2 : Kept a₀ s2 := State.modPower_kept _ h1
  exact Kept.ite h1 (Kept.ite ((State.modPower_kept _ h2).network _ _ _) h2)

theorem State.tickFrames_kept {a₀ s : State} (s0 : State) (h : Kept a₀ s) : Kept a₀ (State.tickFrames s s0) := by
  unfold State.tickFrames
  repeat' first
    | with_reducible first
        | assumption | apply State.modPower_kept | apply State.forAll_kept | apply State.modRegion_kept | apply Kept.ite
    | extract_lets | assumption | (intro; intros)

theorem State.tickQueue_kept {a₀ s : State} (t : Nat) (h : Kept a₀ s) : Kept a₀ (State.tickQueue s t) := by
  unfold State.tickQueue
  repeat' first
    | with_reducible first
        | assumption | apply State.countTile_kept | apply State.refreshQueue_kept | apply Kept.ite

theorem State.tickThrottle_kept {a₀ s : State} (h : Kept a₀ s) : Kept a₀ (State.tickThrottle s) := by
  unfold State.tickThrottle
  repeat' first
    | with_reducible first
        | assumption | apply State.modPower_kept | apply State.forAll_kept | apply State.modRegion_kept | apply Kept.ite
    | extract_lets | assumption | (intro; intros)

theorem State.tickRamp_kept {a₀ s : State} (h : Kept a₀ s) : Kept a₀ (State.tickRamp s) := by
  unfold State.tickRamp
  repeat' first
    | with_reducible first
        | assumption | apply State.applyRun_kept | apply State.modPower_kept | apply Kept.ite

theorem State.tickStack_kept {a₀ s : State} (k : Nat) (h : Kept a₀ s) : Kept a₀ (State.tickStack s k) := by
  unfold State.tickStack
  repeat' first
    | with_reducible first
        | assumption | apply State.modStk_kept
    | extract_lets | split | (intro; intros)

theorem Helm.tickBoot_burn_grows (h : Helm) :
    h.fuse ≤ h.tickBoot.burn.fuse ∧ (h.fuse ≤ 64 → h.tickBoot.burn.fuse ≤ 64) ∧ h.tickBoot.burn.revoke = h.revoke := by
  have e : h.tickBoot.fuse = h.fuse ∧ h.tickBoot.revoke = h.revoke := by unfold Helm.tickBoot; split <;> exact ⟨rfl, rfl⟩
  unfold Helm.burn
  split
  · exact ⟨by simp only [e.1]; omega, fun _ => by simp only; omega, e.2⟩
  · exact ⟨Nat.le_of_eq e.1.symm, fun h => e.1 ▸ h, e.2⟩

theorem State.clockTick_kept {a₀ s : State} (h : Kept a₀ s) : Kept a₀ (State.clockTick s) := by
  unfold State.clockTick
  extract_lets s1 j s2 s3 s4
  have h1 : Kept a₀ s1 := State.tickFrames_kept s (State.tickClocks_kept h)
  have hj : Kept a₀ j := by
    refine State.forAll_kept _ _ (State.forAll_kept _ _ (State.tickJob_kept s (State.tickThrottle_kept h1)) ?_) ?_
    · exact fun s t h => State.tickQueue_kept t h
    · exact fun s c h => State.tickCluster_kept c h
  have h2 : Kept a₀ s2 := Kept.ite (State.tickThrottle_kept h1)
    (State.took_kept (State.forAll_kept _ _ (State.tickRelease_kept hj) fun s k h => State.tickStack_kept k h))
  have h3 : Kept a₀ s3 := State.modDbg_kept _ (State.tickRamp_kept h2)
  have h4 : Kept a₀ s4 :=
    State.pendingReq_kept (State.modHelm_kept _ h3 (Helm.tickBoot_burn_grows _).1 (Helm.tickBoot_burn_grows _).2.1
      (Helm.tickBoot_burn_grows _).2.2)
  exact Kept.ite h (Kept.ite h1 (State.serveHeld_kept h4))

end Sys2Proof.Machine
end

