-- ==== Sys2Proof/Laws/PerInstr.lean ====
section
/-! SUPPORT. The family Units: for each command, it is well-formed exactly if each unit it names is one the module has. -/

namespace Sys2Proof

/-- The kinds of units commands name. -/
inductive UnitKind where
  | tile
  | cluster
  | region
  | stack
  | port
  | page
  | link
  | sensorKind
deriving DecidableEq, Repr

/-- How many units of a kind the module has; a link is one of the 32 ports or Riendlink. -/
def UnitKind.count : UnitKind → Nat
  | .tile => 2304
  | .cluster => 192
  | .region => 16
  | .stack => 32
  | .port => 32
  | .page => 64
  | .link => 33
  | .sensorKind => 3

/-- The units a command names; a mesh link is named by the router that receives from it. -/
def Instr.units (i : Instr) : List (UnitKind × Nat) :=
  match i with
  | .nop t _ => [(.tile, t)]
  | .br t _ => [(.tile, t)]
  | .call t _ => [(.tile, t)]
  | .ret t _ => [(.tile, t)]
  | .bri t _ => [(.tile, t)]
  | .mwait t _ => [(.tile, t)]
  | .pwait t _ => [(.tile, t)]
  | .sync t _ => [(.tile, t)]
  | .brk t _ => [(.tile, t)]
  | .add t _ => [(.tile, t)]
  | .sub t _ => [(.tile, t)]
  | .and_ t _ => [(.tile, t)]
  | .or_ t _ => [(.tile, t)]
  | .xor t _ => [(.tile, t)]
  | .shl t _ => [(.tile, t)]
  | .shr t _ => [(.tile, t)]
  | .sar t _ => [(.tile, t)]
  | .mul t _ => [(.tile, t)]
  | .min_ t _ => [(.tile, t)]
  | .max_ t _ => [(.tile, t)]
  | .addi t _ => [(.tile, t)]
  | .li t _ => [(.tile, t)]
  | .lih t _ => [(.tile, t)]
  | .movx t _ => [(.tile, t)]
  | .cmp t _ => [(.tile, t)]
  | .cmpi t _ => [(.tile, t)]
  | .plog t _ => [(.tile, t)]
  | .amov t _ => [(.tile, t)]
  | .aaddi t _ => [(.tile, t)]
  | .ard t _ => [(.tile, t)]
  | .lds t _ => [(.tile, t)]
  | .sts t _ => [(.tile, t)]
  | .vadd t _ => [(.tile, t)]
  | .vmul t _ => [(.tile, t)]
  | .vfma t _ => [(.tile, t)]
  | .vmin t _ => [(.tile, t)]
  | .vmax t _ => [(.tile, t)]
  | .vsfma t _ => [(.tile, t)]
  | .vexp2 t _ => [(.tile, t)]
  | .vlog2 t _ => [(.tile, t)]
  | .vrsqrt t _ => [(.tile, t)]
  | .vrecip t _ => [(.tile, t)]
  | .vcvt t _ => [(.tile, t)]
  | .vrsum t _ => [(.tile, t)]
  | .vrmax t _ => [(.tile, t)]
  | .vcpy t _ => [(.tile, t)]
  | .vectorOpComplete t => [(.tile, t)]
  | .ald t _ => [(.tile, t)]
  | .amac t _ => [(.tile, t)]
  | .apreZero t _ => [(.tile, t)]
  | .apreBias t _ => [(.tile, t)]
  | .apreResid t _ => [(.tile, t)]
  | .adrn t _ => [(.tile, t)]
  | .tollGrant t => [(.tile, t)]
  | .arrayOpComplete t _ => [(.tile, t)]
  | .port t _ => [(.tile, t)]
  | .porterComplete t _ _ => [(.tile, t)]
  | .cld t _ => [(.tile, t)]
  | .cst t _ => [(.tile, t)]
  | .csRequestAccept c => [(.cluster, c)]
  | .csAccessComplete c _ => [(.cluster, c)]
  | .uld t _ => [(.tile, t)]
  | .ust t _ => [(.tile, t)]
  | .uniformChannelAccept t _ => [(.tile, t)]
  | .uniformComplete t _ _ => [(.tile, t)]
  | .tadd t _ => [(.tile, t)]
  | .taddr t _ => [(.tile, t)]
  | .tallyAddApply t => [(.tile, t)]
  | .twait t _ => [(.tile, t)]
  | .trd t _ => [(.tile, t)]
  | .qsend t _ => [(.tile, t)]
  | .qsends t _ => [(.tile, t)]
  | .sendComplete t => [(.tile, t)]
  | .qhead t _ => [(.tile, t)]
  | .qlen t _ => [(.tile, t)]
  | .qctlOpen t _ => [(.tile, t)]
  | .qctlClose t _ => [(.tile, t)]
  | .qctlReset t _ => [(.tile, t)]
  | .upd t _ => [(.tile, t)]
  | .ctw t _ => [(.tile, t)]
  | .ctr t _ => [(.tile, t)]
  | .xsend t => [(.tile, t)]
  | .xrsend t => [(.tile, t)]
  | .xnorm t => [(.tile, t)]
  | .xsetl t => [(.tile, t)]
  | .xloop t => [(.tile, t)]
  | .xend t => [(.tile, t)]
  | .xbr t => [(.tile, t)]
  | .xnop t => [(.tile, t)]
  | .xwait t => [(.tile, t)]
  | .staleFetchReport t _ => [(.tile, t)]
  | .arrivalWaveRelease => []
  | .exchangeLanding _ e => (e.toList.map fun m => (.tile, m.rtr))
  | .remotePacketIngress p => [(.port, p)]
  | .transitPacket p => [(.port, p)]
  | .contributionArrival _ => []
  | .meetResultOutput t _ _ => [(.tile, t)]
  | .normDelivery _ => []
  | .doneWaveRelease => []
  | .ballastRampStep r => [(.region, r)]
  | .ballastQuantum t _ => [(.tile, t)]
  | .overrunLimitExpiry t => [(.tile, t)]
  | .messageArrival _ => []
  | .messageAccept t => [(.tile, t)]
  | .messageVisible t => [(.tile, t)]
  | .returnSlipSend t => [(.tile, t)]
  | .ringWaitExpiry t => [(.tile, t)]
  | .syncWdogExpiry t _ _ => [(.tile, t)]
  | .stowFreezeStart => []
  | .stowFreezeDone => []
  | .stowBlockLanding _ => []
  | .stowComplete _ => []
  | .restoreComplete _ => []
  | .devInfo k => [(.page, k)]
  | .readyQuery k => [(.page, k)]
  | .jobLoad k _ => [(.page, k)]
  | .jobStart k _ => [(.page, k)]
  | .jobStartTick => []
  | .jobStartTimeout => []
  | .jobPause k => [(.page, k)]
  | .jobResume k _ => [(.page, k)]
  | .jobResumeTick => []
  | .jobAbortStop k => [(.page, k)]
  | .jobAbortUnload k => [(.page, k)]
  | .jobStatus k => [(.page, k)]
  | .stowConfig k _ => [(.page, k)]
  | .stowRestore k _ => [(.page, k)]
  | .capSet k => [(.page, k)]
  | .telemetryRead k => [(.page, k)]
  | .ledgerRead k => [(.page, k)]
  | .throttleRead k => [(.page, k)]
  | .fenceQuery k => [(.page, k)]
  | .sightSchedule k => [(.page, k)]
  | .fixArm k => [(.page, k)]
  | .fixRead k => [(.page, k)]
  | .fwStage k _ => [(.page, k)]
  | .fwActivate k => [(.page, k)]
  | .attest k => [(.page, k)]
  | .linkConfig k _ => [(.page, k)]
  | .chronoAlignStep k => [(.page, k)]
  | .chronoAlignRead k => [(.page, k)]
  | .regionSleep k => [(.page, k)]
  | .regionOff k => [(.page, k)]
  | .regionWake k => [(.page, k)]
  | .debugTunnel k _ => [(.page, k)]
  | .devMbxDb k _ => [(.page, k)]
  | .devMbxCq k _ => [(.page, k)]
  | .helmWatchdogExpiry => []
  | .helmRestartDone _ => []
  | .helmFlashWrite => []
  | .marginSight => []
  | .sightEnd _ => []
  | .smbDevInfo => []
  | .smbHelmVer => []
  | .smbReady => []
  | .smbInputMv => []
  | .smbInputCurrent => []
  | .smbInputPower => []
  | .smbHottestDie => []
  | .smbHottestStack => []
  | .smbThrottle => []
  | .smbCapRead => []
  | .smbCapWrite _ => []
  | .smbCapInForce => []
  | .smbThermalTarget => []
  | .smbAlertsRead => []
  | .smbAlertsClear _ => []
  | .smbChrono => []
  | .smbModid => []
  | .smbEnergy => []
  | .halt _ _ _ => []
  | .release _ _ _ => []
  | .step _ _ _ => []
  | .status _ _ => []
  | .event _ => []
  | .read _ _ _ _ => []
  | .write _ _ _ _ _ => []
  | .haltNotice _ _ => []
  | .fixTimeTrigger => []
  | .fixTrigEdge => []
  | .fixLatch => []
  | .fixCopyDone => []
  | .arrive p _ _ _ => [(.port, p)]
  | .go p _ _ _ => [(.port, p)]
  | .part p _ _ => [(.port, p)]
  | .done p _ _ => [(.port, p)]
  | .stop p _ _ _ => [(.port, p)]
  | .fix p _ _ _ => [(.port, p)]
  | .align p _ _ _ => [(.port, p)]
  | .link p _ _ => [(.port, p)]
  | .symbolHoldRelease _ => []
  | .alignExchangeTimer p => [(.port, p)]
  | .llynFrameReceive p _ _ => [(.port, p)]
  | .frameLockLoss p => [(.link, p)]
  | .llynRetrainDone p => [(.port, p)]
  | .llynRetrainTimeout p => [(.port, p)]
  | .llynDetectPoll p _ => [(.port, p)]
  | .llynTrainLock p => [(.port, p)]
  | .llynTrainRetry p => [(.port, p)]
  | .rlFrameReceive _ _ => []
  | .rlRetrainTimeout => []
  | .rlTrainRetry => []
  | .rds _ _ => []
  | .rdo _ _ => []
  | .rdnc _ _ _ => []
  | .wrline _ _ _ => []
  | .wrpart _ _ _ _ => []
  | .evict _ _ => []
  | .cfgrd _ _ => []
  | .cfgwr _ _ _ => []
  | .invack _ _ => []
  | .hrdResponse t _ _ _ _ => [(.tile, t)]
  | .hwrCompletion t _ _ _ => [(.tile, t)]
  | .rlHcwRequest _ => []
  | .rlMsiWrite _ _ _ => []
  | .hbmSelfRefreshIdle k => [(.stack, k)]
  | .powerManagerPeriod _ => []
  | .currentLimiterSample _ => []
  | .droopDetect r => [(.region, r)]
  | .droopStretchEnd r => [(.region, r)]
  | .stepDeferExpiry r => [(.region, r)]
  | .uvClamp _ => []
  | .uvRelease _ => []
  | .brownout _ => []
  | .brownoutRecovery _ => []
  | .islandsStop _ => []
  | .powerOn _ _ => []
  | .thermalControlPeriod _ => []
  | .thermalTrip kind idx _ => [(.sensorKind, kind), (if kind = 2 then .stack else .region, idx)]
  | .devPwrStatTripClear => []
  | .telemetrySample _ => []
  | .ledgerAccumulate _ => []
  | .ledgerRefit _ => []
  | .deepIdleRequest => []
  | .alwaysOnOnlyRequest => []
  | .powerRequestNone => []
  | .alwaysOnExit => []
  | .refclkLoss => []
  | .refclkReturn _ => []
  | .resetLAssert => []
  | .resetLDeassert _ => []
  | .tileRst t => [(.tile, t)]
  | .regionRst r => [(.region, r)]
  | .registerWrite _ _ => []
  | .scalarPortComplete t => [(.tile, t)]
  | .linkFrameSend p => [(.link, p)]
  | .llynTrainTimeout p => [(.port, p)]
  | .rlLinkUp => []
  | .regionReady r => [(.region, r)]
  | .helmDiePowerUp => []
  | .bootRomVerifyDone => []
  | .stowConfigTimeout => []
  | .extest _ => []
  | .slotIdChange _ => []

namespace Laws.Units

/-- A command is well-formed exactly if the module has every unit it names. -/
def Statement (i : Instr) : Prop := i.wf = true ↔ ∀ u ∈ i.units, u.2 < u.1.count

theorem of_none {i : Instr} (h : i.wf = true) (hu : i.units = []) : Statement i := by
  simp [Statement, h, hu]

theorem of_one {i : Instr} {k : UnitKind} {n : Nat} (h : i.wf = decide (n < k.count)) (hu : i.units = [(k, n)]) :
    Statement i := by
  simp [Statement, h, hu]

theorem of_map {i : Instr} {e : Option MeshErr} (h : i.wf = e.all fun m => decide (m.rtr < 2304))
    (hu : i.units = e.toList.map fun m => (.tile, m.rtr)) : Statement i := by
  cases e <;> simp [Statement, h, hu, UnitKind.count]

theorem of_sensor {i : Instr} {kind idx : Nat} (h : i.wf = decide (kind ≤ 2 ∧ idx < (if kind = 2 then 32 else 16)))
    (hu : i.units = [(.sensorKind, kind), (if kind = 2 then .stack else .region, idx)]) : Statement i := by
  by_cases hk : kind = 2 <;> simp [Statement, h, hu, hk, UnitKind.count] <;> omega

theorem nop t q : Statement (.nop t q) := of_one rfl rfl
theorem br t q : Statement (.br t q) := of_one rfl rfl
theorem call t q : Statement (.call t q) := of_one rfl rfl
theorem ret t q : Statement (.ret t q) := of_one rfl rfl
theorem bri t q : Statement (.bri t q) := of_one rfl rfl
theorem mwait t q : Statement (.mwait t q) := of_one rfl rfl
theorem pwait t q : Statement (.pwait t q) := of_one rfl rfl
theorem sync t q : Statement (.sync t q) := of_one rfl rfl
theorem brk t q : Statement (.brk t q) := of_one rfl rfl
theorem add t q : Statement (.add t q) := of_one rfl rfl
theorem sub t q : Statement (.sub t q) := of_one rfl rfl
theorem and_ t q : Statement (.and_ t q) := of_one rfl rfl
theorem or_ t q : Statement (.or_ t q) := of_one rfl rfl
theorem xor t q : Statement (.xor t q) := of_one rfl rfl
theorem shl t q : Statement (.shl t q) := of_one rfl rfl
theorem shr t q : Statement (.shr t q) := of_one rfl rfl
theorem sar t q : Statement (.sar t q) := of_one rfl rfl
theorem mul t q : Statement (.mul t q) := of_one rfl rfl
theorem min_ t q : Statement (.min_ t q) := of_one rfl rfl
theorem max_ t q : Statement (.max_ t q) := of_one rfl rfl
theorem addi t q : Statement (.addi t q) := of_one rfl rfl
theorem li t q : Statement (.li t q) := of_one rfl rfl
theorem lih t q : Statement (.lih t q) := of_one rfl rfl
theorem movx t q : Statement (.movx t q) := of_one rfl rfl
theorem cmp t q : Statement (.cmp t q) := of_one rfl rfl
theorem cmpi t q : Statement (.cmpi t q) := of_one rfl rfl
theorem plog t q : Statement (.plog t q) := of_one rfl rfl
theorem amov t q : Statement (.amov t q) := of_one rfl rfl
theorem aaddi t q : Statement (.aaddi t q) := of_one rfl rfl
theorem ard t q : Statement (.ard t q) := of_one rfl rfl
theorem lds t q : Statement (.lds t q) := of_one rfl rfl
theorem sts t q : Statement (.sts t q) := of_one rfl rfl
theorem vadd t q : Statement (.vadd t q) := of_one rfl rfl
theorem vmul t q : Statement (.vmul t q) := of_one rfl rfl
theorem vfma t q : Statement (.vfma t q) := of_one rfl rfl
theorem vmin t q : Statement (.vmin t q) := of_one rfl rfl
theorem vmax t q : Statement (.vmax t q) := of_one rfl rfl
theorem vsfma t q : Statement (.vsfma t q) := of_one rfl rfl
theorem vexp2 t q : Statement (.vexp2 t q) := of_one rfl rfl
theorem vlog2 t q : Statement (.vlog2 t q) := of_one rfl rfl
theorem vrsqrt t q : Statement (.vrsqrt t q) := of_one rfl rfl
theorem vrecip t q : Statement (.vrecip t q) := of_one rfl rfl
theorem vcvt t q : Statement (.vcvt t q) := of_one rfl rfl
theorem vrsum t q : Statement (.vrsum t q) := of_one rfl rfl
theorem vrmax t q : Statement (.vrmax t q) := of_one rfl rfl
theorem vcpy t q : Statement (.vcpy t q) := of_one rfl rfl
theorem vectorOpComplete t : Statement (.vectorOpComplete t) := of_one rfl rfl
theorem ald t q : Statement (.ald t q) := of_one rfl rfl
theorem amac t q : Statement (.amac t q) := of_one rfl rfl
theorem apreZero t q : Statement (.apreZero t q) := of_one rfl rfl
theorem apreBias t q : Statement (.apreBias t q) := of_one rfl rfl
theorem apreResid t q : Statement (.apreResid t q) := of_one rfl rfl
theorem adrn t q : Statement (.adrn t q) := of_one rfl rfl
theorem tollGrant t : Statement (.tollGrant t) := of_one rfl rfl
theorem arrayOpComplete t i : Statement (.arrayOpComplete t i) := of_one rfl rfl
theorem port t q : Statement (.port t q) := of_one rfl rfl
theorem porterComplete t tag e : Statement (.porterComplete t tag e) := of_one rfl rfl
theorem cld t q : Statement (.cld t q) := of_one rfl rfl
theorem cst t q : Statement (.cst t q) := of_one rfl rfl
theorem csRequestAccept c : Statement (.csRequestAccept c) := of_one rfl rfl
theorem csAccessComplete c i : Statement (.csAccessComplete c i) := of_one rfl rfl
theorem uld t q : Statement (.uld t q) := of_one rfl rfl
theorem ust t q : Statement (.ust t q) := of_one rfl rfl
theorem uniformChannelAccept t i : Statement (.uniformChannelAccept t i) := of_one rfl rfl
theorem uniformComplete t i k : Statement (.uniformComplete t i k) := of_one rfl rfl
theorem tadd t q : Statement (.tadd t q) := of_one rfl rfl
theorem taddr t q : Statement (.taddr t q) := of_one rfl rfl
theorem tallyAddApply t : Statement (.tallyAddApply t) := of_one rfl rfl
theorem twait t q : Statement (.twait t q) := of_one rfl rfl
theorem trd t q : Statement (.trd t q) := of_one rfl rfl
theorem qsend t q : Statement (.qsend t q) := of_one rfl rfl
theorem qsends t q : Statement (.qsends t q) := of_one rfl rfl
theorem sendComplete t : Statement (.sendComplete t) := of_one rfl rfl
theorem qhead t q : Statement (.qhead t q) := of_one rfl rfl
theorem qlen t q : Statement (.qlen t q) := of_one rfl rfl
theorem qctlOpen t q : Statement (.qctlOpen t q) := of_one rfl rfl
theorem qctlClose t q : Statement (.qctlClose t q) := of_one rfl rfl
theorem qctlReset t q : Statement (.qctlReset t q) := of_one rfl rfl
theorem upd t q : Statement (.upd t q) := of_one rfl rfl
theorem ctw t q : Statement (.ctw t q) := of_one rfl rfl
theorem ctr t q : Statement (.ctr t q) := of_one rfl rfl
theorem xsend t : Statement (.xsend t) := of_one rfl rfl
theorem xrsend t : Statement (.xrsend t) := of_one rfl rfl
theorem xnorm t : Statement (.xnorm t) := of_one rfl rfl
theorem xsetl t : Statement (.xsetl t) := of_one rfl rfl
theorem xloop t : Statement (.xloop t) := of_one rfl rfl
theorem xend t : Statement (.xend t) := of_one rfl rfl
theorem xbr t : Statement (.xbr t) := of_one rfl rfl
theorem xnop t : Statement (.xnop t) := of_one rfl rfl
theorem xwait t : Statement (.xwait t) := of_one rfl rfl
theorem staleFetchReport t row : Statement (.staleFetchReport t row) := of_one rfl rfl
theorem arrivalWaveRelease : Statement (.arrivalWaveRelease) := of_none rfl rfl
theorem exchangeLanding i e : Statement (.exchangeLanding i e) := of_map rfl rfl
theorem remotePacketIngress p : Statement (.remotePacketIngress p) := of_one rfl rfl
theorem transitPacket p : Statement (.transitPacket p) := of_one rfl rfl
theorem contributionArrival i : Statement (.contributionArrival i) := of_none rfl rfl
theorem meetResultOutput t e rix : Statement (.meetResultOutput t e rix) := of_one rfl rfl
theorem normDelivery i : Statement (.normDelivery i) := of_none rfl rfl
theorem doneWaveRelease : Statement (.doneWaveRelease) := of_none rfl rfl
theorem ballastRampStep r : Statement (.ballastRampStep r) := of_one rfl rfl
theorem ballastQuantum t bad : Statement (.ballastQuantum t bad) := of_one rfl rfl
theorem overrunLimitExpiry t : Statement (.overrunLimitExpiry t) := of_one rfl rfl
theorem messageArrival i : Statement (.messageArrival i) := of_none rfl rfl
theorem messageAccept t : Statement (.messageAccept t) := of_one rfl rfl
theorem messageVisible t : Statement (.messageVisible t) := of_one rfl rfl
theorem returnSlipSend t : Statement (.returnSlipSend t) := of_one rfl rfl
theorem ringWaitExpiry t : Statement (.ringWaitExpiry t) := of_one rfl rfl
theorem syncWdogExpiry t kind q : Statement (.syncWdogExpiry t kind q) := of_one rfl rfl
theorem stowFreezeStart : Statement (.stowFreezeStart) := of_none rfl rfl
theorem stowFreezeDone : Statement (.stowFreezeDone) := of_none rfl rfl
theorem stowBlockLanding b : Statement (.stowBlockLanding b) := of_none rfl rfl
theorem stowComplete res : Statement (.stowComplete res) := of_none rfl rfl
theorem restoreComplete ok : Statement (.restoreComplete ok) := of_none rfl rfl
theorem devInfo k : Statement (.devInfo k) := of_one rfl rfl
theorem readyQuery k : Statement (.readyQuery k) := of_one rfl rfl
theorem jobLoad k env : Statement (.jobLoad k env) := of_one rfl rfl
theorem jobStart k env : Statement (.jobStart k env) := of_one rfl rfl
theorem jobStartTick : Statement (.jobStartTick) := of_none rfl rfl
theorem jobStartTimeout : Statement (.jobStartTimeout) := of_none rfl rfl
theorem jobPause k : Statement (.jobPause k) := of_one rfl rfl
theorem jobResume k minA : Statement (.jobResume k minA) := of_one rfl rfl
theorem jobResumeTick : Statement (.jobResumeTick) := of_none rfl rfl
theorem jobAbortStop k : Statement (.jobAbortStop k) := of_one rfl rfl
theorem jobAbortUnload k : Statement (.jobAbortUnload k) := of_one rfl rfl
theorem jobStatus k : Statement (.jobStatus k) := of_one rfl rfl
theorem stowConfig k agree : Statement (.stowConfig k agree) := of_one rfl rfl
theorem stowRestore k env : Statement (.stowRestore k env) := of_one rfl rfl
theorem capSet k : Statement (.capSet k) := of_one rfl rfl
theorem telemetryRead k : Statement (.telemetryRead k) := of_one rfl rfl
theorem ledgerRead k : Statement (.ledgerRead k) := of_one rfl rfl
theorem throttleRead k : Statement (.throttleRead k) := of_one rfl rfl
theorem fenceQuery k : Statement (.fenceQuery k) := of_one rfl rfl
theorem sightSchedule k : Statement (.sightSchedule k) := of_one rfl rfl
theorem fixArm k : Statement (.fixArm k) := of_one rfl rfl
theorem fixRead k : Statement (.fixRead k) := of_one rfl rfl
theorem fwStage k pkg : Statement (.fwStage k pkg) := of_one rfl rfl
theorem fwActivate k : Statement (.fwActivate k) := of_one rfl rfl
theorem attest k : Statement (.attest k) := of_one rfl rfl
theorem linkConfig k table : Statement (.linkConfig k table) := of_one rfl rfl
theorem chronoAlignStep k : Statement (.chronoAlignStep k) := of_one rfl rfl
theorem chronoAlignRead k : Statement (.chronoAlignRead k) := of_one rfl rfl
theorem regionSleep k : Statement (.regionSleep k) := of_one rfl rfl
theorem regionOff k : Statement (.regionOff k) := of_one rfl rfl
theorem regionWake k : Statement (.regionWake k) := of_one rfl rfl
theorem debugTunnel k buf : Statement (.debugTunnel k buf) := of_one rfl rfl
theorem devMbxDb k v : Statement (.devMbxDb k v) := of_one rfl rfl
theorem devMbxCq k v : Statement (.devMbxCq k v) := of_one rfl rfl
theorem helmWatchdogExpiry : Statement (.helmWatchdogExpiry) := of_none rfl rfl
theorem helmRestartDone ok : Statement (.helmRestartDone ok) := of_none rfl rfl
theorem helmFlashWrite : Statement (.helmFlashWrite) := of_none rfl rfl
theorem marginSight : Statement (.marginSight) := of_none rfl rfl
theorem sightEnd found : Statement (.sightEnd found) := of_none rfl rfl
theorem smbDevInfo : Statement (.smbDevInfo) := of_none rfl rfl
theorem smbHelmVer : Statement (.smbHelmVer) := of_none rfl rfl
theorem smbReady : Statement (.smbReady) := of_none rfl rfl
theorem smbInputMv : Statement (.smbInputMv) := of_none rfl rfl
theorem smbInputCurrent : Statement (.smbInputCurrent) := of_none rfl rfl
theorem smbInputPower : Statement (.smbInputPower) := of_none rfl rfl
theorem smbHottestDie : Statement (.smbHottestDie) := of_none rfl rfl
theorem smbHottestStack : Statement (.smbHottestStack) := of_none rfl rfl
theorem smbThrottle : Statement (.smbThrottle) := of_none rfl rfl
theorem smbCapRead : Statement (.smbCapRead) := of_none rfl rfl
theorem smbCapWrite v : Statement (.smbCapWrite v) := of_none rfl rfl
theorem smbCapInForce : Statement (.smbCapInForce) := of_none rfl rfl
theorem smbThermalTarget : Statement (.smbThermalTarget) := of_none rfl rfl
theorem smbAlertsRead : Statement (.smbAlertsRead) := of_none rfl rfl
theorem smbAlertsClear v : Statement (.smbAlertsClear v) := of_none rfl rfl
theorem smbChrono : Statement (.smbChrono) := of_none rfl rfl
theorem smbModid : Statement (.smbModid) := of_none rfl rfl
theorem smbEnergy : Statement (.smbEnergy) := of_none rfl rfl
theorem halt scope unit q : Statement (.halt scope unit q) := of_none rfl rfl
theorem release scope unit q : Statement (.release scope unit q) := of_none rfl rfl
theorem step scope unit q : Statement (.step scope unit q) := of_none rfl rfl
theorem status scope unit : Statement (.status scope unit) := of_none rfl rfl
theorem event unit : Statement (.event unit) := of_none rfl rfl
theorem read space unit addr len : Statement (.read space unit addr len) := of_none rfl rfl
theorem write space unit addr len data : Statement (.write space unit addr len data) := of_none rfl rfl
theorem haltNotice m on : Statement (.haltNotice m on) := of_none rfl rfl
theorem fixTimeTrigger : Statement (.fixTimeTrigger) := of_none rfl rfl
theorem fixTrigEdge : Statement (.fixTrigEdge) := of_none rfl rfl
theorem fixLatch : Statement (.fixLatch) := of_none rfl rfl
theorem fixCopyDone : Statement (.fixCopyDone) := of_none rfl rfl
theorem arrive p dmod smod n : Statement (.arrive p dmod smod n) := of_one rfl rfl
theorem go p dmod smod n : Statement (.go p dmod smod n) := of_one rfl rfl
theorem part p dmod smod : Statement (.part p dmod smod) := of_one rfl rfl
theorem done p dmod smod : Statement (.done p dmod smod) := of_one rfl rfl
theorem stop p dmod smod code : Statement (.stop p dmod smod code) := of_one rfl rfl
theorem fix p dmod tick fault : Statement (.fix p dmod tick fault) := of_one rfl rfl
theorem align p recv rpl stamp : Statement (.align p recv rpl stamp) := of_one rfl rfl
theorem link p idx val : Statement (.link p idx val) := of_one rfl rfl
theorem symbolHoldRelease i : Statement (.symbolHoldRelease i) := of_none rfl rfl
theorem alignExchangeTimer p : Statement (.alignExchangeTimer p) := of_one rfl rfl
theorem llynFrameReceive p fr q : Statement (.llynFrameReceive p fr q) := of_one rfl rfl
theorem frameLockLoss p : Statement (.frameLockLoss p) := by
  simp [Statement, show (Instr.frameLockLoss p).wf = decide (p ≤ 32) from rfl,
    show (Instr.frameLockLoss p).units = [(.link, p)] from rfl, UnitKind.count, Nat.lt_succ_iff]
theorem llynRetrainDone p : Statement (.llynRetrainDone p) := of_one rfl rfl
theorem llynRetrainTimeout p : Statement (.llynRetrainTimeout p) := of_one rfl rfl
theorem llynDetectPoll p seen : Statement (.llynDetectPoll p seen) := of_one rfl rfl
theorem llynTrainLock p : Statement (.llynTrainLock p) := of_one rfl rfl
theorem llynTrainRetry p : Statement (.llynTrainRetry p) := of_one rfl rfl
theorem rlFrameReceive fr q : Statement (.rlFrameReceive fr q) := of_none rfl rfl
theorem rlRetrainTimeout : Statement (.rlRetrainTimeout) := of_none rfl rfl
theorem rlTrainRetry : Statement (.rlTrainRetry) := of_none rfl rfl
theorem rds id addr : Statement (.rds id addr) := of_none rfl rfl
theorem rdo id addr : Statement (.rdo id addr) := of_none rfl rfl
theorem rdnc id addr len : Statement (.rdnc id addr len) := of_none rfl rfl
theorem wrline id addr data : Statement (.wrline id addr data) := of_none rfl rfl
theorem wrpart id addr mask data : Statement (.wrpart id addr mask data) := of_none rfl rfl
theorem evict id addr : Statement (.evict id addr) := of_none rfl rfl
theorem cfgrd id off : Statement (.cfgrd id off) := of_none rfl rfl
theorem cfgwr id off v : Statement (.cfgwr id off v) := of_none rfl rfl
theorem invack line data : Statement (.invack line data) := of_none rfl rfl
theorem hrdResponse t tag addr err data : Statement (.hrdResponse t tag addr err data) := of_one rfl rfl
theorem hwrCompletion t tag addr err : Statement (.hwrCompletion t tag addr err) := of_one rfl rfl
theorem rlHcwRequest v : Statement (.rlHcwRequest v) := of_none rfl rfl
theorem rlMsiWrite v w x : Statement (.rlMsiWrite v w x) := of_none rfl rfl
theorem hbmSelfRefreshIdle k : Statement (.hbmSelfRefreshIdle k) := of_one rfl rfl
theorem powerManagerPeriod m : Statement (.powerManagerPeriod m) := of_none rfl rfl
theorem currentLimiterSample avg : Statement (.currentLimiterSample avg) := of_none rfl rfl
theorem droopDetect r : Statement (.droopDetect r) := of_one rfl rfl
theorem droopStretchEnd r : Statement (.droopStretchEnd r) := of_one rfl rfl
theorem stepDeferExpiry r : Statement (.stepDeferExpiry r) := of_one rfl rfl
theorem uvClamp mv : Statement (.uvClamp mv) := of_none rfl rfl
theorem uvRelease mv : Statement (.uvRelease mv) := of_none rfl rfl
theorem brownout mv : Statement (.brownout mv) := of_none rfl rfl
theorem brownoutRecovery mv : Statement (.brownoutRecovery mv) := of_none rfl rfl
theorem islandsStop mv : Statement (.islandsStop mv) := of_none rfl rfl
theorem powerOn mv slot : Statement (.powerOn mv slot) := of_none rfl rfl
theorem thermalControlPeriod m : Statement (.thermalControlPeriod m) := of_none rfl rfl
theorem thermalTrip kind idx temp : Statement (.thermalTrip kind idx temp) := of_sensor rfl rfl
theorem devPwrStatTripClear : Statement (.devPwrStatTripClear) := of_none rfl rfl
theorem telemetrySample m : Statement (.telemetrySample m) := of_none rfl rfl
theorem ledgerAccumulate acts : Statement (.ledgerAccumulate acts) := of_none rfl rfl
theorem ledgerRefit coefs : Statement (.ledgerRefit coefs) := of_none rfl rfl
theorem deepIdleRequest : Statement (.deepIdleRequest) := of_none rfl rfl
theorem alwaysOnOnlyRequest : Statement (.alwaysOnOnlyRequest) := of_none rfl rfl
theorem powerRequestNone : Statement (.powerRequestNone) := of_none rfl rfl
theorem alwaysOnExit : Statement (.alwaysOnExit) := of_none rfl rfl
theorem refclkLoss : Statement (.refclkLoss) := of_none rfl rfl
theorem refclkReturn mv : Statement (.refclkReturn mv) := of_none rfl rfl
theorem resetLAssert : Statement (.resetLAssert) := of_none rfl rfl
theorem resetLDeassert slot : Statement (.resetLDeassert slot) := of_none rfl rfl
theorem tileRst t : Statement (.tileRst t) := of_one rfl rfl
theorem regionRst r : Statement (.regionRst r) := of_one rfl rfl
theorem registerWrite off v : Statement (.registerWrite off v) := of_none rfl rfl
theorem scalarPortComplete t : Statement (.scalarPortComplete t) := of_one rfl rfl
theorem linkFrameSend p : Statement (.linkFrameSend p) := by
  simp [Statement, show (Instr.linkFrameSend p).wf = decide (p ≤ 32) from rfl,
    show (Instr.linkFrameSend p).units = [(.link, p)] from rfl, UnitKind.count, Nat.lt_succ_iff]
theorem llynTrainTimeout p : Statement (.llynTrainTimeout p) := of_one rfl rfl
theorem rlLinkUp : Statement (.rlLinkUp) := of_none rfl rfl
theorem regionReady r : Statement (.regionReady r) := of_one rfl rfl
theorem helmDiePowerUp : Statement (.helmDiePowerUp) := of_none rfl rfl
theorem bootRomVerifyDone : Statement (.bootRomVerifyDone) := of_none rfl rfl
theorem stowConfigTimeout : Statement (.stowConfigTimeout) := of_none rfl rfl
theorem extest chain : Statement (.extest chain) := of_none rfl rfl
theorem slotIdChange v : Statement (.slotIdChange v) := of_none rfl rfl

end Laws.Units

end Sys2Proof
end

