-- ==== Sys2Proof/Tests/Slice0.lean ====
section
/-! SUPPORT. Checks of the model: ill-formed commands are refused, every obligation's hypotheses are met by a state, and results
that the spec's worked examples or a calculation by hand give. -/

namespace Sys2Proof.Tests

open Sys2Proof Sys2Proof.Machine

/-! ## Small states -/

/-- An image with no section, `magic` in front. -/
def imageOf (magic : Nat) : Image where
  raw := natLe 4 magic ++ natLe 2 3 ++ natLe 2 0 ++ natLe 8 32 ++ zeros 16
  tiles := []
  spInit := []
  csInit := []
  coef := []
  queues := []
  tallies := []
  backing := []
  toll := []
  windows := []
  xlimit := none
  ringWait := none
  syncWdog := none
  stowIval := 0
  permute := []
  ballast := 0
  sound := 0
  footprint := 1
  allowed := 0xFFFF

/-- An image with nothing in it. -/
def image : Image := imageOf 0x4E59524A

/-- A running job of one member on tile 0. -/
def job : Job := { js := 4, img := some image, needs := 1, tiles := [0], m := 1, members := [0] }

/-- A module whose tile 0 is `x`, in region 0, which is on, running `job`. -/
def at0 (x : Tile) : State := { State.reset with tiles := [(0, x)], regions := [(0, { pwr := 0 })], job := job }

/-- A tile in COMPUTE with one granule of instruction memory for each of F, B, U and X, `w` in the first slot of
each, the banks unified (R171). -/
def tile (w : Word) : Tile := { st := 3, cfg := [(0x18, 0x1E4), (0x20, 0x0103010201010100)], im := [(0, w), (64, w), (128, w), (192, w)] }

/-- A module about to issue `w` on tile 0, its sequencer F holding `f`. -/
def go (w : Word) (f : Seq) : State := at0 { tile w with sq := { f := f } }

/-- That module with stream F in its turn, and a module whose tile 0 is `x`, likewise. -/
def turn (w : Word) (f : Seq) : State := (go w f).enter 0 .f
def turnAt (x : Tile) : State := (at0 x).enter 0 .f

/-- A module in an exchange phase whose tile 0 is `x`. -/
def atX (x : Tile) : State := { at0 x with job := { job with exch := true } }

/-- Whether a state meets `State.Offers`. -/
def offers (s : State) (t : Nat) (q : Strm) (w : Word) : Bool :=
  decide (t < 2304) && s.mayIssue t q && decide ((s.tile t).pc q < 64 * ((s.tile t).part q).2) &&
    (!s.dbg.bpen || (s.tile t).halted q || (s.tile t).breakAt q ((s.tile t).slot q) == none) &&
    !(s.tile t).imBad.contains ((s.tile t).slot q) && Map.get 0 (s.tile t).im ((s.tile t).slot q) == w && legal q w

theorem offers_of {s : State} {t : Nat} {q : Strm} {w : Word} (h : offers s t q w = true) : s.Offers t q w := by
  simp only [offers, Bool.and_eq_true, Bool.or_eq_true, Bool.not_eq_true', beq_iff_eq, decide_eq_true_eq] at h
  obtain ⟨⟨⟨⟨⟨⟨a, b⟩, c⟩, d⟩, e⟩, f⟩, g⟩ := h
  exact ⟨a, b, c, by tauto, e, f, g⟩

/-- Whether a state meets `State.Issues`. -/
def issues (s : State) (t : Nat) (q : Strm) (w : Word) (regs : List Nat) : Bool :=
  offers s t q w && (decide (q = .x) || ((s.tile t).seq q).predOk w) &&
    regs.all (fun r => !((s.tile t).seq q).busy.contains r) &&
    (!bit w 51 || decide (((s.tile t).seq q).mark (fld w 47 4) < 127)) && !(s.waitMet t w && s.contended t q w)

theorem issues_of {s : State} {t : Nat} {q : Strm} {w : Word} {regs : List Nat} (h : issues s t q w regs = true) :
    s.Issues t q w regs := by
  simp only [issues, Bool.and_eq_true, Bool.or_eq_true, decide_eq_true_eq, List.all_eq_true, Bool.not_eq_true'] at h
  obtain ⟨⟨⟨⟨a, b⟩, c⟩, d⟩, e⟩ := h
  exact ⟨offers_of a, b, c, fun m => d.resolve_left (by simp [m]), e⟩

/-- Whether a state meets `State.Quiet` by having no operation's accesses, no parity error, and unified banks. -/
def quiet (s : State) (t : Nat) : Bool :=
  !s.dbg.bpen && (s.tile t).spBad.isEmpty && (s.tile t).amBad.isEmpty && (s.tile t).ctabBad.isEmpty && (s.tile t).io.acc.isEmpty &&
    bit ((s.tile t).reg 0x18) 8

theorem foreign_unified {x : Tile} (h : bit (x.reg 0x18) 8 = true) (eng row : Nat) : x.foreign eng row = false := by
  simp [Tile.foreign, h]

theorem quiet_of {s : State} {t id : Nat} (h : quiet s t = true) : s.Quiet t id := by
  simp only [quiet, Bool.and_eq_true, Bool.not_eq_true', List.isEmpty_iff] at h
  obtain ⟨⟨⟨⟨⟨a, b⟩, c⟩, d⟩, e⟩, f⟩ := h
  exact ⟨a, ⟨b, c, d⟩, fun _ => by simp [Tile.racyReads, e], by simp [Tile.racyWrites, e], foreign_unified f⟩

theorem clear_of {s : State} {t : Nat} (h : quiet s t = true) : s.Clear t := by
  simp only [quiet, Bool.and_eq_true, Bool.not_eq_true', List.isEmpty_iff] at h
  obtain ⟨⟨⟨⟨⟨a, b⟩, _⟩, _⟩, e⟩, f⟩ := h
  exact ⟨e, b, a, foreign_unified f⟩

/-- A module whose tile 0 has operations `io` in flight. -/
def ops (io : TileIo) : State := at0 { tile 0 with io := io }

theorem quiet_ops (io : TileIo) (h : io.acc = []) : quiet (ops io) 0 = true := by
  have e : bit (((ops io).tile 0).reg 0x18) 8 = true := (by decide : bit ((tile 0).reg 0x18) 8 = true)
  simp only [quiet, Bool.and_eq_true]
  exact ⟨⟨⟨⟨⟨rfl, rfl⟩, rfl⟩, rfl⟩, by rw [show ((ops io).tile 0).io.acc = io.acc from rfl, h]; rfl⟩, e⟩

theorem vecHead_ops (o : Op) : (ops { vec := [o] }).VecHead 0 o [] :=
  ⟨by decide, (by decide : (at0 (tile 0)).sameTick = false), rfl, by simp, quiet_of (quiet_ops _ rfl)⟩

/-- The word of an instruction with key `k`, registers D, A, B and the rest `r`. -/
def word (k d a b r : Nat) : Word := BitVec.ofNat 64 (((k / 16) <<< 56) + (d <<< 42) + (a <<< 37) + (b <<< 32) + r)

/-! ## Ill-formed commands -/

theorem test_wf_tile_0 :
    (∀ (x1 : Strm), Instr.wf (.nop 2304 x1) = false) ∧
    (∀ (x1 : Strm), Instr.wf (.br 2304 x1) = false) ∧
    (∀ (x1 : Strm), Instr.wf (.call 2304 x1) = false) ∧
    (∀ (x1 : Strm), Instr.wf (.ret 2304 x1) = false) ∧
    (∀ (x1 : Strm), Instr.wf (.bri 2304 x1) = false) ∧
    (∀ (x1 : Strm), Instr.wf (.mwait 2304 x1) = false) ∧
    (∀ (x1 : Strm), Instr.wf (.pwait 2304 x1) = false) ∧
    (∀ (x1 : Strm), Instr.wf (.sync 2304 x1) = false) ∧
    (∀ (x1 : Strm), Instr.wf (.brk 2304 x1) = false) ∧
    (∀ (x1 : Strm), Instr.wf (.add 2304 x1) = false) ∧
    (∀ (x1 : Strm), Instr.wf (.sub 2304 x1) = false) ∧
    (∀ (x1 : Strm), Instr.wf (.and_ 2304 x1) = false) ∧
    (∀ (x1 : Strm), Instr.wf (.or_ 2304 x1) = false) ∧
    (∀ (x1 : Strm), Instr.wf (.xor 2304 x1) = false) ∧
    (∀ (x1 : Strm), Instr.wf (.shl 2304 x1) = false) ∧
    (∀ (x1 : Strm), Instr.wf (.shr 2304 x1) = false) ∧
    (∀ (x1 : Strm), Instr.wf (.sar 2304 x1) = false) ∧
    (∀ (x1 : Strm), Instr.wf (.mul 2304 x1) = false) ∧
    (∀ (x1 : Strm), Instr.wf (.min_ 2304 x1) = false) ∧
    (∀ (x1 : Strm), Instr.wf (.max_ 2304 x1) = false) ∧
    (∀ (x1 : Strm), Instr.wf (.addi 2304 x1) = false) ∧
    (∀ (x1 : Strm), Instr.wf (.li 2304 x1) = false) ∧
    (∀ (x1 : Strm), Instr.wf (.lih 2304 x1) = false) ∧
    (∀ (x1 : Strm), Instr.wf (.movx 2304 x1) = false) ∧
    (∀ (x1 : Strm), Instr.wf (.cmp 2304 x1) = false) := by
  refine ⟨?_, ?_, ?_, ?_, ?_, ?_, ?_, ?_, ?_, ?_, ?_, ?_, ?_, ?_, ?_, ?_, ?_, ?_, ?_, ?_, ?_, ?_, ?_, ?_, ?_⟩ <;> intros <;> rfl

theorem test_wf_tile_1 :
    (∀ (x1 : Strm), Instr.wf (.cmpi 2304 x1) = false) ∧
    (∀ (x1 : Strm), Instr.wf (.plog 2304 x1) = false) ∧
    (∀ (x1 : Strm), Instr.wf (.amov 2304 x1) = false) ∧
    (∀ (x1 : Strm), Instr.wf (.aaddi 2304 x1) = false) ∧
    (∀ (x1 : Strm), Instr.wf (.ard 2304 x1) = false) ∧
    (∀ (x1 : Strm), Instr.wf (.lds 2304 x1) = false) ∧
    (∀ (x1 : Strm), Instr.wf (.sts 2304 x1) = false) ∧
    (∀ (x1 : Strm), Instr.wf (.vadd 2304 x1) = false) ∧
    (∀ (x1 : Strm), Instr.wf (.vmul 2304 x1) = false) ∧
    (∀ (x1 : Strm), Instr.wf (.vfma 2304 x1) = false) ∧
    (∀ (x1 : Strm), Instr.wf (.vmin 2304 x1) = false) ∧
    (∀ (x1 : Strm), Instr.wf (.vmax 2304 x1) = false) ∧
    (∀ (x1 : Strm), Instr.wf (.vsfma 2304 x1) = false) ∧
    (∀ (x1 : Strm), Instr.wf (.vexp2 2304 x1) = false) ∧
    (∀ (x1 : Strm), Instr.wf (.vlog2 2304 x1) = false) ∧
    (∀ (x1 : Strm), Instr.wf (.vrsqrt 2304 x1) = false) ∧
    (∀ (x1 : Strm), Instr.wf (.vrecip 2304 x1) = false) ∧
    (∀ (x1 : Strm), Instr.wf (.vcvt 2304 x1) = false) ∧
    (∀ (x1 : Strm), Instr.wf (.vrsum 2304 x1) = false) ∧
    (∀ (x1 : Strm), Instr.wf (.vrmax 2304 x1) = false) ∧
    (∀ (x1 : Strm), Instr.wf (.vcpy 2304 x1) = false) ∧
    (Instr.wf (.vectorOpComplete 2304) = false) ∧
    (∀ (x1 : Strm), Instr.wf (.ald 2304 x1) = false) ∧
    (∀ (x1 : Strm), Instr.wf (.amac 2304 x1) = false) ∧
    (∀ (x1 : Strm), Instr.wf (.apreZero 2304 x1) = false) := by
  refine ⟨?_, ?_, ?_, ?_, ?_, ?_, ?_, ?_, ?_, ?_, ?_, ?_, ?_, ?_, ?_, ?_, ?_, ?_, ?_, ?_, ?_, ?_, ?_, ?_, ?_⟩ <;> intros <;> rfl

theorem test_wf_tile_2 :
    (∀ (x1 : Strm), Instr.wf (.apreBias 2304 x1) = false) ∧
    (∀ (x1 : Strm), Instr.wf (.apreResid 2304 x1) = false) ∧
    (∀ (x1 : Strm), Instr.wf (.adrn 2304 x1) = false) ∧
    (Instr.wf (.tollGrant 2304) = false) ∧
    (∀ (x1 : Nat), Instr.wf (.arrayOpComplete 2304 x1) = false) ∧
    (∀ (x1 : Strm), Instr.wf (.port 2304 x1) = false) ∧
    (∀ (x1 : Nat) (x2 : HbmErr), Instr.wf (.porterComplete 2304 x1 x2) = false) ∧
    (∀ (x1 : Strm), Instr.wf (.cld 2304 x1) = false) ∧
    (∀ (x1 : Strm), Instr.wf (.cst 2304 x1) = false) ∧
    (∀ (x1 : Strm), Instr.wf (.uld 2304 x1) = false) ∧
    (∀ (x1 : Strm), Instr.wf (.ust 2304 x1) = false) ∧
    (∀ (x1 : Nat), Instr.wf (.uniformChannelAccept 2304 x1) = false) ∧
    (∀ (x1 : Nat) (x2 : Nat), Instr.wf (.uniformComplete 2304 x1 x2) = false) ∧
    (∀ (x1 : Strm), Instr.wf (.tadd 2304 x1) = false) ∧
    (∀ (x1 : Strm), Instr.wf (.taddr 2304 x1) = false) ∧
    (Instr.wf (.tallyAddApply 2304) = false) ∧
    (∀ (x1 : Strm), Instr.wf (.twait 2304 x1) = false) ∧
    (∀ (x1 : Strm), Instr.wf (.trd 2304 x1) = false) ∧
    (∀ (x1 : Strm), Instr.wf (.qsend 2304 x1) = false) ∧
    (∀ (x1 : Strm), Instr.wf (.qsends 2304 x1) = false) ∧
    (Instr.wf (.sendComplete 2304) = false) ∧
    (∀ (x1 : Strm), Instr.wf (.qhead 2304 x1) = false) ∧
    (∀ (x1 : Strm), Instr.wf (.qlen 2304 x1) = false) ∧
    (∀ (x1 : Strm), Instr.wf (.qctlOpen 2304 x1) = false) ∧
    (∀ (x1 : Strm), Instr.wf (.qctlClose 2304 x1) = false) := by
  refine ⟨?_, ?_, ?_, ?_, ?_, ?_, ?_, ?_, ?_, ?_, ?_, ?_, ?_, ?_, ?_, ?_, ?_, ?_, ?_, ?_, ?_, ?_, ?_, ?_, ?_⟩ <;> intros <;> rfl

theorem test_wf_tile_3 :
    (∀ (x1 : Strm), Instr.wf (.qctlReset 2304 x1) = false) ∧
    (∀ (x1 : Strm), Instr.wf (.upd 2304 x1) = false) ∧
    (∀ (x1 : Strm), Instr.wf (.ctw 2304 x1) = false) ∧
    (∀ (x1 : Strm), Instr.wf (.ctr 2304 x1) = false) ∧
    (Instr.wf (.xsend 2304) = false) ∧
    (Instr.wf (.xrsend 2304) = false) ∧
    (Instr.wf (.xnorm 2304) = false) ∧
    (Instr.wf (.xsetl 2304) = false) ∧
    (Instr.wf (.xloop 2304) = false) ∧
    (Instr.wf (.xend 2304) = false) ∧
    (Instr.wf (.xbr 2304) = false) ∧
    (Instr.wf (.xnop 2304) = false) ∧
    (Instr.wf (.xwait 2304) = false) ∧
    (∀ (x1 : Nat), Instr.wf (.staleFetchReport 2304 x1) = false) ∧
    (∀ (x1 : Nat) (x2 : Nat), Instr.wf (.meetResultOutput 2304 x1 x2) = false) ∧
    (∀ (x1 : Option Nat), Instr.wf (.ballastQuantum 2304 x1) = false) ∧
    (Instr.wf (.overrunLimitExpiry 2304) = false) ∧
    (Instr.wf (.messageAccept 2304) = false) ∧
    (Instr.wf (.messageVisible 2304) = false) ∧
    (Instr.wf (.returnSlipSend 2304) = false) ∧
    (Instr.wf (.ringWaitExpiry 2304) = false) ∧
    (∀ (x1 : Nat) (x2 : Strm), Instr.wf (.syncWdogExpiry 2304 x1 x2) = false) ∧
    (∀ (x1 : Nat) (x2 : Nat) (x3 : Bool) (x4 : List Byte), Instr.wf (.hrdResponse 2304 x1 x2 x3 x4) = false) ∧
    (∀ (x1 : Nat) (x2 : Nat) (x3 : Bool), Instr.wf (.hwrCompletion 2304 x1 x2 x3) = false) ∧
    (Instr.wf (.tileRst 2304) = false) := by
  refine ⟨?_, ?_, ?_, ?_, ?_, ?_, ?_, ?_, ?_, ?_, ?_, ?_, ?_, ?_, ?_, ?_, ?_, ?_, ?_, ?_, ?_, ?_, ?_, ?_, ?_⟩ <;> intros <;> rfl

theorem test_wf_tile_4 :
    (Instr.wf (.scalarPortComplete 2304) = false) := by
  exact rfl

theorem test_wf_cluster :
    (Instr.wf (.csRequestAccept 192) = false) ∧
    (∀ (x1 : Nat), Instr.wf (.csAccessComplete 192 x1) = false) := by
  refine ⟨?_, ?_⟩ <;> intros <;> rfl

theorem test_wf_port :
    (Instr.wf (.remotePacketIngress 32) = false) ∧
    (Instr.wf (.transitPacket 32) = false) ∧
    (∀ (x1 : Nat) (x2 : Nat) (x3 : Nat), Instr.wf (.arrive 32 x1 x2 x3) = false) ∧
    (∀ (x1 : Nat) (x2 : Nat) (x3 : Nat), Instr.wf (.go 32 x1 x2 x3) = false) ∧
    (∀ (x1 : Nat) (x2 : Nat), Instr.wf (.part 32 x1 x2) = false) ∧
    (∀ (x1 : Nat) (x2 : Nat), Instr.wf (.done 32 x1 x2) = false) ∧
    (∀ (x1 : Nat) (x2 : Nat) (x3 : Nat), Instr.wf (.stop 32 x1 x2 x3) = false) ∧
    (∀ (x1 : Nat) (x2 : Nat) (x3 : Bool), Instr.wf (.fix 32 x1 x2 x3) = false) ∧
    (∀ (x1 : Bool) (x2 : Bool) (x3 : Nat), Instr.wf (.align 32 x1 x2 x3) = false) ∧
    (∀ (x1 : Nat) (x2 : Nat), Instr.wf (.link 32 x1 x2) = false) ∧
    (Instr.wf (.alignExchangeTimer 32) = false) ∧
    (∀ (x1 : Frame) (x2 : RxQuality), Instr.wf (.llynFrameReceive 32 x1 x2) = false) ∧
    (Instr.wf (.llynRetrainDone 32) = false) ∧
    (Instr.wf (.llynRetrainTimeout 32) = false) ∧
    (∀ (x1 : Bool), Instr.wf (.llynDetectPoll 32 x1) = false) ∧
    (Instr.wf (.llynTrainLock 32) = false) ∧
    (Instr.wf (.llynTrainRetry 32) = false) ∧
    (Instr.wf (.llynTrainTimeout 32) = false) ∧
    (Instr.wf (.hbmSelfRefreshIdle 32) = false) := by
  refine ⟨?_, ?_, ?_, ?_, ?_, ?_, ?_, ?_, ?_, ?_, ?_, ?_, ?_, ?_, ?_, ?_, ?_, ?_, ?_⟩ <;> intros <;> rfl

theorem test_wf_region :
    (Instr.wf (.ballastRampStep 16) = false) ∧
    (Instr.wf (.droopDetect 16) = false) ∧
    (Instr.wf (.droopStretchEnd 16) = false) ∧
    (Instr.wf (.stepDeferExpiry 16) = false) ∧
    (Instr.wf (.regionRst 16) = false) ∧
    (Instr.wf (.regionReady 16) = false) := by
  refine ⟨?_, ?_, ?_, ?_, ?_, ?_⟩ <;> rfl

theorem test_wf_mailbox_0 :
    (Instr.wf (.devInfo 64) = false) ∧
    (Instr.wf (.readyQuery 64) = false) ∧
    (∀ (x1 : LoadEnv), Instr.wf (.jobLoad 64 x1) = false) ∧
    (∀ (x1 : StartEnv), Instr.wf (.jobStart 64 x1) = false) ∧
    (Instr.wf (.jobPause 64) = false) ∧
    (∀ (x1 : Nat), Instr.wf (.jobResume 64 x1) = false) ∧
    (Instr.wf (.jobAbortStop 64) = false) ∧
    (Instr.wf (.jobAbortUnload 64) = false) ∧
    (Instr.wf (.jobStatus 64) = false) ∧
    (∀ (x1 : Option Bool), Instr.wf (.stowConfig 64 x1) = false) ∧
    (∀ (x1 : RestoreEnv), Instr.wf (.stowRestore 64 x1) = false) ∧
    (Instr.wf (.capSet 64) = false) ∧
    (Instr.wf (.telemetryRead 64) = false) ∧
    (Instr.wf (.ledgerRead 64) = false) ∧
    (Instr.wf (.throttleRead 64) = false) ∧
    (Instr.wf (.fenceQuery 64) = false) ∧
    (Instr.wf (.sightSchedule 64) = false) ∧
    (Instr.wf (.fixArm 64) = false) ∧
    (Instr.wf (.fixRead 64) = false) ∧
    (∀ (x1 : Option (List Byte)), Instr.wf (.fwStage 64 x1) = false) ∧
    (Instr.wf (.fwActivate 64) = false) ∧
    (Instr.wf (.attest 64) = false) ∧
    (∀ (x1 : List Byte), Instr.wf (.linkConfig 64 x1) = false) ∧
    (Instr.wf (.chronoAlignStep 64) = false) ∧
    (Instr.wf (.chronoAlignRead 64) = false) := by
  refine ⟨?_, ?_, ?_, ?_, ?_, ?_, ?_, ?_, ?_, ?_, ?_, ?_, ?_, ?_, ?_, ?_, ?_, ?_, ?_, ?_, ?_, ?_, ?_, ?_, ?_⟩ <;> intros <;> rfl

theorem test_wf_mailbox_1 :
    (Instr.wf (.regionSleep 64) = false) ∧
    (Instr.wf (.regionOff 64) = false) ∧
    (Instr.wf (.regionWake 64) = false) ∧
    (∀ (x1 : List Word), Instr.wf (.debugTunnel 64 x1) = false) ∧
    (∀ (x1 : Word), Instr.wf (.devMbxDb 64 x1) = false) ∧
    (∀ (x1 : Word), Instr.wf (.devMbxCq 64 x1) = false) := by
  refine ⟨?_, ?_, ?_, ?_, ?_, ?_⟩ <;> intros <;> rfl

theorem test_wf_link :
    Instr.wf (.linkFrameSend 33) = false ∧ Instr.wf (.frameLockLoss 33) = false ∧ Instr.wf (.frameLockLoss 32) = true := by
  decide

theorem test_wf_others :
    Instr.wf (.thermalTrip 0 16 0) = false ∧ Instr.wf (.thermalTrip 2 32 0) = false ∧ Instr.wf (.thermalTrip 3 0 0) = false ∧
    Instr.wf (.thermalTrip 2 31 0) = true ∧ Instr.wf (.nop 2303 .f) = true ∧
    Instr.wf (.exchangeLanding 0 (some { rtr := 2304, lnk := 0 })) = false ∧ Instr.wf (.linkFrameSend 32) = true := by
  decide

/-! ## Obligations about every step -/

/-- With an empty queue: the islands run, the islands are stopped, and RESET_L is low. -/
theorem witness_EmptyQueueStepIsOneTick :
    State.reset.pending = [] ∧ State.reset.power.on = true ∧ State.reset.pins.resetLow = false ∧
    (State.reset.modPower fun p => { p with on := false }).power.on = false := by decide

/-- A state with legal modes and a next state. -/
theorem witness_StepKeepsEveryModeLegal :
    (at0 (tile 0)).Legal ∧ ∃ s', step (at0 (tile 0)) = .next s' := by
  refine ⟨⟨by decide, by decide, fun t => ?_, fun p => ?_, fun r => ?_, fun k => ?_⟩, _, rfl⟩
  · by_cases h : t = 0
    · subst h; exact ⟨by decide, by decide⟩
    · have : (at0 (tile 0)).tile t = {} := by simp [at0, State.tile, Map.get, List.lookup, beq_false_of_ne h]
      rw [this]; exact ⟨by decide, by decide⟩
  · exact Nat.zero_le 6
  · by_cases h : r = 0
    · subst h; exact ⟨by decide, by decide⟩
    · have : (at0 (tile 0)).region r = {} := by simp [at0, State.region, Map.get, List.lookup, beq_false_of_ne h]
      rw [this]; exact ⟨by decide, by decide⟩
  · exact Nat.zero_le 4

/-- A state with canonical tables and a next state. -/
theorem witness_StepKeepsTheTablesCanonical :
    (at0 (tile 0)).Canon ∧ ∃ s', step (at0 (tile 0)) = .next s' :=
  ⟨⟨by decide, by decide, by decide, by decide, by decide⟩, _, rfl⟩

/-- Steps that answer a next state: of a command, and of the clock. -/
theorem witness_FencesArePermanent :
    (∃ s', step { State.reset with pending := [.resetLAssert] } = .next s') ∧ ∃ s', step State.reset = .next s' :=
  ⟨⟨_, rfl⟩, _, rfl⟩

/-- A well-formed command, one that answers a next state, and a queue of well-formed commands. -/
theorem witness_WellFormedRunsAreSafe :
    Instr.wf (.tileRst 2303) = true ∧ (∃ s', exec (.tileRst 2303) State.reset = .next s') ∧
    State.queueWf { State.reset with pending := [.tileRst 2303, .nop 0 .f] } = true :=
  ⟨by decide, ⟨_, rfl⟩, by decide⟩

/-! ## Issue, fetch and faults -/

/-- A stream of a tile with no running job may not issue; one that stands before an `ADD` is offered another instruction than `NOP`;
X stands before `XNOP`. -/
theorem witness_HeldInstructionsChangeNothing_held :
    (State.reset.enter 2303 .u).mayIssue 2303 .u = false ∧ (State.reset.enter 0 .x).mayIssue 0 .x = false ∧
    State.reset.sameTick = false ∧ (go 0x1000000000000000 {}).sameTick = false ∧ (atX { tile 0xC700000000000000 with st := 5 }).sameTick = false ∧
    (turn 0x1000000000000000 {}).Offers 0 .f 0x1000000000000000 ∧ keyOf 0x1000000000000000 ≠ 0 ∧
    ((atX { tile 0xC700000000000000 with st := 5 }).enter 0 .x).Offers 0 .x 0xC700000000000000 ∧ keyOf 0xC700000000000000 ≠ 0xC00 :=
  ⟨by decide, by decide, by decide, by decide, by decide, offers_of (by decide), by decide, offers_of (by decide), by decide⟩

/-- Predicate P1 false; mark M15 at 127 for an `ALD` that names it; the array unit taken in the cycle; register 1 waiting for a result. -/
theorem witness_HeldInstructionsChangeNothing_predicate :
    (turn 0x1010000000000000 {}).Offers 0 .f 0x1010000000000000 ∧ keyOf 0x1010000000000000 = 0x100 ∧
    ((turn 0x1010000000000000 {}).tile 0 |>.seq .f).predOk 0x1010000000000000 = false ∧
    (turn 0x500F800000000000 { m := [(15, 127)] }).Offers 0 .f 0x500F800000000000 ∧
    keyOf 0x500F800000000000 = 0x500 ∧ bit 0x500F800000000000 51 = true ∧
    127 ≤ ((turn 0x500F800000000000 { m := [(15, 127)] }).tile 0 |>.seq .f).mark (fld 0x500F800000000000 47 4) ∧
    (let s := turn 0x500F800000000000 { m := [(15, 127)] }
     ((s.tile 0).seq .f).predOk 0x500F800000000000 = true ∧ ((s.tile 0).seq .f).busy = [] ∧
     (s.waitMet 0 0x500F800000000000 && s.contended 0 .f 0x500F800000000000) = false) ∧
    (let s := turnAt { tile 0x5007800000000000 with cyc := { units := [1] } }
     s.Offers 0 .f 0x5007800000000000 ∧ ((s.tile 0).seq .f).predOk 0x5007800000000000 = true ∧ ((s.tile 0).seq .f).busy = [] ∧
     s.waitMet 0 0x5007800000000000 = true ∧ s.contended 0 .f 0x5007800000000000 = true) ∧
    (turn 0x1000002000000000 { busy := [1] }).Offers 0 .f 0x1000002000000000 ∧ keyOf 0x1000002000000000 = 0x100 ∧
    fA 0x1000002000000000 ∈ ((turn 0x1000002000000000 { busy := [1] }).tile 0 |>.seq .f).busy :=
  ⟨offers_of (by decide), by decide, by decide, offers_of (by decide), by decide, by decide, by decide, by decide,
    ⟨offers_of (by decide), by decide, by decide, by decide, by decide⟩, offers_of (by decide), by decide, by decide⟩

/-- A slot of F and one of X with a parity error. -/
theorem witness_InstructionParityStopsTheJob :
    let s := turnAt { tile 0 with imBad := [0] }
    let z := (atX { tile 0 with imBad := [192], st := 5 }).enter 0 .x
    s.mayIssue 0 .f = true ∧ (s.tile 0).pc .f < 64 * ((s.tile 0).part .f).2 ∧ s.dbg.bpen = false ∧
    (s.tile 0).imBad.contains ((s.tile 0).slot .f) = true ∧ s.job.img.isSome = true ∧ 0 ∈ s.job.tiles ∧
    z.mayIssue 0 .x = true ∧ (z.tile 0).imBad.contains ((z.tile 0).slot .x) = true := by decide

/-- The first slot past the partition; the last slot of it with an illegal word; a breakpoint at the slot; an illegal word in the tick of a
stop. -/
theorem witness_FetchFaultsAndBreakpoints :
    let s := turn 0 { pc := 64 }
    let z := turnAt { tile 0 with im := [(63, 0xFF00000000000000)], sq := { f := { pc := 63 } } }
    let b := ({ at0 { tile 0 with misc := { bp := [(0xA18, 0x8000000000000000)] } } with dbg := { bpen := true } } : State).enter 0 .f
    let j := { at0 (tile 0) with
      job := { job with js := 6, prim := { valid := true }, shadow := [(0, tile 0xFF00000000000000)], shadowAt := 1 } }
    let k := (j.unstopped 0).enter 0 .f
    (s.mayIssue 0 .f = true ∧ 64 * ((s.tile 0).part .f).2 ≤ (s.tile 0).pc .f) ∧
    (z.mayIssue 0 .f = true ∧ (z.tile 0).pc .f < 64 * ((z.tile 0).part .f).2 ∧ z.dbg.bpen = false ∧
      (z.tile 0).imBad.contains ((z.tile 0).slot .f) = false ∧ legal .f (Map.get 0 (z.tile 0).im ((z.tile 0).slot .f)) = false) ∧
    (b.mayIssue 0 .f = true ∧ (b.tile 0).pc .f < 64 * ((b.tile 0).part .f).2 ∧ b.dbg.bpen = true ∧
      (b.tile 0).halted .f = false ∧ bit (Map.get 0 (b.tile 0).misc.bp (0xA00 + 0x20 * Strm.code .f + 8 * 3)) 63 = true ∧
      fld (Map.get 0 (b.tile 0).misc.bp (0xA00 + 0x20 * Strm.code .f + 8 * 3)) 0 13 = (b.tile 0).slot .f) ∧
    (j.sameTick = true ∧ j.job.img.isSome = true ∧ 0 ∈ j.job.tiles ∧ j.job.prim.valid = true ∧ bit (j.tile 0).fault 63 = false ∧
      k.mayIssue 0 .f = true ∧ (k.tile 0).pc .f < 64 * ((k.tile 0).part .f).2 ∧ k.dbg.bpen = false ∧
      (k.tile 0).imBad.contains ((k.tile 0).slot .f) = false ∧ legal .f (Map.get 0 (k.tile 0).im ((k.tile 0).slot .f)) = false) := by
  decide

theorem witness_TileFaultStopsTheJob :
    (at0 (tile 0)).job.img.isSome = true ∧ 0 ∈ (at0 (tile 0)).job.tiles ∧ (at0 (tile 0)).job.js = 4 := by decide

/-! ## The scalar instructions -/

/-- Every scalar instruction with source registers 31 and 1 and destination 31, which is also a source. -/
theorem witness_ScalarArithmetic : ∀ k ∈ [0x100, 0x110, 0x120, 0x130, 0x140, 0x150, 0x160, 0x170, 0x180, 0x190, 0x1A0],
    keyOf (word k 31 31 1 0) = k ∧ (turn (word k 31 31 1 0) {}).Issues 0 .f (word k 31 31 1 0) [31, 31, 1] ∧
    fD (word k 31 31 1 0) = 31 ∧ fA (word k 31 31 1 0) = 31 ∧ fB (word k 31 31 1 0) = 1 := by
  have h : ∀ k ∈ [0x100, 0x110, 0x120, 0x130, 0x140, 0x150, 0x160, 0x170, 0x180, 0x190, 0x1A0],
    keyOf (word k 31 31 1 0) = k ∧ issues (turn (word k 31 31 1 0) {}) 0 .f (word k 31 31 1 0) [31, 31, 1] = true ∧
    fD (word k 31 31 1 0) = 31 ∧ fA (word k 31 31 1 0) = 31 ∧ fB (word k 31 31 1 0) = 1 := by decide
  exact fun k hk => let ⟨a, b, c⟩ := h k hk; ⟨a, issues_of b, c⟩

/-- ADDI, LI, LIH, each MOVX selector, ARD, AMOV and AADDI. -/
theorem witness_ScalarMovesAndCompares_moves :
    ∀ p ∈ [(0x1B0, word 0x1B0 31 0 0 0x80000000), (0x1C0, word 0x1C0 1 0 0 5), (0x1D0, word 0x1D0 1 0 0 7),
      (0x1E0, word 0x1E0 1 0 0 0), (0x1E0, word 0x1E0 1 0 0 1), (0x1E0, word 0x1E0 1 0 0 2), (0x1E0, word 0x1E0 1 0 0 3),
      (0x250, word 0x250 1 7 0 0), (0x230, word 0x230 7 31 0 0), (0x240, word 0x240 7 7 0 0)],
    keyOf p.2 = p.1 ∧ (turn p.2 {}).Issues 0 .f p.2 [fD p.2, fA p.2] := by
  have h : ∀ p ∈ [(0x1B0, word 0x1B0 31 0 0 0x80000000), (0x1C0, word 0x1C0 1 0 0 5), (0x1D0, word 0x1D0 1 0 0 7),
      (0x1E0, word 0x1E0 1 0 0 0), (0x1E0, word 0x1E0 1 0 0 1), (0x1E0, word 0x1E0 1 0 0 2), (0x1E0, word 0x1E0 1 0 0 3),
      (0x250, word 0x250 1 7 0 0), (0x230, word 0x230 7 31 0 0), (0x240, word 0x240 7 7 0 0)],
    keyOf p.2 = p.1 ∧ issues (turn p.2 {}) 0 .f p.2 [fD p.2, fA p.2] = true := by decide
  exact fun p hp => ⟨(h p hp).1, issues_of (h p hp).2⟩

/-- CMP and CMPI with conditions 0 and 5, PLOG with functions 0 and 3. -/
theorem witness_ScalarMovesAndCompares_compares :
    ∀ p ∈ [(0x200, word 0x200 7 1 2 0), (0x200, word 0x200 7 1 2 (5 <<< 28)), (0x210, word 0x210 0 1 0 0),
      (0x210, word 0x210 0 1 5 0xFFFFFFFF), (0x220, word 0x220 7 7 7 0), (0x220, word 0x220 7 0 1 (3 <<< 28))],
    keyOf p.2 = p.1 ∧ (turn p.2 {}).Issues 0 .f p.2 [fA p.2, fB p.2] := by
  have h : ∀ p ∈ [(0x200, word 0x200 7 1 2 0), (0x200, word 0x200 7 1 2 (5 <<< 28)), (0x210, word 0x210 0 1 0 0),
      (0x210, word 0x210 0 1 5 0xFFFFFFFF), (0x220, word 0x220 7 7 7 0), (0x220, word 0x220 7 0 1 (3 <<< 28))],
    keyOf p.2 = p.1 ∧ issues (turn p.2 {}) 0 .f p.2 [fA p.2, fB p.2] = true := by decide
  exact fun p hp => ⟨(h p hp).1, issues_of (h p hp).2⟩

/-- NOP and the branches; MWAIT with mark M15 at zero and above it; PWAIT with no tag in flight and with the named one. -/
theorem witness_ControlAndWaits :
    (∀ p ∈ [(0x000, word 0x000 0 0 0 0), (0x010, word 0x010 0 0 0 8191), (0x020, word 0x020 0 0 0 0), (0x030, word 0x030 0 0 0 0),
      (0x040, word 0x040 0 31 0 0), (0x050, word 0x050 0 0 0 0x8000), (0x060, word 0x060 0 31 0 0)],
      keyOf p.2 = p.1 ∧ (turn p.2 {}).Issues 0 .f p.2 [31, fA p.2]) ∧
    (turn (word 0x050 0 0 0 0x8000) { m := [(15, 1)] }).Issues 0 .f (word 0x050 0 0 0 0x8000) [] ∧
    ({ m := [(15, 1)] } : Seq).mark 15 ≠ 0 ∧ ({} : Seq).mark 15 = 0 ∧
    (turnAt { tile (word 0x060 0 31 0 0) with io := { tags := [{ tag := 0 }] }, sq := { f := { s := [(31, 1)] } } }).Issues 0 .f
      (word 0x060 0 31 0 0) [31] ∧ bit (({ s := [(31, 1)] } : Seq).sreg 31) 0 = true := by
  have h : ∀ p ∈ [(0x000, word 0x000 0 0 0 0), (0x010, word 0x010 0 0 0 8191), (0x020, word 0x020 0 0 0 0),
      (0x030, word 0x030 0 0 0 0), (0x040, word 0x040 0 31 0 0), (0x050, word 0x050 0 0 0 0x8000), (0x060, word 0x060 0 31 0 0)],
      keyOf p.2 = p.1 ∧ issues (turn p.2 {}) 0 .f p.2 [31, fA p.2] = true := by decide
  exact ⟨fun p hp => ⟨(h p hp).1, issues_of (h p hp).2⟩, issues_of (by decide), by decide, by decide, issues_of (by decide), by decide⟩

/-- BRK with breakpoints disabled, and enabled with an event held and with none. -/
theorem witness_BrkHaltsItsStream :
    let w := word 0x080 0 0 0 255
    let on := fun d => ({ at0 { tile w with misc := { dbg := d } } with dbg := { bpen := true } } : State).enter 0 .f
    keyOf w = 0x080 ∧ (turn w {}).Issues 0 .f w [] ∧ (turn w {}).dbg.bpen = false ∧ (on 0).Issues 0 .f w [] ∧
    bit ((on 0).tile 0).misc.dbg 63 = false ∧ (on 0x9000000000000000).Issues 0 .f w [] ∧
    bit ((on 0x9000000000000000).tile 0).misc.dbg 63 = true ∧ fld ((on 0x9000000000000000).tile 0).misc.dbg 60 3 = 1 :=
  ⟨by decide, issues_of (by decide), by decide, issues_of (by decide), by decide, issues_of (by decide), by decide, by decide⟩

/-- SYNC with an operation of its own in flight, and with none: the last stream of its tile, and not the last. -/
theorem witness_SyncEndsTheComputePhase :
    let w := word 0x070 0 0 0 0
    let busy := turnAt { tile w with io := { vec := [{ q := .f }] } }
    let last := turnAt { tile w with sq := { b := { sync := true }, u := { sync := true } } }
    keyOf w = 0x070 ∧ busy.Issues 0 .f w [] ∧ (busy.tile 0).io.vec = [{ q := .f }] ∧ (turn w {}).Issues 0 .f w [] ∧
    ((turn w {}).tile 0).io.vec = [] ∧ last.Issues 0 .f w [] ∧ (last.tile 0).synced .b = true ∧ (last.tile 0).synced .u = true :=
  ⟨by decide, issues_of (by decide), rfl, issues_of (by decide), rfl, issues_of (by decide), by decide, by decide⟩

/-- LDS and STS of the last row and of the first row past it; the completion of each. -/
theorem witness_ScalarPort :
    (let l := word 0x300 1 7 0 (2 <<< 16)
     let st := word 0x310 0 7 1 0
     let a := fun (v : Word) => ({ a := [(7, v)] } : Seq)
     keyOf l = 0x300 ∧ (turn l (a 765)).Issues 0 .f l [1] ∧ (turn l (a 765)).soundChk 0 = false ∧
     (Seq.areg (a 765) 7 + BitVec.signExtend 64 ((l >>> 16).setWidth 16)).toNat = 767 ∧
     (turn l (a 766)).Issues 0 .f l [1] ∧
     keyOf st = 0x310 ∧ (turn st (a 767)).Issues 0 .f st [1] ∧ (turn st (a 768)).Issues 0 .f st [1] ∧
     ((turn st (a 767)).tile 0).io.acc = [] ∧ ((turn st (a 767)).tile 0).spBad = []) ∧
    (let o := { w := word 0x300 1 0 0 0, v := [767] : Op }
     let u := { w := word 0x310 0 0 1 63, v := [767, 5], dat := zeros 512 : Op }
     ((ops { sca := [o] }).tile 0).io.sca = o :: [] ∧ (ops { sca := [o] }).sameTick = false ∧ o.q ≠ .x ∧ (ops { sca := [o] }).Quiet 0 o.id ∧ fld o.w 56 8 = 0x30 ∧
     ((ops { sca := [u] }).tile 0).io.sca = u :: [] ∧ (ops { sca := [u] }).sameTick = false ∧ u.q ≠ .x ∧ (ops { sca := [u] }).Quiet 0 u.id ∧ fld u.w 56 8 = 0x31 ∧
     u.dat.length = 512) :=
  ⟨⟨by decide, issues_of (by decide), by decide, by decide, issues_of (by decide), by decide, issues_of (by decide),
    issues_of (by decide), by decide, by decide⟩,
   ⟨rfl, rfl, by decide, quiet_of (quiet_ops _ rfl), by decide, rfl, rfl, by decide, quiet_of (quiet_ops _ rfl), by decide, List.length_replicate⟩⟩

/-! ## The engines of a tile -/

/-- Address registers at `a`, `b`, `c` and 767. -/
def regs (a b c : Word) : Seq := { a := [(0, a), (1, b), (2, c), (3, 767)] }

/-- The vector instructions on one row, with `VCVT` from FP32 to BF16. -/
def vecWords : List (Nat × Word) := [(0x400, word 0x400 0 1 2 0), (0x410, word 0x410 0 1 2 0), (0x420, word 0x420 0 1 2 (3 <<< 27)),
  (0x430, word 0x430 0 1 2 0), (0x440, word 0x440 0 1 2 0), (0x450, word 0x450 0 1 2 (31 <<< 27)), (0x460, word 0x460 0 1 0 0),
  (0x470, word 0x470 0 1 0 0), (0x480, word 0x480 0 1 0 0), (0x490, word 0x490 0 1 0 0), (0x4A0, word 0x4A0 0 1 0 (1 <<< 10)),
  (0x4B0, word 0x4B0 31 1 0 0), (0x4C0, word 0x4C0 31 1 0 0), (0x4D0, word 0x4D0 0 1 0 0)]

def vecArgs (w : Word) (v : Seq) : List Word :=
  [v.areg (fld w 42 3), v.areg (fld w 37 3), v.areg (fld w 32 3), if fld w 56 8 = 0x45 then v.sreg (fC w) else v.areg (fld w 27 3)]

/-- Every vector instruction with its runs in the last row, with its source run one row past it, and with the unit full. -/
theorem witness_VectorIssue : ∀ p ∈ vecWords, keyOf p.2 = p.1 ∧
    (turn p.2 (regs 767 767 767)).Issues 0 .f p.2 [31] ∧ (turn p.2 (regs 767 767 767)).soundChk 0 = false ∧
    (∀ r ∈ vecRuns p.2 (vecArgs p.2 (regs 767 767 767)), r.lo + r.n ≤ if r.am then 1024 else 768) ∧
    (turn p.2 (regs 767 768 767)).Issues 0 .f p.2 [31] ∧
    ((vecRuns p.2 (vecArgs p.2 (regs 767 768 767))).map Run.check).findSome? id ≠ none ∧
    (turnAt { tile p.2 with io := { vec := List.replicate 16 {} } }).Issues 0 .f p.2 [31] := by
  have h : ∀ p ∈ vecWords, keyOf p.2 = p.1 ∧
    issues (turn p.2 (regs 767 767 767)) 0 .f p.2 [31] = true ∧ (turn p.2 (regs 767 767 767)).soundChk 0 = false ∧
    (∀ r ∈ vecRuns p.2 (vecArgs p.2 (regs 767 767 767)), r.lo + r.n ≤ if r.am then 1024 else 768) ∧
    issues (turn p.2 (regs 767 768 767)) 0 .f p.2 [31] = true ∧
    ((vecRuns p.2 (vecArgs p.2 (regs 767 768 767))).map Run.check).findSome? id ≠ none ∧
    issues (turnAt { tile p.2 with io := { vec := List.replicate 16 {} } }) 0 .f p.2 [31] = true := by decide
  exact fun p hp => let ⟨a, b, c, d, e, f, g⟩ := h p hp; ⟨a, issues_of b, c, d, issues_of e, f, issues_of g⟩

/-- Each arithmetic, function and copy operation of one row as the oldest; conversions from and to an MX format; a sum; a maximum. -/
theorem witness_VectorOpsComplete :
    (∀ w ∈ [word 0x400 0 1 2 0, word 0x450 0 1 2 (1 <<< 18), word 0x490 0 1 0 0, word 0x4D0 0 1 0 0],
      (ops { vec := [{ w := w, v := [767, 767, 767, 1] }] }).VecHead 0 { w := w, v := [767, 767, 767, 1] } [] ∧
      (0x40 ≤ fld w 56 8 ∧ fld w 56 8 ≤ 0x49 ∨ fld w 56 8 = 0x4D)) ∧
    (∀ w ∈ [word 0x4A0 0 1 2 (5 <<< 14), word 0x4A0 0 1 2 (5 <<< 10), word 0x4B0 1 1 0 0, word 0x4C0 1 1 0 0],
      (ops { vec := [{ w := w, v := [767, 767, 767, 0] }] }).VecHead 0 { w := w, v := [767, 767, 767, 0] } []) ∧
    (fld (word 0x4A0 0 1 2 (5 <<< 14)) 56 8 = 0x4A ∧ isMx (vFo (word 0x4A0 0 1 2 (5 <<< 14))) = false) ∧
    (fld (word 0x4A0 0 1 2 (5 <<< 10)) 56 8 = 0x4A ∧ isMx (vFo (word 0x4A0 0 1 2 (5 <<< 10))) = true ∧
      isMx (vFi (word 0x4A0 0 1 2 (5 <<< 10))) = false) ∧
    ({} : Op).q ≠ .x ∧ fld (word 0x4B0 1 1 0 0) 56 8 = 0x4B ∧ fld (word 0x4C0 1 1 0 0) 56 8 = 0x4C := by
  refine ⟨?_, ?_, by decide, by decide, by decide, by decide, by decide⟩
  · intro w hw
    refine ⟨vecHead_ops _, ?_⟩
    simp only [List.mem_cons, List.not_mem_nil, or_false] at hw
    rcases hw with rfl | rfl | rfl | rfl <;> decide
  · intro w hw; clear hw; exact vecHead_ops _

/-- The array instructions: `ALD` and `AMAC` in FP32 and in an MX format, `APRE` in each mode, `ADRN`. -/
def arrWords : List (Nat × Word) := [(0x500, word 0x500 0 0 2 (1 <<< 28)), (0x500, word 0x500 0 0 2 (6 <<< 28)),
  (0x510, word 0x510 1 0 2 ((1 <<< 28) + (1 <<< 24))), (0x520, word 0x520 1 0 0 0), (0x521, word 0x521 1 0 0 (1 <<< 30)),
  (0x522, word 0x522 1 0 0 (2 <<< 30)), (0x530, word 0x530 0 1 2 0)]

/-- Every array instruction with its runs in range, with its first run past the end, and with the queue full. -/
theorem witness_ArrayIssue : ∀ p ∈ arrWords, keyOf p.2 = p.1 ∧
    (let v := regs 704 1023 767
     (turn p.2 v).Issues 0 .f p.2 [] ∧ (turn p.2 v).soundChk 0 = false ∧
     ∀ r ∈ arrRuns p.2 [v.areg (fld p.2 42 3), v.areg (fld p.2 37 3), v.areg (fld p.2 32 3)],
       r.lo + r.n ≤ if r.am then 1024 else 768) ∧
    (let v := regs 768 1024 767
     (turn p.2 v).Issues 0 .f p.2 [] ∧
     ((arrRuns p.2 [v.areg (fld p.2 42 3), v.areg (fld p.2 37 3), v.areg (fld p.2 32 3)]).map Run.check).findSome? id ≠ none) ∧
    (turnAt { tile p.2 with io := { arr := List.replicate 8 {} } }).Issues 0 .f p.2 [] := by
  have h : ∀ p ∈ arrWords, keyOf p.2 = p.1 ∧
    (let v := regs 704 1023 767
     issues (turn p.2 v) 0 .f p.2 [] = true ∧ (turn p.2 v).soundChk 0 = false ∧
     ∀ r ∈ arrRuns p.2 [v.areg (fld p.2 42 3), v.areg (fld p.2 37 3), v.areg (fld p.2 32 3)],
       r.lo + r.n ≤ if r.am then 1024 else 768) ∧
    (let v := regs 768 1024 767
     issues (turn p.2 v) 0 .f p.2 [] = true ∧
     ((arrRuns p.2 [v.areg (fld p.2 42 3), v.areg (fld p.2 37 3), v.areg (fld p.2 32 3)]).map Run.check).findSome? id ≠ none) ∧
    issues (turnAt { tile p.2 with io := { arr := List.replicate 8 {} } }) 0 .f p.2 [] = true := by decide
  exact fun p hp => let ⟨a, b, c, d⟩ := h p hp; ⟨a, ⟨issues_of b.1, b.2⟩, ⟨issues_of c.1, c.2⟩, issues_of d⟩

/-- A module whose cluster 0 has `cap` toll units, `held` of them held, and whose tile 0 has a weight-2 operation waiting. -/
def tollAt (cap held : Nat) : State :=
  { ops { arr := [{ w := word 0x520 1 0 0 (1 <<< 26) }] } with clusters := [(0, { cap := cap, held := held })] }

/-- What `TOLL_GRANT` asks for beside the units held. -/
def tollNeed (s : State) : Nat :=
  (s.cluster 0).held + (if (s.cluster 0).freedAt = s.cycle + 1 then (s.cluster 0).freed else 0) + s.tollBefore 0 + tollW (word 0x520 1 0 0 (1 <<< 26))

/-- No operation; a weight above the capacity; units that do not suffice; units that just suffice. -/
theorem witness_TollAdmission :
    (State.reset.sameTick = false ∧ ((State.reset.tollRequest 0).tile 0).arrHead (State.reset.tollRequest 0).cycle = none) ∧
    (∀ e ∈ [(1, 0), (2, 1), (2, 0)], let s := (tollAt e.1 e.2).tollRequest 0
      (tollAt e.1 e.2).sameTick = false ∧ (s.tile 0).arrHead s.cycle = some { w := word 0x520 1 0 0 (1 <<< 26) } ∧ s.soundChk 3 = false) ∧
    (((tollAt 1 0).tollRequest 0).cluster (clusterOf 0)).cap < tollW (word 0x520 1 0 0 (1 <<< 26)) ∧
    (tollW (word 0x520 1 0 0 (1 <<< 26)) ≤ (((tollAt 2 1).tollRequest 0).cluster 0).cap ∧
      (((tollAt 2 1).tollRequest 0).cluster 0).cap < tollNeed ((tollAt 2 1).tollRequest 0)) ∧
    tollNeed ((tollAt 2 0).tollRequest 0) ≤ (((tollAt 2 0).tollRequest 0).cluster 0).cap :=
  ⟨by decide, by decide, by decide, by decide, by decide⟩

/-- A started operation at the head of the array queue: `ALD` (MX too), `AMAC` with the buffer of its format, `APRE`, `ADRN`. -/
theorem witness_ArrayOpsComplete :
    (∀ p ∈ arrWords,
      let o : Op := { w := p.2, v := [0, 0, 0], go := true }
      (ops { arr := [o] }).sameTick = false ∧ ((ops { arr := [o] }).tile 0).io.arr[0]? = some o ∧ o.go = true ∧
      (((ops { arr := [o] }).tile 0).io.arr.take 0).any (fun e => arrBefore e o) = false ∧ (ops { arr := [o] }).Quiet 0 o.id ∧
      fld p.2 56 8 = p.1 / 16) ∧
    (let s := at0 { tile 0 with sb0 := { fmt := 1 } }
     ((s.tile 0).sbuf (fld (word 0x510 1 0 2 ((1 <<< 28) + (1 <<< 24))) 23 1)).fmt = fld (word 0x510 1 0 2 ((1 <<< 28) + (1 <<< 24))) 24 4 ∧
     ((s.tile 0).sbuf 0).bad = [] ∧ s.sameTick = false ∧ s.Quiet 0 0) ∧
    fld (word 0x522 1 0 0 (2 <<< 30)) 30 2 ≤ 2 := by
  refine ⟨fun p hp => ⟨(by decide : (at0 (tile 0)).sameTick = false), rfl, rfl, rfl, quiet_of (quiet_ops _ rfl), ?_⟩, ⟨by decide, by decide, by decide, quiet_of (by decide)⟩, by decide⟩
  revert p; decide

/-! ## The update engine, the porters, the cluster store and the tallies -/

/-- A module about to issue `w` on stream U of tile 0, its sequencer U holding `v`, with coefficient table `k`. -/
def goU (w : Word) (v : Seq) (k : Map Word) : State := (at0 { tile w with sq := { u := v }, ctab := k }).enter 0 .u

/-- `UPD` of row 63 with every operand's register `A3` (row 764), and of row 0 with clip registers 31 and 31. -/
def updWord : Word := BitVec.ofNat 64 ((0x80 <<< 56) + (63 <<< 41) + (3 <<< 38) + (3 <<< 35) + (3 <<< 32) + (3 <<< 29) + (3 <<< 26))

theorem witness_UpdateIssue :
    (∀ k ∈ [0x810, 0x820], let w := BitVec.ofNat 64 (((k / 16) <<< 56) + (63 <<< 41) + (3 <<< 38))
      keyOf w = k ∧ (goU w (regs 0 0 0) []).Issues 0 .u w [] ∧ (Seq.areg (regs 0 0 0) (fld w 38 3)).toNat < 768 ∧
      (goU w (regs 0 0 0) []).soundChk 0 = false) ∧
    (let v : Seq := { a := [(3, 764)] }
     let args := [38, 35, 32, 29, 26].map (fun p => v.areg (fld updWord p 3)) ++ [v.sreg (fld updWord 21 5), v.sreg (fld updWord 16 5)]
     keyOf updWord = 0x800 ∧ (goU updWord v []).Issues 0 .u updWord [fld updWord 21 5, fld updWord 16 5] ∧
     ((goU updWord v []).tile 0).io.vec = [] ∧ ((goU updWord v []).tile 0).badCoef 63 = none ∧
     coefOk (((goU updWord v []).tile 0).coef 63) = true ∧
     (∀ r ∈ (updRuns args (((goU updWord v []).tile 0).coef 63)).map (updRun updWord), r.lo + r.n ≤ 768) ∧
     (goU updWord { a := [(3, 765)] } []).Issues 0 .u updWord [fld updWord 21 5, fld updWord 16 5] ∧
     ((((updRuns (args.map (· + 1)) (((goU updWord v []).tile 0).coef 63)).map (updRun updWord)).map Run.check).findSome? id ≠ none) ∧
     (goU updWord v [(8 * 63 + 3, 0x10000000000)]).Issues 0 .u updWord [fld updWord 21 5, fld updWord 16 5] ∧
     coefOk (((goU updWord v [(8 * 63 + 3, 0x10000000000)]).tile 0).coef 63) = false) ∧
    (∀ l ∈ [[{}], List.replicate 16 ({} : Op)], let s := (at0 { tile updWord with io := { vec := l } }).enter 0 .u
     s.Issues 0 .u updWord [fld updWord 21 5, fld updWord 16 5] ∧
     (s.tile 0).io.vec = l ∧ ∀ o ∈ l, fld o.w 56 8 ≠ 0x80 ∨ o.go = true) := by
  refine ⟨?_, ⟨by decide, issues_of (by decide), by decide, by decide, by decide, by decide, issues_of (by decide),
    by decide, issues_of (by decide), by decide⟩, ?_⟩
  swap
  · have h : ∀ l ∈ [[{}], List.replicate 16 ({} : Op)], let s := (at0 { tile updWord with io := { vec := l } }).enter 0 .u
        issues s 0 .u updWord [fld updWord 21 5, fld updWord 16 5] = true ∧
        (s.tile 0).io.vec = l ∧ ∀ o ∈ l, fld o.w 56 8 ≠ 0x80 ∨ o.go = true := by decide
    exact fun l hl => ⟨issues_of (h l hl).1, (h l hl).2⟩
  intro k hk
  have h : ∀ k ∈ [0x810, 0x820], let w := BitVec.ofNat 64 (((k / 16) <<< 56) + (63 <<< 41) + (3 <<< 38))
      keyOf w = k ∧ issues (goU w (regs 0 0 0) []) 0 .u w [] = true ∧ (Seq.areg (regs 0 0 0) (fld w 38 3)).toNat < 768 ∧
      (goU w (regs 0 0 0) []).soundChk 0 = false := by decide
  exact ⟨(h k hk).1, issues_of (h k hk).2.1, (h k hk).2.2⟩

/-- A coefficient row of zeros. -/
def zeroRow : List Word := List.replicate 8 0

/-- The runs of an `UPD` of row 0 whose runs share no row. -/
theorem updRuns_example : updRuns ([0, 4, 8, 764, 0, 0, 0] ++ zeroRow) zeroRow =
    [(0, 0, 0, true), (1, 4, 0, true), (2, 8, 0, true), (3, 764, 0, false)] := by decide

/-- A started `UPD` whose four runs share no row; `CTW`; `CTR`. -/
theorem witness_UpdateComplete :
    (let o : Op := { w := 0x8000000000000000, v := [0, 4, 8, 764, 0, 0, 0] ++ zeroRow, go := true }
     (ops { vec := [o] }).VecHead 0 o [] ∧ fld o.w 56 8 = 0x80 ∧ o.go = true ∧
     ∀ i, updShared o.w (updRuns o.v (updRow o)) i = []) ∧
    (∀ w, (ops { vec := [{ w := w, v := [767] }] }).VecHead 0 { w := w, v := [767] } []) ∧
    fld 0x8100000000000000 56 8 = 0x81 ∧ fld 0x8200000000000000 56 8 = 0x82 := by
  refine ⟨⟨vecHead_ops _, by decide, rfl, fun i => ?_⟩, fun w => vecHead_ops _, by decide, by decide⟩
  show updShared _ (updRuns ([0, 4, 8, 764, 0, 0, 0] ++ zeroRow) zeroRow) i = []
  rw [updRuns_example]
  rcases i with _ | _ | _ | _ | i
  · decide
  · decide
  · decide
  · decide
  · simp [updShared, List.find?]

/-- The running job with window 0 of one granule of HBM at 0, readable and writable, or of host memory. -/
def jobWin (host : Bool) : Job :=
  { job with cfg := [(0x20008, 4096), (0x20010, if host then 0x800000000000001C else 0x8000000000000018)] }

/-- A module about to issue a `PORT` of the last descriptor of row 767, with tags `l` in flight, running `j`. -/
def portAt (j : Job) (l : List Xfer) : State :=
  { at0 { tile (word 0x600 0 3 0 7) with sq := { f := regs 0 0 0 }, io := { tags := l } } with job := j }.enter 0 .f

/-- The transfer of that descriptor, all zeros: a load of one byte. -/
def portXfer : Xfer := { tag := 0, q := .f, pc := 0, d := List.replicate 8 0 }

/-- A load of the window's byte 0 into row 0; with its tag in flight; without a window; of host memory. -/
theorem witness_PorterIssue :
    (∀ p ∈ [(jobWin false, []), (jobWin true, []), (job, []), (job, [portXfer])],
      (portAt p.1 p.2).Issues 0 .f (word 0x600 0 3 0 7) [] ∧ (portAt p.1 p.2).Clear 0 ∧ (portAt p.1 p.2).soundChk 0 = false ∧
      (portAt p.1 p.2).rl.outs.length + 1 ≤ 1024) ∧
    (segLines (portXfer.base (jobWin true)).toNat portXfer.segs).length = 1 ∧ ((portAt (jobWin true) []).region 0).pwr = 0 ∧
    keyOf (word 0x600 0 3 0 7) = 0x600 ∧ Seq.areg (regs 0 0 0) (fld (word 0x600 0 3 0 7) 37 3) = 767 ∧
    portXfer.refuse (jobWin false) = none ∧ portXfer.refuse (jobWin true) = none ∧ portXfer.refuse job = some 2 ∧
    (∀ r ∈ xferRuns portXfer.d, r.lo + r.n ≤ 768) ∧ portXfer.isHcoh (jobWin true) = false ∧ portXfer.isHost (jobWin true) = true ∧
    portXfer.tag = dTag portXfer.d := by
  refine ⟨?_, by decide, by decide, by decide, by decide, by decide, by decide, by decide, by decide, by decide, by decide, by decide⟩
  have h : ∀ p ∈ [(jobWin false, []), (jobWin true, []), (job, []), (job, [portXfer])],
      issues (portAt p.1 p.2) 0 .f (word 0x600 0 3 0 7) [] = true ∧ quiet (portAt p.1 p.2) 0 = true ∧
      (portAt p.1 p.2).soundChk 0 = false ∧ (portAt p.1 p.2).rl.outs.length + 1 ≤ 1024 := by decide
  exact fun p hp => let ⟨a, b, c⟩ := h p hp; ⟨issues_of a, clear_of b, c⟩

/-- The descriptor that `PORT` reads from an empty scratchpad. -/
theorem witness_PorterIssue_descriptor :
    wordsOf ((((portAt job []).tile 0).rows 767 1).drop (64 * fld (word 0x600 0 3 0 7) 0 3)) 8 = List.replicate 8 0 := by
  decide +kernel

/-- A module with the transfer `x` in flight on tile 0. -/
def xfer (x : Xfer) : State := { ops { tags := [x] } with job := jobWin false }

/-- A load, a store, a gather of one byte of HBM and a store to host memory, in flight in the job of their window. -/
def transfers : List (Xfer × Job) := [({ d := [0, 767, 0, 0, 0, 0, 0, 0] }, jobWin false),
  ({ d := [0x4000000000000000, 767, 0, 0, 0, 0, 0, 0] }, jobWin false), ({ d := [0x8000000000000000, 767, 0, 0, 0, 0, 0, 0] }, jobWin false),
  ({ d := [0x4000000000000000, 767, 0, 0, 0, 0, 0, 0], asked := true }, jobWin true)]
def inJob (p : Xfer × Job) : State := { ops { tags := [p.1] } with job := p.2 }

/-- Nothing holds the transfers. -/
theorem witness_PorterCompletes_free :
    (∀ p ∈ transfers, (inJob p).sameTick = false ∧ ((inJob p).tile 0).io.tags.find? (fun g => decide (g.tag = 0)) = some p.1) ∧
    (∀ p ∈ transfers, p.1.stuck = false ∧ (inJob p).power.clamp = false ∧ p.1.left = [] ∧ ((inJob p).tile 0).blocked = false) ∧
    (∀ p ∈ transfers, p.1.isHcoh (inJob p).job = false ∧ p.1.epoch = (inJob p).job.epoch ∧ p.1.racy = [] ∧ (inJob p).stow.sending = false) ∧
    (∀ p ∈ transfers, (inJob p).others 0 p.1 = [] ∧ (inJob p).Quiet 0 p.1.id) ∧
    transfers.map (fun p => (dDir p.1.d, p.1.isHost p.2, p.1.d.length, p.1.asked)) =
      [(0, false, 8, false), (1, false, 8, false), (2, false, 8, false), (1, true, 8, true)] := by
  refine ⟨by decide, by decide, by decide, ?_, by decide⟩
  have h : ∀ p ∈ transfers, (inJob p).others 0 p.1 = [] ∧ quiet (inJob p) 0 = true := by decide
  exact fun p hp => ⟨(h p hp).1, quiet_of (h p hp).2⟩

/-- What a load and a store read passes its checks; the indices of a gather within and out of bounds; a burst read; a transfer that has
stopped. -/
theorem witness_PorterCompletes :
    (let x : Xfer := { d := [0, 767, 0, 0, 0, 0, 0, 0] }
     (∀ g ∈ x.segs, 512 * dSrow x.d ≤ g.sp ∧ g.sp + g.len ≤ 512 * (dSrow x.d +
       (((List.range (dRows x.d)).map (dSrow x.d + ·)).filter fun r => decide (0 < landedIn x.segs r)).length)) ∧
     (xfer x).blockCheck { t := 0, q := 0, eng := 4, pc := 0 } x x.segs [] .none = none ∧
     ∃ p ∈ x.blocks (xfer x).job x.segs, 4095 / 32 * 32 ∈ burstsOf x p) ∧
    (let x : Xfer := { d := [0x4000000000000000, 767, 0, 0, 0, 0, 0, 0] }
     (xfer x).blockCheck { t := 0, q := 0, eng := 4, pc := 0 } x x.segs [] .none = none) ∧
    ((∀ a ∈ dStarts [0x8000000000000000, 767, 0, 0, 0, 0, 0, 0] [0], 0 ≤ a ∧
        a + dL0 [0x8000000000000000, 767, 0, 0, 0, 0, 0, 0] ≤ (({} : Xfer).limit (jobWin false) : Int)) ∧
      ∃ a ∈ dStarts [0x8000000000000000, 767, 0x1000, 0, 0, 0, 0, 0] [0], (({} : Xfer).limit (jobWin false) : Int) <
        a + dL0 [0x8000000000000000, 767, 0x1000, 0, 0, 0, 0, 0]) ∧
    ({ stuck := true } : Xfer).stuck = true ∧ (State.reset.stk 0).ue = [] ∧ (State.reset.stk 0).ce = [] ∧
    Map.get false (State.reset.stk 0).crcV 0 = false :=
  ⟨⟨by decide, by decide, by decide⟩, by decide, by decide, rfl, rfl, rfl, rfl⟩

theorem witness_StackWritesOneGranule :
    4096 ∈ ({ ue := [4096], ce := [4096] } : Stack).ue ∧ 4096 % 32 = 0 ∧ 4096 * 1 + 0 ≤ 4096 ∧ 4096 + 32 ≤ 4096 * 1 + 0 + (zeros 32).length ∧
    4064 + (zeros 32).length ≤ 4096 := by decide

/-- A module whose cluster 0 is `c`. -/
def clusAt (x : Tile) (c : Cluster) : State := { at0 x with clusters := [(0, c)] }

/-- CLD and CST of the last row, with the port free and taken; no request ready and one ready. -/
theorem witness_ClusterStoreCopies_requests :
    (∀ k ∈ [0x610, 0x620], keyOf (word k 3 0 0 0) = k ∧ (turn (word k 3 0 0 0) (regs 25165312 0 0)).Issues 0 .f (word k 3 0 0 0) [] ∧
      (turn (word k 3 0 0 0) (regs 25165312 0 0)).soundChk 0 = false ∧
      (turnAt { tile (word k 3 0 0 0) with io := { cs := some {} } }).Issues 0 .f (word k 3 0 0 0) []) ∧
    (Seq.areg (regs 25165312 0 0) 3).toNat + fN (word 0x610 3 0 0 0) ≤ 768 ∧
    (Seq.areg (regs 25165312 0 0) 0).toNat / 512 + fN (word 0x610 3 0 0 0) ≤ 49152 ∧
    (State.reset.cluster 191).waiting = [] ∧
    (∀ e ∈ [([], [({ n := 1 }, 0)]), ([{ n := 1, wr := true }], [])],
      let s := clusAt (tile 0) { waiting := [{ n := 1 }], chans := e.1 }
      (s.cluster 0).waiting ≠ [] ∧ ((s.csCycle 0).modCluster 0 fun x => x.countWait (s.csCycle 0).cycle).csReady 0 = e.2) := by
  refine ⟨?_, by decide, by decide, by decide, by decide⟩
  have h : ∀ k ∈ [0x610, 0x620], keyOf (word k 3 0 0 0) = k ∧
      issues (turn (word k 3 0 0 0) (regs 25165312 0 0)) 0 .f (word k 3 0 0 0) [] = true ∧
      (turn (word k 3 0 0 0) (regs 25165312 0 0)).soundChk 0 = false ∧
      issues (turnAt { tile (word k 3 0 0 0) with io := { cs := some {} } }) 0 .f (word k 3 0 0 0) [] = true := by decide
  exact fun k hk => let ⟨a, b, c, d⟩ := h k hk; ⟨a, issues_of b, c, issues_of d⟩

/-- An access of the last row to complete, written and read, of a tile and of its queue unit. -/
theorem witness_ClusterStoreCopies_completes : ∀ wr qu,
    let r : CsReq := { lo := 25165312, n := 1, wr := wr, qu := qu, op := { v := [767] }, ad := 25165808, dat := zeros 16 }
    let s := clusAt (tile 0) { chans := [r] }
    (s.cluster 0).chans[0]? = some r ∧ s.Quiet (clusterTile 0 r.lt) r.op.id ∧ (s.tile (clusterTile 0 r.lt)).st ≠ 8 ∧
    (s.cluster 0).badGranule r.lo (512 * r.n) = none ∧ s.csRanges 0 = [] ∧ r.ad - r.lo + r.dat.length ≤ 512 * r.n :=
  fun wr qu => ⟨rfl, quiet_of (by cases wr <;> cases qu <;> decide), by cases wr <;> cases qu <;> decide,
    by cases wr <;> cases qu <;> decide, by cases wr <;> cases qu <;> decide, by cases wr <;> cases qu <;> decide⟩

/-- A tile in uniform mode about to issue `w` with register 1 holding `a`. -/
def uniAt (w a : Word) : State :=
  (at0 { tile w with cfg := [(0x18, 0x3E4), (0x20, 0x0103010201010100)], sq := { f := { s := [(1, a)], a := [(3, 767)] } } }).enter 0 .f

/-- ULD and UST outside uniform mode, of a cluster not of the job, and of the job's cluster's last granule. -/
theorem witness_UniformAccesses_issue : ∀ k ∈ [0x630, 0x640],
    let w := word k 3 1 0 0
    keyOf w = k ∧ (turn w {}).Issues 0 .f w [1] ∧ bit (((turn w {}).tile 0).reg 0x18) 9 = false ∧
    (uniAt w 0xBF01FFFFC0).Issues 0 .f w [1] ∧ bit (((uniAt w 0xBF01FFFFC0).tile 0).reg 0x18) 9 = true ∧
    fld 0xBF017FFFC0 6 19 = 393215 ∧ fld 0xBF017FFFC0 32 8 ∉ (uniAt w 0).job.clusters ∧
    (uniAt w 0x017FFFC0).Issues 0 .f w [1] ∧ fld 0x017FFFC0 6 19 = 393215 ∧ fld 0x017FFFC0 32 8 ∈ (uniAt w 0).job.clusters ∧
    ((uniAt w 0).tile 0).io.uniNext ≤ (uniAt w 0).power.exc ∧ (uniAt w 0).soundChk 0 = false ∧ ((uniAt w 0).tile 0).io.cs = none := by
  have h : ∀ k ∈ [0x630, 0x640],
    let w := word k 3 1 0 0
    keyOf w = k ∧ issues (turn w {}) 0 .f w [1] = true ∧ bit (((turn w {}).tile 0).reg 0x18) 9 = false ∧
    issues (uniAt w 0xBF01FFFFC0) 0 .f w [1] = true ∧ bit (((uniAt w 0xBF01FFFFC0).tile 0).reg 0x18) 9 = true ∧
    fld 0xBF017FFFC0 6 19 = 393215 ∧ fld 0xBF017FFFC0 32 8 ∉ (uniAt w 0).job.clusters ∧
    issues (uniAt w 0x017FFFC0) 0 .f w [1] = true ∧ fld 0x017FFFC0 6 19 = 393215 ∧ fld 0x017FFFC0 32 8 ∈ (uniAt w 0).job.clusters ∧
    ((uniAt w 0).tile 0).io.uniNext ≤ (uniAt w 0).power.exc ∧ (uniAt w 0).soundChk 0 = false ∧
    ((uniAt w 0).tile 0).io.cs = none := by decide
  exact fun k hk => let ⟨a, b, c, d, e, f, g, i, r⟩ := h k hk; ⟨a, issues_of b, c, issues_of d, e, f, g, issues_of i, r⟩

/-- A write and a read to be accepted; an accepted one to complete. -/
theorem witness_UniformAccesses_accept : ∀ wr acc,
    let u : UniOp := { op := { v := [767] }, wr := wr, acc := acc, dat := zeros 64 }
    ((ops { uni := [u] }).tile 0).io.uni[0]? = some u ∧ (ops { uni := [u] }).Quiet 0 u.op.id ∧
    (ops { uni := [u] }).uniClear u = true ∧ (ops { uni := [u] }).csRanges u.c = [] ∧
    max (ops { uni := [u] }).power.exc ((ops { uni := [u] }).cluster u.c).uniGo < (ops { uni := [u] }).power.exc + 17 ∧
    ((ops { uni := [u] }).cluster u.c).badGranule u.ad 64 = none ∧ u.dat.length = 64 :=
  fun a b => ⟨rfl, quiet_of (quiet_ops _ rfl), rfl, by cases a <;> cases b <;> decide, (by decide : (0 : Nat) < 17),
    by simp [Cluster.badGranule, ops, at0, State.cluster, Map.get, State.reset], List.length_replicate⟩

/-- None goes before one of tile 0; one behind a write of its granule; one early by a cycle and one at its time. -/
theorem witness_UniformAccesses_waits :
    (let s := ops { uni := [{}] }
     s.uniBefore 0 {} = false ∧ (s.tile 0).st ≠ 8 ∧
     ({ s with clusters := [(0, { chans := [{ n := 1, wr := true }] })] } : State).uniClear {} = false) ∧
    (let u : UniOp := { acc := true, k := 1 }
     652 + 16 < u.at_ + 653 + 16 * 1 ∧ u.acc = true ∧ 1 = u.k ∧ u.at_ + 653 + 16 * 1 ≤ 653 + 16) := by decide

/-- A module about to issue `w` on tile 0 with tally 47 of its cluster at 1 of 2. -/
def talAt (w : Word) : State := (clusAt (tile w) { tally := [(47, { count := 1, ceil := 2 })] }).enter 0 .f

/-- TADD, TADDR, TRD; TWAIT for −1, 3, 2 and 1; an addition of −2, of 2 and of 1, and one behind a cluster-store access. -/
theorem witness_Tallies :
    (∀ p ∈ [(0x700, 0x70005E0000000000), (0x710, 0x71005FF000000000), (0x730, 0x73005FF000000000), (0x720, 0x72005E00FFFFFFFF),
      (0x720, 0x72005E0000000003), (0x720, 0x72005E0000000002), (0x720, 0x72005E0000000001)],
      keyOf p.2 = p.1 ∧ (talAt p.2).Issues 0 .f p.2 [fld p.2 36 5] ∧ fld p.2 41 6 = 47) ∧
    (∀ d : Int, ((ops { tal := [{ tl := 47, d := d }] }).tile 0).io.tal = [{ tl := 47, d := d }] ∧
      ((ops { tal := [{ tl := 47, d := d }] }).tile 0).csPending 0 0 = false ∧ (ops { tal := [{ tl := 47, d := d }] }).sameTick = false) ∧
    (ops { tal := [{ tl := 47, d := 1 }] }).addBefore 0 { tl := 47, d := 1 } = false ∧
    (let l : LateOp := { op := { w := 0x73005FF000000000 }, due := 0 }
     ((ops { late := [l] }).tile 0).io.late = [l] ∧ fld l.op.w 56 8 = 0x73 ∧ l.due ≤ (ops { late := [l] }).cycle ∧ l.op.q ≠ .x) ∧
    (talAt 0).addDue 0 47 = false ∧ (talAt 0).countAtTurn 0 47 = 1 ∧
    ((ops { tal := [{ op := { id := 1 } }], cs := some { op := {} } }).tile 0).csPending 0 1 = true ∧
    (talAt 0).dbg.bpen = false := by
  refine ⟨?_, fun d => ⟨rfl, rfl, rfl⟩, by decide, by decide, by decide, by decide, by decide, by decide⟩
  have h : ∀ p ∈ [(0x700, 0x70005E0000000000), (0x710, 0x71005FF000000000), (0x730, 0x73005FF000000000), (0x720, 0x72005E00FFFFFFFF),
      (0x720, 0x72005E0000000003), (0x720, 0x72005E0000000002), (0x720, 0x72005E0000000001)],
      keyOf p.2 = p.1 ∧ issues (talAt p.2) 0 .f p.2 [fld p.2 36 5] = true ∧ fld p.2 41 6 = 47 := by decide
  exact fun p hp => ⟨(h p hp).1, issues_of (h p hp).2.1, (h p hp).2.2⟩

/-! ## Queues and messages -/

/-- Sequencer F about to send the words `h0` and `h1` of a message. -/
def sender (h0 h1 : Word) : Seq := { s := [(1, h0), (2, h1)] }

/-- QSENDS of a message to tile 0, and of one to a tile not of the job; QSEND of an all-zero header in the last row and of one for
another module. -/
theorem witness_MessagesAreSent_issue :
    (let w := word 0x750 4 1 2 (3 <<< 27)
     keyOf w = 0x750 ∧ (∀ h ∈ [0, 0x00FFFC0000000000], (turn w (sender h 0)).Issues 0 .f w [1, 2, 3, 4] ∧
       (turn w (sender h 0)).soundChk 0 = false ∧ ((turn w (sender h 0)).tile 0).io.out.length < 32) ∧
     (turn w (sender 0 0)).headerCheck { h0 := 0, h1 := 0, pay := zeros 16 } false = none ∧
     (turn w (sender 0x003FFC0000000000 0)).headerCheck { h0 := 0x003FFC0000000000, h1 := 0, pay := zeros 16 } false ≠ none) ∧
    (let w := word 0x740 0 3 0 0
     keyOf w = 0x740 ∧ (turn w (regs 0 0 0)).Issues 0 .f w [] ∧ (turn w (regs 0 0 0)).Clear 0 ∧
     (Seq.areg (regs 0 0 0) (fld w 37 3)).toNat + ((fld w 32 5 + fld 0 0 8) / 32 + 1) ≤ 768 ∧
     (turn w (regs 0 0 0)).headerCheck {} true = none ∧ (turn w (regs 0 0 0)).headerCheck { h0 := 0xFFC0000000000000 } true ≠ none) := by
  refine ⟨⟨by decide, ?_, by decide, by decide⟩, by decide, issues_of (by decide), clear_of (by decide), by decide, by decide, by decide⟩
  intro h hh
  simp only [List.mem_cons, List.not_mem_nil, or_false] at hh
  rcases hh with rfl | rfl <;> exact ⟨issues_of (by decide), by decide, by decide⟩

/-- A module with the port 31 alone in group 0, `UP`, module 5 routed to that group, and the send `o` of tile 0 outbound. -/
def outAt (o : Op) : State :=
  { ops { out := [o] } with
    ports := [(31, { st := 4, en := true, gvalid := true })]
    net := { rt := [(0x31028, 0x8000000000000000)] } }

/-- A QSENDS and a QSEND outbound for this module, and a QSENDS for another by a port that is up. -/
theorem witness_MessagesAreSent_leave :
    (∀ o : Op, ((outAt o).tile 0).io.out = o :: [] ∧ (outAt o).Quiet 0 o.id) ∧
    fld (word 0x750 0 0 0 0) 56 8 = 0x75 ∧ fld (word 0x740 0 0 0 0) 56 8 = 0x74 ∧
    hDmod { h0 := 0 } = (outAt {}).modid ∧ hDmod { h0 := 0x0140000000000000 } ≠ (outAt {}).modid ∧
    (outAt {}).route 5 0 false = .inr 31 :=
  ⟨fun _ => ⟨rfl, quiet_of (quiet_ops _ rfl)⟩, by decide, by decide, by decide, by decide, by decide⟩

/-- A module about to issue `w` of tile 0, whose queue 0 has a ring of one row at row 0 and is in state `y`, with `m` written. -/
def queAt (w : Word) (y : Queue) (m : List MsgWr) : State :=
  (at0 { tile w with
    cfg := [(0x18, 0x1E4), (0x20, 0x0103010201010100), (0x1000, 0x8000000000000000)]
    qu := { qs := [(0, y)], wrs := m } }).enter 0 .f

/-- A module whose tile 0 has the queue control `o` in flight, due, and the message writes `m` of queue 0. -/
def ctlAt (o : Nat) (m : List MsgWr) : State := at0 { tile 0 with
  io := { late := [{ op := { w := word 0x780 0 0 0 (o <<< 28) }, due := 0 }] }
  qu := { wrs := m } }

/-- Each queue instruction on a configured and on an unconfigured queue; 8 and 7 visible bytes; a message being written. -/
theorem witness_QueueInstructions :
    (∀ p ∈ [(0x760, word 0x760 31 0 0 0), (0x770, word 0x770 31 0 0 0), (0x780, word 0x780 0 0 0 0),
      (0x781, word 0x780 0 0 0 (1 <<< 28)), (0x782, word 0x780 0 0 0 (2 <<< 28))],
      keyOf p.2 = p.1 ∧ (turn p.2 {}).Issues 0 .f p.2 [fD p.2] ∧ bit (((turn p.2 {}).tile 0).qcfg (fld p.2 32 9)) 63 = false ∧
      (queAt p.2 { occ := 8 } []).Issues 0 .f p.2 [fD p.2] ∧ bit (((queAt p.2 { occ := 8 } []).tile 0).qcfg (fld p.2 32 9)) 63 = true ∧
      (queAt p.2 { occ := 7 } [{}]).Issues 0 .f p.2 [fD p.2]) ∧
    (queAt 0 { occ := 8 } []).Clear 0 ∧ ringInCs (((queAt 0 { occ := 8 } []).tile 0).qcfg 0) = false ∧
    ringInCs 0xC000000000000000 = true ∧ ((queAt 0 { occ := 8 } []).tile 0).queue 0 = { occ := 8 } ∧
    (∀ o ∈ [0, 1, 2], ∀ m ∈ [[], [({} : MsgWr)]], ∃ l : LateOp, ((ctlAt o m).tile 0).io.late = [l] ∧ fld l.op.w 56 8 = 0x78 ∧
      fld l.op.w 28 4 = o ∧ fld l.op.w 32 9 = 0 ∧ l.due ≤ (ctlAt o m).cycle) ∧
    ({} : MsgWr) ∈ ((ctlAt 2 [{}]).tile 0).qu.wrs ∧ ({} : MsgWr).q = 0 ∧ ((ctlAt 2 []).tile 0).qu.wrs = [] := by
  refine ⟨?_, clear_of (by decide), by decide, by decide, by decide, fun o ho m hm => ⟨_, rfl, ?_⟩, by decide, rfl, rfl⟩
  swap
  · revert o m; decide
  have h : ∀ p ∈ [(0x760, word 0x760 31 0 0 0), (0x770, word 0x770 31 0 0 0), (0x780, word 0x780 0 0 0 0),
      (0x781, word 0x780 0 0 0 (1 <<< 28)), (0x782, word 0x780 0 0 0 (2 <<< 28))],
      keyOf p.2 = p.1 ∧ issues (turn p.2 {}) 0 .f p.2 [fD p.2] = true ∧ bit (((turn p.2 {}).tile 0).qcfg (fld p.2 32 9)) 63 = false ∧
      issues (queAt p.2 { occ := 8 } []) 0 .f p.2 [fD p.2] = true ∧
      bit (((queAt p.2 { occ := 8 } []).tile 0).qcfg (fld p.2 32 9)) 63 = true ∧
      issues (queAt p.2 { occ := 7 } [{}]) 0 .f p.2 [fD p.2] = true := by decide
  exact fun p hp => let ⟨a, b, c, d, e, f⟩ := h p hp; ⟨a, issues_of b, c, issues_of d, e, issues_of f⟩

/-- A module with message `m` on its way to tile 0, whose queue 0 is in state `y`, and one with it in the inbound buffer. -/
def arrive (m : Msg) (y : Queue) (epoch : Nat) : State :=
  let s := at0 { tile 0 with cfg := [(0x18, 0x1E4), (0x20, 0x0103010201010100), (0x1000, 0x8000000000000000)], qu := { qs := [(0, y)] } }
  { s with net := { msgs := [m] }, job := { s.job with epoch := epoch } }
def inboxed (m : Msg) : State := at0 { tile 0 with qu := { inbox := some m } }

/-- An arrival, and a waiting message; of an old epoch (both forms); tally form within CEIL 0; for a queue that is closed; larger than the
ring with OVF clear and set; that just fits; that must wait. -/
theorem witness_MessagesArrive_resolved :
    (∀ m y e, hDtile m = 0 → (arrive m y e).net.msgs[0]? = some m ∧ ((arrive m y e).refreshQueue 0).takesArrivals 0 = true ∧
      (arrive m y e).net.msgs.take 0 = [] ∧ ((arrive m y e).refreshQueue 0).job.epoch = e ∧
      (((arrive m y e).refreshQueue 0).tile 0).qcfg 0 = 0x8000000000000000 ∧
      (((arrive m y e).refreshQueue 0).tile 0).queue 0 = if y = {} then {} else y) ∧
    (let s := (at0 { tile 0 with
       cfg := [(0x18, 0x1E4), (0x20, 0x0103010201010100), (0x1000, 0x8000000000000000)]
       qu := { qs := [(0, { open_ := true })], inbox := some {} } }).refreshQueue 0
     (s.tile 0).qu.inbox = some {} ∧ s.accepts 0 = true) ∧
    hDtile {} = 0 ∧ hEpoch {} < 1 ∧ hTform {} = false ∧ hTform { h1 := 0x4000000000000000 } = true ∧
    (0 : W32).toInt + (BitVec.ofNat 32 (leNat (([] : List Byte).take 4))).toInt = 0 ∧
    ringSize 0x8000000000000000 = 512 ∧ hLen { h0 := 31 } = 512 ∧ hLen { h0 := 32 } = 528 ∧ bit 0x8000000000000000 61 = false ∧
    bit 0xA000000000000000 61 = true ∧ ringSize 0xA000000000000000 = 512 ∧ hLen { h0 := 31 } ≤ 512 - 0 - 0 ∧ 512 - 1 - 0 < hLen { h0 := 31 } := by
  refine ⟨fun m y e h => ⟨rfl, rfl, rfl, rfl, (by decide : (((arrive {} {} 0).refreshQueue 0).tile 0).qcfg 0 = 0x8000000000000000), ?_⟩,
    by decide, by decide, by decide, by decide,
    by decide, by decide, by decide, by decide, by decide, by decide, by decide, by decide, by decide, by decide⟩
  by_cases hy : y = {}
  · simp only [hy, if_true]; rfl
  · simp only [hy, if_false]; rfl

/-- A message of 16 bytes to become visible at the end of a ring; a slip; a waiting message with limits running and suspended. -/
theorem witness_MessagesArrive_visible :
    (let s := queAt 0 { head := 0, occ := 496, open_ := true } [{ m := {} }]
     s.sameTick = false ∧ (s.tile 0).qu.wrs = { m := {} } :: [] ∧ ({ m := {} } : MsgWr).wait = 0 ∧ (s.tile 0).st ≠ 8 ∧ s.Clear 0 ∧
     s.soundChk 0 = false ∧ (s.tile 0).io.late = [] ∧ (s.tile 0).qu.inbox = none ∧ ringInCs ((s.tile 0).qcfg 0) = false ∧
     ((s.tile 0).queue 0).head = 0 ∧ (0 + 496) % ringSize ((s.tile 0).qcfg 0) + hLen {} ≤ ringSize ((s.tile 0).qcfg 0)) ∧
    (let s := at0 { tile 0 with qu := { slips := [{}] } }
     (s.tile 0).qu.slips = {} :: [] ∧ (s.tile 0).st ≠ 8 ∧ hDmod {} = s.modid) ∧
    (inboxed {}).suspended = false ∧ (inboxed {}).job.js ≠ 6 ∧ { inboxed {} with dbg := { jobHalt := true } }.suspended = true :=
  ⟨⟨by decide, by decide, rfl, by decide, clear_of (by decide), by decide, by decide, by decide, by decide, by decide, by decide⟩, ⟨rfl, by decide, by decide⟩, by decide,
    by decide, by decide⟩

/-! ## X, the exchange and the supersteps -/

/-- A tile in EXCHANGE about to issue `w` on X, with a route entry (row 1) to tile 0, a plan (row 2) of 512 bytes to receive, one meet
result and `sent` bytes to send, and a meet entry (row 3) of kind FORWARD and fan-in 1. -/
def xTile (w : Word) (sent : Byte) : Tile := { tile w with
  st := 5
  cfg := [(0x18, 0x1E4), (0x20, 0x0103010201010100), (0x28, 0x10001), (0x38, 0x10002), (0x40, 0x10003)]
  sp := [(1025, 2), (1028, 1), (1033, sent), (1543, 0x40)] }

/-- That tile in a running exchange phase, with `o` outbound. -/
def xAt (w : Word) (sent : Byte) (o : List Op) : State :=
  (atX { xTile w sent with io := { out := o } }).enter 0 .x

/-- X's instructions, with a send of X outbound and with none; too few bytes sent, and as many as planned. -/
theorem witness_XControl :
    (∀ p ∈ [(0xC70, 0xC700000000000000), (0xC60, 0xC600000000001FFF), (0xC30, 0xC3006000FFFFFFFF), (0xC40, 0xC400600000000000),
      (0xC80, 0xC800000000000000), (0xC50, 0xC500000000000000)], keyOf p.2 = p.1 ∧ (xAt p.2 0 []).Issues 0 .x p.2 [] ∧
      (xAt p.2 2 []).Issues 0 .x p.2 [] ∧ (xAt p.2 2 [{ q := .x }]).Issues 0 .x p.2 []) ∧
    ((xAt 0 2 []).tile 0).xs.sent.toNat < ((xAt 0 2 []).tile 0).planSent ∧
    ((xAt 0 0 []).tile 0).planSent ≤ ((xAt 0 0 []).tile 0).xs.sent.toNat := by
  refine ⟨?_, by decide, by decide⟩
  have h : ∀ p ∈ [(0xC70, 0xC700000000000000), (0xC60, 0xC600000000001FFF), (0xC30, 0xC3006000FFFFFFFF), (0xC40, 0xC400600000000000),
      (0xC80, 0xC800000000000000), (0xC50, 0xC500000000000000)], keyOf p.2 = p.1 ∧ issues (xAt p.2 0 []) 0 .x p.2 [] = true ∧
      issues (xAt p.2 2 []) 0 .x p.2 [] = true ∧ issues (xAt p.2 2 [{ q := .x }]) 0 .x p.2 [] = true := by decide
  exact fun p hp => let ⟨a, b, c, d⟩ := h p hp; ⟨a, issues_of b, issues_of c, issues_of d⟩

/-- The words of a route entry of kind `k` to tile 0. -/
def entry (k : Nat) : List Word := [place 62 2 k, 0, 0, 0, 0, 0, 0, 0]

/-- Each send with its entry in the table; an entry that passes and one that does not; bytes within and beyond the plan; a send
of one row outbound. -/
theorem witness_XSends :
    (∀ p ∈ [(0xC00, 0xC000000000000000), (0xC10, 0xC100000000000000), (0xC20, 0xC200000000000000)], keyOf p.2 = p.1 ∧
      (xAt p.2 2 []).Issues 0 .x p.2 [] ∧ (xAt p.2 2 []).Clear 0 ∧ (xAt p.2 2 []).soundChk 0 = false ∧
      ((xAt p.2 2 []).tile 0).hasRoute (fld p.2 39 8) = true) ∧
    (xAt 0 2 []).routeReason (entry 0) (some 0) 0 0 1 = none ∧ (xAt 0 2 []).routeReason (entry 1) (some 1) 0 0 1 = none ∧
    (xAt 0 2 []).routeReason (entry 1) (some 0) 0 0 1 = some 4 ∧
    0 + 0 + xBytes 0xC000000000000000 ≤ ((xAt 0 2 []).tile 0).planSent ∧
    ((xAt 0 0 []).tile 0).planSent < 0 + 0 + xBytes 0xC200000000000000 ∧
    (let o : Op := { w := 0xC000000000000000, dat := zeros 64 }
     ((ops { out := [o] }).tile 0).io.out = o :: [] ∧ (ops { out := [o] }).Quiet 0 o.id ∧ (ops { out := [o] }).soundChk 2 = false ∧
     fld o.w 56 8 = 0xC0 ∧ rRemote (wordsOf o.dat 8) = false) := by
  refine ⟨?_, by decide, by decide, by decide, by decide, by decide, rfl, quiet_of (quiet_ops _ rfl),
    (by decide : (at0 (tile 0)).soundChk 2 = false), by decide, by decide⟩
  have h : ∀ p ∈ [(0xC00, 0xC000000000000000), (0xC10, 0xC100000000000000), (0xC20, 0xC200000000000000)], keyOf p.2 = p.1 ∧
      issues (xAt p.2 2 []) 0 .x p.2 [] = true ∧ quiet (xAt p.2 2 []) 0 = true ∧ (xAt p.2 2 []).soundChk 0 = false ∧
      ((xAt p.2 2 []).tile 0).hasRoute (fld p.2 39 8) = true := by decide
  exact fun p hp => let ⟨a, b, c, d⟩ := h p hp; ⟨a, issues_of b, clear_of c, d⟩

/-- The packet `p` on the mesh for tile 0 of `x`. -/
def pktAt (x : Tile) (p : Pkt) : State := { at0 x with net := { pkts := [p] } }

/-- A row within the plan that is not its block's last; the last with a check value that matches, and with one that does not; a row
beyond the plan. -/
theorem witness_RowsLand :
    (∀ p ∈ [({} : Pkt), { first := true, last := true }, { first := true, last := true, crc := 1 }],
      (pktAt (xTile 0 0) p).net.pkts[0]? = some p ∧ (pktAt (xTile 0 0) p).pktFirst 0 p = true ∧ p.tile = 0 ∧ p.kind = 0 ∧ p.one = false) ∧
    (pktAt (xTile 0 0) {}).sameTick = false ∧ ({ pktAt (xTile 0 0) {} with net := { pkts := [{}, {}] } } : State).pktFirst 1 {} = false ∧
    (0, 3) ∈ meshPath 1 0 ∧
    (pktAt (xTile 0 0) {}).landsAt 0 = true ∧ (pktAt (xTile 0 0) {}).Clear 0 ∧ (pktAt (xTile 0 0) {}).soundChk 0 = false ∧
    (pktAt (xTile 0 0) {}).soundChk 2 = false ∧
    ((pktAt (xTile 0 0) {}).tile 0).xs.recv.toNat + 512 ≤ ((pktAt (xTile 0 0) {}).tile 0).planRecv ∧
    ((pktAt (tile 0) {}).tile 0).planRecv < ((pktAt (tile 0) {}).tile 0).xs.recv.toNat + 512 ∧ (pktAt (tile 0) {}).landsAt 0 = true ∧
    (let p : Pkt := { first := true, last := true }
     crc32c (growBlk [] [p.smod, p.stile, 0] p.row p.first 512 p.data).1.data = p.crc) ∧
    (let p : Pkt := { first := true, last := true, crc := 1 }
     crc32c (growBlk [] [p.smod, p.stile, 0] p.row p.first 512 p.data).1.data ≠ p.crc) := by
  refine ⟨by decide, by decide, by decide, by decide, by decide, clear_of (by decide), by decide, by decide, by decide, by decide, by decide,
    by decide, by decide⟩

/-- A contribution to meet entry 0 with CIX 0, and one with CIX at the fan-in. -/
theorem witness_CombineUnit_contribution :
    let p : Pkt := { kind := 1, first := true, last := true }
    let s := pktAt (xTile 0 0) p
    let w := (s.tile 0).meetWord 0
    s.net.pkts[0]? = some p ∧ p.tile = 0 ∧ s.pktFirst 0 p = true ∧ s.landsAt 0 = true ∧ s.sameTick = false ∧ (s.tile 0).spBad = [] ∧
    s.pktWaits p = false ∧
    (pktAt { xTile 0 0 with xs := { rows := [{ rix := 1, held := [(1, [])] }] } } p).pktWaits p = true ∧
    p.meete < (s.tile 0).meetCount ∧ mKind w ≠ 3 ∧ p.cix < mFan w ∧ p.cix ∉ (findMeet (s.tile 0).xs.rows 0 0).got ∧
    crc32c p.data = p.crc ∧ p.int = mInt w ∧ mFan w ≤ 1 := by decide

/-- A complete row of meet entry 0, within and beyond the plan; a norm delivery; a row with a tag and a changed write count. -/
theorem witness_CombineUnit_results :
    (let m : MeetRow := { next := 1, sum := List.replicate 128 0 }
     let s := fun (x : Tile) => at0 { x with xs := { rows := [m] } }
     let k := wordsOf ((((s (xTile 0 0)).tile 0).rows (fld (((s (xTile 0 0)).tile 0).reg 0x28) 0 10 + 0 / 8) 1).drop 0) 8
     (((s (xTile 0 0)).tile 0).xs.rows.find? fun m => decide (m.e = 0 ∧ m.rix = 0)) = some m ∧ m.out = false ∧
     m.next = mFan (((s (xTile 0 0)).tile 0).meetWord 0) ∧ (s (xTile 0 0)).Clear 0 ∧ (s (xTile 0 0)).sameTick = false ∧
     (∀ k ∈ ((s (xTile 0 0)).tile 0).xs.rows, (k.e < 0 ∨ (k.e = 0 ∧ k.rix < 0)) → k.out = true) ∧
     mKind (((s (xTile 0 0)).tile 0).meetWord 0) = 1 ∧ mOnrt (((s (xTile 0 0)).tile 0).meetWord 0) = 0 ∧
     ((s (xTile 0 0)).tile 0).xs.meet + 1 ≤ ((s (xTile 0 0)).tile 0).planMeet ∧
     ((s { xTile 0 0 with sp := [(1543, 0x40)] }).tile 0).planMeet < 0 + 1 ∧
     m.wild = false ∧ ((s (xTile 0 0)).tile 0).hasRoute 0 = true ∧ k = entry 0 ∧
     (s (xTile 0 0)).routeReason (entry 0) none 0 0 1 = none ∧ (s (xTile 0 0)).routeReason (entry 3) none 0 0 1 ≠ none ∧ rRemote (entry 0) = false) ∧
    (let p : Pkt := { kind := 2 }
     (pktAt (xTile 0 0) p).pktFirst 0 p = true ∧ (pktAt (xTile 0 0) p).landsAt 0 = true ∧ ((pktAt (xTile 0 0) p).tile 0).spBad = [] ∧ crc32c p.data = p.crc ∧ ((pktAt (xTile 0 0) p).tile 0).xs.norms = 0 ∧
     ((pktAt (xTile 0 0) p).tile 0).xs.recv.toNat + 16 ≤ ((pktAt (xTile 0 0) p).tile 0).planRecv ∧
     ∀ k < 7, bit (((pktAt (xTile 0 0) p).tile 0).reg 0x410) (56 + k) = false) ∧
    (let s := fun (c : Nat) => { at0 { tile 0 with misc := { pfTag := [(767, 65)], pfCnt := [(767, [(31, 0, c)])] } } with
       job := { job with cfg := [(0x90020, 0x8200000000000000)] } }
     64 < Map.get 0 ((s 0).tile 0).misc.pfTag 767 ∧ Map.get 0 ((s 0).tile 0).misc.pfTag 766 ≤ 64 ∧ (s 0).soundChk 1 = true ∧
     (∀ c ∈ Map.get [] ((s 0).tile 0).misc.pfCnt 767, Map.get 0 ((s 0).stk c.1).wcnt c.2.1 = c.2.2) ∧
     ∃ c ∈ Map.get [] ((s 1).tile 0).misc.pfCnt 767, Map.get 0 ((s 1).stk c.1).wcnt c.2.1 ≠ c.2.2) := by
  refine ⟨⟨by decide, by decide, by decide, clear_of (by decide), by decide, by decide, by decide, by decide, by decide, by decide, by decide, by decide,
    by decide +kernel, by decide, by decide, by decide⟩, by decide, by decide⟩

/-- Before the agreed step comes, and once it has; the exchange phase with and without the done wave. -/
theorem witness_WavesOfASuperstep :
    (let s := fun (w : Wave) (e : Bool) => { at0 (xTile 0 0) with job := { job with wave := w, exch := e } }
     (s {} false).job.wave.go = none ∧ (s { go := some 64, arrSent := true } false).job.wave.go = some 64 ∧
     (s { go := some 64, arrSent := true } false).job.js = 4 ∧ (s { go := some 64, arrSent := true } false).job.exch = false ∧
     (s {} true).job.wave.done = false ∧ (s { done := true } true).job.wave.done = true ∧ (s { done := true } true).job.exch = true ∧
     (s { done := true } true).job.epoch + 1 < 2 ^ 32 ∧ (s { done := true } true).soundChk 0 = false ∧
     ((s {} true).tile 0).st = 5 ∧ ((s {} true).tile 0).xs.part = false ∧ (s {} true).suspended = false) ∧
    (let a := at0 { tile 0 with st := 4 }
     (a.tile 0).st = 4 ∧ 0 ∈ a.job.tiles ∧ a.suspended = false ∧ a.job.js = 4) ∧
    (let a := { at0 { xTile 0 0 with xs := { part := true } } with job := { job with exch := true } }
     (a.tile 0).st = 5 ∧ a.job.exch = true ∧ (a.tile 0).xs.part = true ∧ a.suspended = false) ∧
    (talAt 0x72005E0000000002).waitsIn 0 2 .f = true ∧
    (queAt (word 0x760 31 0 0 0) {} []).waitsIn 0 3 .f = true := by decide

/-- An arrived tile of the job, with no parity error in its slice; another job state. -/
theorem witness_BallastRampsAndChecks :
    (let s := at0 { tile 0 with st := 4, misc := { duty := 64, d0 := 64 } }
     s.job.js = 4 ∧ s.job.wave.doneAt = false ∧ s.job.tiles.Nodup ∧ 0 ∈ s.job.tiles ∧ regionOf 0 = 0 ∧ (s.tile 0).st = 4 ∧
     (s.tile 0).misc.quantum = false ∧ (s.tile 0).sliceParity s.slice = []) ∧ State.reset.job.js ≠ 4 := by decide

/-! ## The links and the host -/

/-- A module whose port 31 is `x`, running a job. -/
def portIs (x : Port) : State := { at0 (tile 0) with ports := [(31, x)], net := { modid := 0x8000000000000000 } }

def flit (vc : Nat) (chunk : BitVec 48) : Flit :=
  { vc := vc, head := true, tail := true, ronly := false, units := 0, chunk := chunk, pay := [] }
def frame (seq : Nat) (l : List Flit) : Frame :=
  { seq := seq, ack := 4095, nak := false, rpl := false, crJ0 := 0, crJ1 := 0, crSt := 0, sym := none, flits := l }

/-- A port in each state a link command acts in; one in DOWN that may run and one that may not; a DOWN that loses job flits. -/
theorem witness_LlynLinkStates :
    (∀ n, ((portIs { st := n + 1 }).port 31).st = n + 1) ∧ (portIs { st := 6, en := true, reason := 1 }).portAllowed 31 = false ∧
    ({ portIs { st := 6, en := true } with regions := [(15, { pwr := 1 })] } : State).portAllowed 31 = true ∧
    (portIs { st := 5 }).job.img.isSome = true ∧ (portIs { st := 5 }).job.js ≠ 6 ∧
    ([frame 0 [flit 1 0]].any Frame.hasJob) = true ∧
    (let s : State := { State.reset with ports := [(30, { st := 4, en := true, gvalid := true }), (31, { st := 5, en := true, gvalid := true })] }
     s.job.img = none ∧ s.stow.busy = false ∧ (s.port 31).rx.tx = [] ∧ s.net.rmsg = [] ∧ s.net.rport = [] ∧ s.nextUp 31 = some 30) :=
  ⟨fun _ => rfl, by decide, by decide, by decide, by decide, by decide, by decide⟩

/-- A port not live; a frame to resend; frames with an error, out of sequence and in sequence; a packet of each kind for this
module, for a tile of the job and one not of it; a packet for another module with its regions awake and asleep. -/
theorem witness_FramesAndPackets :
    ¬ ((portIs { st := 2 }).port 31).st = 3 ∧ ((portIs { st := 3, rx := { resend := [frame 0 []] } }).port 31).rx.resend = frame 0 [] :: [] ∧
    ((portIs { st := 4 }).port 31).rx.disc + 1 < 8 ∧ ((portIs { st := 4, rx := { disc := 7 } }).port 31).rx.disc = 7 ∧
    ({ errs := [0, 8, 16, 24], mis := false } : RxQuality).bad 8 = true ∧ ({ errs := [], mis := false } : RxQuality).bad 8 = false ∧
    (frame 0 []).seq = (((portIs { st := 4 }).port 31).rx.ackRx + 1) % 4096 ∧
    (frame 1 []).seq ≠ (((portIs { st := 4 }).port 31).rx.ackRx + 1) % 4096 ∧ (frame 0 []).sym = none ∧
    (({ buf := [flit 0 0] } : LinkRx).frontBy (fun r => decide (recDmod r = 0))) = some (0, [flit 0 0]) ∧
    recType (chunksOf [flit 0 0]) = 0 ∧ recType (chunksOf [flit 0 0x300000000]) = 3 ∧
    (let s := { portIs {} with regions := [(0, { pwr := 0 }), (15, { pwr := 0 })] }
     (s.region (31 / 2)).pwr = 0 ∧ s.transitWaits 31 = false ∧ 3 ≤ s.job.js ∧ s.job.js ≤ 6 ∧
     (unionTiles (recPkt (chunksOf [flit 0 0]) []).rects).any s.breaksR30 = false ∧
     s.breaksR30 (bitsAt (chunksOf [flit 0 0x300000000]) 48 12) = false ∧
     (unionTiles (recPkt (chunksOf [flit 0 0]) []).rects).any ({ s with job := { job with tiles := [1] } } : State).breaksR30 = true) ∧
    (({ buf := [flit 1 5] } : LinkRx).frontBy (fun r => decide (recDmod r ≠ 0))) = some (1, [flit 1 5]) ∧
    (outAt {}).route 5 0 true = .inr 31 ∧ (outAt {}).transitRoute (chunksOf [flit 1 5]) = .inr 31 ∧ (outAt {}).transitWaits 31 = false ∧
    ({ outAt {} with ports := [(31, { st := 4, en := true, gvalid := true, rx := { buf := [flit 1 5] } })], regions := [(15, { pwr := 1 })] } : State).transitWaits 31
      = true ∧
    (∃ c ∈ transitRegions 31 31, ((portIs {}).region c).pwr ≠ 0) ∧
    ∀ c ∈ transitRegions 31 31, (({ portIs {} with regions := [(15, { pwr := 0 })] } : State).region c).pwr = 0 := by decide

/-- A port that is UP, for this module and for another; a held symbol from a child, and from the parent; ALIGN with both stamps held;
LINK 1 that agrees and one that does not. -/
theorem witness_SymbolsAct :
    (let s := portIs { st := 4 }
     (s.port 31).st = 4 ∧ 1024 % 1024 = s.modid ∧ s.job.img.isSome = true ∧ s.job.js ≠ 6 ∧ s.dbg.latched = false ∧
     s.dbg.pendSrc = none ∧ s.now < fixTickOf s.now 1 ∧ fixTickOf s.now 0 ≤ s.now) ∧
    (5 % 1024 ≠ (outAt {}).modid ∧ (outAt {}).route (5 % 1024) (0 % 1024) true = .inr 31 ∧ ((outAt {}).port 31).st = 4) ∧
    (let s := { portIs {} with job := { job with
       cfg := [(0x10200, 0x8001000000000000), (0x10240, 0x8002000000000000)]
       wave := { held := [(0, Sym.mk5 1 0 1 16), (1, Sym.mk5 2 0 2 64)], arrSent := true } } }
     s.job.wave.held[0]? = some (0, Sym.mk5 1 0 1 16) ∧ s.job.wave.held[1]? = some (1, Sym.mk5 2 0 2 64) ∧
     (∀ h ∈ s.job.wave.held.take 1, h.1 ≠ 1) ∧
     s.childEdges.find? (fun e => decide (e.2.1 = Sym.smod (Sym.mk5 1 0 1 16))) = some (0, 1, 0) ∧
     (Sym.mk5 1 0 1 16).code = 1 ∧ s.parentEdge = some (8, 2, 0) ∧ Sym.smod (Sym.mk5 2 0 2 64) = 2 ∧
     (Sym.mk5 2 0 2 64).code = 2) ∧
    (let s := portIs { st := 3, stamps := [(0, 1), (1, 1)], sends := [5], aligns := 15, seen := [0, 1, 2] }
     (s.port 31).st = 3 ∧ (s.port 31).sends = [5] ∧ Map.get 0 (s.port 31).stamps 2 = 0 ∧ 15 ≤ (s.port 31).aligns ∧
     [0, 1, 2].all (s.port 31).seen.contains = true ∧ 0 < Map.get 0 (s.port 31).stamps 0 ∧ 0 < Map.get 0 (s.port 31).stamps 1 ∧
     (s.port 31).rx.syms.length + 2 ≤ 64 ∧ 0 % 2 ^ 16 = fld s.net.modid 32 16 ∧ 0xFFFF % 2 ^ 16 ≠ fld s.net.modid 32 16) := by
  decide

/-- A link in TRAIN, UP, RETRAIN and DOWN; the last vector; an aligned offset and the first past the end. -/
theorem witness_RiendlinkStates :
    (∀ n, (State.reset.modRl fun r => { r with st := n }).rl.st = n) ∧ (State.reset.modRl fun r => { r with st := 5 }).job.img = none ∧
    State.reset.rl.disc + 1 < 8 ∧ 71 < 72 ∧ (4088 % 8 = 0 ∧ 4088 < 4096) ∧ ¬ (4096 % 8 = 0 ∧ 4096 < 4096) ∧
    ({ errs := [0, 8, 16, 24], mis := false } : RxQuality).bad 2 = true ∧ ({ errs := [], mis := false } : RxQuality).bad 2 = false ∧
    State.reset.stow.busy = false ∧ State.reset.stow.hostBusy = false ∧ State.reset.stow.area = 0 ∧ fld 256 0 9 = 256 ∧
    State.reset.linesAbove 256 = [] ∧ State.reset.rl.resend = [] ∧ State.reset.rl.held = [] ∧ State.reset.job.img = none ∧
    (({ at0 (tile 0) with helm := { run := true } } : State).helm.run = true ∧ (at0 (tile 0)).job.img.isSome = true) :=
  ⟨fun _ => rfl, rfl, by decide, by decide, by decide, by decide, by decide, by decide, rfl, rfl, rfl, by decide, by decide, rfl, rfl, rfl, rfl, rfl⟩

/-- A module with Riendlink UP and its three windows placed one after another, a stack ready. -/
def hostOn : State :=
  { at0 (tile 0) with
    rl := { st := 4, mbxBase := 1, regBase := 0x100000001, hcwBase := 0x200000001, hcwSize := 1, binv := [10], recalls := [9], outs := [{ kind := 1, line := 9 }, { kind := 0, line := 10 }] }
    stks := [(0, { st := 2 })] }

/-- The last mailbox line, register and coherent line, and the first byte past each window; a line under RECALL and one not. -/
theorem witness_HostRequests :
    hostOn.rl.st = 4 ∧ hostOn.rl.held = [] ∧ hostOn.hostAt 0x3FFC0 = .mailbox 0x3FFC0 ∧ hostOn.hostAt 0x40000 = .none ∧
    hostOn.hostAt 0x1FFFFFFF8 = .register 0xFFFFFFF8 ∧ hostOn.hostAt 0x200000000 = .coherent 0 ∧
    hostOn.hostAt 0x23FFFFFC0 = .coherent 0x3FFFFFC0 ∧ hostOn.hostAt 0x240000000 = .none ∧
    hostOn.stackTakes (devByte (64 * 0)).1 = 0 ∧ (∀ b ∈ burstsIn (devByte (64 * 0)).2 64, b ∉ (hostOn.stk (devByte (64 * 0)).1).ue) ∧
    hostOn.rl.binv = [10] ∧ hostOn.rl.snoop = [] ∧ 9 ∈ hostOn.rl.recalls ∧ 8 ∉ hostOn.rl.recalls ∧ hostOn.storeAhead 0 hostOn.rl.home = false ∧
    hostOn.rl.hcwStat ≠ 1 ∧ hostOn.asked 0 10 0 = true ∧ hostOn.asked 0 9 0 = false ∧ hostOn.asked 1 9 0 = true ∧ hostOn.asked 1 8 0 = false ∧
    (zeros 64).length = 64 := by decide

/-- A module in which the transfer of the descriptor word `d0`, of epoch `e`, waits for line 7 of the host. -/
def hostXfer (d0 : Word) (e : Nat) : Xfer := { d := [d0], left := [7], sent := true, epoch := e }
def hostWait (d0 : Word) (e : Nat) : State :=
  { ops { tags := [hostXfer d0 e] } with
    rl := { st := 4, outs := [{ kind := 2, line := 7, own := ownOf 0 0 }, { kind := 3, line := 7, own := ownOf 0 0 }] }
    job := { jobWin true with epoch := 1 } }

/-- A load and a store of host memory that wait for a line, of the present epoch and of an older one. -/
theorem witness_HostRequests_transfers : ∀ d0 ∈ [0, 0x4000000000000000], ∀ e ∈ [0, 1],
    (hostWait d0 e).waiting 0 0 (448 / 64) (decide (d0 ≠ 0)) = some (hostXfer d0 e) ∧ (hostXfer d0 e).sent = true ∧
    (hostWait d0 e).Quiet 0 (hostXfer d0 e).id ∧ (hostWait d0 e).power.clamp = false ∧ (hostXfer d0 e).isHost (hostWait d0 e).job = true ∧
    (hostWait d0 e).job.epoch = 1 := by
  intro d0 hd e he
  refine ⟨?_, rfl, quiet_of (quiet_ops _ rfl), rfl, ?_, rfl⟩
  · simp only [List.mem_cons, List.not_mem_nil, or_false] at hd he
    rcases hd with rfl | rfl <;> rcases he with rfl | rfl <;> decide
  · simp only [List.mem_cons, List.not_mem_nil, or_false] at hd he
    rcases hd with rfl | rfl <;> rcases he with rfl | rfl <;> decide

/-! ## The helm -/

/-- A module whose helm runs, with the command words `l` as the one entry of mailbox page 63, and its regions on. -/
def mbx (l : List Word) : State :=
  { State.reset with
    helm := { run := true, stage := 4, pages := [(63, { ctail := 1, mem := Map.ofList 0 8 (l.zipIdx.map fun p => (p.2, p.1)) })] }
    regions := (List.range 16).map fun r => (r, { pwr := 0 }) }

/-- The command code `opc` alone in its word. -/
def cmd (opc : Nat) : Word := BitVec.ofNat 64 (opc <<< 56)

/-- Whether a state meets `State.Waits`. -/
def waits (s : State) (k opc : Nat) : Bool :=
  decide (k < 64) && s.mayStart k opc && (s.page k).hold.isEmpty && (s.page k).evts.isEmpty && (s.page k).room &&
    decide ((s.page k).ctail = (s.page k).chead + 1)

theorem waits_of {s : State} {k opc : Nat} (h : waits s k opc = true) : s.Waits k opc := by
  simp only [waits, Bool.and_eq_true, decide_eq_true_eq, List.isEmpty_iff] at h
  obtain ⟨⟨⟨⟨⟨a, b⟩, c⟩, d⟩, e⟩, f⟩ := h
  exact ⟨a, b, ⟨c, d⟩, e, f⟩

/-- The module of `mbx` with a job in state `js`. -/
def mbxJob (l : List Word) (js : Nat) : State :=
  { mbx l with job := { job with js := js, sstep := 7 }, tiles := [(0, { tile 0 with st := 3 })] }

/-- A command that waits with a free slot; with every slot taken; the registers answering with the helm stopped, with an entry held
and a slot about to be free, and not answering. -/
theorem witness_MailboxTakesAndAnswers :
    (mbx [cmd 1]).Waits 63 1 ∧
    (let s := { mbx [] with helm := { run := true, stage := 4, pages := [(63, { ctail := 1, posted := 32, mem := [(0, cmd 1)] })] } }
     s.mayStart 63 1 = true ∧ (s.page 63).room = false ∧ (s.page 63).ctail = (s.page 63).chead + 1) ∧
    (let s := { mbx [] with helm := { run := true, stage := 4, pages := [(63, { posted := 32, hold := [[]] })] } }
     s.regsOn = true ∧ (s.page 63).hold ≠ [] ∧ (BitVec.ofNat 16 (s.page 63).posted - (1 : Word).setWidth 16).toNat < 32) ∧
    (State.reset.modHelm fun h => { h with stage := 5 }).regsOn = true ∧ (State.reset.modHelm fun h => { h with stage := 5 }).helm.run = false ∧
    State.reset.regsOn = false :=
  ⟨waits_of (by decide), by decide, by decide, by decide, by decide, by decide⟩

/-- Every query; selectors 16 and 17; a fence base within and past the clusters; the chronometer with a job and without. -/
theorem witness_HelmQueries :
    (∀ p ∈ [(0x01, [cmd 0x01]), (0x02, [cmd 0x02]), (0x15, [cmd 0x15]), (0x31, [cmd 0x31, 16]), (0x31, [cmd 0x31, 17]), (0x32, [cmd 0x32]),
      (0x33, [cmd 0x33, 1]), (0x34, [cmd 0x34, 1]), (0x34, [cmd 0x34, 0x101]), (0x61, [cmd 0x61, 0, 1])], (mbx p.2).Waits 63 p.1) ∧
    (mbxJob [cmd 0x61, 0, 1] 4).Waits 63 0x61 ∧ (mbxJob [cmd 0x61, 0, 1] 4).job.img.isSome = true ∧
    (mbx [cmd 0x61, 0, 1]).job.img = none ∧ bit ((mbx [cmd 0x61, 0, 1]).cmdArg 63 2) 0 = true ∧
    fld ((mbx [cmd 0x31, 16]).cmdArg 63 1) 0 64 = 16 ∧ fld ((mbx [cmd 0x31, 17]).cmdArg 63 1) 0 64 = 17 ∧
    448 * fld ((mbx [cmd 0x34, 1]).cmdArg 63 1) 8 3 < 192 ∧ 192 ≤ 448 * fld ((mbx [cmd 0x34, 0x101]).cmdArg 63 1) 8 3 := by
  refine ⟨?_, waits_of (by decide), by decide, by decide, by decide, by decide, by decide, by decide, by decide⟩
  have h : ∀ p ∈ [(0x01, [cmd 0x01]), (0x02, [cmd 0x02]), (0x15, [cmd 0x15]), (0x31, [cmd 0x31, 16]), (0x31, [cmd 0x31, 17]),
      (0x32, [cmd 0x32]), (0x33, [cmd 0x33, 1]), (0x34, [cmd 0x34, 1]), (0x34, [cmd 0x34, 0x101]), (0x61, [cmd 0x61, 0, 1])],
      waits (mbx p.2) 63 p.1 = true := by decide
  exact fun p hp => waits_of (h p hp)

/-- The settings at both ends of their ranges and just outside. -/
theorem witness_HelmSettings :
    (∀ p ∈ [(0x30, [cmd 0x30, 0x5009C4]), (0x30, [cmd 0x30, 0x6420D0]), (0x30, [cmd 0x30, 0x5009C3]), (0x30, [cmd 0x30, 0x6520D0]),
      (0x35, [cmd 0x35, 720]), (0x35, [cmd 0x35, 721]), (0x40, [cmd 0x40, 0]), (0x40, [cmd 0x40, 0x200]), (0x41, [cmd 0x41, 0]),
      (0x41, [cmd 0x41, 0x80000000]), (0x61, [cmd 0x61, 5, 0]), (0x60, [cmd 0x60])],
      (mbx p.2).Waits 63 p.1 ∧ ({ mbx p.2 with dbg := { latched := true } } : State).Waits 63 p.1 ∧ (mbxJob p.2 4).Waits 63 p.1) ∧
    fld 0x5009C4 0 16 = 2500 ∧ fld 0x5009C4 16 8 = 80 ∧ fld 0x6420D0 0 16 = 8400 ∧ fld 0x6420D0 16 8 = 100 ∧ fld 0x5009C3 0 16 = 2499 ∧
    fld 0x6520D0 16 8 = 101 ∧ (mbx []).stow.busy = false ∧ (mbx []).edges = [] ∧ (mbx []).net.rport = [] ∧ (mbx []).net.rmsg = [] ∧
    (∀ p, ((mbx []).port p).rx.tx = []) ∧ (zeros 1056).length = 1056 := by
  refine ⟨?_, by decide, by decide, by decide, by decide, by decide, by decide, rfl, by decide, rfl, rfl, fun _ => rfl, List.length_replicate⟩
  have h : ∀ p ∈ [(0x30, [cmd 0x30, 0x5009C4]), (0x30, [cmd 0x30, 0x6420D0]), (0x30, [cmd 0x30, 0x5009C3]), (0x30, [cmd 0x30, 0x6520D0]),
      (0x35, [cmd 0x35, 720]), (0x35, [cmd 0x35, 721]), (0x40, [cmd 0x40, 0]), (0x40, [cmd 0x40, 0x200]), (0x41, [cmd 0x41, 0]),
      (0x41, [cmd 0x41, 0x80000000]), (0x61, [cmd 0x61, 5, 0]), (0x60, [cmd 0x60])],
      waits (mbx p.2) 63 p.1 = true ∧ waits { mbx p.2 with dbg := { latched := true } } 63 p.1 = true ∧
      waits (mbxJob p.2 4) 63 p.1 = true := by decide
  exact fun p hp => let ⟨a, b, c⟩ := h p hp; ⟨waits_of a, waits_of b, waits_of c⟩

/-! ## Jobs and stow -/

/-- What a member of one reports for `JOB_LOAD`. -/
def loadEnv (im : Option Image) : LoadEnv := {
  img := im, members := [0], bases := [], tree := some { depth := 0, level := 0, parent := none, children := [], hops := 0 }, treeBad := 0 }

/-- JOB_LOAD with a job, with a member index out of range, of an image that passes its checks and of one that does not, with CHECK and
without; JOB_START; the start tick at its time, before it, and without agreement. -/
theorem witness_JobsLoadAndStart :
    ((mbx [cmd 0x10, 0, 32, 1]).Waits 63 0x10 ∧ (mbx [cmd 0x10, 0, 0, 0x10001]).Waits 63 0x10 ∧ (mbxJob [cmd 0x10, 0, 32, 1] 2).Waits 63 0x10 ∧
      (mbx [cmd 0x10, 0, 32, 1, 0, 0, 1]).Waits 63 0x10) ∧
    (mbx [cmd 0x10, 0, 32, 1]).rel.sgRun = 0 ∧ (mbx [cmd 0x10, 0, 32, 1]).job.img = none ∧
    fld ((mbx [cmd 0x10, 0, 32, 1]).cmdArg 63 3) 0 10 = 1 ∧ fld ((mbx [cmd 0x10, 0, 0, 0x10001]).cmdArg 63 3) 16 10 = 1 ∧
    bit ((mbx [cmd 0x10, 0, 32, 1, 0, 0, 1]).cmdArg 63 6) 0 = true ∧
    (mbx [cmd 0x10, 0, 32, 1]).helm.imageSigned image = true ∧
    (((mbx [cmd 0x10, 0, 32, 1]).take 63).checkLoad image 32 1 0 (loadEnv (some image))).1.isLeft = true ∧
    (((mbx [cmd 0x10, 0, 32, 1]).take 63).checkLoad (imageOf 0) 32 1 0 (loadEnv none)).1.isLeft = false ∧
    (mbxJob [cmd 0x11] 2).Waits 63 0x11 ∧ (mbxJob [cmd 0x11] 4).Waits 63 0x11 ∧
    (let s := fun (n : Nat) (p : Bool) => ({ mbxJob [] 3 with job := { job with js := 3, startNs := n, startPend := p } } : State)
     (s 0 true).job.js = 3 ∧ (s 0 true).job.startNs ≤ (s 0 true).now ∧ (s 1 true).now < (s 1 true).job.startNs ∧
     (s 0 false).job.startPend = false) ∧
    (let s := ({ mbxJob [] 3 with job := { job with js := 3, members := [0, 1] } } : State)
     s.job.js = 3 ∧ s.job.startPend = false ∧ s.job.img.isSome = true ∧ 1 ∈ s.job.members ∧ 1 ≠ s.modid) :=
  ⟨⟨waits_of (by decide), waits_of (by decide), waits_of (by decide), waits_of (by decide)⟩, by decide, by decide, by decide, by decide,
    by decide, by rfl, by decide, by decide, waits_of (by decide), waits_of (by decide), by decide, by decide⟩

/-- A job whose images must be signed, and an image without a signature block. -/
theorem witness_JobsLoadAndStart_unsigned : ({ policy := 1 } : Helm).imageSigned image = false := by decide

/-- JOB_PAUSE, JOB_RESUME and JOB_ABORT in the states they act in and in another; the resume tick at its time and before. -/
theorem witness_JobsPauseResumeAndEnd :
    (∀ p ∈ [(0x12, 5, [cmd 0x12]), (0x12, 4, [cmd 0x12]), (0x12, 2, [cmd 0x12]), (0x13, 5, [cmd 0x13]), (0x13, 4, [cmd 0x13]),
      (0x14, 4, [cmd 0x14, 0]), (0x14, 2, [cmd 0x14, 0]), (0x14, 6, [cmd 0x14, 0]), (0x14, 4, [cmd 0x14, 1])],
      (mbxJob p.2.2 p.2.1).Waits 63 p.1 ∧ (mbxJob p.2.2 p.2.1).job.js = p.2.1 ∧ (mbxJob p.2.2 p.2.1).job.img.isSome = true) ∧
    (mbx [cmd 0x14, 0]).Waits 63 0x14 ∧ (mbx [cmd 0x14, 1]).Waits 63 0x14 ∧ (mbx [cmd 0x14, 1]).job.img = none ∧
    bit ((mbx [cmd 0x14, 1]).cmdArg 63 1) 0 = true ∧ bit ((mbx [cmd 0x14, 0]).cmdArg 63 1) 0 = false ∧
    (let s := fun (n : Nat) => ({ mbxJob [] 5 with job := { job with js := 5, startNs := n, startPend := true } } : State)
     (s 0).job.js = 5 ∧ (s 0).job.startPend = true ∧ (s 0).job.startNs ≤ (s 0).now ∧ (s 1).now < (s 1).job.startNs) ∧
    (∀ n ∈ [4, 5], let s := ({ mbxJob [] n with job := { job with js := n, members := [0, 1] } } : State)
     s.job.js = n ∧ s.job.startPend = false ∧ s.job.exch = false ∧ s.job.img.isSome = true ∧ 1 ∈ s.job.members ∧ 1 ≠ s.modid) := by
  refine ⟨?_, waits_of (by decide), waits_of (by decide), by decide, by decide, by decide, by decide, by decide⟩
  have h : ∀ p ∈ [(0x12, 5, [cmd 0x12]), (0x12, 4, [cmd 0x12]), (0x12, 2, [cmd 0x12]), (0x13, 5, [cmd 0x13]), (0x13, 4, [cmd 0x13]),
      (0x14, 4, [cmd 0x14, 0]), (0x14, 2, [cmd 0x14, 0]), (0x14, 6, [cmd 0x14, 0]), (0x14, 4, [cmd 0x14, 1])],
      waits (mbxJob p.2.2 p.2.1) 63 p.1 = true ∧ (mbxJob p.2.2 p.2.1).job.js = p.2.1 ∧ (mbxJob p.2.2 p.2.1).job.img.isSome = true := by
    decide
  exact fun p hp => let ⟨a, b⟩ := h p hp; ⟨waits_of a, b⟩

/-- STOW_CONFIG of the largest area and of one past it, and of none; a drained stow point; the mover; the last block of slot B and one
past it; a restore of a slot held and of one not; windows and image back. -/
theorem witness_StowAndRestore_config :
    (mbx [cmd 0x20, 0x2180000]).Waits 63 0x20 ∧ (mbx [cmd 0x20, 0x2190000]).Waits 63 0x20 ∧ (mbx [cmd 0x20]).Waits 63 0x20 ∧
    fld 0x2180000 16 10 = 536 ∧ fld 0x2190000 16 10 = 537 ∧
    ((mbx []).stowPlace 0 536 0).isRight = true ∧ ((mbx []).stowPlace 0 0 0).isRight = true ∧ ((mbx []).stowPlace 0 537 0).isLeft = true :=
  ⟨waits_of (by decide), waits_of (by decide), waits_of (by decide), by decide, by decide, by decide +kernel, by decide +kernel,
    by decide +kernel⟩

/-- A job's module at a stow point. -/
def stowPoint : State := { at0 (tile 0) with stow := { wait := true }, job := { job with wave := { doneAt := true } } }

/-- The module of `mbx` whose stow port 31 is in link state `st`. -/
def stowLink (s : State) (st : Nat) (w : Stow) : State :=
  { s with stow := { w with ports := 0x80000000 }, ports := [(31, { st := st, en := true, gvalid := true })] }

theorem freezeParity_clean (x : Tile) (a : x.spBad = []) (b : x.amBad = []) (c : x.ctabBad = []) (d : x.sb0.bad = [])
    (e : x.sb1.bad = []) : x.freezeParity = [] := by
  have f : ∀ n : Nat, (x.sbuf n).bad = [] := fun n => by unfold Tile.sbuf; split <;> assumption
  have g : ∀ r, x.badCoef r = none := fun r => by simp [Tile.badCoef, c]
  simp [Tile.freezeParity, f, g, Tile.badRow, Tile.badAm, a, b]

theorem badGranule_clean (c : Cluster) (h : c.csBad = []) (lo n : Nat) : c.badGranule lo n = none := by
  simp [Cluster.badGranule, h]

theorem witness_StowAndRestore_freeze :
    stowPoint.stow.wait = true ∧ stowPoint.job.js = 4 ∧ stowPoint.job.wave.doneAt = true ∧ stowPoint.stow.freeze = false ∧
    stowPoint.stow.busy = false ∧ stowPoint.drainedForStow = true ∧ (∀ t ∈ stowPoint.job.tiles, (stowPoint.tile t).freezeParity = []) ∧
    (∀ c ∈ stowPoint.job.clusters, (stowPoint.cluster c).badGranule 0 25165824 = none) ∧
    (let z := { at0 (tile 0) with stow := { freeze := true, busy := true } }
     z.stow.freeze = true ∧ z.job.js = 4 ∧ z.stow.busy = true ∧ z.job.marked = [] ∧ z.stow.cfgPage = none) ∧
    ({ stowPoint with stow := { cfgPage := some 63 } } : State).stow.cfgPage.isSome = true := by
  refine ⟨by decide, by decide, by decide, by decide, by decide, by decide, ?_, ?_, by decide, by decide⟩
  · intro t h
    have e : t = 0 := by simpa [stowPoint, job] using h
    subst e
    exact freezeParity_clean _ rfl rfl rfl rfl rfl
  · exact fun c _ => badGranule_clean _ rfl _ _

theorem witness_StowAndRestore_block :
    let s := { at0 (tile 0) with stow := { area := 1 } }
    let b : StowBlock := { slot := 1, sstep := 0, blk := 131071, data := zeros 4096, crc := crc32c (zeros 4096), last := true }
    b.blk < s.stow.area * 2 ^ 17 ∧ b.slot < 2 ∧ b.data.length = 4096 ∧ crc32c b.data = b.crc ∧
    ({ b with crc := b.crc + 1 }.crc ≠ crc32c b.data) ∧ s.stow.area * 2 ^ 17 ≤ { b with blk := 131072 }.blk ∧ s.power.trip = false ∧
    (let z : State := { s with stow := { en := true, area := 1 } }
     z.stow.en = true ∧ z.stow.area ≠ 0 ∧ z.power.trip = false) ∧ s.stow.en = false :=
  ⟨by decide, by decide, List.length_replicate, rfl, fun h => by simp at h, by decide, by decide, by decide, by decide⟩

theorem witness_StowAndRestore_restore :
    let m : Snap := { sstep := 7 }
    let w : Stow := { en := true, va := true, sa := 7, slotA := some m, buf := some m, busy := true, sending := true, restore := some 7 }
    let s := fun js => stowLink (mbxJob [cmd 0x21, 7] js) 4 w
    (s 2).stowCut = false ∧ (stowLink (mbxJob [cmd 0x21, 7] 2) 6 w).Waits 63 0x21 ∧ (stowLink (mbxJob [cmd 0x21, 7] 2) 6 w).stowCut = true ∧
    (let z := stowLink (mbxJob [] 4) 6 { busy := true, sending := true, buf := some m }
     z.stow.busy = true ∧ z.stow.sending = true ∧ z.stow.buf = some m ∧ z.stowCut = true ∧ z.job.img.isSome = true ∧ z.job.js ≠ 6 ∧
     z.stow.restore = none) ∧
    (s 2).Waits 63 0x21 ∧ (s 4).Waits 63 0x21 ∧ (s 2).stow.holds ((s 2).cmdArg 63 1) = some m ∧ (s 2).stow.holds 8 = none ∧
    m.hash = (s 2).job.hash ∧ m.trans = (s 2).job.trans ∧ (s 2).stow.en = true ∧
    (s 4).stow.busy = true ∧ (s 4).stow.sending = true ∧ (s 4).stow.buf = some m ∧ (s 4).power.clamp = false ∧
    (s 7).stow.restore = some 7 ∧ (s 7).job.js = 7 ∧ (s 7).stow.rstWin = false :=
  ⟨by decide, waits_of (by decide), by decide, by decide, waits_of (by decide), waits_of (by decide), by decide, by decide, by decide,
    by decide, by decide, by decide, by decide, by decide, by decide, by decide, by decide, by decide⟩

/-! ## Regions, power, resets -/

/-- The module of `mbx` with region 15 asleep. -/
def asleep (l : List Word) (js : Nat) : State :=
  { (if js = 0 then mbx l else mbxJob l js) with regions := [(0, { pwr := 0 }), (15, { pwr := 1 })] }

/-- REGION_SLEEP, REGION_OFF and REGION_WAKE of regions 0 and 15 with no job, and of region 0 that the job needs; under a trip. -/
theorem witness_RegionsAndPowerRequests_commands :
    (∀ p ∈ [(0x70, [cmd 0x70, 0x8001]), (0x70, [cmd 0x70, 0x18001]), (0x71, [cmd 0x71, 0x8001])],
      (asleep p.2 0).Waits 63 p.1 ∧ (asleep p.2 0).noReset (((asleep p.2 0).page 63).entry 0) = true ∧
      (asleep p.2 4).Waits 63 p.1 ∧ (asleep p.2 4).noReset (((asleep p.2 4).page 63).entry 0) = true ∧
      (fld ((asleep p.2 4).cmdArg 63 1) 0 16).testBit 0 = true ∧ (asleep p.2 4).job.needs.testBit 0 = true) ∧
    (asleep [] 0).job.img = none ∧ (asleep [] 4).job.img.isSome = true ∧ (asleep [] 0).rel.sgRun ≠ 1 ∧
    (asleep [] 0).stow.hostBusy = false ∧ (asleep [] 0).stow.busy = false ∧ (asleep [] 0).edges = [] ∧
    (∀ p < 32, ((asleep [] 0).port p).st = 0) ∧ (asleep [] 0).dbg.sxBusy = false ∧ (asleep [] 0).power.trip = false ∧
    (asleep [] 0).power.deep = 0 ∧ ((asleep [] 0).modPower fun p => { p with trip := true }).power.trip = true ∧
    bit 0x18001 16 = true ∧ bit 0x8001 16 = false := by
  refine ⟨?_, by decide, by decide, by decide, by decide, by decide, by decide, by decide, by decide, by decide, by decide, by decide, by decide,
    by decide⟩
  have h : ∀ p ∈ [(0x70, [cmd 0x70, 0x8001]), (0x70, [cmd 0x70, 0x18001]), (0x71, [cmd 0x71, 0x8001])],
      waits (asleep p.2 0) 63 p.1 = true ∧ (asleep p.2 0).noReset (((asleep p.2 0).page 63).entry 0) = true ∧
      waits (asleep p.2 4) 63 p.1 = true ∧ (asleep p.2 4).noReset (((asleep p.2 4).page 63).entry 0) = true ∧
      (fld ((asleep p.2 4).cmdArg 63 1) 0 16).testBit 0 = true ∧ (asleep p.2 4).job.needs.testBit 0 = true := by decide
  exact fun p hp => let ⟨a, b, c, d⟩ := h p hp; ⟨waits_of a, b, waits_of c, d⟩

/-- A waking region, one in reset, one on and one off; an idle tile, one of the job and one of a region that is off; a stack ready in
a region asleep; power requests with a serial command, with a job, with neither; always-on only. -/
theorem witness_RegionsAndPowerRequests_units :
    (let s := { mbx [] with regions := [(0, { pwr := 0 }), (1, { pwr := 3 }), (2, { pwr := 0, rstBusy := true }), (15, { pwr := 1 })] }
     s.power.trip = false ∧ (s.region 1).pwr = 3 ∧ (s.region 2).pwr ≠ 3 ∧ (s.region 2).rstBusy = true ∧ (s.region 0).rstBusy = false ∧
     s.regsOn = true ∧ s.job.img = none ∧ (s.region 0).pwr = 0 ∧ s.stow.busy = false ∧ s.stow.hostBusy = false ∧ (s.region 15).pwr ≠ 0 ∧
     s.regionOn (regionOf 2303) = false ∧ s.regionOn (regionOf 0) = true ∧ (s.tile 0).st = 1 ∧ 0 ∉ s.job.tiles) ∧
    ((mbxJob [] 4).regsOn = true ∧ 0 ∈ (mbxJob [] 4).job.tiles ∧ (mbxJob [] 4).regionOn (regionOf 0) = true ∧
      (mbxJob [] 4).job.needs.testBit 0 = true) ∧
    (let s := { State.reset with stks := [(31, { st := 2 })] }
     (s.stk 31).st = 2 ∧ (s.region (31 / 2)).pwr ≠ 0 ∧ (s.stk 30).st ≠ 2) ∧
    ((mbx []).modHelm fun h => { h with serialBusy := some 63 }).helm.serialBusy.isSome = true ∧ (mbx []).helm.serialBusy = none ∧
    (mbx []).stow.area = 0 ∧ State.reset.regsOn = false ∧
    (State.reset.modPower fun p => { p with deep := 2 }).power.deep = 2 ∧ State.reset.pins.resetLow = false := by decide

/-- Current above, below and within its thresholds; temperatures either side of the target; a trip at its temperature and one degree
below, with a job; stretches; a latch with the dies cooled and not. -/
theorem witness_PowerManagement :
    (mbxJob [] 4).islands = true ∧ (mbxJob [] 4).power.lowerAt ≤ (mbxJob [] 4).now ∧ (mbxJob [] 4).power.raiseAt ≤ (mbxJob [] 4).now ∧
    (mbxJob [] 4).power.trip = false ∧ (mbxJob [] 4).job.img.isSome = true ∧ (mbxJob [] 4).job.js ≠ 6 ∧ (mbx []).job.img = none ∧
    (mbx []).target < max (hottest [101]) (hottest []) ∧ max (hottest [97]) (hottest []) + 2 < 100 ∧
    (State.reset.modPower fun p => { p with brown := true }).islands = false ∧ (mbx []).helm.run = true ∧ State.reset.helm.run = false ∧
    ((mbx []).region 15).pwr = 0 ∧ (State.reset.region 15).pwr ≠ 0 ∧
    (let s := { mbx [] with power := { trip := true }, regions := [(0, { stretch := true }), (1, { deferOn := true })] }
     (s.region 0).stretch = true ∧ (s.region 1).deferOn = true ∧ (s.region 1).stretch = false ∧ s.regsOn = true ∧ s.power.trip = true ∧
     s.cooled = true ∧ s.power.deep ≠ 1 ∧ ({ s with stks := [(31, { temp := 80 })] } : State).cooled = false) := by decide

/-- Voltages at and just past each threshold; the module clamped, browned out, without clock, under RESET_L, without power; the boot
ROM with both banks, one and none verifying. -/
theorem witness_InputResetsAndBringUp :
    (let p := fun (f : Power → Power) => State.reset.modPower f
     (mbx []).islands = true ∧ (p fun x => { x with clamp := true }).power.clamp = true ∧ (p fun x => { x with clamp := true }).islands = true ∧
     State.reset.power.clamp = false ∧ State.reset.power.on = true ∧ State.reset.power.brown = false ∧ State.reset.power.refOk = true ∧
     (p fun x => { x with brown := true }).power.brown = true ∧ (p fun x => { x with brown := true }).islands = false ∧
     (p fun x => { x with on := false }).power.on = false ∧ (p fun x => { x with refOk := false }).power.refOk = false ∧
     State.reset.pins.resetLow = false ∧ (State.reset.modPins fun x => { x with resetLow := true }).pins.resetLow = true) ∧
    (let s := State.reset.modPower fun x => { x with vin := 48000 }
     s.islands = true ∧ s.power.refOk = true ∧ s.power.deep ≠ 2 ∧ s.helm.stage = 0 ∧ 48000 ≤ s.power.vin ∧ s.power.vin ≤ 59500) ∧
    (let h := fun (b : Map FwBank) => State.reset.modHelm fun x => { x with stage := 1, banks := b }
     (h []).helm.stage = 1 ∧ (h []).helm.verifies 0 = true ∧ (h [(0, { ok := false })]).helm.verifies 0 = false ∧
     (h [(0, { ok := false })]).helm.verifies (1 - 0) = true ∧ (h [(0, { ok := false }), (1, { ok := false })]).helm.verifies (1 - 0) = false) := by
  decide

/-! ## Firmware, sights, SMBus, debug, fix, registers -/

/-- A package of no image and no owner record: its header and signature alone, 152 bytes. -/
def package : List Byte := [0x4B, 0x46, 0x57, 0x4D, 1, 0] ++ zeros 146

/-- FW_STAGE of a package not read, of one too short, and of one that only the signature decides (opaque); FW_ACTIVATE with a staged bank and
without; a watchdog expiry; restarts; ATTEST with a job and without. -/
theorem witness_FirmwareAndAttestation :
    (mbx [cmd 0x50, 0, 152]).Waits 63 0x50 ∧ (mbx [cmd 0x50, 0, 152]).helm.stageStatus 152 [] = 9 ∧
    ((mbx []).helm.pkgSigned package = true → (mbx []).helm.stageStatus 152 package = 0) ∧
    ((mbx []).helm.pkgSigned package = false → (mbx []).helm.stageStatus 152 package = 6) ∧
    (mbx [cmd 0x51]).Waits 63 0x51 ∧ (mbx [cmd 0x51]).rel.sgRun = 0 ∧ (mbx [cmd 0x51]).helm.staged = false ∧
    ((mbx [cmd 0x51]).modHelm fun h => { h with staged := true }).Waits 63 0x51 ∧
    State.reset.helm.run = false ∧ State.reset.helm.restart = none ∧ (mbx []).helm.run = true ∧
    (let h := fun (b : Map FwBank) (r : Option (Nat × Nat)) => State.reset.modHelm fun x => { x with stage := 2, banks := b, restart := r }
     (h [] (some (1, 0))).helm.restart = some (1, 0) ∧ (h [] (some (1, 0))).helm.verifies 0 = true ∧
     (h [(0, { ok := false }), (1, { ok := false })] (some (1, 0))).helm.verifies (1 - 0) = false ∧
     (h [] (some (0, 63))).helm.restart = some (0, 63) ∧ (h [] (some (0, 63))).helm.verifies (1 - 0) = true) ∧
    (mbx [cmd 0x52, 0, 0, 0, 0, 0, 0]).Waits 63 0x52 ∧ (mbx [cmd 0x52, 0, 0, 0, 0, 0, 1]).Waits 63 0x52 ∧
    bit ((mbx [cmd 0x52, 0, 0, 0, 0, 0, 1]).cmdArg 63 6) 0 = true ∧ (mbx []).job.js < 2 ∧ (mbxJob [cmd 0x52, 0, 0, 0, 0, 0, 1] 2).Waits 63 0x52 := by
  refine ⟨waits_of (by decide), by decide, fun h => ?_, fun h => ?_, waits_of (by decide), by decide, by decide, waits_of (by decide), by decide,
    by decide, by decide, by decide, waits_of (by decide), waits_of (by decide), by decide, by decide, waits_of (by decide)⟩
  · have a : package.length = 152 ∧ leAt package 16 4 = 0 ∧ leAt package 20 4 = 0 ∧ leAt package 12 2 = 0 := by decide +kernel
    simp only [Helm.stageStatus, h, a]; decide
  · have a : package.length = 152 ∧ leAt package 16 4 = 0 ∧ leAt package 20 4 = 0 ∧ leAt package 12 2 = 0 := by decide +kernel
    simp only [Helm.stageStatus, h, a]; decide

/-- A sight due with no job and one at a stow point; none due; a sight that ends, between jobs and at a stow point with a fault. -/
theorem witness_MarginSights :
    (let s := (mbx []).modRel fun r => { r with sgNow := true }
     s.helm.run = true ∧ s.rel.sgNow = true ∧ s.rel.sgRun = 0 ∧ s.islands = true ∧ s.power.trip = false ∧ s.job.img = none ∧
     s.stow.busy = false ∧ s.stow.hostBusy = false ∧ s.power.deep ≠ 2 ∧ ∀ r < 16, (s.region r).pwr ≠ 3) ∧
    (let s := { (mbxJob [] 4).modRel (fun r => { r with sgNow := true, sgStow := true }) with stow := { en := true, freeze := true } }
     s.job.img.isSome = true ∧ s.rel.sgStow = true ∧ s.stow.en = true ∧ s.stow.freeze = true ∧ s.job.js = 4 ∧
     100000000 ≤ (s.job.reg 0x10020).toNat) ∧
    ¬ (State.reset.rel.sgNow = true ∨
      State.reset.rel.sgHours * 3600000000000 ≤ State.reset.rel.hours - State.reset.rel.sgSvc) ∧
    (let s := (mbx []).modRel fun r => { r with sgRun := 1, sgSaved := (List.range 16).map fun r => (r, 2) }
     s.rel.sgRun = 1 ∧ s.power.clamp = false ∧ s.rel.sgSaved = (List.range 16).map (fun r => (r, 2)) ∧ ∀ r < 16, (s.region r).pwr = 0) ∧
    (let s := (mbxJob [] 4).modRel fun r => { r with sgRun := 2 }
     s.rel.sgRun = 2 ∧ s.power.clamp = false ∧ s.job.img.isSome = true ∧ s.job.js ≠ 6) := by decide

/-- The target answering; caps at both ends of the range and outside; the caps set and not; nothing answering. -/
theorem witness_SmbusTarget :
    State.reset.power.on = true ∧ State.reset.pins.resetLow = false ∧ (2500 : BitVec 16).toNat = 2500 ∧ (8400 : BitVec 16).toNat = 8400 ∧
    ¬ ((2499 : BitVec 16) = 0 ∨ 2500 ≤ (2499 : BitVec 16).toNat ∧ (2499 : BitVec 16).toNat ≤ 8400) ∧
    ¬ ((8401 : BitVec 16) = 0 ∨ 2500 ≤ (8401 : BitVec 16).toNat ∧ (8401 : BitVec 16).toNat ≤ 8400) ∧
    State.reset.power.hostCap = 0 ∧ (State.reset.modPower fun p => { p with hostCap := 2500, smbCap := 8400 }).power.hostCap ≠ 0 ∧
    (State.reset.modPower fun p => { p with on := false }).power.on = false := by decide

/-- The engine ready with tile 0 on and tile 2303 not; a halted stream of the job's tile; the last eight scratchpad bytes and the first past
them; a job halted; the engine busy; an owner's policy; another member; a tunnelled command. -/
theorem witness_SextantCommands :
    (let s := { mbxJob [] 4 with regions := [(0, { pwr := 0 })] }
     s.power.on = true ∧ s.power.brown = false ∧ s.dbg.sxBusy = false ∧ s.regsOn = true ∧ s.helm.policy % 4 < 2 ∧ s.tileOn 2303 = false ∧
     s.tileOn 0 = true ∧ s.steppable 0 = true ∧ (s.tile 0).halted .f = false ∧ sxRange 2 0 393208 8 = true ∧ sxRange 2 0 393216 8 = false ∧
     (s.tile 0).io.acc = [] ∧ s.sxReady 2 2303 0 8 = false ∧ sxRange 2 2303 0 8 = true ∧ s.job.js = 4 ∧ s.dbg.jobHalt = false ∧
     ((s.modDbg fun d => { d with jobHalt := true, sxBusy := true }).dbg.jobHalt = true) ∧
     (s.modDbg fun d => { d with sxBusy := true }).dbg.sxBusy = true ∧ 2 ≤ (s.modHelm fun h => { h with policy := 2 }).helm.policy % 4) ∧
    (at0 { tile 0 with sq := { f := { halted := true }, b := { halted := true }, u := { halted := true }, x := { halted := true } } }).tileRuns 0 = false ∧
    ((at0 { tile 0 with sq := { f := { halted := true } } }).tile 0).halted .f = true ∧
    (let h := fun (n : Nat) => ({ at0 { tile 0 with sq := { f := { halted := true } }, misc := { haltAt := [(0, n)] } } with
        dbg := { jobHalt := true, relAt := some n } } : State)
     (h 2).moduleHalted = true ∧ (h 3).moduleHalted = false ∧ (h 3).dbg.jobHalt = true ∧ (h 3).now < 3 ∧ (h 0).dbg.relAt = some 0 ∧
     0 ≤ (h 0).now) ∧
    State.reset.regsOn = false ∧ (1 ∈ ({ job with members := [0, 1] } : Job).members ∧ 1 ≠ (mbxJob [] 4).modid) ∧
    (mbx [cmd 0x7F]).Waits 63 0x7F ∧ (mbx [cmd 0x7F]).dbg.sxBusy = false ∧
    (((mbx [cmd 0x7F]).take 63).sextant 0 0 0 []).2.isSome = true :=
  ⟨by decide, by decide, by decide, by decide, by decide, by decide, waits_of (by decide), by decide, by decide⟩

/-- No tick set; a tick not reached and reached; a fix held; the time come and not; the edge armed, with `JOBWIDE` and without; a copy. -/
theorem witness_FixLatchesOnce :
    State.reset.dbg.pendSrc = none ∧
    (let d := fun (x : Dbg) => ({ mbxJob [] 4 with dbg := x } : State)
     (d { pendSrc := some 4, pendTick := 0 }).dbg.pendTick ≤ (d {}).now ∧ (d {}).now < (d { pendSrc := some 0, pendTick := 10 }).dbg.pendTick ∧
     (d { latched := true }).dbg.latched = true ∧ (d {}).dbg.latched = false ∧ (d { armed := 17 }).dbg.armed.testBit 0 = true ∧
     (d { armed := 17 }).dbg.armed.testBit 4 = true ∧ (d { trigNs := 9 }).dbg.trigNs.toNat / 10 = (d {}).now / 10 ∧
     (d { latched := true, pendSrc := some 2, pendJob := true }).dbg.pendJob = true ∧ (d { latched := true, pendSrc := some 0 }).dbg.pendJob = false ∧
     (d { trigNs := 10 }).dbg.trigNs.toNat / 10 ≠ (d {}).now / 10 ∧ (d { jobwide := true }).dbg.jobwide = true ∧
     (d {}).job.img.isSome = true ∧ (mbx []).job.img = none ∧ (d { latched := true }).dbg.copied = false ∧ (d {}).helm.run = true ∧
     (d {}).rl.st ≠ 4) := by decide

/-- The registers answering and not; a register without a writable field; a region that is on and one that is off. -/
theorem witness_RegisterWrites :
    State.reset.regsOn = false ∧ (mbx []).regsOn = true ∧ writableAt 0 = false ∧ (mbx []).regionOn 15 = true ∧
    ({ mbx [] with regions := [] } : State).regionOn 15 = false := by decide

/-! ## Results that the spec's worked examples give -/

/-- The bits of a conversion from FP32. -/
def cvt (f : Nat) (ovf : Bool) (b : W32) : Nat := (narrow f ovf (num32 b)).1

/-- Chapter 03, the narrowing table: 1.3, 500, 1.5 × 2⁻²⁰, −65,520 (0xC77FF000: the table prints the
code of −65,504, log 27) and a NaN to BF16, FP16, E4M3 and E5M2. -/
theorem test_narrow_table :
    [1, 2, 3, 4].map (fun f => cvt f false 0x3FA66666) = [0x3FA6, 0x3D33, 0x3A, 0x3D] ∧
    [1, 2, 3, 4].map (fun f => cvt f false 0x43FA0000) = [0x43FA, 0x5FD0, 0x7E, 0x60] ∧ cvt 3 true 0x43FA0000 = 0x7F ∧
    [1, 2, 3, 4].map (fun f => cvt f false 0x35C00000) = [0x35C0, 0x18, 0, 0] ∧
    [1, 2, 3, 4].map (fun f => cvt f false 0xC77FF000) = [0xC780, 0xFBFF, 0xFE, 0xFB] ∧
    [2, 4].map (fun f => cvt f true 0xC77FF000) = [0xFC00, 0xFC] ∧
    [1, 2, 3, 4].map (fun f => cvt f true 0x7FC00001) = [0x7FC0, 0x7E00, 0x7F, 0x7E] := by decide +kernel

/-- Vector NCS-MXQ-MXFP4-0007 (chapter 03): scale byte, the first four codes, one saturation and one underflow. -/
theorem test_mxq_mxfp4_0007 :
    (let r := mxBlock 9 false ((([0x3F400000, 0xBFA66666, 0x4079999A, 0x3DCCCCCD] : List W32) ++ List.replicate 28 0).map num32)
     (r.1, r.2.1.take 5, r.2.2)) = (0x7E, [3, 13, 7, 0, 0], [.sat, .unf]) := by decide +kernel

/-- Vectors NCS-VEC-RSQRT-0003 and NCS-VEC-RECIP-0001 (chapter 03). -/
theorem test_rsqrt_recip : f32 (rsqrtNum (num32 0x40800000)) = 0x3F000000 ∧ f32 (recipNum (num32 0x80000000)) = 0xFF800000 := by
  decide +kernel

/-- Vector NCS-AMUL-BF16-0012 (chapter 04): the tree and the accumulation onto 3.0. -/
theorem test_amul_bf16_0012 :
    amacLane 1 1 false ([0x4B80, 0x3F80, 0x3F80, 0x3F80] ++ List.replicate 60 0) (List.replicate 64 0x3F80) (0x7F, 0x7F) (0x7F, 0x7F)
      0x40400000 = (0x4B800002, false) ∧
    f32 (arrayTree ((([0x4B800000, 0x3F800000, 0x3F800000, 0x3F800000] : List W32) ++ List.replicate 60 0).map num32)
      (0x7F, 0x7F) (0x7F, 0x7F)) = 0x4B800001 := by decide +kernel

/-- Vector NCS-AMUL-MXFP4-0007 (chapter 04): scales on block sums. -/
theorem test_amul_mxfp4_0007 :
    amacLane 9 9 true (([7, 3] ++ List.replicate 30 0) ++ ([6] ++ List.replicate 31 0)) (List.replicate 64 2) (0x80, 0x7C) (0x7F, 0x7F)
      0 = (0x41780000, false) := by decide +kernel

/-- Vector NCS-UPD-ADAM-0021 (chapter 10): the clip factor and the written weight, moments and narrow copy. -/
theorem test_upd_adam_0021 :
    let k : List Word := [0x3900000000000000, 0x3D80000000000000, 0x3980000030800000, 0x3F800000, 0x3F800000, 0xC00, 0x84, 0]
    let u := updCoef 0x8000 [0, 0, 0, 0, 0, 0x3F000000, 0x3F7000003F600000] k 0x41800000
    let r := updLane 0 u (num32 0x3FC00000) ((elemNum 1 0x3F80).scale (-12)) (elemNum 1 0x3E80) (elemNum 1 0x4000)
    f32 u.c = 0x3E800000 ∧ f32 r.1 = 0x3FBFF100 ∧ (updOut 1 false 12 r.2.1).1 = 0x3F90 ∧ (updOut 1 false 0 r.2.2).1 = 0x3E80 ∧
    (updOut 3 false 0 r.1).1 = 0x3C := by decide +kernel

/-- The encodings of chapter 05's worked example: each is legal, and its fields are the ones the table lists. -/
theorem test_encodings :
    legal .f 0x1C0014003F800000 = true ∧ fD 0x1C0014003F800000 = 5 ∧ immS 0x1C0014003F800000 = 0x3F800000 ∧
    legal .f 0x01A0000000000040 = true ∧ bit 0x01A0000000000040 55 = true ∧ fld 0x01A0000000000040 52 3 = 2 ∧
    legal .f 0x510988201151FC00 = true ∧ bit 0x510988201151FC00 51 = true ∧ fld 0x510988201151FC00 47 4 = 3 ∧
    fD 0x510988201151FC00 = 2 ∧ fA 0x510988201151FC00 = 1 ∧ arrF 0x510988201151FC00 = 1 ∧ arrN 0x510988201151FC00 = 128 ∧
    tollW 0x510988201151FC00 = 2 ∧ legal .f 0x0500000000000008 = true := by decide

/-- Chapter 01's worked example: the tile at (53, 17). -/
theorem test_geometry_1685 :
    tileX 1685 = 53 ∧ tileY 1685 = 17 ∧ regionOf 1685 = 12 ∧ clusterOf 1685 = 148 ∧ localOf 1685 = 9 ∧ clusterTile 148 9 = 1685 := by
  decide

/-- Chapter 09's worked example: the header of message M as stored, and the slip's words. -/
theorem test_header_and_slip :
    let s := { State.reset with job := { job with epoch := 3 }, net := { State.reset.net with modid := place 0 10 5 } }
    let m := s.sealHeader 1492 { h0 := 0x015A54220900A30B, h1 := 0x8000000000000000 }
    let p := s.slipOf 1685 m 0
    s.modid = 5 ∧ m.h1 = 0x8001575000000003 ∧ hLen m = 192 ∧ p.h0 = (0x015750120000A301 : Word) ∧ p.h1 = (0x00015A5400000003 : Word) ∧
    wordAt p.pay 0 = 0x0008B4A80A000000 := by decide

/-- Chapter 12's worked example: the index 6 of group 0 is port 24. -/
theorem test_route_port_24 :
    ({ State.reset with
        net := { State.reset.net with rt := [(0x31000 + 8 * 6, 0x8000000000000000)] }
        ports := [0, 4, 8, 12, 16, 20, 24, 28].map fun p => (p, { en := true, gvalid := true, group := 0, st := 4 }) } : State).route
      6 (5 + 1685 + 100) false = .inr 24 := by decide

/-- Chapter 15's worked example: cap_step and the memory share at the caps 8,400 W, 5,000 W and 3,000 W. -/
theorem test_cap_share :
    let m : PowerSample := { f := 120, dl := 380, dm := 1400, lnk := 500, modelC := (List.range 49).map fun i => 800 + 75 * (i + 16), draw := 0 }
    capShare m 8400 0 = (50400, 140000, 637600, 64) ∧ capShare m 5000 0 = (38000, 140000, 310000, 30) ∧
    (capShare m 3000 0).2.1 = 50000 ∧ (capShare m 3000 0).2.2.2 = 16 := by decide +kernel

/-! ## Results calculated by hand, through one step -/

/-- Register S1 of sequencer F of tile 0 in a next state. -/
def s1Of (o : Out) : Option Word :=
  match o with
  | .next t => some ((t.tile 0).seq .f |>.sreg 1)
  | _ => none

/-- `ADD S1, S1, S2` wraps, and its destination is its first source (R138). -/
theorem test_add_wraps : s1Of (exec (.add 0 .f) (go 0x1000042200000000#64 { s := [(1, 0xFFFFFFFFFFFFFFFF), (2, 2)] })) = some 1 := by
  decide +kernel

/-- `SAR S1, S2, S3` of the most negative number by 4 (R138). -/
theorem test_sar_sign :
    s1Of (exec (.sar 0 .f) (go 0x1700044300000000#64 { s := [(2, 0x8000000000000000), (3, 4)] })) = some 0xF800000000000000 := by
  decide +kernel

/-! ## The mailbox, the frames, an image and a debug record -/

/-- Doorbells of one chronometer tick are taken lowest page first, those of a later tick after them (R381). -/
theorem test_doorbells_of_one_tick :
    (((({} : Helm).ring 10 5 1).ring 10 3 2).ring 20 0 1).serial = [(10, 3), (10, 3), (10, 5), (20, 0)] := by decide

/-- A change from step 64 to 16 acts from the next frame: of base cycles 60 to 67 the die passes 60 to 63, then only 67 (R409). -/
theorem test_step_acts_at_the_frame : (State.reset.modPower fun p => { p with exc := 120 }).passedNow 64 16 = 5 := by decide

/-- An image whose one section is a patch of a reserved type at byte 64 (R391, R393, R395). -/
theorem test_reserved_patch_type :
    let sect := natLe 2 11 ++ zeros 6 ++ natLe 8 64 ++ natLe 8 16 ++ natLe 4 1 ++ zeros 4
    let head := fun (magic : Nat) => natLe 4 magic ++ natLe 2 3 ++ natLe 2 1 ++ natLe 8 80 ++ zeros 16
    let im := fun (magic : Nat) (w : Word) => { image with raw := head magic ++ sect ++ wordBytes w ++ zeros 8 }
    (im 0x4E59524A 0x7000000000000000).formatBad 80 = some 64 ∧ (im 0x4E59524A 0).formatBad 80 = none ∧
    (im 0x4E59524A 0).formatBad 81 = some 8 ∧ (im 0 0).formatBad 80 = some 0 := by decide +kernel

/-- Of a watchpoint and a breakpoint in one compute cycle the breakpoint is recorded; in a later cycle nothing changes (R492). -/
theorem test_debug_record_of_a_cycle :
    let x := ({} : Tile).dbgRecord 7 2 0
    fld (x.dbgRecord 7 1 0).misc.dbg 60 3 = 1 ∧ fld (x.dbgRecord 8 1 0).misc.dbg 60 3 = 2 ∧ fld (x.dbgRecord 7 3 0).misc.dbg 60 3 = 2 := by
  decide

end Sys2Proof.Tests
end

/-! # A run of well-formed commands is safe

A command whose units exist answers a next state (`exec_answers`), a command keeps what every operation keeps, the queue with it
(`exec_kept`), and so a step of a queue of well-formed commands leaves one (`step_of_queueWf`). -/

namespace Sys2Proof.Machine

/-! ## Outcomes that are next states -/

/-- The outcome is a next state: no fault and no refusal. -/
def AnswersNext (o : Out) : Prop := ∃ s', o = .next s'

namespace AnswersNext

theorem next (s : State) : AnswersNext (.next s) := ⟨s, rfl⟩

theorem ite {c : Prop} [Decidable c] {a b : Out} (ha : AnswersNext a) (hb : AnswersNext b) :
    AnswersNext (if c then a else b) := by
  split <;> assumption

/-- The check of a unit number passes where the module has the unit. -/
theorem of_unit {n N : Nat} {f : Fault} {o : Out} (hn : n < N) (ho : AnswersNext o) :
    AnswersNext (if N ≤ n then .fault f else o) := by
  rwa [if_neg (Nat.not_le.2 hn)]

/-- A link is one of the 32 ports or Riendlink. -/
theorem of_link {p : Nat} {f : Fault} {x y : State} (hp : p ≤ 32) :
    AnswersNext (if p < 32 then .next x else if p = 32 then .next y else .fault f) := by
  split
  · exact next x
  · rw [if_pos (by omega)]
    exact next y

end AnswersNext

/-! ## The shapes that commands share -/

section

variable {s : State}

theorem alongside_answers {t : Nat} {f : State → Out} (hf : ∀ s, AnswersNext (f s)) : AnswersNext (alongside t s f) := by
  obtain ⟨v, hv⟩ := hf (s.unstopped t)
  simp only [alongside, hv]
  exact .ite (.next _) (hf s)

theorem tileInsn_answers {key t : Nat} {q : Strm} {regs : Word → List Nat} {body : Site → Tile → State → State}
    (ht : t < 2304) : AnswersNext (tileInsn key t q s regs body) := by
  refine .of_unit ht (alongside_answers fun s => ?_)
  extract_lets e
  split
  · exact .next _
  · exact .next _
  · exact .ite (.next _) (.ite (.next _) (.ite (.next _) (.ite (.next _) (.ite (.next _) (.next _)))))

section TileInstructions

variable {key t : Nat} {q : Strm} {regs : Word → List Nat} (ht : t < 2304)
include ht

theorem scalarOp_answers {f : Seq → Word → Word} : AnswersNext (scalarOp key t q s regs f) := tileInsn_answers ht
theorem aluOp_answers {f : Word → Word → Word} : AnswersNext (aluOp key t q s f) := scalarOp_answers ht
theorem predOp_answers {f : Seq → Word → Bool} : AnswersNext (predOp key t q s regs f) := tileInsn_answers ht
theorem vecOp_answers : AnswersNext (vecOp key t q s) := tileInsn_answers ht
theorem arrOp_answers : AnswersNext (arrOp key t q s) := tileInsn_answers ht
theorem csOp_answers {store : Bool} : AnswersNext (csOp key t q s store) := tileInsn_answers ht
theorem uniOp_answers {store : Bool} : AnswersNext (uniOp key t q s store) := tileInsn_answers ht
theorem tallyIssue_answers {val : Seq → Word → Nat} : AnswersNext (tallyIssue key t q s regs val) := tileInsn_answers ht
theorem queueInsn_answers {body : Site → Tile → Nat → State → State} : AnswersNext (queueInsn key t q s regs body) :=
  tileInsn_answers ht
theorem qctlOp_answers : AnswersNext (qctlOp key t q s) := queueInsn_answers ht
theorem coefOp_answers {wr : Bool} : AnswersNext (coefOp key wr t q s) := tileInsn_answers ht
theorem xsendOp_answers {kind : Nat} : AnswersNext (xsendOp key kind t s) := tileInsn_answers ht

end TileInstructions

theorem helmCmd_answers {k opc : Nat} {sel : List Word → Bool} {body : State → List Word → State} (hk : k < 64) :
    AnswersNext (helmCmd k opc s sel body) :=
  .of_unit hk (.ite (.next _) (.next _))

theorem plainCmd_answers {k opc : Nat} {body : State → List Word → State} (hk : k < 64) : AnswersNext (plainCmd k opc s body) :=
  helmCmd_answers hk

theorem chronoAlign_answers {k : Nat} {read : Bool} (hk : k < 64) : AnswersNext (chronoAlign k read s) := helmCmd_answers hk

theorem regionDown_answers {k : Nat} {off : Bool} (hk : k < 64) : AnswersNext (regionDown k off s) := helmCmd_answers hk

theorem symCmd_answers {p : Nat} {y : Sym} {rpl fault : Bool} (hp : p < 32) : AnswersNext (symCmd p y rpl fault s) :=
  .of_unit hp (.next _)

theorem smbusOp_answers {s' : State} {answer : Word} : AnswersNext (smbusOp s s' answer) := .ite (.next _) (.next _)

theorem hostReq_answers {c : Instr} : AnswersNext (hostReq c s) := .ite (.next _) (.next _)

theorem sxTap_answers {w1 w2 w3 : Word} {bulk : List Word} : AnswersNext (sxTap w1 w2 w3 bulk s) := by
  refine .ite (.next _) (.ite (.next _) ?_)
  split <;> exact .next _

/-! ## The commands of a tile that end an operation -/

theorem execVectorOpComplete_answers {t : Nat} (ht : t < 2304) : AnswersNext (execVectorOpComplete t s) := by
  refine .of_unit ht (alongside_answers fun s => ?_)
  split
  · exact .next _
  · split
    · exact .ite (.next _) (.next _)
    all_goals exact .next _

theorem execTollGrant_answers {t : Nat} (ht : t < 2304) : AnswersNext (execTollGrant t s) := by
  refine .of_unit ht (alongside_answers fun s => ?_)
  extract_lets e
  split
  · exact .next _
  · exact .ite (.next _) (.ite (.next _) (.ite (.next _) (.next _)))

theorem execArrayOpComplete_answers {t i : Nat} (ht : t < 2304) : AnswersNext (execArrayOpComplete t i s) := by
  refine .of_unit ht (alongside_answers fun s => ?_)
  extract_lets l
  split
  · exact .next _
  · refine .ite (.next _) ?_
    extract_lets c
    split <;> exact .next _

theorem execScalarPortComplete_answers {t : Nat} (ht : t < 2304) : AnswersNext (execScalarPortComplete t s) := by
  refine .of_unit ht (alongside_answers fun s => ?_)
  extract_lets x
  split
  · exact .next _
  · extract_lets r slot c done
    refine .ite ?_ (.next _)
    split <;> exact .next _

theorem execTallyAddApply_answers {t : Nat} (ht : t < 2304) : AnswersNext (execTallyAddApply t s) := by
  refine .of_unit ht (alongside_answers fun s => ?_)
  extract_lets c
  split
  · exact .next _
  · exact .ite (.next _) (.ite (.next _) (.next _))

/-! ## Transfers of the porters and the cluster store -/

theorem execPorterComplete_answers {t tag : Nat} {e : HbmErr} (ht : t < 2304) : AnswersNext (execPorterComplete t tag e s) := by
  refine .of_unit ht (alongside_answers fun s => ?_)
  split
  · exact .next _
  · refine .ite (.next _) (.ite (.next _) (.ite (.next _) (.ite (.next _) (.ite ?_ (.ite (.next _) (.next _))))))
    split
    · exact .next _
    · exact .ite (.next _) (.ite (.next _) (.next _))

theorem execHrdResponse_answers {t tag addr : Nat} {err : Bool} {data : List Byte} (ht : t < 2304) :
    AnswersNext (execHrdResponse t tag addr err data s) := by
  refine .of_unit ht ?_
  split
  · exact .next _
  · exact .ite (.next _) (.next _)

theorem execHwrCompletion_answers {t tag addr : Nat} {err : Bool} (ht : t < 2304) :
    AnswersNext (execHwrCompletion t tag addr err s) := by
  refine .of_unit ht ?_
  split
  · exact .next _
  · refine .ite (.next _) (.ite (.next _) (.ite (.next _) ?_))
    extract_lets s1
    split <;> exact .next _

theorem execCsRequestAccept_answers {c : Nat} (hc : c < 192) : AnswersNext (execCsRequestAccept c s) := by
  refine .of_unit hc (.ite (.next _) ?_)
  extract_lets e s0 best
  clear_value best
  split <;> exact .next _

theorem execCsAccessComplete_answers {c i : Nat} (hc : c < 192) : AnswersNext (execCsAccessComplete c i s) := by
  refine .of_unit hc ?_
  split
  · exact .next _
  · exact .ite (.next _) (.ite (.next _) (.next _))

theorem execUniformChannelAccept_answers {t i : Nat} (ht : t < 2304) : AnswersNext (execUniformChannelAccept t i s) := by
  refine .of_unit ht ?_
  split
  · exact .next _
  · exact .ite (.next _) (.ite (.next _) (.ite (.next _) (.next _)))

theorem execUniformComplete_answers {t i k : Nat} (ht : t < 2304) : AnswersNext (execUniformComplete t i k s) := by
  refine .of_unit ht ?_
  split
  · exact .next _
  · exact .ite (.next _) (.ite (.next _) (.next _))

/-! ## Messages -/

theorem execMessageArrival_answers {i : Nat} : AnswersNext (execMessageArrival i s) := by
  unfold execMessageArrival
  split
  · exact .next _
  · exact .ite (.next _) (.ite (.next _) (.next _))

theorem execMessageAccept_answers {t : Nat} (ht : t < 2304) : AnswersNext (execMessageAccept t s) := by
  refine .of_unit ht ?_
  extract_lets e
  split
  · exact .next _
  · exact .ite (.next _) (.next _)

theorem execMessageVisible_answers {t : Nat} (ht : t < 2304) : AnswersNext (execMessageVisible t s) := by
  refine .of_unit ht (alongside_answers fun s => ?_)
  extract_lets x
  split
  · exact .next _
  · exact .ite (.next _) (.ite (.next _) (.next _))

theorem execReturnSlipSend_answers {t : Nat} (ht : t < 2304) : AnswersNext (execReturnSlipSend t s) := by
  refine .of_unit ht ?_
  split
  · exact .next _
  · exact .ite (.next _) (.next _)

theorem execRingWaitExpiry_answers {t : Nat} (ht : t < 2304) : AnswersNext (execRingWaitExpiry t s) := by
  refine .of_unit ht (alongside_answers fun s => ?_)
  split
  · exact .next _
  · exact .ite (.next _) (.next _)

theorem execSendComplete_answers {t : Nat} (ht : t < 2304) : AnswersNext (execSendComplete t s) := by
  refine .of_unit ht (alongside_answers fun s => ?_)
  split
  · exact .next _
  · exact .ite (.next _) (.next _)

/-! ## The exchange and the waves -/

theorem execExchangeLanding_answers {i : Nat} {e : Option MeshErr} : AnswersNext (execExchangeLanding i e s) := by
  unfold execExchangeLanding
  split
  · exact .next _
  · exact .ite (.next _) (.next _)
  · exact .ite (.next _) (alongside_answers fun _ => .next _)

theorem execContributionArrival_answers {i : Nat} : AnswersNext (execContributionArrival i s) := by
  unfold execContributionArrival
  split
  · exact .next _
  · exact .ite (.next _) (alongside_answers fun _ => .next _)

theorem execNormDelivery_answers {i : Nat} : AnswersNext (execNormDelivery i s) := by
  unfold execNormDelivery
  split
  · exact .next _
  · exact .ite (.next _) (alongside_answers fun _ => .ite (.next _) (.ite (.next _) (.next _)))

theorem execMeetResultOutput_answers {t e rix : Nat} (ht : t < 2304) : AnswersNext (execMeetResultOutput t e rix s) := by
  refine .of_unit ht (alongside_answers fun s => ?_)
  extract_lets x
  split
  · exact .next _
  · exact .ite (.next _) (.ite (.next _) (.ite (.next _) (.next _)))

theorem execStaleFetchReport_answers {t row : Nat} (ht : t < 2304) : AnswersNext (execStaleFetchReport t row s) :=
  .of_unit ht (.ite (.next _) (.ite (.next _) (.next _)))

theorem execBallastQuantum_answers {t : Nat} {bad : Option Nat} (ht : t < 2304) : AnswersNext (execBallastQuantum t bad s) := by
  refine .of_unit ht (.ite ?_ (.next _))
  extract_lets k s1 s2
  split <;> exact .next _

theorem execArrivalWaveRelease_answers : AnswersNext (execArrivalWaveRelease s) := by
  unfold execArrivalWaveRelease
  extract_lets v
  split
  · exact .next _
  · exact .ite (.next _) (.next _)

/-! ## The links -/

theorem execRemotePacketIngress_answers {p : Nat} (hp : p < 32) : AnswersNext (execRemotePacketIngress p s) := by
  refine .of_unit hp ?_
  split
  · exact .next _
  · exact .ite (.next _) (.ite (.next _) (.ite (.ite (.next _) (.next _)) (.ite (.next _) (.next _))))

theorem execTransitPacket_answers {p : Nat} (hp : p < 32) : AnswersNext (execTransitPacket p s) := by
  refine .of_unit hp ?_
  split
  · exact .next _
  · split
    · exact .next _
    · exact .ite (.next _) (.next _)

theorem execLlynFrameReceive_answers {p : Nat} {fr : Frame} {q : RxQuality} (hp : p < 32) :
    AnswersNext (execLlynFrameReceive p fr q s) := by
  refine .of_unit hp (.ite (.next _) (.ite (.next _) (.ite (.next _) ?_)))
  extract_lets jobs stows s3
  split <;> exact .next _

theorem execSymbolHoldRelease_answers {i : Nat} : AnswersNext (execSymbolHoldRelease i s) := by
  unfold execSymbolHoldRelease
  split
  · exact .next _
  · exact .ite (.next _) (.next _)

/-! ## Stow, the helm, sights, fix and heat -/

theorem execStowConfigTimeout_answers : AnswersNext (execStowConfigTimeout s) := by
  unfold execStowConfigTimeout
  split <;> exact .next _

theorem execStowBlockLanding_answers {b : StowArrival} : AnswersNext (execStowBlockLanding b s) := by
  unfold execStowBlockLanding
  split
  · exact .next _
  · exact .ite (.next _) (.next _)
  · exact .next _

theorem execStowComplete_answers {res : StowEnd} : AnswersNext (execStowComplete res s) := by
  refine .ite ?_ (.next _)
  split <;> exact .next _

theorem execRestoreComplete_answers {ok : Bool} : AnswersNext (execRestoreComplete ok s) := by
  unfold execRestoreComplete
  split
  · exact .next _
  · exact .ite (.next _) (.next _)

theorem execHelmRestartDone_answers {ok : Bool} : AnswersNext (execHelmRestartDone ok s) := by
  unfold execHelmRestartDone
  split
  · exact .next _
  · extract_lets l first
    split <;> exact .next _

theorem execSightEnd_answers {found : List SightFault} : AnswersNext (execSightEnd found s) := by
  refine .ite (.next _) (.ite (.next _) ?_)
  split <;> exact .next _

theorem execFixLatch_answers : AnswersNext (execFixLatch s) := by
  unfold execFixLatch
  split
  · exact .next _
  · exact .ite (.next _) (.next _)

theorem execThermalTrip_answers {kind idx temp : Nat} (h : kind ≤ 2 ∧ idx < (if kind = 2 then 32 else 16)) :
    AnswersNext (execThermalTrip kind idx temp s) := by
  obtain ⟨hkind, hidx⟩ := h
  exact .of_unit (Nat.lt_succ_of_le hkind) (.of_unit hidx (.ite (.next _) (.next _)))

end

/-! ## Every command -/

/-- A command whose units exist answers a next state: its arm of `exec` is the check of a unit number, if it names a unit, before
branches that all end in a next state. Commands whose arms have one shape stand together; those with a lemma of their own come last. -/
theorem exec_answers {c : Instr} {s : State} (h : c.wf = true) : AnswersNext (exec c s) := by
  unfold exec
  cases c with
  | nop _ _ | br _ _ | call _ _ | ret _ _ | bri _ _ | mwait _ _ | pwait _ _ | sync _ _ | brk _ _ | amov _ _ | aaddi _ _
  | lds _ _ | sts _ _ | port _ _ | twait _ _ | trd _ _ | qsend _ _ | qsends _ _ | upd _ _ | xsetl _ | xloop _ | xend _
  | xbr _ | xnop _ | xwait _ => exact tileInsn_answers (of_decide_eq_true h)
  | addi _ _ | li _ _ | lih _ _ | movx _ _ | ard _ _ => exact scalarOp_answers (of_decide_eq_true h)
  | add _ _ | sub _ _ | and_ _ _ | or_ _ _ | xor _ _ | shl _ _ | shr _ _ | sar _ _ | mul _ _ | min_ _ _ | max_ _ _ =>
    exact aluOp_answers (of_decide_eq_true h)
  | cmp _ _ | cmpi _ _ | plog _ _ => exact predOp_answers (of_decide_eq_true h)
  | vadd _ _ | vmul _ _ | vfma _ _ | vmin _ _ | vmax _ _ | vsfma _ _ | vexp2 _ _ | vlog2 _ _ | vrsqrt _ _ | vrecip _ _
  | vcvt _ _ | vrsum _ _ | vrmax _ _ | vcpy _ _ => exact vecOp_answers (of_decide_eq_true h)
  | ald _ _ | amac _ _ | apreZero _ _ | apreBias _ _ | apreResid _ _ | adrn _ _ =>
    exact arrOp_answers (of_decide_eq_true h)
  | cld _ _ | cst _ _ => exact csOp_answers (of_decide_eq_true h)
  | uld _ _ | ust _ _ => exact uniOp_answers (of_decide_eq_true h)
  | tadd _ _ | taddr _ _ => exact tallyIssue_answers (of_decide_eq_true h)
  | qhead _ _ | qlen _ _ => exact queueInsn_answers (of_decide_eq_true h)
  | qctlOpen _ _ | qctlClose _ _ | qctlReset _ _ => exact qctlOp_answers (of_decide_eq_true h)
  | ctw _ _ | ctr _ _ => exact coefOp_answers (of_decide_eq_true h)
  | xsend _ | xrsend _ | xnorm _ => exact xsendOp_answers (of_decide_eq_true h)
  | jobLoad _ _ | jobAbortStop _ | jobAbortUnload _ | fwActivate _ | regionWake _ | debugTunnel _ _ =>
    exact helmCmd_answers (of_decide_eq_true h)
  | devInfo _ | readyQuery _ | jobStart _ _ | jobPause _ | jobResume _ _ | jobStatus _ | stowConfig _ _
  | stowRestore _ _ | capSet _ | telemetryRead _ | ledgerRead _ | throttleRead _ | fenceQuery _ | sightSchedule _
  | fixArm _ | fixRead _ | fwStage _ _ | attest _ | linkConfig _ _ => exact plainCmd_answers (of_decide_eq_true h)
  | chronoAlignStep _ | chronoAlignRead _ => exact chronoAlign_answers (of_decide_eq_true h)
  | regionSleep _ | regionOff _ => exact regionDown_answers (of_decide_eq_true h)
  | arrive _ _ _ _ | go _ _ _ _ | part _ _ _ | done _ _ _ | stop _ _ _ _ | fix _ _ _ _ | align _ _ _ _ | link _ _ _ =>
    exact symCmd_answers (of_decide_eq_true h)
  | smbDevInfo | smbHelmVer | smbReady | smbInputMv | smbInputCurrent | smbInputPower | smbHottestDie | smbHottestStack
  | smbThrottle | smbCapRead | smbCapInForce | smbThermalTarget | smbAlertsRead | smbChrono | smbModid | smbEnergy
  | smbCapWrite _ | smbAlertsClear _ => exact smbusOp_answers
  | rds _ _ | rdo _ _ | rdnc _ _ _ | wrline _ _ _ | wrpart _ _ _ _ | evict _ _ | cfgrd _ _ | cfgwr _ _ _ =>
    exact hostReq_answers
  | halt _ _ _ | release _ _ _ | step _ _ _ | status _ _ | event _ | read _ _ _ _ | write _ _ _ _ _ => exact sxTap_answers
  | fixTrigEdge | slotIdChange _ => exact .next _
  | doneWaveRelease | stowFreezeStart | stowFreezeDone | jobStartTick | jobStartTimeout | jobResumeTick
  | helmWatchdogExpiry | helmFlashWrite | haltNotice _ _ | fixCopyDone | rlRetrainTimeout | rlTrainRetry
  | rlHcwRequest _ | rlMsiWrite _ _ _ | powerManagerPeriod _ | uvClamp _ | uvRelease _ | brownout _
  | brownoutRecovery _ | islandsStop _ | powerOn _ _ | thermalControlPeriod _ | devPwrStatTripClear | telemetrySample _
  | ledgerRefit _ | deepIdleRequest | alwaysOnOnlyRequest | powerRequestNone | alwaysOnExit | refclkReturn _
  | resetLAssert | resetLDeassert _ | registerWrite _ _ | rlLinkUp | extest _ | fixTimeTrigger | refclkLoss
  | helmDiePowerUp => exact .ite (.next _) (.next _)
  | devMbxDb _ _ | devMbxCq _ _ | tileRst _ | regionRst _ | droopDetect _ | droopStretchEnd _ | stepDeferExpiry _
  | hbmSelfRefreshIdle _ | llynDetectPoll _ _ | llynTrainLock _ | llynTrainRetry _ | llynRetrainDone _
  | llynRetrainTimeout _ | alignExchangeTimer _ | ballastRampStep _ | syncWdogExpiry _ _ _ =>
    exact .of_unit (of_decide_eq_true h) (.ite (.next _) (.next _))
  | rlFrameReceive _ _ | invack _ _ => exact .ite (.next _) (.ite (.next _) (.ite (.next _) (.next _)))
  | currentLimiterSample _ | bootRomVerifyDone => exact .ite (.ite (.next _) (.ite (.next _) (.next _))) (.next _)
  | ledgerAccumulate _ => exact .ite (.ite (.next _) (.next _)) (.next _)
  | marginSight => exact .ite (.ite (.ite (.next _) (.next _)) (.ite (.next _) (.next _))) (.next _)
  | llynTrainTimeout _ => exact .of_unit (of_decide_eq_true h) (.ite (.next _) (.ite (.next _) (.next _)))
  | regionReady _ => exact .of_unit (of_decide_eq_true h) (.ite (.next _) (.ite (.next _) (.ite (.next _) (.next _))))
  | overrunLimitExpiry _ => exact .of_unit (of_decide_eq_true h) (alongside_answers fun _ => .ite (.next _) (.next _))
  | frameLockLoss _ | linkFrameSend _ => exact .of_link (of_decide_eq_true h)
  | vectorOpComplete _ => exact execVectorOpComplete_answers (of_decide_eq_true h)
  | tollGrant _ => exact execTollGrant_answers (of_decide_eq_true h)
  | arrayOpComplete _ _ => exact execArrayOpComplete_answers (of_decide_eq_true h)
  | porterComplete _ _ _ => exact execPorterComplete_answers (of_decide_eq_true h)
  | uniformChannelAccept _ _ => exact execUniformChannelAccept_answers (of_decide_eq_true h)
  | uniformComplete _ _ _ => exact execUniformComplete_answers (of_decide_eq_true h)
  | tallyAddApply _ => exact execTallyAddApply_answers (of_decide_eq_true h)
  | sendComplete _ => exact execSendComplete_answers (of_decide_eq_true h)
  | staleFetchReport _ _ => exact execStaleFetchReport_answers (of_decide_eq_true h)
  | meetResultOutput _ _ _ => exact execMeetResultOutput_answers (of_decide_eq_true h)
  | ballastQuantum _ _ => exact execBallastQuantum_answers (of_decide_eq_true h)
  | messageAccept _ => exact execMessageAccept_answers (of_decide_eq_true h)
  | messageVisible _ => exact execMessageVisible_answers (of_decide_eq_true h)
  | returnSlipSend _ => exact execReturnSlipSend_answers (of_decide_eq_true h)
  | ringWaitExpiry _ => exact execRingWaitExpiry_answers (of_decide_eq_true h)
  | hrdResponse _ _ _ _ _ => exact execHrdResponse_answers (of_decide_eq_true h)
  | hwrCompletion _ _ _ _ => exact execHwrCompletion_answers (of_decide_eq_true h)
  | scalarPortComplete _ => exact execScalarPortComplete_answers (of_decide_eq_true h)
  | csRequestAccept _ => exact execCsRequestAccept_answers (of_decide_eq_true h)
  | csAccessComplete _ _ => exact execCsAccessComplete_answers (of_decide_eq_true h)
  | remotePacketIngress _ => exact execRemotePacketIngress_answers (of_decide_eq_true h)
  | transitPacket _ => exact execTransitPacket_answers (of_decide_eq_true h)
  | llynFrameReceive _ _ _ => exact execLlynFrameReceive_answers (of_decide_eq_true h)
  | thermalTrip _ _ _ => exact execThermalTrip_answers (of_decide_eq_true h)
  | exchangeLanding _ _ => exact execExchangeLanding_answers
  | contributionArrival _ => exact execContributionArrival_answers
  | normDelivery _ => exact execNormDelivery_answers
  | messageArrival _ => exact execMessageArrival_answers
  | stowBlockLanding _ => exact execStowBlockLanding_answers
  | restoreComplete _ => exact execRestoreComplete_answers
  | helmRestartDone _ => exact execHelmRestartDone_answers
  | fixLatch => exact execFixLatch_answers
  | symbolHoldRelease _ => exact execSymbolHoldRelease_answers
  | stowConfigTimeout => exact execStowConfigTimeout_answers
  | stowComplete _ => exact execStowComplete_answers
  | sightEnd _ => exact execSightEnd_answers
  | arrivalWaveRelease => exact execArrivalWaveRelease_answers

/-- A command that answers a next state keeps what every operation of the model keeps. -/
theorem exec_kept {a : State} (c : Instr) {s : State} (h : Kept a s) : KeptOut a (exec c s) := by
  unfold exec
  cases c with
  | nop t q => exact execNop_kept t q h
  | br t q => exact execBr_kept t q h
  | call t q => exact execCall_kept t q h
  | ret t q => exact execRet_kept t q h
  | bri t q => exact execBri_kept t q h
  | mwait t q => exact execMwait_kept t q h
  | pwait t q => exact execPwait_kept t q h
  | sync t q => exact execSync_kept t q h
  | brk t q => exact execBrk_kept t q h
  | add t q => exact execAdd_kept t q h
  | sub t q => exact execSub_kept t q h
  | and_ t q => exact execAnd_kept t q h
  | or_ t q => exact execOr_kept t q h
  | xor t q => exact execXor_kept t q h
  | shl t q => exact execShl_kept t q h
  | shr t q => exact execShr_kept t q h
  | sar t q => exact execSar_kept t q h
  | mul t q => exact execMul_kept t q h
  | min_ t q => exact execMin_kept t q h
  | max_ t q => exact execMax_kept t q h
  | addi t q => exact execAddi_kept t q h
  | li t q => exact execLi_kept t q h
  | lih t q => exact execLih_kept t q h
  | movx t q => exact execMovx_kept t q h
  | cmp t q => exact execCmp_kept t q h
  | cmpi t q => exact execCmpi_kept t q h
  | plog t q => exact execPlog_kept t q h
  | amov t q => exact execAmov_kept t q h
  | aaddi t q => exact execAaddi_kept t q h
  | ard t q => exact execArd_kept t q h
  | lds t q => exact execLds_kept t q h
  | sts t q => exact execSts_kept t q h
  | vadd t q => exact execVadd_kept t q h
  | vmul t q => exact execVmul_kept t q h
  | vfma t q => exact execVfma_kept t q h
  | vmin t q => exact execVmin_kept t q h
  | vmax t q => exact execVmax_kept t q h
  | vsfma t q => exact execVsfma_kept t q h
  | vexp2 t q => exact execVexp2_kept t q h
  | vlog2 t q => exact execVlog2_kept t q h
  | vrsqrt t q => exact execVrsqrt_kept t q h
  | vrecip t q => exact execVrecip_kept t q h
  | vcvt t q => exact execVcvt_kept t q h
  | vrsum t q => exact execVrsum_kept t q h
  | vrmax t q => exact execVrmax_kept t q h
  | vcpy t q => exact execVcpy_kept t q h
  | vectorOpComplete t => exact execVectorOpComplete_kept t h
  | ald t q => exact execAld_kept t q h
  | amac t q => exact execAmac_kept t q h
  | apreZero t q => exact execApreZero_kept t q h
  | apreBias t q => exact execApreBias_kept t q h
  | apreResid t q => exact execApreResid_kept t q h
  | adrn t q => exact execAdrn_kept t q h
  | tollGrant t => exact execTollGrant_kept t h
  | arrayOpComplete t j => exact execArrayOpComplete_kept t j h
  | port t q => exact execPort_kept t q h
  | porterComplete t tag e => exact execPorterComplete_kept t tag e h
  | cld t q => exact execCld_kept t q h
  | cst t q => exact execCst_kept t q h
  | csRequestAccept c => exact execCsRequestAccept_kept c h
  | csAccessComplete c j => exact execCsAccessComplete_kept c j h
  | uld t q => exact execUld_kept t q h
  | ust t q => exact execUst_kept t q h
  | uniformChannelAccept t j => exact execUniformChannelAccept_kept t j h
  | uniformComplete t j k => exact execUniformComplete_kept t j k h
  | tadd t q => exact execTadd_kept t q h
  | taddr t q => exact execTaddr_kept t q h
  | tallyAddApply t => exact execTallyAddApply_kept t h
  | twait t q => exact execTwait_kept t q h
  | trd t q => exact execTrd_kept t q h
  | qsend t q => exact execQsend_kept t q h
  | qsends t q => exact execQsends_kept t q h
  | sendComplete t => exact execSendComplete_kept t h
  | qhead t q => exact execQhead_kept t q h
  | qlen t q => exact execQlen_kept t q h
  | qctlOpen t q => exact execQctlOpen_kept t q h
  | qctlClose t q => exact execQctlClose_kept t q h
  | qctlReset t q => exact execQctlReset_kept t q h
  | upd t q => exact execUpd_kept t q h
  | ctw t q => exact execCtw_kept t q h
  | ctr t q => exact execCtr_kept t q h
  | xsend t => exact execXsend_kept t h
  | xrsend t => exact execXrsend_kept t h
  | xnorm t => exact execXnorm_kept t h
  | xsetl t => exact execXsetl_kept t h
  | xloop t => exact execXloop_kept t h
  | xend t => exact execXend_kept t h
  | xbr t => exact execXbr_kept t h
  | xnop t => exact execXnop_kept t h
  | xwait t => exact execXwait_kept t h
  | staleFetchReport t row => exact execStaleFetchReport_kept t row h
  | arrivalWaveRelease => exact execArrivalWaveRelease_kept h
  | exchangeLanding j e => exact execExchangeLanding_kept j e h
  | remotePacketIngress p => exact execRemotePacketIngress_kept p h
  | transitPacket p => exact execTransitPacket_kept p h
  | contributionArrival j => exact execContributionArrival_kept j h
  | meetResultOutput t e rix => exact execMeetResultOutput_kept t e rix h
  | normDelivery j => exact execNormDelivery_kept j h
  | doneWaveRelease => exact execDoneWaveRelease_kept h
  | ballastRampStep r => exact execBallastRampStep_kept r h
  | ballastQuantum t bad => exact execBallastQuantum_kept t bad h
  | overrunLimitExpiry t => exact execOverrunLimitExpiry_kept t h
  | messageArrival j => exact execMessageArrival_kept j h
  | messageAccept t => exact execMessageAccept_kept t h
  | messageVisible t => exact execMessageVisible_kept t h
  | returnSlipSend t => exact execReturnSlipSend_kept t h
  | ringWaitExpiry t => exact execRingWaitExpiry_kept t h
  | syncWdogExpiry t kind q => exact execSyncWdogExpiry_kept t kind q h
  | stowFreezeStart => exact execStowFreezeStart_kept h
  | stowFreezeDone => exact execStowFreezeDone_kept h
  | stowBlockLanding b => exact execStowBlockLanding_kept b h
  | stowComplete res => exact execStowComplete_kept res h
  | restoreComplete ok => exact execRestoreComplete_kept ok h
  | devInfo k => exact execDevInfo_kept k h
  | readyQuery k => exact execReadyQuery_kept k h
  | jobLoad k env => exact execJobLoad_kept k env h
  | jobStart k env => exact execJobStart_kept k env h
  | jobStartTick => exact execJobStartTick_kept h
  | jobStartTimeout => exact execJobStartTimeout_kept h
  | jobPause k => exact execJobPause_kept k h
  | jobResume k minA => exact execJobResume_kept k minA h
  | jobResumeTick => exact execJobResumeTick_kept h
  | jobAbortStop k => exact execJobAbortStop_kept k h
  | jobAbortUnload k => exact execJobAbortUnload_kept k h
  | jobStatus k => exact execJobStatus_kept k h
  | stowConfig k agree => exact execStowConfig_kept k agree h
  | stowRestore k env => exact execStowRestore_kept k env h
  | capSet k => exact execCapSet_kept k h
  | telemetryRead k => exact execTelemetryRead_kept k h
  | ledgerRead k => exact execLedgerRead_kept k h
  | throttleRead k => exact execThrottleRead_kept k h
  | fenceQuery k => exact execFenceQuery_kept k h
  | sightSchedule k => exact execSightSchedule_kept k h
  | fixArm k => exact execFixArm_kept k h
  | fixRead k => exact execFixRead_kept k h
  | fwStage k pkg => exact execFwStage_kept k pkg h
  | fwActivate k => exact execFwActivate_kept k h
  | attest k => exact execAttest_kept k h
  | linkConfig k table => exact execLinkConfig_kept k table h
  | chronoAlignStep k => exact execChronoAlignStep_kept k h
  | chronoAlignRead k => exact execChronoAlignRead_kept k h
  | regionSleep k => exact execRegionSleep_kept k h
  | regionOff k => exact execRegionOff_kept k h
  | regionWake k => exact execRegionWake_kept k h
  | debugTunnel k buf => exact execDebugTunnel_kept k buf h
  | devMbxDb k v => exact execDevMbxDb_kept k v h
  | devMbxCq k v => exact execDevMbxCq_kept k v h
  | helmWatchdogExpiry => exact execHelmWatchdogExpiry_kept h
  | helmRestartDone ok => exact execHelmRestartDone_kept ok h
  | helmFlashWrite => exact execHelmFlashWrite_kept h
  | marginSight => exact execMarginSight_kept h
  | sightEnd found => exact execSightEnd_kept found h
  | smbDevInfo => exact execSmbDevInfo_kept h
  | smbHelmVer => exact execSmbHelmVer_kept h
  | smbReady => exact execSmbReady_kept h
  | smbInputMv => exact execSmbInputMv_kept h
  | smbInputCurrent => exact execSmbInputCurrent_kept h
  | smbInputPower => exact execSmbInputPower_kept h
  | smbHottestDie => exact execSmbHottestDie_kept h
  | smbHottestStack => exact execSmbHottestStack_kept h
  | smbThrottle => exact execSmbThrottle_kept h
  | smbCapRead => exact execSmbCapRead_kept h
  | smbCapWrite v => exact execSmbCapWrite_kept v h
  | smbCapInForce => exact execSmbCapInForce_kept h
  | smbThermalTarget => exact execSmbThermalTarget_kept h
  | smbAlertsRead => exact execSmbAlertsRead_kept h
  | smbAlertsClear v => exact execSmbAlertsClear_kept v h
  | smbChrono => exact execSmbChrono_kept h
  | smbModid => exact execSmbModid_kept h
  | smbEnergy => exact execSmbEnergy_kept h
  | halt scope unit q => exact execHalt_kept scope unit q h
  | release scope unit q => exact execRelease_kept scope unit q h
  | step scope unit q => exact execStep_kept scope unit q h
  | status scope unit => exact execStatus_kept scope unit h
  | event unit => exact execEvent_kept unit h
  | read space unit addr len => exact execRead_kept space unit addr len h
  | write space unit addr len data => exact execWrite_kept space unit addr len data h
  | haltNotice m on => exact execHaltNotice_kept m on h
  | fixTimeTrigger => exact execFixTimeTrigger_kept h
  | fixTrigEdge => exact execFixTrigEdge_kept h
  | fixLatch => exact execFixLatch_kept h
  | fixCopyDone => exact execFixCopyDone_kept h
  | arrive p dmod smod n => exact execArrive_kept p dmod smod n h
  | go p dmod smod n => exact execGo_kept p dmod smod n h
  | part p dmod smod => exact execPart_kept p dmod smod h
  | done p dmod smod => exact execDone_kept p dmod smod h
  | stop p dmod smod code => exact execStop_kept p dmod smod code h
  | fix p dmod tick fault => exact execFix_kept p dmod tick fault h
  | align p recv rpl stamp => exact execAlign_kept p recv rpl stamp h
  | link p idx val => exact execLink_kept p idx val h
  | symbolHoldRelease j => exact execSymbolHoldRelease_kept j h
  | alignExchangeTimer p => exact execAlignExchangeTimer_kept p h
  | llynFrameReceive p fr q => exact execLlynFrameReceive_kept p fr q h
  | frameLockLoss p => exact execFrameLockLoss_kept p h
  | llynRetrainDone p => exact execLlynRetrainDone_kept p h
  | llynRetrainTimeout p => exact execLlynRetrainTimeout_kept p h
  | llynDetectPoll p seen => exact execLlynDetectPoll_kept p seen h
  | llynTrainLock p => exact execLlynTrainLock_kept p h
  | llynTrainRetry p => exact execLlynTrainRetry_kept p h
  | rlFrameReceive fr q => exact execRlFrameReceive_kept fr q h
  | rlRetrainTimeout => exact execRlRetrainTimeout_kept h
  | rlTrainRetry => exact execRlTrainRetry_kept h
  | rds id addr => exact execRds_kept id addr h
  | rdo id addr => exact execRdo_kept id addr h
  | rdnc id addr len => exact execRdnc_kept id addr len h
  | wrline id addr data => exact execWrline_kept id addr data h
  | wrpart id addr mask data => exact execWrpart_kept id addr mask data h
  | evict id addr => exact execEvict_kept id addr h
  | cfgrd id off => exact execCfgrd_kept id off h
  | cfgwr id off v => exact execCfgwr_kept id off v h
  | invack line data => exact execInvack_kept line data h
  | hrdResponse t tag addr err data => exact execHrdResponse_kept t tag addr err data h
  | hwrCompletion t tag addr err => exact execHwrCompletion_kept t tag addr err h
  | rlHcwRequest v => exact execRlHcwRequest_kept v h
  | rlMsiWrite v w x => exact execRlMsiWrite_kept v w x h
  | hbmSelfRefreshIdle k => exact execHbmSelfRefreshIdle_kept k h
  | powerManagerPeriod m => exact execPowerManagerPeriod_kept m h
  | currentLimiterSample avg => exact execCurrentLimiterSample_kept avg h
  | droopDetect r => exact execDroopDetect_kept r h
  | droopStretchEnd r => exact execDroopStretchEnd_kept r h
  | stepDeferExpiry r => exact execStepDeferExpiry_kept r h
  | uvClamp mv => exact execUvClamp_kept mv h
  | uvRelease mv => exact execUvRelease_kept mv h
  | brownout mv => exact execBrownout_kept mv h
  | brownoutRecovery mv => exact execBrownoutRecovery_kept mv h
  | islandsStop mv => exact execIslandsStop_kept mv h
  | powerOn mv slot => exact execPowerOn_kept mv slot h
  | thermalControlPeriod m => exact execThermalControlPeriod_kept m h
  | thermalTrip kind idx temp => exact execThermalTrip_kept kind idx temp h
  | devPwrStatTripClear => exact execDevPwrStatTripClear_kept h
  | telemetrySample m => exact execTelemetrySample_kept m h
  | ledgerAccumulate acts => exact execLedgerAccumulate_kept acts h
  | ledgerRefit coefs => exact execLedgerRefit_kept coefs h
  | deepIdleRequest => exact execDeepIdleRequest_kept h
  | alwaysOnOnlyRequest => exact execAlwaysOnOnlyRequest_kept h
  | powerRequestNone => exact execPowerRequestNone_kept h
  | alwaysOnExit => exact execAlwaysOnExit_kept h
  | refclkLoss => exact execRefclkLoss_kept h
  | refclkReturn mv => exact execRefclkReturn_kept mv h
  | resetLAssert => exact execResetLAssert_kept h
  | resetLDeassert slot => exact execResetLDeassert_kept slot h
  | tileRst t => exact execTileRst_kept t h
  | regionRst r => exact execRegionRst_kept r h
  | registerWrite off v => exact execRegisterWrite_kept off v h
  | scalarPortComplete t => exact execScalarPortComplete_kept t h
  | linkFrameSend p => exact execLinkFrameSend_kept p h
  | llynTrainTimeout p => exact execLlynTrainTimeout_kept p h
  | rlLinkUp => exact execRlLinkUp_kept h
  | regionReady r => exact execRegionReady_kept r h
  | helmDiePowerUp => exact execHelmDiePowerUp_kept h
  | bootRomVerifyDone => exact execBootRomVerifyDone_kept h
  | stowConfigTimeout => exact execStowConfigTimeout_kept h
  | extest chain => exact execExtest_kept chain h
  | slotIdChange v => exact execSlotIdChange_kept v h

/-! ## Steps and runs -/

theorem step_of_pending_nil {s : State} (h : s.pending = []) : step s = .next s.clockTick := by
  simp only [step, h]

theorem step_of_pending_cons {s : State} {c : Instr} {rest : List Instr} (h : s.pending = c :: rest) :
    step s = exec c { s with pending := rest } := by
  simp only [step, h]

theorem clockTick_pending (s : State) : s.clockTick.pending = s.pending :=
  (State.clockTick_kept (Kept.refl s)).pending

theorem exec_pending {c : Instr} {s s' : State} (h : exec c s = .next s') : s'.pending = s.pending :=
  ((exec_kept c (Kept.refl s)).of_next s' h).pending

theorem queueWf_of_pending_cons {s : State} {c : Instr} {rest : List Instr} (h : s.pending = c :: rest) :
    s.queueWf = true ↔ c.wf = true ∧ rest.all Instr.wf = true := by
  simp only [State.queueWf, h, List.all_cons, Bool.and_eq_true]

/-- A step of a queue of well-formed commands answers a next state, whose queue holds well-formed commands again. -/
theorem step_of_queueWf {s : State} (h : s.queueWf = true) : ∃ s', step s = .next s' ∧ s'.queueWf = true := by
  cases hp : s.pending with
  | nil =>
    refine ⟨_, step_of_pending_nil hp, ?_⟩
    rw [State.queueWf, clockTick_pending]
    exact h
  | cons c rest =>
    obtain ⟨hc, hrest⟩ := (queueWf_of_pending_cons hp).1 h
    obtain ⟨s', hs'⟩ := exec_answers (s := { s with pending := rest }) hc
    refine ⟨s', (step_of_pending_cons hp).trans hs', ?_⟩
    rw [State.queueWf, exec_pending hs']
    exact hrest

theorem safeFor_of_queueWf (n : Nat) {s : State} (h : s.queueWf = true) : SafeFor n s := by
  induction n generalizing s with
  | zero => trivial
  | succ n ih =>
    obtain ⟨s', hs', h'⟩ := step_of_queueWf h
    exact ⟨s', hs', ih h'⟩

/-! ## The statements -/

/-- Settles O1: the queue is the model's own (log 1); the queue's rest after a command was put in front is the queue before. -/
theorem stepRunsTheFrontCommand : Obligations.StepRunsTheFrontCommand :=
  fun _ _ => step_of_pending_cons rfl

/-- Settles O8: each command whose units exist answers (the one fault is a unit that does not exist, log 8), each keeps the queue
(log 1), so each step of a run leaves a queue of well-formed commands. -/
theorem wellFormedRunsAreSafe : Obligations.WellFormedRunsAreSafe := by
  unfold Obligations.WellFormedRunsAreSafe
  refine ⟨?answers, ?queue, ?runs⟩
  case answers => exact fun _ _ h => exec_answers h
  case queue => exact fun _ _ _ h => exec_pending h
  case runs => exact fun n _ h => safeFor_of_queueWf n h

end Sys2Proof.Machine

/-! # What every step keeps

A step takes the front command off the queue and runs it, or passes a tick. Both keep what every operation of the model keeps
(`exec_kept`, `State.clockTick_kept`), so an invariant that `Kept` lists holds after a step if it does not speak of the queue. -/

namespace Sys2Proof.Machine

/-- A step that answers a next state keeps what every operation keeps, of the state whose queue has lost its front command. -/
theorem step_kept {s s' : State} (h : step s = .next s') : Kept { s with pending := s.pending.tail } s' := by
  cases hp : s.pending with
  | nil =>
    rw [step_of_pending_nil hp] at h
    have hs : { s with pending := [] } = s := by rw [← hp]
    rw [List.tail_nil, hs]
    exact Kept.of_next h (KeptOut.next (State.clockTick_kept (Kept.refl s)))
  | cons c rest =>
    rw [step_of_pending_cons hp] at h
    exact Kept.of_next h (exec_kept c (Kept.refl _))

/-- The canonical form of the unit tables does not speak of the queue. -/
theorem State.Canon.with_pending {s : State} (h : s.Canon) (q : List Instr) : { s with pending := q }.Canon :=
  ⟨h.tiles, h.clusters, h.regions, h.stks, h.ports⟩

/-- Settles O7: the queue is not one of the unit tables, and every operation writes the tables through writes that keep their
canonical form. -/
theorem stepKeepsTheTablesCanonical : Obligations.StepKeepsTheTablesCanonical :=
  fun _ _ hcanon hstep => (step_kept hstep).canon (hcanon.with_pending _)

end Sys2Proof.Machine

/-! # Modes stay legal -/

namespace Sys2Proof.Machine

/-- The modes of a state do not speak of its queue. -/
theorem State.Legal.with_pending {s : State} (h : s.Legal) (q : List Instr) : { s with pending := q }.Legal :=
  ⟨h.job, h.rl, h.tiles, h.ports, h.regions, h.stks⟩

/-- Settles O4: no mode is part of the queue, and every operation writes only modes that the spec names (`Kept.legal`). -/
theorem stepKeepsEveryModeLegal : Obligations.StepKeepsEveryModeLegal :=
  fun _ _ hlegal hstep => (step_kept hstep).legal (hlegal.with_pending _)

end Sys2Proof.Machine

/-! # How the command of a tile instruction ends before the instruction's body runs

All tile instructions share one shape (`tileInsn`): these lemmas say once what a stream fetches and what each early end leaves. -/

namespace Sys2Proof.Machine

/-! ## What a stream fetches -/

theorem State.running_of_mayIssue {s : State} {t : Nat} {q : Strm} (h : s.mayIssue t q = true) : s.job.js = 4 := by
  unfold State.mayIssue at h
  simp only [Bool.and_eq_true, decide_eq_true_eq] at h
  exact h.1.1.1.1.2

/-- A stream that may issue in its turn is not in the tick of a stop. -/
theorem State.sameTick_of_mayIssue {s : State} {t : Nat} {q : Strm} (h : (s.enter t q).mayIssue t q = true) :
    s.sameTick = false :=
  State.sameTick_of_runs ((s.enter_frame t q).1 ▸ State.running_of_mayIssue h)

section Fetch

variable {s : State} {t : Nat} {q : Strm}

theorem State.fetchAt_of_not_mayIssue (h : s.mayIssue t q = false) : s.fetchAt t q = .idle := by
  unfold State.fetchAt
  rw [if_pos (by rw [h]; rfl)]

/-- No breakpoint stops a stream where they are disabled, where it is halted, or where none is at its slot (R488). -/
theorem State.not_stopped_by_breakpoint
    (h : s.dbg.bpen = false ∨ (s.tile t).halted q = true ∨ (s.tile t).breakAt q ((s.tile t).slot q) = none) :
    ¬ (s.dbg.bpen && !(s.tile t).halted q && ((s.tile t).breakAt q ((s.tile t).slot q)).isSome) = true := by
  rcases h with h | h | h <;> simp [h]

variable (hmay : s.mayIssue t q = true)
include hmay

theorem State.fetchAt_past_partition (hq : q ≠ .x) (hpc : 64 * ((s.tile t).part q).2 ≤ (s.tile t).pc q) :
    s.fetchAt t q =
      .stop (s.tileFault t (Strm.code q) 0x02 ((s.tile t).pc q % 8192) ((s.tile t).seq q).last.toNat) := by
  unfold State.fetchAt
  rw [if_neg (by rw [hmay]; decide), if_pos hpc]
  cases q with
  | x => exact absurd rfl hq
  | f | b | u => rfl

variable (hpc : (s.tile t).pc q < 64 * ((s.tile t).part q).2)
include hpc

theorem State.fetchAt_breakpoint (hen : s.dbg.bpen = true) (hrun : (s.tile t).halted q = false)
    (hbp : ((s.tile t).breakAt q ((s.tile t).slot q)).isSome = true) :
    s.fetchAt t q = .stop ((s.modTile t fun x => x.haltBy q 0).debugEvent t 1 (Strm.code q) 0 0 ((s.tile t).slot q)) := by
  unfold State.fetchAt
  rw [if_neg (by rw [hmay]; decide), if_neg (Nat.not_le.2 hpc), if_pos (by rw [hen, hrun, hbp]; rfl)]

variable (hbreak : s.dbg.bpen = false ∨ (s.tile t).halted q = true ∨ (s.tile t).breakAt q ((s.tile t).slot q) = none)
include hbreak

theorem State.fetchAt_parity (hbad : (s.tile t).imBad.contains ((s.tile t).slot q) = true) :
    s.fetchAt t q = .stop (s.tileFault t (Strm.code q) 0x03 ((s.tile t).slot q) ((s.tile t).slot q)) := by
  unfold State.fetchAt
  rw [if_neg (by rw [hmay]; decide), if_neg (Nat.not_le.2 hpc), if_neg (State.not_stopped_by_breakpoint hbreak),
    if_pos hbad]

variable (hok : (s.tile t).imBad.contains ((s.tile t).slot q) = false)
include hok

theorem State.fetchAt_legal {w : Word} (hw : Map.get 0 (s.tile t).im ((s.tile t).slot q) = w) (hlegal : legal q w = true) :
    s.fetchAt t q = .insn (s.site t q w) := by
  subst hw
  unfold State.fetchAt
  rw [if_neg (by rw [hmay]; decide), if_neg (Nat.not_le.2 hpc), if_neg (State.not_stopped_by_breakpoint hbreak),
    if_neg (by rw [hok]; decide)]
  exact if_pos hlegal

theorem State.fetchAt_illegal (hlegal : legal q (Map.get 0 (s.tile t).im ((s.tile t).slot q)) = false) :
    s.fetchAt t q = .stop (s.tileFault t (Strm.code q) 0x01 0 ((s.tile t).slot q)) := by
  unfold State.fetchAt
  rw [if_neg (by rw [hmay]; decide), if_neg (Nat.not_le.2 hpc), if_neg (State.not_stopped_by_breakpoint hbreak),
    if_neg (by rw [hok]; decide)]
  exact if_neg (by rw [hlegal]; decide)

end Fetch

theorem State.Offers.fetchAt {s : State} {t : Nat} {q : Strm} {w : Word} (h : s.Offers t q w) :
    s.fetchAt t q = .insn (s.site t q w) :=
  State.fetchAt_legal h.may h.inPart h.noBreak h.parity h.word h.legal

/-! ## The early ends -/

section Ends

variable {s : State} {key t : Nat} {q : Strm} {regs : Word → List Nat} {body : Site → Tile → State → State}

theorem tileInsn_of_idle (ht : t < 2304) (hs : s.sameTick = false) (h : (s.enter t q).fetchAt t q = .idle) :
    tileInsn key t q s regs body = .next s := by
  unfold tileInsn
  rw [if_neg (Nat.not_le.2 ht), alongside_eq _ hs]
  dsimp only
  rw [h]

theorem tileInsn_of_stop {s' : State} (ht : t < 2304) (hs : s.sameTick = false) (h : (s.enter t q).fetchAt t q = .stop s') :
    tileInsn key t q s regs body = .next s' := by
  unfold tileInsn
  rw [if_neg (Nat.not_le.2 ht), alongside_eq _ hs]
  dsimp only
  rw [h]

/-- The tests that an offered instruction meets, in their order: its key, its predicate (R130), its registers (R48), its unit (R50),
its mark (R53). -/
theorem tileInsn_of_offers {e : State} {w : Word} (he : s.enter t q = e) (h : e.Offers t q w) :
    tileInsn key t q s regs body =
      if keyOf w ≠ key then .next s
      else if q ≠ .x ∧ ¬ ((e.tile t).seq q).predOk w = true then .next (e.issueSeq (e.site t q 0) id)
      else if (regs w).any (fun r => ((e.tile t).seq q).busy.contains r) = true then .next (e.stall (e.site t q w) 2)
      else if (e.waitMet t w && e.contended t q w) = true then .next (e.stall (e.site t q w) 0)
      else if bit w 51 = true ∧ 127 ≤ ((e.tile t).seq q).mark (fld w 47 4) then .next (e.stall (e.site t q w) 1)
      else .next (body (e.site t q w) (e.tile t) e) := by
  subst he
  unfold tileInsn
  rw [if_neg (Nat.not_le.2 h.unit), alongside_eq _ (State.sameTick_of_mayIssue h.may)]
  dsimp only
  rw [h.fetchAt]
  rfl

end Ends

/-! ## Which commands have that shape -/

/-- The outcome is that of the shape every tile instruction shares, with some registers to wait for and some body. -/
def RunsShape (key t : Nat) (q : Strm) (s : State) (o : Out) : Prop :=
  ∃ (regs : Word → List Nat) (body : Site → Tile → State → State), o = tileInsn key t q s regs body

section Shapes

variable {key t : Nat} {q : Strm} {s : State} {regs : Word → List Nat}

theorem tileInsn_shape {body : Site → Tile → State → State} : RunsShape key t q s (tileInsn key t q s regs body) := ⟨_, _, rfl⟩
theorem scalarOp_shape {f : Seq → Word → Word} : RunsShape key t q s (scalarOp key t q s regs f) := tileInsn_shape
theorem aluOp_shape {f : Word → Word → Word} : RunsShape key t q s (aluOp key t q s f) := scalarOp_shape
theorem predOp_shape {f : Seq → Word → Bool} : RunsShape key t q s (predOp key t q s regs f) := tileInsn_shape
theorem vecOp_shape : RunsShape key t q s (vecOp key t q s) := tileInsn_shape
theorem arrOp_shape : RunsShape key t q s (arrOp key t q s) := tileInsn_shape
theorem csOp_shape {store : Bool} : RunsShape key t q s (csOp key t q s store) := tileInsn_shape
theorem uniOp_shape {store : Bool} : RunsShape key t q s (uniOp key t q s store) := tileInsn_shape
theorem tallyIssue_shape {val : Seq → Word → Nat} : RunsShape key t q s (tallyIssue key t q s regs val) := tileInsn_shape
theorem queueInsn_shape {body : Site → Tile → Nat → State → State} : RunsShape key t q s (queueInsn key t q s regs body) :=
  tileInsn_shape
theorem qctlOp_shape : RunsShape key t q s (qctlOp key t q s) := queueInsn_shape
theorem coefOp_shape {wr : Bool} : RunsShape key t q s (coefOp key wr t q s) := tileInsn_shape
theorem xsendOp_shape {kind : Nat} : RunsShape key t .x s (xsendOp key kind t s) := tileInsn_shape

end Shapes

/-- Each instruction of X runs the shared shape with its key. -/
theorem xInsns_shape (t : Nat) (s : State) : ∀ e ∈ xInsns, RunsShape e.1 t .x s (exec (e.2 t) s) := by
  simp only [xInsns, List.forall_mem_cons]
  refine ⟨xsendOp_shape, xsendOp_shape, xsendOp_shape, ?_, ?_, ?_, ?_, ?_, ?_, fun _ h => absurd h List.not_mem_nil⟩
  all_goals
    unfold exec
    exact tileInsn_shape

/-- Each instruction of F, B and U runs the shared shape with its key. -/
theorem streamInsns_shape (t : Nat) (q : Strm) (s : State) :
    ∀ e ∈ streamInsns, RunsShape e.1 t q s (exec (e.2 t q) s) := by
  simp only [streamInsns, List.forall_mem_cons]
  unfold exec
  exact ⟨
    tileInsn_shape, tileInsn_shape, tileInsn_shape, tileInsn_shape, tileInsn_shape, tileInsn_shape, tileInsn_shape,
    tileInsn_shape, tileInsn_shape, aluOp_shape, aluOp_shape, aluOp_shape, aluOp_shape, aluOp_shape, aluOp_shape,
    aluOp_shape, aluOp_shape, aluOp_shape, aluOp_shape, aluOp_shape, scalarOp_shape, scalarOp_shape, scalarOp_shape,
    scalarOp_shape, predOp_shape, predOp_shape, predOp_shape, tileInsn_shape, tileInsn_shape, scalarOp_shape,
    tileInsn_shape, tileInsn_shape, vecOp_shape, vecOp_shape, vecOp_shape, vecOp_shape, vecOp_shape, vecOp_shape,
    vecOp_shape, vecOp_shape, vecOp_shape, vecOp_shape, vecOp_shape, vecOp_shape, vecOp_shape, vecOp_shape, arrOp_shape,
    arrOp_shape, arrOp_shape, arrOp_shape, arrOp_shape, arrOp_shape, tileInsn_shape, csOp_shape, csOp_shape, uniOp_shape,
    uniOp_shape, tallyIssue_shape, tallyIssue_shape, tileInsn_shape, tileInsn_shape, tileInsn_shape, tileInsn_shape,
    queueInsn_shape, queueInsn_shape, qctlOp_shape, qctlOp_shape, qctlOp_shape, tileInsn_shape, coefOp_shape,
    coefOp_shape,
    fun _ h => absurd h List.not_mem_nil⟩

/-- A two-operand arithmetic instruction waits for its registers D, A and B (R48). -/
theorem aluOp_waits {key t : Nat} {q : Strm} {s : State} {f : Word → Word → Word} :
    ∃ body, aluOp key t q s f = tileInsn key t q s (fun w => [fD w, fA w, fB w]) body := by
  unfold aluOp scalarOp
  exact ⟨_, rfl⟩

/-! ## Held instructions -/

section Held

variable {s : State} {key t : Nat} {q : Strm} {o : Out}

theorem RunsShape.next_of_not_mayIssue (h : RunsShape key t q s o) (ht : t < 2304) (hs : s.sameTick = false)
    (hmay : (s.enter t q).mayIssue t q = false) : o = .next s := by
  obtain ⟨regs, body, rfl⟩ := h
  exact tileInsn_of_idle ht hs (State.fetchAt_of_not_mayIssue hmay)

theorem RunsShape.next_of_stop {s' : State} (h : RunsShape key t q s o) (ht : t < 2304) (hs : s.sameTick = false)
    (hstop : (s.enter t q).fetchAt t q = .stop s') : o = .next s' := by
  obtain ⟨regs, body, rfl⟩ := h
  exact tileInsn_of_stop ht hs hstop

variable {e : State} {w : Word} (h : RunsShape key t q s o) (he : s.enter t q = e) (hoff : e.Offers t q w)
include h he hoff

theorem RunsShape.next_of_other_key (hkey : keyOf w ≠ key) : o = .next s := by
  obtain ⟨regs, body, rfl⟩ := h
  rw [tileInsn_of_offers he hoff, if_pos hkey]

variable (hkey : keyOf w = key)
include hkey

theorem RunsShape.noop_of_false_pred (hq : q ≠ .x) (hpred : ((e.tile t).seq q).predOk w = false) :
    o = .next (e.issueSeq (e.site t q 0) id) := by
  obtain ⟨regs, body, rfl⟩ := h
  rw [tileInsn_of_offers he hoff, if_neg (not_not.2 hkey), if_pos ⟨hq, by rw [hpred]; decide⟩]

variable (hpred : ((e.tile t).seq q).predOk w = true) (hready : ((e.tile t).seq q).busy = [])
include hpred hready

theorem RunsShape.stalls_of_contended (hmet : e.waitMet t w = true) (htaken : e.contended t q w = true) :
    o = .next (e.stall (e.site t q w) 0) := by
  obtain ⟨regs, body, rfl⟩ := h
  rw [tileInsn_of_offers he hoff, if_neg (not_not.2 hkey), if_neg (fun g => g.2 hpred), if_neg (by simp [hready]),
    if_pos (by rw [hmet, htaken]; rfl)]

theorem RunsShape.stalls_of_full_mark (hfree : (e.waitMet t w && e.contended t q w) = false) (hnames : bit w 51 = true)
    (hfull : 127 ≤ ((e.tile t).seq q).mark (fld w 47 4)) : o = .next (e.stall (e.site t q w) 1) := by
  obtain ⟨regs, body, rfl⟩ := h
  rw [tileInsn_of_offers he hoff, if_neg (not_not.2 hkey), if_neg (fun g => g.2 hpred), if_neg (by simp [hready]),
    if_neg (by rw [hfree]; decide), if_pos ⟨hnames, hfull⟩]

end Held

theorem add_stalls_of_busy_register {s e : State} {t : Nat} {q : Strm} {w : Word} (he : s.enter t q = e) (hoff : e.Offers t q w)
    (hkey : keyOf w = 0x100) (hpred : ((e.tile t).seq q).predOk w = true) (hbusy : fA w ∈ ((e.tile t).seq q).busy) :
    exec (.add t q) s = .next (e.stall (e.site t q w) 2) := by
  obtain ⟨body, h⟩ := aluOp_waits (s := s) (key := 0x100) (f := fun a b => a + b)
  rw [show exec (.add t q) s = aluOp 0x100 t q s fun a b => a + b from rfl, h, tileInsn_of_offers he hoff,
    if_neg (not_not.2 hkey), if_neg (fun g => g.2 hpred), if_pos (by simp [hbusy])]

/-- An instruction with a false predicate moves its stream on by one slot and changes nothing else (R130). -/
theorem State.issueSeq_id_issued (s : State) (t : Nat) (q : Strm) (hq : q ≠ .x) :
    s.Issued (s.issueSeq (s.site t q 0) id) t q (s.nextPc t q) 0 ((s.tile t).seq q) := by
  have hid : (id : Tile → Tile) = fun y => y.modSeq q id := by
    funext y
    cases q <;> rfl
  rw [hid]
  exact s.issueSeq_issued t q 0 id hq fun _ _ _ => rfl

/-- Settles O9: the early ends of the shape that every tile instruction shares, in the order of its tests. -/
theorem heldInstructionsChangeNothing : Obligations.HeldInstructionsChangeNothing := by
  unfold Obligations.HeldInstructionsChangeNothing
  refine ⟨fun s t ht hs => ⟨?_, ?_, ?_, ?_⟩, fun s₀ t q w hq => ?_⟩
  · exact fun e he q hmay => (streamInsns_shape t q s e he).next_of_not_mayIssue ht hs hmay
  · exact fun e he hmay => (xInsns_shape t s e he).next_of_not_mayIssue ht hs hmay
  · exact fun e he q w hoff hkey => (streamInsns_shape t q s e he).next_of_other_key rfl hoff hkey
  · exact fun e he w hoff hkey => (xInsns_shape t s e he).next_of_other_key rfl hoff hkey
  · intro s stall hoff
    refine ⟨fun e he hkey => ?_, fun hkey hpred hbusy => add_stalls_of_busy_register rfl hoff hkey hpred hbusy⟩
    have h := streamInsns_shape t q s₀ e he
    refine ⟨fun hpred => ⟨_, h.noop_of_false_pred rfl hoff hkey hq hpred, s.issueSeq_id_issued t q hq⟩,
      fun hpred hready => ⟨?_, ?_⟩⟩
    · exact h.stalls_of_contended rfl hoff hkey hpred hready
    · exact h.stalls_of_full_mark rfl hoff hkey hpred hready

end Sys2Proof.Machine

/-! # Toll admission (R57 to R63, R121) -/

namespace Sys2Proof.Machine

theorem State.tollRequest_job (s : State) (t : Nat) : (s.tollRequest t).job = s.job := by
  unfold State.tollRequest
  dsimp only
  split <;> rfl

/-- Whether a check of sounding mode is on is a register of the job (R500). -/
theorem State.soundChk_of_job {s s' : State} (h : s'.job = s.job) (i : Nat) : s'.soundChk i = s.soundChk i := by
  unfold State.soundChk
  rw [h]

section Refused

variable (s : State) (t : Nat)

theorem State.tollRefused_tiles : (s.tollRefused t).tiles = (s.countTile t 0x200 1).tiles := by
  unfold State.tollRefused
  dsimp only
  split <;> rfl

theorem State.tollRefused_cluster : (s.tollRefused t).cluster (clusterOf t) =
    if (s.cluster (clusterOf t)).tollAt = s.cycle + 1 then s.cluster (clusterOf t)
    else { s.cluster (clusterOf t) with ctr := ctrAdd (s.cluster (clusterOf t)).ctr 0x48 1, tollAt := s.cycle + 1 } := by
  unfold State.tollRefused
  dsimp only
  split
  · rfl
  · rw [State.modCluster_cluster_self, State.countCluster, State.modCluster_cluster_self]
    rfl

theorem State.tollRefused_cluster_held : ((s.tollRefused t).cluster (clusterOf t)).held = (s.cluster (clusterOf t)).held := by
  rw [State.tollRefused_cluster]
  split <;> rfl

theorem State.tollRefused_cluster_tollAt : ((s.tollRefused t).cluster (clusterOf t)).tollAt = s.cycle + 1 := by
  rw [State.tollRefused_cluster]
  split
  · assumption
  · rfl

/-- The cluster counts each waiting cycle once (R63). -/
theorem State.tollRefused_cluster_ctr : Map.get 0 ((s.tollRefused t).cluster (clusterOf t)).ctr 0x48 =
    Map.get 0 (s.cluster (clusterOf t)).ctr 0x48 + (if (s.cluster (clusterOf t)).tollAt = s.cycle + 1 then 0 else 1) := by
  rw [State.tollRefused_cluster]
  split
  · exact (BitVec.add_zero _).symm
  · exact Map.get_set_self _ _ _ _

end Refused

/-- The operations of tile `t` numbered `id` changed by `f`. -/
def State.modArrOp (s : State) (t id : Nat) (f : Op → Op) : State :=
  s.modTile t fun y => y.modIo fun io => { io with arr := io.arr.map fun p => if p.id = id then f p else p }

/-- The state in which operation `o` at the head of tile `t`'s array queue has got its units (R60). -/
def State.tollGranted (s : State) (t : Nat) (o : Op) : State :=
  ((s.modArrOp t o.id fun p => { p with go := true, at_ := s.cycle + 1 }).modTile t fun y =>
    { y with cyc := { y.cyc with tollG := s.cycle + 1 }, io := { y.io with toll := y.io.toll + tollW o.w } }).modCluster (clusterOf t)
      fun k => { k with held := k.held + tollW o.w, heldMax := max k.heldMax (k.held + tollW o.w) }

section Grant

variable {s : State} {t : Nat} (ht : t < 2304) (hs : s.sameTick = false)
include ht hs

theorem tollGrant_of_no_head (h : ((s.tollRequest t).tile t).arrHead (s.tollRequest t).cycle = none) :
    exec (.tollGrant t) s = .next s := by
  show execTollGrant t s = _
  unfold execTollGrant
  rw [if_neg (Nat.not_le.2 ht), alongside_eq _ hs]
  dsimp only
  rw [h]

/-- The three outcomes of a request (R58 to R61, R63), with the check of sounding mode off. -/
theorem tollGrant_of_head {e : State} (he : s.tollRequest t = e) {o : Op} (h : (e.tile t).arrHead e.cycle = some o)
    (hsound : e.soundChk 3 = false) :
    exec (.tollGrant t) s = .next
      (if (e.cluster (clusterOf t)).cap < tollW o.w then
        e.tileFault t (Strm.code o.q) 0x06 (tollW o.w + (e.cluster (clusterOf t)).cap * 256) o.pc
      else if (e.cluster (clusterOf t)).cap < e.tollTaken (clusterOf t) + e.tollBefore t + tollW o.w then
        (e.modArrOp t o.id fun p => { p with wait := p.wait + 1 }).tollRefused t
      else e.tollGranted t o) := by
  subst he
  rw [State.soundChk_of_job (s.tollRequest_job t)] at hsound
  show execTollGrant t s = _
  unfold execTollGrant
  rw [if_neg (Nat.not_le.2 ht), alongside_eq _ hs]
  dsimp only
  rw [h]
  dsimp only
  by_cases hcap : ((s.tollRequest t).cluster (clusterOf t)).cap < tollW o.w
  · rw [if_pos hcap, if_pos hcap]
  rw [if_neg hcap, if_neg hcap]
  by_cases hneed : ((s.tollRequest t).cluster (clusterOf t)).cap <
      (s.tollRequest t).tollTaken (clusterOf t) + (s.tollRequest t).tollBefore t + tollW o.w
  · rw [if_pos hneed, if_pos hneed]
    rfl
  rw [if_neg hneed, if_neg hneed, if_neg fun g => by rw [hsound] at g; exact absurd g.1 (by decide)]
  rfl

end Grant

/-! ## What a request that is not granted, and one that is, leave -/

theorem State.modArrOp_tile (s : State) (t id : Nat) (f : Op → Op) : (s.modArrOp t id f).tile t =
    (s.tile t).modIo fun io => { io with arr := io.arr.map fun p => if p.id = id then f p else p } :=
  State.modTile_tile_self _ _ _

theorem State.tollRefused_tile (s : State) (t : Nat) : (s.tollRefused t).tile t = (s.tile t).count 0x200 1 := by
  rw [State.tile, State.tollRefused_tiles]
  exact State.modTile_tile_self _ _ _

theorem State.tollRefused_tile_ne (s : State) (t u : Nat) (h : u ≠ t) : (s.tollRefused t).tile u = s.tile u := by
  rw [State.tile, State.tollRefused_tiles]
  exact State.modTile_tile_ne _ _ _ _ h

/-- A change that leaves the `go` bits of the operations leaves those of a list in which one is changed. -/
theorem map_go_of_modOp (l : List Op) (id : Nat) (f : Op → Op) (hf : ∀ p, (f p).go = p.go) :
    (l.map fun p => if p.id = id then f p else p).map (·.go) = l.map (·.go) := by
  rw [List.map_map]
  refine List.map_congr_left fun p _ => ?_
  show (if p.id = id then f p else p).go = p.go
  split
  · exact hf p
  · rfl

theorem State.tollGranted_tile (s : State) (t : Nat) (o : Op) : (s.tollGranted t o).tile t =
    { (s.tile t) with
      cyc := { (s.tile t).cyc with tollG := s.cycle + 1 }
      io := { (s.tile t).io with
        arr := (s.tile t).io.arr.map fun p => if p.id = o.id then { p with go := true, at_ := s.cycle + 1 } else p
        toll := (s.tile t).io.toll + tollW o.w } } := by
  rw [State.tollGranted, State.modCluster_tile, State.modTile_tile_self, State.modArrOp_tile]
  rfl

theorem State.tollGranted_tile_ne (s : State) (t u : Nat) (o : Op) (h : u ≠ t) : (s.tollGranted t o).tile u = s.tile u := by
  rw [State.tollGranted, State.modCluster_tile, State.modTile_tile_ne _ _ _ _ h, State.modArrOp, State.modTile_tile_ne _ _ _ _ h]

theorem State.tollGranted_cluster (s : State) (t : Nat) (o : Op) : (s.tollGranted t o).cluster (clusterOf t) =
    { s.cluster (clusterOf t) with
      held := (s.cluster (clusterOf t)).held + tollW o.w
      heldMax := max (s.cluster (clusterOf t)).heldMax ((s.cluster (clusterOf t)).held + tollW o.w) } := by
  rw [State.tollGranted, State.modCluster_cluster_self]
  rfl

theorem State.tollGranted_cluster_ne (s : State) (t k : Nat) (o : Op) (h : k ≠ clusterOf t) :
    (s.tollGranted t o).cluster k = s.cluster k := by
  rw [State.tollGranted, State.modCluster_cluster_ne _ _ _ _ h]
  rfl

/-- Settles O22: the three outcomes of a request; what a refused one counts and what a granted one takes. -/
theorem tollAdmission : Obligations.TollAdmission := by
  unfold Obligations.TollAdmission
  intro s₀ t ht hs s
  have he : s₀.tollRequest t = s := rfl
  clear_value s
  refine ⟨fun h => tollGrant_of_no_head ht hs (he ▸ h), fun o ho hsound => ?_⟩
  have h := tollGrant_of_head ht hs he ho hsound
  refine ⟨fun hcap => ?excess, fun hcap hlack => ?refused, fun hfits => ?granted⟩
  case excess => rw [h, if_pos hcap]
  case refused =>
    replace hlack : (s.cluster (clusterOf t)).cap < s.tollTaken (clusterOf t) + s.tollBefore t + tollW o.w := hlack
    refine ⟨_, by rw [h, if_neg (Nat.not_lt.2 hcap), if_pos hlack], ?_, ?_, ?_, ?_, ?_, ?_, ?_, fun u hu => ?_⟩
    · rw [State.tollRefused_tile, State.modArrOp_tile]
      exact Tile.countSelf _ _ _
    · exact State.tollRefused_cluster_ctr _ t
    · exact State.tollRefused_cluster_tollAt _ t
    · exact State.tollRefused_cluster_held _ t
    · rw [State.tollRefused_tile, State.modArrOp_tile]
      exact map_go_of_modOp _ _ _ fun _ => rfl
    · rw [State.tollRefused_tile, State.modArrOp_tile]
      rfl
    · rw [State.tollRefused_tile, State.modArrOp_tile]
      rfl
    · rw [State.tollRefused_tile_ne _ _ _ hu, State.modArrOp, State.modTile_tile_ne _ _ _ _ hu]
  case granted =>
    replace hfits : s.tollTaken (clusterOf t) + s.tollBefore t + tollW o.w ≤ (s.cluster (clusterOf t)).cap := hfits
    have hcap : ¬ (s.cluster (clusterOf t)).cap < tollW o.w := by omega
    refine ⟨_, by rw [h, if_neg hcap, if_neg (Nat.not_lt.2 hfits)], ?_, ?_, ?_, ?_, ?_, ?_, ?_, fun u hu => ?_, fun k hk => ?_⟩
    · rw [State.tollGranted_cluster]
    · rw [State.tollGranted_cluster]
    · rw [State.tollGranted_tile]
    · rw [State.tollGranted_tile]
    · rw [State.tollGranted_tile]
    · rw [State.tollGranted_tile]
    · rw [State.tollGranted_tile]
    · exact s.tollGranted_tile_ne t u o hu
    · exact s.tollGranted_cluster_ne t k o hk

end Sys2Proof.Machine

/-! # What a tile fault leaves (R4, R22, R23, R67 to R69) -/

namespace Sys2Proof.Machine

/-! ## Tiles that may stop -/

/-- A tile that stops, is fenced, loses operations or memory, but keeps its recorded fault and the place of its streams. -/
structure Tile.Stays (x y : Tile) : Prop where
  fault : y.fault = x.fault
  pc : ∀ q, y.pc q = x.pc q
  st : y.st = x.st ∨ y.st = 8 ∨ y.st = 9

theorem Tile.Stays.refl (x : Tile) : x.Stays x := ⟨rfl, fun _ => rfl, .inl rfl⟩

theorem Tile.Stays.trans {x y z : Tile} (h : x.Stays y) (g : y.Stays z) : x.Stays z :=
  ⟨g.fault.trans h.fault, fun q => (g.pc q).trans (h.pc q), g.st.elim (fun e => e ▸ h.st) .inr⟩

/-- A change of neither the fault, the sequencers nor the state. -/
theorem Tile.Stays.of_eq {x y : Tile} (hfault : y.fault = x.fault) (hsq : y.sq = x.sq) (hst : y.st = x.st) : x.Stays y := by
  refine ⟨hfault, fun q => ?_, .inl hst⟩
  unfold Tile.pc Tile.seq
  rw [hsq]

theorem Tile.Stays.foldl {β : Type} {f : Tile → β → Tile} (hf : ∀ (x : Tile) b, x.Stays (f x b)) (l : List β) (x : Tile) :
    x.Stays (l.foldl f x) := by
  induction l generalizing x with
  | nil => exact .refl x
  | cons b l ih => exact (hf x b).trans (ih _)

theorem Tile.partDone_stays (x : Tile) (free : Nat) (o : Op) (i : Nat) : x.Stays (x.partDone free o i) := by
  unfold Tile.partDone
  split
  · dsimp only
    split <;> exact .of_eq rfl rfl rfl
  · exact .refl x

theorem Tile.scramble_stays (x : Tile) (free : Nat) (a : Acc) (i : Nat) : x.Stays (x.scramble free a i) := by
  unfold Tile.scramble
  split <;> exact .of_eq rfl rfl rfl

/-- The registers of a sequencer that become unpredictable do not include its program counter. -/
theorem Tile.scrambleOp_stays (x : Tile) (free : Nat) (o : Op) (i : Nat) : x.Stays (x.scrambleOp free o i) := by
  unfold Tile.scrambleOp
  dsimp only
  split
  · split
    · exact .refl x
    · split
      all_goals exact ⟨rfl, fun q => by cases q <;> rfl, .inl rfl⟩
  · repeat' split
    all_goals exact .of_eq rfl rfl rfl

theorem Tile.stop_stays (x : Tile) (free : Nat) : x.Stays (x.stop free) := by
  unfold Tile.stop
  extract_lets x0 x1 x2 y
  have h0 : x.Stays x0 := .foldl (fun y (p : Op × Nat) => y.partDone_stays free p.1 p.2) _ _
  have h1 : x0.Stays x1 := .foldl (fun y (p : Acc × Nat) => y.scramble_stays free p.1 p.2) _ _
  have h2 : x1.Stays x2 := .foldl (fun y (p : _ × Nat) => y.scramble_stays free _ (2 ^ 20 + p.2)) _ _
  have h3 : x2.Stays y := .foldl (fun y (p : Op × Nat) => y.scrambleOp_stays free p.1 p.2) _ _
  have h := h0.trans (h1.trans (h2.trans h3))
  exact ⟨h.fault, h.pc, .inr (.inl rfl)⟩

theorem Tile.stop_st (x : Tile) (free : Nat) : (x.stop free).st = 8 := rfl

/-! ## Operations that leave the units of a job -/

/-- Everything but what a fault tells to others: the tiles, the job, the fence map and the free values are as before. -/
structure State.SameUnits (a b : State) : Prop where
  tiles : b.tiles = a.tiles
  job : b.job = a.job
  rel : b.rel = a.rel
  free : b.free = a.free

theorem State.SameUnits.refl (a : State) : a.SameUnits a := ⟨rfl, rfl, rfl, rfl⟩

theorem State.SameUnits.trans {a b c : State} (h : a.SameUnits b) (g : b.SameUnits c) : a.SameUnits c :=
  ⟨g.tiles.trans h.tiles, g.job.trans h.job, g.rel.trans h.rel, g.free.trans h.free⟩

theorem State.SameUnits.tile {a b : State} (h : a.SameUnits b) (u : Nat) : b.tile u = a.tile u := by
  unfold State.tile
  rw [h.tiles]

theorem State.SameUnits.foldl {β : Type} {f : State → β → State} (hf : ∀ (s : State) b, s.SameUnits (f s b))
    (l : List β) (s : State) : s.SameUnits (l.foldl f s) := by
  induction l generalizing s with
  | nil => exact .refl s
  | cons b l ih => exact (hf s b).trans (ih _)

section Telling

variable (s : State)

theorem State.sendAlong_sameUnits (es : List (Nat × Nat × Nat)) (mk : Nat → Sym) : s.SameUnits (s.sendAlong es mk) :=
  ⟨by simp, by simp, by simp, by simp⟩

theorem State.fixTrigger_sameUnits (src : Nat) (j : Bool) : s.SameUnits (s.fixTrigger src j) := by
  unfold State.fixTrigger
  extract_lets d wide far at_ s1
  split
  · exact .refl s
  · split
    · exact .trans (b := s1) ⟨rfl, rfl, rfl, rfl⟩ (s1.sendAlong_sameUnits _ _)
    · exact ⟨rfl, rfl, rfl, rfl⟩

theorem State.complete_sameUnits (k st : Nat) (ws : List Word) : s.SameUnits (s.complete k st ws) :=
  ⟨by simp, by simp, by simp, by simp⟩

theorem State.stepLost_sameUnits : s.SameUnits s.stepLost := by
  unfold State.stepLost
  extract_lets s1
  split
  · split
    · exact .trans (b := s1) ⟨rfl, rfl, rfl, rfl⟩ (s1.complete_sameUnits _ _ _)
    · exact ⟨rfl, rfl, rfl, rfl⟩
  · exact .refl s

theorem State.alert_sameUnits (b : Nat) : s.SameUnits (s.alert b) := by
  unfold State.alert
  split
  · exact .refl s
  · exact ⟨by simp, by simp, by simp, by simp⟩

theorem State.event_sameUnits (opc : Nat) (ws : List Word) : s.SameUnits (s.event opc ws) :=
  ⟨by simp, by simp, by simp, by simp⟩

theorem State.raiseMsi_sameUnits (v : Nat) : s.SameUnits (s.raiseMsi v) := ⟨by simp, by simp, by simp, by simp⟩

theorem State.stopStore_sameUnits (x : Xfer) (i : Nat) (keep : Option Nat) : s.SameUnits (s.stopStore x i keep) := by
  unfold State.stopStore
  extract_lets base cfg l
  split
  · exact .foldl (fun s b => (⟨rfl, rfl, rfl, rfl⟩ : s.SameUnits (s.modStk _ _))) _ _
  · exact .refl s

end Telling

/-! ## The stop of the job -/

/-- Every tile stays in the sense of `Tile.Stays`, and the job is as before. -/
structure State.TilesStay (a b : State) : Prop where
  tile : ∀ u, (a.tile u).Stays (b.tile u)
  job : b.job = a.job

theorem State.TilesStay.refl (a : State) : a.TilesStay a := ⟨fun _ => .refl _, rfl⟩

theorem State.TilesStay.trans {a b c : State} (h : a.TilesStay b) (g : b.TilesStay c) : a.TilesStay c :=
  ⟨fun u => (h.tile u).trans (g.tile u), g.job.trans h.job⟩

theorem State.SameUnits.tilesStay {a b : State} (h : a.SameUnits b) : a.TilesStay b :=
  ⟨fun u => h.tile u ▸ .refl _, h.job⟩

theorem State.TilesStay.foldl {β : Type} {f : State → β → State} (hf : ∀ (s : State) b, s.TilesStay (f s b))
    (l : List β) (s : State) : s.TilesStay (l.foldl f s) := by
  induction l generalizing s with
  | nil => exact .refl s
  | cons b l ih => exact (hf s b).trans (ih _)

theorem State.modTile_tilesStay (s : State) (t : Nat) (f : Tile → Tile) (hf : ∀ x : Tile, x.Stays (f x)) :
    s.TilesStay (s.modTile t f) := by
  refine ⟨fun u => ?_, rfl⟩
  rw [State.modTile_tile]
  split
  · next h => exact h ▸ hf _
  · exact .refl _

theorem State.modCluster_tilesStay (s : State) (c : Nat) (f : Cluster → Cluster) : s.TilesStay (s.modCluster c f) :=
  ⟨fun _ => .refl _, rfl⟩

theorem State.modRel_tilesStay (s : State) (f : Rel → Rel) : s.TilesStay (s.modRel f) := ⟨fun _ => .refl _, rfl⟩

/-- The stores to HBM of a tile stop (R69, R207). -/
def State.stopStores (s : State) (t : Nat) : State := ((s.tile t).io.tags.zipIdx).foldl (fun s p => s.stopStore p.1 p.2) s

theorem State.stopStores_sameUnits (s : State) (t : Nat) : s.SameUnits (s.stopStores t) :=
  .foldl (f := fun s (p : Xfer × Nat) => s.stopStore p.1 p.2) (fun s p => s.stopStore_sameUnits p.1 p.2 none) _ s

/-- One tile of the job stops: its stores to HBM first, then the tile (R69). -/
def State.stopTile (s : State) (t : Nat) : State := ((s.stopStores t).modTile t fun x => x.stop s.free).took

section StopTile

variable (s : State) (t : Nat)

theorem State.stopTile_tile : (s.stopTile t).tile t = (s.tile t).stop s.free := by
  rw [State.stopTile, State.took_tile, State.modTile_tile_self, (s.stopStores_sameUnits t).tile]

theorem State.stopTile_tilesStay : s.TilesStay (s.stopTile t) :=
  have h : (s.stopStores t).TilesStay ((s.stopStores t).modTile t fun x => x.stop s.free) :=
    State.modTile_tilesStay _ t _ fun x => x.stop_stays _
  (s.stopStores_sameUnits t).tilesStay.trans (h.trans ⟨fun _ => .refl _, rfl⟩)

theorem State.stopTile_rel : (s.stopTile t).rel = s.rel := (s.stopStores_sameUnits t).rel

theorem State.stopTile_free : (s.stopTile t).free = s.free + 1 := congrArg (· + 1) (s.stopStores_sameUnits t).free

end StopTile

/-- A tile whose state is 8 or 9 (stopped or fenced, R66). -/
theorem Tile.Stays.stopped {x y : Tile} (h : x.Stays y) (hx : x.st = 8 ∨ x.st = 9) : y.st = 8 ∨ y.st = 9 :=
  h.st.elim (fun e => e ▸ hx) id

theorem State.forAll_stopTile_stopped (l : List Nat) (s : State) {u : Nat} (h : u ∈ l) :
    ((s.forAll l State.stopTile).tile u).st = 8 ∨ ((s.forAll l State.stopTile).tile u).st = 9 := by
  induction l generalizing s with
  | nil => cases h
  | cons t l ih =>
    rcases List.mem_cons.1 h with rfl | h
    · have hl : (s.stopTile u).TilesStay ((s.stopTile u).forAll l State.stopTile) := .foldl State.stopTile_tilesStay l _
      exact (hl.tile u).stopped (.inl (by rw [s.stopTile_tile]; rfl))
    · exact ih _ h

/-- What `stopJob` has done before it tells others: tiles and clusters are stopped, the job's own record says so. -/
def State.stopUnits (s : State) : State :=
  ((s.forAll s.job.tiles State.stopTile).forAll s.job.clusters fun s c =>
    s.modCluster c fun x => { x.countWait s.cycle with waiting := [] }).modJob fun j => { j with
      js := 6, startPend := false
      shadow := if j.js = 4 then s.tiles else [], shadowAt := s.power.exc + 1
      wave := { j.wave with pauseReq := 0, haltReq := 0, pausePages := [], oneStep := false } }

theorem State.stopJob_sameUnits (s : State) : s.stopUnits.sightCut.SameUnits s.stopJob := by
  unfold State.stopJob
  extract_lets s1 s2 waiting s3 s4 s5
  have h3 : s3 = s.stopUnits := rfl
  have h5 : s.stopUnits.sightCut.SameUnits s5 := h3 ▸ ⟨rfl, rfl, rfl, rfl⟩
  have h6 : s5.SameUnits (waiting.foldl (fun s k => s.complete k 0x0E []) s5) :=
    .foldl (fun s k => s.complete_sameUnits k 0x0E []) _ _
  exact h5.trans (h6.trans (State.stepLost_sameUnits _))

/-- What the stop of the clusters leaves: the job, the tiles, the fence map and the free values. -/
theorem State.stopClusters_sameUnits (s : State) (l : List Nat) : s.SameUnits (s.forAll l fun s c =>
    s.modCluster c fun x => { x.countWait s.cycle with waiting := [] }) :=
  .foldl (f := fun s c => s.modCluster c fun x => { x.countWait s.cycle with waiting := [] }) (fun _ _ => ⟨rfl, rfl, rfl, rfl⟩) l s

theorem State.stopUnits_tile (s : State) (u : Nat) : s.stopUnits.tile u = (s.forAll s.job.tiles State.stopTile).tile u :=
  (State.stopClusters_sameUnits _ s.job.clusters).tile u

theorem State.forAll_stopTile_tilesStay (s : State) (l : List Nat) : s.TilesStay (s.forAll l State.stopTile) :=
  .foldl State.stopTile_tilesStay l s

theorem Tile.wild_stays (x : Tile) (free t : Nat) : x.Stays (x.wild free t) := by
  unfold Tile.wild
  exact .of_eq rfl rfl rfl

theorem State.wildUnits_tilesStay (s : State) (tiles clusters_ : List Nat) : s.TilesStay (s.wildUnits tiles clusters_) := by
  unfold State.wildUnits
  extract_lets s1
  have h1 : s.TilesStay s1 := by
    refine .foldl (fun s t => ?_) _ _
    split
    · exact .refl s
    · exact s.modTile_tilesStay t _ fun x => x.wild_stays _ _
  exact h1.trans (.foldl (fun s c => s.modCluster_tilesStay c _) _ _)

theorem State.sightCut_tilesStay (s : State) : s.TilesStay s.sightCut := by
  unfold State.sightCut
  split
  · exact (s.wildUnits_tilesStay _ _).trans ⟨fun _ => .refl _, rfl⟩
  · exact .refl s

section StopJob

variable (s : State)

theorem State.stopJob_job : s.stopJob.job = s.stopUnits.job :=
  s.stopJob_sameUnits.job.trans s.stopUnits.sightCut_tilesStay.job

theorem State.stopJob_js : s.stopJob.job.js = 6 := by
  rw [State.stopJob_job]
  rfl

theorem State.stopJob_prim : s.stopJob.job.prim = s.job.prim := by
  rw [State.stopJob_job]
  show ((s.forAll s.job.tiles State.stopTile).forAll s.job.clusters _).job.prim = _
  rw [(State.stopClusters_sameUnits _ _).job, (s.forAll_stopTile_tilesStay _).job]

theorem State.stopJob_tile (u : Nat) : (s.tile u).Stays (s.stopJob.tile u) := by
  have h := (s.forAll_stopTile_tilesStay s.job.tiles).tile u
  rw [← s.stopUnits_tile] at h
  rw [s.stopJob_sameUnits.tile]
  exact h.trans (s.stopUnits.sightCut_tilesStay.tile u)

theorem State.stopJob_stopped {u : Nat} (h : u ∈ s.job.tiles) : (s.stopJob.tile u).st = 8 ∨ (s.stopJob.tile u).st = 9 := by
  have hu := State.forAll_stopTile_stopped s.job.tiles s h
  rw [← s.stopUnits_tile] at hu
  rw [s.stopJob_sameUnits.tile]
  exact (s.stopUnits.sightCut_tilesStay.tile u).stopped hu

end StopJob

/-! ## The job fault -/

/-- The primary cause that a fault of this member at the present time records (R23). -/
def State.primOf (s : State) (level unit cause detail origin : Nat) : Prim :=
  { valid := true, level := level, unit := unit, cause := cause, detail := detail, time := s.now, origin := origin }

/-- A fault of this member in a running job: the job stops with this cause; then it is told. -/
theorem State.jobFault_sameUnits {s : State} (level unit cause detail origin : Nat)
    (himg : s.job.img.isSome = true) (hjs : s.job.js ≠ 6) :
    ∃ m : State, (s.modJob fun j => { j with prim := s.primOf level unit cause detail origin }).SameUnits m ∧
      m.stopJob.SameUnits (s.jobFault level unit cause detail origin none) := by
  unfold State.jobFault
  rw [if_neg (by rw [← Option.not_isSome, himg]; decide)]
  extract_lets q s1 code s2 s3
  rw [if_neg hjs]
  refine ⟨s2.fixTrigger 2 true, ?_, ?_⟩
  · exact (s1.sendAlong_sameUnits _ _).trans (s2.fixTrigger_sameUnits _ _)
  · exact (s3.raiseMsi_sameUnits 64).trans (((s3.raiseMsi 64).alert_sameUnits 4).trans (State.event_sameUnits _ _ _))

/-- A fault after the stop of the job is a further one (R23). -/
theorem State.jobFault_further {s : State} {level unit cause detail origin : Nat} {skip : Option Nat} (himg : s.job.img.isSome = true)
    (hjs : s.job.js = 6) (hprim : s.job.prim.valid = true) :
    s.jobFault level unit cause detail origin skip =
      s.modJob fun j => { j with prim := j.prim.merge (s.primOf level unit cause detail origin) } := by
  unfold State.jobFault
  rw [if_neg (by rw [← Option.not_isSome, himg]; decide)]
  extract_lets q s1 code s2 s3
  rw [if_pos hjs, if_pos hprim]
  rfl

section JobFault

variable {s : State} {level unit cause detail origin : Nat} (himg : s.job.img.isSome = true) (hjs : s.job.js ≠ 6)
include himg hjs

theorem State.jobFault_js : (s.jobFault level unit cause detail origin none).job.js = 6 := by
  obtain ⟨m, -, h⟩ := State.jobFault_sameUnits level unit cause detail origin himg hjs
  rw [h.job, m.stopJob_js]

theorem State.jobFault_prim :
    (s.jobFault level unit cause detail origin none).job.prim = s.primOf level unit cause detail origin := by
  obtain ⟨m, hm, h⟩ := State.jobFault_sameUnits level unit cause detail origin himg hjs
  rw [h.job, m.stopJob_prim, hm.job]
  rfl

theorem State.jobFault_tile (u : Nat) : (s.tile u).Stays ((s.jobFault level unit cause detail origin none).tile u) := by
  obtain ⟨m, hm, h⟩ := State.jobFault_sameUnits level unit cause detail origin himg hjs
  have hu := m.stopJob_tile u
  rw [hm.tile] at hu
  rw [h.tile]
  exact hu

theorem State.jobFault_stopped {u : Nat} (hu : u ∈ s.job.tiles) :
    ((s.jobFault level unit cause detail origin none).tile u).st = 8 ∨
      ((s.jobFault level unit cause detail origin none).tile u).st = 9 := by
  obtain ⟨m, hm, h⟩ := State.jobFault_sameUnits level unit cause detail origin himg hjs
  rw [h.tile]
  refine m.stopJob_stopped ?_
  rw [hm.job]
  exact hu

end JobFault

/-! ## The tile fault -/

/-- A fault of tile `t` is recorded in the tile, the first one whole (R67), and noted in the levels above (R445). -/
def State.noteTileFault (s : State) (t stream cause detail pc : Nat) : State :=
  ((s.modTile t fun x => { x with
    fault := tileFaultWord x.fault stream cause detail pc
    faultTime := if bit x.fault 63 then x.faultTime else BitVec.ofNat 64 s.now
    cyc := if bit x.fault 63 then x.cyc else { x.cyc with faultAt := s.cycle + 1 } }).modCluster (clusterOf t) fun x =>
      { x with fault := x.fault ||| place 61 1 1 }).noteRegion (regionOf t)

/-- What the cause of a fault of tile `t` adds to the evidence against it (R457). -/
def State.weighTileFault (s : State) (t cause : Nat) : State :=
  if cause = 0x0C then s.fenceDecide (0, t)
  else if cause = 0x03 ∨ cause = 0x05 then
    if (s.evidence 0 t).2 then (s.evidence 0 t).1.fenceDecide (0, t) else (s.evidence 0 t).1
  else s

/-- The state in which the fault of a tile is raised as a job fault: it is recorded, and its evidence weighed. -/
def State.raised (s : State) (t stream cause detail pc : Nat) : State :=
  (s.noteTileFault t stream cause detail pc).weighTileFault t cause

theorem State.tileFault_eq {s : State} {t k cause detail pc : Nat} (himg : s.job.img.isSome = true) (ht : t ∈ s.job.tiles) :
    s.tileFault t k cause detail pc = (s.raised t k cause detail pc).jobFault 0 t cause detail s.modid none := by
  unfold State.tileFault
  extract_lets s1 s2 s3
  rw [if_pos (by rw [himg, List.contains_iff_mem.2 ht]; rfl)]
  rfl

theorem State.fence_tilesStay (s : State) (d : Nat × Nat) : s.TilesStay (s.fence d) := by
  unfold State.fence
  extract_lets s1
  have hst : ∀ x : Tile, x.Stays { x with st := 9 } := fun _ => ⟨rfl, fun _ => rfl, .inr (.inr rfl)⟩
  have h1 : s.TilesStay s1 := s.modRel_tilesStay _
  split
  · exact h1.trans ((s1.modRel_tilesStay _).trans (State.modTile_tilesStay _ _ _ hst))
  · exact h1.trans ((s1.modRel_tilesStay _).trans (.foldl (fun s t => s.modTile_tilesStay t _ hst) _ _))
  · exact h1.trans (s1.modRel_tilesStay _)
  · exact h1.trans (s1.modRel_tilesStay _)

theorem State.commitFences_tilesStay (s : State) : s.TilesStay s.commitFences := by
  unfold State.commitFences
  split
  · refine .foldl (fun s d => ?_) _ _
    split
    · exact .refl s
    · exact s.fence_tilesStay d
  · exact .refl s

theorem State.fenceDecide_tilesStay (s : State) (d : Nat × Nat) : s.TilesStay (s.fenceDecide d) := by
  unfold State.fenceDecide
  split
  · exact s.commitFences_tilesStay
  · exact (s.modRel_tilesStay _).trans (State.commitFences_tilesStay _)

theorem State.evidence_tilesStay (s : State) (kind unit : Nat) : s.TilesStay (s.evidence kind unit).1 := by
  unfold State.evidence
  exact ⟨fun _ => .refl _, rfl⟩

theorem State.weighTileFault_tilesStay (s : State) (t cause : Nat) : s.TilesStay (s.weighTileFault t cause) := by
  unfold State.weighTileFault
  split
  · exact s.fenceDecide_tilesStay _
  · split
    · split
      · exact (s.evidence_tilesStay 0 t).trans (State.fenceDecide_tilesStay _ _)
      · exact s.evidence_tilesStay 0 t
    · exact .refl s

section NoteTileFault

variable (s : State) (t k cause detail pc : Nat)

theorem State.noteTileFault_job : (s.noteTileFault t k cause detail pc).job = s.job := rfl

theorem State.noteTileFault_tile_fault :
    ((s.noteTileFault t k cause detail pc).tile t).fault = tileFaultWord (s.tile t).fault k cause detail pc := by
  rw [State.noteTileFault, State.noteRegion, State.modRel_tile, State.modRegion_tile, State.modCluster_tile, State.modTile_tile_self]

theorem State.noteTileFault_tile_pc (q : Strm) : ((s.noteTileFault t k cause detail pc).tile t).pc q = (s.tile t).pc q := by
  rw [State.noteTileFault, State.noteRegion, State.modRel_tile, State.modRegion_tile, State.modCluster_tile, State.modTile_tile_self]
  cases q <;> rfl

end NoteTileFault

theorem State.raised_job (s : State) (t k cause detail pc : Nat) : (s.raised t k cause detail pc).job = s.job :=
  (State.weighTileFault_tilesStay _ t cause).job

section TileFault

variable {s : State} {t k cause detail pc : Nat} (himg : s.job.img.isSome = true) (ht : t ∈ s.job.tiles)
include himg ht

/-- A fault in the tick of the stop leaves the job stopped, adds to the further faults, and is recorded in its tile (R23, R67). -/
theorem State.tileFault_further (hjs : s.job.js = 6) (hprim : s.job.prim.valid = true) :
    (s.tileFault t k cause detail pc).job.js = 6 ∧ (s.tileFault t k cause detail pc).job.prim.nsec = s.job.prim.nsec + 1 ∧
      ((s.tileFault t k cause detail pc).tile t).fault = tileFaultWord (s.tile t).fault k cause detail pc := by
  have hjob := s.raised_job t k cause detail pc
  rw [State.tileFault_eq himg ht, State.jobFault_further (hjob ▸ himg) (hjob ▸ hjs) (hjob ▸ hprim), State.modJob_job,
    State.modJob_tile, hjob]
  refine ⟨hjs, ?_, ?_⟩
  · unfold Prim.merge
    split <;> rfl
  · rw [State.raised, ((State.weighTileFault_tilesStay _ t cause).tile t).fault, State.noteTileFault_tile_fault]

variable (hjs : s.job.js = 4)
include hjs

/-- A tile's fault in a running job is a job fault of the state in which it is raised. -/
theorem State.tileFault_raises : ∃ e : State, e.job = s.job ∧ e.job.img.isSome = true ∧ e.job.js ≠ 6 ∧
    (∀ u, ((s.noteTileFault t k cause detail pc).tile u).Stays (e.tile u)) ∧
    s.tileFault t k cause detail pc = e.jobFault 0 t cause detail s.modid none := by
  have hjob := s.raised_job t k cause detail pc
  exact ⟨_, hjob, hjob ▸ himg, by rw [hjob, hjs]; decide, (State.weighTileFault_tilesStay _ t cause).tile, State.tileFault_eq himg ht⟩

theorem State.tileFault_js : (s.tileFault t k cause detail pc).job.js = 6 := by
  obtain ⟨e, -, himg', hjs', -, h⟩ := State.tileFault_raises (k := k) (cause := cause) (detail := detail) (pc := pc) himg ht hjs
  rw [h, State.jobFault_js himg' hjs']

/-- The cause of a tile's fault in a running job becomes the primary one (R23). -/
theorem State.tileFault_prim : ∃ e : State, (s.tileFault t k cause detail pc).job.prim = e.primOf 0 t cause detail s.modid := by
  obtain ⟨e, -, himg', hjs', -, h⟩ := State.tileFault_raises (k := k) (cause := cause) (detail := detail) (pc := pc) himg ht hjs
  exact ⟨e, h ▸ State.jobFault_prim himg' hjs'⟩

theorem State.tileFault_stays (u : Nat) :
    ((s.noteTileFault t k cause detail pc).tile u).Stays ((s.tileFault t k cause detail pc).tile u) := by
  obtain ⟨e, -, himg', hjs', hstay, h⟩ := State.tileFault_raises (k := k) (cause := cause) (detail := detail) (pc := pc) himg ht hjs
  exact h ▸ (hstay u).trans (State.jobFault_tile himg' hjs' u)

theorem State.tileFault_fault :
    ((s.tileFault t k cause detail pc).tile t).fault = tileFaultWord (s.tile t).fault k cause detail pc := by
  rw [(State.tileFault_stays himg ht hjs t).fault, State.noteTileFault_tile_fault]

theorem State.tileFault_pc (q : Strm) : ((s.tileFault t k cause detail pc).tile t).pc q = (s.tile t).pc q := by
  rw [(State.tileFault_stays himg ht hjs t).pc, State.noteTileFault_tile_pc]

theorem State.tileFault_stopped {u : Nat} (hu : u ∈ s.job.tiles) :
    ((s.tileFault t k cause detail pc).tile u).st = 8 ∨ ((s.tileFault t k cause detail pc).tile u).st = 9 := by
  obtain ⟨e, hjob, himg', hjs', -, h⟩ := State.tileFault_raises (k := k) (cause := cause) (detail := detail) (pc := pc) himg ht hjs
  exact h ▸ State.jobFault_stopped himg' hjs' (hjob ▸ hu)

end TileFault

end Sys2Proof.Machine

/-! # Fetches that fault (R23, R39, R40, R68, R133, R488) -/

namespace Sys2Proof.Machine

/-- Settles O10: the fetch answers the fault of the tile (R40), which stops the job and leaves the program counter. -/
theorem instructionParityStopsTheJob : Obligations.InstructionParityStopsTheJob := by
  unfold Obligations.InstructionParityStopsTheJob
  intro s₀ t q ht s hmay hpc hen hbad himg htile c hc
  have hshape : ∃ key, RunsShape key t q s₀ (exec c s₀) := by
    rcases hc with ⟨e, he, rfl⟩ | ⟨rfl, e, he, rfl⟩
    · exact ⟨_, streamInsns_shape t q s₀ e he⟩
    · exact ⟨_, xInsns_shape t s₀ e he⟩
  obtain ⟨key, hshape⟩ := hshape
  have hjs := State.running_of_mayIssue hmay
  obtain ⟨e, hprim⟩ := State.tileFault_prim (k := Strm.code q) (cause := 0x03) (detail := (s.tile t).slot q) (pc := (s.tile t).slot q)
    himg htile hjs
  refine ⟨_, hshape.next_of_stop ht (State.sameTick_of_mayIssue hmay) (State.fetchAt_parity hmay hpc (.inl hen) hbad),
    State.tileFault_js himg htile hjs, ?_, ?_, ?_, ?_, State.tileFault_pc himg htile hjs q, State.tileFault_stopped himg htile hjs htile⟩
  all_goals
    rw [hprim]
    rfl

/-! ## The fields of a word -/

theorem fld_testBit (w : Word) (lo n j : Nat) : (fld w lo n).testBit j = (decide (j < n) && w.getLsbD (lo + j)) := by
  rw [fld, Nat.testBit_mod_two_pow, Nat.testBit_shiftRight, BitVec.testBit_toNat]

theorem place_getLsbD (lo n v i : Nat) :
    (place lo n v).getLsbD i = (decide (i < 64) && (decide (lo ≤ i) && (decide (i - lo < n) && v.testBit (i - lo)))) := by
  rw [place, BitVec.getLsbD_ofNat, Nat.testBit_shiftLeft, Nat.testBit_mod_two_pow]

theorem fld_or (a b : Word) (lo n : Nat) : fld (a ||| b) lo n = fld a lo n ||| fld b lo n := by
  refine Nat.eq_of_testBit_eq fun j => ?_
  rw [Nat.testBit_or, fld_testBit, fld_testBit, fld_testBit, BitVec.getLsbD_or, Bool.and_or_distrib_left]

theorem fld_place_self {lo n : Nat} (h : lo + n ≤ 64) (v : Nat) : fld (place lo n v) lo n = v % 2 ^ n := by
  refine Nat.eq_of_testBit_eq fun j => ?_
  rw [fld_testBit, place_getLsbD, Nat.testBit_mod_two_pow, Nat.add_sub_cancel_left]
  by_cases hj : j < n
  · simp [hj, show lo + j < 64 by omega]
  · simp [hj]

theorem fld_place_of_disjoint {lo n lo' n' : Nat} (h : lo + n ≤ lo' ∨ lo' + n' ≤ lo) (v : Nat) :
    fld (place lo' n' v) lo n = 0 := by
  refine Nat.eq_of_testBit_eq fun j => ?_
  rw [fld_testBit, place_getLsbD, Nat.zero_testBit]
  by_cases hj : j < n
  · by_cases hlo : lo' ≤ lo + j
    · simp [show ¬ lo + j - lo' < n' by omega]
    · simp [hlo]
  · simp [hj]

section FaultWord

variable {old : Word} (h : bit old 63 = false) (k cause detail pc : Nat)
include h

theorem tileFaultWord_first : tileFaultWord old k cause detail pc =
    place 63 1 1 ||| place 59 3 k ||| place 48 8 cause ||| place 16 32 detail ||| place 0 13 pc := by
  rw [tileFaultWord, if_neg (by rw [h]; decide)]

theorem tileFaultWord_recorded : bit (tileFaultWord old k cause detail pc) 63 = true := by
  rw [tileFaultWord_first h, bit]
  simp [place_getLsbD]

theorem tileFaultWord_cause : fld (tileFaultWord old k cause detail pc) 48 8 = cause % 2 ^ 8 := by
  rw [tileFaultWord_first h, fld_or, fld_or, fld_or, fld_or, fld_place_self (by decide), fld_place_of_disjoint (.inl (by decide)),
    fld_place_of_disjoint (.inl (by decide)), fld_place_of_disjoint (.inr (by decide)), fld_place_of_disjoint (.inr (by decide))]
  simp

theorem tileFaultWord_stream : fld (tileFaultWord old k cause detail pc) 59 3 = k % 2 ^ 3 := by
  rw [tileFaultWord_first h, fld_or, fld_or, fld_or, fld_or, fld_place_self (by decide), fld_place_of_disjoint (.inl (by decide)),
    fld_place_of_disjoint (.inr (by decide)), fld_place_of_disjoint (.inr (by decide)), fld_place_of_disjoint (.inr (by decide))]
  simp

end FaultWord

/-! ## The tick of a stop (R23, R68) -/

/-- In the tick in which the job stopped a command is taken on the tile as it stood then, and only its faults remain (log 47). -/
theorem alongside_of_sameTick {t : Nat} {s v : State} {f : State → Out} (hs : s.sameTick = true) (hf : f (s.unstopped t) = .next v) :
    alongside t s f = .next (s.alsoFaults t v) := by
  unfold alongside
  rw [if_pos hs, hf]

theorem tileInsn_of_stop_in_sameTick {s s' : State} {key t : Nat} {q : Strm} {regs : Word → List Nat}
    {body : Site → Tile → State → State} (ht : t < 2304) (hs : s.sameTick = true)
    (h : ((s.unstopped t).enter t q).fetchAt t q = .stop s') : tileInsn key t q s regs body = .next (s.alsoFaults t s') := by
  unfold tileInsn
  rw [if_neg (Nat.not_le.2 ht)]
  refine alongside_of_sameTick hs ?_
  dsimp only
  rw [h]

theorem Tile.takeEffect_fault (x : Tile) (count : Nat → Word) (o : Op) : (x.takeEffect count o).fault = x.fault := by
  unfold Tile.takeEffect
  split
  · rfl
  · unfold Tile.unmark
    extract_lets f
    split <;> rfl

theorem Tile.settle_fault (x : Tile) (cycle : Nat) (count : Nat → Word) : (x.settle cycle count).fault = x.fault := by
  unfold Tile.settle
  extract_lets r
  show r.1.fault = x.fault
  refine List.foldlRecOn (motive := fun r : Tile × List LateOp => r.1.fault = x.fault) _ _ rfl fun r hr l _ => ?_
  split
  · exact (Tile.takeEffect_fault _ _ _).trans hr
  · exact hr

theorem State.enter_tile_fault (s : State) (t : Nat) (q : Strm) : ((s.enter t q).tile t).fault = (s.tile t).fault := by
  unfold State.enter State.settle
  extract_lets x here
  split
  all_goals
    rw [State.modTile_tile_self, Tile.settle_fault, State.modTile_tile_self]
    try rfl

theorem State.unstopped_tile_fault (s : State) (t : Nat) : ((s.unstopped t).tile t).fault = 0 := by
  unfold State.unstopped
  extract_lets s1
  rw [State.modCluster_tile, State.modTile_tile_self]

theorem State.unstopped_job (s : State) (t : Nat) : (s.unstopped t).job = { s.job with js := 4 } := rfl

/-- A fault that a command of the tick raises in a tile with none recorded is recorded there and counted in the job (R23). -/
theorem State.alsoFaults_first {s v : State} {t : Nat} (himg : s.job.img.isSome = true) (ht : t ∈ s.job.tiles)
    (hjs : s.job.js = 6) (hprim : s.job.prim.valid = true) (hnone : bit (s.tile t).fault 63 = false)
    (hfault : bit (v.tile t).fault 63 = true) :
    (s.alsoFaults t v).job.js = 6 ∧ (s.alsoFaults t v).job.prim.nsec = s.job.prim.nsec + 1 ∧
      ((s.alsoFaults t v).tile t).fault = tileFaultWord (s.tile t).fault (fld (v.tile t).fault 59 3) (fld (v.tile t).fault 48 8)
        (fld (v.tile t).fault 16 32) (fld (v.tile t).fault 0 13) := by
  unfold State.alsoFaults
  extract_lets y c s0
  rw [if_pos hfault, if_neg fun h => by rw [hnone] at h; exact absurd h.1 (by decide)]
  unfold State.laterFault
  extract_lets old q s1
  rw [if_neg fun h => by rw [show bit old 63 = false from hnone] at h; exact absurd h.1 (by decide)]
  exact State.tileFault_further (s := s0) himg ht hjs hprim

/-- The code of a stream fits its field (R67). -/
theorem Strm.code_lt (q : Strm) : Strm.code q < 2 ^ 3 := by cases q <;> decide

theorem Tile.breakAt_isSome {x : Tile} {q : Strm} {slot : Nat}
    (h : ∃ i < 4, bit (Map.get 0 x.misc.bp (0xA00 + 0x20 * Strm.code q + 8 * i)) 63 = true ∧
      fld (Map.get 0 x.misc.bp (0xA00 + 0x20 * Strm.code q + 8 * i)) 0 13 = slot) : (x.breakAt q slot).isSome = true := by
  obtain ⟨i, hi, hen, hat⟩ := h
  unfold Tile.breakAt
  rw [List.find?_isSome]
  exact ⟨i, List.mem_range.2 hi, by dsimp only; rw [hen, hat, decide_eq_true rfl]; rfl⟩

theorem nop_shape (t : Nat) (q : Strm) (s : State) : RunsShape 0 t q s (exec (.nop t q) s) :=
  streamInsns_shape t q s (0, .nop) (List.mem_cons_self ..)

/-- In the tick of a stop, too, a fetch that faults is all that a command of the shared shape does. -/
theorem RunsShape.next_of_stop_in_sameTick {s s' : State} {key t : Nat} {q : Strm} {o : Out} (h : RunsShape key t q s o) (ht : t < 2304)
    (hs : s.sameTick = true) (hstop : ((s.unstopped t).enter t q).fetchAt t q = .stop s') : o = .next (s.alsoFaults t s') := by
  obtain ⟨regs, body, rfl⟩ := h
  exact tileInsn_of_stop_in_sameTick ht hs hstop

/-- Settles O11: what the fetch answers in the stream's turn (R39, R133, R488), and in the tick of a stop on the tile as it stood (R23). -/
theorem fetchFaultsAndBreakpoints : Obligations.FetchFaultsAndBreakpoints := by
  unfold Obligations.FetchFaultsAndBreakpoints
  intro s₀ t q ht hq
  have hnop := nop_shape t q s₀
  refine ⟨?turn, ?tick⟩
  case turn =>
    intro s hmay
    have hs := State.sameTick_of_mayIssue hmay
    refine ⟨fun hpc => ?past, fun hpc hen hok hlegal => ?illegal, fun hpc hen hrun hbp => ?breakpoint⟩
    case past => exact hnop.next_of_stop ht hs (State.fetchAt_past_partition hmay hq hpc)
    case illegal => exact hnop.next_of_stop ht hs (State.fetchAt_illegal hmay hpc (.inl hen) hok hlegal)
    case breakpoint => exact hnop.next_of_stop ht hs (State.fetchAt_breakpoint hmay hpc hen hrun (Tile.breakAt_isSome hbp))
  case tick =>
    intro hs himg htile hprim hnone s hmay hpc hen hok hlegal
    have hjs : s₀.job.js = 6 := (of_decide_eq_true hs).1
    have hjob : s.job = { s₀.job with js := 4 } := ((s₀.unstopped t).enter_frame t q).1
    have hclear : bit (s.tile t).fault 63 = false := by
      rw [State.enter_tile_fault, State.unstopped_tile_fault]
      rfl
    have hv : ((s.tileFault t (Strm.code q) 0x01 0 ((s.tile t).slot q)).tile t).fault =
        tileFaultWord (s.tile t).fault (Strm.code q) 0x01 0 ((s.tile t).slot q) :=
      State.tileFault_fault (hjob ▸ himg) (hjob ▸ htile) (State.running_of_mayIssue hmay)
    obtain ⟨hjs', hnsec, hfault⟩ := State.alsoFaults_first himg htile hjs hprim hnone (hv ▸ tileFaultWord_recorded hclear ..)
    rw [hv, tileFaultWord_cause hclear, tileFaultWord_stream hclear, Nat.mod_eq_of_lt (Strm.code_lt q)] at hfault
    refine ⟨_, hnop.next_of_stop_in_sameTick ht hs (State.fetchAt_illegal hmay hpc (.inl hen) hok hlegal), hjs', hnsec, ?_, ?_, ?_⟩
    · rw [hfault, tileFaultWord_recorded hnone]
    · rw [hfault, tileFaultWord_cause hnone]
      rfl
    · rw [hfault, tileFaultWord_stream hnone, Nat.mod_eq_of_lt (Strm.code_lt q)]

end Sys2Proof.Machine

/-! # A fault during a sight (R455, R466)

A sight at a stow point uses the instruction memories too; a job fault ends it and they are not reloaded. -/

namespace Sys2Proof.Machine

/-- A sight leaves nothing of what a tile's instruction memory held (log 39). -/
theorem Tile.wild_im (x y : Tile) (free t : Nat) : (x.wild free t).im = (y.wild free t).im := by
  unfold Tile.wild
  rfl

/-- One tile's memories after a sight; a fenced tile takes no part in it (R454). -/
def State.wildTile (s : State) (t : Nat) : State :=
  if s.rel.fencedTiles.contains t then s else s.modTile t fun x => x.wild s.free t

/-- The instruction memory of a tile is what a sight leaves with the free values that come next. -/
def State.WildIm (s : State) (u : Nat) : Prop := (s.tile u).im = (({} : Tile).wild s.free u).im

section WildTile

variable (s : State) (t : Nat)

theorem State.wildTile_rel : (s.wildTile t).rel = s.rel := by
  unfold State.wildTile
  split <;> rfl

theorem State.wildTile_free : (s.wildTile t).free = s.free := by
  unfold State.wildTile
  split <;> rfl

theorem State.wildTile_wildIm (h : s.rel.fencedTiles.contains t = false) : (s.wildTile t).WildIm t := by
  unfold State.WildIm State.wildTile
  rw [if_neg (by rw [h]; decide), State.modTile_tile_self]
  exact Tile.wild_im _ _ _ _

theorem State.wildTile_keeps_wildIm {u : Nat} (h : s.WildIm u) : (s.wildTile t).WildIm u := by
  unfold State.WildIm at h ⊢
  rw [State.wildTile_free]
  unfold State.wildTile
  split
  · exact h
  · rw [State.modTile_tile]
    split
    · next hu => exact hu ▸ Tile.wild_im _ _ _ _
    · exact h

end WildTile

theorem State.forAll_wildTile_keeps (l : List Nat) {s : State} {u : Nat} (h : s.WildIm u) : (s.forAll l State.wildTile).WildIm u := by
  induction l generalizing s with
  | nil => exact h
  | cons t l ih => exact ih (s.wildTile_keeps_wildIm t h)

theorem State.forAll_wildTile_wildIm (l : List Nat) {s : State} {u : Nat} (hu : u ∈ l) (h : s.rel.fencedTiles.contains u = false) :
    (s.forAll l State.wildTile).WildIm u := by
  induction l generalizing s with
  | nil => cases hu
  | cons t l ih =>
    rcases List.mem_cons.1 hu with rfl | hu
    · exact State.forAll_wildTile_keeps l (s.wildTile_wildIm u h)
    · exact ih hu (by rw [State.wildTile_rel]; exact h)

theorem State.forAll_wildTile_free (l : List Nat) (s : State) : (s.forAll l State.wildTile).free = s.free := by
  induction l generalizing s with
  | nil => rfl
  | cons t l ih => exact (ih _).trans (s.wildTile_free t)

/-- The cluster stores after a sight are no part of the tiles. -/
theorem State.wildUnits_tile (s : State) (tiles clusters_ : List Nat) (u : Nat) :
    (s.wildUnits tiles clusters_).tile u = (s.forAll tiles State.wildTile).tile u := by
  unfold State.wildUnits
  extract_lets s1
  exact List.foldlRecOn (motive := fun r : State => r.tile u = s1.tile u) clusters_ _ rfl fun r hr c _ => hr

/-- A fault that ends a sight leaves the memories of the job's tiles as the sight did (R466). -/
theorem State.sightCut_im {s : State} {u : Nat} (hrun : s.rel.sgRun = 2) (hu : u ∈ s.job.tiles)
    (h : s.rel.fencedTiles.contains u = false) : (s.sightCut.tile u).im = (({} : Tile).wild s.free u).im := by
  unfold State.sightCut
  rw [if_pos hrun, State.modRel_tile, State.took_tile, State.wildUnits_tile]
  have hw := State.forAll_wildTile_wildIm s.job.tiles hu h
  unfold State.WildIm at hw
  rw [hw, State.forAll_wildTile_free]

theorem State.forAll_stopTile_rel_free (l : List Nat) (s : State) :
    (s.forAll l State.stopTile).rel = s.rel ∧ (s.forAll l State.stopTile).free = s.free + l.length := by
  induction l generalizing s with
  | nil => exact ⟨rfl, rfl⟩
  | cons t l ih =>
    obtain ⟨hrel, hfree⟩ := ih (s.stopTile t)
    refine ⟨hrel.trans (s.stopTile_rel t), hfree.trans ?_⟩
    rw [State.stopTile_free, List.length_cons]
    omega

theorem State.stopUnits_rel (s : State) : s.stopUnits.rel = s.rel :=
  (State.stopClusters_sameUnits _ s.job.clusters).rel.trans (State.forAll_stopTile_rel_free _ s).1

theorem State.stopUnits_free (s : State) : s.stopUnits.free = s.free + s.job.tiles.length :=
  (State.stopClusters_sameUnits _ s.job.clusters).free.trans (State.forAll_stopTile_rel_free _ s).2

theorem State.stopUnits_job_tiles (s : State) : s.stopUnits.job.tiles = s.job.tiles := by
  show ((s.forAll s.job.tiles State.stopTile).forAll s.job.clusters _).job.tiles = _
  rw [(State.stopClusters_sameUnits _ _).job, (s.forAll_stopTile_tilesStay _).job]

theorem State.stopJob_im_of_sight {s : State} {u : Nat} (hrun : s.rel.sgRun = 2) (hu : u ∈ s.job.tiles)
    (h : s.rel.fencedTiles.contains u = false) :
    (s.stopJob.tile u).im = (({} : Tile).wild (s.free + s.job.tiles.length) u).im := by
  rw [s.stopJob_sameUnits.tile, State.sightCut_im (by rw [State.stopUnits_rel, hrun]) (by rw [State.stopUnits_job_tiles]; exact hu)
    (by rw [State.stopUnits_rel, h]), State.stopUnits_free]

theorem State.noteTileFault_rel (s : State) (t k cause detail pc : Nat) :
    (s.noteTileFault t k cause detail pc).rel = { s.rel with fault := s.rel.fault ||| place 61 1 1 } := rfl

theorem State.noteTileFault_free (s : State) (t k cause detail pc : Nat) : (s.noteTileFault t k cause detail pc).free = s.free := rfl

/-- A tile's fault that is no evidence against the tile (R457) and comes during a sight at a stow point leaves its instruction memory as
the sight did. -/
theorem State.tileFault_im_of_sight {s : State} {t k cause detail pc : Nat} (himg : s.job.img.isSome = true) (ht : t ∈ s.job.tiles)
    (hjs : s.job.js = 4) (hrun : s.rel.sgRun = 2) (hf : s.rel.fencedTiles.contains t = false)
    (hcause : cause ≠ 0x0C ∧ cause ≠ 0x03 ∧ cause ≠ 0x05) :
    ((s.tileFault t k cause detail pc).tile t).im = (({} : Tile).wild (s.free + s.job.tiles.length) t).im := by
  have hraised : s.raised t k cause detail pc = s.noteTileFault t k cause detail pc := by
    rw [State.raised, State.weighTileFault, if_neg hcause.1, if_neg (not_or.2 hcause.2)]
  obtain ⟨m, hm, hstop⟩ := State.jobFault_sameUnits (s := s.noteTileFault t k cause detail pc) 0 t cause detail s.modid himg
    (show s.job.js ≠ 6 by rw [hjs]; decide)
  have hrel : m.rel = { s.rel with fault := s.rel.fault ||| place 61 1 1 } := hm.rel
  have hfree : m.free = s.free := hm.free
  have htiles : m.job.tiles = s.job.tiles := by rw [hm.job]; rfl
  rw [State.tileFault_eq himg ht, hraised, hstop.tile,
    State.stopJob_im_of_sight (by rw [hrel]; exact hrun) (htiles ▸ ht) (by rw [hrel]; exact hf),
    hfree, htiles]

/-- An image with nothing in it. -/
def noImage : Image where
  raw := []
  tiles := []
  spInit := []
  csInit := []
  coef := []
  queues := []
  tallies := []
  backing := []
  toll := []
  windows := []
  xlimit := none
  ringWait := none
  syncWdog := none
  stowIval := 0
  permute := []
  ballast := 0
  sound := 0
  footprint := 1
  allowed := 0

/-- A running job on tile 0, held by the freeze, whose instruction memory holds `w` in slot 0, during a sight at a stow point. -/
def State.inSight (w : Word) : State := { State.reset with
  tiles := [(0, { st := 5, im := [(0, w)] })]
  job := { js := 4, img := some noImage, tiles := [0] }
  stow := { en := true, freeze := true }
  rel := { State.reset.rel with sgRun := 2 } }

theorem State.inSight_im (w : Word) :
    (((State.inSight w).tileFault 0 4 0x0B 0 0).tile 0).im = (({} : Tile).wild (State.reset.free + 1) 0).im :=
  State.tileFault_im_of_sight rfl (List.mem_singleton.2 rfl) rfl rfl rfl (by decide)

/-- Refutes O12: a fault (here `RING`, of a message that arrives) during a sight at a stow point ends the sight, and the memories it
has used are not reloaded (R466). The tile's instruction memory then holds what the sight left, which is the same whatever it held
before, so in one of two states that differ in slot 0 it is not as before. -/
theorem not_tileFaultStopsTheJob : ¬ Obligations.TileFaultStopsTheJob := by
  unfold Obligations.TileFaultStopsTheJob
  intro h
  have hkept : ∀ w, (((State.inSight w).tileFault 0 4 0x0B 0 0).tile 0).im = [(0, w)] := fun w => by
    obtain ⟨-, -, -, -, -, -, -, -, -, -, -, him⟩ := h (State.inSight w) 0 4 0x0B 0 0 rfl (List.mem_singleton.2 rfl) rfl
    exact (him 0).1
  have hsame : ([(0, 1)] : Map Word) = [(0, 2)] := by rw [← hkept 1, State.inSight_im, ← State.inSight_im 2, hkept 2]
  exact absurd hsame (by decide)

end Sys2Proof.Machine

/-! # Operations that join the ones in flight (R53, R54, R64, R69)

What an instruction leaves whose operation goes on after it has issued: the mark, the place in its queue, the accesses to rows. -/

namespace Sys2Proof.Machine

/-! ## The accesses of an operation -/

/-- An access without the rows that a conflict has made unpredictable. -/
def Acc.bare (a : Acc) : Acc := { a with racy := [] }

theorem Acc.bare_of_racy {a : Acc} (h : a.racy = []) : a.bare = a := by
  rw [Acc.bare, ← h]

/-- An access joins the others; theirs gain spoiled rows only. -/
theorem Tile.addAcc_acc (x : Tile) (a : Acc) :
    (x.addAcc a).io.acc.map Acc.bare = x.io.acc.map Acc.bare ++ [a.bare] := by
  simp only [Tile.addAcc, Tile.modIo_io, List.map_append, List.map_map]
  rfl

theorem Tile.foldl_addAcc_acc (l : List Acc) (x : Tile) :
    (l.foldl Tile.addAcc x).io.acc.map Acc.bare = x.io.acc.map Acc.bare ++ l.map Acc.bare := by
  induction l generalizing x with
  | nil => exact (List.append_nil _).symm
  | cons a l ih => rw [List.foldl_cons, ih, Tile.addAcc_acc, List.append_assoc, List.map_cons, List.singleton_append]

/-- Accesses that join change nothing of a tile but its accesses. -/
theorem Tile.foldl_addAcc_eq (l : List Acc) (x : Tile) :
    l.foldl Tile.addAcc x = x.modIo fun io => { io with acc := (l.foldl Tile.addAcc x).io.acc } := by
  induction l generalizing x with
  | nil => rfl
  | cons a l ih =>
    rw [List.foldl_cons]
    exact ih (x.addAcc a)

/-- With the race check of sounding mode off, a conflict is not reported (R500). -/
theorem State.addAccs_of_no_sound {s : State} (h : s.soundChk 0 = false) (t pc : Nat) (l : List Acc) :
    s.addAccs t pc l = s.setTile t (l.foldl Tile.addAcc (s.tile t)) := by
  unfold State.addAccs
  dsimp only
  split
  · rw [if_neg (by rw [h]; decide)]
  · rfl

theorem State.SameBut.setTile {s s' : State} {t : Nat} (h : s.SameBut t s') (x : Tile) : s.SameBut t (s'.setTile t x) :=
  ⟨fun u hu => (State.setTile_tile s' t x u).trans ((if_neg hu).trans (h.tiles u hu)), h.clusters, h.regions, h.stks, h.ports, h.job,
    h.stow, h.power, h.rel, h.pins, h.net, h.sub, h.free, h.pending, h.still⟩

/-! ## The start of an operation -/

/-- What the start of an operation changes of a tile: the mark of its sequencer (R53) and the next operation number. -/
theorem Tile.startOp_eq (x : Tile) (i : Site) : x.startOp i =
    { x with sq := (x.startOp i).sq, io := { x.io with nextId := x.io.nextId + 1 } } := by
  unfold Tile.startOp
  dsimp only
  split <;> rfl

theorem Tile.startOp_seq (x : Tile) (i : Site) (h : i.q ≠ .x) : (x.startOp i).seq i.q =
    if bit i.w 51 then (x.seq i.q).addMark (fld i.w 47 4) else x.seq i.q := by
  unfold Tile.startOp
  dsimp only
  split
  · exact Tile.modSeq_seq _ _ _ h
  · rfl

theorem Tile.startOp_seq_ne (x : Tile) (i : Site) (r : Strm) (h : r ≠ i.q) : (x.startOp i).seq r = x.seq r := by
  unfold Tile.startOp
  dsimp only
  split
  · exact Tile.modSeq_seq_ne _ _ _ _ h
  · rfl

theorem Tile.startOp_x (x : Tile) (i : Site) : (x.startOp i).sq.x = x.sq.x := by
  unfold Tile.startOp
  dsimp only
  split
  · exact SeqFile.set_x _ _ _
  · rfl

/-- A change of the operations in flight that does not look at their accesses and keeps them. -/
structure TileIo.KeepsAcc (ops : TileIo → TileIo) : Prop where
  acc : ∀ io, (ops io).acc = io.acc
  apart : ∀ io a, ops { io with acc := a } = { ops io with acc := a }

/-- The tile once the operation of site `i` has started and joined the others by `ops`, with the accesses `l`. -/
def Tile.join (x : Tile) (i : Site) (ops : TileIo → TileIo) (l : List Acc) : Tile :=
  l.foldl Tile.addAcc ((x.startOp i).modIo ops)

theorem Tile.join_eq (x : Tile) (i : Site) (ops : TileIo → TileIo) (l : List Acc) : x.join i ops l =
    { x with
      sq := (x.startOp i).sq
      io := { ops { x.io with nextId := x.io.nextId + 1 } with acc := (x.join i ops l).io.acc } } := by
  refine (Tile.foldl_addAcc_eq l _).trans ?_
  rw [← Tile.join]
  generalize (x.join i ops l).io.acc = joint
  rw [Tile.startOp_eq]
  rfl

theorem Tile.join_acc (x : Tile) (i : Site) {ops : TileIo → TileIo} (hops : TileIo.KeepsAcc ops) {l : List Acc}
    (hl : ∀ a ∈ l, a.racy = []) : (x.join i ops l).io.acc.map Acc.bare = x.io.acc.map Acc.bare ++ l := by
  have hbare : l.map Acc.bare = l :=
    (List.map_congr_left fun a ha => Acc.bare_of_racy (hl a ha)).trans (List.map_id l)
  rw [Tile.join, Tile.foldl_addAcc_acc, hbare, Tile.modIo_io, hops.acc, Tile.startOp_eq]

/-- The module once the instruction of site `i` has issued and its operation has joined the others by `ops`, with the accesses `l`. -/
def State.joined (s : State) (i : Site) (ops : TileIo → TileIo) (l : List Acc) : State :=
  (s.issueSeq i fun y => (y.startOp i).modIo ops).addAccs i.t i.pc l

section Joined

variable {s : State} {t : Nat} {q : Strm} {w : Word} {ops : TileIo → TileIo} {l : List Acc} (hsound : s.soundChk 0 = false)
include hsound

theorem State.joined_eq : s.joined (s.site t q w) ops l =
    (s.issueSeq (s.site t q w) fun y => (y.startOp (s.site t q w)).modIo ops).setTile t
      (((s.tile t).issue (s.site t q w) (s.nextPc t q)).join (s.site t q w) ops l) := by
  rw [State.joined, State.addAccs_of_no_sound]
  · exact congrArg (fun x => State.setTile _ t (l.foldl Tile.addAcc x)) (State.issueWith_tile s (s.site t q w) _ _)
  · exact (State.soundChk_of_job (State.issueWith_sameBut s (s.site t q w) _ _).job 0).trans hsound

theorem State.joined_tile : (s.joined (s.site t q w) ops l).tile t =
    ((s.tile t).issue (s.site t q w) (s.nextPc t q)).join (s.site t q w) ops l := by
  rw [State.joined_eq hsound, State.setTile_tile_self]

theorem State.joined_sameBut : s.SameBut t (s.joined (s.site t q w) ops l) := by
  rw [State.joined_eq hsound]
  exact (State.issueWith_sameBut s (s.site t q w) _ _).setTile _

/-- An instruction whose operation joins the others leaves the place and the mark, and nothing else. -/
theorem State.joined_taken (hq : q ≠ .x) (hops : TileIo.KeepsAcc ops) (hl : ∀ a ∈ l, a.racy = []) :
    s.Taken (s.joined (s.site t q w) ops l) t q w ((s.tile t).seq q) ops l := by
  have htile := State.joined_tile (t := t) (q := q) (w := w) (ops := ops) (l := l) hsound
  have hrest := State.joined_sameBut (t := t) (q := q) (w := w) (ops := ops) (l := l) hsound
  have hdata := (s.tile t).issue_data (s.site t q w) (s.nextPc t q)
  have hseq := (s.tile t).issue_seq (s.site t q w) (s.nextPc t q) hq
  have hne := (s.tile t).issue_seq_ne (s.site t q w) (s.nextPc t q)
  have hx := (s.tile t).issue_x (s.site t q w) (s.nextPc t q) hq
  have hctr := (s.tile t).issue_ctr (s.site t q w) (s.nextPc t q)
  generalize (s.tile t).issue (s.site t q w) (s.nextPc t q) = x at htile hdata hseq hne hx hctr
  have hacc := x.join_acc (s.site t q w) hops hl
  rw [hdata.io] at hacc
  rw [Tile.join_eq] at htile
  generalize (x.join (s.site t q w) ops l).io.acc = joint at htile hacc
  refine ⟨?seq, fun r hr => ?streams, ?xSeq, ?data, ?inFlight, ?accesses, fun o ho => ?ctr, hrest⟩
  case seq =>
    rw [htile]
    refine (x.startOp_seq (s.site t q w) hq).trans ?_
    rw [hseq]
    show (if bit w 51 then _ else _) = _
    split <;> rfl
  case streams =>
    rw [htile]
    exact (x.startOp_seq_ne _ _ hr).trans (hne r hr)
  case xSeq =>
    rw [htile]
    exact (x.startOp_x _).trans hx
  case data =>
    rw [htile]
    exact ⟨hdata.st, hdata.fault, hdata.faultTime, hdata.cfg, hdata.im, hdata.sp, hdata.am, hdata.sb, hdata.ctab, rfl, hdata.xs,
      hdata.qu, hdata.misc⟩
  case inFlight =>
    rw [htile, ← hdata.io]
    exact (hops.apart _ _).symm
  case accesses =>
    rw [htile]
    exact hacc
  case ctr =>
    rw [htile]
    exact hctr o ho

end Joined

end Sys2Proof.Machine

/-! # Array operations take their place (R54, R70, R104, R106, R111, R112, R125) -/

namespace Sys2Proof.Machine

/-- The array instructions, each with its key. -/
def arrInsns : List (Nat × (Nat → Strm → Instr)) :=
  [(0x500, .ald), (0x510, .amac), (0x520, .apreZero), (0x521, .apreBias), (0x522, .apreResid), (0x530, .adrn)]

theorem exec_arrInsns (t : Nat) (q : Strm) (s : State) : ∀ e ∈ arrInsns, exec (e.2 t q) s = arrOp e.1 t q s := by
  simp only [arrInsns, List.forall_mem_cons]
  exact ⟨rfl, rfl, rfl, rfl, rfl, rfl, fun _ h => absurd h List.not_mem_nil⟩

/-- A run that fits its memory passes its check (R70). -/
theorem Run.check_of_fits {r : Run} (h : r.lo + r.n ≤ if r.am then 1024 else 768) : r.check = none := by
  unfold Run.check amRun spRun runBad
  split
  case isTrue ham =>
    rw [if_pos ham] at h
    exact if_neg (Nat.not_lt.2 h)
  case isFalse ham =>
    rw [if_neg ham] at h
    exact if_neg (Nat.not_lt.2 h)

theorem runs_check_of_fit {l : List Run} (h : ∀ r ∈ l, r.lo + r.n ≤ if r.am then 1024 else 768) :
    (l.map Run.check).findSome? id = none := by
  rw [List.findSome?_eq_none_iff]
  intro c hc
  obtain ⟨r, hr, rfl⟩ := List.mem_map.1 hc
  exact Run.check_of_fits (h r hr)

/-- A stalled instruction of a stream that is not halted counts one cycle under its cause (R52). -/
theorem State.stall_eq (s : State) (t : Nat) (q : Strm) (w : Word) (cause : Nat) : s.stall (s.site t q w) cause =
    if (s.tile t).halted q then s else s.countTile t (0x100 + 0x40 * Strm.code q + 8 * cause) 1 := rfl

theorem arrAccs_racy (o : Op) : ∀ a ∈ arrAccs o, a.racy = [] := by
  intro a ha
  obtain ⟨r, -, rfl⟩ := List.mem_map.1 ha
  rfl

/-- The operation of an issuing array instruction, with its registers D, A and B captured (R147). -/
def State.arrOpOf (s : State) (t : Nat) (q : Strm) (w : Word) : Op :=
  let v := (s.tile t).seq q
  s.opOf t q w [v.areg (fld w 42 3), v.areg (fld w 37 3), v.areg (fld w 32 3)] []

/-- An operation joins the array queue. -/
def TileIo.queueArr (o : Op) (io : TileIo) : TileIo := { io with arr := io.arr ++ [o] }

theorem TileIo.queueArr_keepsAcc (o : Op) : TileIo.KeepsAcc (TileIo.queueArr o) := ⟨fun _ => rfl, fun _ _ => rfl⟩

theorem State.rowCheck_of_bad {s : State} {l : List (Option Nat)} {d : Nat} (h : l.findSome? id = some d) (i : Site) (k : State) :
    s.rowCheck i l k = s.tileFault i.t (Strm.code i.q) 0x04 d i.pc := by
  rw [State.rowCheck, h]

theorem State.rowCheck_of_good {s : State} {l : List (Option Nat)} (h : l.findSome? id = none) (i : Site) (k : State) :
    s.rowCheck i l k = k := by
  rw [State.rowCheck, h]

/-- What an array instruction that issues does: it stalls at the limit (R54), or its runs are checked (R70) and it joins the queue. -/
theorem arrOp_runs {s e : State} {t : Nat} {q : Strm} {w : Word} {key : Nat} (he : s.enter t q = e) (h : e.Issues t q w [])
    (hk : keyOf w = key) : arrOp key t q s = .next
      (if 8 ≤ (e.tile t).io.arr.length then e.stall (e.site t q w) 1
      else e.rowCheck (e.site t q w) ((arrRuns w (e.arrOpOf t q w).v).map Run.check)
        (e.joined (e.site t q w) (TileIo.queueArr (e.arrOpOf t q w)) (arrAccs (e.arrOpOf t q w)))) := by
  subst he
  unfold arrOp
  rw [tileInsn_runs h hk]
  rfl

/-- Settles O21: the limit, the row check and the place in the queue, in the order in which the issue meets them. -/
theorem arrayIssue : Obligations.ArrayIssue := by
  unfold Obligations.ArrayIssue
  intro e he s₀ t q w hq hk s hissues v o runs
  have hrun := arrOp_runs (s := s₀) rfl hissues hk
  rw [← exec_arrInsns t q s₀ e he] at hrun
  rw [hrun]
  refine ⟨fun hfull => ?full, fun hroom hfit hsound => ?joins, fun hroom d hbad => ?fault⟩
  case full =>
    rw [if_pos hfull, State.stall_eq, show 0x100 + 0x40 * Strm.code q + 8 * 1 = 0x108 + 0x40 * Strm.code q by omega]
  case joins =>
    rw [if_neg (Nat.not_le.2 hroom)]
    exact ⟨_, congrArg _ (State.rowCheck_of_good (runs_check_of_fit hfit) _ _),
      State.joined_taken hsound hq (TileIo.queueArr_keepsAcc o) (arrAccs_racy o)⟩
  case fault =>
    rw [if_neg (Nat.not_le.2 hroom)]
    exact congrArg _ (State.rowCheck_of_bad hbad _ _)

end Sys2Proof.Machine

/-! # Accesses to rows in a quiet tile (R64, R126, R165, R177, R222, R489)

Where an operation meets no race, no parity error, no foreign bank and no watchpoint, its reads give the rows as they stand and its
writes replace them; beside the rows only the accounting of accesses changes. -/

namespace Sys2Proof.Machine

/-! ## Slices of a written map -/

section

variable {α : Type} [DecidableEq α] (d : α) (m : Map α)

theorem Map.slice_setRange_self (lo : Nat) (vs : List α) : Map.slice d (Map.setRange d m lo vs) lo vs.length = vs := by
  rw [Map.slice_eq]
  refine List.ext_getElem (by simp) fun i hi hi' => ?_
  rw [List.getElem_map, List.getElem_range, Map.get_setRange, if_pos ⟨Nat.le_add_right _ _, Nat.add_lt_add_left hi' lo⟩,
    Nat.add_sub_cancel_left, List.getElem?_eq_getElem hi', Option.getD_some]

theorem Map.get_setRange_outside {lo k : Nat} {vs : List α} (h : k < lo ∨ lo + vs.length ≤ k) :
    Map.get d (Map.setRange d m lo vs) k = Map.get d m k := by
  rw [Map.get_setRange, if_neg (by omega)]

/-- A map filled from key 0 holds the list's values. -/
theorem Map.get_setRange_nil (vs : List α) (k : Nat) : Map.get d (Map.setRange d [] 0 vs) k = vs.getD k d := by
  rw [Map.get_setRange, List.getD_eq_getElem?_getD]
  split
  · rfl
  · rw [List.getElem?_eq_none (by omega)]
    rfl

/-- Several keys written with a function of the key. -/
theorem Map.get_foldl_set (f : Nat → α) (l : List Nat) (k : Nat) :
    Map.get d (l.foldl (fun m g => Map.set d m g (f g)) m) k = if k ∈ l then f k else Map.get d m k := by
  induction l generalizing m with
  | nil => rfl
  | cons g l ih =>
    rw [List.foldl_cons, ih, Map.get_set]
    by_cases hkl : k ∈ l
    · rw [if_pos hkl, if_pos (List.mem_cons_of_mem g hkl)]
    · by_cases hkg : k = g
      · rw [if_neg hkl, if_pos hkg, if_pos (hkg ▸ List.mem_cons_self), hkg]
      · rw [if_neg hkl, if_neg hkg, if_neg fun h => (List.mem_cons.1 h).elim hkg hkl]

end

/-! ## What an access changes beside the rows -/

/-- A tile without its scratchpad and without what the accounting of accesses to it changes: the notes of prefetched rows (R222,
R501), the validity of seals (R119) and the counters. -/
def Tile.unaccounted (x : Tile) : Tile :=
  { x with ctr := [], sp := [], misc := { x.misc with pf := [], pfTag := [], sealV := [] } }

/-- Between `x` and `y` only the scratchpad and that accounting may differ; of the counters only those of prefetched bytes (R222). -/
structure Tile.Accessed (x y : Tile) : Prop where
  same : y.unaccounted = x.unaccounted
  ctr : ∀ o, o ≠ 0x528 → o ≠ 0x530 → Map.get 0 y.ctr o = Map.get 0 x.ctr o

/-- The same, with the scratchpad as it was. -/
structure Tile.Noted (x y : Tile) : Prop extends x.Accessed y where
  sp : y.sp = x.sp

section

variable {x y z : Tile}

theorem Tile.Noted.refl (x : Tile) : x.Noted x := ⟨⟨rfl, fun _ _ _ => rfl⟩, rfl⟩

theorem Tile.Accessed.trans (h : x.Accessed y) (g : y.Accessed z) : x.Accessed z :=
  ⟨g.same.trans h.same, fun o h₁ h₂ => (g.ctr o h₁ h₂).trans (h.ctr o h₁ h₂)⟩

theorem Tile.Noted.trans (h : x.Noted y) (g : y.Noted z) : x.Noted z :=
  ⟨h.toAccessed.trans g.toAccessed, g.sp.trans h.sp⟩

theorem Tile.Noted.foldl {β : Type} {f : Tile → β → Tile} (hf : ∀ (x : Tile) b, x.Noted (f x b)) (l : List β) (x : Tile) :
    x.Noted (l.foldl f x) := by
  induction l generalizing x with
  | nil => exact .refl x
  | cons b l ih => exact (hf x b).trans (ih (f x b))

end

namespace Tile.Accessed

variable {x y : Tile} (h : x.Accessed y)
include h

/-- What does not look at the scratchpad and the accounting reads the same. -/
theorem reads {β : Type} (f : Tile → β) : f y.unaccounted = f x.unaccounted := congrArg f h.same

theorem st : y.st = x.st := h.reads Tile.st
theorem sq : y.sq = x.sq := h.reads Tile.sq
theorem io : y.io = x.io := h.reads Tile.io
theorem cfg : y.cfg = x.cfg := h.reads Tile.cfg
theorem spBad : y.spBad = x.spBad := h.reads Tile.spBad
theorem am : y.am = x.am := h.reads Tile.am
theorem amBad : y.amBad = x.amBad := h.reads Tile.amBad
theorem ctabBad : y.ctabBad = x.ctabBad := h.reads Tile.ctabBad
theorem ssq : y.misc.ssq = x.misc.ssq := h.reads fun z => z.misc.ssq
theorem sbuf (b : Nat) : y.sbuf b = x.sbuf b := h.reads fun z => z.sbuf b
theorem amRows (lo n : Nat) : y.amRows lo n = x.amRows lo n := h.reads fun z => z.amRows lo n

end Tile.Accessed

/-- Bytes of a prefetched row are counted once, and the row's note is gone (R222). -/
theorem Tile.noted_of_prefetch (x : Tile) {o : Nat} (ho : o = 0x528 ∨ o = 0x530) (n r : Nat) :
    x.Noted ((x.count o n).modMisc fun m => { m with pf := Map.set 0 m.pf r 0 }) :=
  ⟨⟨rfl, fun p h₁ h₂ => Tile.countOther x o n p (by omega)⟩, rfl⟩

theorem Tile.noted_of_misc (x : Tile) (pf pfTag : Map Nat) (sealV : Map Bool) :
    x.Noted (x.modMisc fun m => { m with pf := pf, pfTag := pfTag, sealV := sealV }) := ⟨⟨rfl, fun _ _ _ => rfl⟩, rfl⟩

theorem Tile.noteRead_noted (x : Tile) (c : Acct) (lo n : Nat) : x.Noted (x.noteRead c lo n) := by
  refine .foldl (fun x i => ?_) _ x
  extract_lets r b g x1
  have h1 : x.Noted x1 := by
    unfold x1
    split
    · exact .refl x
    · exact x.noted_of_prefetch (.inl rfl) b r
  split
  · exact h1.trans (x1.noted_of_misc _ _ _)
  · exact h1

theorem Tile.noteWrite_noted {x : Tile} (h : x.spBad = []) (lo n : Nat) : x.Noted (x.noteWrite lo n) := by
  unfold Tile.noteWrite
  extract_lets x1
  have h1 : x.Noted x1 := by
    refine .foldl (fun x i => ?_) _ x
    extract_lets r b x2
    have h2 : x.Noted x2 := by
      unfold x2
      split
      · exact .refl x
      · exact x.noted_of_prefetch (.inr rfl) b r
    exact h2.trans (x2.noted_of_misc _ _ _)
  have hbad : x1.spBad.filter (fun k => decide (k / 8 < lo ∨ lo + n ≤ k / 8)) = x1.spBad := by
    rw [h1.spBad, h]
    rfl
  rw [hbad]
  exact h1

theorem Tile.Wrote.congr {x x' y y' : Tile} {lo : Nat} {b : List Byte} (h : x.Wrote y lo b) (hx : x'.sp = x.sp) (hy : y'.sp = y.sp) :
    x'.Wrote y' lo b := by
  unfold Tile.Wrote
  rw [hx, hy]
  exact h

theorem Tile.WroteAm.congr {x x' y y' : Tile} {lo : Nat} {v : List W32} (h : x.WroteAm y lo v) (hx : x'.am = x.am)
    (hy : y'.am = y.am) : x'.WroteAm y' lo v := by
  unfold Tile.WroteAm
  rw [hx, hy]
  exact h

/-! ## What an access changes of the module -/

/-- Only tile `t`, in its scratchpad and that accounting, and the free values differ. -/
structure State.Accessed (s s' : State) (t : Nat) : Prop where
  tile : (s.tile t).Accessed (s'.tile t)
  tiles : ∀ u, u ≠ t → s'.tile u = s.tile u
  clusters : s'.clusters = s.clusters
  job : s'.job = s.job
  dbg : s'.dbg = s.dbg

/-- What a read gives: the value `v`, with the scratchpad as it was. -/
structure State.Reads {α : Type} (s : State) (t : Nat) (r : State × Option α) (v : α) : Prop extends s.Accessed r.1 t where
  sp : (r.1.tile t).sp = (s.tile t).sp
  value : r.2 = some v

section

variable {s s' s'' : State} {t : Nat}

theorem State.Accessed.trans (h : s.Accessed s' t) (g : s'.Accessed s'' t) : s.Accessed s'' t :=
  ⟨h.tile.trans g.tile, fun u hu => (g.tiles u hu).trans (h.tiles u hu), g.clusters.trans h.clusters, g.job.trans h.job,
    g.dbg.trans h.dbg⟩

theorem State.Accessed.of_setTile {x : Tile} (h : (s.tile t).Accessed x) : s.Accessed ((s.setTile t x).took) t :=
  ⟨by rw [State.took_tile, State.setTile_tile_self]; exact h,
    fun u hu => (State.setTile_tile s t x u).trans (if_neg hu), rfl, rfl, rfl⟩

theorem State.Accessed.took (s : State) (t : Nat) : s.Accessed s.took t :=
  ⟨(Tile.Noted.refl _).toAccessed, fun _ _ => rfl, rfl, rfl, rfl⟩

/-- A value that no row is read for. -/
theorem State.Reads.pure {α : Type} (s : State) (t : Nat) (v : α) : s.Reads t (s, some v) v :=
  ⟨⟨(Tile.Noted.refl _).toAccessed, fun _ _ => rfl, rfl, rfl, rfl⟩, rfl, rfl⟩

theorem State.Reads.ite {α : Type} {p : Prop} [Decidable p] {r r' : State × Option α} {v v' : α} (h : s.Reads t r v)
    (h' : s.Reads t r' v') : s.Reads t (if p then r else r') (if p then v else v') := by
  split <;> assumption

/-- What follows a read goes on with its value. -/
theorem State.Reads.andThen_eq {α : Type} {r : State × Option α} {v : α} (h : s.Reads t r v) (k : State → α → State) :
    andThen r k = k r.1 v := by
  rw [andThen, h.value]

theorem State.Reads.rows {α : Type} {r : State × Option α} {v : α} (h : s.Reads t r v) (lo n : Nat) :
    (r.1.tile t).rows lo n = (s.tile t).rows lo n := by
  rw [Tile.rows, h.sp, Tile.rows]

/-- An access leaves a quiet tile quiet. -/
theorem State.Quiet.of_accessed {id : Nat} (hq : s.Quiet t id) (h : s.Accessed s' t) : s'.Quiet t id := by
  obtain ⟨hbreak, ⟨hsp, ham, hctab⟩, hreads, hwrites, hbanks⟩ := hq
  refine ⟨h.dbg ▸ hbreak, ⟨h.tile.spBad ▸ hsp, h.tile.amBad ▸ ham, h.tile.ctabBad ▸ hctab⟩,
    fun am => ?_, ?_, fun eng row => ?_⟩
  · rw [Tile.racyReads, h.tile.io]
    exact hreads am
  · rw [Tile.racyWrites, h.tile.io]
    exact hwrites
  · rw [Tile.foreign, Tile.reg, Tile.reg, h.tile.cfg]
    exact hbanks eng row

end

/-! ## Reads and writes of an operation -/

/-- The rows of a byte string of whole rows, one after the other, are the byte string. -/
theorem flatMap_pieces {b : List Byte} {n : Nat} (hb : b.length = 512 * n) :
    ((List.range n).flatMap fun i => (b.drop (512 * i)).take 512) = b := by
  induction n generalizing b with
  | zero => exact (List.eq_nil_of_length_eq_zero hb).symm
  | succ n ih =>
    have hrest := ih (b := b.drop 512) (by rw [List.length_drop]; omega)
    simp only [List.drop_drop] at hrest
    rw [List.range_succ_eq_map, List.flatMap_cons, List.flatMap_map]
    simp only [Nat.succ_eq_add_one, Nat.mul_add, Nat.mul_one, Nat.add_comm _ 512]
    rw [hrest]
    exact List.take_append_drop 512 b

@[simp] theorem natLe_length (n v : Nat) : (natLe n v).length = n := by
  induction n generalizing v with
  | zero => rfl
  | succ n ih => exact congrArg (· + 1) (ih (v / 256))

@[simp] theorem packRows_length (f n : Nat) (l : List Nat) : (packRows f n l).length = 512 * n := by
  induction n generalizing l with
  | zero => rfl
  | succ n ih => rw [packRows, List.length_append, ih, packRow, natLe_length]; omega

@[simp] theorem padTo_length (n : Nat) (l : List Byte) : (padTo n l).length = n := by
  rw [padTo, List.length_take, List.length_append, zeros, List.length_replicate]
  omega

theorem State.watch_of_no_break {s : State} (h : s.dbg.bpen = false) (c : Acct) (lo n : Nat) (wr : Bool) : s.watch c lo n wr = s := by
  unfold State.watch
  rw [if_neg (by rw [h]; decide)]

section Quiet

variable {s : State} {c : Acct} {id : Nat} (hq : s.Quiet c.t id)
include hq

/-- An operation reads scratchpad rows as they stand. -/
theorem State.opRead_of_quiet (lo n : Nat) : s.opRead c id lo n =
    ((s.setTile c.t ((s.tile c.t).noteRead c lo n)).took, some ((s.tile c.t).rows lo n)) := by
  have hgood : (s.tile c.t).badRow lo n = none := by
    simp [Tile.badRow, hq.parity.1]
  unfold State.opRead State.readRows
  dsimp only
  rw [hgood, hq.reads, State.watch_of_no_break (s := s.setTile c.t _) hq.noBreak]
  simp only [List.contains_nil, hq.banks, Bool.or_false, Bool.false_eq_true, if_false]
  rfl

/-- An operation reads accumulator rows as they stand. -/
theorem State.opReadAm_of_quiet (lo n : Nat) : s.opReadAm c id lo n = (s.took, some ((s.tile c.t).amRows lo n)) := by
  have hgood : (s.tile c.t).badAm lo n = none := by
    simp [Tile.badAm, hq.parity.2.1]
  unfold State.opReadAm State.readAm
  dsimp only
  rw [hgood, hq.reads]
  simp only [List.contains_nil, Bool.false_eq_true, if_false]
  rfl

/-- An operation writes whole rows as given. -/
theorem State.opWrite_of_quiet (lo : Nat) {b : List Byte} {n : Nat} (hb : b.length = 512 * n) : s.opWrite c id lo b =
    (s.setTile c.t { (s.tile c.t).noteWrite lo n with
      sp := Map.setRange 0 ((s.tile c.t).noteWrite lo n).sp (512 * lo) b }).took := by
  have hn : b.length / 512 = n := by omega
  unfold State.opWrite State.writeRows
  dsimp only
  rw [hn, hq.writes, State.watch_of_no_break (s := s.setTile c.t _) hq.noBreak]
  simp only [List.contains_nil, hq.banks, Bool.or_false, Bool.false_eq_true, if_false, flatMap_pieces hb]

theorem State.opRead_reads (lo n : Nat) : s.Reads c.t (s.opRead c id lo n) ((s.tile c.t).rows lo n) := by
  have hnoted := (s.tile c.t).noteRead_noted c lo n
  rw [s.opRead_of_quiet hq]
  refine ⟨.of_setTile hnoted.toAccessed, ?_, rfl⟩
  rw [State.took_tile, State.setTile_tile_self, hnoted.sp]

theorem State.opReadAm_reads (lo n : Nat) : s.Reads c.t (s.opReadAm c id lo n) ((s.tile c.t).amRows lo n) := by
  rw [s.opReadAm_of_quiet hq]
  exact ⟨.took s c.t, rfl, rfl⟩

/-- A write of an operation writes its rows and nothing else. -/
theorem State.opWrite_writes (lo : Nat) {b : List Byte} {n : Nat} (hb : b.length = 512 * n) :
    s.Accessed (s.opWrite c id lo b) c.t ∧ (s.tile c.t).Wrote ((s.opWrite c id lo b).tile c.t) lo b := by
  have hnoted := Tile.noteWrite_noted hq.parity.1 lo n
  rw [s.opWrite_of_quiet hq lo hb, hnoted.sp]
  refine ⟨.of_setTile ⟨hnoted.same, hnoted.ctr⟩, ?_⟩
  rw [State.took_tile, State.setTile_tile_self]
  exact ⟨Map.slice_setRange_self _ _ _ _, fun k hk => Map.get_setRange_outside _ _ hk⟩

end Quiet

end Sys2Proof.Machine

/-! # Array operations complete (R104 to R119, R123) -/

namespace Sys2Proof.Machine

/-! ## The end of an operation -/

/-- The accesses of an array operation: its tile, its stream, the engine that reads (R490). -/
def Op.arrAcct (o : Op) (t : Nat) : Acct := { t := t, q := Strm.code o.q, eng := 0, pc := o.pc }

/-- A started operation that no earlier one holds back has its effect, by its opcode. -/
theorem arrayOpComplete_of_started {s : State} {t i : Nat} {o : Op} (ht : t < 2304) (hs : s.sameTick = false)
    (hi : (s.tile t).io.arr[i]? = some o) (hgo : o.go = true)
    (hfirst : ((s.tile t).io.arr.take i).any (fun e => arrBefore e o) = false) :
    exec (.arrayOpComplete t i) s = .next
      (if fld o.w 56 8 = 0x50 then s.aldEnd (o.arrAcct t) o
      else if fld o.w 56 8 = 0x51 then s.amacEnd (o.arrAcct t) o
      else if fld o.w 56 8 = 0x52 then s.apreEnd (o.arrAcct t) o
      else s.adrnEnd (o.arrAcct t) o) := by
  show execArrayOpComplete t i s = _
  unfold execArrayOpComplete
  rw [if_neg (Nat.not_le.2 ht), alongside_eq _ hs]
  dsimp only
  rw [hi]
  dsimp only
  rw [hgo, hfirst, if_neg (by decide)]
  split
  case h_1 hop => rw [if_pos hop]; rfl
  case h_2 hop => rw [if_neg (by omega), if_pos hop]; rfl
  case h_3 hop => rw [if_neg (by omega), if_neg (by omega), if_pos hop]; rfl
  case h_4 h1 h2 h3 => rw [if_neg h1, if_neg h2, if_neg h3]; rfl

theorem Tile.unmark_eq (x : Tile) (o : Op) : x.unmark o = { x with sq := (x.unmark o).sq } := by
  unfold Tile.unmark
  split <;> rfl

/-- The mark that falls does not depend on the accesses that leave. -/
theorem Tile.unmark_sq_dropAcc (x : Tile) (o : Op) (id : Nat) : ((x.dropAcc id).unmark o).sq = (x.unmark o).sq := by
  unfold Tile.unmark
  split <;> rfl

/-- X has no marks (R45). -/
theorem Tile.seq_x_subMark (x : Tile) (n : Nat) : (x.seq .x).subMark n = x.seq .x := by
  show ({ m := Map.set 0 [] n (0 - 1) } : Seq) = {}
  rfl

theorem Tile.unmark_seq (x : Tile) (o : Op) :
    (x.unmark o).seq o.q = if bit o.w 51 then (x.seq o.q).subMark (fld o.w 47 4) else x.seq o.q := by
  unfold Tile.unmark
  split
  · by_cases hx : o.q = .x
    · rw [hx, Tile.seq_x_subMark]
      rfl
    · exact Tile.modSeq_seq _ _ _ hx
  · rfl

theorem Tile.unmark_seq_ne (x : Tile) (o : Op) (r : Strm) (h : r ≠ o.q) : (x.unmark o).seq r = x.seq r := by
  unfold Tile.unmark
  split
  · exact Tile.modSeq_seq_ne _ _ _ _ h
  · rfl

section ArrDone

variable (s : State) (t : Nat) (o : Op)

theorem State.arrDone_tile : (s.arrDone t o).tile t =
    { s.tile t with
      sq := ((s.tile t).unmark o).sq
      ctr := ctrAdd (s.tile t).ctr 0x208 (pathBusy o.w)
      io := { (s.tile t).io with
        acc := (s.tile t).io.acc.filter fun a => decide (a.id ≠ o.id)
        arr := (s.tile t).io.arr.filter fun p => decide (p.id ≠ o.id)
        toll := (s.tile t).io.toll - tollW o.w } } := by
  rw [State.arrDone, State.modCluster_tile, State.modTile_tile_self]
  generalize s.tile t = x
  rw [Tile.unmark_eq, Tile.unmark_sq_dropAcc]
  rfl

@[simp] theorem State.arrDone_sp : ((s.arrDone t o).tile t).sp = (s.tile t).sp := by rw [arrDone_tile]
@[simp] theorem State.arrDone_am : ((s.arrDone t o).tile t).am = (s.tile t).am := by rw [arrDone_tile]
@[simp] theorem State.arrDone_misc : ((s.arrDone t o).tile t).misc = (s.tile t).misc := by rw [arrDone_tile]
@[simp] theorem State.arrDone_sbuf (b : Nat) : ((s.arrDone t o).tile t).sbuf b = (s.tile t).sbuf b := by
  rw [arrDone_tile]
  rfl

/-- Of the counters only that of the stream path counts (R123). -/
theorem State.arrDone_ctr (p : Nat) (h : p ≠ 0x208) : Map.get 0 ((s.arrDone t o).tile t).ctr p = Map.get 0 (s.tile t).ctr p :=
by
  rw [arrDone_tile]
  exact Tile.countOther (s.tile t) 0x208 (pathBusy o.w) p h

theorem State.arrDone_tile_ne (u : Nat) (h : u ≠ t) : (s.arrDone t o).tile u = s.tile u := by
  rw [State.arrDone, State.modCluster_tile, State.modTile_tile_ne _ _ _ _ h]

theorem State.arrDone_held : ((s.arrDone t o).cluster (clusterOf t)).held = (s.cluster (clusterOf t)).held - tollW o.w := by
  rw [State.arrDone, State.modCluster_cluster_self]
  rfl

theorem State.arrDone_cluster_ne (c : Nat) (h : c ≠ clusterOf t) : (s.arrDone t o).cluster c = s.cluster c := by
  rw [State.arrDone, State.modCluster_cluster_ne _ _ _ _ h]
  rfl

end ArrDone

/-- What a completing operation changes of its tile before it ends: neither the sequencers nor the operations nor the state. -/
structure Tile.SameControl (x y : Tile) : Prop where
  sq : y.sq = x.sq
  io : y.io = x.io
  st : y.st = x.st

/-- An operation that has read and written rows, and changed its tile otherwise by `f`, ends. -/
theorem State.Accessed.arrEnds {s s1 : State} {t : Nat} (h : s.Accessed s1 t) {f : Tile → Tile}
    (hf : (s1.tile t).SameControl (f (s1.tile t))) (o : Op) : s.ArrEnds ((s1.modTile t f).arrDone t o) t o := by
  have hsq : (f (s1.tile t)).sq = (s.tile t).sq := hf.sq.trans h.tile.sq
  have hio : (f (s1.tile t)).io = (s.tile t).io := hf.io.trans h.tile.io
  have hst : (f (s1.tile t)).st = (s.tile t).st := hf.st.trans h.tile.st
  have hseq : ∀ r, (f (s1.tile t)).seq r = (s.tile t).seq r := fun r => by rw [Tile.seq, hsq, Tile.seq]
  have htile := (s1.modTile t f).arrDone_tile t o
  rw [State.modTile_tile_self] at htile
  refine ⟨?arr, ?seq, fun r hr => ?streams, ?acc, ?toll, ?held, ?vec, ?state, fun u hu => ?tiles, fun c hc => ?clusters, ?job⟩
  case arr =>
    rw [htile, ← hio]
    refine List.filter_congr fun p _ => ?_
    by_cases hid : p.id = o.id <;> simp [hid]
  case seq =>
    rw [htile, ← hseq]
    exact Tile.unmark_seq _ o
  case streams =>
    rw [htile, ← hseq]
    exact Tile.unmark_seq_ne _ o r hr
  case acc =>
    rw [htile]
    exact fun a ha => of_decide_eq_true (List.mem_filter.1 ha).2
  case toll => rw [htile, ← hio]
  case held =>
    rw [State.arrDone_held, State.modTile_cluster, State.cluster, h.clusters, State.cluster]
  case vec => rw [htile, ← hio]
  case state => rw [htile, ← hst]
  case tiles => rw [State.arrDone_tile_ne _ _ _ _ hu, State.modTile_tile_ne _ _ _ _ hu, h.tiles u hu]
  case clusters => rw [State.arrDone_cluster_ne _ _ _ _ hc, State.modTile_cluster, State.cluster, h.clusters, State.cluster]
  case job => exact h.job

end Sys2Proof.Machine

/-! ## What each operation leaves (R104 to R119) -/

namespace Sys2Proof.Machine

/-- Element `n k + j` of a table of rows of `n`, listed row by row, is element `j` of row `k`. -/
theorem getElem?_table {α : Type} (g : Nat → Nat → α) {m n k j : Nat} (hk : k < m) (hj : j < n) :
    ((List.range m).flatMap fun k => (List.range n).map fun j => g k j)[n * k + j]? = some (g k j) := by
  induction m generalizing g k with
  | zero => exact absurd hk (Nat.not_lt_zero k)
  | succ m ih =>
    rw [List.range_succ_eq_map, List.flatMap_cons, List.flatMap_map]
    have hlen : ((List.range n).map fun j => g 0 j).length = n := by simp
    cases k with
    | zero =>
      rw [List.getElem?_append_left (by rw [hlen]; omega)]
      simp [hj]
    | succ k =>
      rw [List.getElem?_append_right (by rw [hlen, Nat.mul_succ]; omega), hlen,
        show n * (k + 1) + j - n = n * k + j by rw [Nat.mul_succ]; omega]
      exact ih (fun k j => g (k + 1) j) (Nat.lt_of_succ_lt_succ hk)

/-! ### `ALD` -/

/-- The scale bytes an operation reads with its rows: none in a format without scales (R103). -/
def Tile.scaleBytes (x : Tile) (f lo n : Nat) : List Byte := if isMx f then x.rows lo n else []

theorem Tile.drop_scaleBytes (x : Tile) (f lo n k : Nat) :
    (x.scaleBytes f lo n).drop k = if isMx f then (x.rows lo n).drop k else [] := by
  unfold Tile.scaleBytes
  split
  · rfl
  · exact List.drop_nil

/-- The stationary buffer that a completing `ALD` loads (R104). -/
def Tile.aldBuf (x : Tile) (o : Op) : StatBuf :=
  let f := arrF o.w
  let codes := unpackVecs f 64 (x.rows (o.v.getD 1 0).toNat (vecRows f 64))
  let el := if bit o.w 26 then codes
    else (List.range 64).flatMap fun k => (List.range 64).map fun j => codes.getD (64 * j + k) 0
  let sc := x.scaleBytes f (o.v.getD 2 0).toNat (scaleRun (fld o.w 15 9) 128)
  { fmt := f
    el := Map.setRange 0 [] 0 (el.map fun x => BitVec.ofNat 32 x)
    sc := Map.setRange 0 [] 0 ((sc.drop (fld o.w 15 9)).take 128)
    bad := [] }

theorem Tile.aldBuf_el (x : Tile) (o : Op) {k j : Nat} (hk : k < 64) (hj : j < 64) :
    Map.get 0 (x.aldBuf o).el (64 * k + j) =
      BitVec.ofNat 32 ((unpackVecs (arrF o.w) 64 (x.rows (o.v.getD 1 0).toNat (vecRows (arrF o.w) 64))).getD
        (if bit o.w 26 then 64 * k + j else 64 * j + k) 0) := by
  unfold Tile.aldBuf
  dsimp only
  rw [Map.get_setRange_nil]
  refine (List.getD_map _ _ _).trans (congrArg _ ?_)
  split
  · rfl
  · rw [List.getD_eq_getElem?_getD, getElem?_table _ hk hj, Option.getD_some]

theorem Tile.aldBuf_sc (x : Tile) (o : Op) (hmx : isMx (arrF o.w) = true) {k : Nat} (hk : k < 128) :
    Map.get 0 (x.aldBuf o).sc k =
      (x.rows (o.v.getD 2 0).toNat (scaleRun (fld o.w 15 9) 128)).getD (fld o.w 15 9 + k) 0 := by
  unfold Tile.aldBuf Tile.scaleBytes
  dsimp only
  rw [Map.get_setRange_nil, if_pos hmx, List.getD_eq_getElem?_getD, List.getElem?_take, if_pos hk, List.getElem?_drop,
    ← List.getD_eq_getElem?_getD]

theorem Tile.setSbuf_sbuf (x : Tile) (b : Nat) (v : StatBuf) : (x.setSbuf b v).sbuf b = v := by
  unfold Tile.setSbuf Tile.sbuf
  split <;> rfl

/-- The other buffer is as it was. -/
theorem Tile.setSbuf_sbuf_other (x : Tile) {b : Nat} (hb : b < 2) (v : StatBuf) :
    (x.setSbuf b v).sbuf (1 - b) = x.sbuf (1 - b) := by
  unfold Tile.setSbuf Tile.sbuf
  interval_cases b <;> rfl

theorem Tile.setSbuf_sameControl (x : Tile) (b : Nat) (v : StatBuf) : x.SameControl (x.setSbuf b v) := by
  unfold Tile.setSbuf
  split <;> exact ⟨rfl, rfl, rfl⟩

theorem Tile.setSbuf_sp (x : Tile) (b : Nat) (v : StatBuf) : (x.setSbuf b v).sp = x.sp := by
  unfold Tile.setSbuf
  split <;> rfl

theorem Tile.setSbuf_am (x : Tile) (b : Nat) (v : StatBuf) : (x.setSbuf b v).am = x.am := by
  unfold Tile.setSbuf
  split <;> rfl

section Quiet

variable {s : State} {c : Acct} {o : Op} (hq : s.Quiet c.t o.id)
include hq

/-- The scale bytes are read where the format has them. -/
theorem State.scaleRead_reads (f lo n : Nat) :
    s.Reads c.t (if isMx f then s.opRead c o.id lo n else (s, some [])) ((s.tile c.t).scaleBytes f lo n) :=
  .ite (s.opRead_reads hq lo n) (.pure s c.t [])

theorem State.aldEnd_of_quiet : ∃ s1, s.Accessed s1 c.t ∧ (s1.tile c.t).sp = (s.tile c.t).sp ∧
    s.aldEnd c o = (s1.modTile c.t fun y => y.setSbuf (fld o.w 27 1) ((s.tile c.t).aldBuf o)).arrDone c.t o := by
  have h1 := s.opRead_reads hq (o.v.getD 1 0).toNat (vecRows (arrF o.w) 64)
  unfold State.aldEnd
  dsimp only
  rw [h1.andThen_eq]
  generalize s.opRead c o.id (o.v.getD 1 0).toNat (vecRows (arrF o.w) 64) = r1 at h1
  have h2 := State.scaleRead_reads (hq.of_accessed h1.toAccessed) (arrF o.w) (o.v.getD 2 0).toNat (scaleRun (fld o.w 15 9) 128)
  rw [h2.andThen_eq, Tile.scaleBytes, h1.rows]
  exact ⟨_, h1.toAccessed.trans h2.toAccessed, h2.sp.trans h1.sp, rfl⟩

end Quiet

/-! ### `AMAC` -/

theorem Tile.writeAm_wrote {x y : Tile} (h : y.am = x.am) (lo : Nat) (v : List W32) : x.WroteAm (y.writeAm lo v) lo v := by
  unfold Tile.writeAm
  rw [h]
  exact ⟨Map.slice_setRange_self _ _ _ _, fun k hk => Map.get_setRange_outside _ _ hk⟩

/-- The rows that a completing `AMAC` accumulates to, and the sums that saturated (R106 to R110). -/
def Tile.amacSum (x : Tile) (o : Op) : List W32 × Nat :=
  let f := arrF o.w
  let n := arrN o.w
  let sc := if isMx f then (x.rows (o.v.getD 2 0).toNat (scaleRun (fld o.w 1 9) (2 * n))).drop (fld o.w 1 9) else []
  let old := if bit o.w 22 then List.replicate (64 * n) 0 else x.amRows (o.v.getD 0 0).toNat n
  amacRows f (fld o.w 24 4) (bit o.w 22) n (unpackVecs f n (x.rows (o.v.getD 1 0).toNat (vecRows f n))) sc (x.sbuf (fld o.w 23 1)) old

/-- Accumulator rows `lo` and on hold `r.1`, and `r.2` saturated sums are counted (R95). -/
def Tile.accumulated (lo : Nat) (r : List W32 × Nat) (y : Tile) : Tile := (y.writeAm lo r.1).count 0x310 r.2

section Quiet

variable {s : State} {c : Acct} {o : Op} (hq : s.Quiet c.t o.id)
include hq

/-- The old rows of an accumulation are read unless it starts from zero (R106). -/
theorem State.oldRows_reads (z : Bool) (lo n : Nat) :
    s.Reads c.t (if z then (s, some (List.replicate (64 * n) 0)) else s.opReadAm c o.id lo n)
      (if z then List.replicate (64 * n) 0 else (s.tile c.t).amRows lo n) :=
  .ite (.pure s c.t _) (s.opReadAm_reads hq lo n)

theorem State.amacEnd_of_quiet (hbad : ((s.tile c.t).sbuf (fld o.w 23 1)).bad = [])
    (hfmt : ((s.tile c.t).sbuf (fld o.w 23 1)).fmt = fld o.w 24 4) :
    ∃ s1, s.Accessed s1 c.t ∧ (s1.tile c.t).sp = (s.tile c.t).sp ∧
      s.amacEnd c o = (s1.modTile c.t (Tile.accumulated (o.v.getD 0 0).toNat ((s.tile c.t).amacSum o))).arrDone c.t o := by
  have h1 := s.opRead_reads hq (o.v.getD 1 0).toNat (vecRows (arrF o.w) (arrN o.w))
  unfold State.amacEnd
  dsimp only
  rw [hbad, List.head?_nil]
  dsimp only
  rw [h1.andThen_eq]
  generalize s.opRead c o.id (o.v.getD 1 0).toNat (vecRows (arrF o.w) (arrN o.w)) = r1 at h1
  have hq1 := hq.of_accessed h1.toAccessed
  have h2 := State.scaleRead_reads hq1 (arrF o.w) (o.v.getD 2 0).toNat (scaleRun (fld o.w 1 9) (2 * arrN o.w))
  rw [h2.andThen_eq]
  generalize (if isMx (arrF o.w) then r1.1.opRead c o.id _ _ else _) = r2 at h2
  have h3 := State.oldRows_reads (hq1.of_accessed h2.toAccessed) (bit o.w 22) (o.v.getD 0 0).toNat (arrN o.w)
  rw [h3.andThen_eq, if_neg fun h => h.2 hfmt, Tile.drop_scaleBytes, h1.rows, h2.tile.amRows, h1.tile.amRows]
  exact ⟨_, (h1.toAccessed.trans h2.toAccessed).trans h3.toAccessed, h3.sp.trans (h2.sp.trans h1.sp), rfl⟩

/-! ### `APRE` -/

/-- The rows that a completing `APRE` writes: zeros, one half-row repeated, or the vectors' bits (R111). -/
def Tile.apreLanes (x : Tile) (o : Op) : List W32 :=
  let n := arrN o.w
  let r := (o.v.getD 1 0).toNat
  if fld o.w 30 2 = 0 then List.replicate (64 * n) 0
  else if fld o.w 30 2 = 1 then
    (List.replicate n ((codesOf 32 64 (leNat (if bit o.w 29 then (x.rows r 1).drop 256 else (x.rows r 1).take 256))).map
      (BitVec.ofNat 32))).flatten
  else (codesOf 32 (64 * n) (leNat (x.rows r (vecRows 0 n)))).map (BitVec.ofNat 32)

theorem State.apreEnd_of_quiet : ∃ s1, s.Accessed s1 c.t ∧ (s1.tile c.t).sp = (s.tile c.t).sp ∧
    s.apreEnd c o = (s1.modTile c.t fun y => y.writeAm (o.v.getD 0 0).toNat ((s.tile c.t).apreLanes o)).arrDone c.t o := by
  unfold State.apreEnd Tile.apreLanes
  dsimp only
  split
  case h_1 hmode =>
    rw [if_pos hmode]
    exact ⟨s, (State.Reads.pure s c.t ()).toAccessed, rfl, rfl⟩
  case h_2 hmode =>
    have h := s.opRead_reads hq (o.v.getD 1 0).toNat 1
    rw [h.andThen_eq, if_neg (show ¬ fld o.w 30 2 = 0 by omega), if_pos hmode]
    exact ⟨_, h.toAccessed, h.sp, rfl⟩
  case h_3 h0 h1 =>
    have h := s.opRead_reads hq (o.v.getD 1 0).toNat (vecRows 0 (arrN o.w))
    rw [h.andThen_eq, if_neg h0, if_neg h1]
    exact ⟨_, h.toAccessed, h.sp, rfl⟩

end Quiet

/-! ### `ADRN` -/

theorem numEvOff_injective : Function.Injective numEvOff := by
  intro a b
  cases a <;> cases b <;> decide

/-- Counting events changes the counters only. -/
theorem Tile.countEvs_eq (x : Tile) (l : List NumEv) : x.countEvs l = { x with ctr := (x.countEvs l).ctr } := by
  unfold Tile.countEvs
  induction l generalizing x with
  | nil => rfl
  | cons e l ih => exact ih (x.count (numEvOff e) 1)

theorem Tile.countEvs_counted (x : Tile) (l : List NumEv) : x.CountedEvs (x.countEvs l) l := by
  unfold Tile.countEvs
  induction l generalizing x with
  | nil => exact fun e => (BitVec.add_zero _).symm
  | cons a l ih =>
    intro e
    rw [List.foldl_cons, ih _ e]
    by_cases hae : a = e
    · rw [hae, Tile.countSelf, List.count_cons_self, Nat.add_comm, BitVec.ofNat_add, BitVec.add_assoc]
    · rw [Tile.countOther _ _ _ _ fun h => hae (numEvOff_injective h).symm, List.count_cons_of_ne hae]

/-- The groups of eight rows that a sealed drain of `n` rows to row `d` fills, none of them with a row in `racy` (R118). -/
def filledGroups (d n : Nat) (racy : List Nat) : List Nat :=
  (List.range 96).filter fun g => decide (d ≤ 8 * g ∧ 8 * g + 8 ≤ d + n) && !(racy.any fun r => decide (r / 8 = g))

/-- The check value of group `g` (R118). -/
def groupCrc (d : Nat) (rows : List Byte) (g : Nat) : W32 := crc32c ((rows.drop (512 * (8 * g - d))).take 4096)

/-- A sealed drain changes the seals only. -/
theorem Tile.sealGroups_eq (x : Tile) (d : Nat) (rows : List Byte) (racy : List Nat) : x.sealGroups d rows racy =
    x.modMisc fun m => { m with
      sealE := (filledGroups d (rows.length / 512) racy).foldl (fun m g => Map.set 0 m g (groupCrc d rows g)) m.sealE
      sealV := (filledGroups d (rows.length / 512) racy).foldl (fun m g => Map.set false m g true) m.sealV } := by
  unfold Tile.sealGroups
  dsimp only
  rw [← filledGroups]
  generalize filledGroups d (rows.length / 512) racy = l
  induction l generalizing x with
  | nil => rfl
  | cons g l ih => exact ih _

/-- What each accumulator row that a completing `ADRN` drains gives: scales, codes, events (R112, R113). -/
def Tile.drainOut (x : Tile) (o : Op) : List (List Byte × List Nat × List NumEv) :=
  (chunks 64 (arrN o.w) (x.amRows (o.v.getD 1 0).toNat (arrN o.w))).map (drainRow o.w)

/-- The rows of the drained lanes (R112). -/
def drainRows (o : Op) (out : List (List Byte × List Nat × List NumEv)) : List Byte :=
  packRows (arrF o.w) (vecRows (arrF o.w) (arrN o.w)) (out.flatMap fun r => r.2.1)

/-- The scale row of the drained lanes (R113). -/
def drainScales (out : List (List Byte × List Nat × List NumEv)) : List Byte := padTo 512 (out.flatMap fun r => r.1)

/-- `TILE_SSQ` with the squares of the drained rows added (R116). -/
def drainSsq (o : Op) (out : List (List Byte × List Nat × List NumEv)) (ssq : Word) : Word :=
  out.foldl (fun a r => addSsq a (rowSquares (arrF o.w) r.1 r.2.1)) ssq

/-- `CLR`: the drained accumulator rows become zero (R112). -/
def Tile.drainClear (o : Op) (x : Tile) : Tile :=
  if bit o.w 25 then x.writeAm (o.v.getD 1 0).toNat (List.replicate (64 * arrN o.w) 0) else x

/-- `SQ`: the squares of the drained rows are added to `TILE_SSQ` (R116). -/
def Tile.drainSquares (o : Op) (out : List (List Byte × List Nat × List NumEv)) (x : Tile) : Tile :=
  if bit o.w 24 then x.modMisc fun m => { m with ssq := drainSsq o out m.ssq } else x

/-- `SEAL`: the groups that the drain fills are sealed (R118). -/
def Tile.drainSeal (o : Op) (out : List (List Byte × List Nat × List NumEv)) (racy : List Nat) (x : Tile) : Tile :=
  if bit o.w 23 then x.sealGroups (o.v.getD 0 0).toNat (drainRows o out) racy else x

/-- What a drain does to its tile beside the rows it writes. -/
def Tile.drainEnd (o : Op) (out : List (List Byte × List Nat × List NumEv)) (racy : List Nat) (x : Tile) : Tile :=
  (((x.drainClear o).drainSquares o out).drainSeal o out racy).countEvs (out.flatMap fun r => r.2.2)

section

variable (x : Tile) (o : Op) (out : List (List Byte × List Nat × List NumEv)) (racy : List Nat)

theorem Tile.drainClear_eq : x.drainClear o = { x with am := (x.drainClear o).am, amBad := (x.drainClear o).amBad } := by
  unfold Tile.drainClear
  split <;> rfl

theorem Tile.drainSquares_eq : x.drainSquares o out =
    x.modMisc fun m => { m with ssq := if bit o.w 24 then drainSsq o out m.ssq else m.ssq } := by
  unfold Tile.drainSquares
  split <;> rfl

/-- A sealed drain changes the seals only. -/
theorem Tile.drainSeal_eq : x.drainSeal o out racy = x.modMisc fun m => { m with
    sealE := (x.drainSeal o out racy).misc.sealE
    sealV := (x.drainSeal o out racy).misc.sealV } := by
  unfold Tile.drainSeal
  split
  · rw [Tile.sealGroups_eq]
    rfl
  · rfl

/-- A drain changes accumulator rows, `TILE_SSQ`, seals and counters. -/
theorem Tile.drainEnd_eq : x.drainEnd o out racy =
    { x with
      am := (x.drainClear o).am
      amBad := (x.drainClear o).amBad
      ctr := (x.drainEnd o out racy).ctr
      misc := { x.misc with
        ssq := if bit o.w 24 then drainSsq o out x.misc.ssq else x.misc.ssq
        sealE := (x.drainEnd o out racy).misc.sealE
        sealV := (x.drainEnd o out racy).misc.sealV } } := by
  rw [Tile.drainEnd, Tile.countEvs_eq]
  generalize (Tile.countEvs _ _).ctr = ctr
  rw [Tile.drainSeal_eq]
  generalize (Tile.drainSeal _ _ _ _).misc.sealE = sealE
  generalize (Tile.drainSeal _ _ _ _).misc.sealV = sealV
  rw [Tile.drainSquares_eq, Tile.drainClear_eq]
  rfl

theorem Tile.drainEnd_sameControl : x.SameControl (x.drainEnd o out racy) := by
  rw [Tile.drainEnd_eq]
  exact ⟨rfl, rfl, rfl⟩

theorem Tile.drainEnd_sp : (x.drainEnd o out racy).sp = x.sp := by rw [Tile.drainEnd_eq]
theorem Tile.drainEnd_am : (x.drainEnd o out racy).am = (x.drainClear o).am := by rw [Tile.drainEnd_eq]
theorem Tile.drainEnd_ssq : (x.drainEnd o out racy).misc.ssq = if bit o.w 24 then drainSsq o out x.misc.ssq else x.misc.ssq := by
  rw [Tile.drainEnd_eq]

theorem Tile.drainEnd_counted : x.CountedEvs (x.drainEnd o out racy) (out.flatMap fun r => r.2.2) := by
  have hctr : (((x.drainClear o).drainSquares o out).drainSeal o out racy).ctr = x.ctr := by
    rw [Tile.drainSeal_eq, Tile.drainSquares_eq, Tile.drainClear_eq]
    rfl
  intro e
  rw [← hctr]
  exact Tile.countEvs_counted _ _ e

theorem Tile.drainEnd_misc : (x.drainEnd o out racy).misc = (((x.drainClear o).drainSquares o out).drainSeal o out racy).misc := by
  rw [Tile.drainEnd, Tile.countEvs_eq]

variable {o}

theorem Tile.drainClear_am_of_set (h : bit o.w 25 = true) :
    x.WroteAm (x.drainClear o) (o.v.getD 1 0).toNat (List.replicate (64 * arrN o.w) 0) := by
  rw [Tile.drainClear, if_pos h]
  exact Tile.writeAm_wrote rfl _ _

theorem Tile.drainClear_am_of_clear (h : bit o.w 25 = false) : (x.drainClear o).am = x.am := by
  rw [Tile.drainClear, if_neg (by rw [h]; decide)]

theorem mem_filledGroups {d n g : Nat} (hg : g < 96) (hlo : d ≤ 8 * g) (hhi : 8 * g + 8 ≤ d + n) : g ∈ filledGroups d n [] :=
  List.mem_filter.2 ⟨List.mem_range.2 hg, by simp [hlo, hhi]⟩

/-- A sealed drain that meets no race seals each group it fills with its check value. -/
theorem Tile.drainEnd_sealed (h : bit o.w 23 = true) {g : Nat} (hg : g < 96) (hlo : (o.v.getD 0 0).toNat ≤ 8 * g)
    (hhi : 8 * g + 8 ≤ (o.v.getD 0 0).toNat + vecRows (arrF o.w) (arrN o.w)) :
    Map.get false (x.drainEnd o out []).misc.sealV g = true ∧
      Map.get 0 (x.drainEnd o out []).misc.sealE g = groupCrc (o.v.getD 0 0).toNat (drainRows o out) g := by
  have hrows : (drainRows o out).length / 512 = vecRows (arrF o.w) (arrN o.w) := by
    rw [drainRows, packRows_length]
    omega
  have hmem := mem_filledGroups hg hlo hhi
  rw [Tile.drainEnd_misc, Tile.drainSeal, if_pos h, Tile.sealGroups_eq, hrows, Tile.modMisc_misc, Map.get_foldl_set, Map.get_foldl_set,
    if_pos hmem, if_pos hmem]
  exact ⟨rfl, rfl⟩

end

section Quiet

variable {s : State} {c : Acct} {o : Op} (hq : s.Quiet c.t o.id)
include hq

/-- The drained rows are written, then the scale row of a format that has one, then the rest of the drain takes place. -/
theorem State.adrnEnd_of_quiet {out : List (List Byte × List Nat × List NumEv)} (hout : (s.tile c.t).drainOut o = out) :
    ∃ s1 s2, (s.tile c.t).Wrote (s1.tile c.t) (o.v.getD 0 0).toNat (drainRows o out) ∧
      (isMx (arrF o.w) = true → (s1.tile c.t).Wrote (s2.tile c.t) (o.v.getD 2 0).toNat (drainScales out)) ∧
      (isMx (arrF o.w) = false → s2 = s1) ∧ s.Accessed s2 c.t ∧
      s.adrnEnd c o = (s2.modTile c.t (Tile.drainEnd o out [])).arrDone c.t o := by
  have h := s.opReadAm_reads hq (o.v.getD 1 0).toNat (arrN o.w)
  subst hout
  unfold State.adrnEnd
  dsimp only
  rw [h.andThen_eq]
  generalize s.opReadAm c o.id _ _ = r at h
  have hq1 := hq.of_accessed h.toAccessed
  obtain ⟨hrows, hwrote⟩ := State.opWrite_writes (c := { c with eng := 1 }) hq1 (o.v.getD 0 0).toNat
    (packRows_length (arrF o.w) (vecRows (arrF o.w) (arrN o.w)) (((s.tile c.t).drainOut o).flatMap fun r => r.2.1))
  obtain ⟨hscales, hscaled⟩ := State.opWrite_writes (c := { c with eng := 1 }) (hq1.of_accessed hrows) (o.v.getD 2 0).toNat (n := 1)
    (padTo_length 512 (((s.tile c.t).drainOut o).flatMap fun r => r.1))
  rw [hq1.writes]
  refine ⟨_, _, hwrote.congr h.sp.symm rfl, fun hmx => ?_, fun hmx => if_neg (by rw [hmx]; decide), ?_, rfl⟩
  · rw [if_pos hmx]
    exact hscaled
  · split
    · exact (h.toAccessed.trans hrows).trans hscales
    · exact h.toAccessed.trans hrows

end Quiet

end Sys2Proof.Machine

/-! ## The completion of each operation -/

namespace Sys2Proof.Machine

/-- An operation that has only read rows and changes its tile by `f` ends with the scratchpad as before. -/
theorem State.Accessed.arrEnds_sp {s s1 : State} {t : Nat} (h : s.Accessed s1 t) (hsp : (s1.tile t).sp = (s.tile t).sp)
    {f : Tile → Tile} (hf : (s1.tile t).SameControl (f (s1.tile t))) (hfsp : (f (s1.tile t)).sp = (s1.tile t).sp) (o : Op) :
    s.ArrEnds ((s1.modTile t f).arrDone t o) t o ∧ (((s1.modTile t f).arrDone t o).tile t).sp = (s.tile t).sp := by
  refine ⟨h.arrEnds hf o, ?_⟩
  rw [State.arrDone_sp, State.modTile_tile_self, hfsp, hsp]

section Completes

variable {s s' : State} {c : Acct} {t : Nat} {o : Op} (hc : c.t = t) (hq : s.Quiet t o.id)
include hc hq

/-- A load ends with the named stationary buffer loaded (R104). -/
theorem State.aldEnd_completes (hs' : s.aldEnd c o = s') : (s.ArrEnds s' t o ∧ (s'.tile t).sp = (s.tile t).sp) ∧
    (s'.tile t).am = (s.tile t).am ∧ (s'.tile t).sbuf (fld o.w 27 1) = (s.tile t).aldBuf o ∧
    (s'.tile t).sbuf (1 - fld o.w 27 1) = (s.tile t).sbuf (1 - fld o.w 27 1) := by
  subst hc
  obtain ⟨s1, hacc, hsp, h⟩ := State.aldEnd_of_quiet hq
  rw [h] at hs'
  subst hs'
  have hbuf : fld o.w 27 1 < 2 := Nat.mod_lt _ (by decide)
  refine ⟨hacc.arrEnds_sp hsp (f := fun y => y.setSbuf _ _) (Tile.setSbuf_sameControl _ _ _) (Tile.setSbuf_sp _ _ _) o, ?_, ?_, ?_⟩
  · rw [State.arrDone_am, State.modTile_tile_self, Tile.setSbuf_am]
    exact hacc.tile.am
  · rw [State.arrDone_sbuf, State.modTile_tile_self, Tile.setSbuf_sbuf]
  · rw [State.arrDone_sbuf, State.modTile_tile_self, Tile.setSbuf_sbuf_other _ hbuf]
    exact hacc.tile.sbuf _

/-- An accumulation against a buffer of its format (R105) ends with its rows accumulated and the saturated sums counted (R106 to R110). -/
theorem State.amacEnd_completes (hs' : s.amacEnd c o = s') (hbad : ((s.tile t).sbuf (fld o.w 23 1)).bad = [])
    (hfmt : ((s.tile t).sbuf (fld o.w 23 1)).fmt = fld o.w 24 4) :
    (s.ArrEnds s' t o ∧ (s'.tile t).sp = (s.tile t).sp) ∧
      (s.tile t).WroteAm (s'.tile t) (o.v.getD 0 0).toNat ((s.tile t).amacSum o).1 ∧
      Map.get 0 (s'.tile t).ctr 0x310 = Map.get 0 (s.tile t).ctr 0x310 + BitVec.ofNat 64 ((s.tile t).amacSum o).2 := by
  subst hc
  obtain ⟨s1, hacc, hsp, h⟩ := State.amacEnd_of_quiet hq hbad hfmt
  rw [h] at hs'
  subst hs'
  refine ⟨hacc.arrEnds_sp hsp ⟨rfl, rfl, rfl⟩ rfl o, ?_, ?_⟩
  · refine (Tile.writeAm_wrote hacc.tile.am _ _).congr rfl ?_
    rw [State.arrDone_am, State.modTile_tile_self]
    rfl
  · rw [State.arrDone_ctr _ _ _ _ (by decide), State.modTile_tile_self, Tile.accumulated, Tile.countSelf]
    exact congrArg (· + _) (hacc.tile.ctr 0x310 (by decide) (by decide))

/-- A preload ends with its rows preloaded (R111). -/
theorem State.apreEnd_completes (hs' : s.apreEnd c o = s') : (s.ArrEnds s' t o ∧ (s'.tile t).sp = (s.tile t).sp) ∧
    (s.tile t).WroteAm (s'.tile t) (o.v.getD 0 0).toNat ((s.tile t).apreLanes o) := by
  subst hc
  obtain ⟨s1, hacc, hsp, h⟩ := State.apreEnd_of_quiet hq
  rw [h] at hs'
  subst hs'
  refine ⟨hacc.arrEnds_sp hsp ⟨rfl, rfl, rfl⟩ rfl o, (Tile.writeAm_wrote hacc.tile.am _ _).congr rfl ?_⟩
  rw [State.arrDone_am, State.modTile_tile_self]

/-- A drain ends with its rows and scales written and what `CLR`, `SQ` and `SEAL` ask for done (R112 to R119); `y` is the tile between
the two writes. -/
theorem State.adrnEnd_completes (hs' : s.adrnEnd c o = s') {out : List (List Byte × List Nat × List NumEv)}
    (hout : (s.tile t).drainOut o = out) :
    ∃ y, s.ArrEnds s' t o ∧ (s.tile t).Wrote y (o.v.getD 0 0).toNat (drainRows o out) ∧
      (isMx (arrF o.w) = true → y.Wrote (s'.tile t) (o.v.getD 2 0).toNat (drainScales out)) ∧
      (isMx (arrF o.w) = false → (s'.tile t).sp = y.sp) ∧
      (bit o.w 25 = true → (s.tile t).WroteAm (s'.tile t) (o.v.getD 1 0).toNat (List.replicate (64 * arrN o.w) 0)) ∧
      (bit o.w 25 = false → (s'.tile t).am = (s.tile t).am) ∧
      (s'.tile t).misc.ssq = (if bit o.w 24 then drainSsq o out (s.tile t).misc.ssq else (s.tile t).misc.ssq) ∧
      (bit o.w 23 = true → ∀ g, g < 96 → (o.v.getD 0 0).toNat ≤ 8 * g →
        8 * g + 8 ≤ (o.v.getD 0 0).toNat + vecRows (arrF o.w) (arrN o.w) →
        Map.get false (s'.tile t).misc.sealV g = true ∧
        Map.get 0 (s'.tile t).misc.sealE g = groupCrc (o.v.getD 0 0).toNat (drainRows o out) g) ∧
      (s.tile t).CountedEvs (s'.tile t) (out.flatMap fun r => r.2.2) := by
  subst hc
  obtain ⟨s1, s2, hrows, hscales, hnone, hacc, h⟩ := State.adrnEnd_of_quiet hq hout
  rw [h] at hs'
  subst hs'
  have htile := s2.modTile_tile_self c.t (Tile.drainEnd o out [])
  have hsp := (s2.modTile c.t (Tile.drainEnd o out [])).arrDone_sp c.t o
  have ham := (s2.modTile c.t (Tile.drainEnd o out [])).arrDone_am c.t o
  have hmisc := (s2.modTile c.t (Tile.drainEnd o out [])).arrDone_misc c.t o
  rw [htile] at hsp ham hmisc
  rw [Tile.drainEnd_sp] at hsp
  rw [Tile.drainEnd_am] at ham
  refine ⟨s1.tile c.t, hacc.arrEnds (Tile.drainEnd_sameControl _ _ _ _) o, hrows, fun hmx => (hscales hmx).congr rfl hsp,
    fun hmx => hnone hmx ▸ hsp, fun hclr => ?clr, fun hclr => ?kept, ?ssq, fun hseal g hg hlo hhi => ?sealed, fun e => ?events⟩
  case clr => exact (Tile.drainClear_am_of_set _ hclr).congr hacc.tile.am.symm ham
  case kept => exact ham.trans ((Tile.drainClear_am_of_clear _ hclr).trans hacc.tile.am)
  case ssq => rw [hmisc, Tile.drainEnd_ssq, hacc.tile.ssq]
  case sealed =>
    rw [hmisc]
    exact Tile.drainEnd_sealed _ _ hseal hg hlo hhi
  case events =>
    rw [State.arrDone_ctr _ _ _ _ (by cases e <;> decide), htile, Tile.drainEnd_counted,
      hacc.tile.ctr _ (by cases e <;> decide) (by cases e <;> decide)]

end Completes

/-- Settles O23: what each of the four operations leaves in a quiet tile. -/
theorem arrayOpsComplete : Obligations.ArrayOpsComplete := by
  unfold Obligations.ArrayOpsComplete
  refine ⟨fun s t i o ht hs hi hgo hfirst hq => ?_, fun s t i o ht hs hi hgo hfirst hq hop => ?drain⟩
  · have h := arrayOpComplete_of_started ht hs hi hgo hfirst
    refine ⟨fun hop => ?load, fun hop hbad hfmt => ?accumulate, fun hop _ => ?preload⟩
    case load =>
      rw [if_pos hop] at h
      obtain ⟨hends, ham, hbuf, hother⟩ := State.aldEnd_completes (c := o.arrAcct t) (t := t) rfl hq rfl
      refine ⟨_, h, hends, ham, by rw [hbuf]; rfl, by rw [hbuf]; rfl, fun k hk j hj => ?_, fun hmx k hk => ?_, hother⟩
      · rw [hbuf]
        exact Tile.aldBuf_el _ _ hk hj
      · rw [hbuf]
        exact Tile.aldBuf_sc _ _ hmx hk
    case accumulate =>
      rw [if_neg (by omega), if_pos hop] at h
      exact ⟨_, h, State.amacEnd_completes (c := o.arrAcct t) (t := t) rfl hq rfl hbad hfmt⟩
    case preload =>
      rw [if_neg (by omega), if_neg (by omega), if_pos hop] at h
      exact ⟨_, h, State.apreEnd_completes (c := o.arrAcct t) (t := t) rfl hq rfl⟩
  case drain =>
    have h := arrayOpComplete_of_started ht hs hi hgo hfirst
    rw [if_neg (by omega), if_neg (by omega), if_neg (by omega)] at h
    obtain ⟨y, hleaves⟩ := State.adrnEnd_completes (c := o.arrAcct t) (t := t) rfl hq rfl rfl
    exact ⟨_, y, h, hleaves⟩

end Sys2Proof.Machine

/-! # What the words of an instruction say (R129, R133)

The immediate, the opcode and the bounds that a legal word gives its fields. -/

namespace Sys2Proof.Machine

theorem fld_lt (w : Word) (lo n : Nat) : fld w lo n < 2 ^ n := Nat.mod_lt _ (Nat.two_pow_pos n)

/-- A key is the opcode and, below it, the mode or function (R129). -/
theorem keyOf_div (w : Word) : keyOf w / 16 = fld w 56 8 := by
  have hmode : (if fld w 56 8 = 0x52 then fld w 30 2 else if fld w 56 8 = 0x78 then fld w 28 4 else 0) < 16 := by
    have h30 := fld_lt w 30 2
    have h28 := fld_lt w 28 4
    split
    · omega
    · split <;> omega
  unfold keyOf
  dsimp only
  omega

theorem opcode_of_key {w : Word} {k op : Nat} (h : keyOf w = k) (hop : k / 16 = op) : fld w 56 8 = op := by
  rw [← keyOf_div, h, hop]

/-- A legal word passes the checks on its fields, and names a mark only if its opcode may (R132, R133). -/
theorem legal_spec {q : Strm} {w : Word} (h : legal q w = true) :
    fieldsOk w = true ∧ (bit w 51 = true → markable (fld w 56 8) = true) := by
  unfold legal at h
  extract_lets op isX at h
  split at h
  · exact absurd h (by decide)
  · simp only [Bool.and_eq_true] at h
    obtain ⟨⟨⟨-, hmark⟩, -⟩, hfields⟩ := h
    refine ⟨hfields, fun hbit => ?_⟩
    rw [hbit] at hmark
    exact hmark

/-- A word whose opcode may not name a mark names none (R132). -/
theorem no_mark_of_legal {q : Strm} {w : Word} (h : legal q w = true) (hop : markable (fld w 56 8) = false) : bit w 51 = false := by
  cases hbit : bit w 51
  · rfl
  · rw [(legal_spec h).2 hbit] at hop
    cases hop

/-! ## Immediates -/

theorem toInt_eq_sextNat {n : Nat} (x : BitVec n) (hn : 0 < n) : x.toInt = sextNat n x.toNat := by
  obtain ⟨m, rfl⟩ : ∃ m, n = m + 1 := ⟨n - 1, by omega⟩
  have hpow : 2 ^ (m + 1) = 2 * 2 ^ m := by rw [Nat.pow_succ]; omega
  have hlt := x.isLt
  unfold sextNat
  dsimp only
  rw [Nat.mod_eq_of_lt hlt, BitVec.toInt_eq_toNat_cond, Nat.add_sub_cancel]
  by_cases hsign : 2 * x.toNat < 2 ^ (m + 1)
  · rw [if_pos hsign, if_pos (by omega)]
  · rw [if_neg hsign, if_neg (by omega)]
    push_cast
    rfl

theorem toNat_setWidth_shift (w : Word) (lo n : Nat) : ((w >>> lo).setWidth n).toNat = fld w lo n := by
  rw [BitVec.toNat_setWidth, BitVec.toNat_ushiftRight, fld]

theorem toNat_setWidth_low (w : Word) (n : Nat) : (w.setWidth n).toNat = fld w 0 n := by
  rw [BitVec.toNat_setWidth, fld, Nat.shiftRight_zero]

theorem toInt_setWidth_low (w : Word) {n : Nat} (hn : 0 < n) : (w.setWidth n).toInt = sextNat n (fld w 0 n) := by
  rw [toInt_eq_sextNat _ hn, toNat_setWidth_low]

/-- The signed immediate of R129. -/
theorem signExtend_imm (w : Word) : BitVec.signExtend 64 (w.setWidth 32) = immS w := by
  rw [BitVec.signExtend, toInt_setWidth_low w (by decide), immS, sext64]

/-- The signed row offset of `LDS` and `STS` (R138). -/
theorem signExtend_rowOffset (w : Word) : BitVec.signExtend 64 ((w >>> 16).setWidth 16) = sext64 16 (fld w 16 16) := by
  rw [BitVec.signExtend, toInt_eq_sextNat _ (by decide), toNat_setWidth_shift, sext64]

/-- A branch target (R129). -/
theorem tgt_eq (w : Word) : tgt w = w.setWidth 13 := by
  refine BitVec.eq_of_toNat_eq ?_
  rw [toNat_setWidth_low, tgt, BitVec.toNat_ofNat, Nat.mod_eq_of_lt (fld_lt w 0 13)]

end Sys2Proof.Machine

/-! # The scalar instructions (R138 to R140)

Each writes one register or predicate of its own sequencer in its turn, from values of that sequencer. -/

namespace Sys2Proof.Machine

/-! ## Instructions that write one register -/

/-- A write that neither looks at the program counter nor touches it. -/
def Seq.KeepsPc (f : Seq → Seq) : Prop := ∀ v : Seq, ∀ pc last, f { v with pc := pc, last := last } = { f v with pc := pc, last := last }

theorem Seq.setS_keepsPc (i : Nat) (w : Word) : Seq.KeepsPc fun v => v.setS i w := by
  intro v pc last
  unfold Seq.setS
  split <;> rfl

theorem Seq.setA_keepsPc (i : Nat) (w : Word) : Seq.KeepsPc fun v => v.setA i w := fun _ _ _ => rfl

theorem Seq.setP_keepsPc (i : Nat) (b : Bool) : Seq.KeepsPc fun v => v.setP i b := by
  intro v pc last
  unfold Seq.setP
  split <;> rfl

section

variable {s e : State} {t : Nat} {q : Strm} {w : Word} {key : Nat} {regs : Word → List Nat} (he : s.enter t q = e) (hq : q ≠ .x)
include he hq

/-- An instruction whose body writes its own sequencer's registers by `f`, when it issues. -/
theorem tileInsn_issued {f : Site → Tile → Seq → Seq} (hf : ∀ i x, Seq.KeepsPc (f i x)) (h : e.Issues t q w (regs w))
    (hk : keyOf w = key) : ∃ s', tileInsn key t q s regs (fun i x s => s.issueSeq i fun y => y.modSeq i.q (f i x)) = .next s' ∧
      e.Issued s' t q (e.nextPc t q) 0 (f (e.site t q w) (e.tile t) ((e.tile t).seq q)) := by
  subst he
  exact ⟨_, tileInsn_runs h hk, State.issueSeq_issued _ t q w _ hq (hf _ _)⟩

theorem scalarOp_issued {f : Seq → Word → Word} (h : e.Issues t q w (fD w :: regs w)) (hk : keyOf w = key) :
    ∃ s', scalarOp key t q s regs f = .next s' ∧
      e.Issued s' t q (e.nextPc t q) 0 (((e.tile t).seq q).setS (fD w) (f ((e.tile t).seq q) w)) :=
  tileInsn_issued he hq (regs := fun w => fD w :: regs w) (f := fun i x v => v.setS (fD i.w) (f (x.seq i.q) i.w))
    (fun _ _ => Seq.setS_keepsPc _ _) h hk

theorem predOp_issued {f : Seq → Word → Bool} (h : e.Issues t q w (regs w)) (hk : keyOf w = key) :
    ∃ s', predOp key t q s regs f = .next s' ∧
      e.Issued s' t q (e.nextPc t q) 0 (((e.tile t).seq q).setP (fld w 42 3) (f ((e.tile t).seq q) w)) :=
  tileInsn_issued he hq (f := fun i x v => v.setP (fld i.w 42 3) (f (x.seq i.q) i.w)) (fun _ _ => Seq.setP_keepsPc _ _) h hk

end

/-! ## Arithmetic -/

/-- The two-operand arithmetic instructions with their keys and results (R138). -/
def aluInsns : List (Nat × (Nat → Strm → Instr) × (Word → Word → Word)) :=
  [(0x100, .add, fun a b => a + b), (0x110, .sub, fun a b => a - b), (0x120, .and_, fun a b => a &&& b),
    (0x130, .or_, fun a b => a ||| b), (0x140, .xor, fun a b => a ^^^ b), (0x150, .shl, fun a b => a <<< (b.toNat % 64)),
    (0x160, .shr, fun a b => a >>> (b.toNat % 64)), (0x170, .sar, fun a b => a.sshiftRight (b.toNat % 64)),
    (0x180, .mul, fun a b => BitVec.ofNat 64 (a.toNat * b.toNat)),
    (0x190, .min_, fun a b => BitVec.ofInt 64 (min a.toInt b.toInt)), (0x1A0, .max_, fun a b => BitVec.ofInt 64 (max a.toInt b.toInt))]

theorem ofInt_min_toInt (a b : Word) : BitVec.ofInt 64 (min a.toInt b.toInt) = if b.toInt < a.toInt then b else a := by
  rw [Int.min_def]
  by_cases h : b.toInt < a.toInt
  · rw [if_neg (Int.not_le.2 h), if_pos h, BitVec.ofInt_toInt]
  · rw [if_pos (Int.not_lt.1 h), if_neg h, BitVec.ofInt_toInt]

theorem ofInt_max_toInt (a b : Word) : BitVec.ofInt 64 (max a.toInt b.toInt) = if a.toInt < b.toInt then b else a := by
  rw [Int.max_def]
  by_cases h : a.toInt < b.toInt
  · rw [if_pos (Int.le_of_lt h), if_pos h, BitVec.ofInt_toInt]
  · rw [if_neg h]
    split
    · rw [BitVec.ofInt_toInt]
      exact BitVec.eq_of_toInt_eq (by omega)
    · rw [BitVec.ofInt_toInt]

/-- Each arithmetic instruction is the shared shape with its result; shifts use B[5:0], `MUL` keeps the low 64 bits, `MIN` and `MAX` are
signed. -/
theorem exec_aluInsns (t : Nat) (q : Strm) (s : State) : ∀ e ∈ aluInsns, exec (e.2.1 t q) s = aluOp e.1 t q s e.2.2 := by
  have hmin : (fun a b : Word => BitVec.ofInt 64 (min a.toInt b.toInt)) = fun a b => if b.toInt < a.toInt then b else a :=
    funext fun a => funext fun b => ofInt_min_toInt a b
  have hmax : (fun a b : Word => BitVec.ofInt 64 (max a.toInt b.toInt)) = fun a b => if a.toInt < b.toInt then b else a :=
    funext fun a => funext fun b => ofInt_max_toInt a b
  simp only [aluInsns, List.forall_mem_cons, hmin, hmax]
  exact ⟨rfl, rfl, rfl, rfl, rfl, rfl, rfl, rfl, rfl, rfl, rfl, fun _ h => absurd h List.not_mem_nil⟩

/-- Settles O13: every arithmetic instruction is the one shape of a scalar instruction. -/
theorem scalarArithmetic : Obligations.ScalarArithmetic := by
  unfold Obligations.ScalarArithmetic
  intro e he s₀ t q w hq hk s hissues
  rw [exec_aluInsns t q s₀ e he]
  exact scalarOp_issued (regs := fun w => [fA w, fB w]) rfl hq hissues hk

/-! ## Moves, immediates and compares -/

/-- `LIH` keeps the low half (R138). -/
theorem append_halves (w v : Word) : ((w.setWidth 32 : BitVec 32) ++ (v.setWidth 32 : BitVec 32) : BitVec 64) =
    place 32 32 (fld w 0 32) ||| place 0 32 (fld v 0 32) := by
  refine BitVec.eq_of_getLsbD_eq fun i hi => ?_
  rw [BitVec.getLsbD_append, BitVec.getLsbD_or, place_getLsbD, place_getLsbD, fld_testBit, fld_testBit, BitVec.getLsbD_setWidth,
    BitVec.getLsbD_setWidth]
  by_cases hlow : i < 32
  · simp [hlow, hi, show ¬ 32 ≤ i by omega]
  · simp [hlow, hi, show 32 ≤ i by omega, show i - 32 < 32 by omega]

/-- The conditions of `CMP` and `CMPI` by their code (R140). -/
theorem condHolds_eq {n : Nat} (hn : n ≤ 5) (a b : Word) :
    [a == b, a != b, a.slt b, a.sle b, a.ult b, a.ule b].getD n false = condHolds n a b := by
  interval_cases n <;> rfl

/-- What a stream's turn brings into effect touches neither the state nor the miscellaneous registers of its tile. -/
theorem Tile.takeEffect_misc (x : Tile) (count : Nat → Word) (o : Op) : (x.takeEffect count o).misc = x.misc := by
  unfold Tile.takeEffect
  split
  · rfl
  · rw [Tile.unmark_eq]
    rfl

theorem Tile.settle_misc (x : Tile) (cycle : Nat) (count : Nat → Word) : (x.settle cycle count).misc = x.misc := by
  unfold Tile.settle
  extract_lets r
  show r.1.misc = x.misc
  refine List.foldlRecOn (motive := fun r : Tile × List LateOp => r.1.misc = x.misc) _ _ rfl fun r hr l _ => ?_
  split
  · exact (Tile.takeEffect_misc _ _ _).trans hr
  · exact hr

theorem State.enter_tile_misc (s : State) (t : Nat) (q : Strm) : ((s.enter t q).tile t).misc = (s.tile t).misc := by
  unfold State.enter State.settle
  extract_lets x here
  split
  · rw [State.modTile_tile_self, Tile.settle_misc, State.modTile_tile_self]
    rfl
  · rw [State.modTile_tile_self, Tile.settle_misc, State.modTile_tile_self]

/-- `MOVX` reads the tile ID, the superstep counter, the placement epoch or `NORM` (R139). -/
theorem movx_shape (t : Nat) (q : Strm) (s : State) : ∃ f : Seq → Word → Word,
    exec (.movx t q) s = scalarOp 0x1E0 t q s (fun _ => []) f ∧ ∀ v w,
      (fld w 0 4 = 0 → f v w = BitVec.ofNat 64 t) ∧ (fld w 0 4 = 1 → f v w = s.job.sstep) ∧
      (fld w 0 4 = 2 → f v w = BitVec.ofNat 64 s.job.epoch) ∧ (fld w 0 4 = 3 → f v w = (s.tile t).misc.norm) := by
  show ∃ f, execMovx t q s = _ ∧ _
  unfold execMovx
  refine ⟨_, rfl, fun v w => ⟨fun h => ?_, fun h => ?_, fun h => ?_, fun h => ?_⟩⟩
  all_goals simp only [h]

/-- `PLOG` combines two predicates by its function (R138). -/
theorem plog_shape (t : Nat) (q : Strm) (s : State) : ∃ f : Seq → Word → Bool,
    exec (.plog t q) s = predOp 0x220 t q s (fun _ => []) f ∧ ∀ v w, fld w 28 4 ≤ 3 →
      f v w = [v.preg (fld w 37 3) && v.preg (fld w 32 3), v.preg (fld w 37 3) || v.preg (fld w 32 3),
        v.preg (fld w 37 3) != v.preg (fld w 32 3), v.preg (fld w 37 3) && !v.preg (fld w 32 3)].getD (fld w 28 4) false := by
  show ∃ f, execPlog t q s = _ ∧ _
  unfold execPlog
  refine ⟨_, rfl, fun v w hn => ?_⟩
  dsimp only
  generalize fld w 28 4 = n at hn
  interval_cases n <;> rfl

/-- The sub-function of a legal `CMP`, `CMPI` or `PLOG` (R133). -/
theorem cmp_function_le {q : Strm} {w : Word} (h : legal q w = true) (hop : fld w 56 8 = 0x20) : fld w 28 4 ≤ 5 := by
  have hfields := (legal_spec h).1
  simp only [fieldsOk, hop] at hfields
  exact of_decide_eq_true hfields

theorem cmpi_function_le {q : Strm} {w : Word} (h : legal q w = true) (hop : fld w 56 8 = 0x21) : fld w 32 4 ≤ 5 := by
  have hfields := (legal_spec h).1
  simp only [fieldsOk, hop] at hfields
  exact of_decide_eq_true hfields

theorem plog_function_le {q : Strm} {w : Word} (h : legal q w = true) (hop : fld w 56 8 = 0x22) : fld w 28 4 ≤ 3 := by
  have hfields := (legal_spec h).1
  simp only [fieldsOk, hop] at hfields
  exact of_decide_eq_true hfields

/-- Settles O14: every move is the shape of a scalar instruction, every compare that of a predicate instruction; a legal word gives the
function one of its values. -/
theorem scalarMovesAndCompares : Obligations.ScalarMovesAndCompares := by
  unfold Obligations.ScalarMovesAndCompares
  refine ⟨fun s₀ t q w hq => ?moves, fun s₀ t q w hq => ?compares⟩
  case moves =>
    intro s v imm done
    have himm : imm = immS w := signExtend_imm w
    refine ⟨fun hk h => ?addi, fun hk h => ?li, fun hk h => ?lih, fun hk h => ?movx, fun hk h => ?ard, fun hk h => ?amov,
      fun hk h => ?aaddi⟩
    case addi =>
      rw [himm]
      exact scalarOp_issued (regs := fun w => [fA w]) (f := fun v w => v.sreg (fA w) + immS w) rfl hq h hk
    case li =>
      rw [himm]
      exact scalarOp_issued (regs := fun _ => []) (f := fun _ w => immS w) rfl hq h hk
    case lih =>
      rw [append_halves]
      exact scalarOp_issued (regs := fun _ => [])
        (f := fun v w => place 32 32 (fld w 0 32) ||| place 0 32 (fld (v.sreg (fD w)) 0 32)) rfl hq h hk
    case movx =>
      obtain ⟨f, hshape, hvalue⟩ := movx_shape t q s₀
      obtain ⟨hid, hstep, hepoch, hnorm⟩ := hvalue v w
      obtain ⟨s', hs', hissued⟩ := scalarOp_issued (regs := fun _ => []) (f := f) rfl hq h hk
      have hjob : s.job = s₀.job := (s₀.enter_frame t q).1
      have hmisc : (s.tile t).misc = (s₀.tile t).misc := s₀.enter_tile_misc t q
      refine ⟨fun hn => ?_, fun hn => ?_, fun hn => ?_, fun hn => ?_⟩
      · exact ⟨s', hshape.trans hs', hid hn ▸ hissued⟩
      · exact ⟨s', hshape.trans hs', by rw [hjob, ← hstep hn]; exact hissued⟩
      · exact ⟨s', hshape.trans hs', by rw [hjob, ← hepoch hn]; exact hissued⟩
      · exact ⟨s', hshape.trans hs', by rw [hmisc, ← hnorm hn]; exact hissued⟩
    case ard => exact scalarOp_issued (regs := fun _ => []) (f := fun v w => v.areg (fld w 37 3)) rfl hq h hk
    case amov =>
      exact tileInsn_issued (regs := fun w => [fA w]) (f := fun i x v => v.setA (fld i.w 42 3) ((x.seq i.q).sreg (fA i.w))) rfl hq
        (fun _ _ => Seq.setA_keepsPc _ _) h hk
    case aaddi =>
      rw [himm]
      exact tileInsn_issued (regs := fun _ => []) (f := fun i x v => v.setA (fld i.w 42 3) ((x.seq i.q).areg (fld i.w 37 3) + immS i.w))
        rfl hq (fun _ _ => Seq.setA_keepsPc _ _) h hk
  case compares =>
    intro s v holds done
    refine ⟨fun hk h => ?cmp, fun hk h => ?cmpi, fun hk h => ?plog⟩
    case cmp =>
      rw [show holds _ _ _ = _ from condHolds_eq (cmp_function_le h.legal (opcode_of_key hk rfl)) _ _]
      exact predOp_issued (regs := fun w => [fA w, fB w])
        (f := fun v w => condHolds (fld w 28 4) (v.sreg (fA w)) (v.sreg (fB w))) rfl hq h hk
    case cmpi =>
      rw [show holds _ _ _ = _ from condHolds_eq (cmpi_function_le h.legal (opcode_of_key hk rfl)) _ _, signExtend_imm]
      exact predOp_issued (regs := fun w => [fA w]) (f := fun v w => condHolds (fld w 32 4) (v.sreg (fA w)) (immS w)) rfl hq h hk
    case plog =>
      intro a b
      obtain ⟨f, hshape, hvalue⟩ := plog_shape t q s₀
      obtain ⟨s', hs', hissued⟩ := predOp_issued (regs := fun _ => []) (f := f) rfl hq h hk
      exact ⟨s', hshape.trans hs', hvalue v w (plog_function_le h.legal (opcode_of_key hk rfl)) ▸ hissued⟩

end Sys2Proof.Machine

/-! # Control and waits (R134 to R137)

Branches move the program counter and count bubbles; a wait either issues as a no-op or stalls; `BRK` halts its stream; `SYNC` ends the
compute phase of its stream. -/

namespace Sys2Proof.Machine

theorem Tile.modSeq_id (x : Tile) (q : Strm) : x.modSeq q id = x := by cases q <;> rfl

theorem modSeq_id_eq_id (q : Strm) : (fun y : Tile => y.modSeq q id) = id := funext fun y => y.modSeq_id q

/-- An instruction that only moves on. -/
theorem State.issueSeq_noop (s : State) (t : Nat) {q : Strm} (w : Word) (hq : q ≠ .x) :
    s.Issued (s.issueSeq (s.site t q w) id) t q (s.nextPc t q) 0 ((s.tile t).seq q) := by
  rw [← modSeq_id_eq_id q]
  exact State.issueSeq_issued _ t q w id hq fun _ _ _ => rfl

/-- A branch that writes no register. -/
theorem State.branchTo_jump (s : State) (t : Nat) {q : Strm} (w : Word) (target : BitVec 13) (hq : q ≠ .x) :
    s.Issued (s.branchTo (s.site t q w) target id) t q target ((s.tile t).bubbles q) ((s.tile t).seq q) := by
  rw [← modSeq_id_eq_id q]
  exact State.branchTo_issued _ t q w target id hq fun _ _ _ => rfl

/-- The instruction of a stream moves on and the stream halts at stream scope (R137). -/
def State.haltAfter (s : State) (t : Nat) (q : Strm) (w : Word) : State :=
  (s.issueSeq (s.site t q w) id).modTile t fun x => x.haltBy q 0

/-! ## What each instruction does when it issues -/

section

variable {s e : State} {t : Nat} {q : Strm} {w : Word} (he : s.enter t q = e)
include he

theorem nop_runs (h : e.Issues t q w []) (hk : keyOf w = 0x000) : exec (.nop t q) s = .next (e.issueSeq (e.site t q w) id) := by
  subst he
  show execNop t q s = _
  rw [execNop, tileInsn_runs h hk]

theorem br_runs (h : e.Issues t q w []) (hk : keyOf w = 0x010) :
    exec (.br t q) s = .next (e.branchTo (e.site t q w) (tgt w) id) := by
  subst he
  show execBr t q s = _
  rw [execBr, tileInsn_runs h hk]
  rfl

theorem call_runs (h : e.Issues t q w [31]) (hk : keyOf w = 0x020) : exec (.call t q) s = .next
    (e.branchTo (e.site t q w) (tgt w) fun y => y.modSeq q fun v => v.setS 31 (BitVec.ofNat 64 ((e.tile t).pc q + 1))) := by
  subst he
  show execCall t q s = _
  rw [execCall, tileInsn_runs h hk]
  rfl

theorem ret_runs (h : e.Issues t q w [31]) (hk : keyOf w = 0x030) :
    exec (.ret t q) s = .next (e.branchTo (e.site t q w) (tgt (((e.tile t).seq q).sreg 31)) id) := by
  subst he
  show execRet t q s = _
  rw [execRet, tileInsn_runs h hk]
  rfl

theorem bri_runs (h : e.Issues t q w [fA w]) (hk : keyOf w = 0x040) :
    exec (.bri t q) s = .next (e.branchTo (e.site t q w) (tgt (((e.tile t).seq q).sreg (fA w))) id) := by
  subst he
  show execBri t q s = _
  rw [execBri, tileInsn_runs h hk]
  rfl

/-- An `MWAIT` moves on where its marks are zero, and stalls else (R53). -/
theorem mwait_runs (h : e.Issues t q w []) (hk : keyOf w = 0x050) : exec (.mwait t q) s = .next
    (if (List.range 16).all (fun n => !bit w n || decide (((e.tile t).seq q).mark n = 0)) = true
      then e.issueSeq (e.site t q w) id else e.stall (e.site t q w) 3) := by
  subst he
  show execMwait t q s = _
  rw [execMwait, tileInsn_runs h hk]
  rfl

/-- A `PWAIT` stalls while a tag it names is in flight for its stream, and notes it as late; else it moves on (R190, R221). -/
theorem pwait_runs (h : e.Issues t q w [fA w]) (hk : keyOf w = 0x060) : exec (.pwait t q) s = .next
    (if (e.tile t).io.tags.any (fun g => decide (g.q = q) && bit (((e.tile t).seq q).sreg (fA w)) g.tag) = true
      then (e.modTile t fun y => y.noteLate q (((e.tile t).seq q).sreg (fA w))).stall (e.site t q w) 4
      else e.issueSeq (e.site t q w) id) := by
  subst he
  show execPwait t q s = _
  rw [execPwait, tileInsn_runs h hk]
  rfl

/-- A `SYNC` stalls while an operation of its stream is in flight; else its stream has ended its phase, and the tile may arrive (R65, R136). -/
theorem sync_runs (h : e.Issues t q w []) (hk : keyOf w = 0x070) : exec (.sync t q) s = .next
    (if (e.tile t).drained q = true then
      (e.issueSeq (e.site t q w) fun y =>
        if q = .u then (y.modSeq q fun v => { v with sync := true }).biasStep else y.modSeq q fun v => { v with sync := true }).arrive t
    else e.stall (e.site t q w) 6) := by
  subst he
  show execSync t q s = _
  rw [execSync, tileInsn_runs h hk]
  rfl

/-- A `BRK` moves on; with breakpoints enabled its stream is halted and a debug event carries `CODE` (R137). -/
theorem brk_runs (h : e.Issues t q w []) (hk : keyOf w = 0x080) : exec (.brk t q) s = .next
    (if e.dbg.bpen = true then (e.haltAfter t q w).debugEvent t 3 (Strm.code q) 0 (fld w 0 8) (((e.haltAfter t q w).tile t).slot q)
    else e.issueSeq (e.site t q w) id) := by
  subst he
  show execBrk t q s = _
  rw [execBrk, tileInsn_runs h hk]
  rfl

end

/-! ## Branches and waits -/

/-- Whether every mark that an `MWAIT` names is zero (R53). -/
theorem marks_zero_iff (w : Word) (v : Seq) : ((List.range 16).all fun n => !bit w n || decide (v.mark n = 0)) = true ↔
    ∀ n < 16, bit w n = true → v.mark n = 0 := by
  simp only [List.all_eq_true, List.mem_range, Bool.or_eq_true, Bool.not_eq_true', decide_eq_true_eq]
  refine forall₂_congr fun n _ => ?_
  cases bit w n <;> simp

/-- Whether a tag that a `PWAIT` names is in flight for its stream (R190). -/
theorem tag_in_flight_iff (l : List Xfer) (q : Strm) (m : Word) : (l.any fun g => decide (g.q = q) && bit m g.tag) = true ↔
    ∃ g ∈ l, g.q = q ∧ bit m g.tag = true := by
  simp only [List.any_eq_true, Bool.and_eq_true, decide_eq_true_eq]

/-- Settles O15: branches are the shape of a branch with their target, waits the two ends of their condition. That `CALL` at the last slot
of a partition of 8,192 writes 8,192 is the model's choice (log 13). -/
theorem controlAndWaits : Obligations.ControlAndWaits := by
  unfold Obligations.ControlAndWaits
  refine ⟨fun s₀ t q w hq => ?branches, fun s₀ t q w hq => ?waits⟩
  case branches =>
    intro s v b done
    refine ⟨fun hk h => ⟨_, nop_runs rfl h hk, s.issueSeq_noop t w hq⟩, fun hk h => ⟨_, br_runs rfl h hk, ?br⟩,
      fun hk h => ⟨_, call_runs rfl h hk, ?call⟩, fun hk h => ⟨_, ret_runs rfl h hk, ?ret⟩, fun hk h => ⟨_, bri_runs rfl h hk, ?bri⟩⟩
    case call =>
      rw [← tgt_eq]
      exact State.branchTo_issued _ t q w _ _ hq (Seq.setS_keepsPc 31 _)
    all_goals
      rw [← tgt_eq]
      exact s.branchTo_jump t w _ hq
  case waits =>
    intro s v m stall
    refine ⟨fun hk h => ?mwait, fun hk h => ?pwait⟩
    case mwait =>
      rw [mwait_runs rfl h hk]
      refine ⟨fun hzero => ?_, fun ⟨n, hn, hnamed, hpending⟩ => ?_⟩
      · exact ⟨_, congrArg _ (if_pos ((marks_zero_iff w v).2 hzero)), s.issueSeq_noop t w hq⟩
      · exact congrArg _ (if_neg fun hzero => hpending ((marks_zero_iff w v).1 hzero n hn hnamed))
    case pwait =>
      rw [pwait_runs rfl h hk]
      refine ⟨fun hfree => ⟨_, congrArg _ (if_neg fun hany => ?_), s.issueSeq_noop t w hq⟩, fun hbusy => ?_⟩
      · obtain ⟨g, hg, hgq, hbit⟩ := (tag_in_flight_iff _ q m).1 hany
        rw [hfree g hg hgq] at hbit
        cases hbit
      · rw [if_pos ((tag_in_flight_iff _ q m).2 hbusy)]
        rfl

/-! ## BRK -/

theorem Tile.haltBy_seq (x : Tile) {q : Strm} (scope : Nat) (hq : q ≠ .x) : (x.haltBy q scope).seq q = { x.seq q with halted := true } := by
  cases q
  case x => exact absurd rfl hq
  all_goals rfl

theorem Tile.haltBy_seq_ne (x : Tile) {q r : Strm} (scope : Nat) (hr : r ≠ q) : (x.haltBy q scope).seq r = x.seq r := by
  cases q
  case x => cases r <;> rfl
  all_goals exact x.modSeq_seq_ne _ r (fun v => { v with halted := true }) hr

theorem Tile.haltBy_frame (x : Tile) {q : Strm} (scope : Nat) (hq : q ≠ .x) :
    (x.haltBy q scope).sq.x = x.sq.x ∧ (x.haltBy q scope).sp = x.sp ∧ (x.haltBy q scope).am = x.am ∧ (x.haltBy q scope).io = x.io ∧
      (x.haltBy q scope).misc.dbg = x.misc.dbg ∧ (x.haltBy q scope).misc.dbgCyc = x.misc.dbgCyc := by
  cases q
  case x => exact absurd rfl hq
  all_goals exact ⟨rfl, rfl, rfl, rfl, rfl, rfl⟩

/-- Whether `TILE_DBG_STAT` keeps what it holds when an event of kind 3 comes in compute cycle `cyc` (R492). -/
def TileMisc.keepsDbg (m : TileMisc) (cyc kind : Nat) : Bool := bit m.dbg 63 && !(decide (m.dbgCyc = cyc) && decide (kind < fld m.dbg 60 3))

theorem TileMisc.keepsDbg_iff (m : TileMisc) (cyc kind : Nat) :
    m.keepsDbg cyc kind = true ↔ bit m.dbg 63 = true ∧ ¬ (m.dbgCyc = cyc ∧ kind < fld m.dbg 60 3) := by
  rw [TileMisc.keepsDbg, Bool.and_eq_true, Bool.not_eq_true', ← Bool.not_eq_true, Bool.and_eq_true, decide_eq_true_eq, decide_eq_true_eq]

theorem Tile.dbgRecord_frame (x : Tile) (cyc kind : Nat) (w : Word) :
    (∀ r, (x.dbgRecord cyc kind w).seq r = x.seq r) ∧ (x.dbgRecord cyc kind w).sq.x = x.sq.x ∧ (x.dbgRecord cyc kind w).sp = x.sp ∧
      (x.dbgRecord cyc kind w).am = x.am ∧ (x.dbgRecord cyc kind w).io = x.io := by
  unfold Tile.dbgRecord
  split
  all_goals exact ⟨fun r => by cases r <;> rfl, rfl, rfl, rfl, rfl⟩

theorem Tile.dbgRecord_of_kept {x : Tile} {cyc kind : Nat} (h : x.misc.keepsDbg cyc kind = true) (w : Word) :
    x.dbgRecord cyc kind w = x := if_pos ((x.misc.keepsDbg_iff cyc kind).1 h)

theorem Tile.dbgRecord_of_not_kept {x : Tile} {cyc kind : Nat} (h : x.misc.keepsDbg cyc kind = false) (w : Word) :
    (x.dbgRecord cyc kind w).misc.dbg = place 63 1 1 ||| place 60 3 kind ||| w := by
  rw [Tile.dbgRecord, if_neg fun hk => by rw [(x.misc.keepsDbg_iff cyc kind).2 hk] at h; cases h]

/-- The fields of a debug record (R492). -/
theorem dbgWord_fields {kind stream engine code pc : Nat} (hkind : kind < 2 ^ 3) (hstream : stream < 2 ^ 3) (hcode : code < 2 ^ 8) :
    let w := place 63 1 1 ||| place 60 3 kind ||| (place 56 3 stream ||| place 52 4 engine ||| place 40 8 code ||| place 0 13 pc)
    bit w 63 = true ∧ fld w 60 3 = kind ∧ fld w 56 3 = stream ∧ fld w 40 8 = code := by
  intro w
  refine ⟨?_, ?_, ?_, ?_⟩
  · show BitVec.getLsbD _ _ = true
    simp [w, place_getLsbD]
  · simp (disch := omega) only [w, fld_or, fld_place_self, fld_place_of_disjoint, Nat.zero_or, Nat.or_zero, Nat.mod_eq_of_lt hkind]
  · simp (disch := omega) only [w, fld_or, fld_place_self, fld_place_of_disjoint, Nat.zero_or, Nat.or_zero, Nat.mod_eq_of_lt hstream]
  · simp (disch := omega) only [w, fld_or, fld_place_self, fld_place_of_disjoint, Nat.zero_or, Nat.or_zero, Nat.mod_eq_of_lt hcode]

theorem State.haltAfter_tile (s : State) (t : Nat) (q : Strm) (w : Word) : (s.haltAfter t q w).tile t =
    ((s.tile t).issue (s.site t q w) (s.nextPc t q)).haltBy q 0 := by
  rw [State.haltAfter, State.modTile_tile_self]
  exact congrArg (Tile.haltBy · q 0) (State.issueWith_tile s (s.site t q w) _ id)

theorem State.haltAfter_frame (s : State) (t : Nat) (q : Strm) (w : Word) : (s.haltAfter t q w).cycle = s.cycle ∧
    (s.haltAfter t q w).job = s.job ∧ ∀ u, u ≠ t → (s.haltAfter t q w).tile u = s.tile u := by
  have hrest : s.SameBut t (s.issueSeq (s.site t q w) id) := State.issueWith_sameBut s (s.site t q w) _ id
  refine ⟨?_, hrest.job, fun u hu => ?_⟩
  · show (s.issueSeq (s.site t q w) id).cycle = s.cycle
    rw [State.cycle, State.cycle, hrest.power, hrest.sub]
  · rw [State.haltAfter, State.modTile_tile_ne _ _ _ _ hu, hrest.tiles u hu]

theorem State.debugEvent_frame (s : State) (t kind stream engine code pc : Nat) :
    (s.debugEvent t kind stream engine code pc).job = s.job ∧
    (s.debugEvent t kind stream engine code pc).tile t = (s.tile t).dbgRecord s.cycle kind
      (place 56 3 stream ||| place 52 4 engine ||| place 40 8 code ||| place 0 13 pc) ∧
    ∀ u, u ≠ t → (s.debugEvent t kind stream engine code pc).tile u = s.tile u := by
  unfold State.debugEvent
  extract_lets s1
  have hsame := s1.fixTrigger_sameUnits 1 false
  refine ⟨hsame.job, (hsame.tile t).trans (State.modTile_tile_self _ _ _), fun u hu => ?_⟩
  rw [hsame.tile u, State.modTile_tile_ne _ _ _ _ hu]

/-- A tile whose stream has moved on, halts and records a debug event with the fields `code` (R137, R492). -/
theorem Tile.halted_recorded {x y : Tile} {i : Site} {next : BitVec 13} {cyc kind : Nat} {code : Word} (hq : i.q ≠ .x)
    (hy : y = ((x.issue i next).haltBy i.q 0).dbgRecord cyc kind code) : y.seq i.q = { x.seq i.q with pc := next, last := BitVec.ofNat 13 i.pc, halted := true } ∧
    (∀ r, r ≠ i.q → y.seq r = x.seq r) ∧ y.sq.x = x.sq.x ∧ y.sp = x.sp ∧ y.am = x.am ∧ y.io = x.io ∧
    (x.misc.keepsDbg cyc kind = true → y.misc.dbg = x.misc.dbg) ∧
    (x.misc.keepsDbg cyc kind = false → y.misc.dbg = place 63 1 1 ||| place 60 3 kind ||| code) := by
  subst hy
  obtain ⟨hseqs, hx, hsp, ham, hio⟩ := ((x.issue i next).haltBy i.q 0).dbgRecord_frame cyc kind code
  obtain ⟨hhx, hhsp, hham, hhio, hdbg, hcyc⟩ := (x.issue i next).haltBy_frame 0 hq
  have hdata := x.issue_data i next
  have hmisc : (x.issue i next).misc.dbg = x.misc.dbg ∧ (x.issue i next).misc.dbgCyc = x.misc.dbgCyc := by
    rw [hdata.misc]
    exact ⟨rfl, rfl⟩
  have hkeeps : ((x.issue i next).haltBy i.q 0).misc.keepsDbg cyc kind = x.misc.keepsDbg cyc kind := by
    rw [TileMisc.keepsDbg, TileMisc.keepsDbg, hdbg, hcyc, hmisc.1, hmisc.2]
  refine ⟨?_, fun r hr => ?_, ?_, ?_, ?_, ?_, fun h => ?_, fun h => ?_⟩
  · rw [hseqs, Tile.haltBy_seq _ 0 hq, x.issue_seq i next hq]
  · rw [hseqs, Tile.haltBy_seq_ne _ 0 hr, x.issue_seq_ne i next r hr]
  · rw [hx, hhx, x.issue_x i next hq]
  · rw [hsp, hhsp, hdata.sp.1]
  · rw [ham, hham, hdata.am.1]
  · rw [hio, hhio, hdata.io]
  · rw [Tile.dbgRecord_of_kept (hkeeps.trans h), hdbg, hmisc.1]
  · exact Tile.dbgRecord_of_not_kept (hkeeps.trans h) code

/-- Settles O16: with breakpoints enabled `BRK` is a step of a no-op, a halt of its stream and a debug event. -/
theorem brkHaltsItsStream : Obligations.BrkHaltsItsStream := by
  unfold Obligations.BrkHaltsItsStream
  intro s₀ t q w hq hk s h
  have hrun := brk_runs (e := s) rfl h hk
  clear_value s
  generalize ((s.haltAfter t q w).tile t).slot q = pc at hrun
  refine ⟨fun hoff => ⟨_, hrun.trans (congrArg _ (if_neg (by rw [hoff]; decide))), s.issueSeq_noop t w hq⟩,
    fun hon => ⟨_, hrun.trans (congrArg _ (if_pos hon)), ?_⟩⟩
  obtain ⟨hcycle, hjob, htiles⟩ := s.haltAfter_frame t q w
  obtain ⟨hjob', htile, htiles'⟩ := (s.haltAfter t q w).debugEvent_frame t 3 (Strm.code q) 0 (fld w 0 8) pc
  rw [hcycle, State.haltAfter_tile] at htile
  obtain ⟨hseq, hseqs, hx, hsp, ham, hio, hkept, hnew⟩ := Tile.halted_recorded (i := s.site t q w) hq htile
  refine ⟨hseq, hseqs, hx, hsp, ham, hio, fun u hu => (htiles' u hu).trans (htiles u hu), hjob'.trans hjob, hkept, fun h => ?_⟩
  rw [hnew h]
  exact dbgWord_fields (by decide) (Strm.code_lt q) (fld_lt w 0 8)

/-! ## SYNC -/

theorem State.tile_eq_of_tiles {a b : State} (h : a.tiles = b.tiles) (u : Nat) : a.tile u = b.tile u := by rw [State.tile, State.tile, h]

theorem State.ownReport_tiles (s : State) : s.ownReport.tiles = s.tiles := by
  unfold State.ownReport
  extract_lets v s1 n s2
  split
  · split
    · rfl
    · split
      · split
        · rw [State.queueSym_tiles]
          rfl
        · rfl
      · rfl
  · rfl

/-- The tile arrives when it computes and F, B and U all stand after their `SYNC`; nothing else of the tiles changes but the ballast (R65). -/
theorem State.arrive_frame (s : State) (t : Nat) :
    (((s.arrive t).tile t).st = if (s.tile t).st = 3 ∧ [Strm.f, .b, .u].all (s.tile t).synced = true then 4 else (s.tile t).st) ∧
    (∀ r, ((s.arrive t).tile t).seq r = (s.tile t).seq r) ∧ ((s.arrive t).tile t).sp = (s.tile t).sp ∧
    ((s.arrive t).tile t).am = (s.tile t).am ∧ ((s.arrive t).tile t).io = (s.tile t).io ∧
    ((s.arrive t).tile t).ctab = (s.tile t).ctab ∧ ∀ u, u ≠ t → (s.arrive t).tile u = s.tile u := by
  unfold State.arrive
  extract_lets x d
  split
  case isTrue harrives =>
    have htile : ∀ (a : State) u, a.took.ownReport.tile u = a.tile u := fun a u => State.tile_eq_of_tiles a.took.ownReport_tiles u
    rw [htile, State.modTile_tile_self]
    exact ⟨rfl, fun r => by cases r <;> rfl, rfl, rfl, rfl, rfl, fun u hu => (htile _ u).trans (State.modTile_tile_ne _ _ _ _ hu)⟩
  case isFalse => exact ⟨rfl, fun _ => rfl, rfl, rfl, rfl, rfl, fun _ _ => rfl⟩

/-- The tile after the effect of a `SYNC` (R98, R136). -/
def Tile.syncs (x : Tile) (q : Strm) : Tile :=
  if q = .u then (x.modSeq q fun v => { v with sync := true }).biasStep else x.modSeq q fun v => { v with sync := true }

/-- A `SYNC` sets the stream's bit; that of U steps the biases, which stand in the coefficient table. -/
theorem Tile.syncs_eq (x : Tile) (q : Strm) : ∃ c, x.syncs q = { x.modSeq q fun v => { v with sync := true } with ctab := c } ∧
    (q ≠ .u → c = x.ctab) := by
  unfold Tile.syncs
  by_cases hu : q = .u
  · rw [if_pos hu]
    exact ⟨_, rfl, fun h => absurd hu h⟩
  · rw [if_neg hu]
    exact ⟨_, rfl, fun _ => rfl⟩

theorem Tile.syncs_frame (x : Tile) {q : Strm} (hq : q ≠ .x) :
    (x.syncs q).seq q = { x.seq q with sync := true } ∧ (∀ r, r ≠ q → (x.syncs q).seq r = x.seq r) ∧ (x.syncs q).sp = x.sp ∧
    (x.syncs q).am = x.am ∧ (x.syncs q).io = x.io ∧ (x.syncs q).st = x.st ∧ (x.syncs q).cfg = x.cfg ∧
    (q ≠ .u → (x.syncs q).ctab = x.ctab) := by
  obtain ⟨c, hsyncs, hctab⟩ := x.syncs_eq q
  rw [hsyncs]
  exact ⟨x.modSeq_seq q (fun v => { v with sync := true }) hq, fun r hr => x.modSeq_seq_ne q r (fun v => { v with sync := true }) hr, rfl, rfl, rfl, rfl, rfl, hctab⟩

/-- A tile in which stream `q` alone has synced since: the streams that stand after their `SYNC` (R38). -/
theorem Tile.synced_of_sync {x y : Tile} {q r : Strm} (hr : r ≠ .x) (hsync : (y.seq q).sync = true)
    (hseqs : ∀ r, r ≠ q → y.seq r = x.seq r) (hcfg : y.cfg = x.cfg) : y.synced r = (r == q || x.synced r) := by
  have hpart : y.used r = x.used r := by rw [Tile.used, Tile.used, Tile.part.eq_def, Tile.part.eq_def, Tile.reg, Tile.reg, hcfg]
  have hsynced : ∀ z : Tile, z.synced r = ((z.seq r).sync || !z.used r) := fun z => by
    cases r
    case x => exact absurd rfl hr
    all_goals rfl
  rw [hsynced, hsynced, hpart]
  by_cases hrq : r = q
  · subst hrq
    rw [hsync]
    simp
  · rw [hseqs r hrq, beq_eq_false_iff_ne.2 hrq, Bool.false_or]

theorem State.computes_of_mayIssue {s : State} {t : Nat} {q : Strm} (h : s.mayIssue t q = true) (hq : q ≠ .x) : (s.tile t).st = 3 := by
  unfold State.mayIssue at h
  simp only [Bool.and_eq_true] at h
  obtain ⟨⟨-, hphase⟩, -⟩ := h
  cases q
  case x => exact absurd rfl hq
  all_goals exact of_decide_eq_true hphase

theorem Tile.drained_iff (x : Tile) (q : Strm) : x.drained q = true ↔ ∀ o ∈ x.io.arr ++ x.io.vec ++ x.io.out, o.q ≠ q := by
  rw [Tile.drained, List.all_eq_true]
  exact forall₂_congr fun o _ => decide_eq_true_iff

/-- Settles O17: a `SYNC` with operations in flight is the shared stall, else a step of its stream and the arrival. That the waiting cycle
counts under cause `SYNC` is the model's choice (log 3). -/
theorem syncEndsTheComputePhase : Obligations.SyncEndsTheComputePhase := by
  unfold Obligations.SyncEndsTheComputePhase
  intro s₀ t q w hq hk s h
  have hrun := sync_runs (e := s) rfl h hk
  clear_value s
  refine ⟨fun ⟨o, ho, hoq⟩ => ?busy, fun hfree => ⟨_, hrun.trans (congrArg _ (if_pos (((s.tile t).drained_iff q).2 hfree))), ?_⟩⟩
  case busy =>
    rw [hrun, if_neg fun hdrained => ((s.tile t).drained_iff q).1 hdrained o ho hoq, State.stall]
    congr 3
    show 0x100 + 0x40 * Strm.code q + 8 * 6 = _
    omega
  generalize he : s.issueSeq (s.site t q w) _ = e
  have htile : e.tile t = ((s.tile t).issue (s.site t q w) (s.nextPc t q)).syncs q := by
    rw [← he]
    exact State.issueWith_tile s (s.site t q w) _ _
  have hothers : ∀ u, u ≠ t → e.tile u = s.tile u := by
    rw [← he]
    exact (State.issueWith_sameBut s (s.site t q w) _ _).tiles
  obtain ⟨hst, hseqs, hsp, ham, hio, hctab, htiles⟩ := e.arrive_frame t
  obtain ⟨hseq', hseqs', hsp', ham', hio', hst', hcfg', hctab'⟩ := ((s.tile t).issue (s.site t q w) (s.nextPc t q)).syncs_frame hq
  rw [← htile] at hseq' hseqs' hsp' ham' hio' hst' hcfg' hctab'
  have hissue := (s.tile t).issue_seq (s.site t q w) (s.nextPc t q) hq
  have hissues := (s.tile t).issue_seq_ne (s.site t q w) (s.nextPc t q)
  have hdata := (s.tile t).issue_data (s.site t q w) (s.nextPc t q)
  have hkept : ∀ r, r ≠ q → (e.tile t).seq r = (s.tile t).seq r := fun r hr => (hseqs' r hr).trans (hissues r hr)
  have hsynced : ∀ r, r ≠ .x → (e.tile t).synced r = (r == q || (s.tile t).synced r) := fun r hr =>
    Tile.synced_of_sync hr (by rw [hseq']) hkept (hcfg'.trans hdata.cfg)
  have hcompute := State.computes_of_mayIssue h.may hq
  refine ⟨?_, fun r hr => (hseqs r).trans (hkept r hr), hsp.trans (hsp'.trans hdata.sp.1), ham.trans (ham'.trans hdata.am.1),
    hio.trans (hio'.trans hdata.io), ?_, fun hu => hctab.trans ((hctab' hu).trans hdata.ctab.1),
    fun u hu => (htiles u hu).trans (hothers u hu)⟩
  · rw [hseqs, hseq', show ((s.tile t).issue (s.site t q w) (s.nextPc t q)).seq q = _ from hissue]
    rfl
  · have hall : [Strm.f, .b, .u].all (e.tile t).synced = [Strm.f, .b, .u].all fun r => r == q || (s.tile t).synced r := by
      simp [hsynced]
    rw [hst, hst', hdata.st, hcompute, hall]
    simp

end Sys2Proof.Machine

/-! # Operations that start and wait for a register (R48, R53)

The shape of an issue whose operation joins the ones in flight, with registers of its sequencer noted as waiting; its accesses join apart. -/

namespace Sys2Proof.Machine

/-- A change of a sequencer that looks neither at its marks nor at its program counter, and keeps them. -/
structure Seq.KeepsMarks (g : Seq → Seq) : Prop where
  pc : Seq.KeepsPc g
  mark : ∀ (v : Seq) n, g (v.addMark n) = (g v).addMark n

theorem Seq.keepsMarks_id : Seq.KeepsMarks id := ⟨fun _ _ _ => rfl, fun _ _ => rfl⟩

/-- Register `d` waits for a result; register 0 never does (R43, R48). -/
def Seq.await (d : Nat) (v : Seq) : Seq := if d = 0 then v else { v with busy := d :: v.busy }

theorem Seq.await_keepsMarks (d : Nat) : Seq.KeepsMarks (Seq.await d) := by
  unfold Seq.await
  refine ⟨fun v pc last => ?_, fun v n => ?_⟩
  all_goals split <;> rfl

/-- The tile of an instruction that issues in order, and the rest of the module. -/
theorem State.issueSeq_tile (s : State) (t : Nat) (q : Strm) (w : Word) (f : Tile → Tile) :
    (s.issueSeq (s.site t q w) f).tile t = f ((s.tile t).issue (s.site t q w) (s.nextPc t q)) := State.issueWith_tile s (s.site t q w) _ f

theorem State.issueSeq_sameBut (s : State) (t : Nat) (q : Strm) (w : Word) (f : Tile → Tile) :
    s.SameBut t (s.issueSeq (s.site t q w) f) := State.issueWith_sameBut s (s.site t q w) _ f

section

variable {s s' : State} {t : Nat} {q : Strm} {w : Word} {v : Seq} {ops : TileIo → TileIo} {l : List Acc}

/-- An instruction whose operation starts leaves the place, the mark and what its sequencer notes, and nothing else. -/
theorem State.started_taken {g : Seq → Seq} (hq : q ≠ .x) (hops : TileIo.KeepsAcc ops) (hg : Seq.KeepsMarks g) :
    s.Taken (s.issueSeq (s.site t q w) fun y => ((y.startOp (s.site t q w)).modIo ops).modSeq q g) t q w (g ((s.tile t).seq q)) ops [] := by
  have htile := s.issueSeq_tile t q w fun y => ((y.startOp (s.site t q w)).modIo ops).modSeq q g
  have hrest := s.issueSeq_sameBut t q w fun y => ((y.startOp (s.site t q w)).modIo ops).modSeq q g
  generalize s.issueSeq (s.site t q w) _ = s' at htile hrest ⊢
  have hdata := (s.tile t).issue_data (s.site t q w) (s.nextPc t q)
  have hseq := (s.tile t).issue_seq (s.site t q w) (s.nextPc t q) hq
  have hne := (s.tile t).issue_seq_ne (s.site t q w) (s.nextPc t q)
  have hx := (s.tile t).issue_x (s.site t q w) (s.nextPc t q) hq
  have hctr := (s.tile t).issue_ctr (s.site t q w) (s.nextPc t q)
  generalize (s.tile t).issue (s.site t q w) (s.nextPc t q) = x at htile hdata hseq hne hx hctr
  have hmodSeq := Tile.modSeq_seq ((x.startOp (s.site t q w)).modIo ops) q g hq
  have hmodSeq_ne := fun r => Tile.modSeq_seq_ne ((x.startOp (s.site t q w)).modIo ops) q r g
  rw [← htile] at hmodSeq hmodSeq_ne
  have hstart := x.startOp_seq (s.site t q w) hq
  have hstart_ne := x.startOp_seq_ne (s.site t q w)
  have hstart_x := x.startOp_x (s.site t q w)
  rw [Tile.startOp_eq] at htile
  refine ⟨?seq, fun r hr => ?streams, ?xSeq, ?data, ?inFlight, ?accesses, fun o ho => ?ctr, hrest⟩
  case seq =>
    refine hmodSeq.trans ((congrArg g (hstart.trans (congrArg (fun v : Seq => if bit w 51 then v.addMark (fld w 47 4) else v) hseq))).trans ?_)
    split
    · exact (hg.pc (((s.tile t).seq q).addMark (fld w 47 4)) _ _).trans (by rw [hg.mark]; rfl)
    · exact hg.pc _ _ _
  case streams => exact (hmodSeq_ne r hr).trans ((hstart_ne r hr).trans (hne r hr))
  case xSeq =>
    rw [htile]
    exact (SeqFile.set_x _ _ _).trans (hstart_x.trans hx)
  case data =>
    rw [htile]
    exact ⟨hdata.st, hdata.fault, hdata.faultTime, hdata.cfg, hdata.im, hdata.sp, hdata.am, hdata.sb, hdata.ctab, rfl, hdata.xs,
      hdata.qu, hdata.misc⟩
  case inFlight =>
    rw [htile, ← hdata.io]
    exact (hops.apart _ _).symm
  case accesses =>
    rw [htile, ← hdata.io, List.append_nil]
    exact congrArg _ (hops.acc _)
  case ctr =>
    rw [htile]
    exact hctr o ho

/-- The accesses of the operation that has started join the others. -/
theorem State.Taken.addAccs (h : s.Taken s' t q w v ops []) (hsound : s.soundChk 0 = false) (hl : ∀ a ∈ l, a.racy = []) (pc : Nat) :
    s.Taken (s'.addAccs t pc l) t q w v ops l := by
  obtain ⟨hseq, hstreams, hx, hdata, hops, hacc, hctr, hrest⟩ := h
  have hbare : l.map Acc.bare = l := (List.map_congr_left fun a ha => Acc.bare_of_racy (hl a ha)).trans (List.map_id l)
  have hjoint := Tile.foldl_addAcc_acc l (s'.tile t)
  rw [State.addAccs_of_no_sound ((State.soundChk_of_job hrest.job 0).trans hsound)]
  have htile := (s'.setTile_tile_self t (l.foldl Tile.addAcc (s'.tile t))).trans (Tile.foldl_addAcc_eq l _)
  have hrest' := hrest.setTile (l.foldl Tile.addAcc (s'.tile t))
  generalize s'.setTile t (l.foldl Tile.addAcc (s'.tile t)) = s'' at htile hrest' ⊢
  generalize (l.foldl Tile.addAcc (s'.tile t)).io.acc = joint at htile hjoint
  refine ⟨htile ▸ hseq, fun r hr => htile ▸ hstreams r hr, htile ▸ hx, htile ▸ hdata, htile ▸ hops, ?_, fun o ho => htile ▸ hctr o ho, hrest'⟩
  rw [htile]
  refine hjoint.trans ?_
  rw [hbare]
  exact congrArg (· ++ l) (hacc.trans (List.append_nil _))

end

end Sys2Proof.Machine

/-! # An instruction that reads whole rows at once (R64, R141, R193)

In a tile with no operation in flight, no parity error and no watchpoint the rows are read as they stand; the tile's operation number moves on. -/

namespace Sys2Proof.Machine

/-- Between `s` and `s1` an instruction of tile `t` has read rows: only the accounting of the access and the tile's operation number moved
on. -/
structure State.NowRead (s s1 : State) (t : Nat) : Prop where
  tile : ((s.tile t).modIo fun io => { io with nextId := io.nextId + 1 }).Noted (s1.tile t)
  tiles : ∀ u, u ≠ t → s1.tile u = s.tile u
  rest : s1 = { s with tiles := s1.tiles, free := s1.free }

/-- In a tile without operations in flight an access meets none (R64, R500). -/
theorem State.touch_of_no_acc {s : State} {c : Acct} (hacc : (s.tile c.t).io.acc = []) (lo n : Nat) (wr : Bool) :
    ∃ s1, s.touch c lo n wr = (s1, []) ∧ s1.tile c.t = (s.tile c.t).modIo (fun io => { io with nextId := io.nextId + 1 }) ∧
      (∀ u, u ≠ c.t → s1.tile u = s.tile u) ∧ s1 = { s with tiles := s1.tiles } := by
  have haccs : ∀ a, s.addAccs c.t c.pc [a] = s.setTile c.t ((s.tile c.t).addAcc a) := fun a => by
    have hclash : (s.tile c.t).clash a = none := by
      rw [Tile.clash, hacc]
      split <;> rfl
    unfold State.addAccs
    simp [hclash]
  unfold State.touch
  dsimp only
  rw [haccs, Tile.busyRows, hacc]
  refine ⟨_, rfl, ?_, fun u hu => ?_, rfl⟩
  · rw [State.modTile_tile_self, State.setTile_tile_self]
    generalize s.tile c.t = x at hacc
    simp [Tile.addAcc, Tile.dropAcc, Tile.modIo, hacc]
  · rw [State.modTile_tile_ne _ _ _ _ hu, State.setTile_tile, if_neg hu]

theorem State.readNow_of_clear {s : State} {c : Acct} (hacc : (s.tile c.t).io.acc = []) (hbad : (s.tile c.t).spBad = [])
    (hbreak : s.dbg.bpen = false) (hbanks : ∀ row, (s.tile c.t).foreign c.eng row = false) (lo n : Nat) :
    ∃ s1, s.readNow c lo n = (s1, some ((s.tile c.t).rows lo n)) ∧ s.NowRead s1 c.t := by
  obtain ⟨s0, htouch, htile, htiles, hrest⟩ := s.touch_of_no_acc hacc lo n false
  have hdbg : s0.dbg = s.dbg := by rw [hrest]
  have hgood : (s0.tile c.t).badRow lo n = none := by
    simp [Tile.badRow, htile, hbad]
  have hfree : ∀ row, (s0.tile c.t).foreign c.eng row = false := fun row => by rw [htile]; exact hbanks row
  have hrows : (s0.tile c.t).sp = (s.tile c.t).sp := by rw [htile]; rfl
  have hnoted := (s0.tile c.t).noteRead_noted c lo n
  unfold State.readNow State.readRows
  rw [htouch]
  dsimp only
  rw [hgood, State.watch_of_no_break (s := s0.setTile c.t _) (hdbg ▸ hbreak)]
  simp only [List.contains_nil, hfree, Bool.or_false, Bool.false_eq_true, if_false]
  refine ⟨_, by rw [hrows]; rfl, ⟨?_, fun u hu => ?_, ?_⟩⟩
  · rw [State.took_tile, State.setTile_tile_self, ← htile]
    exact hnoted
  · rw [State.took_tile, State.setTile_tile, if_neg hu, htiles u hu]
  · rw [hrest]
    rfl

end Sys2Proof.Machine

/-! # The scalar port (R141, R162) -/

namespace Sys2Proof.Machine

section

variable {s s1 : State} {t : Nat}

theorem State.NowRead.slot (h : s.NowRead s1 t) (q : Strm) : (s1.tile t).slot q = (s.tile t).slot q := by
  rw [Tile.slot, Tile.slot, Tile.part.eq_def, Tile.part.eq_def, Tile.pc.eq_def, Tile.pc.eq_def, Tile.reg, Tile.reg, h.tile.cfg]
  simp only [Tile.seq.eq_def, h.tile.sq, Tile.modIo_cfg, Tile.modIo_sq]

theorem State.NowRead.seq (h : s.NowRead s1 t) (q : Strm) : (s1.tile t).seq q = (s.tile t).seq q := by
  simp only [Tile.seq.eq_def, h.tile.sq, Tile.modIo_sq]

theorem State.NowRead.nextPc (h : s.NowRead s1 t) (q : Strm) : s1.nextPc t q = s.nextPc t q := by
  simp only [State.nextPc, Tile.pc.eq_def, Tile.seq.eq_def, h.tile.sq, Tile.modIo_sq]

theorem State.NowRead.site (h : s.NowRead s1 t) (q : Strm) (w : Word) : s1.site t q w = s.site t q w := by
  rw [State.site, State.site, h.slot]

theorem State.NowRead.job (h : s.NowRead s1 t) : s1.job = s.job := by rw [h.rest]

end

/-- A row that an access of one row may use, and what it raises else (R70). -/
theorem spRun_of_lt {r : Nat} (h : r < 768) : ([spRun r 1].findSome? id) = none := by
  rw [spRun, runBad, if_neg (by omega)]
  rfl

theorem spRun_of_ge {r : Nat} (h : 768 ≤ r) : ([spRun r 1].findSome? id) = some (if 2 ^ 24 ≤ r then 0xFFFFFF else r) := by
  rw [spRun, runBad, if_pos (by omega), rowDetail, Nat.max_eq_left h, Nat.zero_add]
  rfl

/-- An operation joins those of the scalar port. -/
def TileIo.queueSca (o : Op) (io : TileIo) : TileIo := { io with sca := io.sca ++ [o] }

theorem TileIo.queueSca_keepsAcc (o : Op) : TileIo.KeepsAcc (TileIo.queueSca o) := ⟨fun _ => rfl, fun _ _ => rfl⟩

section

variable {s e : State} {t : Nat} {q : Strm} {w : Word} {r : Nat} (he : s.enter t q = e) (hr : scalarRow ((e.tile t).seq q) w = r)
include he hr

/-- An `LDS` checks its row and joins the scalar port; its register waits (R48, R70, R138). -/
theorem lds_runs (h : e.Issues t q w [fD w]) (hk : keyOf w = 0x300) : exec (.lds t q) s = .next
    (e.rowCheck (e.site t q w) [spRun r 1] <| State.addAccs
      (e.issueSeq (e.site t q w) fun y => ((y.startOp (e.site t q w)).modIo
        (TileIo.queueSca (e.opOf t q w [BitVec.ofNat 64 r] []))).modSeq q (Seq.await (fD w))) t ((e.tile t).slot q)
      [{ id := (e.tile t).io.nextId, eng := 3, q := Strm.code q, lo := r, n := 1, wr := false }]) := by
  subst he hr
  show execLds t q s = _
  rw [execLds, tileInsn_runs h hk]
  rfl

/-- An `STS` checks its row, reads it and joins the scalar port with it (R70, R141). -/
theorem sts_runs (h : e.Issues t q w [fB w]) (hk : keyOf w = 0x310) : ∃ k,
    exec (.sts t q) s = .next (e.rowCheck (e.site t q w) [spRun r 1] k) ∧
    ∀ s1 row, e.readNow { t := t, q := Strm.code q, eng := 3, pc := (e.tile t).slot q } r 1 = (s1, some row) →
      k = s1.joined (e.site t q w)
        (TileIo.queueSca ((e.site t q w).op (s1.tile t) [BitVec.ofNat 64 r, ((e.tile t).seq q).sreg (fB w)] row))
        [{ id := (s1.tile t).io.nextId, eng := 3, q := Strm.code q, lo := r, n := 1, wr := true }] := by
  subst he hr
  show ∃ k, execSts t q s = _ ∧ _
  rw [execSts, tileInsn_runs h hk]
  dsimp only [State.site]
  refine ⟨_, rfl, fun s1 row hread => ?_⟩
  rw [hread]
  rfl

end

/-! ## The oldest operation completes -/

/-- What a write of an operation in a quiet tile changes beside the rows, whatever bytes it writes. -/
theorem State.opWrite_accessed {s : State} {c : Acct} {id : Nat} (hq : s.Quiet c.t id) (lo : Nat) (b : List Byte) :
    s.Accessed (s.opWrite c id lo b) c.t := by
  have hnoted := Tile.noteWrite_noted hq.parity.1 lo (b.length / 512)
  unfold State.opWrite State.writeRows
  dsimp only
  rw [State.watch_of_no_break (s := s.setTile c.t _) hq.noBreak]
  exact .of_setTile ⟨hnoted.same, hnoted.ctr⟩

/-- The oldest operation leaves the scalar port with its accesses. -/
def Tile.leaveSca (x : Tile) (o : Op) (rest : List Op) : Tile := (x.dropAcc o.id).modIo fun io => { io with sca := rest }

section

variable {s : State} {t : Nat} {o : Op} {rest : List Op} {c : Acct} (hc : { t := t, q := Strm.code o.q, eng := 3, pc := o.pc } = c)
  (ht : t < 2304) (hs : s.sameTick = false) (hsca : (s.tile t).io.sca = o :: rest)
include hc ht hs hsca

/-- A load's bytes reach its register (R141). -/
theorem scalarPortComplete_of_load {s1 : State} {row : List Byte} (hop : fld o.w 56 8 = 0x30)
    (hread : s.opRead c o.id (o.v.headD 0).toNat 1 = (s1, some row)) : exec (.scalarPortComplete t) s =
      .next ((s1.modTile t fun y => y.leaveSca o rest).modTile t fun y => y.result o.q (fD o.w) (wordAt row (8 * fld o.w 0 6))) := by
  subst hc
  show execScalarPortComplete t s = _
  rw [execScalarPortComplete, if_neg (Nat.not_le.2 ht), alongside_eq _ hs]
  dsimp only
  rw [hsca]
  dsimp only
  rw [if_pos hop]
  unfold State.opRead at hread
  dsimp only at hread
  rw [hread]
  rfl

/-- A store's row is written back with its bytes replaced (R141). -/
theorem scalarPortComplete_of_store (hop : fld o.w 56 8 ≠ 0x30) : exec (.scalarPortComplete t) s =
      .next (((s.opWrite c o.id (o.v.headD 0).toNat (splice o.dat (8 * fld o.w 0 6) (wordBytes (o.v.getD 1 0)))).modTile t
        fun y => y.leaveSca o rest).modTile t fun y => y.unmark o) := by
  subst hc
  show execScalarPortComplete t s = _
  rw [execScalarPortComplete, if_neg (Nat.not_le.2 ht), alongside_eq _ hs]
  dsimp only
  rw [hsca]
  dsimp only
  rw [if_neg hop]
  rfl

end

theorem splice_wordBytes (l : List Byte) (i : Nat) (w : Word) : splice l i (wordBytes w) = l.take i ++ wordBytes w ++ l.drop (i + 8) := by
  rw [splice, wordBytes, natLe_length]

theorem splice_length {l new : List Byte} {i : Nat} (h : i + new.length ≤ l.length) : (splice l i new).length = l.length := by
  rw [splice, List.length_append, List.length_append, List.length_take, List.length_drop]
  omega

theorem Tile.Accessed.seq {x y : Tile} (h : x.Accessed y) (q : Strm) : y.seq q = x.seq q := by
  simp only [Tile.seq.eq_def, h.sq]

/-- What completes at the scalar port when its row access leaves `s1`: `f` is the tile's last change. -/
theorem State.Accessed.scalarEnds {s s1 : State} {t : Nat} (h : s.Accessed s1 t) (o : Op) (rest : List Op) (f : Tile → Tile) :
    let s' := (s1.modTile t fun y => y.leaveSca o rest).modTile t f
    (∀ u, u ≠ t → s'.tile u = s.tile u) ∧ s'.job = s.job ∧ s'.tile t = f ((s1.tile t).leaveSca o rest) := by
  refine ⟨fun u hu => ?_, h.job, ?_⟩
  · rw [State.modTile_tile_ne _ _ _ _ hu, State.modTile_tile_ne _ _ _ _ hu, h.tiles u hu]
  · rw [State.modTile_tile_self, State.modTile_tile_self]

/-- What a tile keeps when an operation leaves the scalar port: `y` is `x` but for the row access, the place and the sequencer of `o`. -/
structure Tile.PortEnds (x y : Tile) (o : Op) (rest : List Op) : Prop where
  sca : y.io.sca = rest
  am : y.am = x.am
  streams : ∀ r, r ≠ o.q → y.seq r = x.seq r

section

variable {x y : Tile} (h : x.Accessed y) (o : Op) (rest : List Op)
include h

/-- A load ends with its register written, which waits no more (R48). -/
theorem Tile.Accessed.loads (hq : o.q ≠ .x) (d : Nat) (b : Word) :
    x.PortEnds ((y.leaveSca o rest).result o.q d b) o rest ∧ ((y.leaveSca o rest).result o.q d b).sp = y.sp ∧
    ((y.leaveSca o rest).result o.q d b).seq o.q =
      { (x.seq o.q).setS d b with busy := (x.seq o.q).busy.filter fun i => i != d } := by
  refine ⟨⟨rfl, h.am, fun r hr => (Tile.modSeq_seq_ne _ _ _ _ hr).trans (h.seq r)⟩, rfl, (Tile.modSeq_seq _ _ _ hq).trans ?_⟩
  have hother : (fun i => decide (i ≠ d)) = fun i => i != d := funext fun i => Bool.eq_iff_iff.2 (by simp)
  rw [← h.seq, ← hother]
  rfl

/-- A store ends with its mark lowered (R53). -/
theorem Tile.Accessed.stores : x.PortEnds ((y.leaveSca o rest).unmark o) o rest ∧ ((y.leaveSca o rest).unmark o).sp = y.sp ∧
    ((y.leaveSca o rest).unmark o).seq o.q = if bit o.w 51 then (x.seq o.q).subMark (fld o.w 47 4) else x.seq o.q := by
  have heq := (y.leaveSca o rest).unmark_eq o
  refine ⟨⟨by rw [heq]; rfl, by rw [heq]; exact h.am, fun r hr => ((y.leaveSca o rest).unmark_seq_ne o r hr).trans (h.seq r)⟩,
    by rw [heq]; rfl, ((y.leaveSca o rest).unmark_seq o).trans ?_⟩
  rw [← h.seq]
  rfl

end

theorem Site.op_fields (i : Site) (x : Tile) (v : List Word) (dat : List Byte) :
    (i.op x v dat).w = i.w ∧ (i.op x v dat).q = i.q ∧ (i.op x v dat).dat = dat ∧ (i.op x v dat).v = v := ⟨rfl, rfl, rfl, rfl⟩

/-- Settles O18: the row check, the place at the port and, for a store, the row read at once; the completion is one read or one write. -/
theorem scalarPort : Obligations.ScalarPort := by
  unfold Obligations.ScalarPort
  refine ⟨fun s₀ t q w hq => ?issue, fun s t o rest ht hq hs hsca hquiet => ?complete⟩
  case issue =>
    intro s v r
    have hr : scalarRow ((s.tile t).seq q) w = r := by
      rw [scalarRow, ← signExtend_rowOffset]
    clear_value r
    refine ⟨fun hk h hsound => ?lds, fun hk h hsound => ?sts⟩
    case lds =>
      have hrun := lds_runs (e := s) rfl hr h hk
      rw [hrun]
      refine ⟨fun hlt => ⟨_, congrArg _ (State.rowCheck_of_good (spRun_of_lt hlt) _ _), ?_⟩,
        fun hge => congrArg _ (State.rowCheck_of_bad (spRun_of_ge hge) _ _)⟩
      exact (State.started_taken hq (TileIo.queueSca_keepsAcc _) (Seq.await_keepsMarks _)).addAccs hsound
        (fun a ha => by rw [List.mem_singleton.1 ha]) _
    case sts =>
      obtain ⟨k, hrun, hreads⟩ := sts_runs (e := s) rfl hr h hk
      rw [hrun]
      refine ⟨fun hlt hacc hbad hbreak => ?_, fun hge => congrArg _ (State.rowCheck_of_bad (spRun_of_ge hge) _ _)⟩
      obtain ⟨s1, hread, hnow⟩ := State.readNow_of_clear (c := { t := t, q := Strm.code q, eng := 3, pc := (s.tile t).slot q })
        hacc hbad hbreak (fun _ => rfl) r 1
      obtain rfl := hreads s1 _ hread
      refine ⟨_, congrArg _ (State.rowCheck_of_good (spRun_of_lt hlt) _ _), ?_⟩
      rw [← hnow.site]
      have hfields := (s1.site t q w).op_fields (s1.tile t) [BitVec.ofNat 64 r, v.sreg (fB w)] ((s.tile t).rows r 1)
      generalize (s1.site t q w).op (s1.tile t) [BitVec.ofNat 64 r, v.sreg (fB w)] ((s.tile t).rows r 1) = o at hfields ⊢
      obtain ⟨hseq, -, -, hdata, hops, -, -, hrest⟩ := State.joined_taken (s := s1) (t := t) (q := q) (w := w)
        (ops := TileIo.queueSca o)
        (l := [{ id := (s1.tile t).io.nextId, eng := 3, q := Strm.code q, lo := r, n := 1, wr := true }])
        ((State.soundChk_of_job hnow.job 0).trans hsound) hq (TileIo.queueSca_keepsAcc _) (fun a ha => by rw [List.mem_singleton.1 ha])
      rw [hnow.seq, hnow.nextPc, hnow.slot] at hseq
      have hsca : (s1.tile t).io.sca ++ [o] = (s.tile t).io.sca ++ [o] := by rw [hnow.tile.io]; rfl
      refine ⟨hdata.sp.1.trans hnow.tile.sp, hseq, ⟨o, (congrArg TileIo.sca hops).trans hsca, hfields⟩, fun u hu => (hrest.tiles u hu).trans (hnow.tiles u hu),
        hrest.job.trans hnow.job, hrest.clusters.trans (by rw [hnow.rest])⟩
  case complete =>
    intro r at_
    by_cases hop : fld o.w 56 8 = 0x30
    · have hread := State.opRead_reads (c := { t := t, q := Strm.code o.q, eng := 3, pc := o.pc }) hquiet r 1
      generalize hres : s.opRead _ o.id r 1 = res at hread
      obtain ⟨s1, row⟩ := res
      obtain rfl : row = some ((s.tile t).rows r 1) := hread.value
      have hrun := scalarPortComplete_of_load rfl ht hs hsca hop hres
      generalize wordAt ((s.tile t).rows r 1) (8 * fld o.w 0 6) = b at hrun ⊢
      obtain ⟨htiles, hjob, htile⟩ := hread.toAccessed.scalarEnds o rest fun y => y.result o.q (fD o.w) b
      obtain ⟨hends, hsp, hseq⟩ := hread.tile.loads o rest hq (fD o.w) b
      refine ⟨_, hrun, ?_⟩
      rw [← htile] at hends hsp hseq
      exact ⟨hends.sca, htiles, hends.am, hjob, hends.streams, fun _ => ⟨hsp.trans hread.sp, hseq⟩,
        fun hst => absurd (hop.symm.trans hst) (by decide)⟩
    · have hrun := scalarPortComplete_of_store rfl ht hs hsca hop
      have hacc := State.opWrite_accessed (c := { t := t, q := Strm.code o.q, eng := 3, pc := o.pc }) hquiet r
        (splice o.dat at_ (wordBytes (o.v.getD 1 0)))
      obtain ⟨htiles, hjob, htile⟩ := hacc.scalarEnds o rest fun y => y.unmark o
      refine ⟨_, hrun, ?_⟩
      obtain ⟨hends, hsp, hseq⟩ := hacc.tile.stores o rest
      rw [← htile] at hends hsp hseq
      refine ⟨hends.sca, htiles, hends.am, hjob, hends.streams, fun hld => absurd hld hop, fun _ hlen => ⟨?_, hseq⟩⟩
      have hbound : fld o.w 0 6 < 2 ^ 6 := fld_lt _ _ _
      have hsplice : (splice o.dat at_ (wordBytes (o.v.getD 1 0))).length = 512 * 1 := by
        rw [splice_length] <;> rw [hlen]
        rw [wordBytes, natLe_length]
        omega
      rw [← splice_wordBytes]
      exact (State.opWrite_writes (c := { t := t, q := Strm.code o.q, eng := 3, pc := o.pc }) hquiet r hsplice).2.congr rfl hsp

end Sys2Proof.Machine

/-! # Vector operations take their place (R48, R54, R70, R142 to R145) -/

namespace Sys2Proof.Machine

/-- The vector instructions, each with its key. -/
def vecInsns : List (Nat × (Nat → Strm → Instr)) :=
  [(0x400, .vadd), (0x410, .vmul), (0x420, .vfma), (0x430, .vmin), (0x440, .vmax), (0x450, .vsfma), (0x460, .vexp2), (0x470, .vlog2),
    (0x480, .vrsqrt), (0x490, .vrecip), (0x4A0, .vcvt), (0x4B0, .vrsum), (0x4C0, .vrmax), (0x4D0, .vcpy)]

theorem exec_vecInsns (t : Nat) (q : Strm) (s : State) : ∀ e ∈ vecInsns, exec (e.2 t q) s = vecOp e.1 t q s := by
  simp only [vecInsns, List.forall_mem_cons]
  exact ⟨rfl, rfl, rfl, rfl, rfl, rfl, rfl, rfl, rfl, rfl, rfl, rfl, rfl, rfl, fun _ h => absurd h List.not_mem_nil⟩

/-- The key of a vector instruction is its opcode: none has a mode. -/
theorem vecInsns_key {e : Nat × (Nat → Strm → Instr)} (he : e ∈ vecInsns) {w : Word} (hk : keyOf w = e.1) : e.1 = 16 * fld w 56 8 := by
  have hmode : ∀ e ∈ vecInsns, e.1 % 16 = 0 := by simp [vecInsns]
  have hdiv := keyOf_div w
  have hmod := hmode e he
  omega

/-- The registers a vector instruction captures (R142, R147). -/
def Seq.vecRegs (v : Seq) (w : Word) : List Word :=
  [v.areg (fld w 42 3), v.areg (fld w 37 3), v.areg (fld w 32 3), if fld w 56 8 = 0x45 then v.sreg (fC w) else v.areg (fld w 27 3)]

/-- The registers that must not wait for a result (R48). -/
def vecWaits (w : Word) : List Nat :=
  if fld w 56 8 = 0x45 then [fC w] else if fld w 56 8 = 0x4B ∨ fld w 56 8 = 0x4C then [fD w] else []

/-- What a sum or a maximum notes in its sequencer: register D waits (R48, R145). -/
def Seq.vecAwait (w : Word) (v : Seq) : Seq :=
  if (fld w 56 8 = 0x4B ∨ fld w 56 8 = 0x4C) ∧ fD w ≠ 0 then { v with busy := fD w :: v.busy } else v

theorem Seq.vecAwait_keepsMarks (w : Word) : Seq.KeepsMarks (Seq.vecAwait w) := by
  unfold Seq.vecAwait
  refine ⟨fun v pc last => ?_, fun v n => ?_⟩
  all_goals split <;> rfl

/-- An operation joins the vector unit. -/
def TileIo.queueVec (o : Op) (io : TileIo) : TileIo := { io with vec := io.vec ++ [o] }

theorem TileIo.queueVec_keepsAcc (o : Op) : TileIo.KeepsAcc (TileIo.queueVec o) := ⟨fun _ => rfl, fun _ _ => rfl⟩

theorem runAccs_racy (id eng q : Nat) (l : List Run) : ∀ a ∈ runAccs id eng q l, a.racy = [] := by
  intro a ha
  obtain ⟨r, -, rfl⟩ := List.mem_map.1 ha
  rfl

/-- What a vector instruction that issues does: it stalls at the limit (R54), or its runs are checked (R70) and it joins the unit. -/
theorem vecOp_runs {s e : State} {t : Nat} {q : Strm} {w : Word} {key : Nat} {regs : List Word} (he : s.enter t q = e)
    (hregs : ((e.tile t).seq q).vecRegs w = regs) (h : e.Issues t q w (vecWaits w)) (hk : keyOf w = key) : vecOp key t q s = .next
      (if 16 ≤ (e.tile t).io.vec.length then e.stall (e.site t q w) 1
      else e.rowCheck (e.site t q w) ((vecRuns w regs).map Run.check) <|
        State.addAccs (e.issueSeq (e.site t q w) fun y => ((y.startOp (e.site t q w)).modIo
          (TileIo.queueVec (e.opOf t q w regs []))).modSeq q (Seq.vecAwait w)) t ((e.tile t).slot q)
          (runAccs (e.tile t).io.nextId 2 (Strm.code q) (vecRuns w regs))) := by
  subst he hregs
  unfold vecOp
  exact (tileInsn_runs (regs := vecWaits) h hk).trans rfl

/-- Settles O19: the limit, the row check and the place in the unit, in the order in which the issue meets them. -/
theorem vectorIssue : Obligations.VectorIssue := by
  unfold Obligations.VectorIssue
  intro e he s₀ t q w hq hk s hissues v regs runs
  have hkey := vecInsns_key he hk
  have h45 : e.1 = 0x450 ↔ fld w 56 8 = 0x45 := by omega
  have h4b : e.1 = 0x4B0 ∨ e.1 = 0x4C0 ↔ fld w 56 8 = 0x4B ∨ fld w 56 8 = 0x4C := by omega
  have hregs : v.vecRegs w = regs := by
    show [_, _, _, _] = [_, _, _, _]
    simp only [h45]
  have hawait : (if (e.1 = 0x4B0 ∨ e.1 = 0x4C0) ∧ fD w ≠ 0 then { v with busy := fD w :: v.busy } else v) = v.vecAwait w := by
    simp only [h4b, Seq.vecAwait]
  simp only [h45, h4b] at hissues
  have hrun := vecOp_runs (s := s₀) (e := s) rfl hregs hissues hk
  rw [← exec_vecInsns t q s₀ e he] at hrun
  rw [hrun, hawait]
  refine ⟨fun hfull => ?full, fun hroom hfit hsound => ?joins, fun hroom d hbad => ?fault⟩
  case full =>
    rw [if_pos hfull, State.stall_eq, show 0x100 + 0x40 * Strm.code q + 8 * 1 = 0x108 + 0x40 * Strm.code q by omega]
  case joins =>
    rw [if_neg (Nat.not_le.2 hroom)]
    exact ⟨_, congrArg _ (State.rowCheck_of_good (runs_check_of_fit hfit) _ _),
      (State.started_taken hq (TileIo.queueVec_keepsAcc _) (Seq.vecAwait_keepsMarks w)).addAccs hsound (runAccs_racy _ _ _ _) _⟩
  case fault =>
    rw [if_neg (Nat.not_le.2 hroom)]
    exact congrArg _ (State.rowCheck_of_bad hbad _ _)

end Sys2Proof.Machine

/-! # Vector operations complete (R93 to R95, R142 to R145, R162)

The operands are read as they stand, the destination rows are written and the events counted, or a register gets its result; then the
operation leaves the unit. -/

namespace Sys2Proof.Machine

/-! ## The end of an operation -/

theorem State.vecDone_tile (s : State) (t : Nat) (o : Op) : (s.vecDone t o).tile t =
    { s.tile t with
      sq := ((s.tile t).unmark o).sq
      io := { (s.tile t).io with
        acc := (s.tile t).io.acc.filter fun a => decide (a.id ≠ o.id)
        vec := (s.tile t).io.vec.filter fun p => decide (p.id ≠ o.id) } } := by
  rw [State.vecDone, State.modTile_tile_self]
  generalize s.tile t = x
  rw [Tile.unmark_eq, Tile.unmark_sq_dropAcc]
  rfl

/-- A change that keeps everything of a tile but its counters, its scratchpad and the sequencer of stream `q`, which becomes `v`. -/
structure Tile.OnlySeq (x y : Tile) (q : Strm) (v : Seq) : Prop where
  seq : y.seq q = v
  streams : ∀ r, r ≠ q → y.seq r = x.seq r
  io : y.io = x.io
  am : y.am = x.am
  st : y.st = x.st
  sp : y.sp = x.sp

theorem Tile.countEvs_onlySeq (x : Tile) (q : Strm) (l : List NumEv) : x.OnlySeq (x.countEvs l) q (x.seq q) := by
  rw [Tile.countEvs_eq]
  exact ⟨rfl, fun _ _ => rfl, rfl, rfl, rfl, rfl⟩

/-- A result reaches its register, which waits no more; its events are counted (R48, R95). -/
theorem Tile.result_onlySeq (x : Tile) {q : Strm} (hq : q ≠ .x) (d : Nat) (b : Word) (l : List NumEv) :
    x.OnlySeq ((x.result q d b).countEvs l) q { (x.seq q).setS d b with busy := (x.seq q).busy.filter fun i => i != d } := by
  have hother : (fun i => decide (i ≠ d)) = fun i => i != d := funext fun i => Bool.eq_iff_iff.2 (by simp)
  have hseq := Tile.modSeq_seq x q (fun v => { v.setS d b with busy := v.busy.filter fun i => decide (i ≠ d) }) hq
  have hstreams := fun r hr => Tile.modSeq_seq_ne x q r (fun v => { v.setS d b with busy := v.busy.filter fun i => decide (i ≠ d) }) hr
  rw [Tile.countEvs_eq, ← hother]
  exact ⟨hseq, hstreams, rfl, rfl, rfl, rfl⟩

/-- Events counted after row accesses and a change of registers are counted on the tile as it was (R95). -/
theorem Tile.Accessed.counted {x y z : Tile} (h : x.Accessed y) (hctr : z.ctr = y.ctr) (l : List NumEv) : x.CountedEvs (z.countEvs l) l := by
  intro e
  rw [Tile.countEvs_counted, hctr, h.ctr _ (by cases e <;> decide) (by cases e <;> decide)]

/-- The oldest vector operation ends, which has read and written rows and changed its tile otherwise by `f`. -/
theorem State.Accessed.vecEnds {s s1 : State} {t : Nat} (h : s.Accessed s1 t) {f : Tile → Tile} {o : Op} {rest : List Op} {v : Seq}
    (hhead : s.VecHead t o rest) (hf : (s1.tile t).OnlySeq (f (s1.tile t)) o.q v) :
    s.VecEnds ((s1.modTile t f).vecDone t o) t o rest v ∧ (((s1.modTile t f).vecDone t o).tile t).sp = (s1.tile t).sp ∧
      (((s1.modTile t f).vecDone t o).tile t).ctr = (f (s1.tile t)).ctr := by
  have htile := (s1.modTile t f).vecDone_tile t o
  rw [State.modTile_tile_self] at htile
  obtain ⟨hseq, hstreams, hio, ham, hst, hsp⟩ := hf
  have hvec : (f (s1.tile t)).io.vec = o :: rest := by rw [hio, h.tile.io, hhead.vec]
  refine ⟨⟨?vec, ?seq, fun r hr => ?streams, fun a ha => ?acc, ?am, ?arr, ?state, fun u hu => ?tiles, h.clusters, h.job⟩, ?sp, ?ctr⟩
  case vec =>
    rw [htile, hvec]
    show (o :: rest).filter (fun p => decide (p.id ≠ o.id)) = rest
    rw [List.filter_cons_of_neg (by simp), List.filter_eq_self.2 fun p hp => decide_eq_true (hhead.ids p hp).1]
  case seq =>
    rw [htile, ← hseq]
    exact Tile.unmark_seq _ o
  case streams =>
    rw [htile, ← h.tile.seq, ← hstreams r hr]
    exact Tile.unmark_seq_ne _ o r hr
  case acc =>
    rw [htile] at ha
    exact of_decide_eq_true (List.mem_filter.1 ha).2
  case am =>
    rw [htile, ← h.tile.am]
    exact ham
  case arr =>
    rw [htile, ← h.tile.io, ← hio]
  case state =>
    rw [htile, ← h.tile.st]
    exact hst
  case tiles => rw [State.vecDone, State.modTile_tile_ne _ _ _ _ hu, State.modTile_tile_ne _ _ _ _ hu, h.tiles u hu]
  case sp =>
    rw [htile]
    exact hsp
  case ctr => rw [htile]

/-- No `UPD` starts behind the operation that ended (R294). -/
theorem State.startUpd_of_no_upd {s : State} {t : Nat} {rest : List Op} (hvec : (s.tile t).io.vec = rest)
    (hops : ∀ p ∈ rest, fld p.w 56 8 ≠ 0x80) : s.startUpd t = s := by
  unfold State.startUpd
  extract_lets x
  have hx : x.io.vec = rest := hvec
  rw [hx]
  cases rest with
  | nil => rfl
  | cons p rest => exact if_pos (.inl (hops p List.mem_cons_self))

/-- The oldest operation of the vector unit, none of the update engine, has its effect. -/
theorem vectorOpComplete_of_head {s : State} {t : Nat} {o : Op} {rest : List Op} (h : s.VecHead t o rest) (hop : fld o.w 56 8 < 0x80) :
    exec (.vectorOpComplete t) s = .next ((s.vecEnd t o).startUpd t) := by
  show execVectorOpComplete t s = _
  rw [execVectorOpComplete, if_neg (Nat.not_le.2 h.unit), alongside_eq _ h.tick]
  rw [h.vec]
  dsimp only
  split
  · omega
  · omega
  · omega
  · rfl

/-! ## Operands -/

/-- What is read is given on as a function of it. -/
theorem State.Reads.map {α β : Type} {s : State} {t : Nat} {r : State × Option α} {v : α} (h : s.Reads t r v) (f : α → β) :
    s.Reads t (r.1, r.2.map f) (f v) := ⟨h.toAccessed, h.sp, by rw [h.value]; rfl⟩

section

variable {s : State} {c : Acct} {o : Op} (hq : s.Quiet c.t o.id)
include hq

theorem State.vecA_reads : s.Reads c.t (s.vecA c o) ((s.tile c.t).vecOperand o) :=
  .ite ((s.opReadAm_reads hq _ _).map _) ((s.opRead_reads hq _ _).map _)

theorem State.vecRow_reads (used : Bool) (i : Nat) : s.Reads c.t (s.vecRow c o used i)
    (if used = true then unpackRows 0 (fN o.w) ((s.tile c.t).rows (o.v.getD i 0).toNat (fN o.w)) else List.replicate (128 * fN o.w) 0) :=
  .ite ((s.opRead_reads hq _ _).map _) (.pure s c.t _)

end

/-! ## The effects -/

/-- The accesses of a vector operation: its tile, its stream, the vector unit (R490). -/
def Op.vecAcct (o : Op) (t : Nat) : Acct := { t := t, q := Strm.code o.q, eng := 2, pc := o.pc }

/-- Operand c of an arithmetic operation: the scalar of a `VSFMA`, the rows of a `VFMA`, zeros else (R142). -/
def Tile.vecOperandC (x : Tile) (o : Op) : List Nat :=
  if fld o.w 56 8 = 0x45 then List.replicate (128 * fN o.w) ((o.v.getD 3 0).toNat % 2 ^ 32)
  else if fld o.w 56 8 = 0x42 then unpackRows 0 (fN o.w) (x.rows (o.v.getD 3 0).toNat (fN o.w)) else List.replicate (128 * fN o.w) 0

/-- Operand b of an arithmetic operation (R142). -/
def Tile.vecOperandB (x : Tile) (o : Op) : List Nat :=
  if fld o.w 56 8 ≤ 0x45 then unpackRows 0 (fN o.w) (x.rows (o.v.getD 2 0).toNat (fN o.w)) else List.replicate (128 * fN o.w) 0

/-- What each lane of an arithmetic, function or copy operation writes, with its event (R93, R94, R142). -/
def Tile.vecLanes (x : Tile) (o : Op) : List (Nat × Option NumEv) :=
  ((x.vecOperand o).zip ((x.vecOperandB o).zip (x.vecOperandC o))).map fun p => vecLane (fld o.w 56 8) p.1 p.2.1 p.2.2

/-- The effect of a vector operation, once its operand a is read (R142 to R145). -/
theorem State.vecEnd_eq {s : State} {t : Nat} {o : Op} {c : Acct} (hc : o.vecAcct t = c) : s.vecEnd t o = andThen (s.vecA c o) fun s a =>
    if fld o.w 56 8 = 0x4A then
      andThen (if isMx (vFi o.w) then s.opRead c o.id (o.v.getD 2 0).toNat (scaleRows (fN o.w)) else (s, some [])) fun s sc =>
        let r := cvt (vFi o.w) (vFo o.w) (bit o.w 9) a (sc.take (4 * fN o.w))
        let s1 := s.opWrite c o.id (o.v.getD 0 0).toNat (packRows (vFo o.w) (rowsFor (vFo o.w) (128 * fN o.w)) r.2.1)
        let s2 := if isMx (vFo o.w) then s1.opWrite c o.id (o.v.getD 2 0).toNat (padTo (512 * scaleRows (fN o.w)) r.1) else s1
        (s2.modTile t fun y => y.countEvs r.2.2).vecDone t o
    else if fld o.w 56 8 = 0x4B then
      (s.modTile t fun y => (y.result o.q (fD o.w) (BitVec.ofNat 64 (vecSum (chunks 128 (fN o.w) a)).1)).countEvs
        (vecSum (chunks 128 (fN o.w) a)).2.toList).vecDone t o
    else if fld o.w 56 8 = 0x4C then
      (s.modTile t fun y => y.result o.q (fD o.w) (BitVec.ofNat 64 (vecMax (chunks 128 (fN o.w) a)))).vecDone t o
    else
      andThen (s.vecRow c o (decide (fld o.w 56 8 ≤ 0x45)) 2) fun s b =>
        andThen (if fld o.w 56 8 = 0x45 then (s, some (List.replicate (128 * fN o.w) ((o.v.getD 3 0).toNat % 2 ^ 32)))
            else s.vecRow c o (decide (fld o.w 56 8 = 0x42)) 3) fun s e =>
          let r := (a.zip (b.zip e)).map fun p => vecLane (fld o.w 56 8) p.1 p.2.1 p.2.2
          (s.opWrite c o.id (o.v.getD 0 0).toNat (packRows 0 (fN o.w) (r.map (·.1)))).modTile t
            (fun y => y.countEvs (r.filterMap (·.2))) |>.vecDone t o := by
  subst hc
  rfl

section

variable {s : State} {t : Nat} {o : Op} (hq : s.Quiet t o.id)
include hq

/-- An arithmetic, function or copy operation writes its lanes and counts their events. -/
theorem State.vecEnd_lanes (hop : fld o.w 56 8 ≠ 0x4A ∧ fld o.w 56 8 ≠ 0x4B ∧ fld o.w 56 8 ≠ 0x4C) : ∃ s1, s.Accessed s1 t ∧
    (s.tile t).Wrote (s1.tile t) (o.v.getD 0 0).toNat (packRows 0 (fN o.w) (((s.tile t).vecLanes o).map (·.1))) ∧
    s.vecEnd t o = (s1.modTile t fun y => y.countEvs (((s.tile t).vecLanes o).filterMap (·.2))).vecDone t o := by
  obtain ⟨c, hc, rfl⟩ : ∃ c, o.vecAcct t = c ∧ c.t = t := ⟨_, rfl, rfl⟩
  have ha := s.vecA_reads hq
  rw [State.vecEnd_eq hc, ha.andThen_eq, if_neg hop.1, if_neg hop.2.1, if_neg hop.2.2]
  generalize s.vecA c o = ra at ha
  have hqa := hq.of_accessed ha.toAccessed
  have hb := ra.1.vecRow_reads hqa (decide (fld o.w 56 8 ≤ 0x45)) 2
  simp only [decide_eq_true_eq, ha.rows] at hb
  rw [hb.andThen_eq]
  generalize ra.1.vecRow c o _ 2 = rb at hb
  have hqb := hqa.of_accessed hb.toAccessed
  have he := (State.Reads.pure rb.1 c.t (List.replicate (128 * fN o.w) ((o.v.getD 3 0).toNat % 2 ^ 32))).ite
    (p := fld o.w 56 8 = 0x45) (rb.1.vecRow_reads hqb (decide (fld o.w 56 8 = 0x42)) 3)
  simp only [decide_eq_true_eq, hb.rows, ha.rows] at he
  rw [he.andThen_eq]
  generalize ite (fld o.w 56 8 = 0x45) _ _ = re at he
  obtain ⟨hwrite, hwrote⟩ := State.opWrite_writes (hqb.of_accessed he.toAccessed) (o.v.getD 0 0).toNat
    (packRows_length 0 (fN o.w) (((s.tile c.t).vecLanes o).map (·.1)))
  exact ⟨_, ((ha.toAccessed.trans hb.toAccessed).trans he.toAccessed).trans hwrite,
    hwrote.congr (he.sp.trans (hb.sp.trans ha.sp)).symm rfl, rfl⟩

/-- A conversion writes its elements, the scales of an MX format, and counts its events (R144). -/
theorem State.vecEnd_cvt (hop : fld o.w 56 8 = 0x4A) : 
    let r := cvt (vFi o.w) (vFo o.w) (bit o.w 9) ((s.tile t).vecOperand o)
      (if isMx (vFi o.w) then ((s.tile t).rows (o.v.getD 2 0).toNat (scaleRows (fN o.w))).take (4 * fN o.w) else [])
    ∃ s1 s2, s.Accessed s2 t ∧
      (s.tile t).Wrote (s1.tile t) (o.v.getD 0 0).toNat (packRows (vFo o.w) (rowsFor (vFo o.w) (128 * fN o.w)) r.2.1) ∧
      (isMx (vFo o.w) = true → (s1.tile t).Wrote (s2.tile t) (o.v.getD 2 0).toNat (padTo (512 * scaleRows (fN o.w)) r.1)) ∧
      (isMx (vFo o.w) = false → s2 = s1) ∧ s.vecEnd t o = (s2.modTile t fun y => y.countEvs r.2.2).vecDone t o := by
  obtain ⟨c, hc, rfl⟩ : ∃ c, o.vecAcct t = c ∧ c.t = t := ⟨_, rfl, rfl⟩
  intro r
  have ha := s.vecA_reads hq
  rw [State.vecEnd_eq hc, ha.andThen_eq, if_pos hop]
  generalize s.vecA c o = ra at ha
  have hqa := hq.of_accessed ha.toAccessed
  have hb := (ra.1.opRead_reads hqa (o.v.getD 2 0).toNat (scaleRows (fN o.w))).ite (p := isMx (vFi o.w) = true) (.pure ra.1 c.t [])
  rw [hb.andThen_eq]
  simp only [ha.rows] at hb ⊢
  generalize ite (isMx (vFi o.w) = true) (ra.1.opRead c o.id _ _) _ = rb at hb
  have hqb := hqa.of_accessed hb.toAccessed
  have hr : cvt (vFi o.w) (vFo o.w) (bit o.w 9) ((s.tile c.t).vecOperand o) (List.take (4 * fN o.w)
      (if isMx (vFi o.w) = true then (s.tile c.t).rows (o.v.getD 2 0).toNat (scaleRows (fN o.w)) else [])) = r := by
    rw [apply_ite (List.take (4 * fN o.w)), List.take_nil]
  rw [hr]
  clear_value r
  obtain ⟨hrows, hwrote⟩ := State.opWrite_writes hqb (o.v.getD 0 0).toNat
    (packRows_length (vFo o.w) (rowsFor (vFo o.w) (128 * fN o.w)) r.2.1)
  obtain ⟨hscales, hscaled⟩ := State.opWrite_writes (hqb.of_accessed hrows) (o.v.getD 2 0).toNat
    (padTo_length (512 * scaleRows (fN o.w)) r.1)
  refine ⟨_, _, ?_, hwrote.congr (hb.sp.trans ha.sp).symm rfl, fun hmx => ?_, fun hmx => if_neg (by rw [hmx]; decide), rfl⟩
  · split
    · exact ((ha.toAccessed.trans hb.toAccessed).trans hrows).trans hscales
    · exact (ha.toAccessed.trans hb.toAccessed).trans hrows
  · rw [if_pos hmx]
    exact hscaled

/-- A sum writes its register and counts the event of its last addition (R145; log 23). -/
theorem State.vecEnd_sum (hop : fld o.w 56 8 = 0x4B) : ∃ s1, s.Accessed s1 t ∧ (s1.tile t).sp = (s.tile t).sp ∧
    s.vecEnd t o = (s1.modTile t fun y =>
      (y.result o.q (fD o.w) (BitVec.ofNat 64 (vecSum (chunks 128 (fN o.w) ((s.tile t).vecOperand o))).1)).countEvs
        (vecSum (chunks 128 (fN o.w) ((s.tile t).vecOperand o))).2.toList).vecDone t o := by
  obtain ⟨c, hc, rfl⟩ : ∃ c, o.vecAcct t = c ∧ c.t = t := ⟨_, rfl, rfl⟩
  have ha := s.vecA_reads hq
  rw [State.vecEnd_eq hc, ha.andThen_eq, if_neg (by omega), if_pos hop]
  exact ⟨_, ha.toAccessed, ha.sp, rfl⟩

/-- A maximum writes its register (R145). -/
theorem State.vecEnd_max (hop : fld o.w 56 8 = 0x4C) : ∃ s1, s.Accessed s1 t ∧ (s1.tile t).sp = (s.tile t).sp ∧
    s.vecEnd t o = (s1.modTile t fun y =>
      (y.result o.q (fD o.w) (BitVec.ofNat 64 (vecMax (chunks 128 (fN o.w) ((s.tile t).vecOperand o))))).countEvs []).vecDone t o := by
  obtain ⟨c, hc, rfl⟩ : ∃ c, o.vecAcct t = c ∧ c.t = t := ⟨_, rfl, rfl⟩
  have ha := s.vecA_reads hq
  rw [State.vecEnd_eq hc, ha.andThen_eq, if_neg (by omega), if_neg (by omega), if_pos hop]
  exact ⟨_, ha.toAccessed, ha.sp, rfl⟩

end

/-- The oldest operation, none of the update engine, has read and written rows, counts events and has changed its register, and ends. -/
theorem vectorOpComplete_ends {s s1 : State} {t : Nat} {o : Op} {rest : List Op} {v : Seq} {f : Tile → Tile} {l : List NumEv}
    (hhead : s.VecHead t o rest) (hop : fld o.w 56 8 < 0x80) (h : s.Accessed s1 t)
    (hf : (s1.tile t).OnlySeq ((f (s1.tile t)).countEvs l) o.q v) (hctr : (f (s1.tile t)).ctr = (s1.tile t).ctr)
    (hend : s.vecEnd t o = (s1.modTile t fun y => (f y).countEvs l).vecDone t o) :
    ∃ s', exec (.vectorOpComplete t) s = .next s' ∧ s.VecEnds s' t o rest v ∧ (s'.tile t).sp = (s1.tile t).sp ∧
      (s.tile t).CountedEvs (s'.tile t) l := by
  obtain ⟨hends, hsp, hctr'⟩ := h.vecEnds (f := fun y => (f y).countEvs l) hhead hf
  have hrun := vectorOpComplete_of_head hhead hop
  rw [hend, State.startUpd_of_no_upd hends.vec fun p hp => (hhead.ids p hp).2] at hrun
  refine ⟨_, hrun, hends, hsp, fun e => ?_⟩
  rw [hctr']
  exact h.tile.counted hctr l e

/-- Settles O20: what each kind of vector operation leaves in a quiet tile. That a sum counts the events of its last addition is the
model's reading (log 23). -/
theorem vectorOpsComplete : Obligations.VectorOpsComplete := by
  unfold Obligations.VectorOpsComplete
  refine ⟨fun s t o rest h => ?lanes, fun s t o rest h hq => ?others⟩
  case lanes =>
    intro op n x hop b c lanes
    change 0x40 ≤ fld o.w 56 8 ∧ fld o.w 56 8 ≤ 0x49 ∨ fld o.w 56 8 = 0x4D at hop
    obtain ⟨s1, hacc, hwrote, hend⟩ := State.vecEnd_lanes h.quiet (by omega)
    obtain ⟨s', hrun, hends, hsp, hcounted⟩ := vectorOpComplete_ends (f := id) h (by omega) hacc
      ((s1.tile t).countEvs_onlySeq o.q _) rfl hend
    rw [hacc.tile.seq] at hends
    exact ⟨s', hrun, hends, hwrote.congr rfl hsp, hcounted⟩
  case others =>
    intro op n x a d put
    refine ⟨fun hop hmx => ?narrow, fun hop hin hmx => ?scaled, fun hop => ?sum, fun hop => ?max⟩
    case narrow =>
      intro r
      obtain ⟨s1, s2, hacc, hwrote, -, hsame, hend⟩ := State.vecEnd_cvt h.quiet hop
      obtain rfl := hsame hmx
      obtain ⟨s', hrun, hends, hsp, hcounted⟩ := vectorOpComplete_ends (f := id) h (by omega) hacc
        ((s2.tile t).countEvs_onlySeq o.q _) rfl hend
      rw [hacc.tile.seq] at hends
      exact ⟨s', hrun, hends, hwrote.congr rfl hsp, hcounted⟩
    case scaled =>
      intro r
      obtain ⟨s1, s2, hacc, hwrote, hscales, -, hend⟩ := State.vecEnd_cvt h.quiet hop
      simp only [hin, Bool.false_eq_true, if_false] at hwrote hscales hend
      obtain ⟨s', hrun, hends, hsp, hcounted⟩ := vectorOpComplete_ends (f := id) h (by omega) hacc
        ((s2.tile t).countEvs_onlySeq o.q _) rfl hend
      rw [hacc.tile.seq] at hends
      exact ⟨s', s1.tile t, hrun, hends, hwrote, (hscales hmx).congr rfl hsp, hcounted⟩
    case sum =>
      intro r
      obtain ⟨s1, hacc, hkept, hend⟩ := State.vecEnd_sum h.quiet hop
      obtain ⟨s', hrun, hends, hsp, hcounted⟩ := vectorOpComplete_ends h (by omega) hacc
        ((s1.tile t).result_onlySeq hq (fD o.w) _ _) rfl hend
      rw [hacc.tile.seq] at hends
      exact ⟨s', hrun, hends, hsp.trans hkept, hcounted⟩
    case max =>
      obtain ⟨s1, hacc, hkept, hend⟩ := State.vecEnd_max h.quiet hop
      obtain ⟨s', hrun, hends, hsp, hcounted⟩ := vectorOpComplete_ends h (by omega) hacc
        ((s1.tile t).result_onlySeq hq (fD o.w) _ _) rfl hend
      rw [hacc.tile.seq] at hends
      exact ⟨s', hrun, hends, hsp.trans hkept, hcounted⟩

end Sys2Proof.Machine

/-! # X's loop control, waits and end (R158 to R161, R225 to R227, R256)

An instruction of X writes X's program counter and loop counters; the end of X's part may complete the tile's part. -/

namespace Sys2Proof.Machine

/-! ## A step of X -/

theorem Tile.issue_sq_x (x : Tile) {i : Site} (next : BitVec 13) (h : i.q = .x) :
    (x.issue i next).sq = { x.sq with x := { x.sq.x with pc := next, last := BitVec.ofNat 13 i.pc } } := by
  obtain ⟨t, q, pc, w⟩ := i
  obtain rfl : q = .x := h
  unfold Tile.issue
  dsimp only
  repeat' split
  all_goals rfl

/-- What an instruction of X that issues leaves: its program counter and loop counters, `n` bubble cycles (R41). -/
structure State.XWent (s s' : State) (t : Nat) (pc : BitVec 13) (n : Nat) (v : XSeq) : Prop where
  sq : (s'.tile t).sq = { (s.tile t).sq with x := { v with pc := pc, last := BitVec.ofNat 13 ((s.tile t).slot .x) } }
  data : (s.tile t).SameData (s'.tile t)
  bubble : Map.get 0 (s'.tile t).ctr 0x1F8 = Map.get 0 (s.tile t).ctr 0x1F8 + BitVec.ofNat 64 n
  rest : s.SameBut t s'

section

variable (s : State) (t : Nat) (w : Word) (f : XSeq → XSeq)
  (hf : ∀ v : XSeq, ∀ pc last, f { v with pc := pc, last := last } = { f v with pc := pc, last := last })
include hf

theorem State.issueSeq_xWent :
    s.XWent (s.issueSeq (s.site t .x w) fun y => y.modX f) t (s.nextPc t .x) 0 (f (s.tile t).sq.x) := by
  have htile := s.issueSeq_tile t .x w fun y => y.modX f
  have hrest := s.issueSeq_sameBut t .x w fun y => y.modX f
  have hdata := (s.tile t).issue_data (s.site t .x w) (s.nextPc t .x)
  have hsq := (s.tile t).issue_sq_x (i := s.site t .x w) (s.nextPc t .x) rfl
  have hctr := (s.tile t).issue_ctr (s.site t .x w) (s.nextPc t .x) 0x1F8 (by decide)
  generalize (s.tile t).issue (s.site t .x w) (s.nextPc t .x) = x at htile hdata hsq hctr
  refine ⟨?_, ?_, ?_, hrest⟩ <;> rw [htile]
  · show { x.sq with x := f x.sq.x } = _
    rw [hsq]
    exact congrArg (fun v => { (s.tile t).sq with x := v }) (hf _ _ _)
  · exact ⟨hdata.st, hdata.fault, hdata.faultTime, hdata.cfg, hdata.im, hdata.sp, hdata.am, hdata.sb, hdata.ctab, hdata.io, hdata.xs,
      hdata.qu, hdata.misc⟩
  · exact hctr.trans (BitVec.add_zero _).symm

/-- A taken branch of X (R159). -/
theorem State.xBranch_xWent :
    s.XWent (s.xBranch (s.site t .x w) fun y => y.modX f) t (w.setWidth 13) ((s.tile t).bubbles .x) (f (s.tile t).sq.x) := by
  have htarget : BitVec.ofNat 13 (fld w 0 13) = w.setWidth 13 := tgt_eq w
  have hissued := State.issueWith_sameBut s (s.site t .x w) (BitVec.ofNat 13 (fld w 0 13)) fun y => y.modX f
  have htile : (s.xBranch (s.site t .x w) fun y => y.modX f).tile t =
      (((s.tile t).issue (s.site t .x w) (w.setWidth 13)).modX f).count 0x1F8 ((s.tile t).bubbles .x) := by
    rw [← htarget]
    exact (State.modTile_tile_self _ t _).trans (congrArg (Tile.count · 0x1F8 ((s.tile t).bubbles .x)) (State.issueWith_tile s (s.site t .x w) _ _))
  have hrest : s.SameBut t (s.xBranch (s.site t .x w) fun y => y.modX f) := hissued.setTile _
  have hdata := (s.tile t).issue_data (s.site t .x w) (w.setWidth 13)
  have hsq := (s.tile t).issue_sq_x (i := s.site t .x w) (w.setWidth 13) rfl
  have hctr := (s.tile t).issue_ctr (s.site t .x w) (w.setWidth 13) 0x1F8 (by decide)
  generalize (s.tile t).issue (s.site t .x w) (w.setWidth 13) = x at htile hdata hsq hctr
  refine ⟨?_, ?_, ?_, hrest⟩ <;> rw [htile]
  · show { x.sq with x := f x.sq.x } = _
    rw [hsq]
    exact congrArg (fun v => { (s.tile t).sq with x := v }) (hf _ _ _)
  · exact ⟨hdata.st, hdata.fault, hdata.faultTime, hdata.cfg, hdata.im, hdata.sp, hdata.am, hdata.sb, hdata.ctab, hdata.io, hdata.xs,
      hdata.qu, hdata.misc⟩
  · rw [Tile.countSelf]
    exact congrArg (· + _) hctr

end

/-! ## What each instruction does when it issues -/

theorem Tile.xLeft_iff (x : Tile) : x.xLeft = true ↔ ∀ o ∈ x.io.out, o.q ≠ .x := by
  rw [Tile.xLeft, List.all_eq_true]
  exact forall₂_congr fun o _ => decide_eq_true_iff

section

variable {s e : State} {t : Nat} {w : Word} (he : s.enter t .x = e) (h : e.Issues t .x w [])
include he h

theorem xnop_runs (hk : keyOf w = 0xC70) : exec (.xnop t) s = .next (e.issueSeq (e.site t .x w) fun y => y.modX id) := by
  subst he
  show execXnop t s = _
  rw [execXnop, tileInsn_runs h hk]
  rfl

theorem xbr_runs (hk : keyOf w = 0xC60) : exec (.xbr t) s = .next (e.xBranch (e.site t .x w) fun y => y.modX id) := by
  subst he
  show execXbr t s = _
  rw [execXbr, tileInsn_runs h hk]
  rfl

theorem xsetl_runs (hk : keyOf w = 0xC30) : exec (.xsetl t) s = .next
    (e.issueSeq (e.site t .x w) fun y => y.modX fun v => { v with l := Map.set 0 v.l (fld w 45 2) (BitVec.ofNat 32 (fld w 0 32)) }) := by
  subst he
  show execXsetl t s = _
  rw [execXsetl, tileInsn_runs h hk]
  rfl

theorem xloop_runs (hk : keyOf w = 0xC40) : exec (.xloop t) s = .next
    (if Map.get 0 (e.tile t).sq.x.l (fld w 45 2) = 0 then e.issueSeq (e.site t .x w) fun y => y.modX id
    else e.xBranch (e.site t .x w) fun y => y.modX fun v =>
      { v with l := Map.set 0 v.l (fld w 45 2) (Map.get 0 (e.tile t).sq.x.l (fld w 45 2) - 1) }) := by
  subst he
  show execXloop t s = _
  rw [execXloop, tileInsn_runs h hk]
  rfl

theorem xwait_runs (hk : keyOf w = 0xC80) : exec (.xwait t) s = .next
    (if (e.tile t).xLeft = true then e.issueSeq (e.site t .x w) fun y => y.modX id else e.stall (e.site t .x w) 3) := by
  subst he
  show execXwait t s = _
  rw [execXwait, tileInsn_runs h hk]
  rfl

theorem xend_runs (hk : keyOf w = 0xC50) : exec (.xend t) s = .next
    (if (e.tile t).xLeft = true then
      if (e.tile t).xs.sent.toNat < (e.tile t).planSent then e.tileFault t 3 0x0D 0x04000000 ((e.tile t).slot .x)
      else (e.issueSeq (e.site t .x w) fun y => y.modX fun v => { v with ended := true }).checkPart t
    else e.stall (e.site t .x w) 3) := by
  subst he
  show execXend t s = _
  rw [execXend, tileInsn_runs h hk]
  rfl

end

/-! ## The end of X's part -/

theorem State.doneReport_tiles (s : State) : s.doneReport.tiles = s.tiles := by
  unfold State.doneReport
  extract_lets v s1
  split
  · split
    · rw [State.queueSym_tiles]
      rfl
    · rfl
  · rfl

/-- A tile of the exchange phase whose part is complete notes it; nothing else of the tiles changes but the time it took (R227). -/
theorem State.checkPart_frame {s : State} {t : Nat} (hst : (s.tile t).st = 5) :
    ((s.checkPart t).tile t).xs.part = ((s.tile t).xs.part || (s.job.exch && (s.tile t).partMet)) ∧
    ((s.checkPart t).tile t).sq = (s.tile t).sq ∧ ((s.checkPart t).tile t).sp = (s.tile t).sp ∧
    ((s.checkPart t).tile t).xs.sent = (s.tile t).xs.sent ∧ ∀ u, u ≠ t → (s.checkPart t).tile u = s.tile u := by
  unfold State.checkPart
  extract_lets x
  split
  case isTrue hcomplete =>
    obtain ⟨-, hexch, -, hmet⟩ := hcomplete
    have htile : ∀ (a : State) u, a.doneReport.tile u = a.tile u := fun a u => State.tile_eq_of_tiles a.doneReport_tiles u
    rw [htile, State.modTile_tile_self]
    refine ⟨?_, rfl, rfl, rfl, fun u hu => (htile _ u).trans (State.modTile_tile_ne _ _ _ _ hu)⟩
    show true = (x.xs.part || (s.job.exch && x.partMet))
    rw [hexch, hmet, Bool.and_self, Bool.or_true]
  case isFalse hnot =>
    refine ⟨?_, rfl, rfl, rfl, fun _ _ => rfl⟩
    show x.xs.part = (x.xs.part || (s.job.exch && x.partMet))
    cases hpart : x.xs.part <;> cases hexch : s.job.exch <;> cases hmet : x.partMet
    case false.true.true => exact absurd ⟨hst, hexch, by rw [hpart]; decide, hmet⟩ hnot
    all_goals rfl

theorem State.exchanges_of_mayIssue {s : State} {t : Nat} (h : s.mayIssue t .x = true) : (s.tile t).st = 5 := by
  unfold State.mayIssue at h
  simp only [Bool.and_eq_true, decide_eq_true_eq] at h
  obtain ⟨⟨-, hst, -⟩, -⟩ := h
  exact hst

/-- Whether a tile whose X has ended has met its counts (R227, R234). -/
theorem Tile.partMet_of_ended {x : Tile} (h : x.sq.x.ended = true) : x.partMet =
    decide (x.xs.sent.toNat = x.planSent ∧ x.xs.recv.toNat = x.planRecv ∧ x.xs.meet = x.planMeet) := by
  rw [Tile.partMet, h, Bool.true_or, Bool.true_and, Bool.and_assoc, Bool.decide_and, Bool.decide_and]

/-- The plan is the same in a tile with the same scratchpad, configuration and exchange state (R233). -/
theorem Tile.plan_congr {x y : Tile} (h : x.SameData y) :
    y.planSent = x.planSent ∧ y.planRecv = x.planRecv ∧ y.planMeet = x.planMeet := by
  have hplan : y.plan = x.plan := by rw [Tile.plan, Tile.plan, Tile.reg, Tile.reg, h.cfg, h.sp.1, h.xs]
  simp only [Tile.planSent, Tile.planRecv, Tile.planMeet, hplan, and_self]

/-- Settles O35: each instruction is a step of X, a branch of X, or one of the two ends of its wait. -/
theorem xControl : Obligations.XControl := by
  unfold Obligations.XControl
  intro s₀ t w s h x v i b goes waits
  have hgoes : ∀ {c : Instr} {s' : State} {pc : BitVec 13} {n : Nat} {l : Map W32}, exec c s₀ = .next s' →
      s.XWent s' t pc n { v with l := l } → goes c pc n l := fun hrun ⟨hsq, hdata, hbubble, hrest⟩ =>
    ⟨_, hrun, hsq, hdata, hbubble, hrest⟩
  have hleft : (∀ o ∈ x.io.out, o.q ≠ .x) → x.xLeft = true := x.xLeft_iff.2
  have hstalls : ∀ {c : Instr} {s' : State}, exec c s₀ = .next (if x.xLeft = true then s' else s.stall (s.site t .x w) 3) → waits c :=
    fun hrun ⟨o, ho, hoq⟩ => hrun.trans (congrArg _ (if_neg fun hx => x.xLeft_iff.1 hx o ho hoq))
  refine ⟨fun hk => ?nop, fun hk => ?br, fun hk => ?setl, fun hk => ⟨fun hzero => ?loopEnds, fun hnz => ?loops⟩,
    fun hk => ⟨hstalls (xwait_runs rfl h hk), fun hall => ?waited⟩,
    fun hk => ⟨hstalls (xend_runs rfl h hk), fun hall => ⟨fun hfew => ?few, fun henough => ?ends⟩⟩⟩
  case nop => exact hgoes (xnop_runs rfl h hk) (s.issueSeq_xWent t w id fun _ _ _ => rfl)
  case br => exact hgoes (xbr_runs rfl h hk) (s.xBranch_xWent t w id fun _ _ _ => rfl)
  case setl =>
    have himm : BitVec.ofNat 32 (fld w 0 32) = w.setWidth 32 := by
      rw [← toNat_setWidth_low, BitVec.ofNat_toNat, BitVec.setWidth_eq]
    rw [← himm]
    exact hgoes (xsetl_runs rfl h hk) (s.issueSeq_xWent t w (fun v => { v with l := Map.set 0 v.l _ _ }) fun _ _ _ => rfl)
  case loopEnds =>
    exact hgoes ((xloop_runs rfl h hk).trans (congrArg _ (if_pos hzero))) (s.issueSeq_xWent t w id fun _ _ _ => rfl)
  case loops =>
    exact hgoes ((xloop_runs rfl h hk).trans (congrArg _ (if_neg hnz)))
      (s.xBranch_xWent t w (fun v => { v with l := Map.set 0 v.l _ _ }) fun _ _ _ => rfl)
  case waited =>
    exact hgoes ((xwait_runs rfl h hk).trans (congrArg _ (if_pos (hleft hall)))) (s.issueSeq_xWent t w id fun _ _ _ => rfl)
  case few =>
    exact (xend_runs rfl h hk).trans (congrArg _ ((if_pos (hleft hall)).trans (if_pos hfew)))
  case ends =>
    have hrun := (xend_runs (e := s) rfl h hk).trans (congrArg _ ((if_pos (hleft hall)).trans (if_neg (Nat.not_lt.2 henough))))
    obtain ⟨hsq, hdata, -, hrest⟩ := s.issueSeq_xWent t w (fun v => { v with ended := true }) fun _ _ _ => rfl
    have hst := State.exchanges_of_mayIssue h.may
    clear_value s
    generalize s.issueSeq (s.site t .x w) _ = e at hrun hsq hdata hrest
    obtain ⟨hpart, hsq', hsp, hsent, htiles⟩ := State.checkPart_frame (s := e) (hdata.st.trans hst)
    have hmet := Tile.partMet_of_ended (x := e.tile t) (by rw [hsq])
    obtain ⟨hsent', hrecv', hmeet'⟩ := Tile.plan_congr hdata
    rw [hsent', hrecv', hmeet', hdata.xs] at hmet
    rw [hmet, hdata.xs, hrest.job] at hpart
    exact ⟨_, hrun, hsq'.trans hsq, hpart, hsp.trans hdata.sp.1, by rw [hsent, hdata.xs], fun u hu => (htiles u hu).trans (hrest.tiles u hu)⟩

end Sys2Proof.Machine

/-! # Tallies (R151 to R153, R162, R277 to R280)

Additions and reads take their place; a wait is judged by the count at its turn; what is due takes effect before a count changes. -/

namespace Sys2Proof.Machine

/-! ## What is due takes effect -/

/-- What takes effect of a tile's tally reads and queue controls touches registers, marks and queues: its configuration, memories,
program counters and other operations are as before. -/
structure Tile.Settles (x y : Tile) : Prop where
  st : y.st = x.st
  cfg : y.cfg = x.cfg
  sp : y.sp = x.sp
  pc : ∀ q, y.pc q = x.pc q
  tal : y.io.tal = x.io.tal

theorem Tile.Settles.refl (x : Tile) : x.Settles x := ⟨rfl, rfl, rfl, fun _ => rfl, rfl⟩

theorem Tile.Settles.trans {x y z : Tile} (h : x.Settles y) (g : y.Settles z) : x.Settles z :=
  ⟨g.st.trans h.st, g.cfg.trans h.cfg, g.sp.trans h.sp, fun q => (g.pc q).trans (h.pc q), g.tal.trans h.tal⟩

theorem Seq.setS_pc (v : Seq) (i : Nat) (w : Word) : (v.setS i w).pc = v.pc := by
  unfold Seq.setS
  split <;> rfl

theorem Tile.modSeq_pc (x : Tile) (q : Strm) {f : Seq → Seq} (hf : ∀ v, (f v).pc = v.pc) (r : Strm) : (x.modSeq q f).pc r = x.pc r := by
  unfold Tile.pc
  split
  · exact congrArg (fun v : XSeq => v.pc.toNat) (SeqFile.set_x _ _ _)
  · by_cases hr : r = q
    · subst hr
      rw [Tile.modSeq_seq _ _ _ (by assumption), hf]
    · rw [Tile.modSeq_seq_ne _ _ _ _ hr]

theorem Tile.unmark_settles (x : Tile) (o : Op) : x.Settles (x.unmark o) := by
  unfold Tile.unmark
  split
  · exact ⟨rfl, rfl, rfl, x.modSeq_pc o.q fun _ => rfl, rfl⟩
  · exact .refl x

theorem Tile.takeEffect_settles (x : Tile) (count : Nat → Word) (o : Op) : x.Settles (x.takeEffect count o) := by
  unfold Tile.takeEffect
  split
  · exact ⟨rfl, rfl, rfl, x.modSeq_pc o.q fun v => v.setS_pc _ _, rfl⟩
  · extract_lets f
    exact .trans (y := x.modQueue (insnQ o.w) f) ⟨rfl, rfl, rfl, fun q => by cases q <;> rfl, rfl⟩ (Tile.unmark_settles _ o)

theorem Tile.settle_settles (x : Tile) (cycle : Nat) (count : Nat → Word) : x.Settles (x.settle cycle count) := by
  unfold Tile.settle
  extract_lets r
  have hr : x.Settles r.1 := by
    refine List.foldlRecOn (motive := fun r : Tile × List LateOp => x.Settles r.1) _ _ (.refl x) fun r hr l _ => ?_
    split
    · exact hr.trans (Tile.takeEffect_settles _ _ _)
    · exact hr
  exact hr.trans ⟨rfl, rfl, rfl, fun q => by cases q <;> rfl, rfl⟩

/-- Between two states only what was due of some tiles has taken effect. -/
structure State.Settled (s s' : State) : Prop where
  tile : ∀ u, (s.tile u).Settles (s'.tile u)
  rest : s' = { s with tiles := s'.tiles }

theorem State.settle_settled (s : State) (t : Nat) : s.Settled (s.settle t) := by
  refine ⟨fun u => ?_, rfl⟩
  rw [State.settle, State.modTile_tile]
  split
  case isTrue hu => exact hu ▸ Tile.settle_settles _ _ _
  case isFalse => exact .refl _

theorem State.settleCluster_settled (s : State) (c : Nat) : s.Settled (s.settleCluster c) := by
  refine List.foldlRecOn (motive := fun e : State => s.Settled e) _ _ ⟨fun _ => .refl _, rfl⟩ fun e he t _ => ?_
  have hstep := e.settle_settled t
  exact ⟨fun u => (he.tile u).trans (hstep.tile u), hstep.rest.trans (by rw [he.rest])⟩

section

variable {s e : State} (h : s.Settled e)
include h

theorem State.Settled.site (t : Nat) (q : Strm) (w : Word) : e.site t q w = s.site t q w := by
  have hslot : (e.tile t).slot q = (s.tile t).slot q := by
    rw [Tile.slot, Tile.slot, Tile.part.eq_def, Tile.part.eq_def, Tile.reg, Tile.reg, (h.tile t).cfg, (h.tile t).pc]
  rw [State.site, State.site, hslot]

theorem State.Settled.nextPc (t : Nat) (q : Strm) : e.nextPc t q = s.nextPc t q := by
  rw [State.nextPc, State.nextPc, (h.tile t).pc]

theorem State.Settled.clusters : e.clusters = s.clusters := by rw [h.rest]
theorem State.Settled.dbg : e.dbg = s.dbg := by rw [h.rest]

theorem State.Settled.cluster (c : Nat) : e.cluster c = s.cluster c := by rw [State.cluster, State.cluster, h.clusters]

end

/-- Tally `tl` of cluster `c` becomes `y`. -/
def State.setTally (s : State) (c tl : Nat) (y : Tally) : State := s.modCluster c fun x => { x with tally := Map.set {} x.tally tl y }

theorem State.setTally_frame (s : State) (c tl : Nat) (y : Tally) : Map.get {} ((s.setTally c tl y).cluster c).tally tl = y ∧
    (∀ k, k ≠ tl → Map.get {} ((s.setTally c tl y).cluster c).tally k = Map.get {} (s.cluster c).tally k) ∧
    ((s.setTally c tl y).cluster c).cs = (s.cluster c).cs ∧ ∀ k, k ≠ c → (s.setTally c tl y).cluster k = s.cluster k := by
  have hself : (s.setTally c tl y).cluster c = { s.cluster c with tally := Map.set {} (s.cluster c).tally tl y } :=
    State.modCluster_cluster_self _ _ _
  rw [hself]
  exact ⟨Map.get_set_self _ _ _ _, fun k hk => Map.get_set_ne _ _ _ _ _ hk, rfl, fun k hk => State.modCluster_cluster_ne _ _ _ _ hk⟩

@[simp] theorem State.setTally_dbg (s : State) (c tl : Nat) (y : Tally) : (s.setTally c tl y).dbg = s.dbg := rfl
@[simp] theorem State.setTally_tiles (s : State) (c tl : Nat) (y : Tally) : (s.setTally c tl y).tiles = s.tiles := rfl
@[simp] theorem State.setTally_job (s : State) (c tl : Nat) (y : Tally) : (s.setTally c tl y).job = s.job := rfl

theorem State.tallyWatch_of_no_break {s : State} (h : s.dbg.bpen = false) (c tl : Nat) : s.tallyWatch c tl = s := by
  unfold State.tallyWatch
  rw [if_neg (by rw [h]; decide)]

/-- The end of a Sextant step leaves the breakpoints enabled or disabled as they were (R486, R488). -/
theorem State.issueSeq_bpen (s : State) (i : Site) (f : Tile → Tile) : (s.issueSeq i f).dbg.bpen = s.dbg.bpen := by
  unfold State.issueSeq State.issueWith State.stepEnds
  extract_lets s1
  split
  · split
    · rw [State.complete_dbg]
      rfl
    · rfl
  · rfl

/-! ## Issue -/

/-- An addition joins the tile's waiting ones. -/
def TileIo.queueTal (a : TAdd) (io : TileIo) : TileIo := { io with tal := io.tal ++ [a] }

theorem TileIo.queueTal_keepsAcc (a : TAdd) : TileIo.KeepsAcc (TileIo.queueTal a) := ⟨fun _ => rfl, fun _ _ => rfl⟩

/-- A tally read or queue control joins those to take effect. -/
def TileIo.queueLate (l : LateOp) (io : TileIo) : TileIo := { io with late := io.late ++ [l] }

theorem TileIo.queueLate_keepsAcc (l : LateOp) : TileIo.KeepsAcc (TileIo.queueLate l) := ⟨fun _ => rfl, fun _ _ => rfl⟩

section

variable {s e : State} {t : Nat} {q : Strm} {w : Word} (he : s.enter t q = e)
include he

theorem tadd_runs (h : e.Issues t q w []) (hk : keyOf w = 0x700) : exec (.tadd t q) s = .next
    (e.issueSeq (e.site t q w) fun y => ((y.startOp (e.site t q w)).modIo (TileIo.queueTal
      { tl := fld w 41 6, d := sextNat 32 (fld w 0 32), op := e.opOf t q w [] [], at_ := e.cycle })).modSeq q id) := by
  subst he
  simp only [Tile.modSeq_id]
  show execTadd t q s = _
  rw [execTadd, tallyIssue, tileInsn_runs h hk]
  rfl

theorem taddr_runs (h : e.Issues t q w [fld w 36 5]) (hk : keyOf w = 0x710) : exec (.taddr t q) s = .next
    (e.issueSeq (e.site t q w) fun y => ((y.startOp (e.site t q w)).modIo (TileIo.queueTal
      { tl := fld w 41 6, d := sextNat 32 (fld (((e.tile t).seq q).sreg (fld w 36 5)) 0 32), op := e.opOf t q w [] [],
        at_ := e.cycle })).modSeq q id) := by
  subst he
  simp only [Tile.modSeq_id]
  show execTaddr t q s = _
  rw [execTaddr, tallyIssue, tileInsn_runs h hk]
  rfl

theorem trd_runs (h : e.Issues t q w [fld w 36 5]) (hk : keyOf w = 0x730) : exec (.trd t q) s = .next
    (e.issueSeq (e.site t q w) fun y => ((y.startOp (e.site t q w)).modIo (TileIo.queueLate
      { op := e.opOf t q w [] [], due := e.cycle + 3 })).modSeq q (Seq.await (fld w 36 5))) := by
  subst he
  show execTrd t q s = _
  rw [execTrd, tileInsn_runs h hk]
  rfl

/-- A `TWAIT` checks its threshold (R278), waits for the count at its turn (R152), and takes it from the count unless `K` is 1. -/
theorem twait_runs (h : e.Issues t q w []) (hk : keyOf w = 0x720) {y : Tally} {n : Int}
    (hy : Map.get {} (e.cluster (clusterOf t)).tally (fld w 41 6) = y) (hn : twaitN w = n) : exec (.twait t q) s = .next
    (if n < 0 ∨ (y.ceil : Int) < n then e.clusterFault (clusterOf t) 4 (tallyDetail (fld w 41 6) t 2)
    else if e.addDue (clusterOf t) (fld w 41 6) = true ∨ e.countAtTurn t (fld w 41 6) < n then e.stall (e.site t q w) 5
    else (((e.settleCluster (clusterOf t)).issueSeq (e.site t q w) id).setTally (clusterOf t) (fld w 41 6)
      { y with count := if bit w 35 then y.count else BitVec.ofInt 32 (y.count.toInt - n) }).tallyWatch (clusterOf t) (fld w 41 6)) := by
  subst he hy hn
  show execTwait t q s = _
  rw [execTwait, tileInsn_runs h hk]
  rfl

end

/-! ## A read that is due -/

/-- A tally read alone takes the count into its register (R162). -/
theorem Tile.settle_read {x : Tile} {l : LateOp} {cycle : Nat} (hlate : x.io.late = [l]) (hop : fld l.op.w 56 8 = 0x73)
    (hdue : l.due ≤ cycle) (count : Nat → Word) : x.settle cycle count =
      (x.result l.op.q (fld l.op.w 36 5) (count (fld l.op.w 41 6))).modIo fun io => { io with late := [] } := by
  have hgoes : l.due ≤ cycle ∧ x.ctlWaits [] l.op = false := ⟨hdue, by rw [Tile.ctlWaits, hop]; rfl⟩
  unfold Tile.settle
  rw [hlate, List.foldl_cons, List.foldl_nil, if_pos hgoes, Tile.takeEffect, if_pos hop]
  rfl

/-! ## An addition is applied -/

/-- The mark of an addition that has been applied falls, and it leaves the tile's waiting ones. -/
def Tile.leaveTal (x : Tile) (o : Op) : Tile := (x.unmark o).modIo fun io => { io with tal := io.tal.tail }

/-- The oldest addition is ready unless an access before it waits (R153). -/
theorem Tile.readyAdd_eq {x : Tile} {a : TAdd} {rest : List TAdd} (h : x.io.tal = a :: rest) (c : Nat) :
    x.readyAdd c = if x.csPending c a.op.id then none else some a := by
  unfold Tile.readyAdd
  rw [h]

section

variable {s : State} {t c : Nat} {a : TAdd} {rest : List TAdd} (ht : t < 2304) (hs : s.sameTick = false)
  (htal : (s.tile t).io.tal = a :: rest) (hc : clusterOf t = c)
include ht hs htal hc

/-- The oldest addition stays while an access before it waits (R153), or an addition of another tile comes first (R152). -/
theorem tallyAddApply_held (h : (s.tile t).csPending c a.op.id = true ∨ s.addBefore t a = true) : exec (.tallyAddApply t) s = .next s := by
  subst hc
  show execTallyAddApply t s = _
  rw [execTallyAddApply, if_neg (Nat.not_le.2 ht), alongside_eq _ hs]
  dsimp only
  rw [Tile.readyAdd_eq htal]
  cases hpending : (s.tile t).csPending (clusterOf t) a.op.id with
  | true => rfl
  | false => exact if_pos (h.resolve_left (by rw [hpending]; decide))

theorem tallyAddApply_runs (hpending : (s.tile t).csPending c a.op.id = false) (hbefore : s.addBefore t a = false)
    {p : State × Bool} (hp : (s.settleCluster c).tallyAdd c a.tl a.d t 0 = p) : exec (.tallyAddApply t) s =
      if p.2 then .next (p.1.modTile t fun y => y.leaveTal a.op) else .next p.1 := by
  subst hc hp
  show execTallyAddApply t s = _
  rw [execTallyAddApply, if_neg (Nat.not_le.2 ht), alongside_eq _ hs]
  dsimp only
  rw [Tile.readyAdd_eq htal]
  rw [hpending]
  exact if_neg (by rw [hbefore]; decide)

end

/-- The three outcomes of an addition without watches (R278). -/
theorem State.tallyAdd_eq {s : State} {c tl : Nat} {d n : Int} {y : Tally} (hy : Map.get {} (s.cluster c).tally tl = y)
    (hn : y.count.toInt + d = n) (hoff : s.dbg.bpen = false) (src kind : Nat) : s.tallyAdd c tl d src kind =
      if n < 0 then (s.clusterFault c 2 (tallyDetail tl src kind), false)
      else if (y.ceil : Int) < n then (s.clusterFault c 3 (tallyDetail tl src kind), false)
      else (s.setTally c tl { y with count := BitVec.ofInt 32 n }, true) := by
  subst hy hn
  unfold State.tallyAdd
  extract_lets y n
  rw [State.tallyWatch_of_no_break (s := s.modCluster c _) hoff]
  rfl

theorem Tile.leaveTal_eq (x : Tile) (o : Op) : x.leaveTal o =
    { x with sq := (x.unmark o).sq, io := { x.io with tal := x.io.tal.tail } } := by
  rw [Tile.leaveTal, Tile.unmark_eq]
  rfl

/-- An operation that has changed a cluster only ends at its tile (R53). -/
theorem State.leaveTal_opEnds {e e1 : State} {t : Nat} (htiles : e1.tiles = e.tiles) (hjob : e1.job = e.job) (o : Op) :
    e.OpEnds (e1.modTile t fun y => y.leaveTal o) t o := by
  have htile : ∀ u, e1.tile u = e.tile u := State.tile_eq_of_tiles htiles
  have hself := (e1.modTile_tile_self t fun y => y.leaveTal o)
  rw [htile] at hself
  have hseq : ∀ r, ((e.tile t).leaveTal o).seq r = ((e.tile t).unmark o).seq r := fun r => by cases r <;> rfl
  refine ⟨?_, fun r hr => ?_, ?_, ?_, ?_, fun u hu => ?_, hjob⟩
  · rw [hself, hseq]
    exact Tile.unmark_seq _ o
  · rw [hself, hseq]
    exact Tile.unmark_seq_ne _ o r hr
  · rw [hself, Tile.leaveTal_eq]
  · rw [hself, Tile.leaveTal_eq]
  · rw [hself, Tile.leaveTal_eq]
  · rw [State.modTile_tile_ne _ _ _ _ hu, htile]

/-- What an addition to a tally leaves: `y` in the tally, and its operation ended (R53, R278). -/
theorem State.tallyEnds {s e : State} (h : s.Settled e) {t : Nat} {a : TAdd} {rest : List TAdd} (htal : (s.tile t).io.tal = a :: rest)
    (c : Nat) (y : Tally) : e.OpEnds ((e.setTally c a.tl y).modTile t fun x => x.leaveTal a.op) t a.op ∧
      (((e.setTally c a.tl y).modTile t fun x => x.leaveTal a.op).tile t).io.tal = rest ∧
      Map.get {} (((e.setTally c a.tl y).modTile t fun x => x.leaveTal a.op).cluster c).tally a.tl = y ∧
      (∀ k, k ≠ a.tl → Map.get {} (((e.setTally c a.tl y).modTile t fun x => x.leaveTal a.op).cluster c).tally k =
        Map.get {} (s.cluster c).tally k) ∧
      (((e.setTally c a.tl y).modTile t fun x => x.leaveTal a.op).tile t).sp = (s.tile t).sp ∧
      (((e.setTally c a.tl y).modTile t fun x => x.leaveTal a.op).cluster c).cs = (s.cluster c).cs ∧
      ∀ k, k ≠ c → ((e.setTally c a.tl y).modTile t fun x => x.leaveTal a.op).cluster k = s.cluster k := by
  have hends := State.leaveTal_opEnds (e := e) (t := t) (e.setTally_tiles c a.tl y) (e.setTally_job c a.tl y) a.op
  have htile : (e.setTally c a.tl y).tile t = e.tile t := State.tile_eq_of_tiles (e.setTally_tiles c a.tl y) t
  obtain ⟨hself, hne, hcs, hclusters⟩ := e.setTally_frame c a.tl y
  simp only [h.cluster] at hne hcs hclusters
  refine ⟨hends, ?_⟩
  simp only [State.modTile_tile_self, State.modTile_cluster, htile, Tile.leaveTal_eq, (h.tile t).tal, (h.tile t).sp, htal, List.tail_cons]
  exact ⟨trivial, hself, hne, trivial, hcs, hclusters⟩

/-- Settles O31: the shapes of the four instructions, a read that is due, and the outcomes of an addition. That reads which are due take the
count first, and that a wait is judged after the additions of its cycle, is the model's choice (log 46). -/
theorem tallies : Obligations.Tallies := by
  unfold Obligations.Tallies
  refine ⟨fun s₀ t q w hq => ?issue, fun s t l hlate hop hdue hq => ?read, fun s t a rest ht hs htal hbreak => ?apply⟩
  case issue =>
    intro s v tl c y n e adds
    have hadds : ∀ {cmd : Instr} {d d' : Int}, exec cmd s₀ = .next (s.issueSeq (s.site t q w) fun z =>
        ((z.startOp (s.site t q w)).modIo (TileIo.queueTal { tl := tl, d := d, op := s.opOf t q w [] [], at_ := s.cycle })).modSeq q id) →
        d = d' → adds cmd d' := fun hrun hd =>
      hd ▸ ⟨_, hrun, State.started_taken hq (TileIo.queueTal_keepsAcc _) Seq.keepsMarks_id⟩
    refine ⟨fun hk h => ?tadd, fun hk h => ?taddr, fun hk h => ?trd, fun hk h => ?twait⟩
    case tadd => exact hadds (tadd_runs (e := s) rfl h hk) (toInt_setWidth_low w (by decide)).symm
    case taddr => exact hadds (taddr_runs (e := s) rfl h hk) (toInt_setWidth_low _ (by decide)).symm
    case trd =>
      exact ⟨_, trd_runs (e := s) rfl h hk, State.started_taken hq (TileIo.queueLate_keepsAcc _) (Seq.await_keepsMarks _)⟩
    case twait =>
      have hn : twaitN w = n := (toInt_setWidth_low w (by decide)).symm
      have hrun := twait_runs (e := s) rfl h hk (y := y) rfl hn
      rw [hrun]
      refine ⟨fun hbad => congrArg _ (if_pos hbad), fun hlo hhi hwaits => ?stalls, fun hlo hhi hdue hmet hbreak => ?goes⟩
      case stalls =>
        rw [if_neg (by omega), if_pos hwaits, State.stall_eq, show 0x100 + 0x40 * Strm.code q + 8 * 5 = 0x128 + 0x40 * Strm.code q by omega]
      case goes =>
        have hsettled := s.settleCluster_settled c
        rw [if_neg (by omega), if_neg (by rw [hdue]; simpa using hmet)]
        refine ⟨e.issueSeq (e.site t q w) id, ?_, ?_⟩
        · rw [← hsettled.nextPc]
          exact e.issueSeq_noop t w hq
        · rw [State.tallyWatch_of_no_break (by rw [State.setTally_dbg, State.issueSeq_bpen, hsettled.dbg, hbreak]), ← hsettled.site]
          rfl
  case read =>
    intro v d
    have hother := (s.tile t).result_onlySeq hq d
      ((Map.get {} (s.cluster (clusterOf t)).tally (fld l.op.w 41 6)).count.signExtend 64) []
    have hsettle : (s.settle t).tile t = _ := (State.modTile_tile_self _ _ _).trans (Tile.settle_read hlate hop hdue _)
    rw [hsettle]
    exact ⟨rfl, hother.seq⟩
  case apply =>
    intro c y n e
    have hsettled : s.Settled e := s.settleCluster_settled c
    have hkept : ∀ k, e.cluster k = s.cluster k := hsettled.cluster
    refine ⟨fun hheld => tallyAddApply_held ht hs htal rfl hheld, fun hpending hbefore => ?_⟩
    have hruns : ∀ {p}, e.tallyAdd c a.tl a.d t 0 = p → _ := tallyAddApply_runs ht hs htal rfl hpending hbefore
    have hsum := State.tallyAdd_eq (s := e) (d := a.d) (n := n) (y := y) (by rw [hkept]) rfl (by rw [hsettled.dbg]; exact hbreak) t 0
    clear_value e n y
    refine ⟨fun hlo => ?under, fun hhi hlo => ?above, fun hlo hhi => ?applies⟩
    case under => exact hruns (hsum.trans (if_pos hlo))
    case above => exact hruns (hsum.trans ((if_neg (Int.not_lt.2 hlo)).trans (if_pos hhi)))
    case applies =>
      have hrun := hruns (hsum.trans ((if_neg (Int.not_lt.2 hlo)).trans (if_neg (Int.not_lt.2 hhi))))
      exact ⟨_, hrun, State.tallyEnds hsettled htal _ _⟩

end Sys2Proof.Machine

/-! # Queue instructions (R154, R162, R183, R263, R267, R268, R274)

A queue read pops its bytes as it issues; a queue control takes its place and takes effect once it is due and alone. -/

namespace Sys2Proof.Machine

/-! ## Queues of a tile -/

theorem Tile.queue_modQueue_self (x : Tile) (k : Nat) (f : Queue → Queue) : (x.modQueue k f).queue k = f (x.queue k) :=
  Map.get_set_self _ _ _ _

theorem Tile.queue_modQueue_ne (x : Tile) {j k : Nat} (f : Queue → Queue) (h : j ≠ k) : (x.modQueue k f).queue j = x.queue j :=
  Map.get_set_ne _ _ _ _ _ h

/-- What a queue instruction leaves: the registers `v` of its sequencer, the queue `y`, the queue controls `late` waiting beside those that
were; the rest of the module but its tile is as before. -/
structure State.QueueLeaves (s s' : State) (t : Nat) (q : Strm) (w : Word) (k : Nat) (v : Seq) (y : Queue) (late : List LateOp) : Prop where
  seq : (s'.tile t).seq q = s.seqAfter t q w v
  queue : (s'.tile t).queue k = y
  queues : ∀ j, j ≠ k → (s'.tile t).queue j = (s.tile t).queue j
  late : (s'.tile t).io.late = (s.tile t).io.late ++ late
  wrs : (s'.tile t).qu.wrs = (s.tile t).qu.wrs
  streams : ∀ r, r ≠ q → (s'.tile t).seq r = (s.tile t).seq r
  sp : (s'.tile t).sp = (s.tile t).sp
  clusters : s'.clusters = s.clusters
  job : s'.job = s.job
  tiles : ∀ u, u ≠ t → s'.tile u = s.tile u

section

variable {s s' : State} {t : Nat} {q : Strm} {w : Word} {k : Nat}

/-- A queue control that takes its place leaves its queue as it is. -/
theorem State.Taken.queueLeaves {l : LateOp} (h : s.Taken s' t q w ((s.tile t).seq q) (TileIo.queueLate l) []) :
    s.QueueLeaves s' t q w k ((s.tile t).seq q) ((s.tile t).queue k) [l] := by
  obtain ⟨hseq, hstreams, -, hdata, hops, -, -, hrest⟩ := h
  have hqu : (s'.tile t).qu = (s.tile t).qu := hdata.qu
  refine ⟨hseq, ?_, fun j _ => ?_, congrArg TileIo.late hops, by rw [hqu], hstreams, hdata.sp.1, hrest.clusters, hrest.job, hrest.tiles⟩
  · rw [Tile.queue, hqu, Tile.queue]
  · rw [Tile.queue, hqu, Tile.queue]

/-- An instruction that only writes registers leaves its queue as it is. -/
theorem State.Issued.queueLeaves {v : Seq} (hmark : bit w 51 = false) (h : s.Issued s' t q (s.nextPc t q) 0 v) :
    s.QueueLeaves s' t q w k v ((s.tile t).queue k) [] := by
  obtain ⟨hseq, hstreams, -, hdata, -, -, hrest⟩ := h
  refine ⟨?_, ?_, fun j _ => ?_, ?_, by rw [hdata.qu], hstreams, hdata.sp.1, hrest.clusters, hrest.job, hrest.tiles⟩
  · rw [State.seqAfter, hmark, hseq]
    rfl
  · rw [Tile.queue, hdata.qu, Tile.queue]
  · rw [Tile.queue, hdata.qu, Tile.queue]
  · rw [hdata.io, List.append_nil]

/-- A queue read pops its bytes as it issues: `f` changes the queue, `g` the sequencer, `h` the operations in flight. -/
theorem State.popped (s : State) (t : Nat) {q : Strm} {w : Word} (k : Nat) (f : Queue → Queue) {g : Seq → Seq} {h : TileIo → TileIo}
    (hq : q ≠ .x) (hg : Seq.KeepsPc g) (hlate : ∀ io, (h io).late = io.late) (hmark : bit w 51 = false) :
    s.QueueLeaves (s.issueSeq (s.site t q w) fun z => ((z.modQueue k f).modIo h).modSeq q g) t q w k (g ((s.tile t).seq q))
      (f ((s.tile t).queue k)) [] := by
  have htile := s.issueSeq_tile t q w fun z => ((z.modQueue k f).modIo h).modSeq q g
  have hrest := s.issueSeq_sameBut t q w fun z => ((z.modQueue k f).modIo h).modSeq q g
  have hdata := (s.tile t).issue_data (s.site t q w) (s.nextPc t q)
  have hseq := (s.tile t).issue_seq (s.site t q w) (s.nextPc t q) hq
  have hne := (s.tile t).issue_seq_ne (s.site t q w) (s.nextPc t q)
  generalize (s.tile t).issue (s.site t q w) (s.nextPc t q) = x at htile hdata hseq hne
  generalize s.issueSeq (s.site t q w) _ = s' at htile hrest ⊢
  refine ⟨?_, ?_, fun j hj => ?_, ?_, ?_, fun r hr => ?_, ?_, hrest.clusters, hrest.job, hrest.tiles⟩
  · rw [State.seqAfter, hmark, htile]
    exact (Tile.modSeq_seq _ _ _ hq).trans ((congrArg g hseq).trans (hg _ _ _))
  · have hqueue : x.queue k = (s.tile t).queue k := by rw [Tile.queue, hdata.qu, Tile.queue]
    rw [htile, ← hqueue]
    exact x.queue_modQueue_self k f
  · have hqueue : x.queue j = (s.tile t).queue j := by rw [Tile.queue, hdata.qu, Tile.queue]
    rw [htile, ← hqueue]
    exact x.queue_modQueue_ne f hj
  · rw [htile, List.append_nil, ← hdata.io]
    exact hlate _
  · rw [htile, ← hdata.qu]
    rfl
  · rw [htile]
    exact (Tile.modSeq_seq_ne _ _ _ _ hr).trans (hne r hr)
  · rw [htile]
    exact hdata.sp.1

/-- An operation without a mark takes its number only (R53). -/
theorem Tile.startOp_of_no_mark (x : Tile) {i : Site} (h : bit i.w 51 = false) :
    x.startOp i = x.modIo fun io => { io with nextId := io.nextId + 1 } := by
  unfold Tile.startOp
  dsimp only
  exact if_neg (by rw [h]; decide)

/-- A tile whose queue control has taken effect: the queue, the mark, and nothing of the other queues and the scratchpad (R274). -/
theorem Tile.control_frame (x : Tile) (k : Nat) (f : Queue → Queue) (o : Op) :
    let z := ((x.modQueue k f).unmark o).modIo fun io => { io with late := [] }
    z.io.late = [] ∧ z.queue k = f (x.queue k) ∧ (∀ j, j ≠ k → z.queue j = x.queue j) ∧ z.sp = x.sp ∧
      z.seq o.q = if bit o.w 51 then (x.seq o.q).subMark (fld o.w 47 4) else x.seq o.q := by
  have hunmark := (x.modQueue k f).unmark_eq o
  have hqueue : ∀ j, ((x.modQueue k f).unmark o).queue j = (x.modQueue k f).queue j := fun j => by rw [Tile.queue, hunmark, Tile.queue]
  have hsp : ((x.modQueue k f).unmark o).sp = x.sp := by
    rw [hunmark]
    rfl
  exact ⟨rfl, (hqueue k).trans (x.queue_modQueue_self k f), fun j hj => (hqueue j).trans (x.queue_modQueue_ne f hj), hsp,
    Tile.unmark_seq _ o⟩

theorem State.NowRead.qu {s1 : State} (h : s.NowRead s1 t) : (s1.tile t).qu = (s.tile t).qu := h.tile.reads Tile.qu

/-- A pop after a read of rows at once. -/
theorem State.QueueLeaves.of_nowRead {s1 : State} (hnow : s.NowRead s1 t) {v : Seq} {y : Queue} {late : List LateOp}
    (h : s1.QueueLeaves s' t q w k v y late) : s.QueueLeaves s' t q w k v y late := by
  obtain ⟨hseq, hqueue, hqueues, hlate, hwrs, hstreams, hsp, hclusters, hjob, htiles⟩ := h
  have hio : (s1.tile t).io.late = (s.tile t).io.late := by rw [hnow.tile.io]; rfl
  refine ⟨?_, hqueue, fun j hj => (hqueues j hj).trans ?_, hio ▸ hlate, hwrs.trans (by rw [hnow.qu]), fun r hr => (hstreams r hr).trans (hnow.seq r),
    hsp.trans hnow.tile.sp, hclusters.trans (by rw [hnow.rest]), hjob.trans hnow.job, fun u hu => (htiles u hu).trans (hnow.tiles u hu)⟩
  · rw [hseq, State.seqAfter, State.seqAfter, hnow.nextPc, hnow.slot]
  · rw [Tile.queue, hnow.qu, Tile.queue]

end

/-- Eight bytes leave the head of a ring (R267). -/
def Queue.pop8 (cfg : Word) (y : Queue) : Queue := { y with head := (y.head + 8) % ringSize cfg, occ := y.occ - 8 }

/-- The queue unit's request for the row of the bytes at `a`, due at the arbiter two cycles on (R183). -/
def State.headReq (s : State) (t : Nat) (q : Strm) (w : Word) (a : Nat) : CsReq :=
  { lt := localOf t, qu := true, lo := a / 512 * 512, n := 1, wr := false, op := s.opOf t q w [] [], at_ := s.cycle + 2, ad := a }

/-- A request joins the waiting ones of a cluster. -/
def State.askCs (s : State) (c : Nat) (r : CsReq) : State := s.modCluster c fun x => { x with waiting := x.waiting ++ [r] }

theorem State.askCs_frame (s : State) (c : Nat) (r : CsReq) : ((s.askCs c r).cluster c).waiting = (s.cluster c).waiting ++ [r] ∧
    ((s.askCs c r).cluster c).cs = (s.cluster c).cs ∧ ∀ d, d ≠ c → (s.askCs c r).cluster d = s.cluster d := by
  have hself : (s.askCs c r).cluster c = { s.cluster c with waiting := (s.cluster c).waiting ++ [r] } := State.modCluster_cluster_self _ _ _
  rw [hself]
  exact ⟨rfl, rfl, fun d hd => State.modCluster_cluster_ne _ _ _ _ hd⟩

/-! ## What each instruction does when it issues -/

section

variable {s e : State} {t : Nat} {q : Strm} {w : Word} (he : s.enter t q = e)
include he

/-- An instruction on an unconfigured queue raises `RING` reason 0x04 (R263). -/
theorem queueInsn_runs {key : Nat} {regs : Word → List Nat} {body : Site → Tile → Nat → State → State} (h : e.Issues t q w (regs w))
    (hk : keyOf w = key) : queueInsn key t q s regs body = .next
      (if bit ((e.tile t).qcfg (fld w 32 9)) 63 = true then body (e.site t q w) (e.tile t) (fld w 32 9) e
      else e.tileFault t (Strm.code q) 0xB (0x4000000 + fld w 32 9) ((e.tile t).slot q)) := by
  subst he
  rw [queueInsn, tileInsn_runs h hk]
  rfl

theorem qlen_runs (h : e.Issues t q w [fD w]) (hk : keyOf w = 0x770) (hcfg : bit ((e.tile t).qcfg (fld w 32 9)) 63 = true) :
    exec (.qlen t q) s = .next (e.issueSeq (e.site t q w) fun z => z.modSeq q fun v =>
      v.setS (fD w) (BitVec.ofNat 64 ((e.tile t).queue (fld w 32 9)).occ)) := by
  show execQlen t q s = _
  rw [execQlen, queueInsn_runs he h hk, if_pos hcfg]
  rfl

section

variable (h : e.Issues t q w [fD w]) (hk : keyOf w = 0x760) {cfg : Word} (hcfg : (e.tile t).qcfg (fld w 32 9) = cfg) (hon : bit cfg 63 = true)
  {y : Queue} (hy : (e.tile t).queue (fld w 32 9) = y)
include h hk hcfg hon hy

/-- A `QHEAD` waits for 8 visible bytes (R267). -/
theorem qhead_waits (hfew : y.occ < 8) : exec (.qhead t q) s = .next (e.stall (e.site t q w) 5) := by
  subst hcfg hy
  show execQhead t q s = _
  rw [execQhead, queueInsn_runs he h hk, if_pos hon]
  exact congrArg _ (if_pos hfew)

/-- From a ring in the cluster store the bytes are asked for (R183). -/
theorem qhead_asks (hroom : 8 ≤ y.occ) (hcs : ringInCs cfg = true) {a : Nat} (ha : ringBase cfg + y.head = a) :
    exec (.qhead t q) s = .next ((e.issueSeq (e.site t q w) fun z =>
      ((z.modQueue (fld w 32 9) (Queue.pop8 cfg)).startOp (e.site t q w)).modSeq q (Seq.await (fD w))).askCs (clusterOf t)
        (e.headReq t q w a)) := by
  subst hcfg hy ha
  show execQhead t q s = _
  rw [execQhead, queueInsn_runs he h hk, if_pos hon]
  dsimp only
  rw [if_neg (Nat.not_lt.2 hroom), if_pos hcs]
  rfl

/-- From a ring in the scratchpad the bytes are read at once (R267). -/
theorem qhead_reads (hroom : 8 ≤ y.occ) (hcs : ringInCs cfg = false) {a : Nat} (ha : ringBase cfg + y.head = a) {s1 : State} {row : List Byte}
    (hread : e.readNow { t := t, q := Strm.code q, eng := 6, pc := (e.tile t).slot q } (a / 512) 1 = (s1, some row)) :
    exec (.qhead t q) s = .next (s1.issueSeq (e.site t q w) fun z =>
      ((z.modQueue (fld w 32 9) (Queue.pop8 cfg)).modIo id).modSeq q fun v => v.setS (fD w) (wordAt row (a % 512))) := by
  subst hcfg hy ha
  show execQhead t q s = _
  rw [execQhead, queueInsn_runs he h hk, if_pos hon]
  dsimp only [State.site]
  rw [if_neg (Nat.not_lt.2 hroom), if_neg (by rw [hcs]; decide), hread]
  rfl

end

end

/-- A queue control takes its place (R162, R274). -/
def qctlBody (i : Site) (x : Tile) (_ : Nat) (s : State) : State :=
  s.issueSeq i fun z => ((z.startOp i).modIo (TileIo.queueLate { op := i.op x [] [], due := s.cycle + 2 })).modSeq i.q id

theorem qctlOp_eq (key t : Nat) (q : Strm) (s : State) : qctlOp key t q s = queueInsn key t q s (fun _ => []) qctlBody := by
  unfold qctlBody
  simp only [Tile.modSeq_id]
  rfl

/-- The queue instructions with their keys. -/
def queueInsns : List (Nat × (Nat → Strm → Instr)) :=
  [(0x760, .qhead), (0x770, .qlen), (0x780, .qctlOpen), (0x781, .qctlClose), (0x782, .qctlReset)]

theorem exec_qhead_shape (t : Nat) (q : Strm) (s : State) : ∃ body, exec (.qhead t q) s = queueInsn 0x760 t q s (fun w => [fD w]) body := by
  show ∃ body, execQhead t q s = _
  unfold execQhead
  exact ⟨_, rfl⟩

theorem exec_qlen_shape (t : Nat) (q : Strm) (s : State) : ∃ body, exec (.qlen t q) s = queueInsn 0x770 t q s (fun w => [fD w]) body := by
  show ∃ body, execQlen t q s = _
  unfold execQlen
  exact ⟨_, rfl⟩

/-- Each is the shape of an instruction on a queue; the reads of a queue write a register, the controls take their place. -/
theorem exec_queueInsns (t : Nat) (q : Strm) (s : State) : ∀ e ∈ queueInsns, ∃ body,
    exec (e.2 t q) s = queueInsn e.1 t q s (fun w => if e.1 ≤ 0x770 then [fD w] else []) body ∧ (0x780 ≤ e.1 → body = qctlBody) := by
  obtain ⟨qhead, hqhead⟩ := exec_qhead_shape t q s
  obtain ⟨qlen, hqlen⟩ := exec_qlen_shape t q s
  simp only [queueInsns, List.forall_mem_cons, Nat.reduceLeDiff, if_true, if_false]
  exact ⟨⟨qhead, hqhead, False.elim⟩, ⟨qlen, hqlen, False.elim⟩, ⟨_, qctlOp_eq _ _ _ _, fun _ => rfl⟩,
    ⟨_, qctlOp_eq _ _ _ _, fun _ => rfl⟩, ⟨_, qctlOp_eq _ _ _ _, fun _ => rfl⟩, fun _ h => absurd h List.not_mem_nil⟩

/-! ## A queue control that is due -/

/-- What a queue control does to its queue (R274). -/
def Queue.control (n : Nat) (y : Queue) : Queue :=
  if n = 0 then { y with open_ := true } else if n = 1 then { y with open_ := false } else y.reset

section

variable {x : Tile} {l : LateOp} {cycle : Nat} (hlate : x.io.late = [l]) (hop : fld l.op.w 56 8 = 0x78) (hdue : l.due ≤ cycle)
  (count : Nat → Word)
include hlate hop hdue

/-- A queue control alone takes effect, and its mark falls. -/
theorem Tile.settle_control (hgoes : fld l.op.w 28 4 < 2 ∨ ∀ m ∈ x.qu.wrs, m.q ≠ fld l.op.w 32 9) : x.settle cycle count =
    ((x.modQueue (fld l.op.w 32 9) (Queue.control (fld l.op.w 28 4))).unmark l.op).modIo fun io => { io with late := [] } := by
  have hwaits : x.ctlWaits [] l.op = false := by
    rw [Tile.ctlWaits, List.any_nil, Bool.false_or]
    rcases hgoes with hfew | hnone
    · rw [decide_eq_false (Nat.not_le.2 hfew), Bool.false_and, Bool.and_false]
    · have hidle : (x.qu.wrs.any fun m => decide (m.q = insnQ l.op.w)) = false :=
        List.any_eq_false.2 fun m hm h => hnone m hm (of_decide_eq_true h)
      rw [hidle, Bool.and_false, Bool.and_false]
  have hcontrol : (fun y : Queue => match fld l.op.w 28 4 with
      | 0 => { y with open_ := true }
      | 1 => { y with open_ := false }
      | _ => y.reset) = Queue.control (fld l.op.w 28 4) := by
    funext y
    unfold Queue.control
    split
    case h_1 hopen => rw [hopen]; rfl
    case h_2 hclose => rw [hclose]; rfl
    case h_3 h0 h1 => rw [if_neg h0, if_neg h1]
  unfold Tile.settle
  rw [hlate, List.foldl_cons, List.foldl_nil, if_pos ⟨hdue, hwaits⟩, Tile.takeEffect, if_neg (by rw [hop]; decide), ← hcontrol]
  rfl

omit hdue in
/-- A `RESET` waits while a message is being written into the ring (R274). -/
theorem Tile.settle_reset_waits (hreset : fld l.op.w 28 4 = 2) (hwriting : ∃ m ∈ x.qu.wrs, m.q = fld l.op.w 32 9) :
    x.settle cycle count = x := by
  have hwaits : x.ctlWaits [] l.op = true := by
    obtain ⟨m, hm, hmq⟩ := hwriting
    rw [Tile.ctlWaits, hop, hreset, List.any_eq_true.2 ⟨m, hm, decide_eq_true hmq⟩]
    rfl
  unfold Tile.settle
  rw [hlate, List.foldl_cons, List.foldl_nil, if_neg fun h => by rw [hwaits] at h; exact absurd h.2 (by decide)]
  show x.modIo (fun io => { io with late := [l] }) = x
  rw [← hlate]
  rfl

end

/-- Settles O33: a queue instruction raises `RING` on an unconfigured queue, pops, or takes its place; a control that is due changes its
queue. -/
theorem queueInstructions : Obligations.QueueInstructions := by
  unfold Obligations.QueueInstructions
  refine ⟨fun s₀ t q w hq => ?issue, fun s t l hlate hop hdue => ?due⟩
  case issue =>
    intro s x v k y cfg a c popped leaves
    have hleaves : ∀ {cmd : Instr} {s' : State} {v' : Seq} {y' : Queue} {late : List LateOp}, exec cmd s₀ = .next s' →
        s.QueueLeaves s' t q w k v' y' late → leaves cmd v' y' late [] := fun {cmd s' v' y' late} hrun h => by
      have hcl : ∀ d, s'.cluster d = s.cluster d := fun d => by rw [State.cluster, h.clusters, State.cluster]
      exact ⟨s', hrun, h.seq, h.queue, h.queues, h.late, h.wrs, h.streams, h.sp, by rw [hcl, List.append_nil], by rw [hcl], fun d _ => hcl d,
        h.job, h.tiles⟩
    have hmark : ∀ {regs : List Nat}, s.Issues t q w regs → fld w 56 8 = 0x76 ∨ fld w 56 8 = 0x77 → bit w 51 = false := fun h hop =>
      no_mark_of_legal h.legal (by rcases hop with hop | hop <;> rw [hop] <;> rfl)
    refine ⟨fun e he hk h => ?all, fun hon => ⟨fun hk h => ?qhead, fun hk h => ?qlen⟩⟩
    case all =>
      obtain ⟨body, hshape, hctl⟩ := exec_queueInsns t q s₀ e he
      have hrun := hshape.trans (queueInsn_runs (e := s) rfl h hk)
      refine ⟨fun hoff => hrun.trans (congrArg _ (if_neg (by rw [show bit ((s.tile t).qcfg (fld w 32 9)) 63 = false from hoff]; decide))),
        fun hon hge => ?_⟩
      rw [hctl hge] at hrun
      exact hleaves (hrun.trans (congrArg _ (if_pos hon)))
        (State.started_taken hq (TileIo.queueLate_keepsAcc _) Seq.keepsMarks_id).queueLeaves
    case qhead =>
      have hnomark := hmark h (.inl (opcode_of_key hk rfl))
      refine ⟨fun hfew => ?waits, fun hroom hsp hclear => ?reads, fun hroom hcs => ?asks⟩
      case waits =>
        rw [qhead_waits (e := s) rfl h hk rfl hon rfl hfew, State.stall_eq,
          show 0x100 + 0x40 * Strm.code q + 8 * 5 = 0x128 + 0x40 * Strm.code q by omega]
      case reads =>
        obtain ⟨s1, hread, hnow⟩ := State.readNow_of_clear (c := { t := t, q := Strm.code q, eng := 6, pc := (s.tile t).slot q })
          hclear.acc hclear.parity hclear.noBreak (hclear.banks 6) (a / 512) 1
        have hrun := qhead_reads (e := s) rfl h hk rfl hon rfl hroom hsp rfl hread
        rw [← hnow.site] at hrun
        have hpop := s1.popped t k (Queue.pop8 cfg) (g := fun v => v.setS (fD w) (wordAt (x.rows (a / 512) 1) (a % 512))) (h := id) hq
          (Seq.setS_keepsPc _ _) (fun _ => rfl) hnomark
        rw [hnow.seq, Tile.queue, hnow.qu] at hpop
        exact hleaves hrun (hpop.of_nowRead hnow)
      case asks =>
        have hrun := qhead_asks (e := s) rfl h hk rfl hon rfl hroom hcs rfl
        simp only [Tile.startOp_of_no_mark _ (show bit (s.site t q w).w 51 = false from hnomark)] at hrun
        have hpop := s.popped t k (Queue.pop8 cfg) (g := Seq.await (fD w)) (h := fun io => { io with nextId := io.nextId + 1 }) hq
          (Seq.await_keepsMarks _).pc (fun _ => rfl) hnomark
        generalize s.issueSeq (s.site t q w) _ = s1 at hrun hpop
        have hcl : ∀ d, s1.cluster d = s.cluster d := fun d => by rw [State.cluster, hpop.clusters, State.cluster]
        obtain ⟨hwaiting, hkept, hclusters⟩ := s1.askCs_frame c (s.headReq t q w a)
        simp only [hcl] at hwaiting hkept hclusters
        exact ⟨_, hrun, hpop.seq, hpop.queue, hpop.queues, hpop.late, hpop.wrs, hpop.streams, hpop.sp, hwaiting, hkept, hclusters, hpop.job,
          hpop.tiles⟩
    case qlen =>
      have hnomark := hmark h (.inr (opcode_of_key hk rfl))
      exact hleaves (qlen_runs (e := s) rfl h hk hon) ((State.issueSeq_issued s t q w (fun v => v.setS (fD w) (BitVec.ofNat 64 y.occ)) hq (Seq.setS_keepsPc _ _)).queueLeaves hnomark)
  case due =>
    intro x k y z
    have hz : ∀ {r}, (x.settle s.cycle fun tl => (Map.get {} (s.cluster (clusterOf t)).tally tl).count.signExtend 64) = r → z = r :=
      fun h => (State.modTile_tile_self _ _ _).trans h
    refine ⟨fun hreset hwriting => hz (Tile.settle_reset_waits hlate hop _ hreset hwriting), fun hgoes => ?_⟩
    have hsettle : z = _ := hz (Tile.settle_control hlate hop hdue _ (hgoes.imp id (·.2)))
    have hcontrol : Queue.control (fld l.op.w 28 4) y =
        if fld l.op.w 28 4 = 2 then { y with open_ := false, head := 0, occ := 0 } else { y with open_ := fld l.op.w 28 4 == 0 } := by
      have hfn : fld l.op.w 28 4 = 0 ∨ fld l.op.w 28 4 = 1 ∨ fld l.op.w 28 4 = 2 := by omega
      rcases hfn with hfn | hfn | hfn <;> rw [hfn] <;> rfl
    obtain ⟨hlate', hqueue, hqueues, hsp, hseq⟩ := x.control_frame k (Queue.control (fld l.op.w 28 4)) l.op
    rw [hcontrol] at hqueue
    rw [hsettle]
    exact ⟨hlate', hqueue, hqueues, hsp, rfl, hseq⟩

end Sys2Proof.Machine

/-! # Messages are sent (R154, R260 to R262, R287)

A send is checked and sealed as it issues; its message leaves when its last flit does. -/

namespace Sys2Proof.Machine

/-! ## A fault of a tile while its job runs -/

/-- A fault outside the tick of a stop is recorded in its tile, whether or not the tile is one of the job's (R67). -/
theorem State.tileFault_recorded {s : State} (hjs : s.job.js = 4) (t k cause detail pc : Nat) :
    ((s.tileFault t k cause detail pc).tile t).fault = tileFaultWord (s.tile t).fault k cause detail pc := by
  by_cases h : (s.job.img.isSome && s.job.tiles.contains t) = true
  · rw [Bool.and_eq_true] at h
    exact State.tileFault_fault h.1 (List.contains_iff_mem.1 h.2) hjs
  · have hfault : s.tileFault t k cause detail pc = ((s.noteTileFault t k cause detail pc).weighTileFault t cause).fixTrigger 2 false :=
      if_neg h
    rw [hfault, ((fixTrigger_sameUnits _ 2 false).tilesStay.tile t).fault, ((State.weighTileFault_tilesStay _ t cause).tile t).fault,
      State.noteTileFault_tile_fault]

/-! ## The header -/

/-- A field above the one that is replaced is kept. -/
theorem fld_setFld_above (w : Word) {lo n a : Nat} (v m : Nat) (h : lo + n ≤ a) : fld (setFld w lo n v) a m = fld w a m := by
  refine Nat.eq_of_testBit_eq fun j => ?_
  have hplace : (place lo n v).getLsbD (a + j) = false := by
    rw [place_getLsbD, decide_eq_false (show ¬ a + j - lo < n by omega)]
    simp
  have hmask : (BitVec.ofNat 64 ((2 ^ n - 1) <<< lo)).getLsbD (a + j) = false := by
    rw [BitVec.getLsbD_ofNat, Nat.testBit_shiftLeft, Nat.testBit_two_pow_sub_one, decide_eq_false (show ¬ a + j - lo < n by omega)]
    simp
  rw [fld_testBit, fld_testBit, setFld, BitVec.getLsbD_or, BitVec.getLsbD_and, BitVec.getLsbD_not, hplace, hmask]
  by_cases hwide : a + j < 64
  · simp [hwide]
  · rw [BitVec.getLsbD_of_ge w _ (Nat.not_lt.1 hwide)]
    simp

/-- The length of a message is of no account to the check of a `QSENDS`. -/
theorem State.headerCheck_setLen (s : State) (m : Msg) (v : Nat) :
    s.headerCheck { m with h0 := setFld m.h0 0 8 v } false = s.headerCheck m false := by
  have hmod : hDmod { m with h0 := setFld m.h0 0 8 v } = hDmod m := fld_setFld_above _ _ _ (by decide)
  have htile : hDtile { m with h0 := setFld m.h0 0 8 v } = hDtile m := fld_setFld_above _ _ _ (by decide)
  have hq : hDq { m with h0 := setFld m.h0 0 8 v } = hDq m := fld_setFld_above _ _ _ (by decide)
  unfold State.headerCheck
  rw [hmod, htile, hq, Bool.false_and, Bool.false_and]
  rfl

section

variable {s s1 : State} {t : Nat} (h : s.NowRead s1 t) (m : Msg)
include h

theorem State.NowRead.fault : (s1.tile t).fault = (s.tile t).fault := h.tile.reads Tile.fault

theorem State.NowRead.headerCheck (qsend : Bool) : s1.headerCheck m qsend = s.headerCheck m qsend := by
  rw [h.rest]
  rfl

theorem State.NowRead.sealHeader : s1.sealHeader t m = s.sealHeader t m := by
  rw [h.rest]
  rfl

end

/-! ## A send issues -/

/-- An operation joins the outbound ones. -/
def TileIo.queueOut (o : Op) (io : TileIo) : TileIo := { io with out := io.out ++ [o] }

theorem TileIo.queueOut_keepsAcc (o : Op) : TileIo.KeepsAcc (TileIo.queueOut o) := ⟨fun _ => rfl, fun _ _ => rfl⟩

/-- What a send that issues leaves: the operation in flight, the message counted, and nothing else (R54, R287). -/
structure State.Sent (s s' : State) (t : Nat) (q : Strm) (w : Word) (o : Op) : Prop where
  out : (s'.tile t).io.out = (s.tile t).io.out ++ [o]
  ctr : Map.get 0 (s'.tile t).ctr 0x700 = Map.get 0 (s.tile t).ctr 0x700 + 1
  seq : (s'.tile t).seq q = s.seqAfter t q w ((s.tile t).seq q)
  streams : ∀ r, r ≠ q → (s'.tile t).seq r = (s.tile t).seq r
  sp : (s'.tile t).sp = (s.tile t).sp
  am : (s'.tile t).am = (s.tile t).am
  qu : (s'.tile t).qu = (s.tile t).qu
  net : s'.net = s.net
  job : s'.job = s.job
  tiles : ∀ u, u ≠ t → s'.tile u = s.tile u

/-- A send as it issues, before its access is noted. -/
def State.sent (s : State) (t : Nat) (q : Strm) (w : Word) (o : Op) : State :=
  s.issueSeq (s.site t q w) fun y => ((y.startOp (s.site t q w)).count 0x700 1).modIo (TileIo.queueOut o)

section

variable {s s' : State} {t : Nat} {q : Strm} {w : Word} {o : Op}

theorem State.sent_sent (hq : q ≠ .x) (o : Op) : s.Sent (s.sent t q w o) t q w o := by
  have htaken := State.started_taken (s := s) (t := t) (w := w) (g := id) hq (TileIo.queueOut_keepsAcc o) Seq.keepsMarks_id
  have hplain := s.issueSeq_tile t q w fun y => ((y.startOp (s.site t q w)).modIo (TileIo.queueOut o)).modSeq q id
  have htile := s.issueSeq_tile t q w fun y => ((y.startOp (s.site t q w)).count 0x700 1).modIo (TileIo.queueOut o)
  have hrest := s.issueSeq_sameBut t q w fun y => ((y.startOp (s.site t q w)).count 0x700 1).modIo (TileIo.queueOut o)
  rw [Tile.modSeq_id] at hplain
  obtain ⟨hseq, hstreams, -, hdata, hops, -, hctr, -⟩ := htaken
  rw [State.sent]
  generalize s.issueSeq (s.site t q w) (fun y => ((y.startOp _).modIo _).modSeq q id) = s0 at hplain hseq hstreams hdata hops hctr
  generalize s.issueSeq (s.site t q w) _ = s' at htile hrest ⊢
  have hcount : s'.tile t = (s0.tile t).count 0x700 1 := htile.trans (by rw [hplain]; rfl)
  refine ⟨?_, ?_, ?_, fun r hr => ?_, ?_, ?_, ?_, hrest.net, hrest.job, hrest.tiles⟩ <;> rw [hcount]
  · exact congrArg TileIo.out hops
  · rw [Tile.countSelf, hctr 0x700 (by decide)]
    rfl
  · exact hseq
  · exact hstreams r hr
  · exact hdata.sp.1
  · exact hdata.am.1
  · exact hdata.qu

/-- The note of the access of a send changes nothing else. -/
theorem State.Sent.addAccs (h : s.Sent s' t q w o) (hsound : s.soundChk 0 = false) (pc : Nat) (l : List Acc) :
    s.Sent (s'.addAccs t pc l) t q w o := by
  have htile := (s'.setTile_tile_self t (l.foldl Tile.addAcc (s'.tile t))).trans (Tile.foldl_addAcc_eq l _)
  have htiles : ∀ u, u ≠ t → (s'.setTile t (l.foldl Tile.addAcc (s'.tile t))).tile u = s'.tile u := fun u hu => by
    rw [State.setTile_tile, if_neg hu]
  rw [State.addAccs_of_no_sound ((State.soundChk_of_job h.job 0).trans hsound)]
  generalize (l.foldl Tile.addAcc (s'.tile t)).io.acc = joint at htile
  refine ⟨?_, ?_, ?_, fun r hr => ?_, ?_, ?_, ?_, h.net, h.job, fun u hu => (htiles u hu).trans (h.tiles u hu)⟩ <;> rw [htile]
  · exact h.out
  · exact h.ctr
  · exact h.seq
  · exact h.streams r hr
  · exact h.sp
  · exact h.am
  · exact h.qu

/-- A send after a read of rows at once. -/
theorem State.Sent.of_nowRead {s1 : State} (hnow : s.NowRead s1 t) (h : s1.Sent s' t q w o) : s.Sent s' t q w o := by
  have hout : (s1.tile t).io.out = (s.tile t).io.out := by rw [hnow.tile.io]; rfl
  have hctr : Map.get 0 (s1.tile t).ctr 0x700 = Map.get 0 (s.tile t).ctr 0x700 := hnow.tile.ctr _ (by decide) (by decide)
  refine ⟨hout ▸ h.out, hctr ▸ h.ctr, ?_, fun r hr => (h.streams r hr).trans (hnow.seq r), h.sp.trans hnow.tile.sp, h.am.trans hnow.tile.am,
    h.qu.trans hnow.qu, h.net.trans (by rw [hnow.rest]), h.job.trans hnow.job, fun u hu => (h.tiles u hu).trans (hnow.tiles u hu)⟩
  rw [h.seq, State.seqAfter, State.seqAfter, hnow.nextPc, hnow.slot, hnow.seq]

end

/-- The operation of a send: the header the queue unit has completed, the rows the message stands in, the payload of a `QSENDS` (R261). -/
def State.sendOp (s : State) (t : Nat) (q : Strm) (w : Word) (m : Msg) (lo n : Nat) : Op :=
  s.opOf t q w [m.h0, (s.sealHeader t m).h1, BitVec.ofNat 64 lo, BitVec.ofNat 64 n] m.pay

section

variable (s : State) (t : Nat) (q : Strm) (w : Word) (m : Msg) (lo n : Nat)

theorem State.sendIssue_of_bad {qsend : Bool} {f : Nat × Nat} (h : s.headerCheck m qsend = some f) :
    s.sendIssue (s.site t q w) m qsend lo n = s.tileFault t (Strm.code q) f.1 f.2 ((s.tile t).slot q) := by
  rw [State.sendIssue, h]
  rfl

theorem State.sendIssue_of_good {qsend : Bool} (h : s.headerCheck m qsend = none) : s.sendIssue (s.site t q w) m qsend lo n =
    if qsend then (s.sent t q w (s.sendOp t q w m lo n)).addAccs t ((s.tile t).slot q)
      [{ id := (s.sendOp t q w m lo n).id, eng := 6, q := Strm.code q, lo := lo, n := n, wr := false }]
    else s.sent t q w (s.sendOp t q w m lo n) := by
  rw [State.sendIssue, h]
  rfl

end

section

variable {s e : State} {t : Nat} {q : Strm} {w : Word} (he : s.enter t q = e) (hroom : (e.tile t).io.out.length < 32)
include he hroom

/-- A `QSENDS` takes its message from four registers (R154). -/
theorem qsends_runs (h : e.Issues t q w [fA w, fB w, fC w, fD w]) (hk : keyOf w = 0x750) {v : Seq} (hv : (e.tile t).seq q = v) {m : Msg}
    (hm : { h0 := v.sreg (fA w), h1 := v.sreg (fB w), pay := wordBytes (v.sreg (fC w)) ++ wordBytes (v.sreg (fD w)) } = m) :
    exec (.qsends t q) s = .next (e.sendIssue (e.site t q w)
      (if e.headerCheck m false = none then { m with h0 := setFld m.h0 0 8 1 } else m) false 0 0) := by
  subst he hv hm
  show execQsends t q s = _
  rw [execQsends, tileInsn_runs h hk]
  dsimp only [State.site]
  rw [if_neg (Nat.not_le.2 hroom)]
  split
  next f hcheck =>
    rw [hcheck, if_neg (Option.some_ne_none f), State.sendIssue, hcheck]
  next hcheck => rw [if_pos hcheck]

/-- A `QSEND` reads its header, checks its rows and is sent (R154, R261). -/
theorem qsend_runs (h : e.Issues t q w []) (hk : keyOf w = 0x740) {r : Nat} (hr : (((e.tile t).seq q).areg (fld w 37 3)).toNat = r)
    (hlt : r < 768) {s1 : State} {row : List Byte}
    (hread : e.readNow { t := t, q := Strm.code q, eng := 6, pc := (e.tile t).slot q } r 1 = (s1, some row)) {m : Msg}
    (hm : { h0 := wordAt row (16 * fld w 32 5), h1 := wordAt row (16 * fld w 32 5 + 8) } = m) {n : Nat}
    (hn : (fld w 32 5 + fld m.h0 0 8) / 32 + 1 = n) (hrows : r + n ≤ 768) :
    exec (.qsend t q) s = .next (s1.sendIssue (e.site t q w) m true r n) := by
  subst he hr hm hn
  show execQsend t q s = _
  rw [execQsend, tileInsn_runs h hk]
  dsimp only [State.site] at hread ⊢
  rw [if_neg (Nat.not_le.2 hroom), State.rowCheck_of_good (spRun_of_lt hlt), hread]
  refine congrArg _ (State.rowCheck_of_good ?_ _ _)
  exact runs_check_of_fit (l := [{ lo := _, n := _, am := false, wr := false }]) fun r hr => by
    rw [List.mem_singleton.1 hr]
    exact hrows

end

/-! ## A message leaves -/

/-- What completes when an operation has read rows and left: its mark falls, `g` takes it from those in flight. -/
theorem State.Accessed.opEnds {s s1 : State} {t : Nat} (h : s.Accessed s1 t) (o : Op) (g : TileIo → TileIo) :
    let s' := s1.modTile t fun y => ((y.dropAcc o.id).unmark o).modIo g
    s.OpEnds s' t o ∧ (s'.tile t).sp = (s1.tile t).sp ∧ (s'.tile t).io = g ((s1.tile t).dropAcc o.id).io := by
  intro s'
  have htile : s'.tile t = (((s1.tile t).dropAcc o.id).unmark o).modIo g := State.modTile_tile_self _ _ _
  have htiles : ∀ u, u ≠ t → s'.tile u = s.tile u := fun u hu => (State.modTile_tile_ne _ _ _ _ hu).trans (h.tiles u hu)
  have hsame := ((s1.tile t).dropAcc o.id).unmark_eq o
  have hseq := ((s1.tile t).dropAcc o.id).unmark_seq o
  have hne := ((s1.tile t).dropAcc o.id).unmark_seq_ne o
  have hjob : s'.job = s.job := h.job
  clear_value s'
  generalize ((s1.tile t).dropAcc o.id).unmark o = y at htile hsame hseq hne
  refine ⟨⟨?_, fun r hr => ?_, ?_, ?_, ?_, htiles, hjob⟩, ?_, ?_⟩ <;> rw [htile]
  · rw [← h.tile.seq]
    exact hseq
  · rw [← h.tile.seq]
    exact hne r hr
  · exact (congrArg Tile.am hsame).trans h.tile.am
  · exact (congrArg Tile.im hsame).trans (h.tile.reads Tile.im)
  · exact (congrArg Tile.st hsame).trans h.tile.st
  · exact (congrArg Tile.sp hsame :)
  · exact (congrArg (fun z => g z.io) hsame :)

/-- The oldest outbound operation leaves. -/
def TileIo.leaveOut (o : Op) (io : TileIo) : TileIo := { io with out := io.out.filter fun p => decide (p.id ≠ o.id) }

theorem TileIo.leaveOut_out {o : Op} {io : TileIo} {rest : List Op} (h : io.out = o :: rest) (hids : ∀ p ∈ rest, p.id ≠ o.id) :
    (io.leaveOut o).out = rest := by
  rw [TileIo.leaveOut, h, List.filter_cons_of_neg (by simp)]
  exact List.filter_eq_self.2 fun p hp => decide_eq_true (hids p hp)

/-- An outbound operation leaves tile `t`, and its message with it. -/
def State.leaveWith (s : State) (t : Nat) (o : Op) (m : Msg) : State :=
  (s.modTile t fun y => ((y.dropAcc o.id).unmark o).modIo (TileIo.leaveOut o)).sendMsg m

/-- The header an outbound operation carries, with what is known of the payload. -/
def Op.msg (o : Op) : Msg := { h0 := o.v.getD 0 0, h1 := o.v.getD 1 0, pay := o.dat }

section

variable {s : State} {t : Nat} {o : Op} {rest : List Op} (ht : t < 2304) (hs : s.sameTick = false) (hout : (s.tile t).io.out = o :: rest)
include ht hs hout

theorem sendComplete_of_head (hop : fld o.w 56 8 = 0x74 ∨ fld o.w 56 8 = 0x75) : exec (.sendComplete t) s = .next (s.sendEnd t o) := by
  show execSendComplete t s = _
  rw [execSendComplete, if_neg (Nat.not_le.2 ht), alongside_eq _ hs, hout]
  exact if_pos hop

/-- The message of a `QSENDS` leaves as it was taken, that of a `QSEND` with its payload as it stands. -/
theorem sendComplete_leaves (hquiet : s.Quiet t o.id) (hop : fld o.w 56 8 = 0x74 ∨ fld o.w 56 8 = 0x75) : ∃ s1, s.Accessed s1 t ∧
    (s1.tile t).sp = (s.tile t).sp ∧ s1 = { s with tiles := s1.tiles, free := s1.free } ∧ exec (.sendComplete t) s = .next (s1.leaveWith t o
      (if fld o.w 56 8 = 0x75 then o.msg else { o.msg with pay :=
        (((s.tile t).rows (o.v.getD 2 0).toNat (o.v.getD 3 0).toNat).drop (16 * fld o.w 32 5 + 16)).take (hLen o.msg - 16) })) := by
  rw [sendComplete_of_head ht hs hout hop]
  unfold State.sendEnd
  by_cases hreg : fld o.w 56 8 = 0x75
  · rw [if_pos hreg, if_pos hreg]
    exact ⟨s, (State.Reads.pure s t ()).toAccessed, rfl, rfl, rfl⟩
  · rw [if_neg hreg, if_neg hreg]
    have hread := State.opRead_reads (c := { t := t, q := Strm.code o.q, eng := 6, pc := o.pc }) hquiet (o.v.getD 2 0).toNat (o.v.getD 3 0).toNat
    have hquietRead := State.opRead_of_quiet (c := { t := t, q := Strm.code o.q, eng := 6, pc := o.pc }) hquiet (o.v.getD 2 0).toNat
      (o.v.getD 3 0).toNat
    refine ⟨_, hread.toAccessed, hread.sp, ?_, congrArg _ (hread.andThen_eq _)⟩
    rw [hquietRead]
    rfl

end

section

variable {s s1 : State} {t : Nat} (h : s1 = { s with tiles := s1.tiles, free := s1.free }) (f : Tile → Tile) (m : Msg)
include h

/-- A message for this module is on its way (R262). -/
theorem State.sendMsg_here (hd : hDmod m = s.modid) :
    (s1.modTile t f).sendMsg m = (s1.modTile t f).modNet fun n => { n with msgs := n.msgs ++ [m] } := by
  refine if_pos (hd.trans ?_)
  rw [h]
  rfl

/-- A message for another module goes to the port its flow takes (R349, R350). -/
theorem State.sendMsg_away (hd : hDmod m ≠ s.modid) {p : Nat} (hp : s.route (hDmod m) (hSmod m + hStile m + hDtile m) false = .inr p) :
    (s1.modTile t f).sendMsg m = (s1.modTile t f).modNet fun n => { n with rmsg := n.rmsg ++ [(p, m)] } := by
  have hmod : (s1.modTile t f).modid = s.modid := by rw [h]; rfl
  have hroute : (s1.modTile t f).route (hDmod m) (hSmod m + hStile m + hDtile m) false = .inr p := by
    rw [← hp, h]
    rfl
  rw [State.sendMsg, hmod, if_neg hd, hroute]

end

/-- An operation that ends does so whatever the network holds. -/
theorem State.OpEnds.modNet {s s' : State} {t : Nat} {o : Op} (h : s.OpEnds s' t o) (f : Net → Net) : s.OpEnds (s'.modNet f) t o :=
  ⟨h.seq, h.streams, h.am, h.im, h.st, h.tiles, h.job⟩

/-- Settles O32: the header check, the operation in flight and the message that leaves with it. That `TILE_Q_TX` counts a message as it
issues is the model's reading (log 13). -/
theorem messagesAreSent : Obligations.MessagesAreSent := by
  unfold Obligations.MessagesAreSent
  refine ⟨fun s₀ t q w hq => ?issue, fun s t o rest ht hs hout hids hquiet hop => ?complete⟩
  case issue =>
    intro s hsound hroom x v taken fails
    have htaken : ∀ {cmd : Instr} {s' s1 : State} {m : Msg} {lo n : Nat}, exec cmd s₀ = .next s' → s1.sealHeader t m = s.sealHeader t m →
        s.Sent s' t q w (s1.sendOp t q w m lo n) → taken cmd m lo n := fun {cmd s' s1 m lo n} hrun hseal h =>
      ⟨s', _, hrun, h.out, rfl, rfl, rfl, by rw [← hseal]; rfl, h.ctr, h.seq, h.streams, h.sp, h.am, h.qu, h.net, h.job, h.tiles⟩
    refine ⟨fun hk h => ?qsends, fun hk h hclear => ?qsend⟩
    case qsends =>
      intro m
      have hrun := qsends_runs (e := s) rfl hroom h hk rfl (m := m) rfl
      refine ⟨fun hgood => ?_, fun f hbad => ?_⟩
      · rw [if_pos hgood, State.sendIssue_of_good _ _ _ _ _ _ _ ((s.headerCheck_setLen m 1).trans hgood)] at hrun
        exact htaken hrun rfl (State.sent_sent hq _)
      · rw [if_neg (by rw [hbad]; exact Option.some_ne_none f), State.sendIssue_of_bad _ _ _ _ _ _ _ hbad] at hrun
        exact ⟨_, hrun, State.tileFault_recorded h.running _ _ _ _ _⟩
    case qsend =>
      intro r row m n hrows
      obtain ⟨s1, hread, hnow⟩ := State.readNow_of_clear (c := { t := t, q := Strm.code q, eng := 6, pc := (s.tile t).slot q })
        hclear.acc hclear.parity hclear.noBreak (hclear.banks 6) r 1
      have hrun := qsend_runs (e := s) rfl hroom h hk rfl (show r < 768 by omega) hread rfl rfl hrows
      rw [← hnow.site] at hrun
      refine ⟨fun hgood => ?_, fun f hbad => ?_⟩
      · rw [State.sendIssue_of_good _ _ _ _ _ _ _ ((hnow.headerCheck m true).trans hgood), if_pos rfl] at hrun
        exact htaken hrun (hnow.sealHeader m)
          (((State.sent_sent hq _).addAccs ((State.soundChk_of_job hnow.job 0).trans hsound) _ _).of_nowRead hnow)
      · rw [State.sendIssue_of_bad _ _ _ _ _ _ _ ((hnow.headerCheck m true).trans hbad)] at hrun
        refine ⟨_, hrun, (State.tileFault_recorded (hnow.job ▸ h.running) _ _ _ _ _).trans ?_⟩
        rw [hnow.fault, hnow.slot]
  case complete =>
    intro rows m0 m
    obtain ⟨s1, hacc, hsp, hrest, hrun⟩ := sendComplete_leaves ht hs hout hquiet hop
    obtain ⟨hends, hsp', hio⟩ := hacc.opEnds o (TileIo.leaveOut o)
    have hqueued : ((s1.tile t).dropAcc o.id).io.out = o :: rest := (congrArg TileIo.out hacc.tile.io).trans hout
    have hleft : ((s1.modTile t fun y => ((y.dropAcc o.id).unmark o).modIo (TileIo.leaveOut o)).tile t).io.out = rest := by
      rw [hio, TileIo.leaveOut_out hqueued hids]
    have hnet : s1.net = s.net := by rw [hrest]
    change exec (.sendComplete t) s = .next (s1.leaveWith t o m) at hrun
    clear_value m
    rw [State.leaveWith] at hrun
    refine ⟨fun hhere => ?_, fun haway p hp => ?_⟩
    · rw [State.sendMsg_here hrest _ _ hhere] at hrun
      exact ⟨_, hrun, hends.modNet _, hleft, hsp'.trans hsp, by rw [← hnet]; rfl⟩
    · rw [State.sendMsg_away hrest _ _ haway hp] at hrun
      exact ⟨_, hrun, hends.modNet _, hleft, hsp'.trans hsp, by rw [← hnet]; rfl⟩

end Sys2Proof.Machine

/-! # Cluster-store copies (R149, R178 to R185)

A copy joins the cluster's waiting requests, the arbiter takes them in the order of its cycle, and the access moves the rows. -/

namespace Sys2Proof.Machine

/-! ## A copy issues -/

/-- The request of a copy, due at the arbiter two cycles on (R149, R179). -/
def State.copyReq (s : State) (t : Nat) (q : Strm) (w : Word) (store : Bool) (d a : Nat) : CsReq :=
  { lt := localOf t, lo := 512 * a, n := fN w, wr := store, op := s.opOf t q w [BitVec.ofNat 64 d] [], at_ := s.cycle + 2 }

/-- The tile's port holds a request. -/
def TileIo.holdCs (r : CsReq) (io : TileIo) : TileIo := { io with cs := some r }

theorem TileIo.holdCs_keepsAcc (r : CsReq) : TileIo.KeepsAcc (TileIo.holdCs r) := ⟨fun _ => rfl, fun _ _ => rfl⟩

/-- The rows of the tile a copy reads or writes. -/
def State.copyAcc (s : State) (t : Nat) (q : Strm) (w : Word) (store : Bool) (d : Nat) : Acc :=
  { id := (s.tile t).io.nextId, eng := 7, q := Strm.code q, lo := d, n := fN w, wr := !store }

/-- The accesses of a tile are noted whatever the clusters hold. -/
theorem State.askCs_addAccs {s : State} (hsound : s.soundChk 0 = false) (c : Nat) (r : CsReq) (t pc : Nat) (l : List Acc) :
    (s.askCs c r).addAccs t pc l = (s.addAccs t pc l).askCs c r := by
  rw [State.addAccs_of_no_sound hsound, State.addAccs_of_no_sound (s := s.askCs c r) hsound]
  rfl

section

variable {s e : State} {t : Nat} {q : Strm} {w : Word} (he : s.enter t q = e) {key : Nat} (store : Bool) (h : e.Issues t q w [])
  (hk : keyOf w = key)
include he h hk

/-- With the tile's port taken a copy waits (R54, R149). -/
theorem csOp_waits (htaken : (e.tile t).io.cs.isSome = true) : csOp key t q s store = .next (e.stall (e.site t q w) 1) := by
  subst he
  rw [csOp, tileInsn_runs h hk]
  exact congrArg _ (if_pos htaken)

/-- A copy with its rows in range is requested (R149). -/
theorem csOp_asks (hfree : (e.tile t).io.cs = none) {d a : Nat} (hd : (((e.tile t).seq q).areg (fld w 42 3)).toNat = d)
    (ha : (((e.tile t).seq q).areg (fld w 37 3)).toNat / 512 = a) (hrows : d + fN w ≤ 768) (hstore : a + fN w ≤ 49152) :
    csOp key t q s store = .next (((e.issueSeq (e.site t q w) fun y =>
      ((y.startOp (e.site t q w)).modIo (TileIo.holdCs (e.copyReq t q w store d a))).modSeq q id).askCs (clusterOf t)
        (e.copyReq t q w store d a)).addAccs t ((e.tile t).slot q) [e.copyAcc t q w store d]) := by
  subst he hd ha
  rw [csOp, tileInsn_runs h hk]
  dsimp only [State.site]
  rw [if_neg (by rw [hfree]; decide)]
  simp only [Tile.modSeq_id]
  refine congrArg _ (State.rowCheck_of_good ?_ _ _)
  rw [spRun, runBad, runBad, if_neg (Nat.not_lt.2 hrows), if_neg (Nat.not_lt.2 hstore)]
  rfl

end

/-! ## The arbiter -/

theorem Cluster.countWait_eq (x : Cluster) (upto : Nat) :
    x.countWait upto = { x with ctr := (x.countWait upto).ctr, csAt := (x.countWait upto).csAt } := by
  unfold Cluster.countWait
  split
  · rfl
  · dsimp only
    split <;> rfl

/-- Of two requests the arbiter takes the one that is first in the order of its cycle (R180). -/
def csFirst (cyc : Nat) (b : Option (CsReq × Nat)) (p : CsReq × Nat) : Option (CsReq × Nat) :=
  match b with
  | none => some p
  | some a => if csTurn cyc p.1 < csTurn cyc a.1 then some p else some a

theorem csFirst_foldl_some (cyc : Nat) (l : List (CsReq × Nat)) (a : CsReq × Nat) : ∃ p ∈ a :: l, l.foldl (csFirst cyc) (some a) = some p ∧
    ∀ r ∈ a :: l, csTurn cyc p.1 ≤ csTurn cyc r.1 := by
  induction l generalizing a with
  | nil => exact ⟨a, List.mem_cons_self, rfl, fun r hr => by rw [List.mem_singleton.1 hr]⟩
  | cons b l ih =>
    rw [List.foldl_cons, csFirst]
    split
    case isTrue hlt =>
      obtain ⟨p, hp, hfold, hmin⟩ := ih b
      refine ⟨p, List.mem_cons_of_mem _ hp, hfold, fun r hr => ?_⟩
      rcases List.mem_cons.1 hr with rfl | hr
      · exact (hmin b List.mem_cons_self).trans hlt.le
      · exact hmin r hr
    case isFalse hge =>
      obtain ⟨p, hp, hfold, hmin⟩ := ih a
      have hkept : p ∈ a :: b :: l := by
        rcases List.mem_cons.1 hp with rfl | hp
        · exact List.mem_cons_self
        · exact List.mem_cons_of_mem _ (List.mem_cons_of_mem _ hp)
      refine ⟨p, hkept, hfold, fun r hr => ?_⟩
      rcases List.mem_cons.1 hr with rfl | hr
      · exact hmin r List.mem_cons_self
      · rcases List.mem_cons.1 hr with rfl | hr
        · exact (hmin a List.mem_cons_self).trans (Nat.not_lt.1 hge)
        · exact hmin r (List.mem_cons_of_mem _ hr)

/-- Of the ready requests the arbiter takes one that none comes before. -/
theorem csFirst_foldl_none (cyc : Nat) {l : List (CsReq × Nat)} (hl : l ≠ []) : ∃ p ∈ l, l.foldl (csFirst cyc) none = some p ∧
    ∀ r ∈ l, csTurn cyc p.1 ≤ csTurn cyc r.1 := by
  cases l with
  | nil => exact absurd rfl hl
  | cons a l => exact csFirst_foldl_some cyc l a

/-- The arbiter's next cycle, with the cycles before it in which a request waited counted (R185; log 46). -/
def State.csCounted (s : State) (c : Nat) : State := (s.csCycle c).modCluster c fun x => x.countWait (s.csCycle c).cycle

/-- A request leaves the waiting ones for a channel (R179, R184). -/
def Cluster.accept (cyc : Nat) (p : CsReq × Nat) (x : Cluster) : Cluster :=
  { x with waiting := nextOfUnit cyc p.1 (x.waiting.eraseIdx p.2), chans := x.chans ++ [p.1], chMax := max x.chMax (x.chans.length + 1)
           csGo := cyc + 1 }

/-- The port of the tile whose copy has been accepted is free. -/
def State.freePort (s : State) (c : Nat) (r : CsReq) : State :=
  if r.qu then s else s.modTile (clusterTile c r.lt) fun y => y.modIo fun io => { io with cs := none }

/-- What an accepted request leaves. -/
def State.csAccepted (s : State) (c cyc : Nat) (p : CsReq × Nat) : State :=
  ((s.modCluster c (Cluster.accept cyc p)).freePort c p.1).modCluster c fun x => x.countWait (cyc + 1)

section

variable {s : State} {c : Nat} (hc : c < 192) (hwaiting : (s.cluster c).waiting ≠ [])
include hc hwaiting

theorem csRequestAccept_of_none (hnone : (s.csCounted c).csReady c = []) : exec (.csRequestAccept c) s =
    .next ((s.csCounted c).modCluster c fun x => x.countWait ((s.csCycle c).cycle + 1)) := by
  show execCsRequestAccept c s = _
  rw [execCsRequestAccept, if_neg (Nat.not_le.2 hc), if_neg hwaiting]
  unfold State.csCounted at hnone
  dsimp only
  rw [hnone]
  rfl

theorem csRequestAccept_of_first {p : CsReq × Nat}
    (hfirst : ((s.csCounted c).csReady c).foldl (csFirst (s.csCycle c).cycle) none = some p) : exec (.csRequestAccept c) s =
    .next ((s.csCounted c).csAccepted c (s.csCycle c).cycle p) := by
  show execCsRequestAccept c s = _
  rw [execCsRequestAccept, if_neg (Nat.not_le.2 hc), if_neg hwaiting]
  dsimp only
  split
  next hnone => exact absurd (hfirst.symm.trans hnone) (Option.some_ne_none p)
  next p' hsome =>
    obtain rfl : p' = p := Option.some.inj (hsome.symm.trans hfirst)
    rfl

end

section

variable (s : State) (c cyc : Nat) (p : CsReq × Nat)

theorem State.freePort_clusters (r : CsReq) : (s.freePort c r).clusters = s.clusters ∧ (s.freePort c r).job = s.job := by
  unfold State.freePort
  split <;> exact ⟨rfl, rfl⟩

theorem State.freePort_tile (r : CsReq) : (r.qu = false → ((s.freePort c r).tile (clusterTile c r.lt)).io.cs = none) ∧
    ∀ u, ((s.freePort c r).tile u).sp = (s.tile u).sp ∧ ((s.freePort c r).tile u).sq = (s.tile u).sq := by
  unfold State.freePort
  split
  case isTrue hqu => exact ⟨fun h => absurd (hqu.symm.trans h) (by decide), fun _ => ⟨rfl, rfl⟩⟩
  case isFalse =>
    refine ⟨fun _ => by rw [State.modTile_tile_self]; rfl, fun u => ?_⟩
    rw [State.modTile_tile]
    split
    next hu => subst hu; exact ⟨rfl, rfl⟩
    next => exact ⟨rfl, rfl⟩

/-- The cluster of an accepted request: a place of its waiting ones is free, a channel taken; the store and the tallies are as before. -/
theorem State.csAccepted_cluster : ∃ ctr csAt, (s.csAccepted c cyc p).cluster c =
    { (s.cluster c).accept cyc p with ctr := ctr, csAt := csAt } := by
  have hkept : ((s.modCluster c (Cluster.accept cyc p)).freePort c p.1).cluster c = (s.cluster c).accept cyc p := by
    rw [State.cluster, (State.freePort_clusters _ c p.1).1]
    exact State.modCluster_cluster_self _ _ _
  rw [State.csAccepted, State.modCluster_cluster_self, hkept]
  exact ⟨_, _, Cluster.countWait_eq _ _⟩

end

/-! ## An access completes -/

/-- Channel access `i` leaves the cluster's scoreboard. -/
def State.leaveChan (s : State) (c i : Nat) : State := s.modCluster c fun x => { x with chans := x.chans.eraseIdx i }

/-- What an access of `m` bytes from `lo` leaves of the clusters: its channel is free, every other byte of the store, the tallies and the
other clusters are as before. -/
structure State.ChanLeft (s s' : State) (c i lo m : Nat) : Prop where
  clusters : ∀ k, k ≠ c → s'.cluster k = s.cluster k
  tally : (s'.cluster c).tally = (s.cluster c).tally
  chans : (s'.cluster c).chans = (s.cluster c).chans.eraseIdx i
  outside : ∀ k, k < lo ∨ lo + m ≤ k → Map.get 0 (s'.cluster c).cs k = Map.get 0 (s.cluster c).cs k

section

variable {s s' : State} {c i lo m : Nat}

theorem State.leaveChan_left (h : s'.clusters = (s.leaveChan c i).clusters) :
    s.ChanLeft s' c i lo m ∧ (s'.cluster c).cs = (s.cluster c).cs := by
  have hself : s'.cluster c = { s.cluster c with chans := (s.cluster c).chans.eraseIdx i } := by
    rw [State.cluster, h]
    exact State.modCluster_cluster_self _ _ _
  refine ⟨⟨fun k hk => ?_, by rw [hself], by rw [hself], fun _ _ => by rw [hself]⟩, by rw [hself]⟩
  rw [State.cluster, h]
  exact State.modCluster_cluster_ne _ _ _ _ hk

/-- A write of whole rows by an access: the store holds its bytes. -/
theorem State.leaveChan_csWrite {s1 : State} (h1 : s1.clusters = (s.leaveChan c i).clusters) {b : List Byte} (hb : b.length = m)
    (h : s'.clusters = (s1.csWrite c lo b).clusters) : s.ChanLeft s' c i lo m ∧ Map.slice 0 (s'.cluster c).cs lo m = b := by
  subst hb
  obtain ⟨⟨hclusters, htally, hchans, -⟩, hcs⟩ := State.leaveChan_left (s' := s1) (lo := lo) (m := b.length) h1
  have hself : s'.cluster c = { s1.cluster c with
      cs := Map.setRange 0 (s1.cluster c).cs lo b
      csBad := (s1.cluster c).csBad.filter fun g => decide (64 * g < lo ∨ lo + b.length ≤ 64 * g) } := by
    rw [State.cluster, h]
    exact State.modCluster_cluster_self _ _ _
  refine ⟨⟨fun k hk => ?_, by rw [hself, htally], by rw [hself, hchans], fun k hk => ?_⟩, ?_⟩
  · rw [State.cluster, h]
    exact (State.modCluster_cluster_ne _ _ _ _ hk).trans (hclusters k hk)
  · rw [hself, ← hcs]
    exact Map.get_setRange_outside _ _ hk
  · rw [hself]
    exact Map.slice_setRange_self _ _ _ _

end

/-- An access of granules that meet no ring and no tally backing spoils nothing (R183). -/
theorem State.csSpoil_of_apart {s : State} {c lo n : Nat} (h : ∀ g ∈ s.csRanges c, lo + n ≤ g.1 ∨ g.1 + g.2 ≤ lo) :
    s.csSpoil c lo n = s := by
  unfold State.csSpoil
  generalize s.csRanges c = l at h
  induction l with
  | nil => rfl
  | cons g l ih =>
    have hg := h g List.mem_cons_self
    rw [List.foldl_cons, if_neg (by omega)]
    exact ih fun g hg => h g (List.mem_cons_of_mem _ hg)

/-- The rings and tally backings of a cluster are a matter of the tiles' registers and the job. -/
theorem State.csRanges_congr {s s' : State} (hcfg : ∀ u, (s'.tile u).cfg = (s.tile u).cfg) (hjob : s'.job = s.job) (c : Nat) :
    s'.csRanges c = s.csRanges c := by
  unfold State.csRanges
  simp only [hcfg, hjob]

theorem State.Accessed.cfg {s s' : State} {t : Nat} (h : s.Accessed s' t) (u : Nat) : (s'.tile u).cfg = (s.tile u).cfg := by
  by_cases hu : u = t
  · subst hu
    exact h.tile.cfg
  · rw [h.tiles u hu]

/-- An operation ends whatever the other units hold. -/
theorem State.OpEnds.congr {a a' b b' : State} {t : Nat} {o : Op} (h : a.OpEnds a' t o) (ht : b.tiles = a.tiles) (hj : b.job = a.job)
    (ht' : b'.tiles = a'.tiles) (hj' : b'.job = a'.job) : b.OpEnds b' t o := by
  have htile := State.tile_eq_of_tiles ht
  have htile' := State.tile_eq_of_tiles ht'
  obtain ⟨hseq, hstreams, ham, him, hst, htiles, hjob⟩ := h
  refine ⟨?_, fun r hr => ?_, ?_, ?_, ?_, fun u hu => ?_, hj'.trans (hjob.trans hj.symm)⟩ <;> rw [htile', htile]
  · exact hseq
  · exact hstreams r hr
  · exact ham
  · exact him
  · exact hst
  · exact htiles u hu

theorem Tile.rows_length (x : Tile) (lo n : Nat) : (x.rows lo n).length = 512 * n := by
  simp [Tile.rows, Map.slice, Nat.mul_comm]

/-- The clusters' contents read as they stand where no granule's parity mismatches (R178, R182). -/
theorem State.csRead_of_good {s : State} {c lo n : Nat} (h : (s.cluster c).badGranule lo n = none) (spoil : State → State) :
    s.csRead c lo n spoil = (s, some (Map.slice 0 (s.cluster c).cs lo n)) := by
  rw [State.csRead, h]

/-- The accesses of a copy: its tile, its stream, the cluster-store port (R490). -/
def Op.copyAcct (o : Op) (t : Nat) : Acct := { t := t, q := Strm.code o.q, eng := 7, pc := o.pc }

/-- A copy of tile `t` leaves its accesses, and its mark falls (R53). -/
def State.copyDone (s : State) (t : Nat) (o : Op) : State := s.modTile t fun y => ((y.dropAcc o.id).unmark o).modIo id

section

variable {s : State} {c i t : Nat} {r : CsReq} (hc : c < 192) (hchan : (s.cluster c).chans[i]? = some r) (ht : clusterTile c r.lt = t)
include hc hchan ht

/-- A queue unit's access is one of a ring (R183). -/
theorem csAccessComplete_of_queue (hqu : r.qu = true) : exec (.csAccessComplete c i) s = .next ((s.leaveChan c i).ringAccess c t r) := by
  subst ht
  show execCsAccessComplete c i s = _
  rw [execCsAccessComplete, if_neg (Nat.not_le.2 hc), hchan]
  exact if_pos hqu

section

variable (hqu : r.qu = false) (hst : (s.tile t).st ≠ 8) {d : Nat} (hd : (r.op.v.headD 0).toNat = d)
  (happart : ∀ g ∈ s.csRanges c, r.lo + 512 * r.n ≤ g.1 ∨ g.1 + g.2 ≤ r.lo)
include hqu hst hd happart

/-- A `CST` puts the rows it has read into the store (R149). -/
theorem csAccessComplete_of_cst (hwr : r.wr = true) {s1 : State} {b : List Byte}
    (hread : (s.leaveChan c i).opRead (r.op.copyAcct t) r.op.id d r.n = (s1, some b)) (hacc : (s.leaveChan c i).Accessed s1 t) :
    exec (.csAccessComplete c i) s = .next ((s1.csWrite c r.lo b).copyDone t r.op) := by
  subst ht hd
  have hspoil : (s1.csWrite c r.lo b).csSpoil c r.lo (512 * r.n) = s1.csWrite c r.lo b :=
    State.csSpoil_of_apart ((State.csRanges_congr (s' := s1.csWrite c r.lo b) hacc.cfg hacc.job c).symm ▸ happart)
  show execCsAccessComplete c i s = _
  rw [execCsAccessComplete, if_neg (Nat.not_le.2 hc), hchan]
  dsimp only
  rw [if_neg (by rw [hqu]; decide), if_pos hwr]
  unfold State.leaveChan Op.copyAcct at hread
  rw [hread]
  simp only [andThen, hspoil, if_neg hst]
  rfl

/-- A `CLD` puts the bytes it has read into the tile's rows (R149). -/
theorem csAccessComplete_of_cld (hwr : r.wr = false) {b : List Byte}
    (hread : ∀ spoil, (s.leaveChan c i).csRead c r.lo (512 * r.n) spoil = (s.leaveChan c i, some b))
    (hacc : (s.leaveChan c i).Accessed ((s.leaveChan c i).opWrite (r.op.copyAcct t) r.op.id d b) t) :
    exec (.csAccessComplete c i) s = .next (((s.leaveChan c i).opWrite (r.op.copyAcct t) r.op.id d b).copyDone t r.op) := by
  subst ht hd
  have hspoil := State.csSpoil_of_apart ((State.csRanges_congr (s := s) hacc.cfg hacc.job c).symm ▸ happart)
  show execCsAccessComplete c i s = _
  rw [execCsAccessComplete, if_neg (Nat.not_le.2 hc), hchan]
  dsimp only
  rw [if_neg (by rw [hqu]; decide), if_neg (by rw [hwr]; decide)]
  unfold State.leaveChan at hread
  rw [hread]
  unfold State.opWrite State.leaveChan Op.copyAcct at hspoil ⊢
  simp only [andThen, if_neg hst, hspoil]
  rfl

end

end

section

variable {s : State} {c t : Nat} {r : CsReq} (hgood : (s.cluster c).badGranule r.lo (512 * r.n) = none)
include hgood

/-- A queue unit's write puts its bytes into the rows of the ring (R178, R183). -/
theorem State.ringAccess_of_write (hwr : r.wr = true) : s.ringAccess c t r =
    (s.csWrite c r.lo (splice (Map.slice 0 (s.cluster c).cs r.lo (512 * r.n)) (r.ad - r.lo) r.dat)).modTile t Tile.ringAccessDone := by
  unfold State.ringAccess
  rw [if_pos hwr]
  dsimp only
  rw [State.csRead_of_good hgood]
  rfl

/-- The read for a `QHEAD` brings its register the bytes (R162). -/
theorem State.ringAccess_of_read (hwr : r.wr = false) (hst : (s.tile t).st ≠ 8) : s.ringAccess c t r = s.modTile t fun y =>
    y.result r.op.q (fD r.op.w) (wordAt (Map.slice 0 (s.cluster c).cs r.lo (512 * r.n)) (r.ad - r.lo)) := by
  unfold State.ringAccess
  rw [if_neg (by rw [hwr]; decide), State.csRead_of_good hgood]
  exact if_neg hst

end

theorem State.leaveChan_quiet {s : State} {t id : Nat} (h : s.Quiet t id) (c i : Nat) : (s.leaveChan c i).Quiet t id :=
  ⟨h.noBreak, h.parity, h.reads, h.writes, h.banks⟩

/-- The copies with their keys and whether they write the store. -/
def copyInsns : List (Nat × (Nat → Strm → Instr) × Bool) := [(0x610, .cld, false), (0x620, .cst, true)]

theorem exec_copyInsns (t : Nat) (q : Strm) (s : State) : ∀ e ∈ copyInsns, exec (e.2.1 t q) s = csOp e.1 t q s e.2.2 := by
  simp only [copyInsns, List.forall_mem_cons]
  exact ⟨rfl, rfl, fun _ h => absurd h List.not_mem_nil⟩

/-- Settles O29: the request of a copy, the arbiter's choice, and what each access moves. That an accept takes the arbiter's next compute
cycle and counts the cycles passed is the model's reading (log 46). -/
theorem clusterStoreCopies : Obligations.ClusterStoreCopies := by
  unfold Obligations.ClusterStoreCopies
  refine ⟨⟨fun e he s₀ t q w hq hk => ?issue, fun s c hc => ⟨fun hnone => ?idle, fun hsome => ?accept⟩⟩, fun s c i r hc hchan => ?complete⟩
  case issue =>
    intro s h hsound v d a req
    rw [exec_copyInsns t q s₀ e he]
    refine ⟨fun htaken => ?_, fun hfree hrows hstore => ?_⟩
    · rw [csOp_waits (e := s) rfl e.2.2 h hk htaken, State.stall_eq]
      exact congrArg (fun n => Host.Outcome.next (if (s.tile t).halted q = true then s else s.countTile t n 1)) (by omega)
    · rw [csOp_asks (e := s) rfl e.2.2 h hk hfree (d := d) (a := a) rfl rfl hrows hstore]
      have htaken := State.started_taken (s := s) (t := t) (w := w) (g := id) hq (TileIo.holdCs_keepsAcc (s.copyReq t q w e.2.2 d a))
        Seq.keepsMarks_id
      rw [State.askCs_addAccs ((State.soundChk_of_job htaken.rest.job 0).trans hsound)]
      exact ⟨_, htaken.addAccs hsound (fun a ha => by rw [List.mem_singleton.1 ha]) _, rfl⟩
  case idle =>
    show execCsRequestAccept c s = _
    rw [execCsRequestAccept, if_neg (Nat.not_le.2 hc), if_pos hnone]
  case accept =>
    intro e s₁
    refine ⟨fun hready => csRequestAccept_of_none hc hsome hready, fun hready => ?_⟩
    obtain ⟨p, hp, hfirst, hmin⟩ := csFirst_foldl_none e.cycle hready
    refine ⟨p, hp, hmin, _, csRequestAccept_of_first hc hsome hfirst, ?_⟩
    have hcounted : s₁.cluster c = (s.cluster c).countWait e.cycle := State.modCluster_cluster_self _ _ _
    have htile : ∀ u, s₁.tile u = s.tile u := fun _ => rfl
    obtain ⟨ctr, csAt, hself⟩ := s₁.csAccepted_cluster c e.cycle p
    rw [hcounted, Cluster.countWait_eq] at hself
    obtain ⟨hfree, hkept⟩ := (s₁.modCluster c (Cluster.accept e.cycle p)).freePort_tile c p.1
    rw [show s.csCounted c = s₁ from rfl, hself]
    exact ⟨rfl, rfl, rfl, rfl, rfl, hfree, hkept, (State.freePort_clusters _ c p.1).2⟩
  case complete =>
    intro t d old others hst hgood
    have hgood' : ((s.leaveChan c i).cluster c).badGranule r.lo (512 * r.n) = none := by
      rw [State.leaveChan, State.modCluster_cluster_self]
      exact hgood
    have hold : Map.slice 0 ((s.leaveChan c i).cluster c).cs r.lo (512 * r.n) = old := by
      rw [State.leaveChan, State.modCluster_cluster_self]
    have hothers : ∀ {s'}, s.ChanLeft s' c i r.lo (512 * r.n) → others s' := fun h => ⟨h.clusters, h.tally, h.chans, h.outside⟩
    have holdLen : old.length = 512 * r.n := by simp [old, Map.slice]
    clear_value old
    refine ⟨fun hqu hquiet happart => ?copy, fun hqu hwr hfit => ?write, fun hqu hwr => ?read⟩
    case copy =>
      have hquiet' := State.leaveChan_quiet hquiet c i
      cases hwr : r.wr with
      | true =>
        have hread := State.opRead_reads (c := r.op.copyAcct t) hquiet' d r.n
        generalize hres : (s.leaveChan c i).opRead (r.op.copyAcct t) r.op.id d r.n = res at hread
        obtain ⟨s1, b⟩ := res
        obtain rfl : b = some ((s.tile t).rows d r.n) := hread.value
        have hrun := csAccessComplete_of_cst hc hchan rfl hqu hst rfl happart hwr hres hread.toAccessed
        obtain ⟨hends, hsp, -⟩ := hread.toAccessed.opEnds r.op id
        obtain ⟨hleft, hslice⟩ := State.leaveChan_csWrite (s' := (s1.csWrite c r.lo ((s.tile t).rows d r.n)).copyDone t r.op)
          hread.clusters (Tile.rows_length _ _ _) rfl
        exact ⟨_, hrun, hothers hleft, hends.congr rfl rfl rfl rfl, fun _ => ⟨hsp.trans hread.sp, hslice⟩, fun h => absurd h (by decide)⟩
      | false =>
        obtain ⟨hacc, hwrote⟩ := State.opWrite_writes (c := r.op.copyAcct t) hquiet' d holdLen
        have hrun := csAccessComplete_of_cld hc hchan rfl hqu hst rfl happart hwr
          (fun spoil => (State.csRead_of_good hgood' spoil).trans (by rw [hold])) hacc
        obtain ⟨hends, hsp, -⟩ := hacc.opEnds r.op id
        obtain ⟨hleft, hcs⟩ := State.leaveChan_left (lo := r.lo) (m := 512 * r.n)
          (s' := ((s.leaveChan c i).opWrite (r.op.copyAcct t) r.op.id d old).copyDone t r.op) hacc.clusters
        exact ⟨_, hrun, hothers hleft, hends.congr rfl rfl rfl rfl, fun h => absurd h (by decide), fun _ => ⟨hcs, hwrote.congr rfl hsp⟩⟩
    case write =>
      have hrun := csAccessComplete_of_queue hc hchan (t := t) rfl hqu
      rw [State.ringAccess_of_write hgood' hwr, hold] at hrun
      have hlen : (splice old (r.ad - r.lo) r.dat).length = 512 * r.n := (splice_length (by omega)).trans holdLen
      generalize splice old (r.ad - r.lo) r.dat = b at hrun hlen ⊢
      obtain ⟨hleft, hslice⟩ := State.leaveChan_csWrite (s' := ((s.leaveChan c i).csWrite c r.lo b).modTile t Tile.ringAccessDone)
        (s1 := s.leaveChan c i) rfl hlen rfl
      exact ⟨_, hrun, hothers hleft, State.modTile_tile_self _ _ _, fun u hu => State.modTile_tile_ne _ _ _ _ hu, hslice⟩
    case read =>
      have hrun := csAccessComplete_of_queue hc hchan (t := t) rfl hqu
      rw [State.ringAccess_of_read hgood' hwr hst, hold] at hrun
      obtain ⟨hleft, hcs⟩ := State.leaveChan_left (lo := r.lo) (m := 512 * r.n)
        (s' := (s.leaveChan c i).modTile t fun y => y.result r.op.q (fD r.op.w) (wordAt old (r.ad - r.lo))) rfl
      exact ⟨_, hrun, hothers hleft, hcs, State.modTile_tile_self _ _ _, fun u hu => State.modTile_tile_ne _ _ _ _ hu⟩

end Sys2Proof.Machine

/-! # Uniform accesses (R31 to R35, R150, R186)

A uniform access issues in its slot, is accepted by the channel of its cluster, and completes at a cycle its issue fixes. -/

namespace Sys2Proof.Machine

/-! ## An access issues -/

/-- A uniform access as it issues (R32, R150). -/
def State.uniAccess (s : State) (t : Nat) (q : Strm) (w : Word) (store : Bool) (a : Word) (d : Nat) : UniOp :=
  { op := s.opOf t q w [BitVec.ofNat 64 d] [], c := fld a 32 8, ad := 64 * fld a 6 19, wr := store, at_ := s.power.exc, cyc := s.cycle }

/-- A uniform access is in flight, and the next slot opens 54 exchange cycles on (R32). -/
def TileIo.queueUni (u : UniOp) (exc : Nat) (io : TileIo) : TileIo := { io with uni := io.uni ++ [u], uniNext := exc + 54, uniWait := false }

theorem TileIo.queueUni_keepsAcc (u : UniOp) (exc : Nat) : TileIo.KeepsAcc (TileIo.queueUni u exc) := ⟨fun _ => rfl, fun _ _ => rfl⟩

theorem uniRuns_good {d g : Nat} (hrow : d < 768) (hgranule : g < 393216) :
    ([spRun d 1, if 393216 ≤ g then some (rowDetail 0x20000000 (g / 8)) else none].findSome? id) = none := by
  rw [spRun, runBad, if_neg (by omega), if_neg (Nat.not_le.2 hgranule)]
  rfl

section

variable {s e : State} {t : Nat} {q : Strm} {w : Word} (he : s.enter t q = e) {key : Nat} (store : Bool) (h : e.Issues t q w [fA w])
  (hk : keyOf w = key) (hport : (e.tile t).io.cs = none) {a : Word} (ha : ((e.tile t).seq q).sreg (fA w) = a)
include he h hk hport ha

/-- Outside uniform mode a uniform access raises `UNIFORM` reason 2 (R31). -/
theorem uniOp_of_off (hoff : bit ((e.tile t).reg 0x18) 9 = false) : uniOp key t q s store =
    .next (e.tileFault t (Strm.code q) 0x08 (0x2000000 + fld a 32 8) ((e.tile t).slot q)) := by
  subst he ha
  rw [uniOp, tileInsn_runs h hk]
  dsimp only
  rw [if_neg (by rw [hport]; decide), if_pos hoff]
  rfl

section

variable (hon : bit ((e.tile t).reg 0x18) 9 = true) {d : Nat} (hd : (((e.tile t).seq q).areg (fld w 42 3)).toNat = d) (hrow : d < 768)
  (hgranule : fld a 6 19 < 393216)
include hon hd hrow hgranule

/-- A cluster that is not of the job raises `UNIFORM` reason 1 (R31). -/
theorem uniOp_of_foreign (hc : fld a 32 8 ∉ e.job.clusters) : uniOp key t q s store =
    .next (e.tileFault t (Strm.code q) 0x08 (0x1000000 + fld a 32 8) ((e.tile t).slot q)) := by
  have hgood := uniRuns_good hrow hgranule
  subst he ha hd
  rw [uniOp, tileInsn_runs h hk]
  dsimp only [State.site]
  rw [if_neg (by rw [hport]; decide), if_neg (by rw [hon]; decide), State.rowCheck_of_good hgood]
  exact congrArg _ (if_pos fun hin => hc (List.contains_iff_mem.1 hin))

/-- In its slot a uniform access takes its place (R32). -/
theorem uniOp_goes (hc : fld a 32 8 ∈ e.job.clusters) (hslot : (e.tile t).io.uniNext ≤ e.power.exc) : uniOp key t q s store =
    .next ((e.issueSeq (e.site t q w) fun y =>
      ((y.startOp (e.site t q w)).modIo (TileIo.queueUni (e.uniAccess t q w store a d) e.power.exc)).modSeq q id).addAccs t ((e.tile t).slot q)
        [{ id := (e.tile t).io.nextId, eng := 7, q := Strm.code q, lo := d, n := 1, wr := !store }]) := by
  have hgood := uniRuns_good hrow hgranule
  subst he ha hd
  rw [uniOp, tileInsn_runs h hk]
  dsimp only [State.site]
  rw [if_neg (by rw [hport]; decide), if_neg (by rw [hon]; decide), State.rowCheck_of_good hgood,
    if_neg (not_not.2 (List.contains_iff_mem.2 hc)), if_neg (Nat.not_lt.2 hslot)]
  simp only [Tile.modSeq_id]
  rfl

end

end

/-! ## The channel accepts -/

/-- The accesses of a uniform access: its tile, its stream, the cluster-store port (R490). -/
def UniOp.acct (u : UniOp) (t : Nat) : Acct := u.op.copyAcct t

/-- The cluster's channel takes a uniform access at exchange cycle `go`: the scoreboard holds it until the ninth cycle (R186). -/
def State.uniTaken (s : State) (u : UniOp) (go : Nat) : State :=
  s.modCluster u.c fun x => { x with uch := s.uniHeld u.c ++ [(go + 9, u.ad, u.wr)], uniGo := go + 1 }

theorem State.uniTaken_cluster (s : State) (u : UniOp) (go : Nat) : (s.uniTaken u go).cluster u.c =
    { s.cluster u.c with uch := s.uniHeld u.c ++ [(go + 9, u.ad, u.wr)], uniGo := go + 1 } := State.modCluster_cluster_self _ _ _

/-- What the cluster holds once the channel has taken a write. -/
theorem State.uniTaken_csWrite {s s1 : State} {u : UniOp} {go : Nat} (h : s1.clusters = (s.uniTaken u go).clusters) (b : List Byte) :
    ((s1.csWrite u.c u.ad b).cluster u.c).uch = s.uniHeld u.c ++ [(go + 9, u.ad, u.wr)] ∧
      ((s1.csWrite u.c u.ad b).cluster u.c).cs = Map.setRange 0 (s.cluster u.c).cs u.ad b := by
  have hself : s1.cluster u.c = (s.uniTaken u go).cluster u.c := by rw [State.cluster, h, State.cluster]
  rw [State.csWrite, State.modCluster_cluster_self, hself, State.uniTaken_cluster]
  exact ⟨rfl, rfl⟩

theorem lateBy_zero : lateBy 0 = 0 := rfl

theorem State.setUni_uni (s : State) {t i : Nat} {u : UniOp} (h : (s.tile t).io.uni[i]? = some u) (f : UniOp → UniOp) :
    ((s.setUni t i f).tile t).io.uni[i]? = some (f u) := by
  rw [State.setUni, State.modTile_tile_self]
  show ((s.tile t).io.uni.modify i f)[i]? = _
  rw [List.getElem?_modify_eq, h]
  rfl

theorem State.setUni_sp (s : State) (t i : Nat) (f : UniOp → UniOp) : ((s.setUni t i f).tile t).sp = (s.tile t).sp := by
  rw [State.setUni, State.modTile_tile_self]
  rfl

section

variable {s : State} {t i : Nat} {u : UniOp} (ht : t < 2304) (hu : (s.tile t).io.uni[i]? = some u) (hacc : u.acc = false)
include ht hu hacc

/-- A uniform access that meets a conflict waits; when it came to the channel is noted (R35, R186). -/
theorem uniformChannelAccept_waits (hclash : s.uniClear u = false) : exec (.uniformChannelAccept t i) s =
    .next (s.setUni t i fun u => { u with arr := if u.arr = 0 then s.power.exc + 1 else u.arr }) := by
  show execUniformChannelAccept t i s = _
  rw [execUniformChannelAccept, if_neg (Nat.not_le.2 ht), hu]
  dsimp only
  rw [if_neg (by rw [hacc]; decide), if_pos (.inl hclash)]

section

variable (hclear : s.uniClear u = true) (hfirst : s.uniBefore t u = false) {go k d : Nat} (hgo : max s.power.exc (s.cluster u.c).uniGo = go)
  (hsoon : go < s.power.exc + 17) (hk : (if u.arr = 0 then 0 else lateBy (go + 1 - u.arr)) = k) (hd : (u.op.v.headD 0).toNat = d)
  (happart : ∀ g ∈ s.csRanges u.c, u.ad + 64 ≤ g.1 ∨ g.1 + g.2 ≤ u.ad)
include hclear hfirst hgo hsoon hk hd happart

/-- An accepted write puts its bytes into the store (R186). -/
theorem uniformChannelAccept_of_write (hwr : u.wr = true) {s1 : State} {b : List Byte}
    (hread : (s.uniTaken u go).opRead (u.acct t) u.op.id d 1 = (s1, some b)) (hkept : (s.uniTaken u go).Accessed s1 t) :
    exec (.uniformChannelAccept t i) s = .next ((s1.csWrite u.c u.ad ((b.drop (64 * fld u.op.w 0 3)).take 64)).setUni t i fun u =>
      { u with acc := true, k := k }) := by
  subst hgo hk hd
  have hspoil : ∀ b, (s1.csWrite u.c u.ad b).csSpoil u.c u.ad 64 = s1.csWrite u.c u.ad b := fun b =>
    State.csSpoil_of_apart ((State.csRanges_congr (s := s) (s' := s1.csWrite u.c u.ad b) hkept.cfg hkept.job u.c).symm ▸ happart)
  show execUniformChannelAccept t i s = _
  rw [execUniformChannelAccept, if_neg (Nat.not_le.2 ht), hu]
  dsimp only
  rw [if_neg (by rw [hacc]; decide), if_neg (by rw [hclear, hfirst]; simp; omega), if_pos hwr]
  unfold State.uniTaken UniOp.acct Op.copyAcct at hread
  rw [hread]
  simp only [andThen, hspoil, apply_ite lateBy, lateBy_zero]

omit hd in
/-- An accepted read takes the bytes of the store (R186). -/
theorem uniformChannelAccept_of_read (hwr : u.wr = false) {b : List Byte}
    (hread : ∀ spoil, (s.uniTaken u go).csRead u.c u.ad 64 spoil = (s.uniTaken u go, some b)) :
    exec (.uniformChannelAccept t i) s = .next ((s.uniTaken u go).setUni t i fun u => { u with acc := true, dat := b, k := k }) := by
  subst hgo hk
  have hspoil := State.csSpoil_of_apart ((State.csRanges_congr (s := s) (s' := s.uniTaken u (max s.power.exc (s.cluster u.c).uniGo)) (fun _ => rfl) rfl u.c).symm ▸ happart)
  show execUniformChannelAccept t i s = _
  rw [execUniformChannelAccept, if_neg (Nat.not_le.2 ht), hu]
  dsimp only
  rw [if_neg (by rw [hacc]; decide), if_neg (by rw [hclear, hfirst]; simp; omega), if_neg (by rw [hwr]; decide)]
  unfold State.uniTaken at hread hspoil ⊢
  rw [hread]
  simp only [andThen, hspoil, apply_ite lateBy, lateBy_zero]

end

end

/-! ## An access completes -/

/-- The uniform access in place `i` is no longer in flight. -/
def TileIo.leaveUni (i : Nat) (io : TileIo) : TileIo := { io with uni := io.uni.eraseIdx i }

/-- An access that is late by `k` boundaries is counted (R34). -/
def Tile.countLate (k : Nat) (x : Tile) : Tile := if 0 < k then x.count 0x230 1 else x

/-- A uniform access of tile `t` ends: its mark falls, a late one is counted (R34, R35, R53). -/
def State.uniDone (s : State) (t i k : Nat) (o : Op) : State :=
  s.modTile t fun y => (((y.dropAcc o.id).unmark o).modIo (TileIo.leaveUni i)).countLate k

theorem Tile.countLate_eq (x : Tile) (k : Nat) : x.countLate k = { x with ctr := (x.countLate k).ctr } := by
  unfold Tile.countLate
  split <;> rfl

theorem Tile.countLate_ctr (x : Tile) (k : Nat) :
    Map.get 0 (x.countLate k).ctr 0x230 = Map.get 0 x.ctr 0x230 + if 0 < k then 1 else 0 := by
  unfold Tile.countLate
  split
  · exact x.countSelf _ _
  · exact (BitVec.add_zero _).symm

/-- What a uniform access that has read or written rows leaves when it ends. -/
theorem State.Accessed.uniEnds {s s1 : State} {t : Nat} (h : s.Accessed s1 t) (i k : Nat) (o : Op) :
    let s' := s1.uniDone t i k o
    s.OpEnds s' t o ∧ (s'.tile t).io.uni = (s.tile t).io.uni.eraseIdx i ∧ s'.clusters = s.clusters ∧
      Map.get 0 (s'.tile t).ctr 0x230 = Map.get 0 (s.tile t).ctr 0x230 + (if 0 < k then 1 else 0) ∧ (s'.tile t).sp = (s1.tile t).sp := by
  intro s'
  obtain ⟨⟨hseq, hstreams, ham, him, hst, htiles, hjob⟩, hsp, hio⟩ := h.opEnds o (TileIo.leaveUni i)
  rw [State.modTile_tile_self] at hseq hstreams ham him hst hsp hio
  have htile : s'.tile t = _ := State.modTile_tile_self _ _ _
  have hothers : ∀ u, u ≠ t → s'.tile u = s.tile u := fun u hu => (State.modTile_tile_ne _ _ _ _ hu).trans (h.tiles u hu)
  have hctr : (((s1.tile t).dropAcc o.id).unmark o).ctr = (s1.tile t).ctr := (congrArg Tile.ctr (((s1.tile t).dropAcc o.id).unmark_eq o) :)
  have huni : (s1.tile t).io.uni = (s.tile t).io.uni := congrArg TileIo.uni h.tile.io
  have hlate := ((((s1.tile t).dropAcc o.id).unmark o).modIo (TileIo.leaveUni i)).countLate_ctr k
  have hclusters : s'.clusters = s.clusters := h.clusters
  have hjob' : s'.job = s.job := h.job
  rw [Tile.modIo_ctr, hctr, h.tile.ctr _ (by decide) (by decide), ← htile] at hlate
  rw [Tile.countLate_eq] at htile
  clear_value s'
  generalize (((s1.tile t).dropAcc o.id).unmark o).modIo (TileIo.leaveUni i) = y at htile hseq hstreams ham him hst hsp hio
  refine ⟨⟨?_, fun r hr => ?_, ?_, ?_, ?_, hothers, hjob'⟩, ?_, hclusters, hlate, ?_⟩ <;> rw [htile]
  · exact hseq
  · exact hstreams r hr
  · exact ham
  · exact him
  · exact hst
  · exact (congrArg TileIo.uni hio).trans (congrArg (List.eraseIdx · i) huni)
  · exact hsp

section

variable {s : State} {t i : Nat} {u : UniOp} (ht : t < 2304) (hu : (s.tile t).io.uni[i]? = some u)
include ht hu

/-- Before its time a uniform access stays (R34, R35). -/
theorem uniformComplete_early {k : Nat} (h : u.acc = false ∨ k ≠ u.k ∨ s.power.exc < u.at_ + 653 + 16 * k) :
    exec (.uniformComplete t i k) s = .next s := by
  show execUniformComplete t i k s = _
  rw [execUniformComplete, if_neg (Nat.not_le.2 ht), hu]
  exact if_pos (h.imp (by simp) id)

section

variable (hacc : u.acc = true) (hst : (s.tile t).st ≠ 8) (hdue : u.at_ + 653 + 16 * u.k ≤ s.power.exc)
include hacc hst hdue

theorem uniformComplete_of_write (hwr : u.wr = true) : exec (.uniformComplete t i u.k) s = .next (s.uniDone t i u.k u.op) := by
  show execUniformComplete t i u.k s = _
  rw [execUniformComplete, if_neg (Nat.not_le.2 ht), hu]
  dsimp only
  rw [if_neg (by simp [hacc]; omega), if_pos hwr]
  simp only [if_neg hst]
  rfl

theorem uniformComplete_of_read (hwr : u.wr = false) {d : Nat} (hd : (u.op.v.headD 0).toNat = d) {s1 : State} {b : List Byte}
    (hread : s.opRead (u.acct t) u.op.id d 1 = (s1, some b)) : exec (.uniformComplete t i u.k) s =
      .next ((s1.opWrite (u.acct t) u.op.id d (splice b (64 * fld u.op.w 0 3) u.dat)).uniDone t i u.k u.op) := by
  subst hd
  show execUniformComplete t i u.k s = _
  rw [execUniformComplete, if_neg (Nat.not_le.2 ht), hu]
  dsimp only
  rw [if_neg (by simp [hacc]; omega), if_neg (by rw [hwr]; decide)]
  unfold UniOp.acct Op.copyAcct at hread
  rw [hread]
  simp only [andThen, if_neg hst]
  rfl

end

end

/-- The uniform accesses with their keys and whether they write the store. -/
def uniInsns : List (Nat × (Nat → Strm → Instr) × Bool) := [(0x630, .uld, false), (0x640, .ust, true)]

theorem exec_uniInsns (t : Nat) (q : Strm) (s : State) : ∀ e ∈ uniInsns, exec (e.2.1 t q) s = uniOp e.1 t q s e.2.2 := by
  simp only [uniInsns, List.forall_mem_cons]
  exact ⟨rfl, rfl, fun _ h => absurd h List.not_mem_nil⟩

/-- Settles O30: the checks and the slot of a uniform access, its acceptance and its completion. The order of the checks and the wait
counted from the first attempt are the model's reading (log 15). -/
theorem uniformAccesses : Obligations.UniformAccesses := by
  unfold Obligations.UniformAccesses
  refine ⟨fun e he s₀ t q w hq hk => ?issue, fun s t i u ht hu hquiet hst => ?channel⟩
  case issue =>
    intro s h hsound hport v a c d
    rw [exec_uniInsns t q s₀ e he]
    refine ⟨fun hoff => uniOp_of_off (e := s) rfl e.2.2 h hk hport rfl hoff,
      fun hon hrow hgranule hc => uniOp_of_foreign (e := s) rfl e.2.2 h hk hport rfl hon (d := d) rfl hrow hgranule hc,
      fun hon hrow hgranule hc hslot => ⟨_, uniOp_goes (e := s) rfl e.2.2 h hk hport rfl hon (d := d) rfl hrow hgranule hc hslot, ?_⟩⟩
    exact (State.started_taken (s := s) (t := t) (w := w) (g := id) hq
      (TileIo.queueUni_keepsAcc (s.uniAccess t q w e.2.2 a d) s.power.exc) Seq.keepsMarks_id).addAccs hsound
        (fun a ha => by rw [List.mem_singleton.1 ha]) _
  case channel =>
    intro x d go k
    refine ⟨fun hacc hclear hfirst hsoon hgood happart => ?accept, fun hacc hclash => ?wait, fun k => uniformComplete_early ht hu,
      fun k hacc hk hdue => ?complete⟩
    case accept =>
      have hquiet' : (s.uniTaken u go).Quiet t u.op.id := ⟨hquiet.noBreak, hquiet.parity, hquiet.reads, hquiet.writes, hquiet.banks⟩
      rcases Bool.eq_false_or_eq_true u.wr with hwr | hwr
      · have hread := State.opRead_reads (c := u.acct t) hquiet' d 1
        generalize hres : (s.uniTaken u go).opRead (u.acct t) u.op.id d 1 = res at hread
        obtain ⟨s1, b⟩ := res
        obtain rfl : b = some ((s.tile t).rows d 1) := hread.value
        have hrun := uniformChannelAccept_of_write ht hu hacc hclear hfirst (k := k) rfl hsoon rfl rfl happart hwr hres hread.toAccessed
        obtain ⟨huch, hcs⟩ := State.uniTaken_csWrite hread.clusters ((((s.tile t).rows d 1).drop (64 * fld u.op.w 0 3)).take 64)
        have huni : (s1.tile t).io.uni[i]? = some u := (congrArg (fun io : TileIo => io.uni[i]?) hread.toAccessed.tile.io).trans hu
        exact ⟨_, hrun, huch, (State.setUni_sp _ _ _ _).trans hread.sp, fun _ => ⟨hcs, State.setUni_uni _ huni _⟩,
          fun h => absurd (hwr.symm.trans h) (by decide)⟩
      · have hself := s.uniTaken_cluster u go
        have hrun := uniformChannelAccept_of_read ht hu hacc hclear hfirst (k := k) rfl hsoon rfl happart hwr
          (State.csRead_of_good (s := s.uniTaken u go) (by rw [hself]; exact hgood))
        refine ⟨_, hrun, (congrArg Cluster.uch hself :), State.setUni_sp _ _ _ _, fun h => absurd (hwr.symm.trans h) (by decide),
          fun _ => ⟨(congrArg Cluster.cs hself :), (State.setUni_uni _ hu _).trans ?_⟩⟩
        rw [hself]
    case wait => exact ⟨_, uniformChannelAccept_waits ht hu hacc hclash, State.setUni_uni _ hu _, rfl⟩
    case complete =>
      subst hk
      cases hwr : u.wr with
      | true =>
        obtain ⟨hends, huni, hclusters, hctr, hsp⟩ := (State.Reads.pure s t ()).toAccessed.uniEnds i u.k u.op
        exact ⟨_, uniformComplete_of_write ht hu hacc hst hdue hwr, hends, huni, hclusters, hctr, fun _ => hsp, fun h => absurd h (by decide)⟩
      | false =>
        have hread := State.opRead_reads (c := u.acct t) hquiet d 1
        generalize hres : s.opRead (u.acct t) u.op.id d 1 = res at hread
        obtain ⟨s1, b⟩ := res
        obtain rfl : b = some ((s.tile t).rows d 1) := hread.value
        have hquiet' := hquiet.of_accessed hread.toAccessed
        have hrun := uniformComplete_of_read ht hu hacc hst hdue hwr rfl hres
        obtain ⟨hends, huni, hclusters, hctr, hsp⟩ := (hread.toAccessed.trans (State.opWrite_accessed (c := u.acct t) hquiet' d
          (splice ((s.tile t).rows d 1) (64 * fld u.op.w 0 3) u.dat))).uniEnds i u.k u.op
        refine ⟨_, hrun, hends, huni, hclusters, hctr, fun h => absurd h (by decide), fun _ hlen => ?_⟩
        have hbound : fld u.op.w 0 3 < 2 ^ 3 := fld_lt _ _ _
        have hrows : ((s.tile t).rows d 1).length = 512 * 1 := Tile.rows_length _ _ _
        have hsplice := splice_length (l := (s.tile t).rows d 1) (new := u.dat) (i := 64 * fld u.op.w 0 3) (by omega)
        exact (State.opWrite_writes (c := u.acct t) hquiet' d (hsplice.trans hrows)).2.congr hread.sp.symm hsp

end Sys2Proof.Machine

/-! # A transfer is issued (R148, R193, R199, R200, R220, R224, R367)

`PORT` reads its descriptor, takes its tag, and asks the host for the lines it needs. -/

namespace Sys2Proof.Machine

/-! ## The requests outstanding at the host -/

theorem State.sendMsi_outs (s : State) (v : Nat) : (s.sendMsi v).rl.outs = s.rl.outs := by
  unfold State.sendMsi
  split <;> rfl

theorem State.raiseMsi_outs (s : State) (v : Nat) : (s.raiseMsi v).rl.outs = s.rl.outs := State.sendMsi_outs _ v

theorem State.drainPage_outs (s : State) (k n : Nat) : (s.drainPage k n).rl.outs = s.rl.outs := by
  induction n generalizing s with
  | zero => rfl
  | succ n ih =>
    unfold State.drainPage
    extract_lets p
    repeat' split
    · exact (ih _).trans (State.raiseMsi_outs _ k)
    · exact (ih _).trans (State.raiseMsi_outs _ k)
    · rfl
    · rfl

theorem State.postDone_outs (s : State) (k st : Nat) (ws : List Word) : (s.postDone k st ws).rl.outs = s.rl.outs :=
  State.drainPage_outs _ k 300

theorem State.serveBad_outs (s : State) (k n : Nat) : (s.serveBad k n).rl.outs = s.rl.outs := by
  induction n generalizing s with
  | zero => rfl
  | succ n ih =>
    unfold State.serveBad
    split
    · exact (ih _).trans (State.postDone_outs _ k 1 [])
    · rfl

theorem State.complete_outs (s : State) (k st : Nat) (ws : List Word) : (s.complete k st ws).rl.outs = s.rl.outs := by
  unfold State.complete
  split
  · rfl
  · exact (State.serveBad_outs _ k 32).trans (s.postDone_outs k st ws)

theorem State.stepEnds_outs (s : State) (t n : Nat) : (s.stepEnds t n).rl.outs = s.rl.outs := by
  unfold State.stepEnds
  split
  · dsimp only
    split
    · exact State.complete_outs _ _ 0 []
    · rfl
  · rfl

theorem State.issueSeq_outs (s : State) (i : Site) (f : Tile → Tile) : (s.issueSeq i f).rl.outs = s.rl.outs := State.stepEnds_outs _ _ _

/-- What the host sees of a request: its kind, its line and whose it is. -/
def RlReq.seen (o : RlReq) : Nat × Nat × Nat := (o.kind, o.line, o.own)

/-- A request touches nothing but the link's registers; below 1,024 outstanding ones it is sent (R367). -/
theorem State.ask_sends (s : State) (kind line own : Nat) : ∃ r, s.ask kind line own = { s with rl := r } ∧
    (s.rl.outs.length < 1024 → r.outs.map RlReq.seen = s.rl.outs.map RlReq.seen ++ [(kind, line, own)]) := by
  unfold State.ask
  split
  case isTrue => exact ⟨_, rfl, fun _ => List.map_append⟩
  case isFalse hfull => exact ⟨_, rfl, fun h => absurd h hfull⟩

theorem State.foldl_ask_sends (kind own : Nat) (l : List Nat) (s : State) (h : s.rl.outs.length + l.length ≤ 1024) :
    ∃ r, l.foldl (fun s k => s.ask kind k own) s = { s with rl := r } ∧
      r.outs.map RlReq.seen = s.rl.outs.map RlReq.seen ++ l.map fun k => (kind, k, own) := by
  induction l generalizing s with
  | nil => exact ⟨s.rl, rfl, (List.append_nil _).symm⟩
  | cons k l ih =>
    obtain ⟨r, hask, hseen⟩ := s.ask_sends kind k own
    rw [List.length_cons] at h
    have hsent := hseen (by omega)
    have hlen : r.outs.length = s.rl.outs.length + 1 := by simpa using congrArg List.length hsent
    obtain ⟨r', hfold, hseen'⟩ := ih { s with rl := r } (by rw [hlen]; omega)
    refine ⟨r', by rw [List.foldl_cons, hask, hfold], hseen'.trans ?_⟩
    rw [hsent, List.map_cons, List.append_assoc, List.singleton_append]

/-! ## A transfer takes its tag -/

/-- A transfer joins those in flight. -/
def TileIo.queueTag (f : Xfer) (io : TileIo) : TileIo :=
  { io with tags := io.tags ++ [f], inflMax := max io.inflMax (io.tags.length + 1) }

theorem TileIo.queueTag_keepsAcc (f : Xfer) : TileIo.KeepsAcc (TileIo.queueTag f) := ⟨fun _ => rfl, fun _ _ => rfl⟩

/-- What a transfer that issues leaves: `f` in flight, its requests `reqs` outstanding, registers, memories and other tiles as before. -/
structure State.PortLeaves (s s' : State) (t : Nat) (q : Strm) (w : Word) (f : Xfer) (reqs : List (Nat × Nat × Nat)) : Prop where
  tags : (s'.tile t).io.tags = (s.tile t).io.tags ++ [f]
  inflMax : (s'.tile t).io.inflMax = max (s.tile t).io.inflMax ((s.tile t).io.tags.length + 1)
  outs : s'.rl.outs.map RlReq.seen = s.rl.outs.map RlReq.seen ++ reqs
  seq : (s'.tile t).seq q = s.seqAfter t q w ((s.tile t).seq q)
  streams : ∀ r, r ≠ q → (s'.tile t).seq r = (s.tile t).seq r
  sp : (s'.tile t).sp = (s.tile t).sp
  am : (s'.tile t).am = (s.tile t).am
  stks : s'.stks = s.stks
  job : s'.job = s.job
  tiles : ∀ u, u ≠ t → s'.tile u = s.tile u

/-- A transfer as it takes its tag, its accesses noted. -/
def State.tagged (s : State) (t : Nat) (q : Strm) (w : Word) (f : Xfer) : State :=
  (s.issueSeq (s.site t q w) fun z => ((z.startOp (s.site t q w)).modIo (TileIo.queueTag f)).modSeq q id).addAccs t ((s.tile t).slot q)
    (runAccs f.id 4 (Strm.code q) (xferRuns f.d))

section

variable {s s' : State} {t : Nat} {q : Strm} {w : Word} {f : Xfer}

theorem State.tagged_leaves (hq : q ≠ .x) (hsound : s.soundChk 0 = false) (f : Xfer) :
    s.PortLeaves (s.tagged t q w f) t q w f [] ∧ (s.tagged t q w f).power = s.power ∧ (s.tagged t q w f).regions = s.regions := by
  have htaken := State.started_taken (s := s) (t := t) (w := w) (g := id) hq (TileIo.queueTag_keepsAcc f) Seq.keepsMarks_id
  have houts := s.issueSeq_outs (s.site t q w) fun z => ((z.startOp (s.site t q w)).modIo (TileIo.queueTag f)).modSeq q id
  have hnoted := htaken.addAccs hsound (runAccs_racy f.id 4 (Strm.code q) (xferRuns f.d)) ((s.tile t).slot q)
  have hsame := State.addAccs_of_no_sound ((State.soundChk_of_job htaken.rest.job 0).trans hsound) t ((s.tile t).slot q)
    (runAccs f.id 4 (Strm.code q) (xferRuns f.d))
  unfold State.tagged
  generalize s.issueSeq (s.site t q w) _ = s1 at houts hnoted hsame ⊢
  have houts' : (s1.addAccs t ((s.tile t).slot q) (runAccs f.id 4 (Strm.code q) (xferRuns f.d))).rl.outs = s.rl.outs := by
    rw [hsame]
    exact houts
  generalize s1.addAccs t ((s.tile t).slot q) _ = s' at hnoted houts' ⊢
  obtain ⟨hseq, hstreams, -, hdata, hops, -, -, hrest⟩ := hnoted
  exact ⟨⟨congrArg TileIo.tags hops, congrArg TileIo.inflMax hops, by rw [houts', List.append_nil], hseq, hstreams, hdata.sp.1, hdata.am.1,
    hrest.stks, hrest.job, hrest.tiles⟩, hrest.power, hrest.regions⟩

theorem State.NowRead.rl {s1 : State} (h : s.NowRead s1 t) : s1.rl = s.rl := by rw [h.rest]

/-- A transfer that issues after its descriptor has been read at once. -/
theorem State.PortLeaves.of_nowRead {s1 : State} {reqs : List (Nat × Nat × Nat)} (hnow : s.NowRead s1 t)
    (h : s1.PortLeaves s' t q w f reqs) : s.PortLeaves s' t q w f reqs := by
  have htags : (s1.tile t).io.tags = (s.tile t).io.tags := by rw [hnow.tile.io]; rfl
  have hmax : (s1.tile t).io.inflMax = (s.tile t).io.inflMax := by rw [hnow.tile.io]; rfl
  obtain ⟨htag, hinfl, houts, hseq, hstreams, hsp, ham, hstks, hjob, htiles⟩ := h
  refine ⟨htags ▸ htag, by rw [hinfl, hmax, htags], hnow.rl ▸ houts, ?_, fun r hr => (hstreams r hr).trans (hnow.seq r),
    hsp.trans hnow.tile.sp, ham.trans hnow.tile.am, hstks.trans (by rw [hnow.rest]), hjob.trans hnow.job,
    fun u hu => (htiles u hu).trans (hnow.tiles u hu)⟩
  rw [hseq, State.seqAfter, State.seqAfter, hnow.nextPc, hnow.slot, hnow.seq]

end

/-! ## A transfer asks for its lines -/

/-- Whether a transfer that issues sends its requests at once: one of host memory that is no gather, with no undervoltage clamp and region 0
awake (R20, R28, R220, R224). -/
def Xfer.asksNow (f : Xfer) (s : State) : Bool :=
  f.isHost s.job && decide (dDir f.d ≠ 2) && !s.power.clamp && decide ((s.region 0).pwr = 0)

/-- The lines such a transfer waits for (R220). -/
def Xfer.lines (f : Xfer) (s : State) : List Nat := if f.asksNow s then segLines (f.base s.job).toNat f.segs else []

/-- What a transfer asks the host for, as the host sees it (R367). -/
def Xfer.reqs (f : Xfer) (s : State) (t : Nat) : List (Nat × Nat × Nat) :=
  (f.lines s).map fun k => (if dDir f.d = 1 then 3 else 2, k, ownOf t f.tag)

/-- A transfer outside the coherent window has no line to get back (R219). -/
theorem State.askLines_of_plain (s : State) {f : Xfer} (h : f.isHcoh s.job = false) : s.askLines f = s := by
  have hheld : s.heldLines f = [] := by
    rw [State.heldLines, Xfer.hcohLines, if_neg (by rw [h]; decide)]
    rfl
  rw [State.askLines, hheld]
  split <;> rfl

section

variable {s : State} {t : Nat} {f : Xfer}

theorem State.startXfer_of_quiet (hplain : f.isHcoh s.job = false) (h : f.asksNow s = false) : s.startXfer t f = s := by
  unfold State.startXfer
  split
  · rfl
  case isFalse hclamp =>
    split
    case isFalse => exact s.askLines_of_plain hplain
    case isTrue hhost =>
      split
      · rfl
      case isFalse hdir =>
        unfold State.askHost
        refine if_pos fun hon => ?_
        rw [Xfer.asksNow, hhost, decide_eq_true hdir, decide_eq_true hon, Bool.eq_false_iff.2 hclamp] at h
        exact absurd h (by decide)

theorem State.startXfer_of_asks (h : f.asksNow s = true) : s.startXfer t f =
    (segLines (f.base s.job).toNat f.segs).foldl (fun s k => s.ask (if dDir f.d = 1 then 3 else 2) k (ownOf t f.tag))
      (s.setXfer t { f with left := segLines (f.base s.job).toNat f.segs, asked := true }) := by
  unfold Xfer.asksNow at h
  simp only [Bool.and_eq_true, decide_eq_true_eq, Bool.not_eq_true'] at h
  obtain ⟨⟨⟨hhost, hdir⟩, hclamp⟩, hon⟩ := h
  unfold State.startXfer State.askHost
  rw [if_neg (by rw [hclamp]; decide), if_pos hhost, if_neg hdir, if_neg (not_not.2 hon)]

/-- The transfer with tag `f.tag`, the last in flight, becomes `f'`. -/
theorem State.setXfer_tags {f' : Xfer} {l : List Xfer} (htags : (s.tile t).io.tags = l ++ [f]) (htag : f.tag = f'.tag)
    (hfree : ∀ g ∈ l, g.tag ≠ f'.tag) : ((s.setXfer t f').tile t).io.tags = l ++ [f'] := by
  have hkept : l.map (fun g => if g.tag = f'.tag then f' else g) = l :=
    (List.map_congr_left fun g hg => if_neg (hfree g hg)).trans (List.map_id l)
  rw [State.setXfer, State.modTile_tile_self]
  show (s.tile t).io.tags.map _ = _
  rw [htags, List.map_append, hkept, List.map_singleton, if_pos htag]

end

/-- A transfer that starts waits for the lines it asks for (R220, R367). -/
theorem State.PortLeaves.starts {s s' : State} {t : Nat} {q : Strm} {w : Word} {f : Xfer} (h : s.PortLeaves s' t q w f [])
    (hplain : f.isHcoh s'.job = false) (hleft : f.left = [] ∧ f.asked = false) (hfree : ∀ g ∈ (s.tile t).io.tags, g.tag ≠ f.tag)
    (hroom : s.rl.outs.length + (f.lines s').length ≤ 1024) :
    s.PortLeaves (s'.startXfer t f) t q w { f with left := f.lines s', asked := f.asksNow s' } (f.reqs s' t) := by
  obtain ⟨htags, hmax, houts, hseq, hstreams, hsp, ham, hstks, hjob, htiles⟩ := h
  unfold Xfer.reqs
  unfold Xfer.lines at hroom ⊢
  rcases Bool.eq_false_or_eq_true (f.asksNow s') with hask | hask
  · rw [if_pos hask] at hroom ⊢
    rw [hask, State.startXfer_of_asks hask]
    have hset := State.setXfer_tags htags (f' := { f with left := segLines (f.base s'.job).toNat f.segs, asked := true }) rfl hfree
    generalize segLines (f.base s'.job).toNat f.segs = lines at hroom hset ⊢
    generalize { f with left := lines, asked := true } = f' at hset ⊢
    have hlen : s'.rl.outs.length = s.rl.outs.length := by simpa using congrArg List.length houts
    obtain ⟨r, hfold, hseen⟩ := State.foldl_ask_sends (if dDir f.d = 1 then 3 else 2) (ownOf t f.tag) lines (s'.setXfer t f')
      (show s'.rl.outs.length + _ ≤ _ by rw [hlen]; exact hroom)
    rw [hfold]
    have hself : (s'.setXfer t f').tile t = (s'.tile t).modIo fun io => { io with tags := io.tags.map fun g => if g.tag = f'.tag then f' else g } :=
      State.modTile_tile_self _ _ _
    have hne : ∀ u, u ≠ t → (s'.setXfer t f').tile u = s'.tile u := fun u hu => State.modTile_tile_ne _ _ _ _ hu
    refine ⟨hset, (congrArg (fun x : Tile => x.io.inflMax) hself).trans hmax, hseen.trans ?_, (congrArg (Tile.seq · q) hself).trans hseq,
      fun r hr => (congrArg (Tile.seq · r) hself).trans (hstreams r hr), (congrArg Tile.sp hself).trans hsp,
      (congrArg Tile.am hself).trans ham, hstks, hjob, fun u hu => (hne u hu).trans (htiles u hu)⟩
    exact congrArg (· ++ _) (houts.trans (List.append_nil _))
  · rw [if_neg (by rw [hask]; decide), hask, State.startXfer_of_quiet hplain hask, ← hleft.1, ← hleft.2]
    exact ⟨htags, hmax, hleft.1.symm ▸ houts, hseq, hstreams, hsp, ham, hstks, hjob, htiles⟩

/-! ## `PORT` -/

/-- The transfer that a `PORT` with descriptor `d` starts (R193, R214). -/
def State.xferOf (s : State) (t : Nat) (q : Strm) (pc : Nat) (d : List Word) : Xfer :=
  { tag := dTag d, q := q, pc := pc, d := d, epoch := s.job.epoch, id := (s.tile t).io.nextId, home := s.rl.home }

/-- A transfer takes its tag and starts; one of the coherent window takes its place at the home of its lines (R200, R370). -/
def State.portStarts (s : State) (i : Site) (f : Xfer) : State :=
  let s1 := (s.issueSeq i fun z => ((z.startOp i).modIo (TileIo.queueTag f)).modSeq i.q id).addAccs i.t i.pc
    (runAccs f.id 4 (Strm.code i.q) (xferRuns f.d))
  (if f.isHcoh s1.job then s1.modRl fun r => { r with home := r.home + 1 } else s1).startXfer i.t f

/-- What a `PORT` with a free tag does by the reason for which its descriptor fails R199, if it does (R148, R200). -/
def State.portVerdict (s : State) (i : Site) (f : Xfer) : Option Nat → State
  | some n => s.tileFault i.t (Strm.code i.q) 0x09 (windowDetail n f.d) i.pc
  | none => s.rowCheck i ((xferRuns f.d).map Run.check) (s.portStarts i f)

/-- What a `PORT` does once its descriptor is read and its tag is free. -/
def State.portChecked (s : State) (i : Site) (f : Xfer) : State := s.portVerdict i f (f.refuse s.job)

section

variable {s e s1 : State} {t : Nat} {q : Strm} {w : Word} (he : s.enter t q = e) (h : e.Issues t q w []) (hk : keyOf w = 0x600) {a : Nat}
  (ha : (((e.tile t).seq q).areg (fld w 37 3)).toNat = a) (hlt : a < 768) {row : List Byte}
  (hread : e.readNow { t := t, q := Strm.code q, eng := 8, pc := (e.tile t).slot q } a 1 = (s1, some row)) {d : List Word}
  (hd : wordsOf (row.drop (64 * fld w 0 3)) 8 = d)
include he h hk ha hlt hread hd

/-- A `PORT` reads its descriptor and waits while its tag is in flight (R148, R200). -/
theorem port_runs : exec (.port t q) s = .next
    (if ((e.tile t).io.tags.any fun g => decide (g.tag = dTag d)) = true then e.stall (e.site t q w) 1
    else s1.portChecked (e.site t q w) (s1.xferOf t q ((e.tile t).slot q) d)) := by
  subst he ha hd
  show execPort t q s = _
  rw [execPort, tileInsn_runs h hk]
  dsimp only [State.site] at hread ⊢
  rw [State.rowCheck_of_good (spRun_of_lt hlt), hread]
  unfold State.portChecked State.portVerdict State.portStarts
  simp only [Tile.modSeq_id]
  rfl

theorem port_waits (hbusy : ∃ g ∈ (e.tile t).io.tags, g.tag = dTag d) : exec (.port t q) s = .next (e.stall (e.site t q w) 1) := by
  obtain ⟨g, hg, htag⟩ := hbusy
  rw [port_runs he h hk ha hlt hread hd, if_pos (List.any_eq_true.2 ⟨g, hg, decide_eq_true htag⟩)]

theorem port_checks (hfree : ∀ g ∈ (e.tile t).io.tags, g.tag ≠ dTag d) :
    exec (.port t q) s = .next (s1.portChecked (e.site t q w) (s1.xferOf t q ((e.tile t).slot q) d)) := by
  have hidle : ((e.tile t).io.tags.any fun g => decide (g.tag = dTag d)) = false :=
    List.any_eq_false.2 fun g hg htag => hfree g hg (of_decide_eq_true htag)
  rw [port_runs he h hk ha hlt hread hd, if_neg (by rw [hidle]; decide)]

end

section

variable {s : State} {t : Nat} {q : Strm} {w : Word} {f : Xfer}

/-- A descriptor that fails R199 raises `WINDOW`. -/
theorem State.portChecked_of_bad {n : Nat} (h : f.refuse s.job = some n) : s.portChecked (s.site t q w) f =
    s.tileFault t (Strm.code q) 0x09 (windowDetail n f.d) ((s.tile t).slot q) := by
  rw [State.portChecked, h]
  rfl

/-- A descriptor that passes takes its tag, and the transfer starts (R148, R200). -/
theorem State.portChecked_of_good (h : f.refuse s.job = none) (hruns : ∀ r ∈ xferRuns f.d, r.lo + r.n ≤ 768)
    (hplain : f.isHcoh (s.tagged t q w f).job = false) : s.portChecked (s.site t q w) f = (s.tagged t q w f).startXfer t f := by
  have hfit : ∀ r ∈ xferRuns f.d, r.lo + r.n ≤ if r.am then 1024 else 768 := fun r hr => by
    have hrow := hruns r hr
    split <;> omega
  rw [State.portChecked, h]
  exact (State.rowCheck_of_good (runs_check_of_fit hfit) _ _).trans (congrArg (State.startXfer · t f) (if_neg (Bool.eq_false_iff.1 hplain)))

end

/-- The number of a transfer's operation is of no account to its checks (R199). -/
theorem Xfer.refuse_id (f : Xfer) (id : Nat) (j : Job) : ({ f with id := id } : Xfer).refuse j = f.refuse j := rfl

/-- Settles O26: a tag in flight stalls, a refused descriptor faults, and one that passes takes its tag and asks for its lines. -/
theorem porterIssue : Obligations.PorterIssue := by
  unfold Obligations.PorterIssue
  intro s₀ t q w hq hk s h hclear hsound x a hlt d f
  obtain ⟨s1, hread, hnow⟩ := State.readNow_of_clear (c := { t := t, q := Strm.code q, eng := 8, pc := (s.tile t).slot q })
    hclear.acc hclear.parity hclear.noBreak (hclear.banks 8) a 1
  have hjob := hnow.job
  have hf : s1.xferOf t q (x.slot q) d = { f with id := (s1.tile t).io.nextId } := by
    rw [State.xferOf, hjob, hnow.rl]
  have hwaits := port_waits (e := s) rfl h hk (a := a) rfl hlt hread (d := d) rfl
  have hchecks := port_checks (e := s) rfl h hk (a := a) rfl hlt hread (d := d) rfl
  rw [← hnow.site, hf] at hchecks
  have hrefuse : ∀ id, ({ f with id := id } : Xfer).refuse s1.job = f.refuse s.job := fun id => hjob ▸ f.refuse_id id s1.job
  refine ⟨fun hbusy => ?waits, fun hfree n hbad => ?refused, fun hfree hgood hruns hplain => ?goes⟩
  case waits =>
    rw [hwaits hbusy, State.stall_eq,
      show 0x100 + 0x40 * Strm.code q + 8 * 1 = 0x108 + 0x40 * Strm.code q by omega]
  case refused =>
    have hrun := hchecks hfree
    rw [State.portChecked_of_bad ((hrefuse _).trans hbad)] at hrun
    refine ⟨_, hrun, (State.tileFault_recorded (hjob ▸ h.running) _ _ _ _ _).trans ?_⟩
    rw [hnow.fault, hnow.slot]
  case goes =>
    intro ask lines seen hroom
    have hrun := hchecks hfree
    generalize (s1.tile t).io.nextId = id at hrun
    obtain ⟨hleaves, hpower, hregions⟩ := State.tagged_leaves (s := s1) (t := t) (q := q) (w := w) hq
      ((State.soundChk_of_job hjob 0).trans hsound) { f with id := id }
    have hplain' : ({ f with id := id } : Xfer).isHcoh (s1.tagged t q w { f with id := id }).job = false := by
      rw [hleaves.job, hjob]
      exact hplain
    rw [State.portChecked_of_good ((hrefuse _).trans hgood) hruns hplain'] at hrun
    have hleaves' := hleaves.of_nowRead hnow
    have hasks : ({ f with id := id } : Xfer).asksNow (s1.tagged t q w { f with id := id }) = ask := by
      rw [Xfer.asksNow, State.region, hleaves'.job, hpower, hregions, hnow.rest]
      rfl
    have hlines : ({ f with id := id } : Xfer).lines (s1.tagged t q w { f with id := id }) = lines := by
      rw [Xfer.lines, hasks, hleaves'.job]
      rfl
    have hstarts := hleaves'.starts hplain' ⟨rfl, rfl⟩ hfree (by rw [hlines]; exact hroom)
    unfold Xfer.reqs at hstarts
    rw [hlines, hasks] at hstarts
    exact ⟨_, id, hrun, hstarts.tags, hstarts.inflMax, hstarts.outs, hstarts.seq, hstarts.streams, hstarts.sp, hstarts.am, hstarts.stks,
      hstarts.job, hstarts.tiles⟩

end Sys2Proof.Machine

/-! # A write into a granule of a stack (R195, R201, R215, R217, R501) -/

namespace Sys2Proof.Machine

/-- One interval covers `[0, n)` if it starts at 0 and reaches `n`. -/
theorem covers_singleton {n : Nat} (hn : 0 < n) (lo len : Nat) : covers [(lo, len)] n = true ↔ lo = 0 ∧ n ≤ len := by
  unfold covers
  rw [decide_eq_true_iff]
  show n ≤ (if lo ≤ 0 then max 0 (lo + len) else 0) ↔ _
  split <;> omega

/-- Nothing covers no byte. -/
theorem covers_nil {n : Nat} (hn : 0 < n) : covers [] n = false :=
  decide_eq_false (Nat.not_le.2 hn)

/-- The bursts that one part covers are those that lie in it. -/
theorem mem_coveredBursts_singleton (off : Nat) (b : List Byte) (u : Nat) : u ∈ coveredBursts [(off, b)] ↔
    u % 32 = 0 ∧ u < 4096 ∧ off ≤ u ∧ u + 32 ≤ off + b.length := by
  have hburst : u ∈ (List.range 128).map (32 * ·) ↔ u % 32 = 0 ∧ u < 4096 := by
    rw [List.mem_map]
    constructor
    · rintro ⟨i, hi, rfl⟩
      have hlt := List.mem_range.1 hi
      omega
    · exact fun h => ⟨u / 32, List.mem_range.2 (by omega), by omega⟩
  rw [coveredBursts, List.mem_filter, hburst, and_assoc]
  refine and_congr_right fun _ => and_congr_right fun _ => ?_
  by_cases htouch : off < u + 32 ∧ u < off + b.length
  · rw [List.filter_singleton, decide_eq_true htouch]
    refine (covers_singleton (by decide) _ _).trans ?_
    dsimp only
    omega
  · rw [List.filter_singleton, decide_eq_false htouch]
    refine iff_of_false (Bool.eq_false_iff.1 (covers_nil (by decide))) ?_
    omega

/-- Of a list of bursts those stay that a write leaves in part. -/
theorem mem_uncovered_iff (l : List Nat) {g off : Nat} {b : List Byte} (hfit : off + b.length ≤ 4096) {u : Nat} (hu : u % 32 = 0) :
    u ∈ l.filter (fun k => !(((coveredBursts [(off, b)]).map (4096 * g + ·)).contains k)) ↔
      u ∈ l ∧ ¬ (4096 * g + off ≤ u ∧ u + 32 ≤ 4096 * g + off + b.length) := by
  rw [List.mem_filter]
  refine and_congr_right fun _ => ?_
  rw [Bool.not_eq_true', ← Bool.not_eq_true, List.contains_iff_mem]
  refine not_congr ?_
  rw [List.mem_map]
  constructor
  · rintro ⟨v, hv, rfl⟩
    obtain ⟨-, -, hlo, hhi⟩ := (mem_coveredBursts_singleton off b v).1 hv
    omega
  · rintro ⟨hlo, hhi⟩
    exact ⟨u - 4096 * g, (mem_coveredBursts_singleton off b _).2 (by omega), by omega⟩

/-- Settles O28: one part of a granule is one range of the stack's memory; its check value is that of the memory written. That a burst is
32 bytes is the model's choice (log 14). -/
theorem stackWritesOneGranule : Obligations.StackWritesOneGranule := by
  unfold Obligations.StackWritesOneGranule
  intro x g off b valid hfit y whole
  have hmem : y.mem = Map.setRange 0 x.mem (4096 * g + off) b := rfl
  have hwcnt : y.wcnt = Map.set 0 x.wcnt g (Map.get 0 x.wcnt g + 1) := rfl
  have hcrcV : y.crcV = Map.set false x.crcV g valid := rfl
  have hcrc : y.crc = if valid then Map.set 0 x.crc g (crc32c (Map.slice 0 y.mem (4096 * g) 4096)) else x.crc := rfl
  refine ⟨?read, fun k hk => ?outside, ?count, fun h hne => ?counts, ?valid, fun hv => ?check, fun h hne => ⟨?valids, ?checks⟩,
    fun u hu => ⟨mem_uncovered_iff x.ue hfit hu, mem_uncovered_iff x.ce hfit hu⟩, rfl, rfl⟩
  case read => exact hmem ▸ Map.slice_setRange_self _ _ _ _
  case outside => exact hmem ▸ Map.get_setRange_outside _ _ hk
  case count => rw [hwcnt, Map.get_set_self]
  case counts => rw [hwcnt, Map.get_set_ne _ _ _ _ _ hne]
  case valid => rw [hcrcV, Map.get_set_self]
  case check => rw [hcrc, if_pos hv, Map.get_set_self]
  case valids => rw [hcrcV, Map.get_set_ne _ _ _ _ _ hne]
  case checks =>
    rw [hcrc]
    split
    · rw [Map.get_set_ne _ _ _ _ _ hne]
    · rfl

end Sys2Proof.Machine

/-! # A transfer completes (R189, R194, R199, R201, R208, R209, R211, R214, R217, R220, R221)

`PORTER_COMPLETE` goes on with a transfer that nothing holds, moves its bytes unless a check fails, and frees its tag. -/

namespace Sys2Proof.Machine

/-! ## A fault of a tile is recorded whatever the job does -/

/-- A job fault leaves what the tiles have recorded, with no job loaded, a running one or one that has stopped. -/
theorem State.jobFault_tile_fault (s : State) (level unit cause detail origin u : Nat) :
    ((s.jobFault level unit cause detail origin none).tile u).fault = (s.tile u).fault := by
  by_cases himg : s.job.img.isSome = true
  · by_cases hjs : s.job.js = 6
    · unfold State.jobFault
      rw [if_neg (by rw [← Option.not_isSome, himg]; decide)]
      dsimp only
      rw [if_pos hjs]
      split <;> rfl
    · exact (State.jobFault_tile himg hjs u).fault
  · unfold State.jobFault
    rw [if_pos (by rw [← Option.not_isSome, Bool.eq_false_iff.2 himg]; rfl), (s.fixTrigger_sameUnits 2 false).tile]

/-- A fault is recorded in its tile in any state of the job (R67). -/
theorem State.tileFault_tile_fault (s : State) (t k cause detail pc : Nat) :
    ((s.tileFault t k cause detail pc).tile t).fault = tileFaultWord (s.tile t).fault k cause detail pc := by
  have hraised : ((s.raised t k cause detail pc).tile t).fault = tileFaultWord (s.tile t).fault k cause detail pc := by
    rw [State.raised, ((State.weighTileFault_tilesStay _ t cause).tile t).fault, State.noteTileFault_tile_fault]
  have hcases : s.tileFault t k cause detail pc = if (s.job.img.isSome && s.job.tiles.contains t) = true then
      (s.raised t k cause detail pc).jobFault 0 t cause detail s.modid none else (s.raised t k cause detail pc).fixTrigger 2 false := rfl
  rw [hcases]
  split
  · rw [State.jobFault_tile_fault, hraised]
  · rw [(State.fixTrigger_sameUnits _ 2 false).tile, hraised]

/-! ## Rows as one range of bytes -/

theorem Map.slice_add {α : Type} (d : α) (m : Map α) (lo a b : Nat) :
    Map.slice d m lo (a + b) = Map.slice d m lo a ++ Map.slice d m (lo + a) b := by
  simp only [Map.slice_eq, List.range_add, List.map_append, List.map_map, Function.comp_def, Nat.add_assoc]

theorem Tile.slice_sp_eq_rows (x : Tile) (lo n : Nat) : Map.slice 0 x.sp (512 * lo) (512 * n) = x.rows lo n := by
  induction n with
  | zero => rfl
  | succ n ih =>
    rw [Nat.mul_succ, Map.slice_add, ih, Tile.rows, Tile.rows, List.range_succ, List.flatMap_append, List.flatMap_singleton, Nat.mul_add]

/-- Byte strings written within a byte string leave its length. -/
theorem foldl_splice_length {β : Type} {at_ : β → Nat} {new : β → List Byte} {n : Nat} {l : List β}
    (h : ∀ g ∈ l, at_ g + (new g).length ≤ n) {b : List Byte} (hb : b.length = n) :
    (l.foldl (fun b g => splice b (at_ g) (new g)) b).length = n := by
  refine List.foldlRecOn (motive := fun b : List Byte => b.length = n) l _ hb fun b hb g hg => ?_
  rw [splice_length (hb.symm ▸ h g hg), hb]

/-! ## What moves beside the rows -/

/-- Of what a transfer may change, only the rows, the notes and the counters of tile `t` and the stacks differ. -/
structure State.MovesData (s s' : State) (t : Nat) : Prop where
  io : (s'.tile t).io = (s.tile t).io
  sq : (s'.tile t).sq = (s.tile t).sq
  am : (s'.tile t).am = (s.tile t).am
  job : s'.job = s.job
  tiles : ∀ u, u ≠ t → s'.tile u = s.tile u

/-- What a transfer that completes leaves: its tag is free, and of what it may change only the above differs. -/
structure State.PortEnds (s s' : State) (t : Nat) (x : Xfer) : Prop where
  tags : (s'.tile t).io.tags = (s.tile t).io.tags.filter fun g => g.tag != x.tag
  sq : (s'.tile t).sq = (s.tile t).sq
  am : (s'.tile t).am = (s.tile t).am
  job : s'.job = s.job
  tiles : ∀ u, u ≠ t → s'.tile u = s.tile u

section

variable {s s' s'' : State} {t : Nat}

theorem State.MovesData.refl (s : State) (t : Nat) : s.MovesData s t := ⟨rfl, rfl, rfl, rfl, fun _ _ => rfl⟩

theorem State.MovesData.trans (h : s.MovesData s' t) (g : s'.MovesData s'' t) : s.MovesData s'' t :=
  ⟨g.io.trans h.io, g.sq.trans h.sq, g.am.trans h.am, g.job.trans h.job, fun u hu => (g.tiles u hu).trans (h.tiles u hu)⟩

theorem State.Accessed.movesData (h : s.Accessed s' t) : s.MovesData s' t := ⟨h.tile.io, h.tile.sq, h.tile.am, h.job, h.tiles⟩

/-- Neither the tiles nor the job change. -/
theorem State.MovesData.of_tiles (htiles : s'.tiles = s.tiles) (hjob : s'.job = s.job) : s.MovesData s' t := by
  have htile := State.tile_eq_of_tiles htiles
  exact ⟨by rw [htile], by rw [htile], by rw [htile], hjob, fun u _ => htile u⟩

theorem State.MovesData.modTile {f : Tile → Tile} (hio : (f (s.tile t)).io = (s.tile t).io) (hsq : (f (s.tile t)).sq = (s.tile t).sq)
    (ham : (f (s.tile t)).am = (s.tile t).am) : s.MovesData (s.modTile t f) t := by
  have hself := s.modTile_tile_self t f
  exact ⟨hself ▸ hio, hself ▸ hsq, hself ▸ ham, rfl, fun u hu => s.modTile_tile_ne t u f hu⟩

theorem State.MovesData.countTile (s : State) (t o n : Nat) : s.MovesData (s.countTile t o n) t := .modTile rfl rfl rfl

theorem State.MovesData.tags (h : s.MovesData s' t) (u : Nat) : (s'.tile u).io.tags = (s.tile u).io.tags := by
  by_cases hu : u = t
  · rw [hu, h.io]
  · rw [h.tiles u hu]

/-- The transfers in flight are a matter of the tags and the job. -/
theorem State.MovesData.others (h : s.MovesData s' t) (u : Nat) (x : Xfer) : s'.others u x = s.others u x := by
  unfold State.others
  simp only [h.tags, h.job]

end

section

variable (s : State) (t : Nat) (x : Xfer)

/-- A transfer that completes leaves its accesses and its tag, and one that no `PWAIT` has met counts as prefetched (R189, R221). -/
theorem State.portDone_tile : (s.portDone t x).tile t =
    { s.tile t with
      ctr := if x.waited then (s.tile t).ctr else ctrAdd (s.tile t).ctr 0x510 1
      io := { (s.tile t).io with
        acc := (s.tile t).io.acc.filter fun a => decide (a.id ≠ x.id)
        tags := (s.tile t).io.tags.filter fun g => decide (g.tag ≠ x.tag) } } := by
  rw [State.portDone, State.modTile_tile_self]
  generalize s.tile t = y
  cases x.waited <;> rfl

theorem State.portDone_sp : ((s.portDone t x).tile t).sp = (s.tile t).sp := by rw [State.portDone_tile]

/-- Of the counters only that of prefetched transfers counts (R221). -/
theorem State.portDone_ctr {o : Nat} (h : o ≠ 0x510) : Map.get 0 ((s.portDone t x).tile t).ctr o = Map.get 0 (s.tile t).ctr o := by
  rw [State.portDone_tile]
  dsimp only
  split
  · rfl
  · exact Tile.countOther _ _ _ _ h

end

/-- A transfer whose bytes have moved frees its tag (R189). -/
theorem State.MovesData.portDone {s s' : State} {t : Nat} (h : s.MovesData s' t) (x : Xfer) : s.PortEnds (s'.portDone t x) t x := by
  have hself := s'.portDone_tile t x
  refine ⟨?_, by rw [hself, ← h.sq], by rw [hself, ← h.am], h.job, fun u hu => (s'.modTile_tile_ne t u _ hu).trans (h.tiles u hu)⟩
  rw [hself, ← h.io]
  refine List.filter_congr fun g _ => ?_
  by_cases htag : g.tag = x.tag <;> simp [htag]

/-! ## Transfers that share no bytes (R211) -/

/-- No unordered store has written bytes of the transfer, and no other transfer in flight touches them. -/
structure State.Apart (s : State) (t : Nat) (x : Xfer) : Prop where
  racy : x.racy = []
  others : ∀ o ∈ s.others t x, common (x.ranges s.job) (o.2.ranges s.job) = [] ∧ common (o.2.ranges s.job) (x.ranges s.job) = []

section

variable {s s' : State} {t : Nat} {x : Xfer}

theorem State.Apart.of_movesData (h : s.Apart t x) (hm : s.MovesData s' t) : s'.Apart t x := by
  refine ⟨h.racy, fun o ho => ?_⟩
  rw [hm.job]
  exact h.others o (hm.others t x ▸ ho)

/-- None of its bytes is unpredictable. -/
theorem State.Apart.muddy (h : s.Apart t x) : s.muddy t x = [] := by
  rw [State.muddy, h.racy, List.nil_append]
  exact List.flatMap_eq_nil_iff.2 fun o ho => (h.others o (List.mem_filter.1 ho).1).1

/-- It makes none of another transfer's bytes unpredictable. -/
theorem State.Apart.stirs (h : s.Apart t x) : s.stirs t x = s := by
  unfold State.stirs
  split
  · refine List.foldlRecOn (motive := fun s' : State => s' = s) _ _ rfl fun s' hs' o ho => ?_
    rw [hs']
    dsimp only
    rw [(h.others o ho).2]
  · rfl

end

theorem State.muddied_nil (s : State) (k a : Nat) (b : List Byte) : s.muddied [] k a b = b := if_pos rfl

/-! ## A load lands (R165, R194, R202, R222) -/

/-- Notes of a tile that change one after the other change nothing else of it. -/
theorem Tile.foldl_modMisc {β : Type} (g : β → TileMisc → TileMisc) (l : List β) {x z : Tile} (h : ∃ m, z = { x with misc := m }) :
    ∃ m, l.foldl (fun y b => y.modMisc (g b)) z = { x with misc := m } :=
  List.foldlRecOn (motive := fun y : Tile => ∃ m, y = { x with misc := m }) l _ h fun _ hy _ _ => by
    obtain ⟨m, rfl⟩ := hy
    exact ⟨_, rfl⟩

/-- What landing marks in a tile: beside the notes of its rows only the `n` bytes are counted. -/
structure Tile.Landed (x y : Tile) (n : Nat) : Prop where
  io : y.io = x.io
  sq : y.sq = x.sq
  am : y.am = x.am
  sp : y.sp = x.sp
  ctr : Map.get 0 y.ctr 0x540 = Map.get 0 x.ctr 0x540 + BitVec.ofNat 64 n

theorem Tile.landed_of_notes {x z : Tile} (h : ∃ m, z = { x with misc := m }) (n : Nat) : x.Landed (z.count 0x540 n) n := by
  obtain ⟨m, rfl⟩ := h
  exact ⟨rfl, rfl, rfl, rfl, Tile.countSelf _ _ _⟩

/-- The bytes of a transfer. -/
def segBytes (l : List Seg) : Nat := l.foldl (fun n g => n + g.len) 0

/-- The rows a transfer touches with its segments `l` (R194). -/
def Xfer.rows (x : Xfer) (l : List Seg) : List Nat :=
  ((List.range (dRows x.d)).map (dSrow x.d + ·)).filter fun r => decide (0 < landedIn l r)

/-- What those rows hold once `l` has landed, where no byte is unpredictable. -/
def State.landedRows (s : State) (t : Nat) (x : Xfer) (l : List Seg) : List Byte :=
  l.foldl (fun b g => splice b (g.sp - 512 * dSrow x.d) (s.memBytes x [] g)) ((s.tile t).rows (dSrow x.d) (x.rows l).length)

theorem State.memBytes_length (s : State) (x : Xfer) (g : Seg) : (s.memBytes x [] g).length = g.len := by
  unfold State.memBytes
  split
  · exact Map.length_slice _ _ _ _
  · rw [State.muddied_nil, Map.length_slice]

theorem State.landedRows_length {s : State} {t : Nat} {x : Xfer} {l : List Seg}
    (h : ∀ g ∈ l, 512 * dSrow x.d ≤ g.sp ∧ g.sp + g.len ≤ 512 * (dSrow x.d + (x.rows l).length)) :
    (s.landedRows t x l).length = 512 * (x.rows l).length := by
  refine foldl_splice_length (fun g hg => ?_) (Tile.rows_length _ _ _)
  have hg := h g hg
  rw [s.memBytes_length]
  omega

/-- In a quiet tile, apart from other transfers, landing is one write of the rows and their notes. -/
theorem State.landAll_of_quiet {s : State} {c : Acct} {x : Xfer} (hq : s.Quiet c.t x.id) (hapart : s.Apart c.t x) (l : List Seg) :
    ∃ f : Tile → Tile, (∀ z : Tile, z.Landed (f z) (segBytes l)) ∧
      s.landAll c x l = ((s.opWrite c x.id (dSrow x.d) (s.landedRows c.t x l)).modTile c.t f).took := by
  have hgood : ∀ r, (s.tile c.t).badRow r 1 = none := fun r => by simp [Tile.badRow, hq.parity.1]
  have hfind : (x.rows l).find? (fun r => decide (landedIn l r < 512) && ((s.tile c.t).badRow r 1).isSome) = none :=
    List.find?_eq_none.2 fun r _ => by simp [hgood]
  unfold Xfer.rows at hfind
  unfold State.landAll
  dsimp only
  rw [hfind]
  dsimp only
  rw [hapart.muddy, Tile.slice_sp_eq_rows]
  exact ⟨_, fun z => Tile.landed_of_notes (Tile.foldl_modMisc _ _ (Tile.foldl_modMisc _ _ ⟨_, rfl⟩)) _, rfl⟩

section

variable {s : State} {c : Acct} {x : Xfer} {l : List Seg} (hq : s.Quiet c.t x.id) (hapart : s.Apart c.t x)
  (hfit : ∀ g ∈ l, 512 * dSrow x.d ≤ g.sp ∧ g.sp + g.len ≤ 512 * (dSrow x.d + (x.rows l).length))
include hq hapart hfit

/-- Segments within the transfer's rows land in them; nothing else is written. -/
theorem State.landAll_lands : s.MovesData (s.landAll c x l) c.t ∧ (s.landAll c x l).stks = s.stks ∧
    (s.tile c.t).Wrote ((s.landAll c x l).tile c.t) (dSrow x.d) (s.landedRows c.t x l) ∧
    Map.get 0 ((s.landAll c x l).tile c.t).ctr 0x540 = Map.get 0 (s.tile c.t).ctr 0x540 + BitVec.ofNat 64 (segBytes l) := by
  have hlen := State.landedRows_length (s := s) (t := c.t) hfit
  obtain ⟨f, hf, hland⟩ := State.landAll_of_quiet hq hapart l
  obtain ⟨hacc, hwrote⟩ := State.opWrite_writes hq (dSrow x.d) hlen
  have hstks : (s.opWrite c x.id (dSrow x.d) (s.landedRows c.t x l)).stks = s.stks := by rw [State.opWrite_of_quiet hq _ hlen]; rfl
  rw [hland]
  generalize s.opWrite c x.id (dSrow x.d) (s.landedRows c.t x l) = s1 at hacc hwrote hstks ⊢
  obtain ⟨hio, hsq, ham, hsp, hctr⟩ := hf (s1.tile c.t)
  have hself : (s1.modTile c.t f).took.tile c.t = f (s1.tile c.t) := s1.modTile_tile_self c.t f
  refine ⟨hacc.movesData.trans ((State.MovesData.modTile hio hsq ham).trans (.of_tiles rfl rfl)), hstks, ?_, ?_⟩
  · exact hwrote.congr rfl (by rw [hself, hsp])
  · rw [hself, hctr, hacc.tile.ctr _ (by decide) (by decide)]

end

/-! ## A store is written (R201, R203, R204, R214) -/

/-- One block of a store is written: the bytes of its segments, and the check of the whole block where it is a merge (R204). -/
def State.putPart (c : Acct) (x : Xfer) (src : List Byte) (s : State) (p : Part) : State :=
  let s1 := s.modStk p.stk fun m =>
    m.put p.gran (p.segs.map fun g => (g.off, (src.drop (g.sp - 512 * dSrow x.d)).take g.len)) (!p.short)
  if x.readsWhole p then (s1.countStk p.stk 0x28 1).countTile c.t 0x558 1 else s1

/-- Of what a transfer may change, only the notes and the counters of tile `t` but that of stored bytes, and the stacks, differ. -/
structure State.MovesOut (s s' : State) (t : Nat) : Prop extends s.MovesData s' t where
  sp : (s'.tile t).sp = (s.tile t).sp
  ctr : Map.get 0 (s'.tile t).ctr 0x548 = Map.get 0 (s.tile t).ctr 0x548

section

variable {s s' s'' : State} {t : Nat}

theorem State.MovesOut.refl (s : State) (t : Nat) : s.MovesOut s t := ⟨.refl s t, rfl, rfl⟩

theorem State.MovesOut.trans (h : s.MovesOut s' t) (g : s'.MovesOut s'' t) : s.MovesOut s'' t :=
  ⟨h.toMovesData.trans g.toMovesData, g.sp.trans h.sp, g.ctr.trans h.ctr⟩

theorem State.MovesOut.of_tiles (htiles : s'.tiles = s.tiles) (hjob : s'.job = s.job) : s.MovesOut s' t :=
  ⟨.of_tiles htiles hjob, by rw [State.tile_eq_of_tiles htiles], by rw [State.tile_eq_of_tiles htiles]⟩

theorem State.MovesOut.countTile (s : State) (t : Nat) {o : Nat} (h : o ≠ 0x548) (n : Nat) : s.MovesOut (s.countTile t o n) t := by
  have hself : (s.countTile t o n).tile t = (s.tile t).count o n := s.modTile_tile_self t _
  exact ⟨.countTile s t o n, by rw [hself]; rfl, by rw [hself, Tile.countOther _ _ _ _ h.symm]⟩

theorem State.Reads.movesOut {α : Type} {r : State × Option α} {v : α} (h : s.Reads t r v) : s.MovesOut r.1 t :=
  ⟨h.toAccessed.movesData, h.sp, h.tile.ctr _ (by decide) (by decide)⟩

theorem State.modStk_stks_congr (h : s'.stks = s.stks) (k : Nat) (f : Stack → Stack) : (s'.modStk k f).stks = (s.modStk k f).stks := by
  unfold State.modStk State.setStk State.stk
  rw [h]

variable (c : Acct) (x : Xfer) (src : List Byte)

theorem State.putPart_movesOut (s : State) (p : Part) : s.MovesOut (s.putPart c x src p) c.t := by
  unfold State.putPart
  dsimp only
  split
  · refine .trans ?_ (.countTile _ _ (o := 0x558) (by decide) 1)
    exact .of_tiles rfl rfl
  · exact .of_tiles rfl rfl

theorem State.foldl_putPart_movesOut (l : List Part) (s : State) : s.MovesOut (l.foldl (State.putPart c x src) s) c.t :=
  List.foldlRecOn (motive := fun s' : State => s.MovesOut s' c.t) l _ (.refl s c.t) fun s' h p _ => h.trans (s'.putPart_movesOut c x src p)

/-- What a store leaves of the stacks is a matter of the stacks alone. -/
theorem State.putPart_stks_congr (h : s'.stks = s.stks) (p : Part) : (s'.putPart c x src p).stks = (s.putPart c x src p).stks := by
  unfold State.putPart
  dsimp only
  split
  · rw [State.countTile, State.countTile, State.modTile_stks, State.modTile_stks]
    exact State.modStk_stks_congr (State.modStk_stks_congr h _ _) _ _
  · exact State.modStk_stks_congr h _ _

theorem State.foldl_putPart_stks_congr (l : List Part) (h : s'.stks = s.stks) :
    (l.foldl (State.putPart c x src) s').stks = (l.foldl (State.putPart c x src) s).stks := by
  induction l generalizing s s' with
  | nil => exact h
  | cons p l ih => exact ih (State.putPart_stks_congr c x src h p)

end

section

variable {s s' : State} {c : Acct} {x : Xfer}

/-- Apart from other transfers a store writes its blocks one after the other and counts its bytes. -/
theorem State.storeAll_of_apart (h : s.Apart c.t x) (l : List Seg) (src : List Byte) : s.storeAll c x l src =
    ((x.blocks s.job l).foldl (State.putPart c x src) s).countTile c.t 0x548 (segBytes l) := by
  unfold State.storeAll
  dsimp only
  rw [h.muddy]
  simp only [State.muddied_nil]
  exact (h.of_movesData ((State.foldl_putPart_movesOut c x src _ s).toMovesData.trans (.countTile _ _ _ _))).stirs

theorem State.storeAll_stores (h : s.Apart c.t x) (l : List Seg) (src : List Byte) :
    s.MovesData (s.storeAll c x l src) c.t ∧ ((s.storeAll c x l src).tile c.t).sp = (s.tile c.t).sp ∧
      Map.get 0 ((s.storeAll c x l src).tile c.t).ctr 0x548 = Map.get 0 (s.tile c.t).ctr 0x548 + BitVec.ofNat 64 (segBytes l) := by
  rw [State.storeAll_of_apart h]
  have hout := State.foldl_putPart_movesOut c x src (x.blocks s.job l) s
  generalize (x.blocks s.job l).foldl (State.putPart c x src) s = s1 at hout ⊢
  have hself : (s1.countTile c.t 0x548 (segBytes l)).tile c.t = (s1.tile c.t).count 0x548 (segBytes l) := s1.modTile_tile_self c.t _
  exact ⟨hout.toMovesData.trans (.countTile _ _ _ _), by rw [hself, ← hout.sp]; rfl, by rw [hself, Tile.countSelf, hout.ctr]⟩

/-- A store after a change of no stack leaves the stacks that it leaves before. -/
theorem State.storeAll_stks_congr (h : s.Apart c.t x) (hm : s.MovesData s' c.t) (hstks : s'.stks = s.stks) (l : List Seg)
    (src : List Byte) : (s'.storeAll c x l src).stks = (s.storeAll c x l src).stks := by
  rw [State.storeAll_of_apart h, State.storeAll_of_apart (h.of_movesData hm), hm.job]
  exact State.foldl_putPart_stks_congr c x src _ hstks

end

/-! ## The checks of a block (R201 to R205, R217) -/

/-- Reading rows leaves the seals. -/
theorem Tile.noteRead_seals (x : Tile) (c : Acct) (lo n : Nat) :
    (x.noteRead c lo n).misc.sealV = x.misc.sealV ∧ (x.noteRead c lo n).misc.sealE = x.misc.sealE := by
  unfold Tile.noteRead
  refine List.foldlRecOn (motive := fun y : Tile => y.misc.sealV = x.misc.sealV ∧ y.misc.sealE = x.misc.sealE) _ _ ⟨rfl, rfl⟩
    fun y hy i _ => ?_
  dsimp only
  split <;> split <;> exact hy

/-- Whether the checks of a transfer pass is a matter of the stacks, the windows and the seals. -/
theorem State.blockCheck_none_congr {s s' : State} {c : Acct} {x : Xfer} {l : List Seg} {src : List Byte} {e : HbmErr}
    (hjob : s'.job = s.job) (hstks : s'.stks = s.stks) (hsealV : (s'.tile c.t).misc.sealV = (s.tile c.t).misc.sealV)
    (hsealE : (s'.tile c.t).misc.sealE = (s.tile c.t).misc.sealE) (h : s.blockCheck c x l src e = none) :
    s'.blockCheck c x l src e = none := by
  have hstk : ∀ k, s'.stk k = s.stk k := fun k => by rw [State.stk, hstks]; rfl
  unfold State.blockCheck at h ⊢
  dsimp only at h ⊢
  rw [List.findSome?_eq_none_iff] at h ⊢
  intro q hq
  have hq := h q (hjob ▸ hq)
  simp only [hstk, hsealV, hsealE]
  grind

/-- A list whose hits are all the same gives that one. -/
theorem findSome?_eq_of_hits_eq {α β : Type} {f : α → Option β} {l : List α} {v : β}
    (hsame : ∀ a ∈ l, f a = none ∨ f a = some v) (hhit : ∃ a ∈ l, f a ≠ none) : l.findSome? f = some v := by
  obtain ⟨a, ha, hne⟩ := hhit
  cases h : l.findSome? f with
  | none => exact absurd (List.findSome?_eq_none_iff.1 h a ha) hne
  | some w =>
    obtain ⟨b, hb, hw⟩ := List.exists_of_findSome?_eq_some h
    rcases hsame b hb with hb | hb
    · exact absurd (hb.symm.trans hw) (by simp)
    · exact hw.symm.trans hb

/-- The bytes that a load reads report the one uncorrectable burst there is (R217). -/
theorem State.blockCheck_of_ue {s : State} {c : Acct} {x : Xfer} {l : List Seg} {src : List Byte} {e : HbmErr} {k b : Nat}
    (hload : dDir x.d = 0) (hland : ∀ i, e ≠ .landed i) (hue : ∀ j a, a ∈ (s.stk j).ue ↔ j = k ∧ a = b)
    (hcrc : ∀ p ∈ x.blocks s.job l, Map.get false (s.stk p.stk).crcV p.gran = false)
    (hread : ∃ p ∈ x.blocks s.job l, p.stk = k ∧ b ∈ burstsOf x p) : s.blockCheck c x l src e = some (s.hbmUe k b) := by
  unfold State.blockCheck
  dsimp only
  refine findSome?_eq_of_hits_eq (fun q hq => ?same) ?hit
  case same =>
    have hp := hcrc q.1 (List.fst_mem_of_mem_zipIdx hq)
    cases hfind : (burstsOf x q.1).find? (s.stk q.1.stk).ue.contains with
    | none => simp [hload, hland, hp]
    | some a =>
      obtain ⟨hk, hb⟩ := (hue q.1.stk a).1 (List.contains_iff_mem.1 (List.find?_some hfind))
      exact .inr (by rw [hk, hb])
  case hit =>
    obtain ⟨p, hp, hk, hb⟩ := hread
    obtain ⟨i, hi⟩ := List.getElem?_of_mem hp
    refine ⟨(p, i), List.mk_mem_zipIdx_iff_getElem?.2 hi, ?_⟩
    cases hfind : (burstsOf x p).find? (s.stk p.stk).ue.contains with
    | none => exact absurd (List.contains_iff_mem.2 ((hue p.stk b).2 ⟨hk, rfl⟩)) (List.find?_eq_none.1 hfind b hb)
    | some a => simp

/-! ## `PORTER_COMPLETE` -/

/-- The accesses of a transfer: its tile, its stream, the porter (R490). -/
def Xfer.acct (x : Xfer) (t : Nat) : Acct := { t := t, q := Strm.code x.q, eng := 4, pc := x.pc }

/-- Nothing holds a transfer outside the coherent window: it has not stopped, is of the current epoch and waits neither for the host nor
behind a message, and no undervoltage clamp stands (R199, R214, R219, R220, R224, R270). -/
structure State.PortGoes (s : State) (t : Nat) (x : Xfer) : Prop where
  stuck : x.stuck = false
  clamp : s.power.clamp = false
  left : x.left = []
  blocked : (s.tile t).blocked = false
  plain : x.isHcoh s.job = false
  epoch : x.epoch = s.job.epoch

theorem State.waitsLines_of_plain {s : State} {x : Xfer} (h : x.isHcoh s.job = false) : s.waitsLines x = false := by
  rw [State.waitsLines, State.heldLines, Xfer.hcohLines, if_neg (by rw [h]; decide)]
  rfl

theorem Xfer.cut_of_epoch {x : Xfer} {j : Job} (h : x.epoch = j.epoch) : x.cut j = false := decide_eq_false (not_not.2 h)

section

variable {s : State} {t tag : Nat} {e : HbmErr} {x : Xfer} (ht : t < 2304) (hs : s.sameTick = false)
  (hx : ((s.tile t).io.tags.find? fun g => decide (g.tag = tag)) = some x)
include ht hs hx

theorem porterComplete_of_held
    (h : x.stuck = true ∨ s.power.clamp = true ∨ (s.tile t).blocked = true ∨ (x.left ≠ [] ∧ x.epoch = s.job.epoch)) :
    exec (.porterComplete t tag e) s = .next s := by
  show execPorterComplete t tag e s = _
  rw [execPorterComplete, if_neg (Nat.not_le.2 ht), alongside_eq _ hs, hx]
  dsimp only
  by_cases hheld : x.stuck = true ∨ s.power.clamp = true ∨ (s.tile t).blocked = true
  · rw [if_pos hheld]
  · obtain ⟨hleft, hepoch⟩ : x.left ≠ [] ∧ x.epoch = s.job.epoch := by tauto
    rw [if_neg hheld, if_neg (by rw [Xfer.cut_of_epoch hepoch]; simp), if_pos hleft]

variable (h : s.PortGoes t x)
include h

/-- What a transfer that nothing holds does, by whether its indices are still to be read and its requests still to be sent. -/
theorem porterComplete_of_goes : exec (.porterComplete t tag e) s =
    if dDir x.d = 2 ∧ x.d.length ≤ 8 then
      match s.readIndices (x.acct t) x with
      | (s1, none) => .next s1
      | (s1, some y) =>
        if x.isHost s.job then .next ((s1.setXfer t y).askHost t y)
        else if (s1.setXfer t y).waitsLines y then .next ((s1.setXfer t y).askLines y)
        else .next ((s1.setXfer t y).portMove (x.acct t) y e)
    else if x.isHost s.job ∧ ¬ x.asked then .next (s.askHost t x)
    else .next (s.portMove (x.acct t) x e) := by
  obtain ⟨hstuck, hclamp, hleft, hblocked, hplain, hepoch⟩ := h
  show execPorterComplete t tag e s = _
  rw [execPorterComplete, if_neg (Nat.not_le.2 ht), alongside_eq _ hs, hx]
  dsimp only
  rw [if_neg (by simp [hstuck, hclamp, hblocked]), if_neg (by rw [Xfer.cut_of_epoch hepoch]; simp), if_neg (not_not.2 hleft),
    if_neg (by rw [State.waitsLines_of_plain hplain]; decide)]
  rfl

theorem porterComplete_moves (hready : ¬ (dDir x.d = 2 ∧ x.d.length ≤ 8)) (hsent : x.isHost s.job = false ∨ x.asked = true) :
    exec (.porterComplete t tag e) s = .next (s.portMove (x.acct t) x e) := by
  rw [porterComplete_of_goes ht hs hx h, if_neg hready]
  rcases hsent with hsent | hsent <;> simp [hsent]

end

/-! ### The bytes move -/

section

variable {s : State} {c : Acct} {x : Xfer} {e : HbmErr}

/-- Reads of bursts that report no correction are not counted (R215). -/
theorem State.foldl_corrected_of_clean {l : List Part} (h : ∀ p ∈ l, ∀ b ∈ burstsOf x p, b ∉ (s.stk p.stk).ce) :
    l.foldl (fun s p => s.corrected p.stk (burstsOf x p)) s = s := by
  refine List.foldlRecOn (motive := fun s' : State => s' = s) l _ rfl fun s' hs' p hp => ?_
  have hnone : (burstsOf x p).filter (s.stk p.stk).ce.contains = [] :=
    List.filter_eq_nil_iff.2 fun b hb hce => h p hp b hb (List.contains_iff_mem.1 hce)
  rw [hs', State.corrected, hnone]
  rfl

/-- A whole transfer of HBM without interface parity moves its bytes as the stacks stand. -/
theorem State.portMove_of_hbm (hepoch : x.epoch = s.job.epoch) (hhost : x.isHost s.job = false) (hpar : ∀ k p, e ≠ .parity k p)
    (hce : ∀ p ∈ x.blocks (s.cells e).job x.segs, ∀ b ∈ burstsOf x p, b ∉ ((s.cells e).stk p.stk).ce) :
    s.portMove c x e = (s.cells e).moveHbm c x x.segs (dRows x.d) e := by
  unfold State.portMove
  simp only [Xfer.cut_of_epoch hepoch, hhost, Bool.false_eq_true, if_false, State.foldl_corrected_of_clean hce]

/-- Without an error, reading bursts that report none, it moves them as they stand. -/
theorem State.portMove_of_hbm_clean (hepoch : x.epoch = s.job.epoch) (hhost : x.isHost s.job = false)
    (hce : ∀ p ∈ x.blocks s.job x.segs, ∀ b ∈ burstsOf x p, b ∉ (s.stk p.stk).ce) :
    s.portMove c x .none = s.moveHbm c x x.segs (dRows x.d) .none :=
  State.portMove_of_hbm (e := .none) hepoch hhost (fun _ _ => HbmErr.noConfusion) hce

/-- A store to host memory whose lines are all taken has moved. -/
theorem State.portMove_of_hostStore (hepoch : x.epoch = s.job.epoch) (hhost : x.isHost s.job = true) (hdir : dDir x.d = 1) :
    s.portMove c x e = (s.countTile c.t 0x548 (x.hostSent s.job)).portDone c.t x := by
  unfold State.portMove
  simp only [Xfer.cut_of_epoch hepoch, hhost, hdir, Bool.false_eq_true, if_false, if_true]

theorem State.cells_job (s : State) (e : HbmErr) : (s.cells e).job = s.job := by
  unfold State.cells
  split <;> rfl

/-- In clean stacks an uncorrectable result leaves one burst that reports it, and none that is corrected (R217). -/
theorem State.cells_ue (hclean : ∀ j, (s.stk j).ue = [] ∧ (s.stk j).ce = []) (k a : Nat) :
    (∀ j b, b ∈ ((s.cells (.ue k a)).stk j).ue ↔ j = k ∧ b = a / 32 * 32) ∧ ∀ j, ((s.cells (.ue k a)).stk j).ce = [] ∧
      ((s.cells (.ue k a)).stk j).crcV = (s.stk j).crcV := by
  have hstk : ∀ j, (s.cells (.ue k a)).stk j = if j = k then { s.stk k with ue := [a / 32 * 32] } else s.stk j := fun j => by
    refine (State.modStk_stk _ _ _ _).trans ?_
    rw [(hclean k).1]
    rfl
  refine ⟨fun j b => ?_, fun j => ?_⟩
  · rw [hstk]
    split
    next hj => simp [hj]
    next hj => simp [hj, (hclean j).1]
  · rw [hstk]
    split
    next hj => exact ⟨(hclean k).2, hj ▸ rfl⟩
    next hj => exact ⟨(hclean j).2, rfl⟩

/-- A load whose checks pass lands and frees its tag. -/
theorem State.moveHbm_of_load {n : Nat} (hdir : dDir x.d = 0) (hgood : s.blockCheck c x x.segs [] e = none) :
    s.moveHbm c x x.segs n e = (s.landAll c x x.segs).portDone c.t x := by
  rw [State.moveHbm, if_neg (by rw [hdir]; decide), hgood]

/-- A load of which a check fails does what the check says. -/
theorem State.moveHbm_of_failed {n : Nat} {s' : State} (hdir : dDir x.d = 0) (hbad : s.blockCheck c x x.segs [] e = some s') :
    s.moveHbm c x x.segs n e = s' := by
  rw [State.moveHbm, if_neg (by rw [hdir]; decide), hbad]

/-- What a read by an operation in a quiet tile leaves beside the tile. -/
theorem State.opRead_rest {id : Nat} (hq : s.Quiet c.t id) (lo n : Nat) :
    (s.opRead c id lo n).1 = { s with tiles := (s.opRead c id lo n).1.tiles, free := (s.opRead c id lo n).1.free } := by
  rw [State.opRead_of_quiet hq]
  rfl

theorem State.opRead_seals {id : Nat} (hq : s.Quiet c.t id) (lo n : Nat) :
    ((s.opRead c id lo n).1.tile c.t).misc.sealV = (s.tile c.t).misc.sealV ∧
      ((s.opRead c id lo n).1.tile c.t).misc.sealE = (s.tile c.t).misc.sealE := by
  rw [State.opRead_of_quiet hq]
  dsimp only
  rw [State.took_tile, State.setTile_tile_self]
  exact Tile.noteRead_seals _ _ _ _

/-- A store whose checks pass, with no stow under way, writes the rows it has read and frees its tag (R201, R203, R324). -/
theorem State.moveHbm_of_store (hq : s.Quiet c.t x.id) (hdir : dDir x.d = 1) (hstow : s.stow.sending = false) {n : Nat}
    (hgood : s.blockCheck c x x.segs ((s.tile c.t).rows (dSrow x.d) n) e = none) :
    s.moveHbm c x x.segs n e =
      ((s.opRead c x.id (dSrow x.d) n).1.storeAll c x x.segs ((s.tile c.t).rows (dSrow x.d) n)).portDone c.t x := by
  have hread := State.opRead_reads hq (dSrow x.d) n
  obtain ⟨hsealV, hsealE⟩ := State.opRead_seals hq (dSrow x.d) n
  have hrest := State.opRead_rest hq (dSrow x.d) n
  rw [State.moveHbm, if_pos hdir, hread.andThen_eq]
  generalize (s.opRead c x.id (dSrow x.d) n).1 = s1 at hread hsealV hsealE hrest ⊢
  have hcopy : s1.copyFirst x x.segs = s1 := if_neg fun h => by
    have hsending : s1.stow.sending = s.stow.sending := by rw [hrest]
    rw [hsending, hstow] at h
    exact absurd h.1 (by decide)
  rw [State.blockCheck_none_congr (by rw [hrest]) (by rw [hrest]) hsealV hsealE hgood]
  dsimp only
  rw [hcopy]

end

/-! ### A gather reads its indices (R208, R209) -/

/-- The indices of a gather, as its rows hold them. -/
def State.indices (s : State) (t : Nat) (x : Xfer) : List Nat :=
  codesOf 32 (dC1 x.d) (leNat ((s.tile t).rows (dIrow x.d) (dIdxRows x.d)))

/-- A gather with its indices behind its descriptor. -/
def Xfer.withIndices (x : Xfer) (l : List Nat) : Xfer := { x with d := x.d ++ l.map fun n => BitVec.ofNat 64 n }

theorem codesOf_length (w n v : Nat) : (codesOf w n v).length = n := by
  induction n generalizing v with
  | zero => rfl
  | succ n ih => exact congrArg (· + 1) (ih _)

section

variable {x : Xfer} (hlen : x.d.length = 8)
include hlen

/-- The first word of the descriptor stays, and with it direction and window. -/
theorem Xfer.withIndices_word0 (l : List Nat) : (x.withIndices l).d.getD 0 0 = x.d.getD 0 0 :=
  List.getD_append _ _ _ _ (by omega)

theorem Xfer.withIndices_dDir (l : List Nat) : dDir (x.withIndices l).d = dDir x.d := by
  rw [dDir, x.withIndices_word0 hlen, dDir]

theorem Xfer.withIndices_cfg (l : List Nat) (j : Job) : (x.withIndices l).cfg j = x.cfg j := by
  rw [Xfer.cfg, dWin, x.withIndices_word0 hlen, Xfer.cfg, dWin]

end

section

variable {s : State} {c : Acct} {x : Xfer} (hq : s.Quiet c.t x.id)
include hq

theorem State.readIndices_of_good (hlen : x.d.length = 8)
    (hgood : ∀ a ∈ dStarts x.d (s.indices c.t x), 0 ≤ a ∧ a + dL0 x.d ≤ (x.limit s.job : Int)) :
    s.readIndices c x = ((s.opRead c x.id (dIrow x.d) (dIdxRows x.d)).1, some (x.withIndices (s.indices c.t x))) := by
  have hread := State.opRead_reads hq (dIrow x.d) (dIdxRows x.d)
  have hin : ((dStarts x.d (s.indices c.t x)).any fun a => decide (a < 0 ∨ (x.limit s.job : Int) < a + dL0 x.d)) = false :=
    List.any_eq_false.2 fun a ha => by
      obtain ⟨hlo, hhi⟩ := hgood a ha
      rw [decide_eq_true_iff]
      omega
  unfold State.indices at hin
  rw [State.readIndices, hread.value]
  dsimp only
  rw [hin, List.take_of_length_le (by omega)]
  rfl

theorem State.readIndices_of_bad (hbad : ∃ a ∈ dStarts x.d (s.indices c.t x), a < 0 ∨ (x.limit s.job : Int) < a + dL0 x.d) :
    s.readIndices c x = (((s.opRead c x.id (dIrow x.d) (dIdxRows x.d)).1.setXfer c.t { x with stuck := true }).tileFault c.t c.q 0x09
      (windowDetail 5 x.d) c.pc, none) := by
  have hread := State.opRead_reads hq (dIrow x.d) (dIdxRows x.d)
  have hout : ((dStarts x.d (s.indices c.t x)).any fun a => decide (a < 0 ∨ (x.limit s.job : Int) < a + dL0 x.d)) = true := by
    obtain ⟨a, ha, hrange⟩ := hbad
    exact List.any_eq_true.2 ⟨a, ha, decide_eq_true hrange⟩
  unfold State.indices at hout
  rw [State.readIndices, hread.value]
  dsimp only
  rw [hout]
  rfl

end

/-- The transfer that replaces another of its tag is found in its place. -/
theorem find?_tag_replaced {l : List Xfer} {tag : Nat} {x y : Xfer} (h : (l.find? fun g => decide (g.tag = tag)) = some x)
    (htag : y.tag = x.tag) : ((l.map fun g => if g.tag = x.tag then y else g).find? fun g => decide (g.tag = tag)) = some y := by
  have hsame : ((fun g : Xfer => decide (g.tag = tag)) ∘ fun g => if g.tag = x.tag then y else g) = fun g => decide (g.tag = tag) := by
    funext g
    dsimp only [Function.comp_apply]
    split
    next hg => rw [htag, hg]
    next => rfl
  rw [List.find?_map, hsame, h, Option.map_some, if_pos rfl]

/-- What reading its indices leaves: the transfer has them in the place of its tag, and its command goes on from there. -/
structure State.Gathers (s s' : State) (t : Nat) (y : Xfer) : Prop where
  tags : (s'.tile t).io.tags = (s.tile t).io.tags.map fun g => if g.tag = y.tag then y else g
  sp : (s'.tile t).sp = (s.tile t).sp
  sq : (s'.tile t).sq = (s.tile t).sq
  blocked : (s'.tile t).blocked = (s.tile t).blocked
  tiles : ∀ u, u ≠ t → s'.tile u = s.tile u
  rest : s' = { s with tiles := s'.tiles, free := s'.free }

theorem State.setXfer_gathers {s s1 : State} {t : Nat} (hacc : s.Accessed s1 t) (hsp : (s1.tile t).sp = (s.tile t).sp)
    (hrest : s1 = { s with tiles := s1.tiles, free := s1.free }) (y : Xfer) : s.Gathers (s1.setXfer t y) t y := by
  have hself : (s1.setXfer t y).tile t =
      (s1.tile t).modIo fun io => { io with tags := io.tags.map fun g => if g.tag = y.tag then y else g } := s1.modTile_tile_self t _
  refine ⟨by rw [hself, ← hacc.tile.io]; rfl, by rw [hself, ← hsp]; rfl, by rw [hself, ← hacc.tile.sq]; rfl, ?_,
    fun u hu => (s1.modTile_tile_ne t u _ hu).trans (hacc.tiles u hu), ?_⟩
  · rw [hself]
    exact hacc.tile.reads Tile.blocked
  · rw [State.setXfer, State.modTile, State.setTile, hrest]

section

variable {s s1 : State} {t : Nat} {x : Xfer} {l : List Nat} (hg : s.Gathers s1 t (x.withIndices l))
include hg

theorem State.Gathers.job : s1.job = s.job := by rw [hg.rest]

theorem State.Gathers.sameTick : s1.sameTick = s.sameTick := by
  rw [hg.rest]
  rfl

/-- A gather that nothing holds is held by nothing once it has its indices. -/
theorem State.Gathers.goes (h : s.PortGoes t x) (hlen : x.d.length = 8) : s1.PortGoes t (x.withIndices l) := by
  obtain ⟨hstuck, hclamp, hleft, hblocked, hplain, hepoch⟩ := h
  refine ⟨hstuck, by rw [hg.rest]; exact hclamp, hleft, hg.blocked.trans hblocked, ?_, hepoch.trans (by rw [hg.job])⟩
  rw [hg.job, ← hplain]
  unfold Xfer.isHcoh Xfer.isHost
  rw [Xfer.withIndices_cfg hlen]

theorem State.Gathers.isHost (hlen : x.d.length = 8) : (x.withIndices l).isHost s1.job = x.isHost s.job := by
  rw [hg.job, Xfer.isHost, Xfer.withIndices_cfg hlen, Xfer.isHost]

end

section

variable {s : State} {t tag : Nat} {e : HbmErr} {x : Xfer} (ht : t < 2304) (hs : s.sameTick = false)
  (hx : ((s.tile t).io.tags.find? fun g => decide (g.tag = tag)) = some x) (h : s.PortGoes t x) (hq : s.Quiet t x.id)
  (hdir : dDir x.d = 2)
include ht hs hx h hq hdir

/-- A gather of HBM whose indices are in bounds goes on as the transfer with its indices. -/
theorem porterComplete_gathers (hhost : x.isHost s.job = false) (hlen : x.d.length = 8)
    (hgood : ∀ a ∈ dStarts x.d (s.indices t x), 0 ≤ a ∧ a + dL0 x.d ≤ (x.limit s.job : Int)) :
    ∃ s1, exec (.porterComplete t tag e) s = exec (.porterComplete t tag e) s1 ∧ s.Gathers s1 t (x.withIndices (s.indices t x)) := by
  have hread := State.opRead_reads (c := x.acct t) hq (dIrow x.d) (dIdxRows x.d)
  have hindices := State.readIndices_of_good (c := x.acct t) hq hlen hgood
  have hgathers := State.setXfer_gathers hread.toAccessed hread.sp (State.opRead_rest (c := x.acct t) hq _ _)
    (x.withIndices (s.indices t x))
  have hgoes := hgathers.goes h hlen
  have hhost' := (hgathers.isHost hlen).trans hhost
  have hfind := hgathers.tags ▸ find?_tag_replaced (y := x.withIndices (s.indices t x)) hx rfl
  have hlong : ¬ (dDir (x.withIndices (s.indices t x)).d = 2 ∧ (x.withIndices (s.indices t x)).d.length ≤ 8) := fun hshort => by
    have hle : (x.d ++ (s.indices t x).map fun n => BitVec.ofNat 64 n).length ≤ 8 := hshort.2
    have hpos : 0 < dC1 x.d := Nat.succ_pos _
    rw [List.length_append, List.length_map, State.indices, codesOf_length] at hle
    omega
  refine ⟨_, ?_, hgathers⟩
  rw [porterComplete_moves ht (hgathers.sameTick.trans hs) hfind hgoes hlong (.inl hhost'), porterComplete_of_goes ht hs hx h,
    if_pos ⟨hdir, hlen.le⟩, hindices]
  dsimp only
  rw [hhost, if_neg (by decide)]
  exact if_neg (Bool.eq_false_iff.1 (State.waitsLines_of_plain hgoes.plain))

/-- A gather with an index out of bounds raises `WINDOW` reason 5 (R199, R209). -/
theorem porterComplete_refuses (hlen : x.d.length = 8)
    (hbad : ∃ a ∈ dStarts x.d (s.indices t x), a < 0 ∨ (x.limit s.job : Int) < a + dL0 x.d) :
    ∃ s', exec (.porterComplete t tag e) s = .next s' ∧
      (s'.tile t).fault = tileFaultWord (s.tile t).fault (Strm.code x.q) 0x09 (windowDetail 5 x.d) x.pc := by
  have hread := State.opRead_reads (c := x.acct t) hq (dIrow x.d) (dIdxRows x.d)
  have hindices := State.readIndices_of_bad (c := x.acct t) hq hbad
  rw [porterComplete_of_goes ht hs hx h, if_pos ⟨hdir, hlen.le⟩, hindices]
  refine ⟨_, rfl, (State.tileFault_tile_fault _ _ _ _ _ _).trans ?_⟩
  have hfault : ∀ s1 : State, ((s1.setXfer t { x with stuck := true }).tile t).fault = (s1.tile t).fault := fun s1 => by
    rw [State.setXfer, State.modTile_tile_self]
    rfl
  exact congrArg (tileFaultWord · _ _ _ _) ((hfault _).trans (hread.tile.reads Tile.fault))

end

section

variable {s : State} {t tag : Nat} {x : Xfer} (ht : t < 2304) (hs : s.sameTick = false)
  (hx : ((s.tile t).io.tags.find? fun g => decide (g.tag = tag)) = some x) (h : s.PortGoes t x)
include ht hs hx h

/-- An uncorrectable burst that a load reads is taken as such (R217). -/
theorem porterComplete_reports (hhost : x.isHost s.job = false) (hdir : dDir x.d = 0)
    (hclean : ∀ j, (s.stk j).ue = [] ∧ (s.stk j).ce = [])
    (hcrc : ∀ p ∈ x.blocks s.job x.segs, Map.get false (s.stk p.stk).crcV p.gran = false) (k a : Nat)
    (hread : ∃ p ∈ x.blocks s.job x.segs, p.stk = k ∧ a / 32 * 32 ∈ burstsOf x p) :
    exec (.porterComplete t tag (.ue k a)) s = .next ((s.cells (.ue k a)).hbmUe k (a / 32 * 32)) := by
  obtain ⟨hue, hcells⟩ := State.cells_ue hclean k a
  rw [porterComplete_moves ht hs hx h (by omega) (.inl hhost),
    State.portMove_of_hbm h.epoch hhost (by simp) fun p _ b _ => by simp [(hcells p.stk).1]]
  refine congrArg _ (State.moveHbm_of_failed hdir (State.blockCheck_of_ue hdir (by simp) hue ?_ ?_)) <;> rw [State.cells_job]
  · exact fun p hp => (hcells p.stk).2 ▸ hcrc p hp
  · exact hread

section

variable (hq : s.Quiet t x.id) (hapart : s.Apart t x) (hhost : x.isHost s.job = false)
  (hce : ∀ p ∈ x.blocks s.job x.segs, ∀ b ∈ burstsOf x p, b ∉ (s.stk p.stk).ce)
include hq hapart hhost hce

/-- A load whose checks pass lands in its rows. -/
theorem porterComplete_loads (hdir : dDir x.d = 0)
    (hfit : ∀ g ∈ x.segs, 512 * dSrow x.d ≤ g.sp ∧ g.sp + g.len ≤ 512 * (dSrow x.d + (x.rows x.segs).length))
    (hgood : s.blockCheck (x.acct t) x x.segs [] .none = none) :
    ∃ s', exec (.porterComplete t tag .none) s = .next s' ∧ s.PortEnds s' t x ∧
      (s.tile t).Wrote (s'.tile t) (dSrow x.d) (s.landedRows t x x.segs) ∧
      Map.get 0 (s'.tile t).ctr 0x540 = Map.get 0 (s.tile t).ctr 0x540 + BitVec.ofNat 64 (segBytes x.segs) ∧ s'.stks = s.stks := by
  have hrun := porterComplete_moves (e := .none) ht hs hx h (by omega) (.inl hhost)
  rw [State.portMove_of_hbm_clean h.epoch hhost hce, State.moveHbm_of_load hdir hgood] at hrun
  obtain ⟨hmoves, hstks, hwrote, hctr⟩ := State.landAll_lands (c := x.acct t) hq hapart hfit
  exact ⟨_, hrun, hmoves.portDone x, hwrote.congr rfl (State.portDone_sp _ _ _),
    (State.portDone_ctr _ _ _ (by decide)).trans hctr, hstks⟩

/-- A store whose checks pass, with no stow under way, leaves the stacks that `storeAll` leaves. -/
theorem porterComplete_stores (hdir : dDir x.d = 1) (hstow : s.stow.sending = false) {src : List Byte}
    (hsrc : (s.tile t).rows (dSrow x.d) (dRows x.d) = src) (hgood : s.blockCheck (x.acct t) x x.segs src .none = none) :
    ∃ s', exec (.porterComplete t tag .none) s = .next s' ∧ s.PortEnds s' t x ∧
      s'.stks = (s.storeAll (x.acct t) x x.segs src).stks ∧ (s'.tile t).sp = (s.tile t).sp ∧
      Map.get 0 (s'.tile t).ctr 0x548 = Map.get 0 (s.tile t).ctr 0x548 + BitVec.ofNat 64 (segBytes x.segs) := by
  subst hsrc
  have hrun := porterComplete_moves (e := .none) ht hs hx h (by omega) (.inl hhost)
  rw [State.portMove_of_hbm_clean h.epoch hhost hce, State.moveHbm_of_store (c := x.acct t) hq hdir hstow hgood] at hrun
  have hout := (State.opRead_reads (c := x.acct t) hq (dSrow x.d) (dRows x.d)).movesOut
  have hstks : (s.opRead (x.acct t) x.id (dSrow x.d) (dRows x.d)).1.stks = s.stks := by rw [State.opRead_rest (c := x.acct t) hq]
  obtain ⟨hmoves, hsp, hctr⟩ := State.storeAll_stores (c := x.acct t) (hapart.of_movesData hout.toMovesData) x.segs
    ((s.tile t).rows (dSrow x.d) (dRows x.d))
  exact ⟨_, hrun, (hout.toMovesData.trans hmoves).portDone x,
    State.storeAll_stks_congr (c := x.acct t) hapart hout.toMovesData hstks x.segs _,
    (State.portDone_sp _ _ _).trans (hsp.trans hout.sp),
    (State.portDone_ctr _ _ _ (by decide)).trans (hctr.trans (congrArg (· + _) hout.ctr))⟩

end

/-- A store to host memory whose lines are all taken counts its bytes. -/
theorem porterComplete_storesHost {e : HbmErr} (hhost : x.isHost s.job = true) (hdir : dDir x.d = 1) (hasked : x.asked = true) :
    ∃ s', exec (.porterComplete t tag e) s = .next s' ∧ s.PortEnds s' t x ∧ (s'.tile t).sp = (s.tile t).sp ∧ s'.stks = s.stks ∧
      Map.get 0 (s'.tile t).ctr 0x548 = Map.get 0 (s.tile t).ctr 0x548 + BitVec.ofNat 64 (x.hostSent s.job) := by
  have hrun := porterComplete_moves (e := e) ht hs hx h (by omega) (.inr hasked)
  rw [State.portMove_of_hostStore h.epoch hhost hdir] at hrun
  have hself : (s.countTile t 0x548 (x.hostSent s.job)).tile t = (s.tile t).count 0x548 (x.hostSent s.job) := s.modTile_tile_self t _
  exact ⟨_, hrun, (State.MovesData.countTile s t _ _).portDone x,
    (State.portDone_sp _ t _).trans ((congrArg Tile.sp hself).trans rfl), rfl,
    (State.portDone_ctr _ t _ (by decide)).trans ((congrArg (fun y : Tile => Map.get 0 y.ctr 0x548) hself).trans (Tile.countSelf _ _ _))⟩

end

/-- Settles O27: what holds a transfer, the uncorrectable burst of a load, what a load, a store and a gather leave. That a burst is 32
bytes, and that the error of a read comes with the command, is the model's choice (log 14). -/
theorem porterCompletes : Obligations.PorterCompletes := by
  unfold Obligations.PorterCompletes
  intro s t tag e x ht hs hx y bytes rows lo c parts frees
  refine ⟨porterComplete_of_held ht hs hx, fun hstuck hclamp hleft hblocked hplain hepoch hq => ?_⟩
  have h : s.PortGoes t x := ⟨hstuck, hclamp, hleft, hblocked, hplain, hepoch⟩
  have hfrees : ∀ {s' : State}, s.PortEnds s' t x → frees s' := fun h => ⟨h.tags, h.sq, h.am, h.job, h.tiles⟩
  refine ⟨fun hhost hdir hclean hcrc k a he hread => ?uncorrectable, fun hhost he hce hracy hothers => ⟨fun hdir hfit hgood => ?load,
    fun hdir hstow hgood => ?store⟩, fun hhost hdir hasked => ?hostStore,
    fun hhost hdir hlen => ⟨fun hgood => ?gather, fun hbad => ?refused⟩⟩
  case uncorrectable => exact he ▸ porterComplete_reports ht hs hx h hhost hdir hclean hcrc k a hread
  case load =>
    subst he
    obtain ⟨s', hrun, hends, hrest⟩ := porterComplete_loads ht hs hx h hq ⟨hracy, hothers⟩ hhost hce hdir hfit hgood
    exact ⟨s', hrun, hfrees hends, hrest⟩
  case store =>
    subst he
    obtain ⟨s', hrun, hends, hrest⟩ := porterComplete_stores ht hs hx h hq ⟨hracy, hothers⟩ hhost hce hdir hstow rfl hgood
    exact ⟨s', hrun, hfrees hends, hrest⟩
  case hostStore =>
    obtain ⟨s', hrun, hends, hrest⟩ := porterComplete_storesHost (e := e) ht hs hx h hhost hdir hasked
    exact ⟨s', hrun, hfrees hends, hrest⟩
  case gather =>
    obtain ⟨s1, hrun, hg⟩ := porterComplete_gathers (e := e) ht hs hx h hq hdir hhost hlen hgood
    exact ⟨s1, hrun, hg.tags, hg.sp, hg.sq, by rw [hg.rest], hg.job, hg.tiles⟩
  case refused => exact porterComplete_refuses ht hs hx h hq hdir hlen hbad

end Sys2Proof.Machine

/-! # What the exchange of a superstep shares (R160, R167, R227, R236)

The report of a complete part changes the tile's note of it and the symbols along the sync tree; a route entry of a clear tile reads as
it stands; a packet for this module is a copy for each tile of its rectangles. -/

namespace Sys2Proof.Machine

/-! ## The report of a complete part -/

/-- A tile without what it notes of its own part (R227, R234). -/
def Tile.unparted (x : Tile) : Tile := x.modXs fun v => { v with part := false, partNs := 0 }

/-- Between `x` and `y` only that note may differ. -/
structure Tile.Parted (x y : Tile) : Prop where
  same : y.unparted = x.unparted

namespace Tile.Parted

variable {x y : Tile} (h : x.Parted y)
include h

theorem reads {β : Type} (f : Tile → β) : f y.unparted = f x.unparted := congrArg f h.same

theorem st : y.st = x.st := h.reads Tile.st
theorem ctr : y.ctr = x.ctr := h.reads Tile.ctr
theorem sp : y.sp = x.sp := h.reads Tile.sp
theorem am : y.am = x.am := h.reads Tile.am
theorem sq : y.sq = x.sq := h.reads Tile.sq
theorem io : y.io = x.io := h.reads Tile.io
theorem misc : y.misc = x.misc := h.reads Tile.misc
theorem sent : y.xs.sent = x.xs.sent := h.reads fun z => z.xs.sent
theorem recv : y.xs.recv = x.xs.recv := h.reads fun z => z.xs.recv
theorem meet : y.xs.meet = x.xs.meet := h.reads fun z => z.xs.meet
theorem rows : y.xs.rows = x.xs.rows := h.reads fun z => z.xs.rows

end Tile.Parted

/-- The module without its tiles, the symbols at its ports and what the wave holds of parts complete (R225). -/
def State.unreported (s : State) : State :=
  { s with tiles := [], ports := [], job := { s.job with wave := { s.job.wave with partSent := false, done := false } } }

/-- Between `s` and `s'` parts may have been found complete and reported; nothing else differs. -/
structure State.Reported (s s' : State) : Prop where
  rest : s'.unreported = s.unreported
  tile : ∀ u, (s.tile u).Parted (s'.tile u)

section

variable {s s' s'' : State}

theorem State.Reported.refl (s : State) : s.Reported s := ⟨rfl, fun _ => ⟨rfl⟩⟩

theorem State.Reported.trans (h : s.Reported s') (g : s'.Reported s'') : s.Reported s'' :=
  ⟨g.rest.trans h.rest, fun u => ⟨(g.tile u).same.trans (h.tile u).same⟩⟩

theorem State.Reported.foldl {β : Type} {f : State → β → State} (hf : ∀ (s : State) b, s.Reported (f s b)) (l : List β) (s : State) :
    s.Reported (l.foldl f s) := by
  induction l generalizing s with
  | nil => exact .refl s
  | cons b l ih => exact (hf s b).trans (ih _)

theorem State.Reported.soundChk (h : s.Reported s') (i : Nat) : s'.soundChk i = s.soundChk i :=
  (congrArg (fun a : State => a.soundChk i) h.rest :)

theorem State.Reported.net (h : s.Reported s') : s'.net = s.net := (congrArg State.net h.rest :)

end

section

variable (s : State) (t : Nat)

theorem State.doneReport_reported : s.Reported s.doneReport := by
  unfold State.doneReport
  extract_lets v s1
  split
  · split
    · exact ⟨rfl, fun _ => ⟨rfl⟩⟩
    · exact ⟨rfl, fun _ => ⟨rfl⟩⟩
  · exact .refl s

theorem State.checkPart_reported : s.Reported (s.checkPart t) := by
  unfold State.checkPart
  extract_lets x
  split
  · refine .trans (s' := s.modTile t _) ⟨rfl, fun u => ?_⟩ (State.doneReport_reported _)
    rw [State.modTile_tile]
    split
    next hu => exact hu ▸ ⟨rfl⟩
    next => exact ⟨rfl⟩
  · exact .refl s

theorem State.checkPart_tile_ne {u : Nat} (hu : u ≠ t) : (s.checkPart t).tile u = s.tile u := by
  unfold State.checkPart
  extract_lets x
  split
  · rw [State.tile_eq_of_tiles (State.doneReport_tiles _), State.modTile_tile_ne _ _ _ _ hu]
  · rfl

end

/-! ## Route entries -/

/-- Route entry `e` of a tile, as its scratchpad stands (R160, R167). -/
def Tile.routeWords (x : Tile) (e : Nat) : List Word :=
  wordsOf ((x.rows (fld (x.reg 0x28) 0 10 + e / 8) 1).drop (64 * (e % 8))) 8

/-- A clear tile reads a route entry as it stands. -/
theorem State.routeEntry_of_clear {s : State} {c : Acct} (h : s.Clear c.t) (e : Nat) :
    ∃ s1, s.routeEntry c e = (s1, some ((s.tile c.t).routeWords e)) ∧ s.NowRead s1 c.t := by
  obtain ⟨s1, hread, hnow⟩ := State.readNow_of_clear h.acc h.parity h.noBreak (h.banks c.eng)
    (fld ((s.tile c.t).reg 0x28) 0 10 + e / 8) 1
  refine ⟨s1, ?_, hnow⟩
  rw [State.routeEntry, hread]
  rfl

/-- The check of an entry looks at the job's tiles and the fence map only (R30, R236). -/
theorem State.NowRead.routeReason {s s1 : State} {t : Nat} (h : s.NowRead s1 t) (k : List Word) (want : Option Nat) (lo rix n : Nat) :
    s1.routeReason k want lo rix n = s.routeReason k want lo rix n := by
  rw [h.rest]
  rfl

/-! ## Packets for this module -/

/-- The copies of a packet that a local entry sends from module `m`: one for each tile of its rectangles (R237, R238). -/
def localCopies (k : List Word) (m : Nat) (p : Pkt) : List Pkt :=
  (unionTiles (rRects k)).map fun u => { p with dmod := m, rects := [rectOf u] }

/-- Packets join those on the mesh. -/
def State.addPkts (s : State) (l : List Pkt) : State := s.modNet fun n => { n with pkts := n.pkts ++ l }

theorem State.sendPkt_local {k : List Word} (h : rRemote k = false) (s : State) (p : Pkt) :
    s.sendPkt k p = s.addPkts (localCopies k s.modid p) := if_neg (by rw [h]; decide)

theorem State.foldl_sendPkt_local {k : List Word} (h : rRemote k = false) (f : Nat → Pkt) (l : List Nat) (s : State) :
    l.foldl (fun s i => s.sendPkt k (f i)) s = s.addPkts (l.flatMap fun i => localCopies k s.modid (f i)) := by
  induction l generalizing s with
  | nil => simp [State.addPkts, State.modNet]
  | cons i l ih =>
    rw [List.foldl_cons, State.sendPkt_local h, ih, List.flatMap_cons, State.addPkts, State.addPkts, State.addPkts]
    simp only [State.modNet, List.append_assoc]
    rfl

end Sys2Proof.Machine

/-! # X's sends (R158, R234 to R238, R243, R248, R256) -/

namespace Sys2Proof.Machine

/-! ## At issue -/

/-- `XNORM` takes the sum of squares (R117). -/
def Tile.takeSsq (norm : Bool) (x : Tile) : Tile := if norm then x.modMisc fun m => { m with ssq := 0 } else x

/-- A send of X that has passed its checks issues: its operation joins the outbound ones, with value `v` and the words of its entry (R54,
R158). -/
def State.xsent (s : State) (i : Site) (norm : Bool) (lo n : Nat) (v : Word) (k : List Word) : State :=
  let o := i.op (s.tile i.t) [v] (k.flatMap wordBytes)
  let s1 := s.issueSeq i fun y => ((y.startOp i).modIo (TileIo.queueOut o)).takeSsq norm
  if norm then s1 else s1.addAccs i.t i.pc [{ id := o.id, eng := 5, q := 3, lo := lo, n := n, wr := false }]

section

variable {s e : State} {t key kind : Nat} {w : Word} (he : s.enter t .x = e) (h : e.Issues t .x w []) (hk : keyOf w = key)
  (hroom : (e.tile t).io.out.length < 32) (hroute : (e.tile t).hasRoute (fld w 39 8) = true) (hclear : e.Clear t)
  {norm : Bool} (hnorm : decide (key = 0xC20) = norm) {n lo : Nat} (hn : (if norm then 1 else fld w 11 8 + 1) = n)
  (hlo : fld w 29 10 + (Map.get 0 (e.tile t).sq.x.l (fld w 27 2)).toNat * fld w 19 8 = lo)
  {k : List Word} (hwords : (e.tile t).routeWords (fld w 39 8) = k)
include he h hk hroom hroute hclear hnorm hn hlo hwords

/-- A send by an entry that R236 refuses raises `DEST`. -/
theorem xsendOp_refused {r : Nat} (hr : e.routeReason k (some kind) (rDrow k) (rDrow k) n = some r) : ∃ s1, e.NowRead s1 t ∧
    xsendOp key kind t s = .next (s1.tileFault t 3 0x07 (destDetail r (fld w 39 8)) ((e.tile t).slot .x)) := by
  subst he hk hnorm hn hlo hwords
  obtain ⟨s1, hread, hnow⟩ := State.routeEntry_of_clear (c := { t := t, q := 3, eng := 8, pc := ((s.enter t .x).tile t).slot .x }) hclear
    (fld w 39 8)
  refine ⟨s1, hnow, ?_⟩
  rw [← hnow.routeReason] at hr
  rw [xsendOp, tileInsn_runs h rfl]
  dsimp only [State.site] at hr ⊢
  rw [if_neg (Nat.not_le.2 hroom), if_pos hroute, hread]
  dsimp only [andThen]
  rw [hr]

/-- A send by an entry that R236 passes is held to the plan, and issues (R256). -/
theorem xsendOp_passed (hr : e.routeReason k (some kind) (rDrow k) (rDrow k) n = none) (hfits : norm = true ∨ lo + n ≤ 768) :
    ∃ s1, e.NowRead s1 t ∧ xsendOp key kind t s = .next
      (if (e.tile t).planSent < (e.tile t).xs.sent.toNat + (e.tile t).leaving + xBytes w then
        s1.tileFault t 3 0x0D 0x03000000 ((e.tile t).slot .x)
      else s1.xsent (e.site t .x w) norm lo n (if norm then place 0 32 (fld (e.tile t).misc.ssq 0 32) else BitVec.ofNat 64 lo) k) := by
  subst he hk hlo hwords
  obtain ⟨s1, hread, hnow⟩ := State.routeEntry_of_clear (c := { t := t, q := 3, eng := 8, pc := ((s.enter t .x).tile t).slot .x }) hclear
    (fld w 39 8)
  refine ⟨s1, hnow, ?_⟩
  rw [← hnow.routeReason] at hr
  have hrows : (if norm = true then [] else
      [spRun (fld w 29 10 + (Map.get 0 ((s.enter t .x).tile t).sq.x.l (fld w 27 2)).toNat * fld w 19 8) n]).findSome? id = none := by
    split
    · rfl
    · next hnot =>
      rw [List.findSome?_cons, spRun, runBad, if_neg (Nat.not_lt.2 (hfits.resolve_left hnot))]
      rfl
  rw [xsendOp, tileInsn_runs h rfl]
  dsimp only [State.site] at hr hrows ⊢
  rw [if_neg (Nat.not_le.2 hroom), if_pos hroute, hread]
  dsimp only [andThen]
  rw [hnorm, hn, hr]
  refine congrArg _ ((State.rowCheck_of_good hrows _ _).trans (congrArg (ite _ _) ?_))
  rfl

end

/-- What a send of X that issues leaves: its operation in flight, X one slot on, the sum of squares taken by `XNORM` (R54, R117, R158). -/
structure State.XSent (s s' : State) (t : Nat) (norm : Bool) (o : Op) : Prop where
  out : (s'.tile t).io.out = (s.tile t).io.out ++ [o]
  ssq : (s'.tile t).misc.ssq = if norm then 0 else (s.tile t).misc.ssq
  sq : (s'.tile t).sq = { (s.tile t).sq with x := { (s.tile t).sq.x with
    pc := s.nextPc t .x, last := BitVec.ofNat 13 ((s.tile t).slot .x) } }
  sp : (s'.tile t).sp = (s.tile t).sp
  net : s'.net = s.net
  job : s'.job = s.job
  tiles : ∀ u, u ≠ t → s'.tile u = s.tile u

theorem Tile.takeSsq_eq (x : Tile) (norm : Bool) :
    x.takeSsq norm = { x with misc := { x.misc with ssq := if norm then 0 else x.misc.ssq } } := by
  cases norm <;> rfl

section

variable {s s' : State} {t : Nat} {norm : Bool} {o : Op}

/-- The note of the rows that a send reads changes nothing else. -/
theorem State.XSent.addAccs (h : s.XSent s' t norm o) (hsound : s.soundChk 0 = false) (pc : Nat) (l : List Acc) :
    s.XSent (s'.addAccs t pc l) t norm o := by
  have htile := (s'.setTile_tile_self t (l.foldl Tile.addAcc (s'.tile t))).trans (Tile.foldl_addAcc_eq l _)
  have htiles : ∀ u, u ≠ t → (s'.setTile t (l.foldl Tile.addAcc (s'.tile t))).tile u = s'.tile u := fun u hu => by
    rw [State.setTile_tile, if_neg hu]
  rw [State.addAccs_of_no_sound ((State.soundChk_of_job h.job 0).trans hsound)]
  generalize (l.foldl Tile.addAcc (s'.tile t)).io.acc = joint at htile
  refine ⟨?_, ?_, ?_, ?_, h.net, h.job, fun u hu => (htiles u hu).trans (h.tiles u hu)⟩ <;> rw [htile]
  · exact h.out
  · exact h.ssq
  · exact h.sq
  · exact h.sp

/-- A send after its entry was read. -/
theorem State.XSent.of_nowRead {s1 : State} (hnow : s.NowRead s1 t) (h : s1.XSent s' t norm o) : s.XSent s' t norm o := by
  have hout : (s1.tile t).io.out = (s.tile t).io.out := by rw [hnow.tile.io]; rfl
  have hssq : (s1.tile t).misc.ssq = (s.tile t).misc.ssq := hnow.tile.ssq
  have hsq : (s1.tile t).sq = (s.tile t).sq := hnow.tile.sq
  refine ⟨hout ▸ h.out, hssq ▸ h.ssq, ?_, h.sp.trans hnow.tile.sp, h.net.trans (by rw [hnow.rest]), h.job.trans hnow.job,
    fun u hu => (h.tiles u hu).trans (hnow.tiles u hu)⟩
  rw [h.sq, hnow.nextPc, hnow.slot, hsq]

theorem State.xsent_xSent (s : State) (t : Nat) {w : Word} (norm : Bool) (lo n : Nat) (v : Word) (k : List Word) (hmark : bit w 51 = false)
    (hsound : s.soundChk 0 = false) :
    s.XSent (s.xsent (s.site t .x w) norm lo n v k) t norm (s.opOf t .x w [v] (k.flatMap wordBytes)) := by
  have hissued : s.XSent (s.issueSeq (s.site t .x w) fun y => ((y.startOp (s.site t .x w)).modIo
      (TileIo.queueOut (s.opOf t .x w [v] (k.flatMap wordBytes)))).takeSsq norm) t norm (s.opOf t .x w [v] (k.flatMap wordBytes)) := by
    have htile := s.issueSeq_tile t .x w fun y => ((y.startOp (s.site t .x w)).modIo
      (TileIo.queueOut (s.opOf t .x w [v] (k.flatMap wordBytes)))).takeSsq norm
    have hrest := s.issueSeq_sameBut t .x w fun y => ((y.startOp (s.site t .x w)).modIo
      (TileIo.queueOut (s.opOf t .x w [v] (k.flatMap wordBytes)))).takeSsq norm
    have hdata := (s.tile t).issue_data (s.site t .x w) (s.nextPc t .x)
    have hsq := (s.tile t).issue_sq_x (i := s.site t .x w) (s.nextPc t .x) rfl
    rw [Tile.startOp_of_no_mark _ (i := s.site t .x w) hmark, Tile.takeSsq_eq] at htile
    generalize (s.tile t).issue (s.site t .x w) (s.nextPc t .x) = x at htile hdata hsq
    refine ⟨?_, ?_, ?_, ?_, hrest.net, hrest.job, hrest.tiles⟩ <;> rw [htile]
    · exact (congrArg (fun io : TileIo => io.out ++ [s.opOf t .x w [v] (k.flatMap wordBytes)]) hdata.io :)
    · exact (congrArg (fun m : TileMisc => if norm then 0 else m.ssq) hdata.misc :)
    · exact hsq
    · exact hdata.sp.1
  unfold State.xsent
  extract_lets o s1
  split
  · exact hissued
  · exact hissued.addAccs hsound _ _

end

/-! ## At completion -/

/-- The check values of a packet come from the tile's seals (R250). -/
theorem Tile.rowPkt_congr {x y : Tile} (hv : y.misc.sealV = x.misc.sealV) (he : y.misc.sealE = x.misc.sealE) : y.rowPkt = x.rowPkt := by
  funext k proto lo n b i
  rw [Tile.rowPkt, Tile.rowPkt, hv, he]

theorem State.sentCheck_of_no_sound {s : State} (h : s.soundChk 2 = false) (t lo n : Nat) : s.sentCheck t lo n = s := by
  unfold State.sentCheck
  split
  · exact if_neg (by rw [h]; decide)
  · rfl

/-- A send of X leaves the port: its operation and its rows are no longer in flight, its bytes are counted (R234). -/
def Tile.leaveX (o : Op) (x : Tile) : Tile :=
  ((x.dropAcc o.id).modIo (TileIo.leaveOut o)).modXs fun v => { v with sent := v.sent + BitVec.ofNat 32 (xBytes o.w) }

def State.xLeaves (s : State) (t : Nat) (o : Op) : State := (s.modTile t (Tile.leaveX o)).modTile t fun y => y.modXs id

theorem xBytes_of_rows {w : Word} (h : fld w 56 8 = 0xC0 ∨ fld w 56 8 = 0xC1) : xBytes w = 512 * (fld w 11 8 + 1) :=
  if_neg (by omega)

section

variable {s : State} {t : Nat} {o : Op} {rest : List Op} (ht : t < 2304) (hs : s.sameTick = false) (hout : (s.tile t).io.out = o :: rest)
  (hop : fld o.w 56 8 = 0xC0 ∨ fld o.w 56 8 = 0xC1)
include ht hs hout hop

theorem sendComplete_of_x : exec (.sendComplete t) s = .next (s.xsendEnd t o) := by
  show execSendComplete t s = _
  rw [execSendComplete, if_neg (Nat.not_le.2 ht), alongside_eq _ hs, hout]
  exact if_neg (by omega)

/-- The rows of a send by a local entry leave as packets (R237, R238, R243). -/
theorem sendComplete_sendsRows (hquiet : s.Quiet t o.id) (hsound : s.soundChk 2 = false) {k : List Word} (hk : wordsOf o.dat 8 = k)
    (hlocal : rRemote k = false) {n lo : Nat} (hn : fld o.w 11 8 + 1 = n) (hlo : (o.v.headD 0).toNat = lo) {proto : Pkt}
    (hproto : { smod := s.modid, stile := t, src := t, int := decide (fld o.w 56 8 = 0xC1) && bit o.w 10 } = proto) :
    ∃ s1, s.Accessed s1 t ∧ (s1.tile t).sp = (s.tile t).sp ∧ s1.net = s.net ∧ exec (.sendComplete t) s = .next
      (((s1.xLeaves t o).addPkts
        ((List.range n).flatMap fun i => localCopies k s.modid ((s.tile t).rowPkt k proto lo n ((s.tile t).rows lo n) i))).checkPart t) := by
  subst hk hn hlo
  obtain ⟨c, hc⟩ : ∃ c : Acct, c = { t := t, q := 3, eng := 5, pc := o.pc } := ⟨_, rfl⟩
  obtain rfl : c.t = t := congrArg Acct.t hc
  have hread := State.opRead_reads hquiet (o.v.headD 0).toNat (fld o.w 11 8 + 1)
  have hquietRead := State.opRead_of_quiet hquiet (o.v.headD 0).toNat (fld o.w 11 8 + 1)
  obtain ⟨hsealV, hsealE⟩ := (s.tile c.t).noteRead_seals c (o.v.headD 0).toNat (fld o.w 11 8 + 1)
  have hnet : (s.opRead c o.id (o.v.headD 0).toNat (fld o.w 11 8 + 1)).1.net = s.net := by
    rw [hquietRead]
    rfl
  have htile : (s.opRead c o.id (o.v.headD 0).toNat (fld o.w 11 8 + 1)).1.tile c.t =
      (s.tile c.t).noteRead c (o.v.headD 0).toNat (fld o.w 11 8 + 1) := by
    rw [hquietRead]
    exact State.setTile_tile_self _ _ _
  rw [← htile] at hsealV hsealE
  rw [sendComplete_of_x ht hs hout hop]
  refine ⟨_, hread.toAccessed, hread.sp, hnet, ?_⟩
  unfold State.xsendEnd
  dsimp only
  rw [if_neg (by omega), ← hc, hproto, hread.andThen_eq, State.foldl_sendPkt_local hlocal, Tile.rowPkt_congr hsealV hsealE]
  have hsound1 := (State.soundChk_of_job hread.job 2).trans hsound
  clear hsealV hsealE htile hquietRead
  generalize (s.opRead c o.id (o.v.headD 0).toNat (fld o.w 11 8 + 1)).1 = s1 at hsound1 hnet ⊢
  have hrows : (fun v : TileX => { v with sentRows := if s1.soundChk 2 = true then
      v.sentRows ++ (List.range (fld o.w 11 8 + 1)).map ((o.v.headD 0).toNat + ·) else v.sentRows }) = id := by
    rw [hsound1]
    rfl
  have hmod : (s1.xLeaves c.t o).modid = s.modid := congrArg (fun n : Net => fld n.modid 0 10) hnet
  simp only [hrows]
  rw [State.sentCheck_of_no_sound, ← hmod]
  · rfl
  · rw [(State.checkPart_reported _ _).soundChk]
    exact hsound1

end

theorem State.addPkts_tile (s : State) (l : List Pkt) (u : Nat) : (s.addPkts l).tile u = s.tile u := rfl

theorem State.xLeaves_tile (s : State) (t : Nat) (o : Op) : (s.xLeaves t o).tile t = (s.tile t).leaveX o := by
  rw [State.xLeaves, State.modTile_tile_self, State.modTile_tile_self]
  rfl

theorem State.xLeaves_tile_ne (s : State) {t u : Nat} (o : Op) (h : u ≠ t) : (s.xLeaves t o).tile u = s.tile u := by
  rw [State.xLeaves, State.modTile_tile_ne _ _ _ _ h, State.modTile_tile_ne _ _ _ _ h]

/-- What a send of X that leaves, and a look at the tile's part, change of the tile. -/
theorem Tile.Accessed.leaveX {x y z : Tile} (hacc : x.Accessed y) {o : Op} (h : (y.leaveX o).Parted z) :
    z.io.out = (x.io.leaveOut o).out ∧ z.xs.sent = x.xs.sent + BitVec.ofNat 32 (xBytes o.w) ∧ z.sp = y.sp ∧ z.sq = x.sq := by
  have hxs : y.xs = x.xs := hacc.reads Tile.xs
  have hadd : (y.leaveX o).xs.sent = y.xs.sent + BitVec.ofNat 32 (xBytes o.w) := rfl
  refine ⟨?_, ?_, h.sp, h.sq.trans hacc.sq⟩
  · rw [h.io, ← hacc.io]
    rfl
  · rw [h.sent, hadd, hxs]

/-- The sends of X with their keys and the kind of entry they ask for (R158). -/
theorem exec_xsends (t : Nat) (s : State) : ∀ e ∈ ([(0xC00, Instr.xsend, 0), (0xC10, .xrsend, 1), (0xC20, .xnorm, 1)] :
    List (Nat × (Nat → Instr) × Nat)), exec (e.2.1 t) s = xsendOp e.1 e.2.2 t s ∧
      ∀ w, keyOf w = e.1 → markable (fld w 56 8) = false := by
  intro e he
  have hop : ∀ {k op : Nat}, markable op = false → k / 16 = op → ∀ w, keyOf w = k → markable (fld w 56 8) = false :=
    fun hmark hdiv w hk => by rw [opcode_of_key hk hdiv, hmark]
  simp only [List.mem_cons, List.not_mem_nil, or_false] at he
  rcases he with rfl | rfl | rfl
  · exact ⟨rfl, hop (op := 0xC0) (by decide) (by decide)⟩
  · exact ⟨rfl, hop (op := 0xC1) (by decide) (by decide)⟩
  · exact ⟨rfl, hop (op := 0xC2) (by decide) (by decide)⟩

/-- Settles O36: the entry, the rows and the plan are checked in this order; what completes is read, counted and sent. -/
theorem xSends : Obligations.XSends := by
  unfold Obligations.XSends
  refine ⟨fun e he s₀ t w hk => ?issue, fun s t o rest ht hs hout hids hquiet hsound hop => ?complete⟩
  case issue =>
    intro s h hclear hsound hroom hroute x en k norm n lo reason faults
    obtain ⟨hexec, hplain⟩ := exec_xsends t s₀ e he
    have hmark : bit w 51 = false := no_mark_of_legal h.legal (hplain w hk)
    have hfaults : ∀ {s1 : State} {cause detail : Nat}, s.NowRead s1 t →
        xsendOp e.1 e.2.2 t s₀ = .next (s1.tileFault t 3 cause detail (x.slot .x)) → faults cause detail := fun hnow hrun =>
      ⟨_, hexec.trans hrun, (State.tileFault_tile_fault _ _ _ _ _ _).trans (by rw [hnow.fault])⟩
    refine ⟨fun r hr => ?refused, fun hr hfits => ?passed⟩
    case refused =>
      obtain ⟨s1, hnow, hrun⟩ := xsendOp_refused (e := s) rfl h hk hroom hroute hclear (norm := norm) rfl (n := n) rfl
        (lo := lo) rfl (k := k) rfl hr
      exact hfaults hnow hrun
    case passed =>
      obtain ⟨s1, hnow, hrun⟩ := xsendOp_passed (e := s) rfl h hk hroom hroute hclear (norm := norm) rfl (n := n) rfl
        (lo := lo) rfl (k := k) rfl hr hfits
      refine ⟨fun hmany => ?_, fun hplan => ?_⟩
      · rw [if_pos hmany] at hrun
        exact hfaults hnow hrun
      · rw [if_neg (Nat.not_lt.2 hplan), ← hnow.site] at hrun
        have hsent := (State.xsent_xSent s1 t norm lo n
          (if norm then place 0 32 (fld (s.tile t).misc.ssq 0 32) else BitVec.ofNat 64 lo) k hmark
          ((State.soundChk_of_job hnow.job 0).trans hsound)).of_nowRead hnow
        exact ⟨_, _, hexec.trans hrun, hsent.out, rfl, rfl, rfl, rfl, hsent.ssq, hsent.sq, hsent.sp, hsent.net, hsent.job, hsent.tiles⟩
  case complete =>
    intro x k n lo proto hlocal
    obtain ⟨s1, hacc, hsp, hnet, hrun⟩ := sendComplete_sendsRows ht hs hout hop hquiet hsound (k := k) rfl hlocal (n := n) rfl (lo := lo) rfl
      (proto := proto) rfl
    have hdone := State.checkPart_reported ((s1.xLeaves t o).addPkts
      ((List.range n).flatMap fun i => localCopies k s.modid (x.rowPkt k proto lo n (x.rows lo n) i))) t
    have htiles : ∀ u, u ≠ t → (((s1.xLeaves t o).addPkts
        ((List.range n).flatMap fun i => localCopies k s.modid (x.rowPkt k proto lo n (x.rows lo n) i))).checkPart t).tile u = s.tile u :=
      fun u hu => (State.checkPart_tile_ne _ t hu).trans ((s1.xLeaves_tile_ne o hu).trans (hacc.tiles u hu))
    generalize State.checkPart _ t = s' at hrun hdone htiles
    obtain ⟨hout', hsent, hsp', hsq⟩ := hacc.tile.leaveX (s1.xLeaves_tile t o ▸ hdone.tile t)
    rw [TileIo.leaveOut_out hout hids] at hout'
    rw [xBytes_of_rows hop] at hsent
    exact ⟨s', hrun, hout', hsent, hsp'.trans hsp, hsq, hdone.net ▸ congrArg (fun m : Net => m.pkts ++ _) hnet, htiles⟩

end Sys2Proof.Machine

/-! # Rows land (R226, R234, R237, R242, R250, R251, R256, R443) -/

namespace Sys2Proof.Machine

/-! ## A write of whole rows at once -/

/-- Between `s` and `s1` rows of tile `t` have been written at once from row `lo`: beside them only the accounting of the access and the
tile's operation number moved on. -/
structure State.NowWrote (s s1 : State) (t lo : Nat) (b : List Byte) : Prop where
  tile : ((s.tile t).modIo fun io => { io with nextId := io.nextId + 1 }).Accessed (s1.tile t)
  wrote : (s.tile t).Wrote (s1.tile t) lo b
  tiles : ∀ u, u ≠ t → s1.tile u = s.tile u
  rest : s1 = { s with tiles := s1.tiles, free := s1.free }

/-- In a clear tile whole rows are written as given. -/
theorem State.writeNow_of_clear {s : State} {c : Acct} (h : s.Clear c.t) (lo : Nat) {b : List Byte} {n : Nat} (hb : b.length = 512 * n) :
    s.NowWrote (s.writeNow c lo b) c.t lo b := by
  have hn : b.length / 512 = n := by omega
  obtain ⟨s0, htouch, htile, htiles, hrest⟩ := s.touch_of_no_acc h.acc lo n true
  have hdbg : s0.dbg = s.dbg := by rw [hrest]
  have hnoted := Tile.noteWrite_noted (x := s0.tile c.t) (by rw [htile]; exact h.parity) lo n
  have hfree : ∀ row, (s0.tile c.t).foreign c.eng row = false := fun row => by rw [htile]; exact h.banks c.eng row
  have hsp : ((s0.tile c.t).noteWrite lo n).sp = (s.tile c.t).sp := by rw [hnoted.sp, htile]; rfl
  unfold State.writeNow State.writeRows
  rw [hn, htouch]
  dsimp only
  rw [State.watch_of_no_break (s := s0.setTile c.t _) (hdbg ▸ h.noBreak)]
  simp only [List.contains_nil, hfree, Bool.or_false, Bool.false_eq_true, if_false, flatMap_pieces hb, hsp]
  refine ⟨?_, ?_, fun u hu => ?_, ?_⟩
  · rw [State.took_tile, State.setTile_tile_self, ← htile]
    exact ⟨hnoted.same, hnoted.ctr⟩
  · rw [State.took_tile, State.setTile_tile_self]
    exact ⟨Map.slice_setRange_self _ _ _ _, fun k hk => Map.get_setRange_outside _ _ hk⟩
  · rw [State.took_tile, State.setTile_tile, if_neg hu, htiles u hu]
  · rw [hrest]
    rfl

/-! ## Bytes received -/

section

variable {s : State} {t : Nat} (hbad : (s.tile t).spBad = [])
include hbad

/-- Bytes beyond the plan are an overrun (R256). -/
theorem State.addRecv_beyond {n : Nat} (h : (s.tile t).planRecv < (s.tile t).xs.recv.toNat + n) :
    s.addRecv t n = (s.tileFault t 4 0x0D 0x02000000 0, false) := by
  unfold State.addRecv
  dsimp only
  rw [if_neg (by simp [Tile.badRow, hbad]), if_pos h]

/-- Bytes within the plan are counted (R234). -/
theorem State.addRecv_within {n : Nat} (h : (s.tile t).xs.recv.toNat + n ≤ (s.tile t).planRecv) :
    s.addRecv t n = (s.modTile t fun x => x.modXs fun v => { v with recv := v.recv + BitVec.ofNat 32 n }, true) := by
  unfold State.addRecv
  dsimp only
  rw [if_neg (by simp [Tile.badRow, hbad]), if_neg (Nat.not_lt.2 h)]

end

theorem State.Clear.modXs {s : State} {t : Nat} (h : s.Clear t) (f : TileX → TileX) : (s.modTile t fun x => x.modXs f).Clear t := by
  have htile := s.modTile_tile_self t fun x => x.modXs f
  refine ⟨?_, ?_, h.noBreak, fun eng row => ?_⟩ <;> rw [htile]
  · exact h.acc
  · exact h.parity
  · exact h.banks eng row

/-! ## A row at its tile -/

/-- What a row that lands at row `row` leaves of its tile, before its block is looked at: the row in place, its bytes counted. -/
structure Tile.RowIn (x y : Tile) (row : Nat) (d : List Byte) : Prop where
  wrote : x.Wrote y row d
  recv : y.xs.recv = x.xs.recv + 512
  sq : y.sq = x.sq
  am : y.am = x.am
  fault : y.fault = x.fault

theorem Tile.rowIn_of_accessed {x y : Tile} {row : Nat} {d : List Byte} {f g : TileX → TileX}
    (hacc : ((x.modXs g).modIo fun io => { io with nextId := io.nextId + 1 }).Accessed y) (hwrote : (x.modXs g).Wrote y row d)
    (hg : (g x.xs).recv = x.xs.recv + 512) (hf : (f y.xs).recv = y.xs.recv) : x.RowIn (y.modXs f) row d where
  wrote := hwrote.congr rfl rfl
  recv := hf.trans ((hacc.reads fun x => x.xs.recv).trans hg)
  sq := hacc.sq
  am := hacc.am
  fault := hacc.reads Tile.fault

/-- What a row that lands at tile `t` leaves of the module, before its block is looked at. -/
structure State.RowIn (s s' : State) (t row : Nat) (d : List Byte) : Prop where
  tile : (s.tile t).RowIn (s'.tile t) row d
  net : s'.net = s.net
  tiles : ∀ u, u ≠ t → s'.tile u = s.tile u

/-- The block that one aligned seal group is seals it (R119, R251). -/
def Tile.sealBlock (b : Blk) (crc : W32) (x : Tile) : Tile := x.modMisc fun m => { m with
  sealE := Map.set 0 m.sealE (b.row0 / 8) crc
  sealV := Map.set false m.sealV (b.row0 / 8) true }

/-- The rows of a block whose check value mismatches are free (R251). -/
def State.spoilBlock (s : State) (t : Nat) (b : Blk) : State :=
  (s.modTile t fun y => { y with sp := Map.setRange 0 y.sp (512 * b.row0) (s.freeBytes (512 * (b.data.length / 512))) }).took

theorem State.hazard_of_no_sound {s : State} (h : s.soundChk 2 = false) (t kind detail : Nat) : s.hazard t kind detail = s :=
  if_neg (by rw [h]; decide)

section

variable {s : State} {t row : Nat} {key : List Nat} {p : Pkt} (hclear : s.Clear t)
include hclear

theorem State.landRow_beyond (h : (s.tile t).planRecv < (s.tile t).xs.recv.toNat + 512) :
    s.landRow t row key p = s.tileFault t 4 0x0D 0x02000000 0 := by
  unfold State.landRow
  rw [State.addRecv_beyond hclear.parity h]
  rfl

/-- A row of four flits within the plan is written and counted; then its block is looked at, if it is the last (R237, R250, R251). -/
theorem State.landRow_within (hsound2 : s.soundChk 2 = false) (hone : p.one = false)
    (h : (s.tile t).xs.recv.toNat + 512 ≤ (s.tile t).planRecv) {b : Blk}
    (hb : (growBlk (s.tile t).xs.blks key row p.first 512 p.data).1 = b) :
    ∃ s1, s.RowIn s1 t row (padTo 512 p.data) ∧ s.landRow t row key p =
      if p.last then
        if crc32c b.data = p.crc then
          (if b.row0 % 8 = 0 ∧ b.data.length = 4096 then s1.modTile t (Tile.sealBlock b p.crc) else s1).checkPart t
        else
          (s1.spoilBlock t b).tileFault t 4 0x0A (xCrcDetail 7 b.row0) 0
      else s1.checkPart t := by
  have hrecv := State.addRecv_within hclear.parity h
  unfold State.landRow
  extract_lets r s1 v g src b' s2 s3 whole n s4
  have hr : r = (s.modTile t fun x => x.modXs fun v => { v with recv := v.recv + 512 }, true) := hrecv
  have htile : r.1.tile t = (s.tile t).modXs fun v => { v with recv := v.recv + 512 } := by
    rw [hr]
    exact s.modTile_tile_self t _
  have hwritten : r.1.NowWrote s1 t row (padTo 512 p.data) :=
    State.writeNow_of_clear (c := { t := t, q := 4, eng := 5, pc := 0 }) (hr ▸ hclear.modXs _) row (n := 1) (padTo_length _ _)
  have hs1 : s1.job = s.job ∧ s1.net = s.net := by
    rw [hwritten.rest, hr]
    exact ⟨rfl, rfl⟩
  have hblock : b' = b := by
    rw [← hb]
    simp only [b', g, v, hone, Bool.false_eq_true, if_false]
  have hlanded : s.RowIn s2 t row (padTo 512 p.data) := by
    have hacc := hwritten.tile
    have hwrote := hwritten.wrote
    rw [htile] at hacc hwrote
    refine ⟨?_, hs1.2, fun u hu => ?_⟩
    · rw [State.modTile_tile_self]
      exact Tile.rowIn_of_accessed hacc hwrote rfl rfl
    · rw [State.modTile_tile_ne _ _ _ _ hu, hwritten.tiles u hu, hr, State.modTile_tile_ne _ _ _ _ hu]
  have hjob : s2.job = s.job := hs1.1
  have hsound : s2.soundChk 2 = false := (State.soundChk_of_job hjob 2).trans hsound2
  have hs3 : s3 = s2 := by
    simp only [s3, State.hazard_of_no_sound hsound, ite_self]
  refine ⟨s2, hlanded, ?_⟩
  rw [if_pos (congrArg Prod.snd hr)]
  simp only [s4, n, whole, hs3, hblock, hone, and_true, decide_eq_true_eq, Bool.false_eq_true, if_false]
  rfl

end

theorem Tile.RowIn.sealBlock {x y : Tile} {row : Nat} {d : List Byte} (h : x.RowIn y row d) (b : Blk) (crc : W32) :
    x.RowIn (y.sealBlock b crc) row d :=
  ⟨h.wrote.congr rfl rfl, h.recv, h.sq, h.am, h.fault⟩

theorem Tile.sealBlock_sealed (x : Tile) (b : Blk) (crc : W32) :
    Map.get false (x.sealBlock b crc).misc.sealV (b.row0 / 8) = true ∧ Map.get 0 (x.sealBlock b crc).misc.sealE (b.row0 / 8) = crc :=
  ⟨Map.get_set_self _ _ _ _, Map.get_set_self _ _ _ _⟩

theorem Tile.RowIn.parted {x y z : Tile} {row : Nat} {d : List Byte} (h : x.RowIn y row d) (g : y.Parted z) : x.RowIn z row d :=
  ⟨h.wrote.congr rfl g.sp, g.recv.trans h.recv, g.sq.trans h.sq, g.am.trans h.am, (g.reads Tile.fault).trans h.fault⟩

section

variable {s s1 : State} {t row : Nat} {d : List Byte} (h : s.RowIn s1 t row d)
include h

theorem State.RowIn.sealBlock (b : Blk) (crc : W32) : s.RowIn (s1.modTile t (Tile.sealBlock b crc)) t row d where
  tile := (s1.modTile_tile_self t _).symm ▸ h.tile.sealBlock b crc
  net := h.net
  tiles u hu := (s1.modTile_tile_ne t u _ hu).trans (h.tiles u hu)

theorem State.RowIn.checkPart : s.RowIn (s1.checkPart t) t row d where
  tile := h.tile.parted ((s1.checkPart_reported t).tile t)
  net := (s1.checkPart_reported t).net.trans h.net
  tiles u hu := (s1.checkPart_tile_ne t hu).trans (h.tiles u hu)

theorem State.RowIn.spoilBlock_fault (b : Blk) : ((s1.spoilBlock t b).tile t).fault = (s.tile t).fault := by
  unfold State.spoilBlock
  rw [State.took_tile, State.modTile_tile_self]
  exact h.tile.fault

end

section

variable {s : State} {t row : Nat} {key : List Nat} {p : Pkt} (hclear : s.Clear t) (hsound : s.soundChk 2 = false) (hone : p.one = false)
  (hplan : (s.tile t).xs.recv.toNat + 512 ≤ (s.tile t).planRecv) {b : Blk}
  (hb : (growBlk (s.tile t).xs.blks key row p.first 512 p.data).1 = b)
include hclear hsound hone hplan hb

/-- Within the plan, a row that is not the last of its block or whose block's check value matches is in place and counted; a whole
aligned block seals its group (R237, R250, R251). -/
theorem State.landRow_lands (hgood : p.last = false ∨ crc32c b.data = p.crc) :
    s.RowIn (s.landRow t row key p) t row (padTo 512 p.data) ∧ (p.last = true → b.row0 % 8 = 0 → b.data.length = 4096 →
      Map.get false ((s.landRow t row key p).tile t).misc.sealV (b.row0 / 8) = true ∧
      Map.get 0 ((s.landRow t row key p).tile t).misc.sealE (b.row0 / 8) = p.crc) := by
  obtain ⟨s1, hin, heq⟩ := State.landRow_within hclear hsound hone hplan hb
  rw [heq]
  cases hlast : p.last with
  | false => exact ⟨hin.checkPart, nofun⟩
  | true =>
    have hcrc : crc32c b.data = p.crc := hgood.resolve_left (by simp [hlast])
    rw [if_pos rfl, if_pos hcrc]
    split
    next =>
      refine ⟨(hin.sealBlock b p.crc).checkPart, fun _ _ _ => ?_⟩
      rw [((State.checkPart_reported _ t).tile t).misc, State.modTile_tile_self]
      exact Tile.sealBlock_sealed _ b p.crc
    next hwhole => exact ⟨hin.checkPart, fun _ h8 hlen => absurd ⟨h8, hlen⟩ hwhole⟩

/-- A block whose check value mismatches is a fault at its last row (R251). -/
theorem State.landRow_mismatch (hlast : p.last = true) (hcrc : crc32c b.data ≠ p.crc) :
    ((s.landRow t row key p).tile t).fault = tileFaultWord (s.tile t).fault 4 0x0A (xCrcDetail 7 b.row0) 0 := by
  obtain ⟨s1, hin, heq⟩ := State.landRow_within hclear hsound hone hplan hb
  rw [heq, if_pos hlast, if_neg hcrc, State.tileFault_tile_fault, hin.spoilBlock_fault]

end

/-! ## EXCHANGE_LANDING -/

theorem State.Clear.dropPkt {s : State} {t : Nat} (h : s.Clear t) (i : Nat) : (s.dropPkt i).Clear t :=
  ⟨h.acc, h.parity, h.noBreak, h.banks⟩

section

variable {s : State} {i : Nat} {p : Pkt} (hp : s.net.pkts[i]? = some p)
include hp

theorem exchangeLanding_meshErr (m : MeshErr) :
    exec (.exchangeLanding i (some m)) s = .next (if (m.rtr, m.lnk) ∈ meshPath p.src p.tile then (s.dropPkt i).meshCrc m else s) := by
  show execExchangeLanding i (some m) s = _
  unfold execExchangeLanding
  rw [hp]
  simp only [List.contains_iff_mem]
  split <;> rfl

theorem exchangeLanding_stays (h : s.pktFirst i p = false ∨ s.landsAt p.tile = false) : exec (.exchangeLanding i none) s = .next s := by
  show execExchangeLanding i none s = _
  unfold execExchangeLanding
  rw [hp]
  refine if_pos (.inr ?_)
  simpa using h

theorem exchangeLanding_runs (hkind : p.kind = 0) (hfirst : s.pktFirst i p = true) (hlands : s.landsAt p.tile = true)
    (htick : s.sameTick = false) :
    exec (.exchangeLanding i none) s = .next ((s.dropPkt i).landRow p.tile p.row [p.smod, p.stile, 0] p) := by
  show execExchangeLanding i none s = _
  unfold execExchangeLanding
  rw [hp]
  dsimp only
  rw [if_neg (by simp [hkind, hfirst, hlands]), alongside_eq _ htick]

end

/-- Settles O37: a row within the plan is written and counted before its block is looked at; what follows touches neither. -/
theorem rowsLand : Obligations.RowsLand := by
  refine ⟨fun s i p m hp => exchangeLanding_meshErr hp m, fun s i p hp hkind => ⟨exchangeLanding_stays hp, ?_⟩⟩
  intro hfirst hlands htick hone hclear _ hsound t x b
  rw [exchangeLanding_runs hp hkind hfirst hlands htick]
  have hdrop := hclear.dropPkt i
  refine ⟨fun hover => ⟨_, rfl, ?_⟩, fun hplan => ⟨fun hgood => ⟨_, rfl, ?_⟩, fun hlast hcrc => ⟨_, rfl, ?_⟩⟩⟩
  · rw [State.landRow_beyond hdrop hover]
    exact State.tileFault_tile_fault ..
  · obtain ⟨hin, hseal⟩ := State.landRow_lands hdrop hsound hone hplan (b := b) rfl hgood
    exact ⟨hin.tile.wrote, hin.tile.recv, congrArg Net.pkts hin.net, hin.tile.sq, hin.tile.am, hseal, hin.tiles⟩
  · exact State.landRow_mismatch hdrop hsound hone hplan (b := b) rfl hlast hcrc

end Sys2Proof.Machine

/-! # The combine unit (R243 to R251, R256, R301, R302, R501, R549) -/

namespace Sys2Proof.Machine

theorem Tile.badRow_of_good {x : Tile} (h : x.spBad = []) (lo n : Nat) : x.badRow lo n = none := by
  simp [Tile.badRow, h]

theorem Map.get_ctrAdd_self (m : Map Word) (off n : Nat) : Map.get 0 (ctrAdd m off n) off = Map.get 0 m off + BitVec.ofNat 64 n :=
  Map.get_set_self _ _ _ _

/-! ## A contribution arrives -/

/-- The rows and blocks of a combine unit, and the saturations counted, once a contribution is taken (R245, R249). -/
def Tile.takeRows (rows : List MeetRow) (blks : List Blk) (sat : Nat) (x : Tile) : Tile :=
  (x.modXs fun v => { v with rows := rows, blks := blks }).count 0x310 sat

section

variable {s : State} {i : Nat} {p : Pkt} {w : Word} {m : MeetRow} (hgood : (s.tile p.tile).spBad = [])
  (hw : (s.tile p.tile).meetWord p.meete = w) (hm : findMeet (s.tile p.tile).xs.rows p.meete p.rix = m)
include hgood hw hm

/-- A contribution to no entry, of a reserved kind, beyond the fan-in or come before is an overrun (R256). -/
theorem State.contribute_refused (h : (s.tile p.tile).meetCount ≤ p.meete ∨ mKind w = 3 ∨ mFan w ≤ p.cix ∨ p.cix ∈ m.got) :
    s.contribute i p = (s.dropPkt i).tileFault p.tile 4 0x0D (meetDetail 5 p.meete p.rix) 0 := by
  unfold State.contribute
  extract_lets t x s0 bad w' m' rows size g r ty
  by_cases hcount : x.meetCount ≤ p.meete
  · exact if_pos hcount
  · rw [if_neg hcount, if_neg (by simp [x, t, Tile.badRow_of_good hgood]), if_pos]
    simpa [w', m', x, t, hw, hm] using h.resolve_left hcount

/-- One of the others waits, or is noted, or reaches its sums with the last row of a block whose check value matches (R245, R246, R251). -/
theorem State.contribute_taken (hcount : p.meete < (s.tile p.tile).meetCount) (hkind : mKind w ≠ 3) (hfan : p.cix < mFan w)
    (hnew : p.cix ∉ m.got) {size : Nat} (hsize : (if p.one then 128 else 512) = size) {g : Blk × List Blk}
    (hg : growBlk (s.tile p.tile).xs.blks [p.smod, p.stile, 1, p.meete, p.cix] p.rix p.first size p.data = g) {noted : List MeetRow}
    (hnoted : setMeet (s.tile p.tile).xs.rows (m.note (mInt w) p) = noted) :
    (s.pktWaits p = true → s.contribute i p = s) ∧
    (s.pktWaits p = false → p.last = true → crc32c g.1.data ≠ p.crc →
      s.contribute i p = (s.dropPkt i).tileFault p.tile 4 0x0A (xCrcDetail 8 g.1.row0) 0) ∧
    (s.pktWaits p = false → p.int = mInt w → p.last = false →
      s.contribute i p = (s.dropPkt i).modTile p.tile fun y => y.modXs fun v => { v with rows := noted, blks := g.2 ++ [g.1] }) ∧
    (s.pktWaits p = false → p.int = mInt w → p.last = true → crc32c g.1.data = p.crc →
      s.contribute i p = (s.dropPkt i).modTile p.tile
        (Tile.takeRows (meetBlock (mInt w) p.meete p.cix (chunks size (g.1.data.length / size) g.1.data) g.1.row0 noted 0).1 g.2
          (meetBlock (mInt w) p.meete p.cix (chunks size (g.1.data.length / size) g.1.data) g.1.row0 noted 0).2)) := by
  subst hw hm hsize hg hnoted
  unfold State.contribute
  dsimp only
  rw [if_neg (Nat.not_le.2 hcount), if_neg (by simp [Tile.badRow_of_good hgood]), if_neg (by simp [hkind, hfan, hnew])]
  refine ⟨fun hwait => if_pos hwait, fun hwait hlast hcrc => ?_, fun hwait hint hlast => ?_, fun hwait hint hlast hcrc => ?_⟩
  · rw [if_neg (by simp [hwait]), if_pos hlast, if_neg hcrc]
  · rw [if_neg (by simp [hwait]), if_neg (by simp [hlast]), if_neg (by simp [hint])]
  · rw [if_neg (by simp [hwait]), if_pos hlast, if_pos hcrc, if_neg (by simp [hint])]
    rfl

end

/-- What a contribution that is taken leaves: the rows, the blocks and the saturations of its tile, one packet less on the mesh. -/
theorem State.dropPkt_modTile_takes (s : State) (i t : Nat) {f : Tile → Tile} {rows : List MeetRow} {blks : List Blk} {sat : Nat}
    (hrows : (f (s.tile t)).xs.rows = rows) (hblks : (f (s.tile t)).xs.blks = blks) (hsp : (f (s.tile t)).sp = (s.tile t).sp)
    (hsat : Map.get 0 (f (s.tile t)).ctr 0x310 = Map.get 0 (s.tile t).ctr 0x310 + BitVec.ofNat 64 sat) :
    let s' := (s.dropPkt i).modTile t f
    (s'.tile t).xs.rows = rows ∧ (s'.tile t).xs.blks = blks ∧ s'.net.pkts = s.net.pkts.eraseIdx i ∧
      Map.get 0 (s'.tile t).ctr 0x310 = Map.get 0 (s.tile t).ctr 0x310 + BitVec.ofNat 64 sat ∧ (s'.tile t).sp = (s.tile t).sp ∧
      ∀ u, u ≠ t → s'.tile u = s.tile u := by
  intro s'
  have htile : s'.tile t = f (s.tile t) := State.modTile_tile_self _ _ _
  rw [htile]
  exact ⟨hrows, hblks, rfl, hsat, hsp, fun u hu => State.modTile_tile_ne _ _ _ _ hu⟩

theorem contributionArrival_runs {s : State} {i : Nat} {p : Pkt} (hp : s.net.pkts[i]? = some p) (hkind : p.kind = 1)
    (hfirst : s.pktFirst i p = true) (hlands : s.landsAt p.tile = true) (htick : s.sameTick = false) :
    exec (.contributionArrival i) s = .next (s.contribute i p) := by
  show execContributionArrival i s = _
  unfold execContributionArrival
  rw [hp]
  dsimp only
  rw [if_neg (by simp [hkind, hfirst, hlands]), alongside_eq _ htick]

/-! ## The order of arrival -/

theorem findMeet_setMeet (l : List MeetRow) (m : MeetRow) : findMeet (setMeet l m) m.e m.rix = m := by
  have hnone : (l.filter fun k => decide ((k.e, k.rix) ≠ (m.e, m.rix))).find? (fun k => decide (k.e = m.e ∧ k.rix = m.rix)) = none := by
    simp only [List.find?_eq_none, List.mem_filter, decide_eq_true_eq, ne_eq, Prod.mk.injEq]
    exact fun k hk => hk.2
  rw [findMeet, setMeet, List.find?_append, hnone]
  simp

/-- The contribution of `CIX` 0 is the sum at first; one that comes before it is held (R245, R246). -/
theorem meetTake_first (int : Bool) (e rix : Nat) (d : List Byte) :
    (meetTake int [] e rix 0 d).1 = setMeet [] { e := e, rix := rix, sum := lanesOf d, next := 1 } := by
  simp [meetTake, findMeet, MeetRow.absorb]

theorem meetTake_early (int : Bool) (e rix : Nat) (d : List Byte) :
    (meetTake int [] e rix 1 d).1 = setMeet [] { e := e, rix := rix, held := [(1, lanesOf d)] } := by
  simp [meetTake, findMeet, MeetRow.absorb]

/-- The sum of two contributions is complete and the same in either order of their arrival (R245, R246). -/
theorem meetTake_two (int : Bool) (e rix : Nat) (d0 d1 : List Byte) {m : MeetRow}
    (hm : { e := e, rix := rix, sum := (addLanes int (lanesOf d0) (lanesOf d1)).1, next := 2 } = m) :
    findMeet (meetTake int (meetTake int [] e rix 0 d0).1 e rix 1 d1).1 e rix = m ∧
    findMeet (meetTake int (meetTake int [] e rix 1 d1).1 e rix 0 d0).1 e rix = m := by
  have hlast := fun l => findMeet_setMeet l { e := e, rix := rix, sum := (addLanes int (lanesOf d0) (lanesOf d1)).1, next := 2 }
  rw [meetTake_first, meetTake_early]
  subst hm
  constructor
  · rw [meetTake, findMeet_setMeet _ { e := e, rix := rix, sum := lanesOf d0, next := 1 }]
    simpa [MeetRow.absorb] using hlast _
  · rw [meetTake, findMeet_setMeet _ { e := e, rix := rix, held := [(1, lanesOf d1)] }]
    simpa [MeetRow.absorb] using hlast _

/-! ## A fault leaves the exchange's own state

The packets on the mesh, and what the tiles count and hold of the exchange, are as before a fault and the stop it brings. -/

/-- The packets, and the exchange's state of every tile, are as before. -/
structure State.KeepsExchange (a b : State) : Prop where
  net : b.net = a.net
  xs : ∀ u, (b.tile u).xs = (a.tile u).xs

theorem State.KeepsExchange.refl (a : State) : a.KeepsExchange a := ⟨rfl, fun _ => rfl⟩

theorem State.KeepsExchange.trans {a b c : State} (h : a.KeepsExchange b) (g : b.KeepsExchange c) : a.KeepsExchange c :=
  ⟨g.net.trans h.net, fun u => (g.xs u).trans (h.xs u)⟩

theorem State.KeepsExchange.foldl {β : Type} {f : State → β → State} (hf : ∀ (s : State) b, s.KeepsExchange (f s b)) (l : List β)
    (s : State) : s.KeepsExchange (l.foldl f s) := by
  induction l generalizing s with
  | nil => exact .refl s
  | cons b l ih => exact (hf s b).trans (ih _)

theorem State.SameUnits.keepsExchange {a b : State} (h : a.SameUnits b) (hnet : b.net = a.net) : a.KeepsExchange b :=
  ⟨hnet, fun u => by rw [h.tile]⟩

theorem State.modTile_keepsExchange (s : State) (t : Nat) {f : Tile → Tile} (hf : ∀ x : Tile, (f x).xs = x.xs) :
    s.KeepsExchange (s.modTile t f) := by
  refine ⟨rfl, fun u => ?_⟩
  rw [State.modTile_tile]
  split
  · next h => exact h ▸ hf _
  · rfl

theorem Tile.foldl_xs {β : Type} {f : Tile → β → Tile} (hf : ∀ (x : Tile) b, (f x b).xs = x.xs) (l : List β) (x : Tile) :
    (l.foldl f x).xs = x.xs := by
  induction l generalizing x with
  | nil => rfl
  | cons b l ih => exact (ih _).trans (hf x b)

theorem Tile.partDone_xs (x : Tile) (free : Nat) (o : Op) (i : Nat) : (x.partDone free o i).xs = x.xs := by
  unfold Tile.partDone
  dsimp only
  repeat' split
  all_goals rfl

theorem Tile.scramble_xs (x : Tile) (free : Nat) (a : Acc) (i : Nat) : (x.scramble free a i).xs = x.xs := by
  unfold Tile.scramble
  dsimp only
  split <;> rfl

theorem Tile.scrambleOp_xs (x : Tile) (free : Nat) (o : Op) (i : Nat) : (x.scrambleOp free o i).xs = x.xs := by
  unfold Tile.scrambleOp
  dsimp only
  repeat' split
  all_goals rfl

theorem Tile.wild_xs (x : Tile) (free t : Nat) : (x.wild free t).xs = x.xs := by
  unfold Tile.wild
  rfl

theorem Tile.stop_xs (x : Tile) (free : Nat) : (x.stop free).xs = x.xs := by
  unfold Tile.stop
  extract_lets x0 x1 x2 y
  have h0 : x0.xs = x.xs := Tile.foldl_xs (f := fun y (p : Op × Nat) => y.partDone free p.1 p.2)
    (fun y p => y.partDone_xs free p.1 p.2) _ _
  have h1 : x1.xs = x0.xs := Tile.foldl_xs (f := fun y (p : Acc × Nat) => y.scramble free p.1 p.2)
    (fun y p => y.scramble_xs free p.1 p.2) _ _
  have h2 : x2.xs = x1.xs := Tile.foldl_xs (f := fun y (p : Blk × Nat) => y.scramble free _ (2 ^ 20 + p.2))
    (fun y p => y.scramble_xs free _ _) _ _
  have h3 : y.xs = x2.xs := Tile.foldl_xs (f := fun y (p : Op × Nat) => y.scrambleOp free p.1 p.2)
    (fun y p => y.scrambleOp_xs free p.1 p.2) _ _
  exact h3.trans (h2.trans (h1.trans h0))

section

variable (s : State)

theorem State.fixTrigger_keepsExchange (src : Nat) (j : Bool) : s.KeepsExchange (s.fixTrigger src j) := by
  refine (s.fixTrigger_sameUnits src j).keepsExchange ?_
  unfold State.fixTrigger
  extract_lets d wide far at_ s1
  split
  · rfl
  · split
    · exact s1.sendAlong_net _ _
    · rfl

theorem State.stopStore_keepsExchange (x : Xfer) (i : Nat) : s.KeepsExchange (s.stopStore x i) := by
  unfold State.stopStore
  extract_lets base cfg l
  split
  · exact .foldl (fun s b => (⟨rfl, fun _ => rfl⟩ : s.KeepsExchange (s.modStk _ _))) _ _
  · exact .refl s

theorem State.stopTile_keepsExchange (t : Nat) : s.KeepsExchange (s.stopTile t) :=
  .trans (.foldl (f := fun s (p : Xfer × Nat) => s.stopStore p.1 p.2) (fun s p => s.stopStore_keepsExchange p.1 p.2) _ s)
    ((State.modTile_keepsExchange _ t fun x => x.stop_xs _).trans ⟨rfl, fun _ => rfl⟩)

theorem State.stopUnits_keepsExchange : s.KeepsExchange s.stopUnits :=
  .trans (.foldl State.stopTile_keepsExchange _ s)
    (.trans (.foldl (f := fun s c => s.modCluster c fun x => { x.countWait s.cycle with waiting := [] })
      (fun _ _ => ⟨rfl, fun _ => rfl⟩) _ _) ⟨rfl, fun _ => rfl⟩)

theorem State.sightCut_keepsExchange : s.KeepsExchange s.sightCut := by
  have hwild : ∀ (s : State) (t : Nat),
      s.KeepsExchange (if s.rel.fencedTiles.contains t then s else s.modTile t fun x => x.wild s.free t) := by
    intro s t
    split
    · exact .refl s
    · exact s.modTile_keepsExchange t fun x => x.wild_xs _ _
  unfold State.sightCut State.wildUnits
  split
  · exact .trans (.foldl hwild _ s)
      (.trans (.foldl (fun s c => (⟨rfl, fun _ => rfl⟩ : s.KeepsExchange (s.modCluster c _))) _ _) ⟨rfl, fun _ => rfl⟩)
  · exact .refl s

theorem State.stepLost_net : s.stepLost.net = s.net := by
  unfold State.stepLost
  dsimp only
  repeat' split
  · exact State.complete_net _ _ _ _
  · rfl
  · rfl

theorem State.stopJob_keepsExchange : s.KeepsExchange s.stopJob := by
  refine .trans (s.stopUnits_keepsExchange.trans (State.sightCut_keepsExchange _)) (s.stopJob_sameUnits.keepsExchange ?_)
  unfold State.stopJob
  extract_lets s1 s2 waiting s3 s4 s5
  have hfold : ∀ (l : List Nat) (s : State), (l.foldl (fun s k => s.complete k 0x0E []) s).net = s.net := by
    intro l
    induction l with
    | nil => exact fun _ => rfl
    | cons k l ih => exact fun s => (ih _).trans (s.complete_net k 0x0E [])
  rw [State.stepLost_net, hfold]
  rfl

theorem State.alert_net (b : Nat) : (s.alert b).net = s.net := by
  unfold State.alert
  split
  · rfl
  · exact State.raiseMsi_net _ _

theorem State.jobFault_keepsExchange (level unit cause detail origin : Nat) :
    s.KeepsExchange (s.jobFault level unit cause detail origin none) := by
  unfold State.jobFault
  extract_lets q s1 code s2 s3
  have h1 : s.KeepsExchange s1 := ⟨rfl, fun _ => rfl⟩
  have h2 : s1.KeepsExchange s2 := (s1.sendAlong_sameUnits _ _).keepsExchange (State.sendAlong_net _ _ _)
  have h3 : s2.KeepsExchange s3 := (s2.fixTrigger_keepsExchange 2 true).trans (State.stopJob_keepsExchange _)
  have htold : ∀ ws, s3.KeepsExchange (((s3.raiseMsi 64).alert 4).event 0xE0 ws) := fun ws => State.SameUnits.keepsExchange
    ((s3.raiseMsi_sameUnits 64).trans (((s3.raiseMsi 64).alert_sameUnits 4).trans (State.event_sameUnits _ _ _)))
    (by rw [State.event_net, State.alert_net, State.raiseMsi_net])
  split
  · exact s.fixTrigger_keepsExchange 2 false
  · split
    · split <;> exact ⟨rfl, fun _ => rfl⟩
    · exact h1.trans (h2.trans (h3.trans (htold _)))

/-- A tile fault whose cause is no evidence against the tile (R457) leaves the exchange's own state. -/
theorem State.tileFault_keepsExchange (t k cause detail pc : Nat) (h : cause ≠ 0x0C ∧ cause ≠ 0x03 ∧ cause ≠ 0x05) :
    s.KeepsExchange (s.tileFault t k cause detail pc) := by
  obtain ⟨h1, h2, h3⟩ := h
  have hraised : s.KeepsExchange (s.raised t k cause detail pc) := by
    unfold State.raised State.weighTileFault
    rw [if_neg h1, if_neg (by simp [h2, h3])]
    refine ⟨rfl, fun u => ?_⟩
    rw [State.noteTileFault, State.noteRegion, State.modRel_tile, State.modRegion_tile, State.modCluster_tile]
    refine (s.modTile_keepsExchange t fun x => ?_).xs u
    rfl
  have hcases : s.tileFault t k cause detail pc = if (s.job.img.isSome && s.job.tiles.contains t) = true then
      (s.raised t k cause detail pc).jobFault 0 t cause detail s.modid none else (s.raised t k cause detail pc).fixTrigger 2 false := rfl
  rw [hcases]
  split
  · exact hraised.trans (State.jobFault_keepsExchange _ _ _ _ _ _)
  · exact hraised.trans (State.fixTrigger_keepsExchange _ _ _)

end

/-! ## A result leaves -/

theorem State.NowRead.xs {s s1 : State} {t : Nat} (h : s.NowRead s1 t) : (s1.tile t).xs = (s.tile t).xs := h.tile.reads Tile.xs

/-- The packet of a result row that leaves by entry `k` as the entry says (R237, R248). -/
def Pkt.forward (k : List Word) (m : MeetRow) (p : Pkt) : Pkt :=
  { p with kind := rKind k, row := rDrow k + m.rix, meete := rMeete k, cix := rCix k }

section

variable (s : State) (t r0 : Nat) (fin : Bool) (m : MeetRow) (proto : Pkt) (d : List Byte)

theorem State.resultPkt_data : (s.resultPkt t r0 fin m proto d).1.data = d := by
  unfold State.resultPkt
  split <;> rfl

theorem State.resultPkt_src : (s.resultPkt t r0 fin m proto d).1.src = proto.src := by
  unfold State.resultPkt
  split <;> rfl

end

section

variable {s : State} {t : Nat} {m : MeetRow} {w : Word} (hw : (s.tile t).meetWord m.e = w) (hclear : s.Clear t) (hkind : mKind w = 1)
  (hroute : (s.tile t).hasRoute (mOnrt w) = true) {k : List Word} (hk : (s.tile t).routeWords (mOnrt w) = k)
include hw hclear hkind hroute hk

/-- A result whose entry fails its check is not sent (R236, R248). -/
theorem State.meetSend_refused {n : Nat} (hr : s.routeReason k none (rDrow k + m.rix) m.rix 1 = some n) :
    ∃ s1, s.NowRead s1 t ∧ s.meetSend t m = s1.tileFault t 4 0x07 (destDetail n (mOnrt w)) 0 := by
  subst hw hk
  obtain ⟨s1, hread, hnow⟩ := State.routeEntry_of_clear (c := { t := t, q := 4, eng := 8, pc := 0 }) hclear
    (mOnrt ((s.tile t).meetWord m.e))
  refine ⟨s1, hnow, ?_⟩
  rw [← hnow.routeReason] at hr
  unfold State.meetSend
  dsimp only at hr ⊢
  rw [if_neg (by omega), if_neg (by simp [hroute]), hread]
  dsimp only [andThen]
  simp only [hkind, Nat.reduceEqDiff, decide_false, Bool.false_eq_true, if_false, hr]

/-- A result of kind `FORWARD` leaves by a local entry as one packet for each destination (R247, R248). -/
theorem State.meetSend_forwards (hwild : m.wild = false) (hr : s.routeReason k none (rDrow k + m.rix) m.rix 1 = none)
    (hlocal : rRemote k = false) : ∃ s1 r0 outs p, s.NowRead s1 t ∧
      (p.data = lanesBytes m.sum ∧ p.row = rDrow k + m.rix ∧ p.kind = rKind k ∧ p.src = t) ∧
      s.meetSend t m = ((s1.meetOut t r0 m outs).addPkts (localCopies k s.modid p)).checkPart t := by
  obtain ⟨s1, hread, hnow⟩ := State.routeEntry_of_clear (c := { t := t, q := 4, eng := 8, pc := 0 }) hclear (mOnrt w)
  rw [← hnow.routeReason] at hr
  rw [show (s.tile _).routeWords (mOnrt w) = k from hk] at hread
  have hmod : s1.modid = s.modid := by
    rw [hnow.rest]
    rfl
  unfold State.meetSend
  extract_lets x w' r0 r0' sum proto r norm
  have hsum : sum = m.sum := if_neg (by simp [hwild])
  have hw' : w' = w := hw
  have hx : x.hasRoute (mOnrt w) = true := hroute
  rw [hw', if_neg (by omega), if_neg (by simp [hx]), hread]
  dsimp only [andThen]
  simp only [norm, hw', hkind, Nat.reduceEqDiff, decide_false, Bool.false_eq_true, if_false, hr]
  refine ⟨s1, r0', r.2, r.1.forward k m, hnow, ⟨?_, rfl, rfl, ?_⟩, ?_⟩
  · exact hsum ▸ State.resultPkt_data _ _ _ _ _ _ _
  · exact State.resultPkt_src _ _ _ _ _ _ _
  · rw [State.sendPkt_local hlocal, ← hmod]
    rfl

end

theorem meetResultOutput_runs {s : State} {t e rix : Nat} {m : MeetRow} (ht : t < 2304) (htick : s.sameTick = false)
    (hfind : ((s.tile t).xs.rows.find? fun m => decide (m.e = e ∧ m.rix = rix)) = some m) (hout : m.out = false)
    (hnext : m.next = mFan ((s.tile t).meetWord e)) (hjs : s.job.js ≠ 6) (hst : (s.tile t).st ≠ 8)
    (hfirst : ∀ k ∈ (s.tile t).xs.rows, (k.e < e ∨ (k.e = e ∧ k.rix < rix)) →
      k.out = true ∨ k.next ≠ mFan ((s.tile t).meetWord k.e))
    (hgood : (s.tile t).spBad = []) (hkind : mKind ((s.tile t).meetWord e) ≠ 0) :
    (m.e = e ∧ m.rix = rix) ∧ exec (.meetResultOutput t e rix) s = .next
      (if (s.tile t).planMeet < (s.tile t).xs.meet + 1 then s.tileFault t 4 0x0D (meetDetail 6 e rix) 0 else s.meetSend t m) := by
  have hm : m.e = e ∧ m.rix = rix := by
    have h := List.find?_some hfind
    simpa using h
  refine ⟨hm, ?_⟩
  show execMeetResultOutput t e rix s = _
  rw [execMeetResultOutput, if_neg (Nat.not_le.2 ht), alongside_eq _ htick]
  dsimp only
  rw [hfind]
  dsimp only
  rw [if_neg, if_neg (by simp [Tile.badRow_of_good hgood])]
  · split <;> rfl
  · simp only [not_or, not_not, not_and, hm.1, hout, hnext]
    refine ⟨by simp, hjs, hst, ?_, fun h => absurd h hkind⟩
    simpa [or_iff_not_imp_left] using hfirst

/-! ## A norm delivery -/

theorem foldl_eq_self {α β : Type} {f : α → β → α} {a : α} {l : List β} (h : ∀ b ∈ l, f a b = a) : l.foldl f a = a := by
  induction l with
  | nil => rfl
  | cons b l ih =>
    rw [List.foldl_cons, h b List.mem_cons_self]
    exact ih fun c hc => h c (List.mem_cons_of_mem b hc)

theorem State.relay_off {s : State} {t k : Nat} (h : bit ((s.tile t).reg 0x410) (56 + k) = false) (d : List Byte) : s.relay t d k = s :=
  if_neg (by rw [h]; decide)

theorem State.relays_off {s : State} {t : Nat} (h : ∀ k < 7, bit ((s.tile t).reg 0x410) (56 + k) = false) (d : List Byte) :
    (List.range 7).foldl (fun s k => s.relay t d k) s = s :=
  foldl_eq_self fun k hk => State.relay_off (h k (List.mem_range.1 hk)) d

/-- A tile that holds the norm value of superstep `n` (R302). -/
def Tile.takeNorm (n v : Nat) (x : Tile) : Tile :=
  (x.modMisc fun m => { m with norm := place 32 32 n ||| place 0 32 v }).modXs fun u => { u with norms := u.norms + 1 }

theorem Tile.takeNorm_sp (x : Tile) (f : TileX → TileX) (n v : Nat) : ((x.modXs f).takeNorm n v).sp = x.sp := rfl

theorem Tile.takeNorm_reg (x : Tile) (f : TileX → TileX) (n v a : Nat) : ((x.modXs f).takeNorm n v).reg a = x.reg a := rfl

/-- The first norm delivery of a phase, with no relay (R302). -/
theorem normDelivery_first {s : State} {i : Nat} {p : Pkt} (hp : s.net.pkts[i]? = some p) (hkind : p.kind = 2)
    (hfirst : s.pktFirst i p = true) (hlands : s.landsAt p.tile = true) (htick : s.sameTick = false) (hgood : (s.tile p.tile).spBad = [])
    (hcrc : crc32c p.data = p.crc) (hnorms : (s.tile p.tile).xs.norms = 0)
    (hplan : (s.tile p.tile).xs.recv.toNat + 16 ≤ (s.tile p.tile).planRecv)
    (hrelays : ∀ k < 7, bit ((s.tile p.tile).reg 0x410) (56 + k) = false) :
    exec (.normDelivery i) s = .next
      (((((s.dropPkt i).modTile p.tile fun x => x.modXs fun v => { v with recv := v.recv + 16 }).modTile p.tile
        (Tile.takeNorm s.job.sstep.toNat (leNat (p.data.take 4)))).took).checkPart p.tile) := by
  have hrecv : (s.dropPkt i).addRecv p.tile 16 = _ := State.addRecv_within (s := s.dropPkt i) hgood hplan
  show execNormDelivery i s = _
  unfold execNormDelivery
  rw [hp]
  dsimp only
  rw [if_neg (by simp [hkind, hfirst, hlands]), alongside_eq _ htick, if_neg (by simp [hcrc]), hrecv, if_pos rfl, if_neg (by simp [hnorms])]
  rw [State.relays_off]
  · rfl
  · intro k hk
    rw [State.took_tile, State.modTile_tile_self, State.modTile_tile_self, ← hrelays k hk]
    exact congrArg (bit · _) (Tile.takeNorm_reg _ _ _ _ _)

/-- What a norm value that is taken leaves of its tile: the value held, its 16 bytes counted (R234, R302). -/
theorem State.takeNorm_checked {s s' : State} {i t n v : Nat}
    (h : ((((s.dropPkt i).modTile t fun x => x.modXs fun v => { v with recv := v.recv + 16 }).modTile t
      (Tile.takeNorm n v)).took).Reported s') :
    (s'.tile t).misc.norm = place 32 32 n ||| place 0 32 v ∧ (s'.tile t).xs.recv = (s.tile t).xs.recv + 16 ∧
      (s'.tile t).sp = (s.tile t).sp ∧ s'.net.pkts = s.net.pkts.eraseIdx i := by
  have htile := h.tile t
  rw [State.took_tile, State.modTile_tile_self, State.modTile_tile_self] at htile
  exact ⟨congrArg TileMisc.norm htile.misc, htile.recv, htile.sp.trans (Tile.takeNorm_sp _ _ _ _), congrArg Net.pkts h.net⟩

/-! ## The report of a stale fetch -/

/-- A tile whose row has no tag any more (R501). -/
def Tile.untag (row : Nat) (x : Tile) : Tile :=
  x.modMisc fun m => { m with pfTag := Map.set 0 m.pfTag row 0, pfCnt := Map.set [] m.pfCnt row [] }

section

variable {s : State} {t row g : Nat} (ht : t < 2304) (hg : Map.get 0 (s.tile t).misc.pfTag row = g)
include ht hg

theorem staleFetchReport_untagged (h : g ≤ 64) : exec (.staleFetchReport t row) s = .next s := by
  show execStaleFetchReport t row s = _
  rw [execStaleFetchReport, if_neg (Nat.not_le.2 ht)]
  exact if_pos (hg ▸ h)

/-- The first read of a landed row clears its tag; a changed write count is a hazard where the check is on (R501, R503). -/
theorem staleFetchReport_tagged (h : 64 < g) : exec (.staleFetchReport t row) s = .next
    (if (∃ c ∈ Map.get [] (s.tile t).misc.pfCnt row, Map.get 0 (s.stk c.1).wcnt c.2.1 ≠ c.2.2) ∧ s.soundChk 1 = true then
      (s.modTile t (Tile.untag row)).tileFault t ((g - 1) / 64 % 8 - 1) 0x0E
        (0x02000000 + (g - 1) % 64 * 2 ^ 10 + row % 1024) ((g - 1) / 512)
    else s.modTile t (Tile.untag row)) := by
  show execStaleFetchReport t row s = _
  rw [execStaleFetchReport, if_neg (Nat.not_le.2 ht)]
  dsimp only
  rw [hg, if_neg (Nat.not_le.2 h)]
  simp only [List.any_eq_true, decide_eq_true_eq]
  split <;> rfl

end

/-! ## The combine unit -/

/-- What a result row that has left leaves of its tile: one more counted, the row marked (R234, R247). -/
theorem State.meetOut_checked {s s1 s' : State} {t r0 : Nat} {m : MeetRow} {outs : List Blk} {l : List Pkt} (hnow : s.NowRead s1 t)
    (h : ((s1.meetOut t r0 m outs).addPkts l).Reported s') :
    (s'.tile t).xs.meet = (s.tile t).xs.meet + 1 ∧ (s'.tile t).xs.rows = setMeet (s.tile t).xs.rows { m with out := true } ∧
      (s'.tile t).sp = (s.tile t).sp ∧ s'.net.pkts = s.net.pkts ++ l := by
  have hxs := hnow.xs
  have hnet : s1.net = s.net := by rw [hnow.rest]
  have htile := h.tile t
  rw [State.addPkts_tile, State.meetOut, State.took_tile, State.modTile_tile_self] at htile
  refine ⟨htile.meet.trans ?_, htile.rows.trans ?_, htile.sp.trans hnow.tile.sp, ?_⟩
  · exact congrArg (fun v : TileX => v.meet + 1) hxs
  · exact congrArg (fun v : TileX => setMeet v.rows _) hxs
  · rw [h.net, ← hnet]
    rfl

/-- Settles O38: a contribution, a result, a norm value and a stale fetch are one lemma each; the two orders of arrival are one sum. -/
theorem combineUnit : Obligations.CombineUnit := by
  unfold Obligations.CombineUnit
  refine ⟨⟨fun s i p hp hkind hfirst hlands htick hgood => ?arrival, fun int e rix d0 d1 => ?order⟩,
    fun s t e rix m ht htick => ?result, fun s i p hp hkind hfirst hlands htick hgood hcrc hnorms hplan hrelays => ?norm,
    fun s t row ht => ?stale⟩
  case arrival =>
    intro t x w m size g noted r faults takes
    have hruns := contributionArrival_runs hp hkind hfirst hlands htick
    have hfault : ∀ {cause detail}, s.contribute i p = (s.dropPkt i).tileFault t 4 cause detail 0 → faults cause detail :=
      fun h => ⟨_, hruns.trans (congrArg _ h), State.tileFault_tile_fault _ _ _ _ _ _⟩
    refine ⟨fun hbad => hfault (State.contribute_refused hgood rfl rfl hbad), fun hcount hreserved hfan hnew => ?_⟩
    obtain ⟨hwaits, hmismatch, hnoted, hadded⟩ :=
      State.contribute_taken (i := i) hgood (w := w) rfl (m := m) rfl hcount hreserved hfan hnew (size := size) rfl (g := g) rfl rfl
    refine ⟨fun h => hruns.trans (congrArg _ (hwaits h)), fun hroom hlast hcrc => hfault (hmismatch hroom hlast hcrc),
      fun hroom hint => ⟨fun hmore => ⟨_, hruns.trans (congrArg _ (hnoted hroom hint hmore)), ?_⟩,
        fun hlast hcrc => ⟨_, hruns.trans (congrArg _ (hadded hroom hint hlast hcrc)), ?_⟩⟩⟩
    · exact State.dropPkt_modTile_takes s i t rfl rfl rfl (BitVec.add_zero _).symm
    · exact State.dropPkt_modTile_takes s i t rfl rfl rfl (Map.get_ctrAdd_self _ _ _)
  case order =>
    obtain ⟨hinOrder, hreversed⟩ := meetTake_two int e rix d0 d1 rfl
    dsimp only
    rw [hinOrder, hreversed]
    exact ⟨rfl, rfl, rfl, rfl⟩
  case result =>
    intro x w hfind hout hnext hjs hst hfirst hclear hsound hkind k
    obtain ⟨⟨rfl, rfl⟩, hruns⟩ := meetResultOutput_runs ht htick hfind hout hnext hjs hst hfirst hclear.parity
      (show mKind w ≠ 0 by omega)
    refine ⟨fun hover => hruns.trans (congrArg _ (if_pos hover)), fun hplan hroute => ?_⟩
    rw [if_neg (Nat.not_lt.2 hplan)] at hruns
    refine ⟨fun n hr => ?_, fun hwild hr hlocal => ?_⟩
    · obtain ⟨s1, hnow, hsend⟩ := State.meetSend_refused rfl hclear hkind hroute rfl hr
      have hkept := s1.tileFault_keepsExchange t 4 0x07 (destDetail n (mOnrt w)) 0 (by decide)
      refine ⟨_, hruns.trans (congrArg _ hsend), ?_, ?_, ?_⟩
      · rw [State.tileFault_tile_fault, hnow.fault]
        rfl
      · rw [hkept.net, hnow.rest]
      · rw [hkept.xs, hnow.xs]
    · obtain ⟨s1, r0, outs, p, hnow, ⟨hdata, hrow, hpkt, hsrc⟩, hsend⟩ :=
        State.meetSend_forwards rfl hclear hkind hroute rfl hwild hr hlocal
      obtain ⟨hmeet, hrows, hsp, hnet⟩ := State.meetOut_checked hnow (State.checkPart_reported _ t)
      exact ⟨_, hruns.trans (congrArg _ hsend), hmeet, hrows, hsp, p, hdata, hrow, hpkt, hsrc, hnet⟩
  case norm =>
    have hruns := normDelivery_first hp hkind hfirst hlands htick hgood hcrc hnorms hplan hrelays
    obtain ⟨hnorm, hrecv, hsp, hnet⟩ := State.takeNorm_checked (State.checkPart_reported _ p.tile)
    refine ⟨_, hruns, hnorm, hrecv, hnet, hsp, fun u hu => ?_⟩
    rw [State.checkPart_tile_ne _ _ hu, State.took_tile, State.modTile_tile_ne _ _ _ _ hu, State.modTile_tile_ne _ _ _ _ hu]
    rfl
  case stale =>
    intro x g
    have htagged := fun h => staleFetchReport_tagged (s := s) (row := row) ht (g := g) rfl h
    refine ⟨staleFetchReport_untagged ht rfl, fun h hfresh => ⟨_, (htagged h).trans (congrArg _ (if_neg ?_)), ?_⟩,
      fun h hsound hstale => ⟨_, (htagged h).trans (congrArg _ (if_pos ⟨hstale, hsound⟩)), ?_⟩⟩
    · rintro ⟨⟨c, hc, hne⟩, hsound⟩
      exact hfresh.elim (fun hoff => by simp [hoff] at hsound) fun hsame => hne (hsame c hc)
    · rw [State.modTile_tile_self]
      exact ⟨Map.get_set_self _ _ _ _, rfl, rfl, fun u hu => State.modTile_tile_ne _ _ _ _ hu⟩
    · rw [State.tileFault_tile_fault, State.modTile_tile_self]
      rfl

end Sys2Proof.Machine

/-! # The waves of a superstep (R225, R229, R234, R255, R283, R285, R316, R417) -/

namespace Sys2Proof.Machine

/-! ## A change of tiles one after another -/

section

variable {f : State → Tile → Tile} {R : Tile → Tile → Prop} (hstep : ∀ s x y, R x y → R x (f s y))
include hstep

/-- A relation that every change of a tile keeps holds on of it. -/
theorem State.forAll_modTile_keeps (l : List Nat) {s : State} {x : Tile} {u : Nat} (h : R x (s.tile u)) :
    R x ((s.forAll l fun s t => s.modTile t (f s)).tile u) := by
  induction l generalizing s with
  | nil => exact h
  | cons t l ih =>
    refine ih ?_
    rw [State.modTile_tile]
    split
    · next hu => exact hstep s x _ (hu ▸ h)
    · exact h

/-- A relation that one change of a tile brings and every further one keeps holds of each tile of the list. -/
theorem State.forAll_modTile_mem (hbase : ∀ s x, R x (f s x)) (l : List Nat) {s : State} {u : Nat} (hu : u ∈ l) :
    R (s.tile u) ((s.forAll l fun s t => s.modTile t (f s)).tile u) := by
  induction l generalizing s with
  | nil => cases hu
  | cons t l ih =>
    by_cases h : u = t
    · subst h
      refine State.forAll_modTile_keeps hstep l ?_
      rw [State.modTile_tile_self]
      exact hbase s _
    · have hrest := ih (s := s.modTile t (f s)) ((List.mem_cons.1 hu).resolve_left h)
      rwa [State.modTile_tile_ne _ _ _ _ h] at hrest

end

/-- The other tiles stay. -/
theorem State.forAll_tile_ne {f : State → Nat → State} (hf : ∀ (s : State) t u, u ≠ t → (f s t).tile u = s.tile u) (l : List Nat) (s : State)
    {u : Nat} (hu : u ∉ l) : (s.forAll l f).tile u = s.tile u := by
  induction l generalizing s with
  | nil => rfl
  | cons t l ih =>
    rw [List.mem_cons, not_or] at hu
    exact (ih (f s t) hu.2).trans (hf s t u hu.1)

/-! ## ARRIVAL_WAVE_RELEASE -/

/-- Between `x` and `y` the tile may have entered the exchange phase (R66, R255). -/
structure Tile.Entered (x y : Tile) : Prop where
  st : y.st = if x.st = 4 then 5 else x.st
  sp : y.sp = x.sp
  am : y.am = x.am
  sq : y.sq = x.sq

theorem Tile.toExchange_entered (x : Tile) (now : Nat) : x.Entered (x.toExchange now) := by
  unfold Tile.toExchange
  split
  · next h => exact ⟨(if_pos h).symm, rfl, rfl, rfl⟩
  · next h => exact ⟨(if_neg h).symm, rfl, rfl, rfl⟩

theorem Tile.Entered.toExchange {x y : Tile} (h : x.Entered y) (now : Nat) : x.Entered (y.toExchange now) := by
  have hagain := y.toExchange_entered now
  refine ⟨hagain.st.trans ?_, hagain.sp.trans h.sp, hagain.am.trans h.am, hagain.sq.trans h.sq⟩
  rw [h.st]
  split <;> rfl

theorem Tile.Entered.parted {x y z : Tile} (h : x.Entered y) (g : y.Parted z) : x.Entered z :=
  ⟨g.st.trans h.st, g.sp.trans h.sp, g.am.trans h.am, g.sq.trans h.sq⟩

/-- The module as `GO` finds it: told to the children, the wave's record renewed, the agreed step kept for the superstep (R229, R417). -/
def State.goes (s : State) (n : Nat) : State :=
  ((s.sendAlong s.childEdges fun peer => Sym.mk5 2 peer s.modid n).modJob fun j => { j with
    exch := true
    wave := { j.wave with go := none, arrSent := false, arrFrom := [] } }).modPower fun p => { p with pj2 := some n }

/-- Every tile of the job that has arrived enters `EXCHANGE` (R66). -/
def State.enterExchange (s : State) : State := s.forAll s.job.tiles fun s t => s.modTile t fun x => x.toExchange s.now

/-- What the tiles' entry leaves: everything but the tiles. -/
theorem State.forAll_modTile_rest (f : State → Tile → Tile) (l : List Nat) (s : State) :
    (s.forAll l fun s t => s.modTile t (f s)).unreported = s.unreported := by
  induction l generalizing s with
  | nil => rfl
  | cons t l ih => exact (ih (s.modTile t (f s))).trans rfl

theorem State.enterExchange_rest (s : State) : s.enterExchange.unreported = s.unreported :=
  State.forAll_modTile_rest (fun s x => x.toExchange s.now) s.job.tiles s

theorem State.enterExchange_tile {s : State} {t : Nat} (h : t ∈ s.job.tiles) : (s.tile t).Entered (s.enterExchange.tile t) :=
  State.forAll_modTile_mem (f := fun s x => x.toExchange s.now) (fun s _ _ h => h.toExchange s.now) (fun s x => x.toExchange_entered s.now)
    s.job.tiles h

theorem State.enterExchange_tile_ne {s : State} {t : Nat} (h : t ∉ s.job.tiles) : s.enterExchange.tile t = s.tile t :=
  State.forAll_tile_ne (fun s _ _ hu => s.modTile_tile_ne _ _ _ hu) _ _ h

theorem State.goes_tiles (s : State) (n : Nat) : (s.goes n).job.tiles = s.job.tiles := by
  simp [State.goes]

theorem State.goes_tile (s : State) (n u : Nat) : (s.goes n).tile u = s.tile u := State.tile_eq_of_tiles (by simp [State.goes]) u

theorem State.goes_job (s : State) (n : Nat) : (s.goes n).unreported.job = { s.unreported.job with
    exch := true, wave := { s.unreported.job.wave with go := none, arrSent := false, arrFrom := [] } } := by
  simp [State.goes, State.unreported]

theorem State.goes_power (s : State) (n : Nat) : (s.goes n).unreported.power = { s.power with pj2 := some n } := by
  simp [State.goes, State.unreported]

theorem State.checkParts_reported (s : State) (l : List Nat) : s.Reported ((s.forAll l State.checkPart).doneReport) :=
  .trans (.foldl State.checkPart_reported l s) (State.doneReport_reported _)

theorem arrivalWaveRelease_early {s : State} (h : s.job.js ≠ 4 ∨ s.job.wave.go = none ∨ s.job.wave.arrSent = false ∨ s.job.exch = true) :
    exec .arrivalWaveRelease s = .next s := by
  show execArrivalWaveRelease s = _
  unfold execArrivalWaveRelease
  dsimp only
  split
  · rfl
  · next n hgo => exact if_neg (by simpa [hgo, imp_iff_not_or] using h)

theorem arrivalWaveRelease_agreed {s : State} {n : Nat} (hjs : s.job.js = 4) (hgo : s.job.wave.go = some n)
    (harr : s.job.wave.arrSent = true) (hexch : s.job.exch = false) :
    exec .arrivalWaveRelease s = .next ((((s.goes n).enterExchange).forAll s.job.tiles State.checkPart).doneReport) := by
  show execArrivalWaveRelease s = _
  unfold execArrivalWaveRelease State.enterExchange
  dsimp only
  rw [hgo, s.goes_tiles]
  exact if_pos ⟨hjs, harr, by simp [hexch]⟩

/-! ## What the end of a phase leaves of a tile -/

/-- Between `x` and `y` the exchange's state, the end of X's program, the shown time of a part and the accumulators stay. -/
structure Tile.KeepsPhase (x y : Tile) : Prop where
  xs : y.xs = x.xs
  ended : y.sq.x.ended = x.sq.x.ended
  partTime : Map.get 0 y.ctr 0x610 = Map.get 0 x.ctr 0x610
  am : y.am = x.am

theorem Tile.KeepsPhase.refl (x : Tile) : x.KeepsPhase x := ⟨rfl, rfl, rfl, rfl⟩

theorem Tile.KeepsPhase.trans {x y z : Tile} (h : x.KeepsPhase y) (g : y.KeepsPhase z) : x.KeepsPhase z :=
  ⟨g.xs.trans h.xs, g.ended.trans h.ended, g.partTime.trans h.partTime, g.am.trans h.am⟩

theorem Tile.KeepsPhase.foldl {β : Type} {f : Tile → β → Tile} (hf : ∀ (x : Tile) b, x.KeepsPhase (f x b)) (l : List β) (x : Tile) :
    x.KeepsPhase (l.foldl f x) := by
  induction l generalizing x with
  | nil => exact .refl x
  | cons b l ih => exact (hf x b).trans (ih _)

theorem Tile.Accessed.keepsPhase {x y : Tile} (h : x.Accessed y) : x.KeepsPhase y :=
  ⟨h.reads Tile.xs, congrArg (fun v : SeqFile => v.x.ended) h.sq, h.ctr _ (by decide) (by decide), h.am⟩

theorem Tile.haltBy_keepsPhase (x : Tile) (q : Strm) (scope : Nat) : x.KeepsPhase (x.haltBy q scope) := by
  cases q <;> exact ⟨rfl, rfl, rfl, rfl⟩

theorem Tile.toCompute_keepsPhase (x : Tile) (halt : Bool) : x.KeepsPhase (x.toCompute halt) := by
  unfold Tile.toCompute
  dsimp only
  split
  · refine .trans ?_ (.foldl (fun y q => y.haltBy_keepsPhase q 3) _ _)
    constructor <;> rfl
  · constructor <;> rfl

theorem Tile.dbgRecord_keepsPhase (x : Tile) (cyc kind : Nat) (w : Word) : x.KeepsPhase (x.dbgRecord cyc kind w) := by
  unfold Tile.dbgRecord
  split
  · exact .refl x
  · exact ⟨rfl, rfl, rfl, rfl⟩

theorem Tile.noteWrite_keepsPhase (x : Tile) (lo n : Nat) : x.KeepsPhase (x.noteWrite lo n) := by
  unfold Tile.noteWrite
  extract_lets x1
  have h1 : x.KeepsPhase x1 := by
    refine .foldl (fun x i => ?_) _ x
    extract_lets r b x2
    have h2 : x.KeepsPhase x2 := by
      unfold x2
      split
      · exact .refl x
      · exact (x.noted_of_prefetch (.inr rfl) b r).toAccessed.keepsPhase
    exact h2.trans (x2.noted_of_misc _ _ _).toAccessed.keepsPhase
  exact h1.trans ⟨rfl, rfl, rfl, rfl⟩

/-! ## What the end of a phase leaves of the module -/

/-- The job's record without its state and the waves. -/
def Job.unwaved (j : Job) : Job := { j with js := 0, wave := {} }

/-- The power manager's record without the running step. -/
def Power.unrun (p : Power) : Power := { p with run := 0 }

/-- Between `a` and `b` the job's count of supersteps, its epoch and its steps stay, and the tiles' state of the exchange. -/
structure State.KeepsPhase (a b : State) : Prop where
  tile : ∀ u, (a.tile u).KeepsPhase (b.tile u)
  job : b.job.unwaved = a.job.unwaved
  power : b.power.unrun = a.power.unrun

/-- Which checks are on is a matter of the job's registers (R499). -/
theorem State.soundChk_of_cfg {a b : State} (h : b.job.cfg = a.job.cfg) (i : Nat) : b.soundChk i = a.soundChk i := by
  unfold State.soundChk Job.reg
  rw [h]

namespace State.KeepsPhase

variable {a b c : State}

theorem refl (a : State) : a.KeepsPhase a := ⟨fun _ => .refl _, rfl, rfl⟩

theorem trans (h : a.KeepsPhase b) (g : b.KeepsPhase c) : a.KeepsPhase c :=
  ⟨fun u => (h.tile u).trans (g.tile u), g.job.trans h.job, g.power.trans h.power⟩

theorem of_tiles (htiles : b.tiles = a.tiles) (hjob : b.job.unwaved = a.job.unwaved)
    (hpower : b.power.unrun = a.power.unrun) : a.KeepsPhase b :=
  ⟨fun u => State.tile_eq_of_tiles htiles u ▸ .refl _, hjob, hpower⟩

theorem modTile (a : State) (t : Nat) {f : Tile → Tile} (hf : ∀ x : Tile, x.KeepsPhase (f x)) : a.KeepsPhase (a.modTile t f) := by
  refine ⟨fun u => ?_, rfl, rfl⟩
  rw [State.modTile_tile]
  split
  · next h => exact h ▸ hf _
  · exact .refl _

theorem soundChk (h : a.KeepsPhase b) (i : Nat) : b.soundChk i = a.soundChk i := State.soundChk_of_cfg (congrArg Job.cfg h.job :) i

/-- What keeps the phase in a module without the race check does so one after another. -/
theorem foldl_of_no_sound {β : Type} {f : State → β → State} (hf : ∀ (s : State) b, s.soundChk 0 = false → s.KeepsPhase (f s b))
    (l : List β) {s : State} (h : s.soundChk 0 = false) : s.KeepsPhase (l.foldl f s) := by
  induction l generalizing s with
  | nil => exact refl s
  | cons b l ih =>
    have hb := hf s b h
    exact hb.trans (ih ((hb.soundChk 0).trans h))

theorem foldl {β : Type} {f : State → β → State} (hf : ∀ (s : State) b, s.KeepsPhase (f s b)) (l : List β) (s : State) :
    s.KeepsPhase (l.foldl f s) := by
  induction l generalizing s with
  | nil => exact refl s
  | cons b l ih => exact (hf s b).trans (ih _)

end State.KeepsPhase

section

variable (s : State)

theorem State.updateRun_keepsPhase : s.KeepsPhase s.updateRun := by
  unfold State.updateRun State.applyRun State.forAll
  refine .trans ?_ (.foldl (fun s r => ?_) _ _)
  · exact .of_tiles rfl rfl rfl
  · exact .of_tiles rfl rfl rfl

theorem State.fixTrigger_power (src : Nat) (j : Bool) : (s.fixTrigger src j).power = s.power := by
  unfold State.fixTrigger
  extract_lets d wide far at_ s1
  split
  · rfl
  · split
    · exact s1.sendAlong_power _ _
    · rfl

theorem State.fixTrigger_keepsPhase (src : Nat) (j : Bool) : s.KeepsPhase (s.fixTrigger src j) := by
  have h := s.fixTrigger_sameUnits src j
  exact .of_tiles h.tiles (congrArg Job.unwaved h.job) (congrArg Power.unrun (s.fixTrigger_power src j))

theorem State.debugEvent_keepsPhase (t kind stream engine code pc : Nat) : s.KeepsPhase (s.debugEvent t kind stream engine code pc) := by
  unfold State.debugEvent
  extract_lets s1
  refine .trans ?_ (s1.fixTrigger_keepsPhase 1 false)
  exact .modTile s t fun x => x.dbgRecord_keepsPhase _ _ _

theorem State.watch_keepsPhase (c : Acct) (lo n : Nat) (wr : Bool) : s.KeepsPhase (s.watch c lo n wr) := by
  unfold State.watch
  split
  · split
    · exact .trans (.modTile s c.t fun x => .foldl (fun x q => x.haltBy_keepsPhase q 1) _ x) (State.debugEvent_keepsPhase _ _ _ _ _ _ _)
    · exact .refl s
  · exact .refl s

variable {s} (hsound : s.soundChk 0 = false)
include hsound

/-- An access at once that no check reports leaves the state of the exchange. -/
theorem State.touch_keepsPhase (c : Acct) (lo n : Nat) (wr : Bool) : s.KeepsPhase (s.touch c lo n wr).1 := by
  unfold State.touch
  dsimp only
  rw [State.addAccs_of_no_sound hsound]
  refine .trans (b := s.setTile c.t _) ?_ (.modTile _ c.t fun x => by constructor <;> rfl)
  exact .modTile s c.t (f := fun x => List.foldl Tile.addAcc x _) fun x => .foldl (fun x a => by constructor <;> rfl) _ x

theorem State.writeNow_keepsPhase (c : Acct) (lo : Nat) (b : List Byte) : s.KeepsPhase (s.writeNow c lo b) := by
  refine (State.touch_keepsPhase hsound c lo (b.length / 512) true).trans ?_
  unfold State.writeNow
  extract_lets p
  generalize p.1 = s1
  unfold State.writeRows
  extract_lets x n rows y
  have hset : s1.KeepsPhase (s1.setTile c.t { y with sp := Map.setRange 0 y.sp (512 * lo) rows }) :=
    .modTile s1 c.t (f := fun x => { x.noteWrite lo n with sp := Map.setRange 0 (x.noteWrite lo n).sp (512 * lo) rows }) fun x =>
      (x.noteWrite_keepsPhase lo n).trans ⟨rfl, rfl, rfl, rfl⟩
  exact hset.trans ((State.watch_keepsPhase _ c lo n true).trans (.of_tiles rfl rfl rfl))

theorem State.writeBacking_keepsPhase : s.KeepsPhase s.writeBacking := by
  unfold State.writeBacking
  split
  · exact .refl s
  · refine .foldl_of_no_sound (fun s b h => ?_) _ hsound
    dsimp only
    split
    · exact .of_tiles rfl rfl rfl
    · exact State.writeNow_keepsPhase h _ _ _

end

section

variable (s : State)

theorem State.ownReport_keepsPhase : s.KeepsPhase s.ownReport := by
  refine .of_tiles s.ownReport_tiles ?_ ?_
  all_goals
    unfold State.ownReport
    dsimp only
    repeat' split
    all_goals simp [Job.unwaved]

theorem State.arrive_keepsPhase (t : Nat) : s.KeepsPhase (s.arrive t) := by
  unfold State.arrive
  extract_lets x d
  split
  · refine .trans (b := s.modTile t _) ?_ (.trans (b := (s.modTile t _).took) (.of_tiles rfl rfl rfl) (State.ownReport_keepsPhase _))
    exact .modTile s t fun x => by constructor <;> rfl
  · exact .refl s

theorem State.complete_keepsPhase (k st : Nat) (ws : List Word) : s.KeepsPhase (s.complete k st ws) :=
  .of_tiles (by simp) (by simp) (by simp)

theorem State.takePause_keepsPhase : s.KeepsPhase s.takePause := by
  unfold State.takePause
  extract_lets pages s1 s2
  have h1 : s.KeepsPhase s1 := .foldl (fun s t => .modTile s t fun x => by constructor <;> rfl) _ _
  have h2 : s1.KeepsPhase s2 := .of_tiles rfl rfl rfl
  refine (h1.trans h2).trans ?_
  split
  · exact .of_tiles (by simp) (by simp) (by simp)
  · exact .foldl (fun s k => s.complete_keepsPhase k 0 _) _ _

theorem State.backToCompute_keepsPhase : s.KeepsPhase s.backToCompute := by
  unfold State.backToCompute
  extract_lets go s1 s2
  have h1 : s.KeepsPhase s1 := .foldl (fun s t => .modTile s t fun x => x.toCompute_keepsPhase _) _ _
  have h2 : s1.KeepsPhase s2 := by
    unfold s2
    split
    · exact .refl s1
    · exact .of_tiles rfl rfl rfl
  split
  · exact h1.trans (h2.trans (.trans (.foldl State.arrive_keepsPhase go s2) (State.ownReport_keepsPhase _)))
  · exact .refl s

theorem State.atBoundary_keepsPhase : s.KeepsPhase s.atBoundary := by
  unfold State.atBoundary
  extract_lets s1
  have h1 : s.KeepsPhase s1 := by
    unfold s1
    split
    · exact .of_tiles rfl rfl rfl
    · exact .refl s
  split
  · split
    · exact h1.trans s1.takePause_keepsPhase
    · exact h1.trans s1.backToCompute_keepsPhase
  · exact .refl s

end

/-! ## DONE_WAVE_RELEASE -/

/-- Between `x` and `y` an exchange phase of the tile ended (R161, R233, R234). -/
structure Tile.PhaseEnded (x y : Tile) : Prop where
  sent : y.xs.sent = 0
  recv : y.xs.recv = 0
  meet : y.xs.meet = 0
  part : y.xs.part = false
  ended : y.sq.x.ended = false
  partTime : Map.get 0 y.ctr 0x610 = BitVec.ofNat 64 x.xs.partNs
  partNs : y.xs.partNs = x.xs.partNs

theorem Tile.endPhase_phaseEnded (x : Tile) (n : Nat) : x.PhaseEnded (x.endPhase n) :=
  ⟨rfl, rfl, rfl, rfl, rfl, Map.get_set_self _ _ _ _, rfl⟩

theorem Tile.PhaseEnded.endPhase {x y : Tile} (h : x.PhaseEnded y) (n : Nat) : x.PhaseEnded (y.endPhase n) :=
  ⟨rfl, rfl, rfl, rfl, rfl, (y.endPhase_phaseEnded n).partTime.trans (congrArg _ h.partNs), h.partNs⟩

theorem Tile.PhaseEnded.keepsPhase {x y z : Tile} (h : x.PhaseEnded y) (g : y.KeepsPhase z) : x.PhaseEnded z := by
  refine ⟨?_, ?_, ?_, ?_, g.ended.trans h.ended, g.partTime.trans h.partTime, ?_⟩ <;> rw [g.xs]
  exacts [h.sent, h.recv, h.meet, h.part, h.partNs]

/-- The module as `DONE` finds it: told to the children, the superstep counted, the exchange over (R229, R283). -/
def State.closes (s : State) : State :=
  (s.sendAlong s.childEdges fun peer => Sym.mk5 4 peer s.modid 0).modJob fun j => { j with
    sstep := j.sstep + 1
    steps := j.steps + 1
    exch := false
    wave := { j.wave with done := false, partSent := false, partFrom := [], doneAt := true } }

/-- The phase of every tile of the job ends. -/
def State.endPhases (s : State) : State := s.forAll s.job.tiles fun s t => s.modTile t fun x => x.endPhase s.job.sstep.toNat

/-- The job step takes the one agreed for the superstep that begins (R417). -/
def State.takeStep (s : State) : State := (s.modPower fun p => { p with jstep := p.pj.getD p.jstep, pj := p.pj2, pj2 := none }).updateRun

/-- The tiles wait at the boundary for a stow where the interval says so (R322). -/
def State.stowAtBoundary (s : State) : State :=
  if s.stow.en ∧ 0 < s.job.ival ∧ s.job.sstep.toNat % s.job.ival = 0 ∧ s.job.js = 4 then
    s.modStow fun w => { w with wait := true }
  else s

theorem State.closes_tiles (s : State) : s.closes.job.tiles = s.job.tiles := by
  simp [State.closes]

theorem State.closes_tile (s : State) (u : Nat) : s.closes.tile u = s.tile u := State.tile_eq_of_tiles (by simp [State.closes]) u

theorem State.endPhases_tile_mem (s : State) {t : Nat} (h : t ∈ s.job.tiles) : (s.tile t).PhaseEnded (s.endPhases.tile t) :=
  State.forAll_modTile_mem (f := fun s x => x.endPhase s.job.sstep.toNat) (fun s _ _ h => h.endPhase s.job.sstep.toNat)
    (fun s x => x.endPhase_phaseEnded s.job.sstep.toNat) s.job.tiles h

theorem State.endPhases_tile_am (s : State) (t : Nat) : (s.endPhases.tile t).am = (s.tile t).am :=
  State.forAll_modTile_keeps (f := fun s x => x.endPhase s.job.sstep.toNat) (R := fun x y => y.am = x.am) (fun _ _ _ h => h) s.job.tiles rfl

theorem doneWaveRelease_early {s : State} (h : s.job.js ≠ 4 ∨ s.job.exch = false ∨ s.job.wave.done = false) :
    exec .doneWaveRelease s = .next s := by
  show execDoneWaveRelease s = _
  exact if_neg (by simpa [imp_iff_not_or] using h)

theorem doneWaveRelease_ends {s : State} (hjs : s.job.js = 4) (hexch : s.job.exch = true) (hdone : s.job.wave.done = true) :
    exec .doneWaveRelease s =
      .next ((s.closes.endPhases.takeStep.writeBacking.advanceEpoch s.job.sstep.toNat).stowAtBoundary.atBoundary) := by
  show execDoneWaveRelease s = _
  unfold execDoneWaveRelease State.endPhases
  rw [s.closes_tiles]
  exact if_pos ⟨hjs, hexch, hdone⟩

/-- The placement epoch grows by one at a marked phase while it has room (R283, R316). -/
theorem State.advanceEpoch_eq {s : State} (h : s.job.epoch + 1 < 2 ^ 32) (n : Nat) :
    s.advanceEpoch n = s.modJob fun j => { j with epoch := if s.job.permuteAt n then s.job.epoch + 1 else s.job.epoch } := by
  unfold State.advanceEpoch
  rw [if_pos h]
  split <;> rfl

theorem State.stowAtBoundary_keepsPhase (s : State) : s.KeepsPhase s.stowAtBoundary := by
  unfold State.stowAtBoundary
  split
  · exact .of_tiles rfl rfl rfl
  · exact .refl s

section

variable (s : State)

theorem State.closes_job : s.closes.job.unwaved =
    { s.job.unwaved with sstep := s.job.sstep + 1, steps := s.job.steps + 1, exch := false } := by
  simp [State.closes, Job.unwaved]

theorem State.closes_power : s.closes.power = s.power := by
  simp [State.closes]

theorem State.endPhases_job : s.endPhases.job.unwaved = s.job.unwaved :=
  (congrArg (fun a : State => a.job.unwaved) (State.forAll_modTile_rest (fun s x => x.endPhase s.job.sstep.toNat) s.job.tiles s) :)

theorem State.endPhases_power : s.endPhases.power = s.power :=
  (congrArg State.power (State.forAll_modTile_rest (fun s x => x.endPhase s.job.sstep.toNat) s.job.tiles s) :)

end

/-- What the end of a phase leaves of the job and the steps before the epoch: the superstep counted, the steps one superstep on. -/
structure State.Closed (s w : State) : Prop where
  job : w.job.unwaved = { s.job.unwaved with sstep := s.job.sstep + 1, steps := s.job.steps + 1, exch := false }
  power : w.power.unrun = { s.power.unrun with jstep := s.power.pj.getD s.power.jstep, pj := s.power.pj2, pj2 := none }
  tile : ∀ u, (s.closes.endPhases.tile u).KeepsPhase (w.tile u)

theorem State.writeBacking_closed {s : State} (hsound : s.soundChk 0 = false) : s.Closed s.closes.endPhases.takeStep.writeBacking := by
  have hjob := s.closes.endPhases_job.trans s.closes_job
  have hpower := s.closes.endPhases_power.trans s.closes_power
  have hstep := State.updateRun_keepsPhase
    (s.closes.endPhases.modPower fun p => { p with jstep := p.pj.getD p.jstep, pj := p.pj2, pj2 := none })
  have hsound' : s.closes.endPhases.takeStep.soundChk 0 = false :=
    (State.soundChk_of_cfg ((congrArg Job.cfg hstep.job :).trans (congrArg Job.cfg hjob :)) 0).trans hsound
  have hkeeps := hstep.trans (State.writeBacking_keepsPhase hsound')
  refine ⟨hkeeps.job.trans hjob, hkeeps.power.trans ?_, hkeeps.tile⟩
  rw [State.modPower_power, hpower]
  rfl

/-- What `DONE` leaves of the job, the steps and the tiles, whatever the boundary then does. -/
structure State.Done (s s' : State) : Prop where
  job : s'.job.unwaved = { s.job.unwaved with
    sstep := s.job.sstep + 1, steps := s.job.steps + 1, exch := false
    epoch := if s.job.permuteAt s.job.sstep.toNat then s.job.epoch + 1 else s.job.epoch }
  power : s'.power.unrun = { s.power.unrun with jstep := s.power.pj.getD s.power.jstep, pj := s.power.pj2, pj2 := none }
  tile : ∀ u, (s.closes.endPhases.tile u).KeepsPhase (s'.tile u)

theorem State.Closed.done {s w : State} (h : s.Closed w) (hroom : s.job.epoch + 1 < 2 ^ 32) :
    s.Done (w.advanceEpoch s.job.sstep.toNat).stowAtBoundary.atBoundary := by
  have hepoch : w.job.epoch = s.job.epoch := (congrArg Job.epoch h.job :)
  have hmarked : w.job.permuteAt s.job.sstep.toNat = s.job.permuteAt s.job.sstep.toNat :=
    (congrArg (fun j : Job => j.permuteAt s.job.sstep.toNat) h.job :)
  rw [State.advanceEpoch_eq (by rw [hepoch]; exact hroom), hepoch, hmarked]
  have hkeeps := (State.stowAtBoundary_keepsPhase (w.modJob fun j => { j with
    epoch := if s.job.permuteAt s.job.sstep.toNat then s.job.epoch + 1 else s.job.epoch })).trans (State.atBoundary_keepsPhase _)
  refine ⟨hkeeps.job.trans ?_, hkeeps.power.trans h.power, fun u => (h.tile u).trans (hkeeps.tile u)⟩
  exact congrArg (fun j : Job => { j with epoch := if s.job.permuteAt s.job.sstep.toNat then s.job.epoch + 1 else s.job.epoch }) h.job

/-! ## Limits (R255, R285) -/

theorem overrunLimitExpiry_faults {s : State} {t : Nat} (ht : t < 2304) (hst : (s.tile t).st = 5) (hexch : s.job.exch = true)
    (hpart : (s.tile t).xs.part = false) (hjs : s.job.js = 4) (hlimits : s.suspended = false) :
    exec (.overrunLimitExpiry t) s = .next (s.tileFault t 4 0x0D 0x01000000 0) := by
  show execOverrunLimitExpiry t s = _
  rw [execOverrunLimitExpiry, if_neg (Nat.not_le.2 ht), alongside_eq _ (State.sameTick_of_runs hjs)]
  exact if_pos ⟨hst, hexch, by simp [hpart], hjs, by simp [hlimits]⟩

/-- A timed wait of a running job that holds (R285). -/
def State.timedWait (s : State) (t kind : Nat) (q : Strm) : Bool :=
  if kind = 0 then decide ((s.tile t).st = 4)
  else if kind = 1 then decide ((s.tile t).st = 5 ∧ s.job.exch) && (s.tile t).xs.part
  else decide (kind ≤ 3) && s.waitsIn t kind q

theorem syncWdogExpiry_faults {s : State} {t kind : Nat} {q : Strm} (ht : t < 2304) (hjs : s.job.js = 4) (hjob : t ∈ s.job.tiles)
    (hlimits : s.suspended = false) (hwait : s.timedWait t kind q = true) :
    exec (.syncWdogExpiry t kind q) s =
      .next (s.devFault 0x40 (t + (if kind ≤ 1 then 4 else Strm.code q) * 2 ^ 12 + kind * 2 ^ 16)) := by
  show execSyncWdogExpiry t kind q s = _
  rw [execSyncWdogExpiry, if_neg (Nat.not_le.2 ht)]
  dsimp only
  rw [State.sameTick_of_runs hjs]
  simp only [Bool.false_eq_true, if_false]
  refine (if_pos ⟨hjs, List.contains_iff_mem.2 hjob, hwait, by simp [hlimits]⟩).trans ?_
  simp only [decide_eq_true_eq]

/-! ## The two waves -/

/-- Settles O39: the tiles enter or end the phase one after another; what each wave does after that leaves what is stated. -/
theorem wavesOfASuperstep : Obligations.WavesOfASuperstep := by
  unfold Obligations.WavesOfASuperstep
  refine ⟨fun s h => arrivalWaveRelease_early h, fun s n hjs hgo harr hexch => ?go, fun s h => doneWaveRelease_early h,
    fun s hjs hexch hdone hroom hsound => ?done,
    fun s t ht hst hexch hpart hjs hlimits => overrunLimitExpiry_faults ht hst hexch hpart hjs hlimits,
    fun s t q ht hjs hjob hlimits => ?wdog⟩
  case go =>
    refine ⟨_, arrivalWaveRelease_agreed hjs hgo harr hexch, ?_⟩
    have hreported := (s.goes n).enterExchange.checkParts_reported s.job.tiles
    have hothers : ∀ u, u ∉ s.job.tiles →
        ((((s.goes n).enterExchange).forAll s.job.tiles State.checkPart).doneReport).tile u = s.tile u := fun u hu => by
      rw [State.tile_eq_of_tiles (State.doneReport_tiles _), State.forAll_tile_ne (fun s t u h => s.checkPart_tile_ne t h) _ _ hu,
        State.enterExchange_tile_ne (s.goes_tiles n ▸ hu), s.goes_tile]
    generalize State.doneReport _ = s' at hreported hothers ⊢
    have hentered : ∀ t ∈ s.job.tiles, (s.tile t).Entered (s'.tile t) := fun t ht => by
      rw [← s.goes_tile n]
      exact ((s.goes n).enterExchange_tile (s.goes_tiles n ▸ ht)).parted (hreported.tile t)
    have hrest := hreported.rest.trans (s.goes n).enterExchange_rest
    have hjob := (congrArg State.job hrest).trans (s.goes_job n)
    have hpower := (congrArg State.power hrest).trans (s.goes_power n)
    refine ⟨(congrArg Job.exch hjob :), (congrArg (fun j : Job => j.wave.pauseReq) hjob :),
      (congrArg (fun j : Job => j.wave.haltReq) hjob :),
      (congrArg (fun j : Job => j.wave.go) hjob :), (congrArg (fun j : Job => j.wave.arrSent) hjob :), (congrArg Power.pj2 hpower :),
      (congrArg Job.sstep hjob :), fun t ht => (hentered t ht).st, hothers, fun t => ?_⟩
    by_cases ht : t ∈ s.job.tiles
    · exact ⟨(hentered t ht).sp, (hentered t ht).am, (hentered t ht).sq⟩
    · rw [hothers t ht]
      exact ⟨rfl, rfl, rfl⟩
  case done =>
    have hends := (State.writeBacking_closed hsound).done hroom
    refine ⟨_, doneWaveRelease_ends hjs hexch hdone, ?_⟩
    generalize State.atBoundary _ = s' at hends ⊢
    obtain ⟨hjob, hpower, htile⟩ := hends
    refine ⟨(congrArg Job.sstep hjob :), (congrArg Job.steps hjob :), (congrArg Job.exch hjob :), (congrArg Job.epoch hjob :),
      (congrArg Power.jstep hpower :), (congrArg Power.pj hpower :), (congrArg Power.pj2 hpower :), fun t ht => ?_, fun t => ?_⟩
    · have hended := (s.closes.endPhases_tile_mem (s.closes_tiles ▸ ht)).keepsPhase (htile t)
      rw [s.closes_tile] at hended
      exact ⟨hended.sent, hended.recv, hended.meet, hended.part, hended.ended, hended.partTime⟩
    · rw [(htile t).am, s.closes.endPhases_tile_am, s.closes_tile]
  case wdog =>
    have hruns := fun kind => syncWdogExpiry_faults (kind := kind) (q := q) ht hjs hjob hlimits
    refine ⟨fun hst => ?_, fun hst hexch hpart => ?_, fun k hk hwait => ?_⟩
    · simpa using hruns 0 (by simp [State.timedWait, hst])
    · exact hruns 1 (by simp [State.timedWait, hst, hexch, hpart])
    · rcases hk with rfl | rfl
      · exact hruns 2 (by simp [State.timedWait, hwait])
      · exact hruns 3 (by simp [State.timedWait, hwait])

end Sys2Proof.Machine

/-! # Messages arrive (R265, R266, R269 to R276, R279, R283 to R287)

An arrival is resolved by the verdict on it; an accepted message becomes visible once its bytes stand in the ring; a fault leaves the
queue unit as it was. -/

namespace Sys2Proof.Machine

/-! ## What a stop leaves standing (R69) -/

/-- A tile without what a stop of the job, a fence or the end of a sight may change. -/
def Tile.standing (x : Tile) : Tile :=
  { x with st := 0, ctr := [], im := [], sp := [], am := [], sb0 := {}, sb1 := {}, ctab := [], sq := {}, io := {}, misc := {} }

theorem Tile.foldl_standing {β : Type} {f : Tile → β → Tile} (hf : ∀ (x : Tile) b, (f x b).standing = x.standing) (l : List β)
    (x : Tile) : (l.foldl f x).standing = x.standing :=
  List.foldlRecOn (motive := fun y : Tile => y.standing = x.standing) l f rfl fun y hy b _ => (hf y b).trans hy

theorem Tile.partDone_standing (x : Tile) (free : Nat) (o : Op) (i : Nat) : (x.partDone free o i).standing = x.standing := by
  unfold Tile.partDone
  dsimp only
  repeat' split
  all_goals rfl

theorem Tile.scramble_standing (x : Tile) (free : Nat) (a : Acc) (i : Nat) : (x.scramble free a i).standing = x.standing := by
  unfold Tile.scramble
  dsimp only
  split <;> rfl

theorem Tile.scrambleOp_standing (x : Tile) (free : Nat) (o : Op) (i : Nat) : (x.scrambleOp free o i).standing = x.standing := by
  unfold Tile.scrambleOp
  dsimp only
  repeat' split
  all_goals rfl

theorem Tile.wild_standing (x : Tile) (free t : Nat) : (x.wild free t).standing = x.standing := by
  unfold Tile.wild
  simp only [Tile.standing]

theorem Tile.stop_standing (x : Tile) (free : Nat) : (x.stop free).standing = x.standing := by
  unfold Tile.stop
  extract_lets x0 x1 x2 y
  have h0 : x0.standing = x.standing := Tile.foldl_standing (fun y (p : Op × Nat) => y.partDone_standing free p.1 p.2) _ _
  have h1 : x1.standing = x0.standing := Tile.foldl_standing (fun y (p : Acc × Nat) => y.scramble_standing free p.1 p.2) _ _
  have h2 : x2.standing = x1.standing :=
    Tile.foldl_standing (fun y (p : Blk × Nat) => y.scramble_standing free _ (2 ^ 20 + p.2)) _ _
  have h3 : y.standing = x2.standing := Tile.foldl_standing (fun y (p : Op × Nat) => y.scrambleOp_standing free p.1 p.2) _ _
  exact h3.trans (h2.trans (h1.trans h0))

/-- Of every tile stands in `b` what stands in `a`. -/
def State.Stands (a b : State) : Prop := ∀ u, (b.tile u).standing = (a.tile u).standing

theorem State.Stands.refl (a : State) : a.Stands a := fun _ => rfl

theorem State.Stands.trans {a b c : State} (h : a.Stands b) (g : b.Stands c) : a.Stands c := fun u => (g u).trans (h u)

theorem State.Stands.of_tiles {a b : State} (h : b.tiles = a.tiles) : a.Stands b := fun u => by rw [State.tile_eq_of_tiles h]

theorem State.SameUnits.stands {a b : State} (h : a.SameUnits b) : a.Stands b := .of_tiles h.tiles

theorem State.Stands.foldl {β : Type} {f : State → β → State} (hf : ∀ (s : State) b, s.Stands (f s b)) (l : List β) (s : State) :
    s.Stands (l.foldl f s) :=
  List.foldlRecOn (motive := fun e : State => s.Stands e) l f (.refl s) fun e he b _ => he.trans (hf e b)

theorem State.modTile_stands (s : State) (t : Nat) {f : Tile → Tile} (hf : ∀ x : Tile, (f x).standing = x.standing) :
    s.Stands (s.modTile t f) := fun u => by
  rw [State.modTile_tile]
  split
  case isTrue hu => exact hu ▸ hf _
  case isFalse => rfl

section

variable (s : State)

theorem State.stopTile_stands (t : Nat) : s.Stands (s.stopTile t) :=
  (s.stopStores_sameUnits t).stands.trans ((State.modTile_stands _ t fun x => x.stop_standing _).trans (.of_tiles rfl))

theorem State.stopUnits_stands : s.Stands s.stopUnits :=
  .trans (.foldl State.stopTile_stands s.job.tiles s) (.trans (State.stopClusters_sameUnits _ s.job.clusters).stands (.of_tiles rfl))

theorem State.wildTile_stands (t : Nat) : s.Stands (s.wildTile t) := by
  unfold State.wildTile
  split
  · exact .refl s
  · exact s.modTile_stands t fun x => x.wild_standing _ _

theorem State.sightCut_stands : s.Stands s.sightCut := by
  unfold State.sightCut
  split
  · intro u
    rw [State.modRel_tile, State.took_tile, State.wildUnits_tile]
    exact State.Stands.foldl State.wildTile_stands s.job.tiles s u
  · exact .refl s

theorem State.stopJob_stands : s.Stands s.stopJob :=
  s.stopUnits_stands.trans (s.stopUnits.sightCut_stands.trans s.stopJob_sameUnits.stands)

theorem State.jobFault_stands (level unit cause detail origin : Nat) :
    s.Stands (s.jobFault level unit cause detail origin none) := by
  by_cases himg : s.job.img.isSome = true
  · by_cases hjs : s.job.js = 6
    · unfold State.jobFault
      rw [if_neg (by rw [← Option.not_isSome, himg]; decide)]
      dsimp only
      rw [if_pos hjs]
      split <;> exact .of_tiles rfl
    · obtain ⟨m, hm, hstop⟩ := State.jobFault_sameUnits level unit cause detail origin himg hjs
      exact (State.Stands.of_tiles (b := m) hm.tiles).trans (m.stopJob_stands.trans hstop.stands)
  · unfold State.jobFault
    rw [if_pos (by rw [← Option.not_isSome, Bool.eq_false_iff.2 himg]; rfl)]
    exact (s.fixTrigger_sameUnits 2 false).stands

/-- A tile fault whose cause is no evidence against the tile (R457) leaves standing what stood when it was recorded. -/
theorem State.tileFault_stands (t k cause detail pc : Nat) (h : cause ≠ 0x0C ∧ cause ≠ 0x03 ∧ cause ≠ 0x05) :
    (s.noteTileFault t k cause detail pc).Stands (s.tileFault t k cause detail pc) := by
  have hraised : s.raised t k cause detail pc = s.noteTileFault t k cause detail pc := by
    rw [State.raised, State.weighTileFault, if_neg h.1, if_neg (not_or.2 h.2)]
  have hcases : s.tileFault t k cause detail pc = if (s.job.img.isSome && s.job.tiles.contains t) = true then
      (s.raised t k cause detail pc).jobFault 0 t cause detail s.modid none else (s.raised t k cause detail pc).fixTrigger 2 false := rfl
  rw [hcases, hraised]
  split
  · exact State.jobFault_stands _ _ _ _ _ _
  · exact (State.fixTrigger_sameUnits _ 2 false).stands

/-- A message's fault leaves the queues and the buffers of its tile. -/
theorem State.tileFault_qu (t k cause detail pc : Nat) (h : cause ≠ 0x0C ∧ cause ≠ 0x03 ∧ cause ≠ 0x05) :
    ((s.tileFault t k cause detail pc).tile t).qu = (s.tile t).qu := by
  have hfault := congrArg Tile.qu (s.tileFault_stands t k cause detail pc h t)
  refine hfault.trans ?_
  rw [State.noteTileFault, State.noteRegion, State.modRel_tile, State.modRegion_tile, State.modCluster_tile, State.modTile_tile_self]
  rfl

end

/-! ## What is due leaves the buffers of the queue unit -/

theorem Tile.takeEffect_qu (x : Tile) (count : Nat → Word) (o : Op) :
    (x.takeEffect count o).qu = { x.qu with qs := (x.takeEffect count o).qu.qs } := by
  unfold Tile.takeEffect
  split
  · rfl
  · rw [Tile.unmark_eq]
    rfl

/-- Queue controls change queues; what waits, is being written or is to leave stays. -/
theorem Tile.settle_qu (x : Tile) (cycle : Nat) (count : Nat → Word) :
    (x.settle cycle count).qu = { x.qu with qs := (x.settle cycle count).qu.qs } := by
  unfold Tile.settle
  extract_lets r
  refine List.foldlRecOn (motive := fun r : Tile × List LateOp => r.1.qu = { x.qu with qs := r.1.qu.qs }) _ _ rfl fun r hr l _ => ?_
  split
  · rw [Tile.takeEffect_qu, hr]
  · exact hr

/-- With nothing in flight nothing takes effect. -/
theorem Tile.settle_idle {x : Tile} (h : x.io.late = []) (cycle : Nat) (count : Nat → Word) : x.settle cycle count = x := by
  unfold Tile.settle
  rw [h, List.foldl_nil]
  show x.modIo (fun io => { io with late := [] }) = x
  rw [← h]
  rfl

theorem State.settle_tile_qu (s : State) (t u : Nat) : ((s.settle t).tile u).qu = { (s.tile u).qu with qs := ((s.settle t).tile u).qu.qs } := by
  rw [State.settle, State.modTile_tile]
  split
  case isTrue hu => exact hu ▸ Tile.settle_qu _ _ _
  case isFalse => rfl

theorem State.settleCluster_tile_qu (s : State) (c u : Nat) :
    ((s.settleCluster c).tile u).qu = { (s.tile u).qu with qs := ((s.settleCluster c).tile u).qu.qs } := by
  unfold State.settleCluster State.forAll
  refine List.foldlRecOn (motive := fun e : State => (e.tile u).qu = { (s.tile u).qu with qs := (e.tile u).qu.qs })
    (clusterTiles c) State.settle ?_ fun e he t _ => ?_
  · rfl
  · rw [e.settle_tile_qu, he]

/-- With no queue control in flight and no message waiting the queue unit does nothing by itself. -/
theorem State.refreshQueue_idle {s : State} {t : Nat} (hlate : (s.tile t).io.late = []) (hinbox : (s.tile t).qu.inbox = none) :
    s.refreshQueue t = s.modTile t id := by
  have hsettle : s.settle t = s.modTile t id := by
    rw [State.settle, State.modTile, Tile.settle_idle hlate]
    rfl
  have hempty : ((s.modTile t id).tile t).qu.inbox = none := by
    rw [State.modTile_tile_self]
    exact hinbox
  unfold State.refreshQueue
  dsimp only
  rw [hsettle, hempty]

/-! ## The verdict on an arrival (R271) -/

section

variable {x : Tile} {epoch : Nat} {m : Msg}

theorem Tile.verdict_old (h : hEpoch m < epoch) : x.verdict epoch m = .oldEpoch := if_pos h

variable (hepoch : epoch ≤ hEpoch m)
include hepoch

theorem Tile.verdict_tally (htform : hTform m = true) : x.verdict epoch m = .tally :=
  (if_neg (Nat.not_lt.2 hepoch)).trans (if_pos htform)

variable (htform : hTform m = false)
include htform

theorem Tile.verdict_closed (h : bit (x.qcfg (hDq m)) 63 = false ∨ (x.queue (hDq m)).open_ = false) : x.verdict epoch m = .closed := by
  unfold Tile.verdict
  dsimp only
  rw [if_neg (Nat.not_lt.2 hepoch), htform, if_neg Bool.false_ne_true, if_pos h]

/-- For an open queue the length decides. -/
theorem Tile.verdict_open (hon : bit (x.qcfg (hDq m)) 63 = true) (hopen : (x.queue (hDq m)).open_ = true) : x.verdict epoch m =
    if ringSize (x.qcfg (hDq m)) < hLen m then (if bit (x.qcfg (hDq m)) 61 then .overFault else .oversize)
    else if hLen m ≤ ringSize (x.qcfg (hDq m)) - (x.queue (hDq m)).occ - (x.queue (hDq m)).wr then .fits else .waits := by
  unfold Tile.verdict
  dsimp only
  rw [if_neg (Nat.not_lt.2 hepoch), htform, if_neg Bool.false_ne_true, if_neg (by rw [hon, hopen]; decide)]

end

/-! ## A message is dropped (R271, R275) -/

/-- The inbound buffer of a tile is freed. -/
def State.freeInbox (s : State) (t : Nat) : State := s.modTile t fun y => y.modQu fun u => { u with inbox := none }

@[simp] theorem State.freeInbox_tile_self (s : State) (t : Nat) :
    (s.freeInbox t).tile t = (s.tile t).modQu fun u => { u with inbox := none } := s.modTile_tile_self t _

theorem State.freeInbox_tile_ne (s : State) {t u : Nat} (h : u ≠ t) : (s.freeInbox t).tile u = s.tile u := s.modTile_tile_ne t u _ h

/-- The slip that answers `m` with a status, where it asks for one (R275). -/
def State.slips (s : State) (t : Nat) (m : Msg) (status : Nat) : List Msg := if hRcpt m then [s.slipOf t m status] else []

/-- An answer lets its slip wait behind those that wait, and changes nothing else of the tile. -/
theorem State.answer_tile (s : State) (t : Nat) (m : Msg) (status : Nat) : (s.answer t m status).tile t =
    (s.tile t).modQu fun u => { u with slips := u.slips ++ s.slips t m status } := by
  unfold State.answer State.slips
  split
  · exact s.modTile_tile_self t _
  · simp only [List.append_nil]
    rfl

theorem State.answer_rest (s : State) (t : Nat) (m : Msg) (status : Nat) :
    s.answer t m status = { s with tiles := (s.answer t m status).tiles } := by
  unfold State.answer
  split <;> rfl

theorem State.answer_tile_ne (s : State) {t u : Nat} (m : Msg) (status : Nat) (h : u ≠ t) : (s.answer t m status).tile u = s.tile u := by
  unfold State.answer
  split
  · exact s.modTile_tile_ne t u _ h
  · rfl

theorem State.answer_clusters (s : State) (t : Nat) (m : Msg) (status : Nat) : (s.answer t m status).clusters = s.clusters := by
  rw [s.answer_rest]

theorem State.answer_net (s : State) (t : Nat) (m : Msg) (status : Nat) : (s.answer t m status).net = s.net := by
  rw [s.answer_rest]

/-- A slip names this module, its tile and the message only. -/
theorem State.slips_of_net {a b : State} (h : b.net = a.net) (t : Nat) (m : Msg) (status : Nat) : b.slips t m status = a.slips t m status := by
  rw [State.slips, State.slips, State.slipOf, State.slipOf, State.modid, State.modid, h]

/-- A message for queue `k` of tile `t` is dropped and counted at `ctr`; the slips `out` wait. -/
structure State.Drops (s s' : State) (t k ctr : Nat) (out : List Msg) : Prop where
  inbox : (s'.tile t).qu.inbox = none
  net : s'.net = s.net
  queue : (s'.tile t).queue k = { (s.tile t).queue k with drops := ((s.tile t).queue k).drops + 1 }
  counted : Map.get 0 (s'.tile t).ctr ctr = Map.get 0 (s.tile t).ctr ctr + 1
  slips : (s'.tile t).qu.slips = out
  sp : (s'.tile t).sp = (s.tile t).sp
  queues : ∀ j, j ≠ k → (s'.tile t).queue j = (s.tile t).queue j
  tiles : ∀ u, u ≠ t → s'.tile u = s.tile u

/-- The buffer is freed and the message dropped. -/
theorem State.dropMsg_drops (s : State) (t : Nat) (m : Msg) (ctr : Nat) :
    s.Drops ((s.freeInbox t).dropMsg t m ctr) t (hDq m) ctr (s.tile t).qu.slips := by
  have htile : ((s.freeInbox t).dropMsg t m ctr).tile t = (((s.tile t).modQu fun u => { u with inbox := none }).modQueue (hDq m)
      fun u => { u with drops := u.drops + 1 }).count ctr 1 := by
    rw [State.dropMsg, State.modTile_tile_self, State.freeInbox_tile_self]
  refine ⟨?_, rfl, ?_, ?_, ?_, ?_, fun j hj => ?_, fun u hu => ?tiles⟩
  case tiles => rw [State.dropMsg, State.modTile_tile_ne _ _ _ _ hu, s.freeInbox_tile_ne hu]
  all_goals rw [htile]
  · rfl
  · exact Tile.queue_modQueue_self _ _ _
  · exact Tile.countSelf _ _ _
  · rfl
  · rfl
  · exact Tile.queue_modQueue_ne _ _ hj

/-- A dropped message is answered. -/
theorem State.Drops.answer {s s' : State} {t k ctr : Nat} (h : s.Drops s' t k ctr (s.tile t).qu.slips) (m : Msg) (status : Nat) :
    s.Drops (s'.answer t m status) t k ctr ((s.tile t).qu.slips ++ s.slips t m status) := by
  obtain ⟨hinbox, hnet, hqueue, hcounted, hslips, hsp, hqueues, htiles⟩ := h
  have htile := s'.answer_tile t m status
  rw [State.slips_of_net hnet] at htile
  refine ⟨?_, (s'.answer_net t m status).trans hnet, ?_, ?_, ?_, ?_, fun j hj => ?_,
    fun u hu => (s'.answer_tile_ne m status hu).trans (htiles u hu)⟩ <;> rw [htile]
  · exact hinbox
  · exact hqueue
  · exact hcounted
  · rw [← hslips]
    rfl
  · exact hsp
  · exact hqueues j hj

/-! ## A message is accepted (R265, R269) -/

/-- The requests with which the queue unit of tile `t` writes message `m` into its ring: none where the ring lies in the scratchpad (R183). -/
def State.acceptReqs (s : State) (t : Nat) (m : Msg) : List CsReq :=
  let cfg := (s.tile t).qcfg (hDq m)
  let y := (s.tile t).queue (hDq m)
  if ringInCs cfg then ringReqs t s.cycle cfg ((y.head + y.occ + y.wr) % ringSize cfg) (msgBytes m) else []

/-- An accepted message takes room in its ring and is being written (R265, R269). -/
structure State.Accepts (s s' : State) (t : Nat) (m : Msg) : Prop where
  inbox : (s'.tile t).qu.inbox = none
  net : s'.net = s.net
  queue : (s'.tile t).queue (hDq m) = { (s.tile t).queue (hDq m) with wr := ((s.tile t).queue (hDq m)).wr + hLen m }
  wrs : (s'.tile t).qu.wrs = (s.tile t).qu.wrs ++
    [{ q := hDq m, m := m, wait := (s.acceptReqs t m).length, waited := (s.tile t).qu.inbox.isSome }]
  waiting : (s'.cluster (clusterOf t)).waiting = (s.cluster (clusterOf t)).waiting ++ s.acceptReqs t m
  sp : (s'.tile t).sp = (s.tile t).sp

theorem State.acceptReqs_freeInbox (s : State) (t : Nat) (m : Msg) : (s.freeInbox t).acceptReqs t m = s.acceptReqs t m := by
  unfold State.acceptReqs
  rw [State.freeInbox_tile_self]
  unfold Tile.queue Tile.qcfg Tile.reg Tile.modQu
  rfl

theorem State.acceptMsg_tile (s : State) (t : Nat) (m : Msg) (waited : Bool) : (s.acceptMsg t m waited).tile t =
    ((s.tile t).modQueue (hDq m) fun u => { u with wr := u.wr + hLen m }).modQu fun u =>
      { u with wrs := u.wrs ++ [{ q := hDq m, m := m, wait := (s.acceptReqs t m).length, waited := waited }] } :=
  State.modTile_tile_self s t fun z => (z.modQueue (hDq m) fun u => { u with wr := u.wr + hLen m }).modQu fun u =>
    { u with wrs := u.wrs ++ [{ q := hDq m, m := m, wait := (s.acceptReqs t m).length, waited := waited }] }

theorem State.acceptMsg_waiting (s : State) (t : Nat) (m : Msg) (waited : Bool) :
    ((s.acceptMsg t m waited).cluster (clusterOf t)).waiting = (s.cluster (clusterOf t)).waiting ++ s.acceptReqs t m :=
  congrArg Cluster.waiting (State.modCluster_cluster_self _ _ _)

/-- The buffer is freed and the message accepted. -/
theorem State.acceptMsg_accepts (s : State) (t : Nat) (m : Msg) :
    s.Accepts ((s.freeInbox t).acceptMsg t m (s.tile t).qu.inbox.isSome) t m := by
  have htile := (s.freeInbox t).acceptMsg_tile t m (s.tile t).qu.inbox.isSome
  have hwaiting := (s.freeInbox t).acceptMsg_waiting t m (s.tile t).qu.inbox.isSome
  rw [State.acceptReqs_freeInbox] at htile hwaiting
  rw [State.freeInbox_tile_self] at htile
  refine ⟨?_, rfl, ?_, ?_, hwaiting, ?_⟩ <;> rw [htile]
  · rfl
  · exact Tile.queue_modQueue_self ((s.tile t).modQu fun u => { u with inbox := none }) (hDq m) fun u => { u with wr := u.wr + hLen m }
  · rfl
  · rfl

/-! ## A message's fault (R272, R273) -/

/-- A change `f` of the tile before a message's fault is what the fault leaves of the queue unit. -/
theorem State.ringFault_qu (s : State) (t : Nat) (f : Tile → Tile) (detail : Nat) :
    (((s.modTile t f).tileFault t 4 0xB detail 0).tile t).qu = (f (s.tile t)).qu := by
  rw [State.tileFault_qu _ _ _ _ _ _ (by decide), State.modTile_tile_self]

theorem State.ringFault_fault (s : State) (t : Nat) (f : Tile → Tile) (detail : Nat) :
    (((s.modTile t f).tileFault t 4 0xB detail 0).tile t).fault = tileFaultWord (f (s.tile t)).fault 4 0xB detail 0 := by
  rw [State.tileFault_tile_fault, State.modTile_tile_self]

/-! ## A message is added to a tally (R279) -/

/-- The count of a tally-form message is the signed 32-bit number of its first four payload bytes (R279). -/
theorem sextNat_eq_toInt {n : Nat} (hn : 0 < n) (c : Nat) : sextNat n c = (BitVec.ofNat n c).toInt := by
  rw [toInt_eq_sextNat _ hn, BitVec.toNat_ofNat, sextNat, sextNat, Nat.mod_mod]

/-- Tally `tl` of cluster `c` becomes `y` by a message, which is counted (R287). -/
def State.countedTally (s : State) (c tl : Nat) (y : Tally) : State := (s.setTally c tl y).countCluster c 0x68 1

theorem State.countedTally_cluster (s : State) (c tl : Nat) (y : Tally) : (s.countedTally c tl y).cluster c =
    { s.cluster c with tally := Map.set {} (s.cluster c).tally tl y, ctr := ctrAdd (s.cluster c).ctr 0x68 1 } := by
  rw [State.countedTally, State.countCluster, State.modCluster_cluster_self, State.setTally, State.modCluster_cluster_self]

/-- Message `m` is added to its tally, which becomes `y`, counted and answered (R279, R287). -/
structure State.Adds (s s' : State) (t : Nat) (m : Msg) (y : Tally) : Prop where
  inbox : (s'.tile t).qu.inbox = none
  net : s'.net = s.net
  tally : Map.get {} (s'.cluster (clusterOf t)).tally (hTix m) = y
  counted : Map.get 0 (s'.cluster (clusterOf t)).ctr 0x68 = Map.get 0 (s.cluster (clusterOf t)).ctr 0x68 + 1
  slips : (s'.tile t).qu.slips = (s.tile t).qu.slips ++ s.slips t m 0

theorem State.Settled.adds {s e : State} {t : Nat} (h : (s.freeInbox t).Settled e)
    (hqu : (e.tile t).qu = { (s.tile t).qu with inbox := none, qs := (e.tile t).qu.qs }) {m : Msg} (y : Tally) :
    s.Adds ((e.countedTally (clusterOf t) (hTix m) y).answer t m 0) t m y := by
  have hkept : e.cluster (clusterOf t) = s.cluster (clusterOf t) := h.cluster _
  have hnet : (e.countedTally (clusterOf t) (hTix m) y).net = s.net := by
    show e.net = s.net
    rw [h.rest]
    rfl
  have hcluster := e.countedTally_cluster (clusterOf t) (hTix m) y
  have htile : (e.countedTally (clusterOf t) (hTix m) y).tile t = e.tile t := rfl
  generalize e.countedTally _ _ _ = e1 at hcluster htile hnet ⊢
  have hanswered : (e1.answer t m 0).cluster (clusterOf t) = e1.cluster (clusterOf t) := by
    rw [State.cluster, State.answer_clusters, State.cluster]
  refine ⟨?_, (State.answer_net _ _ _ _).trans hnet, ?_, ?_, ?_⟩
  · rw [State.answer_tile, htile]
    exact (congrArg TileQ.inbox hqu :)
  · rw [hanswered, hcluster]
    exact Map.get_set_self _ _ _ _
  · rw [hanswered, hcluster, hkept]
    exact Map.get_ctrAdd_self _ _ _
  · rw [State.answer_tile, htile, State.slips_of_net hnet]
    exact (congrArg (fun u : TileQ => u.slips ++ s.slips t m 0) hqu :)

/-! ## A message is resolved (R271) -/

section

variable {s : State} {t : Nat} {m : Msg}

/-- A message of an older epoch for a queue (R284). -/
theorem State.resolve_old_drops (hepoch : hEpoch m < s.job.epoch) (htform : hTform m = false) :
    s.Drops (s.resolve t m) t (hDq m) 0x720 (s.tile t).qu.slips := by
  rw [State.resolve, Tile.verdict_old hepoch]
  dsimp only
  rw [htform, if_neg Bool.false_ne_true]
  exact s.dropMsg_drops t m 0x720

/-- A message of an older epoch for a tally (R284). -/
theorem State.resolve_old_counts (hepoch : hEpoch m < s.job.epoch) (htform : hTform m = true) :
    let s' := s.resolve t m
    (s'.tile t).qu.inbox = none ∧ s'.net = s.net ∧
      Map.get 0 (s'.cluster (clusterOf t)).ctr 0x60 = Map.get 0 (s.cluster (clusterOf t)).ctr 0x60 + 1 ∧
      (s'.cluster (clusterOf t)).tally = (s.cluster (clusterOf t)).tally := by
  have hcounts : s.resolve t m = (s.freeInbox t).countCluster (clusterOf t) 0x60 1 := by
    rw [State.resolve, Tile.verdict_old hepoch]
    exact if_pos htform
  intro s'
  have hcluster : s'.cluster (clusterOf t) =
      { s.cluster (clusterOf t) with ctr := ctrAdd (s.cluster (clusterOf t)).ctr 0x60 1 } := by
    rw [show s' = _ from hcounts]
    exact State.modCluster_cluster_self _ _ _
  refine ⟨?_, ?_, ?_, ?_⟩
  · rw [show s' = _ from hcounts, State.countCluster, State.modCluster_tile, State.freeInbox_tile_self]
    rfl
  · rw [show s' = _ from hcounts]
    rfl
  · rw [hcluster]
    exact Map.get_ctrAdd_self _ _ _
  · rw [hcluster]

variable (hepoch : s.job.epoch ≤ hEpoch m)
include hepoch

/-- What a message adds to its tally is applied before it is answered (R279). -/
theorem State.resolve_tally_eq (htform : hTform m = true) (hoff : s.dbg.bpen = false) {tl : Tally} {n : Int}
    (htl : Map.get {} (s.cluster (clusterOf t)).tally (hTix m) = tl)
    (hn : tl.count.toInt + (BitVec.ofNat 32 (leNat (m.pay.take 4))).toInt = n) (hlo : 0 ≤ n) (hhi : n ≤ tl.ceil) :
    s.resolve t m = (((s.freeInbox t).settleCluster (clusterOf t)).countedTally (clusterOf t) (hTix m)
      { tl with count := BitVec.ofInt 32 n }).answer t m 0 := by
  have hsettled := (s.freeInbox t).settleCluster_settled (clusterOf t)
  have hadd := State.tallyAdd_eq (s := (s.freeInbox t).settleCluster (clusterOf t)) (c := clusterOf t) (tl := hTix m) (y := tl) (n := n)
    (d := sextNat 32 (leNat (m.pay.take 4))) (by rw [hsettled.cluster]; exact htl) (by rw [sextNat_eq_toInt (by decide)]; exact hn)
    (by rw [hsettled.dbg]; exact hoff) (hStile m) 1
  rw [if_neg (Int.not_lt.2 hlo), if_neg (Int.not_lt.2 hhi)] at hadd
  rw [State.resolve, Tile.verdict_tally hepoch htform]
  show (s.freeInbox t).applyTally t m = _
  unfold State.applyTally
  extract_lets c p
  have hp : p = _ := hadd
  rw [hp]
  exact if_pos rfl

/-- A message in tally form is added to its tally, counted and answered. -/
theorem State.resolve_tally_adds (htform : hTform m = true) (hoff : s.dbg.bpen = false) {tl : Tally} {n : Int}
    (htl : Map.get {} (s.cluster (clusterOf t)).tally (hTix m) = tl)
    (hn : tl.count.toInt + (BitVec.ofNat 32 (leNat (m.pay.take 4))).toInt = n) (hlo : 0 ≤ n) (hhi : n ≤ tl.ceil) :
    s.Adds (s.resolve t m) t m { tl with count := BitVec.ofInt 32 n } := by
  have hqu := (s.freeInbox t).settleCluster_tile_qu (clusterOf t) t
  rw [State.freeInbox_tile_self] at hqu
  rw [State.resolve_tally_eq hepoch htform hoff htl hn hlo hhi]
  exact ((s.freeInbox t).settleCluster_settled (clusterOf t)).adds hqu _

variable (htform : hTform m = false)
include htform

/-- A message for a queue that is not configured or not open (R263, R271). -/
theorem State.resolve_closed_drops (hoff : bit ((s.tile t).qcfg (hDq m)) 63 = false ∨ ((s.tile t).queue (hDq m)).open_ = false) :
    s.Drops (s.resolve t m) t (hDq m) 0x710 ((s.tile t).qu.slips ++ s.slips t m 1) := by
  rw [State.resolve, Tile.verdict_closed hepoch htform hoff]
  exact (s.dropMsg_drops t m 0x710).answer m 1

variable (hon : bit ((s.tile t).qcfg (hDq m)) 63 = true) (hopen : ((s.tile t).queue (hDq m)).open_ = true)
include hon hopen

/-- A message larger than the ring (R271). -/
theorem State.resolve_oversize_drops (hlen : ringSize ((s.tile t).qcfg (hDq m)) < hLen m) (hovf : bit ((s.tile t).qcfg (hDq m)) 61 = false) :
    s.Drops (s.resolve t m) t (hDq m) 0x718 ((s.tile t).qu.slips ++ s.slips t m 2) := by
  rw [State.resolve, Tile.verdict_open hepoch htform hon hopen, if_pos hlen, hovf, if_neg Bool.false_ne_true]
  exact (s.dropMsg_drops t m 0x718).answer m 2

/-- A message larger than a ring in fault mode (R271, R273). -/
theorem State.resolve_oversize_faults (hlen : ringSize ((s.tile t).qcfg (hDq m)) < hLen m) (hovf : bit ((s.tile t).qcfg (hDq m)) 61 = true) :
    (((s.resolve t m).tile t).queue (hDq m)).drops = ((s.tile t).queue (hDq m)).drops + 1 ∧
      ((s.resolve t m).tile t).fault = tileFaultWord (s.tile t).fault 4 0xB (ringDetail 2 (hDq m)) 0 := by
  rw [State.resolve, Tile.verdict_open hepoch htform hon hopen, if_pos hlen, if_pos hovf]
  dsimp only
  constructor
  · rw [Tile.queue, State.ringFault_qu, State.modTile_tile_self]
    exact congrArg Queue.drops (Map.get_set_self _ _ _ _)
  · rw [State.ringFault_fault, State.modTile_tile_self]
    rfl

/-- A message that fits is accepted (R269). -/
theorem State.resolve_fits_accepts (hlen : hLen m ≤ ringSize ((s.tile t).qcfg (hDq m)))
    (hroom : hLen m ≤ ringSize ((s.tile t).qcfg (hDq m)) - ((s.tile t).queue (hDq m)).occ - ((s.tile t).queue (hDq m)).wr) :
    s.Accepts (s.resolve t m) t m := by
  rw [State.resolve, Tile.verdict_open hepoch htform hon hopen, if_neg (Nat.not_lt.2 hlen), if_pos hroom]
  exact s.acceptMsg_accepts t m

/-- A message that does not fit yet waits in the inbound buffer (R270). -/
theorem State.resolve_waits_stays (hlen : hLen m ≤ ringSize ((s.tile t).qcfg (hDq m)))
    (hroom : ringSize ((s.tile t).qcfg (hDq m)) - ((s.tile t).queue (hDq m)).occ - ((s.tile t).queue (hDq m)).wr < hLen m) :
    (s.resolve t m).net = s.net ∧ (s.resolve t m).tile t = (s.tile t).modQu fun u => { u with inbox := some m } := by
  rw [State.resolve, Tile.verdict_open hepoch htform hon hopen, if_neg (Nat.not_lt.2 hlen), if_neg (Nat.not_le.2 hroom)]
  exact ⟨rfl, s.modTile_tile_self t _⟩

end

/-! ## The commands that resolve a message -/

/-- The messages on their way become `net`. -/
def State.setMsgs (s : State) (net : List Msg) : State := s.modNet fun n => { n with msgs := net }

/-- A message that has fully arrived, or that has waited, is resolved after what the queue unit did by itself by then. -/
theorem arrival_resolves {s₀ : State} {t i : Nat} {m : Msg} {c : Instr} {net : List Msg} (ht : t < 2304)
    (h : (c = .messageArrival i ∧ s₀.net.msgs[i]? = some m ∧ t = hDtile m ∧ (s₀.refreshQueue t).takesArrivals t = true ∧
        (∀ e ∈ s₀.net.msgs.take i, msgFlow e ≠ msgFlow m) ∧ net = (s₀.refreshQueue t).net.msgs.eraseIdx i) ∨
      (c = .messageAccept t ∧ ((s₀.refreshQueue t).tile t).qu.inbox = some m ∧ (s₀.refreshQueue t).accepts t = true ∧
        net = (s₀.refreshQueue t).net.msgs)) :
    exec c s₀ = .next (((s₀.refreshQueue t).setMsgs net).resolve t m) := by
  rcases h with ⟨rfl, hm, rfl, htakes, hfirst, rfl⟩ | ⟨rfl, hm, hacc, rfl⟩
  · show execMessageArrival i s₀ = _
    unfold execMessageArrival
    rw [hm]
    dsimp only
    rw [if_neg (Nat.not_le.2 ht), if_neg]
    · rfl
    · rw [htakes]
      simpa using hfirst
  · show execMessageAccept t s₀ = _
    unfold execMessageAccept
    rw [if_neg (Nat.not_le.2 ht)]
    dsimp only
    rw [hm]
    exact if_pos hacc

/-! ## A message becomes visible (R265, R266) -/

theorem msgBytes_length (m : Msg) : (msgBytes m).length = hLen m := by
  rw [msgBytes, List.length_append, List.length_append, wordBytes, wordBytes, natLe_length, natLe_length, padTo_length, hLen]
  omega

/-- The byte at `k` of a byte string with `new` written from `i`. -/
theorem getElem?_splice {l new : List Byte} {i : Nat} (h : i + new.length ≤ l.length) (k : Nat) :
    (splice l i new)[k]? = if i ≤ k ∧ k < i + new.length then new[k - i]? else l[k]? := by
  have hi : (l.take i).length = i := by rw [List.length_take]; omega
  rw [splice, List.append_assoc, List.getElem?_append, hi, List.getElem?_append]
  by_cases hlo : k < i
  · rw [if_pos hlo, if_neg (by omega), List.getElem?_take_of_lt hlo]
  · rw [if_neg hlo]
    by_cases hhi : k - i < new.length
    · rw [if_pos hhi, if_pos (by omega)]
    · rw [if_neg hhi, if_neg (by omega), List.getElem?_drop]
      congr 1
      omega

theorem Map.getElem?_slice {α : Type} (d : α) (m : Map α) (lo n k : Nat) :
    (Map.slice d m lo n)[k]? = if k < n then some (Map.get d m (lo + k)) else none := by
  rw [Map.slice_eq, List.getElem?_map]
  split
  case isTrue h => rw [List.getElem?_range h]; rfl
  case isFalse h => rw [List.getElem?_eq_none (by simpa using h)]; rfl

/-- Whole rows written back with the bytes `b` in place from byte `a` hold those bytes, and every other byte reads as before. -/
theorem Tile.Wrote.bytes {x y : Tile} {lo n a : Nat} {b : List Byte} (hlo : 512 * lo ≤ a) (hhi : a + b.length ≤ 512 * (lo + n))
    (h : x.Wrote y lo (splice (Map.slice 0 x.sp (512 * lo) (512 * n)) (a - 512 * lo) b)) :
    Map.slice 0 y.sp a b.length = b ∧ ∀ k, k < a ∨ a + b.length ≤ k → Map.get 0 y.sp k = Map.get 0 x.sp k := by
  have hfit : a - 512 * lo + b.length ≤ (Map.slice 0 x.sp (512 * lo) (512 * n)).length := by rw [Map.length_slice]; omega
  obtain ⟨hrows, hrest⟩ := h
  rw [splice_length hfit, Map.length_slice] at hrows hrest
  have hbyte : ∀ k, k < 512 * n → some (Map.get 0 y.sp (512 * lo + k)) =
      if a - 512 * lo ≤ k ∧ k < a - 512 * lo + b.length then b[k - (a - 512 * lo)]? else some (Map.get 0 x.sp (512 * lo + k)) := by
    intro k hk
    have hat := congrArg (·[k]?) hrows
    simp only [Map.getElem?_slice, getElem?_splice hfit, if_pos hk] at hat
    exact hat
  constructor
  · refine List.ext_getElem? fun k => ?_
    rw [Map.getElem?_slice]
    split
    case isTrue hk =>
      have hat := hbyte (a - 512 * lo + k) (by omega)
      rw [if_pos (by omega), show 512 * lo + (a - 512 * lo + k) = a + k by omega, Nat.add_sub_cancel_left] at hat
      exact hat
    case isFalse hk => rw [List.getElem?_eq_none (by omega)]
  · intro k hk
    by_cases hin : 512 * lo ≤ k ∧ k < 512 * lo + 512 * n
    · have hat := hbyte (k - 512 * lo) (by omega)
      rw [if_neg (by omega), show 512 * lo + (k - 512 * lo) = k by omega] at hat
      exact Option.some.inj hat
    · exact hrest k (by omega)

/-- In a clear tile a run of bytes is written into a ring in the scratchpad (R165). -/
theorem State.ringWriteSp_of_clear {s : State} {t : Nat} (h : s.Clear t) (a : Nat) {b : List Byte} (hb : 0 < b.length) :
    ∃ s1, s.ringWriteSp t a b = (s1, true) ∧
      ((s.tile t).modIo fun io => { io with nextId := io.nextId + 1 }).Accessed (s1.tile t) ∧
      s1 = { s with tiles := s1.tiles, free := s1.free } ∧ Map.slice 0 (s1.tile t).sp a b.length = b ∧
      ∀ k, k < a ∨ a + b.length ≤ k → Map.get 0 (s1.tile t).sp k = Map.get 0 (s.tile t).sp k := by
  have hgood : ∀ r, (s.tile t).badRow r 1 = none := fun r => by simp [Tile.badRow, h.parity]
  unfold State.ringWriteSp
  extract_lets lo n part
  have hnone : part = none := List.find?_eq_none.2 fun i _ => by simp [hgood]
  have hlo : 512 * lo ≤ a := Nat.mul_div_le a 512
  have hhi : a + b.length ≤ 512 * (lo + n) := by simp only [lo, n]; omega
  have hlen : (splice (Map.slice 0 (s.tile t).sp (512 * lo) (512 * n)) (a - 512 * lo) b).length = 512 * n := by
    rw [splice_length] <;> rw [Map.length_slice]
    omega
  obtain ⟨hacc, hwrote, -, hrest⟩ := State.writeNow_of_clear (c := quAcct t) h lo hlen
  rw [hnone]
  exact ⟨_, rfl, hacc, hrest, hwrote.bytes hlo hhi⟩

/-- The oldest accepted message `r` counts in the occupancy and in `TILE_Q_RX`; `rest` are still being written (R266, R287). -/
def State.countVisible (s : State) (t : Nat) (r : MsgWr) (rest : List MsgWr) : State := s.modTile t fun z =>
  ((z.modQu fun u => { u with wrs := rest }).modQueue r.q fun u => { u with occ := u.occ + hLen r.m, wr := u.wr - hLen r.m }).count 0x708 1

section

variable {s : State} {t : Nat} {r : MsgWr} {rest : List MsgWr} (ht : t < 2304) (hs : s.sameTick = false)
  (hwrs : (s.tile t).qu.wrs = r :: rest) (hwait : r.wait = 0) (hst : (s.tile t).st ≠ 8)
include ht hs hwrs hwait hst

/-- A message that its accesses have written into the cluster store becomes visible (R183). -/
theorem messageVisible_in_store (hcs : ringInCs ((s.tile t).qcfg r.q) = true) : exec (.messageVisible t) s =
    .next (((s.countVisible t r rest).answer t r.m 0).refreshQueue t) := by
  show execMessageVisible t s = _
  rw [execMessageVisible, if_neg (Nat.not_le.2 ht), alongside_eq _ hs]
  dsimp only
  rw [hwrs]
  dsimp only
  rw [if_neg (by simp [hwait, hst]), hcs, if_pos rfl]
  rfl

/-- A message that does not wrap in a scratchpad ring is written there, then becomes visible. -/
theorem messageVisible_in_scratchpad (hcs : ringInCs ((s.tile t).qcfg r.q) = false) {off : Nat} {s1 : State}
    (hoff : (((s.tile t).queue r.q).head + ((s.tile t).queue r.q).occ) % ringSize ((s.tile t).qcfg r.q) = off)
    (hfit : off + hLen r.m ≤ ringSize ((s.tile t).qcfg r.q))
    (hwritten : s.ringWriteSp t (ringBase ((s.tile t).qcfg r.q) + off) (msgBytes r.m) = (s1, true)) :
    exec (.messageVisible t) s = .next (((s1.countVisible t r rest).answer t r.m 0).refreshQueue t) := by
  have hall : (msgBytes r.m).take (hLen r.m) = msgBytes r.m := List.take_of_length_le (Nat.le_of_eq (msgBytes_length r.m))
  show execMessageVisible t s = _
  rw [execMessageVisible, if_neg (Nat.not_le.2 ht), alongside_eq _ hs]
  dsimp only
  rw [hwrs]
  dsimp only
  rw [if_neg (by simp [hwait, hst]), hcs, if_neg Bool.false_ne_true, hoff, ringRuns, if_pos hfit, List.foldl_cons, List.foldl_nil,
    if_pos rfl, hall, hwritten]
  rfl

end

/-- What the message's bytes leave as it was of the module, before the message counts. -/
structure State.Written (s s1 : State) (t : Nat) : Prop where
  qu : (s1.tile t).qu = (s.tile t).qu
  late : (s1.tile t).io.late = (s.tile t).io.late
  sq : (s1.tile t).sq = (s.tile t).sq
  ctr : Map.get 0 (s1.tile t).ctr 0x708 = Map.get 0 (s.tile t).ctr 0x708
  clusters : s1.clusters = s.clusters
  net : s1.net = s.net

theorem State.Written.refl (s : State) (t : Nat) : s.Written s t := ⟨rfl, rfl, rfl, rfl, rfl, rfl⟩

theorem State.Written.of_accessed {s s1 : State} {t : Nat}
    (h : ((s.tile t).modIo fun io => { io with nextId := io.nextId + 1 }).Accessed (s1.tile t))
    (hrest : s1 = { s with tiles := s1.tiles, free := s1.free }) : s.Written s1 t where
  qu := h.reads Tile.qu
  late := (congrArg TileIo.late h.io :)
  sq := h.sq
  ctr := h.ctr _ (by decide) (by decide)
  clusters := by rw [hrest]
  net := by rw [hrest]

/-- What a message that has become visible leaves (R265, R266, R275, R287). -/
structure State.Shows (s s' : State) (t : Nat) (r : MsgWr) (rest : List MsgWr) : Prop where
  wrs : (s'.tile t).qu.wrs = rest
  queue : (s'.tile t).queue r.q =
    { (s.tile t).queue r.q with occ := ((s.tile t).queue r.q).occ + hLen r.m, wr := ((s.tile t).queue r.q).wr - hLen r.m }
  counted : Map.get 0 (s'.tile t).ctr 0x708 = Map.get 0 (s.tile t).ctr 0x708 + 1
  slips : (s'.tile t).qu.slips = (s.tile t).qu.slips ++ s.slips t r.m 0
  sq : (s'.tile t).sq = (s.tile t).sq
  clusters : s'.clusters = s.clusters

/-- A tile whose message has become visible and is answered by `out`. -/
def Tile.showMsg (x : Tile) (r : MsgWr) (rest : List MsgWr) (out : List Msg) : Tile :=
  let y := x.modQueue r.q fun u => { u with occ := u.occ + hLen r.m, wr := u.wr - hLen r.m }
  { x with ctr := ctrAdd x.ctr 0x708 1, qu := { y.qu with wrs := rest, slips := x.qu.slips ++ out } }

theorem Tile.showMsg_queue (x : Tile) (r : MsgWr) (rest : List MsgWr) (out : List Msg) : (x.showMsg r rest out).queue r.q =
    { x.queue r.q with occ := (x.queue r.q).occ + hLen r.m, wr := (x.queue r.q).wr - hLen r.m } :=
  x.queue_modQueue_self r.q fun u => { u with occ := u.occ + hLen r.m, wr := u.wr - hLen r.m }

theorem Tile.showMsg_counted (x : Tile) (r : MsgWr) (rest : List MsgWr) (out : List Msg) :
    Map.get 0 (x.showMsg r rest out).ctr 0x708 = Map.get 0 x.ctr 0x708 + 1 := Map.get_ctrAdd_self x.ctr 0x708 1

theorem State.countVisible_answer_tile (s : State) (t : Nat) (r : MsgWr) (rest : List MsgWr) :
    ((s.countVisible t r rest).answer t r.m 0).tile t = (s.tile t).showMsg r rest (s.slips t r.m 0) := by
  rw [State.answer_tile, State.slips_of_net (a := s) (b := s.countVisible t r rest) rfl, State.countVisible, State.modTile_tile_self]
  unfold Tile.showMsg Tile.count Tile.modQueue Tile.modQu
  rfl

/-- Once written, with no queue control in flight and no message waiting, a message counts, is answered, and that is all. -/
theorem State.Written.shows {s s1 : State} {t : Nat} (h : s.Written s1 t) (hlate : (s.tile t).io.late = [])
    (hinbox : (s.tile t).qu.inbox = none) (r : MsgWr) (rest : List MsgWr) :
    s.Shows (((s1.countVisible t r rest).answer t r.m 0).refreshQueue t) t r rest ∧
      ((((s1.countVisible t r rest).answer t r.m 0).refreshQueue t).tile t).sp = (s1.tile t).sp := by
  have htile := s1.countVisible_answer_tile t r rest
  have hclusters : ((s1.countVisible t r rest).answer t r.m 0).clusters = s.clusters := (State.answer_clusters _ _ _ _).trans h.clusters
  rw [State.slips_of_net h.net] at htile
  generalize (s1.countVisible t r rest).answer t r.m 0 = s2 at htile hclusters
  have hidle : s2.refreshQueue t = s2.modTile t id := by
    refine State.refreshQueue_idle ?_ ?_ <;> rw [htile, Tile.showMsg]
    · exact h.late.trans hlate
    · exact (congrArg TileQ.inbox h.qu).trans hinbox
  have hself : (s2.modTile t id).tile t = (s1.tile t).showMsg r rest (s.slips t r.m 0) := (State.modTile_tile_self _ _ _).trans htile
  have hqueue : (s1.tile t).queue r.q = (s.tile t).queue r.q := by rw [Tile.queue, h.qu, Tile.queue]
  rw [hidle]
  refine ⟨⟨?_, ?queue, ?counted, ?_, ?_, hclusters⟩, ?_⟩ <;> rw [hself]
  case queue => rw [Tile.showMsg_queue, hqueue]
  case counted => rw [Tile.showMsg_counted, h.ctr]
  all_goals rw [Tile.showMsg]
  · exact (congrArg (fun u : TileQ => u.slips ++ s.slips t r.m 0) h.qu :)
  · exact h.sq

/-! ## Slips and limits (R272, R275, R276, R285) -/

theorem State.sameTick_of_js {s : State} (h : s.job.js ≠ 6) : s.sameTick = false := by
  simp [State.sameTick, h]

/-- The oldest slip leaves for a tile of this module. -/
theorem returnSlipSend_sends {s : State} {t : Nat} {m : Msg} {rest : List Msg} (ht : t < 2304) (hslips : (s.tile t).qu.slips = m :: rest)
    (hst : (s.tile t).st ≠ 8) (hhere : hDmod m = s.modid) : ∃ s', exec (.returnSlipSend t) s = .next s' ∧ (s'.tile t).qu.slips = rest ∧
      s'.net = { s.net with msgs := s.net.msgs ++ [m] } ∧ Map.get 0 (s'.tile t).ctr 0x728 = Map.get 0 (s.tile t).ctr 0x728 + 1 ∧
      (s'.tile t).sp = (s.tile t).sp ∧ ∀ u, u ≠ t → s'.tile u = s.tile u := by
  have hrun : exec (.returnSlipSend t) s = .next
      ((s.modTile t fun y => (y.modQu fun u => { u with slips := rest }).count 0x728 1).sendMsg m) := by
    show execReturnSlipSend t s = _
    rw [execReturnSlipSend, if_neg (Nat.not_le.2 ht), hslips]
    exact if_neg hst
  rw [State.sendMsg_here (s := s) rfl _ _ hhere] at hrun
  refine ⟨_, hrun, ?_, rfl, ?_, ?_, fun u hu => ?tiles⟩ <;> rw [State.modNet_tile]
  case tiles => exact State.modTile_tile_ne _ _ _ _ hu
  all_goals rw [State.modTile_tile_self]
  · rfl
  · exact Map.get_ctrAdd_self (s.tile t).ctr 0x728 1
  · rfl

/-- No watchdog expires while the limits are suspended. -/
theorem syncWdogExpiry_suspended {s : State} {t : Nat} (ht : t < 2304) (htick : s.sameTick = false) (h : s.suspended = true) (kind : Nat)
    (q : Strm) : exec (.syncWdogExpiry t kind q) s = .next s := by
  show execSyncWdogExpiry t kind q s = _
  rw [execSyncWdogExpiry, if_neg (Nat.not_le.2 ht)]
  dsimp only
  rw [htick]
  exact if_neg (by simp [h])

section

variable {s : State} {t : Nat} {m : Msg} (ht : t < 2304) (hinbox : (s.tile t).qu.inbox = some m) (hjs : s.job.js ≠ 6)
include ht hinbox hjs

theorem ringWaitExpiry_suspended (h : s.suspended = true) : exec (.ringWaitExpiry t) s = .next s := by
  show execRingWaitExpiry t s = _
  rw [execRingWaitExpiry, if_neg (Nat.not_le.2 ht), alongside_eq _ (State.sameTick_of_js hjs), hinbox]
  exact if_pos (.inl h)

/-- A message that has waited for the limit is dropped, and its tile faults. -/
theorem ringWaitExpiry_drops (h : s.suspended = false) : ∃ s', exec (.ringWaitExpiry t) s = .next s' ∧ (s'.tile t).qu.inbox = none ∧
    ((s'.tile t).queue (hDq m)).drops = ((s.tile t).queue (hDq m)).drops + 1 ∧
    (s'.tile t).fault = tileFaultWord (s.tile t).fault 4 0xB (ringDetail 1 (hDq m)) 0 := by
  have hrun : exec (.ringWaitExpiry t) s = .next ((s.modTile t fun y => (y.modQu fun u => { u with inbox := none }).modQueue (hDq m)
      fun u => { u with drops := u.drops + 1 }).tileFault t 4 0xB (ringDetail 1 (hDq m)) 0) := by
    show execRingWaitExpiry t s = _
    rw [execRingWaitExpiry, if_neg (Nat.not_le.2 ht), alongside_eq _ (State.sameTick_of_js hjs), hinbox]
    exact if_neg (by simp [h, hjs])
  refine ⟨_, hrun, ?_, ?_, ?_⟩
  · rw [State.ringFault_qu]
    rfl
  · rw [Tile.queue, State.ringFault_qu]
    exact congrArg Queue.drops (Map.get_set_self _ _ _ _)
  · rw [State.ringFault_fault]
    rfl

end

/-! ## Messages arrive -/

/-- Settles O34: a message is resolved by its verdict, shown once its bytes stand in the ring, and dropped where it has waited too long; a
fault that this raises leaves the queue unit as it was. -/
theorem messagesArrive : Obligations.MessagesArrive := by
  unfold Obligations.MessagesArrive
  refine ⟨fun s₀ t i m c net ht => ?resolved, fun s t r rest ht htick hwrs hwait hst hlate hinbox => ?visible,
    fun s t m rest ht hslips hst hhere => returnSlipSend_sends ht hslips hst hhere,
    fun s t m ht hinbox hjs => ⟨ringWaitExpiry_suspended ht hinbox hjs, ringWaitExpiry_drops ht hinbox hjs⟩,
    fun s t kind q ht htick hsusp => syncWdogExpiry_suspended ht htick hsusp kind q⟩
  case resolved =>
    intro s hc x k y cfg cl tl sum slips left dropped
    have hrun : exec c s₀ = .next ((s.setMsgs net).resolve t m) := arrival_resolves ht hc
    have hdropped : ∀ {ctr out}, (s.setMsgs net).Drops
        ((s.setMsgs net).resolve t m) t k ctr out → dropped ctr out := by
      rintro ctr out ⟨hinbox, hnet, hqueue, hcounted, hslips, hsp, hqueues, htiles⟩
      exact ⟨_, ⟨hrun, hinbox, congrArg Net.msgs hnet⟩, hqueue, hcounted, hslips, hsp, hqueues, htiles⟩
    refine ⟨fun hepoch htform => hdropped (State.resolve_old_drops hepoch htform), fun hepoch htform => ?oldTally,
      fun hepoch => ⟨fun htform hoff hlo hhi => ?tally, fun htform => ⟨fun hoff => hdropped (State.resolve_closed_drops hepoch htform hoff),
        fun hon hopen => ⟨fun hlen hovf => hdropped (State.resolve_oversize_drops hepoch htform hon hopen hlen hovf),
          fun hlen hovf => ⟨_, hrun, State.resolve_oversize_faults hepoch htform hon hopen hlen hovf⟩,
          fun hlen hroom => ?fits, fun hlen hroom => ?waits⟩⟩⟩⟩
    case oldTally =>
      obtain ⟨hinbox, hnet, hcounted, htally⟩ :=
        State.resolve_old_counts (s := s.setMsgs net) (t := t) hepoch htform
      exact ⟨_, ⟨hrun, hinbox, congrArg Net.msgs hnet⟩, hcounted, htally⟩
    case tally =>
      obtain ⟨hinbox, hnet, htally, hcounted, hslips⟩ := State.resolve_tally_adds (s := s.setMsgs net) (t := t)
        hepoch htform hoff (tl := tl) rfl (n := sum) rfl hlo hhi
      exact ⟨_, ⟨hrun, hinbox, congrArg Net.msgs hnet⟩, htally, hcounted, hslips⟩
    case fits =>
      obtain ⟨hinbox, hnet, hqueue, hwrs, hwaiting, hsp⟩ := State.resolve_fits_accepts (s := s.setMsgs net)
        (t := t) hepoch htform hon hopen hlen hroom
      exact ⟨_, ⟨hrun, hinbox, congrArg Net.msgs hnet⟩, hqueue, hwrs, hwaiting, hsp⟩
    case waits =>
      obtain ⟨hnet, htile⟩ := State.resolve_waits_stays (s := s.setMsgs net) (t := t) hepoch htform hon hopen
        hlen hroom
      refine ⟨_, hrun, ?_, congrArg Net.msgs hnet, ?_, ?_⟩ <;> rw [htile] <;> rfl
  case visible =>
    intro x y cfg off seen
    have hseen : ∀ {s'}, exec (.messageVisible t) s = .next s' → s.Shows s' t r rest → seen s' := fun hexec h =>
      ⟨hexec, h.wrs, h.queue, h.counted, h.slips, h.sq, h.clusters⟩
    refine ⟨fun hcs => ?store, fun hcs hclear _ hfit => ?scratchpad⟩
    case store =>
      obtain ⟨hshows, hsp⟩ := (State.Written.refl s t).shows hlate hinbox r rest
      exact ⟨_, hseen (messageVisible_in_store ht htick hwrs hwait hst hcs) hshows, hsp⟩
    case scratchpad =>
      have hlen := msgBytes_length r.m
      obtain ⟨s1, hwritten, hacc, hrest, hbytes, hothers⟩ := State.ringWriteSp_of_clear hclear (ringBase cfg + off) (b := msgBytes r.m)
        (by rw [hlen, hLen]; omega)
      obtain ⟨hshows, hsp⟩ := (State.Written.of_accessed hacc hrest).shows hlate hinbox r rest
      rw [hlen] at hbytes hothers
      refine ⟨_, hseen (messageVisible_in_scratchpad ht htick hwrs hwait hst hcs rfl hfit hwritten) hshows, ?_⟩
      rw [hsp]
      exact ⟨hbytes, hothers⟩

end Sys2Proof.Machine

/-! # Update operations take their place (R54, R64, R155, R157, R294)

A `UPD` that issues with the vector unit empty starts at once: it reads its coefficient row, and its accesses in flight are compared with
the runs under that row. Where no access of another operation bears its number they are the ones it has added at its issue. -/

namespace Sys2Proof.Machine

/-! ## A `UPD` that starts at its issue -/

theorem runAccs_id (id eng q : Nat) (l : List Run) : ∀ a ∈ runAccs id eng q l, a.id = id := by
  intro a ha
  obtain ⟨r, -, rfl⟩ := List.mem_map.1 ha
  rfl

/-- The accesses under number `id` where `acc` joined others none of which bears it. -/
theorem own_accs_of_fresh {old acc all : List Acc} {id : Nat} (hall : all.map Acc.bare = old.map Acc.bare ++ acc)
    (hfresh : ∀ a ∈ old, a.id ≠ id) (hown : ∀ a ∈ acc, a.id = id) :
    (all.filter fun a => decide (a.id = id)).map Acc.bare = acc := by
  have hnone : (old.map Acc.bare).filter (fun a => decide (a.id = id)) = [] := List.filter_eq_nil_iff.2 fun b hb => by
    obtain ⟨a, ha, rfl⟩ := List.mem_map.1 hb
    exact fun h => hfresh a ha (of_decide_eq_true h)
  calc (all.filter fun a => decide (a.id = id)).map Acc.bare
      = (all.map Acc.bare).filter fun a => decide (a.id = id) := by rw [List.filter_map]; rfl
    _ = acc := by
      rw [hall, List.filter_append, hnone, List.nil_append, List.filter_eq_self.2 fun a ha => decide_eq_true (hown a ha)]

/-- The registers a `UPD` captures (R155, R156). -/
def Seq.updRegs (v : Seq) (w : Word) : List Word :=
  [38, 35, 32, 29, 26].map (fun p => v.areg (fld w p 3)) ++ [v.sreg (fld w 21 5), v.sreg (fld w 16 5)]

/-- The operation of an issuing `UPD`, not started. -/
def State.updOpOf (s : State) (t : Nat) (q : Strm) (w : Word) : Op := s.opOf t q w (((s.tile t).seq q).updRegs w) []

/-- A `UPD` that issues stalls at the limit (R54); else it joins the vector unit, and starts if it is the oldest (R294). -/
theorem upd_runs {s e : State} {t : Nat} {q : Strm} {w : Word} {k : List Word} (he : s.enter t q = e)
    (hk : (e.tile t).coef (fld w 41 6) = k) (h : e.Issues t q w (if bit w 15 then [fld w 21 5, fld w 16 5] else []))
    (hkey : keyOf w = 0x800) : exec (.upd t q) s = .next
      (if 16 ≤ (e.tile t).io.vec.length then e.stall (e.site t q w) 1
      else (e.joined (e.site t q w) (TileIo.queueVec (e.updOpOf t q w))
        (if coefOk k then updAccs (e.updOpOf t q w) k else [])).startUpd t) := by
  subst he hk
  show execUpd t q s = _
  rw [execUpd, tileInsn_runs (regs := fun w => if bit w 15 then [fld w 21 5, fld w 16 5] else []) h hkey]
  rfl

/-- The oldest `UPD` starts with the row it reads where the row and its runs pass their checks and its accesses in flight are those of its
runs (R294). -/
theorem State.startUpd_starts {s : State} {t : Nat} {o : Op} {k : List Word} (hvec : (s.tile t).io.vec = [o])
    (hop : fld o.w 56 8 = 0x80) (hgo : o.go = false) (hgood : (s.tile t).badCoef (fld o.w 41 6) = none)
    (hk : (s.tile t).coef (fld o.w 41 6) = k) (hok : coefOk k = true)
    (hruns : (((updRuns o.v k).map (updRun o.w)).map Run.check).findSome? id = none)
    (hown : ((s.tile t).io.acc.filter fun a => decide (a.id = o.id)).map Acc.bare = updAccs o k) :
    s.startUpd t = s.modTile t fun y => y.modIo fun io =>
      { io with vec := [{ o with go := true, v := o.v.take 7 ++ k }] } := by
  unfold State.startUpd
  extract_lets x
  have hx : x.io.vec = [o] := hvec
  rw [hx]
  dsimp only
  rw [if_neg (by simp [hop, hgo]), show x.badCoef _ = none from hgood, show x.coef _ = k from hk]
  dsimp only
  rw [if_pos hok, hruns]
  dsimp only
  refine if_pos ?_
  rw [show x.io.acc = (s.tile t).io.acc from rfl, ← hown]
  generalize List.filter _ (s.tile t).io.acc = l
  refine ⟨(List.length_map _).symm, List.all_eq_true.2 fun p hp => ?_⟩
  have hzip : l.zip (l.map Acc.bare) = l.map fun a => (a, a.bare) := by simpa using List.zip_map' (f := id) (g := Acc.bare) (l := l)
  rw [hzip] at hp
  obtain ⟨a, -, rfl⟩ := List.mem_map.1 hp
  exact decide_eq_true ⟨rfl, rfl, rfl⟩

theorem TileIo.queueVec_of_empty {io : TileIo} (h : io.vec = []) (p : Op) : TileIo.queueVec p io = { io with vec := [p] } := by
  rw [TileIo.queueVec, h]
  rfl

/-- The operation `o` that has joined alone stands there changed to `p`. -/
theorem State.Taken.setAlone {s s' : State} {t : Nat} {q : Strm} {w : Word} {v : Seq} {o : Op} {acc : List Acc}
    (h : s.Taken s' t q w v (TileIo.queueVec o) acc) (hvec : (s.tile t).io.vec = []) (p : Op) :
    s.Taken (s'.modTile t fun y => y.modIo fun io => { io with vec := [p] }) t q w v (TileIo.queueVec p) acc := by
  obtain ⟨hseq, hstreams, hx, hdata, hops, hacc, hctr, hrest⟩ := h
  have htile := s'.modTile_tile_self t fun y => y.modIo fun io => { io with vec := [p] }
  have hrest' := hrest.setTile ((s'.tile t).modIo fun io => { io with vec := [p] })
  refine ⟨htile ▸ hseq, fun r hr => htile ▸ hstreams r hr, htile ▸ hx, htile ▸ hdata, ?_, htile ▸ hacc, fun i hi => htile ▸ hctr i hi, hrest'⟩
  rw [htile]
  exact (congrArg (fun io : TileIo => { io with vec := [p] }) hops).trans (TileIo.queueVec_of_empty
    (io := { (s.tile t).io with nextId := (s.tile t).io.nextId + 1, acc := [] }) hvec p).symm

/-- A `UPD` that issues alone with a good row and its runs in range is started and keeps the row it read, where no access in flight bears
the number that the operation takes. -/
theorem upd_starts_of_fresh {s e : State} {t : Nat} {q : Strm} {w : Word} {k : List Word} (he : s.enter t q = e) (hq : q ≠ .x)
    (hk : (e.tile t).coef (fld w 41 6) = k) (h : e.Issues t q w (if bit w 15 then [fld w 21 5, fld w 16 5] else []))
    (hkey : keyOf w = 0x800) (hsound : e.soundChk 0 = false) (hvec : (e.tile t).io.vec = [])
    (hgood : (e.tile t).badCoef (fld w 41 6) = none) (hok : coefOk k = true)
    (hfit : ∀ r ∈ (updRuns (((e.tile t).seq q).updRegs w) k).map (updRun w), r.lo + r.n ≤ 768)
    (hfresh : ∀ a ∈ (e.tile t).io.acc, a.id ≠ (e.tile t).io.nextId) :
    let o := e.updOpOf t q w
    ∃ s', exec (.upd t q) s = .next s' ∧ e.Taken s' t q w ((e.tile t).seq q)
      (TileIo.queueVec { o with go := true, v := o.v ++ k }) (updAccs o k) := by
  intro o
  have hrun := upd_runs he hk h hkey
  rw [if_pos hok, if_neg (by rw [hvec]; decide)] at hrun
  change exec (.upd t q) s = .next ((e.joined (e.site t q w) (TileIo.queueVec o) (updAccs o k)).startUpd t) at hrun
  have htaken : e.Taken (e.joined (e.site t q w) (TileIo.queueVec o) (updAccs o k)) t q w ((e.tile t).seq q) (TileIo.queueVec o)
      (updAccs o k) := State.joined_taken hsound hq (TileIo.queueVec_keepsAcc o) (runAccs_racy _ _ _ _)
  generalize e.joined (e.site t q w) (TileIo.queueVec o) _ = j at hrun htaken
  have hjvec : (j.tile t).io.vec = [o] := (congrArg TileIo.vec htaken.ops :).trans (congrArg (· ++ [o]) hvec)
  have hctab : (j.tile t).ctab = (e.tile t).ctab := htaken.data.ctab.1
  have hbad : (j.tile t).ctabBad = (e.tile t).ctabBad := htaken.data.ctab.2
  have hruns : (((updRuns o.v k).map (updRun o.w)).map Run.check).findSome? id = none := runs_check_of_fit fun r hr => by
    have hr768 := hfit r hr
    obtain ⟨p, -, rfl⟩ := List.mem_map.1 hr
    exact hr768
  have hstart := State.startUpd_starts hjvec (opcode_of_key hkey rfl) rfl (by rw [Tile.badCoef, hbad]; exact hgood)
    (by rw [Tile.coef, hctab]; exact hk) hok hruns (own_accs_of_fresh htaken.acc hfresh (runAccs_id _ _ _ _))
  rw [hstart] at hrun
  exact ⟨_, hrun, htaken.setAlone hvec _⟩

/-! ## An access under the number of the next operation -/

/-- `UPD` of coefficient row 0, one block, with `A0` as every operand's register and the row's own scalars. -/
def updOfA0 : Word := 0x8000000000000000

/-- A running job whose tile 0 stands at `updOfA0` with stream U, the vector unit empty, while one access in flight bears the number that
the next operation will bear. -/
def State.staleAccess : State := { State.reset with
  tiles := [(0, {
    st := 3
    cfg := [(0x18, 0x1E4), (0x20, 0x0103010201010100)]
    im := [(128, updOfA0)]
    io := { acc := [{ id := 0 }], nextId := 0 } })]
  regions := [(0, { pwr := 0 })]
  job := { js := 4, img := some noImage, tiles := [0] } }

theorem State.staleAccess_issues : (State.staleAccess.enter 0 .u).Issues 0 .u updOfA0 [] where
  unit := by decide
  may := by decide
  inPart := by decide
  noBreak := .inl rfl
  parity := by decide
  word := by decide
  legal := by decide
  pred := .inr (by decide)
  ready := fun _ hr => absurd hr List.not_mem_nil
  mark := fun hmark => absurd hmark (by decide)
  free := by decide

/-- The accesses in flight on tile 0 after a command. -/
def accsAfter : Out → List Acc
  | .next s => (s.tile 0).io.acc
  | _ => []

/-- The start of the `UPD` names its four runs anew and drops every access that bears its number. -/
theorem State.staleAccess_dropped : (accsAfter (exec (.upd 0 .u) State.staleAccess)).length = 4 := by decide

/-- Refutes O24: the statement is about every state, also one in which an access in flight bears the number that the next operation will
bear. There a `UPD` that starts at its issue finds an access under its number that is none of its runs and names its accesses anew, which
drops that one, so that fewer accesses are in flight than the statement says. Where no access bears that number the clause holds
(`upd_starts_of_fresh`). -/
theorem not_updateIssue : ¬ Obligations.UpdateIssue := by
  unfold Obligations.UpdateIssue
  intro h
  obtain ⟨-, hupd⟩ := h State.staleAccess 0 .u updOfA0 (by decide) (by decide)
  obtain ⟨-, -, hstarts, -⟩ := hupd (by decide) State.staleAccess_issues
  obtain ⟨s', hexec, htaken⟩ := hstarts (by decide) (by decide) (by decide) (by decide)
  have hleft := State.staleAccess_dropped
  rw [hexec] at hleft
  have hjoined := congrArg List.length htaken.acc
  rw [List.length_map] at hjoined
  exact absurd (hleft.symm.trans hjoined) (by decide)

end Sys2Proof.Machine

/-! # Update operations complete (R157, R289 to R298, R304, R308)

A started `UPD` reads its operands as they stand, computes its lanes under the row it read at its start, and writes each operand that the
row uses; `CTW` and `CTR` move 64 bytes between the coefficient table and the scratchpad. -/

namespace Sys2Proof.Machine

/-! ## Operands of a `UPD` -/

/-- The values of an operand are those of the scratchpad. -/
theorem Tile.updVals_of_sp {x y : Tile} (h : y.sp = x.sp) : y.updVals = x.updVals := by
  unfold Tile.updVals Tile.rows
  rw [h]

section

variable {s s1 : State} {c : Acct} {o : Op} (hq : s.Quiet c.t o.id) {l : List (Nat × Nat × Nat × Bool)} {i : Nat}
  (hown : updShared o.w l i = [])
include hq hown

/-- An operand whose rows no other operand covers is read as it stands (R289, R297). -/
theorem State.updRead_reads (bias : Int) : s.Reads c.t (s.updRead c o l i bias) ((s.tile c.t).updVals o l i bias) := by
  unfold State.updRead Tile.updVals
  rw [hown, hq.reads, hq.writes]
  cases l.find? fun r => decide (r.1 = i) with
  | none => exact .pure s c.t _
  | some r =>
    have hread := s.opRead_reads hq r.2.1 (updRows o.w r.2.2.1)
    rw [State.opRead, hq.reads] at hread
    exact hread.map _

/-- So it is after other reads. -/
theorem State.Reads.updRead {α : Type} {r : State × Option α} {v : α} (h : s.Reads c.t r v) (bias : Int) :
    s.Reads c.t (r.1.updRead c o l i bias) ((s.tile c.t).updVals o l i bias) := by
  have hread := State.updRead_reads (hq.of_accessed h.toAccessed) hown bias
  exact ⟨h.toAccessed.trans hread.toAccessed, hread.sp.trans h.sp, by rw [hread.value, Tile.updVals_of_sp h.sp]⟩

/-- After accesses to rows, an operand whose rows no other operand covers is written as given, if the coefficient row uses it (R292,
R297). -/
theorem State.Accessed.updWrite (h : s.Accessed s1 c.t) (codes : List Nat) :
    s.Accessed (s1.updWrite c o l i codes) c.t ∧ (s1.tile c.t).WroteUpd ((s1.updWrite c o l i codes).tile c.t) o l i codes := by
  have hq1 := hq.of_accessed h
  unfold State.updWrite Tile.WroteUpd
  rw [hown, hq1.writes]
  cases l.find? fun r => decide (r.1 = i) with
  | none => exact ⟨h, rfl⟩
  | some r =>
    obtain ⟨hacc, hwrote⟩ := s1.opWrite_writes hq1 r.2.1 (packRows_length r.2.2.1 (updRows o.w r.2.2.1) codes)
    rw [State.opWrite, hq1.writes] at hacc hwrote
    exact ⟨h.trans hacc, hwrote⟩

end

theorem Tile.WroteUpd.congr {x x' y y' : Tile} {o : Op} {l : List (Nat × Nat × Nat × Bool)} {i : Nat} {codes : List Nat}
    (h : x.WroteUpd y o l i codes) (hx : x'.sp = x.sp) (hy : y'.sp = y.sp) : x'.WroteUpd y' o l i codes := by
  unfold Tile.WroteUpd Tile.Wrote at h ⊢
  rw [hx, hy]
  exact h

/-! ## What a `UPD` computes -/

/-- The scalars of a completing `UPD` (R289, R304). -/
def Tile.updScalars (x : Tile) (o : Op) : UpdCoef := updCoef o.w o.v (updRow o) x.misc.norm

/-- The exponent biases of m and v under a coefficient row (R97, R293). -/
def biasM (k : List Word) : Int := sextNat 7 (fld (k.getD 5 0) 0 7)
def biasV (k : List Word) : Int := sextNat 7 (fld (k.getD 5 0) 16 7)

/-- New weight, first and second state of each element, from the values of the operands (R289). -/
def updLanesOf (k : List Word) (u : UpdCoef) (w m v g : List Fp) : List (Fp × Fp × Fp) :=
  ((w.zip m).zip (v.zip g)).map fun e => updLane (cMode k) u e.1.1 e.1.2 e.2.1 e.2.2

/-- The lanes of a completing `UPD`. -/
def Tile.updLanes (x : Tile) (o : Op) : List (Fp × Fp × Fp) :=
  let k := updRow o
  let l := updRuns o.v k
  updLanesOf k (x.updScalars o) (x.updVals o l 0 0) (x.updVals o l 1 (biasM k)) (x.updVals o l 2 (biasV k)) (x.updVals o l 3 0)

section

variable (k : List Word) (res : List (Fp × Fp × Fp))

/-- What the lanes write as weight, first state, second state and narrow copy, each in its format, with the events (R97, R292). -/
def updWeights : List (Nat × Option NumEv) := res.map fun e => updOut (cFw k) (bit (k.getD 6 0) 6) 0 e.1
def updFirsts : List (Nat × Option NumEv) :=
  res.map fun e => updOut (cFm k) (bit (k.getD 6 0) 6) (biasM k + deltaVal (fld (k.getD 5 0) 8 2)) e.2.1
def updSeconds : List (Nat × Option NumEv) :=
  res.map fun e => updOut (cFv k) (bit (k.getD 6 0) 6) (biasV k + deltaVal (fld (k.getD 5 0) 24 2)) e.2.2
def updCopies : List (Nat × Option NumEv) := res.map fun e => narrow (cFn k) (bit (k.getD 6 0) 8) e.1

/-- The events of the operands that the row uses (R292). -/
def updEvents : List NumEv :=
  (updWeights k res).filterMap (·.2) ++ (if !cNom k then (updFirsts k res).filterMap (·.2) else []) ++
    (if decide (cMode k = 0) then (updSeconds k res).filterMap (·.2) else []) ++
    if cNc k then (updCopies k res).filterMap (·.2) else []

/-- Word 7 of the row with the statistics of the states written in a narrow format (R98, R296). -/
def updWord7 (w7 : Word) : Word :=
  mergeStats w7 (if !cNom k ∧ cFm k ≠ 0 then some (updStats (cFm k) ((updFirsts k res).map (·.1))) else none)
    (if decide (cMode k = 0) ∧ cFv k ≠ 0 then some (updStats (cFv k) ((updSeconds k res).map (·.1))) else none)

end

/-- Whether the clip has lowered the gradients (R308). -/
def UpdCoef.clips (u : UpdCoef) : Bool := decide (u.c = .nan) || Fp.less u.c one32

/-- Counting events looks at the counters only, and counts the five numeric ones only (R95). -/
theorem Tile.countEvs_ctr {x y : Tile} (h : x.ctr = y.ctr) (l : List NumEv) : (x.countEvs l).ctr = (y.countEvs l).ctr := by
  unfold Tile.countEvs
  induction l generalizing x y with
  | nil => exact h
  | cons e l ih => exact ih (congrArg (ctrAdd · (numEvOff e) 1) h)

theorem Tile.countEvs_ctr_of_ne (x : Tile) (l : List NumEv) {p : Nat} (h : ∀ e, p ≠ numEvOff e) :
    Map.get 0 (x.countEvs l).ctr p = Map.get 0 x.ctr p := by
  unfold Tile.countEvs
  induction l generalizing x with
  | nil => rfl
  | cons e l ih => rw [List.foldl_cons, ih, Tile.countOther _ _ _ _ (h e)]

/-- What a completing `UPD` does to its tile beside its rows: the statistics of its row and the counters (R98, R292, R308). -/
def Tile.updRecord (o : Op) (u : UpdCoef) (res : List (Fp × Fp × Fp)) (y : Tile) : Tile :=
  let y1 := { y with ctab := Map.mod 0 y.ctab (8 * fld o.w 41 6 + 7) (updWord7 (updRow o) res) }
  let y2 := (y1.countEvs (updEvents (updRow o) res)).count 0x418 (updN o.w)
  if u.clips then y2.count 0x420 1 else y2

section

variable (o : Op) (u : UpdCoef) (res : List (Fp × Fp × Fp)) (y : Tile)

theorem Tile.updRecord_eq : y.updRecord o u res =
    { y with
      ctab := Map.mod 0 y.ctab (8 * fld o.w 41 6 + 7) (updWord7 (updRow o) res)
      ctr := (y.updRecord o u res).ctr } := by
  unfold Tile.updRecord
  dsimp only
  rw [Tile.countEvs_eq]
  split <;> rfl

theorem Tile.updRecord_onlySeq : y.OnlySeq (y.updRecord o u res) o.q (y.seq o.q) := by
  rw [Tile.updRecord_eq]
  exact ⟨rfl, fun _ _ => rfl, rfl, rfl, rfl, rfl⟩

theorem Tile.updRecord_ctab : (y.updRecord o u res).ctab = Map.mod 0 y.ctab (8 * fld o.w 41 6 + 7) (updWord7 (updRow o) res) := by
  rw [Tile.updRecord_eq]

/-- Blocks and clips are counted beside the events. -/
theorem Tile.updRecord_ctr (p : Nat) : Map.get 0 (y.updRecord o u res).ctr p =
    Map.get 0 ((y.countEvs (updEvents (updRow o) res)).count 0x418 (updN o.w)).ctr p + if p = 0x420 ∧ u.clips = true then 1 else 0 := by
  unfold Tile.updRecord
  extract_lets y1 y2
  have hy2 : y2.ctr = ((y.countEvs (updEvents (updRow o) res)).count 0x418 (updN o.w)).ctr :=
    congrArg (ctrAdd · 0x418 (updN o.w)) (Tile.countEvs_ctr (x := y1) (y := y) rfl _)
  rw [← hy2]
  by_cases hclip : u.clips = true
  · rw [if_pos hclip]
    by_cases hp : p = 0x420
    · rw [hp, if_pos ⟨rfl, hclip⟩, Tile.countSelf]
      rfl
    · rw [if_neg fun h => hp h.1, Tile.countOther _ _ _ _ hp, add_zero]
  · rw [if_neg hclip, if_neg fun h => hclip h.2, add_zero]

theorem Tile.updRecord_counted : y.CountedEvs (y.updRecord o u res) (updEvents (updRow o) res) := fun e => by
  rw [Tile.updRecord_ctr, if_neg fun h => absurd h.1 (by cases e <;> decide), add_zero,
    Tile.countOther _ _ _ _ (by cases e <;> decide), Tile.countEvs_counted]

theorem Tile.updRecord_blocks :
    Map.get 0 (y.updRecord o u res).ctr 0x418 = Map.get 0 y.ctr 0x418 + BitVec.ofNat 64 (updN o.w) := by
  rw [Tile.updRecord_ctr, if_neg fun h => absurd h.1 (by decide), add_zero, Tile.countSelf,
    Tile.countEvs_ctr_of_ne _ _ fun e => by cases e <;> decide]

theorem Tile.updRecord_clips :
    Map.get 0 (y.updRecord o u res).ctr 0x420 = Map.get 0 y.ctr 0x420 + if u.clips = true then 1 else 0 := by
  rw [Tile.updRecord_ctr, Tile.countOther _ _ _ _ (by decide), Tile.countEvs_ctr_of_ne _ _ fun e => by cases e <;> decide]
  simp only [true_and]

end

/-! ## A `UPD` completes -/

theorem State.updEnd_eq {s : State} {t : Nat} {o : Op} {c : Acct} (hc : o.vecAcct t = c) : s.updEnd t o =
    let k := updRow o
    let l := updRuns o.v k
    let u := (s.tile t).updScalars o
    andThen (s.updRead c o l 3 0) fun s g => andThen (s.updRead c o l 0 0) fun s w => andThen (s.updRead c o l 1 (biasM k)) fun s m =>
    andThen (s.updRead c o l 2 (biasV k)) fun s v =>
      let res := updLanesOf k u w m v g
      (((((s.updWrite c o l 0 ((updWeights k res).map (·.1))).updWrite c o l 1 ((updFirsts k res).map (·.1))).updWrite c o l 2
        ((updSeconds k res).map (·.1))).updWrite c o l 4 ((updCopies k res).map (·.1))).modTile t (Tile.updRecord o u res)).vecDone t o := by
  subst hc
  rfl

/-- A started `UPD` in a quiet tile whose runs share no row writes its four results and records them (R289, R292, R297). -/
theorem State.updEnd_writes {s : State} {t : Nat} {o : Op} (hq : s.Quiet t o.id)
    (hown : ∀ i, updShared o.w (updRuns o.v (updRow o)) i = []) {res : List (Fp × Fp × Fp)} (hres : (s.tile t).updLanes o = res) :
    let k := updRow o
    let l := updRuns o.v k
    ∃ s1 s2 s3 s4 : State, s.Accessed s4 t ∧ (s.tile t).WroteUpd (s1.tile t) o l 0 ((updWeights k res).map (·.1)) ∧
      (s1.tile t).WroteUpd (s2.tile t) o l 1 ((updFirsts k res).map (·.1)) ∧
      (s2.tile t).WroteUpd (s3.tile t) o l 2 ((updSeconds k res).map (·.1)) ∧
      (s3.tile t).WroteUpd (s4.tile t) o l 4 ((updCopies k res).map (·.1)) ∧
      s.updEnd t o = (s4.modTile t (Tile.updRecord o ((s.tile t).updScalars o) res)).vecDone t o := by
  obtain ⟨c, hc, rfl⟩ : ∃ c, o.vecAcct t = c ∧ c.t = t := ⟨_, rfl, rfl⟩
  intro k l
  rw [State.updEnd_eq hc]
  subst hres
  have hg := State.updRead_reads hq (hown 3) 0
  rw [hg.andThen_eq]
  have hw := hg.updRead hq (hown 0) 0
  rw [hw.andThen_eq]
  have hm := hw.updRead hq (hown 1) (biasM k)
  rw [hm.andThen_eq]
  have hv := hm.updRead hq (hown 2) (biasV k)
  rw [hv.andThen_eq]
  obtain ⟨h1, hwrote1⟩ := hv.toAccessed.updWrite hq (hown 0) ((updWeights k ((s.tile c.t).updLanes o)).map (·.1))
  obtain ⟨h2, hwrote2⟩ := h1.updWrite hq (hown 1) ((updFirsts k ((s.tile c.t).updLanes o)).map (·.1))
  obtain ⟨h3, hwrote3⟩ := h2.updWrite hq (hown 2) ((updSeconds k ((s.tile c.t).updLanes o)).map (·.1))
  obtain ⟨h4, hwrote4⟩ := h3.updWrite hq (hown 4) ((updCopies k ((s.tile c.t).updLanes o)).map (·.1))
  exact ⟨_, _, _, _, h4, hwrote1.congr hv.sp.symm rfl, hwrote2, hwrote3, hwrote4, rfl⟩

/-! ## The completion of an operation of the update engine -/

/-- The same range written twice holds what was written last. -/
theorem Map.setRange_setRange {α : Type} [DecidableEq α] (d : α) (m : Map α) (lo : Nat) {vs vs' : List α} (h : vs'.length = vs.length) :
    Map.setRange d (Map.setRange d m lo vs) lo vs' = Map.setRange d m lo vs' := by
  have hwithin : ∀ P : Nat × α → Bool, (∀ p : Nat × α, lo ≤ p.1 → p.1 < lo + vs.length → P p = false) →
      (Map.entries d lo vs).filter P = [] := fun P hP =>
    List.filter_eq_nil_iff.2 fun p hp => by
      obtain ⟨hlo, hhi, -⟩ := Map.mem_entries d vs lo p hp
      rw [hP p hlo hhi]
      decide
  have hbelow := hwithin (fun p => decide (p.1 < lo)) fun p hlo _ => decide_eq_false (Nat.not_lt.2 hlo)
  have habove := hwithin (fun p => decide (lo + vs.length ≤ p.1)) fun p _ hhi => decide_eq_false (Nat.not_le.2 hhi)
  have hapart : ∀ p : Nat × α, ¬ (p.1 < lo ∧ lo + vs.length ≤ p.1) := fun p => by omega
  unfold Map.setRange
  simp only [h, List.filter_append, hbelow, habove, List.filter_filter, List.append_nil, ← Bool.decide_and]
  simp [hapart, and_comm]

/-- Two changes of one tile are one. -/
theorem State.modTile_modTile (s : State) (t : Nat) (f g : Tile → Tile) : (s.modTile t f).modTile t g = s.modTile t (g ∘ f) := by
  have hset := fun x y => Map.setRange_setRange {} s.tiles t (vs := [x]) (vs' := [y]) rfl
  have htile := State.modTile_tile_self s t f
  show State.setTile _ t (g _) = _
  rw [htile]
  exact congrArg (fun l => { s with tiles := l }) (hset _ _)

theorem State.vecDone_modTile_id (s : State) (t : Nat) (o : Op) : (s.modTile t id).vecDone t o = s.vecDone t o :=
  s.modTile_modTile t id _

section

variable {s : State} {t : Nat} {o : Op} {rest : List Op} (h : s.VecHead t o rest)
include h

/-- The oldest operation, one of the update engine and started if it is a `UPD`, has its effect (R157, R162). -/
theorem vectorOpComplete_of_update :
    (fld o.w 56 8 = 0x80 → o.go = true → exec (.vectorOpComplete t) s = .next ((s.updEnd t o).startUpd t)) ∧
    (fld o.w 56 8 = 0x81 → exec (.vectorOpComplete t) s = .next ((s.ctwEnd t o).startUpd t)) ∧
    (fld o.w 56 8 = 0x82 → exec (.vectorOpComplete t) s = .next ((s.ctrEnd t o).startUpd t)) := by
  have hrun : exec (.vectorOpComplete t) s = execVectorOpComplete t s := rfl
  rw [hrun, execVectorOpComplete, if_neg (Nat.not_le.2 h.unit), alongside_eq _ h.tick, h.vec]
  dsimp only
  refine ⟨fun hop hgo => ?_, fun hop => ?_, fun hop => ?_⟩ <;> rw [hop]
  · exact if_pos hgo
  · rfl
  · rfl

/-- The oldest operation has accessed rows and changed its tile by `f`, which keeps its registers; it ends, and no `UPD` starts behind it. -/
theorem State.Accessed.completes {s1 : State} (hacc : s.Accessed s1 t) {f : Tile → Tile}
    (hf : (s1.tile t).OnlySeq (f (s1.tile t)) o.q ((s1.tile t).seq o.q)) {e : State} (he : (s1.modTile t f).vecDone t o = e) :
    s.VecEnds (e.startUpd t) t o rest ((s.tile t).seq o.q) ∧ ((e.startUpd t).tile t).sp = (s1.tile t).sp ∧
      ((e.startUpd t).tile t).ctr = (f (s1.tile t)).ctr ∧ ((e.startUpd t).tile t).ctab = (f (s1.tile t)).ctab := by
  obtain ⟨hends, hsp, hctr⟩ := hacc.vecEnds h hf
  have htile := (s1.modTile t f).vecDone_tile t o
  rw [State.modTile_tile_self] at htile
  rw [hacc.tile.seq] at hends
  rw [he] at hends hsp hctr htile
  rw [State.startUpd_of_no_upd hends.vec fun p hp => (h.ids p hp).2]
  exact ⟨hends, hsp, hctr, by rw [htile]⟩

end

/-! ## The coefficient table -/

theorem Tile.Accessed.ctab {x y : Tile} (h : x.Accessed y) : y.ctab = x.ctab := h.reads Tile.ctab

@[simp] theorem wordsOf_length (b : List Byte) (n : Nat) : (wordsOf b n).length = n := by
  rw [wordsOf, List.length_map, List.length_range]

/-- A coefficient row has 64 bytes (R293). -/
theorem Tile.coef_bytes_length (x : Tile) (r : Nat) : ((x.coef r).flatMap wordBytes).length = 64 := by
  have hbytes : ∀ w ∈ x.coef r, (wordBytes w).length = 8 := fun w _ => natLe_length 8 _
  rw [List.length_flatMap, List.map_congr_left hbytes, List.map_const', List.sum_replicate, Tile.coef, Map.length_slice]
  rfl

/-- A coefficient row written from 64 bytes (R157). -/
def Tile.setCoef (x : Tile) (r : Nat) (b : List Byte) : Tile :=
  { x with ctab := Map.setRange 0 x.ctab (8 * r) (wordsOf b 8), ctabBad := x.ctabBad.filter fun j => decide (j / 8 ≠ r) }

theorem Tile.setCoef_coef (x : Tile) (r : Nat) (b : List Byte) : (x.setCoef r b).coef r = wordsOf b 8 := by
  have hslice := Map.slice_setRange_self 0 x.ctab (8 * r) (wordsOf b 8)
  rw [wordsOf_length] at hslice
  exact hslice

theorem Tile.setCoef_ctab_ne (x : Tile) {r j : Nat} (b : List Byte) (h : j / 8 ≠ r) :
    Map.get 0 (x.setCoef r b).ctab j = Map.get 0 x.ctab j :=
  Map.get_setRange_outside _ _ (by rw [wordsOf_length]; omega)

theorem Tile.setCoef_onlySeq (x : Tile) (r : Nat) (b : List Byte) (q : Strm) : x.OnlySeq (x.setCoef r b) q (x.seq q) :=
  ⟨rfl, fun _ _ => rfl, rfl, rfl, rfl, rfl⟩

theorem State.ctwEnd_eq {s : State} {t : Nat} {o : Op} {c : Acct} (hc : o.vecAcct t = c) : s.ctwEnd t o =
    andThen (s.opRead c o.id (o.v.headD 0).toNat 1) fun s b =>
      (s.modTile t fun y => y.setCoef (fld o.w 41 6) (b.drop (64 * fld o.w 35 3))).vecDone t o := by
  subst hc
  rfl

theorem State.ctrEnd_eq {s : State} {t : Nat} {o : Op} {c : Acct} (hc : o.vecAcct t = c)
    (hgood : (s.tile t).badCoef (fld o.w 41 6) = none) : s.ctrEnd t o =
    andThen (s.readRows c (o.v.headD 0).toNat 1 ((s.tile t).racyWrites o.id)) fun s1 b =>
      (s1.opWrite c o.id (o.v.headD 0).toNat
        (splice b (64 * fld o.w 35 3) (((s.tile t).coef (fld o.w 41 6)).flatMap wordBytes))).vecDone t o := by
  subst hc
  unfold State.ctrEnd
  dsimp only
  rw [hgood]
  rfl

section

variable {s : State} {t : Nat} {o : Op} (hq : s.Quiet t o.id)
include hq

/-- A `CTW` reads one row and writes its coefficient row from 64 bytes of it (R157). -/
theorem State.ctwEnd_reads : ∃ s1, s.Accessed s1 t ∧ (s1.tile t).sp = (s.tile t).sp ∧ s.ctwEnd t o =
    (s1.modTile t fun y => y.setCoef (fld o.w 41 6) (((s.tile t).rows (o.v.headD 0).toNat 1).drop (64 * fld o.w 35 3))).vecDone t o := by
  obtain ⟨c, hc, rfl⟩ : ∃ c, o.vecAcct t = c ∧ c.t = t := ⟨_, rfl, rfl⟩
  have hread := s.opRead_reads hq (o.v.headD 0).toNat 1
  rw [State.ctwEnd_eq hc, hread.andThen_eq]
  exact ⟨_, hread.toAccessed, hread.sp, rfl⟩

/-- A `CTR` writes one row back with the 64 bytes of its coefficient row in it (R157). -/
theorem State.ctrEnd_writes : ∃ s1, s.Accessed s1 t ∧ (s.tile t).Wrote (s1.tile t) (o.v.headD 0).toNat
      (splice ((s.tile t).rows (o.v.headD 0).toNat 1) (64 * fld o.w 35 3) (((s.tile t).coef (fld o.w 41 6)).flatMap wordBytes)) ∧
    s.ctrEnd t o = (s1.modTile t id).vecDone t o := by
  obtain ⟨c, hc, rfl⟩ : ∃ c, o.vecAcct t = c ∧ c.t = t := ⟨_, rfl, rfl⟩
  have hgood : (s.tile c.t).badCoef (fld o.w 41 6) = none := by
    simp [Tile.badCoef, hq.parity]
  have hread := s.opRead_reads hq (o.v.headD 0).toNat 1
  have hplace := fld_lt o.w 35 3
  have hlen : (splice ((s.tile c.t).rows (o.v.headD 0).toNat 1) (64 * fld o.w 35 3)
      (((s.tile c.t).coef (fld o.w 41 6)).flatMap wordBytes)).length = 512 * 1 := by
    rw [splice_length] <;> rw [Tile.rows_length]
    rw [Tile.coef_bytes_length]
    omega
  rw [State.opRead, hq.reads] at hread
  rw [State.ctrEnd_eq hc hgood, hq.writes, hread.andThen_eq]
  obtain ⟨hacc, hwrote⟩ := State.opWrite_writes (hq.of_accessed hread.toAccessed) (o.v.headD 0).toNat hlen
  exact ⟨_, hread.toAccessed.trans hacc, hwrote.congr hread.sp.symm rfl, (State.vecDone_modTile_id _ _ _).symm⟩

end

/-- Settles O25: each operation accesses its rows as they stand, changes its tile otherwise by its record or its coefficient row, and
leaves the unit. That a state's bias s + Δ is taken as it is, also outside -64 to 63, and that a stored state is read exact and unrounded
are the model's choice (log 16). -/
theorem updateComplete : Obligations.UpdateComplete := by
  unfold Obligations.UpdateComplete
  intro s t o rest h x r k l a ends
  obtain ⟨hupd, hctw, hctr⟩ := vectorOpComplete_of_update h
  refine ⟨fun hop hgo hown => ?upd, fun hop => ?ctw, fun hop => ?ctr⟩
  case upd =>
    intro w5 u sm sv res ovm cw cm cv cn useM useV
    obtain ⟨s1, s2, s3, s4, hacc, hw, hm, hv, hn, hend⟩ := State.updEnd_writes h.quiet hown (res := res) rfl
    obtain ⟨hends, hsp, hcount, hctab⟩ := hacc.completes h (Tile.updRecord_onlySeq o (x.updScalars o) res _) hend.symm
    refine ⟨_, s1.tile t, s2.tile t, s3.tile t, ⟨hupd hop hgo, hends⟩, hw, hm, hv, hn.congr rfl hsp, ?stats,
      fun j hj => ?table, fun e => ?events, ?blocks, ?clips⟩
    case stats =>
      rw [hctab, Tile.updRecord_ctab, hacc.tile.ctab]
      exact Map.get_set_self _ _ _ _
    case table =>
      rw [hctab, Tile.updRecord_ctab, hacc.tile.ctab]
      exact Map.get_set_ne _ _ _ _ _ hj
    case events =>
      rw [hcount, Tile.updRecord_counted, hacc.tile.ctr _ (by cases e <;> decide) (by cases e <;> decide)]
      rfl
    case blocks =>
      rw [hcount, Tile.updRecord_blocks, hacc.tile.ctr _ (by decide) (by decide)]
    case clips =>
      rw [hcount, Tile.updRecord_clips, hacc.tile.ctr _ (by decide) (by decide)]
      rfl
  case ctw =>
    obtain ⟨s1, hacc, hkept, hend⟩ := State.ctwEnd_reads h.quiet
    obtain ⟨hends, hsp, -, hctab⟩ := hacc.completes h (Tile.setCoef_onlySeq _ _ _ o.q) hend.symm
    refine ⟨_, ⟨hctw hop, hends⟩, hsp.trans hkept, ?_, fun j hj => ?_⟩
    · rw [Tile.coef, hctab]
      exact Tile.setCoef_coef _ _ _
    · rw [hctab, Tile.setCoef_ctab_ne _ _ hj, hacc.tile.ctab]
  case ctr =>
    obtain ⟨s1, hacc, hwrote, hend⟩ := State.ctrEnd_writes h.quiet
    obtain ⟨hends, hsp, -, hctab⟩ := hacc.completes h (f := id) ⟨rfl, fun _ _ => rfl, rfl, rfl, rfl, rfl⟩ hend.symm
    exact ⟨_, ⟨hctr hop, hends⟩, hctab.trans hacc.tile.ctab, hwrote.congr rfl hsp⟩

end Sys2Proof.Machine

/-! # Stow and restore (R318 to R330, R372)

Every answer of the helm raises the interrupt of its page. Where Riendlink is `UP` and the vector is unmasked, the message is posted at
once and takes a slot unit of the frames to come (R361), for which the frame of an answered command (`State.AllButHelm`) leaves no room. -/

namespace Sys2Proof.Machine

/-- A module with no job whose host listens: Riendlink is `UP`, the vector of page 63 unmasked, and a `STOW_RESTORE` waits there. -/
def State.restoreHeard : State := { State.reset with
  helm := { run := true, stage := 4, pages := [(63, { ctail := 1, mem := [(0, 0x2100000000000000)] })] }
  rl := { st := 4, unmask := [(63, true)] } }

theorem State.restoreHeard_waits : State.restoreHeard.Waits 63 0x21 where
  unit := by decide
  start := by decide
  none := by decide
  room := by decide
  only := by decide

/-- The slot units of transactions that wait to leave over Riendlink after a command. -/
def unitsAfter : Out → Nat
  | .next s => s.rl.units
  | _ => 0

/-- The answer's interrupt has left for the host and waits for its slot unit. -/
theorem State.restoreHeard_units : unitsAfter (exec (.stowRestore 63 { ready := true }) State.restoreHeard) = 1 := by decide

/-- Refutes O51: an answered command is said to change nothing of Riendlink but its pending bits and the messages sent. Where Riendlink is
`UP` and the page's vector is unmasked the answer sends its interrupt (R372), and that takes one slot unit of the frames to come (R361).
The witness is the first clause of `STOW_RESTORE`, refused with `STATE` because no job is loaded: no unit waited before, one does after. -/
theorem not_stowAndRestore : ¬ Obligations.StowAndRestore := by
  unfold Obligations.StowAndRestore
  intro h
  obtain ⟨-, -, -, -, -, hrestore, -⟩ := h
  obtain ⟨hrefused, -⟩ := hrestore State.restoreHeard 63 { ready := true } State.restoreHeard_waits
  obtain ⟨s', hexec, -, hframe⟩ := hrefused (by decide) (by decide)
  have hsent : s'.rl.units = 1 := by
    have hafter := State.restoreHeard_units
    rwa [hexec] at hafter
  have hkept : s'.rl.units = 0 := congrArg Rl.units hframe.rl
  exact absurd (hsent.symm.trans hkept) (by decide)

end Sys2Proof.Machine

/-! # Llyn ports and their links (R343 to R350, R354) -/

namespace Sys2Proof.Machine

/-! ## What the operations of links leave -/

theorem Map.lookup_set_ne {α : Type} [DecidableEq α] (d : α) (m : Map α) (k j : Nat) (v : α) (h : j ≠ k) :
    (Map.set d m k v).lookup j = m.lookup j := by
  unfold Map.set Map.setRange
  rw [Map.lookup_append, Map.lookup_append, Map.lookup_filter m (fun a => decide (a < k)),
    Map.lookup_filter m (fun a => decide (k + [v].length ≤ a)), Map.entries_lookup_none d [v] k j (by simp only [List.length_singleton]; omega)]
  rcases Nat.lt_or_gt_of_ne h with hlt | hgt
  · simp [hlt, show ¬ k + 1 ≤ j by omega]
  · simp [hgt, show ¬ j < k by omega]

theorem State.port_eq_of_ports {a b : State} (h : a.ports = b.ports) (u : Nat) : a.port u = b.port u := by
  rw [State.port, State.port, h]

theorem State.edges_eq_of_job {a b : State} (h : a.job = b.job) : a.edges = b.edges := by rw [State.edges, State.edges, h]

section

variable (s : State) (p : Nat)

/-- An interrupt is a matter of Riendlink (R372). -/
theorem State.sendMsi_rest (v : Nat) : { s.sendMsi v with rl := s.rl } = s := by
  unfold State.sendMsi
  split <;> rfl

theorem State.raiseMsi_rest (v : Nat) : { s.raiseMsi v with rl := s.rl } = s := by
  have h := (s.modRl fun r => { r with pend := Map.set false r.pend v true }).sendMsi_rest v
  exact congrArg (fun a : State => { a with rl := s.rl }) h

/-- A change of the ready map raises an interrupt and does nothing else (R474). -/
theorem State.readyFrom_rest (b : State) : { s.readyFrom b with rl := s.rl } = s := by
  unfold State.readyFrom
  split
  · rfl
  · exact s.raiseMsi_rest 65

@[simp] theorem State.readyFrom_job (b : State) : (s.readyFrom b).job = s.job := (congrArg State.job (s.readyFrom_rest b) :)
@[simp] theorem State.readyFrom_tiles (b : State) : (s.readyFrom b).tiles = s.tiles := (congrArg State.tiles (s.readyFrom_rest b) :)
@[simp] theorem State.readyFrom_net (b : State) : (s.readyFrom b).net = s.net := (congrArg State.net (s.readyFrom_rest b) :)
@[simp] theorem State.readyFrom_stow (b : State) : (s.readyFrom b).stow = s.stow := (congrArg State.stow (s.readyFrom_rest b) :)
@[simp] theorem State.readyFrom_power (b : State) : (s.readyFrom b).power = s.power := (congrArg State.power (s.readyFrom_rest b) :)
@[simp] theorem State.readyFrom_port (b : State) (u : Nat) : (s.readyFrom b).port u = s.port u :=
  (congrArg (fun a : State => a.port u) (s.readyFrom_rest b) :)

/-- A measurement (R354) is a matter of the job's edge registers, and takes a free value. -/
theorem State.measure_rest : { s.measure p with job := s.job, free := s.free } = s := by
  unfold State.measure
  split <;> rfl

@[simp] theorem State.measure_tiles : (s.measure p).tiles = s.tiles := (congrArg State.tiles (s.measure_rest p) :)
@[simp] theorem State.measure_net : (s.measure p).net = s.net := (congrArg State.net (s.measure_rest p) :)
@[simp] theorem State.measure_stow : (s.measure p).stow = s.stow := (congrArg State.stow (s.measure_rest p) :)
@[simp] theorem State.measure_power : (s.measure p).power = s.power := (congrArg State.power (s.measure_rest p) :)
@[simp] theorem State.measure_port (u : Nat) : (s.measure p).port u = s.port u :=
  (congrArg (fun a : State => a.port u) (s.measure_rest p) :)

theorem State.measure_job : { (s.measure p).job with cfg := s.job.cfg } = s.job := by
  unfold State.measure
  split <;> rfl

/-- Only the registers of edges over the port are written. -/
theorem State.measure_reg {o : Nat} (ho : ∀ e ∈ s.edges, e.2.2 = p → o ≠ 0x10200 + 8 * e.1) :
    (s.measure p).job.reg o = s.job.reg o := by
  have hfold : ∀ (l : List (Nat × Nat × Nat)) (m : Map Word), (∀ e ∈ l, e.2.2 = p → o ≠ 0x10200 + 8 * e.1) →
      (l.foldl (fun m e => if e.2.2 = p then
        Map.mod 0 m (0x10200 + 8 * e.1) fun w => setFld w 0 16 (Config.freeNat s.free e.1 % 301) else m) m).lookup o = m.lookup o := by
    intro l
    induction l with
    | nil => exact fun _ _ => rfl
    | cons e l ih =>
      intro m hl
      obtain ⟨he, hl⟩ := List.forall_mem_cons.1 hl
      rw [List.foldl_cons, ih _ hl]
      split
      · next hp => exact Map.lookup_set_ne _ _ _ _ _ (he hp)
      · rfl
  unfold State.measure
  split
  · unfold Job.reg Map.get
    exact congrArg (fun v : Option Word => v.getD _) (hfold s.edges s.job.cfg ho)
  · rfl

end

/-! ## Commands that change one port -/

/-- Besides port `p` only the measured latency of the tree edges over it differs, of what ports, tiles and job hold (R354). -/
structure State.OnlyPort (s s' : State) (p : Nat) : Prop where
  ports : ∀ k, k ≠ p → s'.port k = s.port k
  job : { s'.job with cfg := s.job.cfg } = s.job
  reg : ∀ o, (∀ e ∈ s.edges, e.2.2 = p → o ≠ 0x10200 + 8 * e.1) → s'.job.reg o = s.job.reg o
  tiles : s'.tiles = s.tiles

namespace State.OnlyPort

variable {s s' : State} {p : Nat}

theorem of_job (hports : ∀ k, k ≠ p → s'.port k = s.port k) (hjob : s'.job = s.job) (htiles : s'.tiles = s.tiles) :
    s.OnlyPort s' p := ⟨hports, by rw [hjob], fun _ _ => by rw [hjob], htiles⟩

theorem modPort (s : State) (p : Nat) (f : Port → Port) : s.OnlyPort (s.modPort p f) p :=
  .of_job (fun k hk => s.modPort_port_ne p k f hk) rfl rfl

theorem measure (hports : ∀ k, k ≠ p → s'.port k = s.port k) (hjob : s'.job = s.job) (htiles : s'.tiles = s.tiles) :
    s.OnlyPort (s'.measure p) p where
  ports k hk := by rw [State.measure_port, hports k hk]
  job := hjob ▸ s'.measure_job p
  reg o ho := by
    rw [s'.measure_reg p (fun e he => ho e (State.edges_eq_of_job hjob ▸ he)), hjob]
  tiles := by rw [State.measure_tiles, htiles]

end State.OnlyPort

/-! ## Commands in the states they belong to -/

section

variable {s : State} {p : Nat} (hp : p < 32)
include hp

theorem llynDetectPoll_eq (seen : Bool) : exec (.llynDetectPoll p seen) s = if (s.port p).st = 1 then
    .next (s.modPort p fun x => if seen then { x with st := 2 } else { x with reason := 1 }) else .next s :=
  if_neg (Nat.not_le.2 hp)

theorem llynTrainLock_eq : exec (.llynTrainLock p) s = if (s.port p).st = 2 then
    .next (s.modPort p fun x => { x with
      st := 3, lanes := 0xFF, aligns := 0, sends := [], stamps := [], seen := [], rx := { x.rx with syms := s.linkSyms p } })
    else .next s :=
  if_neg (Nat.not_le.2 hp)

theorem llynTrainTimeout_eq : exec (.llynTrainTimeout p) s = if (s.port p).st = 2 then .next (s.portDown p 2)
    else if (s.port p).st = 3 then
      .next (s.portDown p (if (s.port p).reason = 3 ∨ (s.port p).reason = 4 then (s.port p).reason else 2))
    else .next s :=
  if_neg (Nat.not_le.2 hp)

theorem llynTrainRetry_eq : exec (.llynTrainRetry p) s = if (s.port p).st = 6 ∧ s.portAllowed p = true then
    .next (s.modPort p fun x => { x with st := 2 }) else .next s :=
  if_neg (Nat.not_le.2 hp)

theorem frameLockLoss_eq : exec (.frameLockLoss p) s = if (s.port p).st = 4 then .next (s.startRetrain p 5) else .next s := by
  refine (if_pos hp : exec (.frameLockLoss p) s = .next (s.startRetrain p 5)).trans ?_
  split
  · rfl
  · next h => exact congrArg _ (if_neg h)

theorem llynRetrainDone_eq : exec (.llynRetrainDone p) s = if (s.port p).st = 5 then
    .next (((s.modPort p fun x => { x with st := 4, rx := { x.rx with disc := 0, resend := x.rx.replay } }).readyFrom s).measure p)
    else .next s :=
  if_neg (Nat.not_le.2 hp)

theorem llynRetrainTimeout_eq : exec (.llynRetrainTimeout p) s = if (s.port p).st = 5 then .next (s.portDown p 7) else .next s :=
  if_neg (Nat.not_le.2 hp)

end

section

variable {s : State} {p : Nat}

/-- A port that retrains keeps its link layer, its replay buffer with it (R343). -/
theorem State.startRetrain_of_up (h : (s.port p).st = 4) (reason : Nat) : (s.startRetrain p reason).port p =
    { s.port p with st := 5, reason := reason, ctr := ctrAdd (s.port p).ctr 0x138 1 } := by
  unfold State.startRetrain State.countPort
  rw [if_pos h, State.measure_port, State.readyFrom_port, State.modPort_port_self, State.modPort_port_self]

theorem State.startRetrain_onlyPort (s : State) (p reason : Nat) : s.OnlyPort (s.startRetrain p reason) p := by
  unfold State.startRetrain State.countPort
  split
  · refine .measure (fun k hk => ?_) ?_ ?_
    · rw [State.readyFrom_port, State.modPort_port_ne _ _ _ _ hk, State.modPort_port_ne _ _ _ _ hk]
    · rw [State.readyFrom_job, State.modPort_job, State.modPort_job]
    · rw [State.readyFrom_tiles, State.modPort_tiles, State.modPort_tiles]
  · exact .of_job (fun _ _ => rfl) rfl rfl

end

/-! ## Traffic that moves to another port (R350) -/

section

variable {a b : State}

theorem State.groupPorts_congr (h : ∀ k, (b.port k).en = (a.port k).en ∧ (b.port k).gvalid = (a.port k).gvalid ∧
    (b.port k).group = (a.port k).group) (g : Nat) : b.groupPorts g = a.groupPorts g := by
  unfold State.groupPorts
  refine List.filter_congr fun k _ => ?_
  obtain ⟨hen, hgvalid, hgroup⟩ := h k
  rw [hen, hgvalid, hgroup]

/-- The next `UP` port of a group is found from the group's configuration and the states of the other ports. -/
theorem State.nextUp_congr {p : Nat} (h : ∀ k, (b.port k).en = (a.port k).en ∧ (b.port k).gvalid = (a.port k).gvalid ∧
    (b.port k).group = (a.port k).group) (hst : ∀ k, k ≠ p → (b.port k).st = (a.port k).st) : b.nextUp p = a.nextUp p := by
  unfold State.nextUp
  obtain ⟨-, hgvalid, hgroup⟩ := h p
  rw [hgvalid, hgroup, State.groupPorts_congr h]
  dsimp only
  refine if_congr Iff.rfl ?_ rfl
  refine List.find?_congr fun k hk => ?_
  have hne : k ≠ p := by
    simp only [List.mem_append, List.mem_filter, decide_eq_true_eq] at hk
    omega
  unfold State.portUp
  rw [hst k hne]

end

/-- No job is loaded and no stow runs, and nothing waits for the port but exchange packets not yet cut into flits. -/
structure State.Still (s : State) (p : Nat) : Prop where
  img : s.job.img = none
  busy : s.stow.busy = false
  tx : (s.port p).rx.tx = []
  rmsg : ∀ e ∈ s.net.rmsg, e.1 ≠ p

/-- What waited for a port is taken from it (R350). -/
def State.withdrawn (s : State) (p : Nat) : State :=
  (s.modNet fun n => { n with
    rport := n.rport.filter fun e => decide (e.1 ≠ p)
    rmsg := n.rmsg.filter fun e => decide (e.1 ≠ p) }).modPort p fun x => { x with rx := { x.rx with tx := [] } }

/-- Exchange packets go to port `q` with the flits that were ready for the port they waited for (R350). -/
def State.handed (s : State) (q : Nat) (fl : List Flit) (out : List (Nat × Pkt)) : State :=
  (s.modPort q fun x => { x with rx := { x.rx with
    tx := x.rx.tx ++ fl.map fun f => if x.dl then { f with vc := 1 } else f } }).modNet fun n => { n with
      rport := n.rport ++ out.map fun e => (q, e.2) }

section

variable {s : State} {p : Nat} (h : s.Still p)
include h

theorem State.Still.no_messages : s.net.rmsg.filter (fun e => decide (e.1 = p)) = [] := by
  rw [List.filter_eq_nil_iff]
  exact fun e he => by simpa using h.rmsg e he

theorem State.reroute_of_next {q : Nat} (hq : (s.withdrawn p).nextUp p = some q) :
    s.reroute p = (s.withdrawn p).handed q [] (s.net.rport.filter fun e => decide (e.1 = p)) := by
  unfold State.reroute
  rw [h.tx, h.no_messages]
  extract_lets pk ex out lost s1 s2
  have hnext : s1.nextUp p = some q := hq
  have hmoved : s2 = (s.withdrawn p).handed q [] out := by
    unfold s2
    rw [hnext]
    rfl
  exact hmoved

theorem State.reroute_of_none (hq : (s.withdrawn p).nextUp p = none) (hrport : ∀ e ∈ s.net.rport, e.1 ≠ p) :
    s.reroute p = s.withdrawn p := by
  have hnone : s.net.rport.filter (fun e => decide (e.1 = p)) = [] := by
    rw [List.filter_eq_nil_iff]
    exact fun e he => by simpa using hrport e he
  unfold State.reroute
  rw [h.tx, h.no_messages, hnone]
  extract_lets pk ex out lost s1 s2
  have hnext : s1.nextUp p = none := hq
  have hmoved : s2 = s.withdrawn p := by
    unfold s2
    rw [hnext]
    rfl
  exact hmoved

/-- No flit was ready for the port: taking what waits for it leaves every port as it was. -/
theorem State.withdrawn_port (k : Nat) : (s.withdrawn p).port k = s.port k := by
  unfold State.withdrawn
  rw [State.modPort_port]
  split
  · next hk =>
    subst hk
    rw [State.modNet_port, ← h.tx]
  · rfl

end

theorem State.handed_port (s : State) (q : Nat) (out : List (Nat × Pkt)) (k : Nat) : (s.handed q [] out).port k = s.port k := by
  unfold State.handed
  rw [State.modNet_port, State.modPort_port]
  split
  · next hk => exact hk ▸ by rw [List.map_nil, List.append_nil]
  · rfl

/-- The module while a port moves its traffic, without ports and packets that wait for one. -/
def State.unlinked (s : State) : State := { s with ports := [], net := {} }

/-- Where nothing waits for a port but packets, and these have a port to go to, only they move. -/
theorem State.reroute_keeps {s : State} {p : Nat} (h : s.Still p)
    (hway : (∃ q, (s.withdrawn p).nextUp p = some q) ∨ ∀ e ∈ s.net.rport, e.1 ≠ p) :
    (s.reroute p).unlinked = s.unlinked ∧ ∀ k, (s.reroute p).port k = s.port k := by
  cases hq : (s.withdrawn p).nextUp p with
  | some q =>
    rw [State.reroute_of_next h hq]
    exact ⟨rfl, fun k => by rw [State.handed_port, State.withdrawn_port h]⟩
  | none =>
    rw [State.reroute_of_none h hq (hway.resolve_left (by simp [hq]))]
    exact ⟨rfl, State.withdrawn_port h⟩

/-! ## A port that goes `DOWN` (R343, R344) -/

/-- A port is `DOWN`; what the module does about it comes after. -/
def State.dropPort (s : State) (p reason : Nat) : State :=
  (((s.modPort p fun x => x.dropped 6 reason).countPort p 0x140 1).readyFrom s).modStow fun w => { w with
    sentB := w.sentB - 128 * ((s.port p).rx.replay.flatMap fun f => f.flits.filter fun g => decide (g.vc = 2)).length }

section

variable {s : State} {p : Nat} (reason : Nat)

theorem State.dropPort_port_self : (s.dropPort p reason).port p =
    { (s.port p).dropped 6 reason with ctr := ctrAdd (s.port p).ctr 0x140 1 } := by
  unfold State.dropPort State.countPort
  rw [State.modStow_port, State.readyFrom_port, State.modPort_port_self, State.modPort_port_self]
  rfl

theorem State.dropPort_port_ne {k : Nat} (hk : k ≠ p) : (s.dropPort p reason).port k = s.port k := by
  unfold State.dropPort State.countPort
  rw [State.modStow_port, State.readyFrom_port, State.modPort_port_ne _ _ _ _ hk, State.modPort_port_ne _ _ _ _ hk]

theorem State.dropPort_job : (s.dropPort p reason).job = s.job := by
  unfold State.dropPort
  rw [State.modStow_job, State.readyFrom_job]
  rfl

theorem State.dropPort_tiles : (s.dropPort p reason).tiles = s.tiles := by
  unfold State.dropPort
  rw [State.modStow_tiles, State.readyFrom_tiles]
  rfl

theorem State.dropPort_net : (s.dropPort p reason).net = s.net := by
  unfold State.dropPort
  rw [State.modStow_net, State.readyFrom_net]
  rfl

theorem State.dropPort_busy : (s.dropPort p reason).stow.busy = s.stow.busy := by
  unfold State.dropPort
  rw [State.modStow_stow, State.readyFrom_stow]
  rfl

theorem State.Still.dropPort (h : s.Still p) : (s.dropPort p reason).Still p where
  img := by rw [State.dropPort_job, h.img]
  busy := by rw [State.dropPort_busy, h.busy]
  tx := by rw [State.dropPort_port_self]; exact h.tx
  rmsg := by rw [State.dropPort_net]; exact h.rmsg

/-- The configuration of the ports, and the states of the others, are as before the drop. -/
theorem State.dropPort_nextUp (h : s.Still p) : ((s.dropPort p reason).withdrawn p).nextUp p = s.nextUp p := by
  refine State.nextUp_congr (fun k => ?_) fun k hk => ?_
  · rw [State.withdrawn_port (h.dropPort reason)]
    by_cases hk : k = p
    · subst hk
      rw [State.dropPort_port_self]
      exact ⟨rfl, rfl, rfl⟩
    · rw [State.dropPort_port_ne reason hk]
      exact ⟨rfl, rfl, rfl⟩
  · rw [State.withdrawn_port (h.dropPort reason), State.dropPort_port_ne reason hk]

theorem State.stowCheck_of_idle (h : s.stow.busy = false) : s.stowCheck = s := by
  unfold State.stowCheck
  rw [if_neg (by simp [h])]

/-- With no job and no stow, a port that goes `DOWN` moves its traffic, and the edges over it are measured anew. -/
theorem State.portDown_of_still (h : s.Still p)
    (hway : (∃ q, s.nextUp p = some q) ∨ ∀ e ∈ s.net.rport, e.1 ≠ p) :
    s.portDown p reason = ((s.dropPort p reason).reroute p).measure p ∧
      ((s.dropPort p reason).reroute p).unlinked = (s.dropPort p reason).unlinked ∧
      ∀ k, ((s.dropPort p reason).reroute p).port k = (s.dropPort p reason).port k := by
  have hkeep := State.reroute_keeps (h.dropPort reason) (by rw [State.dropPort_nextUp reason h, State.dropPort_net]; exact hway)
  refine ⟨?_, hkeep⟩
  have hbusy : (((s.dropPort p reason).reroute p).measure p).stow.busy = false := by
    have hstow : ((s.dropPort p reason).reroute p).stow = (s.dropPort p reason).stow := (congrArg State.stow hkeep.1 :)
    rw [State.measure_stow, hstow, State.dropPort_busy, h.busy]
  unfold State.portDown
  extract_lets x lost stows s1 s2 alone
  rw [if_neg (by simp [h.img])]
  exact State.stowCheck_of_idle hbusy

/-- What a port that went `DOWN` holds (R343): nothing of the link layer but whole received packets and the frame sent last. -/
def Port.IsDown (x y : Port) (reason : Nat) : Prop :=
  y.st = 6 ∧ y.reason = reason ∧ y.rx = { buf := wholePackets x.rx.buf, last := x.rx.last } ∧
    Map.get 0 y.ctr 0x140 = Map.get 0 x.ctr 0x140 + 1

theorem State.dropPort_isDown (htx : (s.port p).rx.tx = []) : (s.port p).IsDown ((s.dropPort p reason).port p) reason := by
  rw [State.dropPort_port_self]
  refine ⟨rfl, rfl, ?_, Map.get_set_self _ _ _ _⟩
  unfold Port.dropped
  rw [htx]

theorem State.portDown_onlyPort (h : s.Still p) (hrport : ∀ e ∈ s.net.rport, e.1 ≠ p) :
    s.OnlyPort (s.portDown p reason) p ∧ (s.port p).IsDown ((s.portDown p reason).port p) reason := by
  obtain ⟨heq, hrest, hports⟩ := State.portDown_of_still reason h (.inr hrport)
  have hjob : ((s.dropPort p reason).reroute p).job = (s.dropPort p reason).job := (congrArg State.job hrest :)
  have htiles : ((s.dropPort p reason).reroute p).tiles = (s.dropPort p reason).tiles := (congrArg State.tiles hrest :)
  rw [heq]
  constructor
  · refine .measure (fun k hk => ?_) ?_ ?_
    · rw [hports, State.dropPort_port_ne reason hk]
    · rw [hjob, State.dropPort_job]
    · rw [htiles, State.dropPort_tiles]
  · rw [State.measure_port, hports]
    exact State.dropPort_isDown reason h.tx

/-- The exchange packets that waited for a port which goes `DOWN` wait for the next `UP` port of its group (R350). -/
theorem State.portDown_rport (h : s.Still p) {q : Nat} (hq : s.nextUp p = some q) : (s.portDown p reason).net.rport =
    s.net.rport.filter (fun e => e.1 != p) ++ (s.net.rport.filter fun e => e.1 == p).map fun e => (q, e.2) := by
  obtain ⟨heq, -, -⟩ := State.portDown_of_still reason h (.inl ⟨q, hq⟩)
  have hnext := (State.dropPort_nextUp reason h).trans hq
  rw [heq, State.measure_net, State.reroute_of_next (h.dropPort reason) hnext, State.dropPort_net]
  show (State.net (s.dropPort p reason)).rport.filter _ ++ _ = _
  rw [State.dropPort_net]
  simp only [bne, beq_eq_decide, decide_not]

end

end Sys2Proof.Machine

/-! # Faults of a link stop the job (R23, R344, R350, R449) -/

namespace Sys2Proof.Machine

/-! ## A fault leaves the chronometer and the states of the ports -/

/-- The chronometer and the state of every port are as before. -/
structure State.KeepsLinks (a b : State) : Prop where
  chrono : b.power.chrono = a.power.chrono
  st : ∀ u, (b.port u).st = (a.port u).st

namespace State.KeepsLinks

theorem refl (a : State) : a.KeepsLinks a := ⟨rfl, fun _ => rfl⟩

theorem trans {a b c : State} (h : a.KeepsLinks b) (g : b.KeepsLinks c) : a.KeepsLinks c :=
  ⟨g.chrono.trans h.chrono, fun u => (g.st u).trans (h.st u)⟩

theorem foldl {β : Type} {f : State → β → State} (hf : ∀ (s : State) b, s.KeepsLinks (f s b)) (l : List β) (s : State) :
    s.KeepsLinks (l.foldl f s) :=
  List.foldlRecOn (motive := fun e : State => s.KeepsLinks e) l f (refl s) fun e he b _ => he.trans (hf e b)

theorem of_eq {a b : State} (hpower : b.power = a.power) (hports : b.ports = a.ports) : a.KeepsLinks b :=
  ⟨by rw [hpower], fun u => by rw [State.port_eq_of_ports hports]⟩

theorem now {a b : State} (h : a.KeepsLinks b) : b.now = a.now := by rw [State.now, State.now, h.chrono]

end State.KeepsLinks

section

variable (s : State)

theorem State.queueSym_keepsLinks (p : Nat) (y : Sym) : s.KeepsLinks (s.queueSym p y) := by
  refine ⟨by rw [State.queueSym_power], fun u => ?_⟩
  unfold State.queueSym
  rw [State.modPort_port]
  split
  · next h =>
    subst h
    dsimp only
    split
    · rfl
    · split <;> rfl
  · rfl

theorem State.sendAlong_keepsLinks (es : List (Nat × Nat × Nat)) (mk : Nat → Sym) : s.KeepsLinks (s.sendAlong es mk) :=
  .foldl (fun s (e : Nat × Nat × Nat) => s.queueSym_keepsLinks e.2.2 (mk e.2.1)) es s

theorem State.fixTrigger_keepsLinks (src : Nat) (j : Bool) : s.KeepsLinks (s.fixTrigger src j) := by
  unfold State.fixTrigger
  extract_lets d wide far at_ s1
  have h1 : s.KeepsLinks s1 := .of_eq rfl rfl
  split
  · exact .refl s
  · split
    · exact h1.trans (s1.sendAlong_keepsLinks _ _)
    · exact h1

theorem State.stopTile_keepsLinks (t : Nat) : s.KeepsLinks (s.stopTile t) := by
  have hstore : ∀ (s : State) (e : Xfer × Nat), s.KeepsLinks (s.stopStore e.1 e.2) := by
    intro s e
    unfold State.stopStore
    extract_lets base cfg l
    split
    · exact .foldl (fun s b => (.of_eq rfl rfl : s.KeepsLinks (s.modStk _ _))) _ _
    · exact .refl s
  exact (State.KeepsLinks.foldl hstore _ s).trans (.of_eq rfl rfl)

theorem State.stopUnits_keepsLinks : s.KeepsLinks s.stopUnits :=
  .trans (.foldl State.stopTile_keepsLinks _ s)
    (.trans (.foldl (f := fun s c => s.modCluster c fun x => { x.countWait s.cycle with waiting := [] })
      (fun _ _ => .of_eq rfl rfl) _ _) (.of_eq rfl rfl))

theorem State.sightCut_keepsLinks : s.KeepsLinks s.sightCut := by
  have hwild : ∀ (s : State) (t : Nat),
      s.KeepsLinks (if s.rel.fencedTiles.contains t then s else s.modTile t fun x => x.wild s.free t) := by
    intro s t
    split
    · exact .refl s
    · exact .of_eq rfl rfl
  unfold State.sightCut State.wildUnits
  split
  · exact .trans (.foldl hwild _ s) (.trans (.foldl (fun s c => (.of_eq rfl rfl : s.KeepsLinks (s.modCluster c _))) _ _) (.of_eq rfl rfl))
  · exact .refl s

theorem State.complete_keepsLinks (k st : Nat) (ws : List Word) : s.KeepsLinks (s.complete k st ws) := .of_eq (by simp) (by simp)

theorem State.stepLost_keepsLinks : s.KeepsLinks s.stepLost := by
  unfold State.stepLost
  extract_lets s1
  have h1 : s.KeepsLinks s1 := .of_eq rfl rfl
  split
  · split
    · exact h1.trans (s1.complete_keepsLinks _ _ _)
    · exact h1
  · exact .refl s

theorem State.stopJob_keepsLinks : s.KeepsLinks s.stopJob := by
  refine (s.stopUnits_keepsLinks.trans (State.sightCut_keepsLinks _)).trans ?_
  unfold State.stopJob
  extract_lets s1 s2 waiting s3 s4 s5
  have h5 : s.stopUnits.sightCut.KeepsLinks s5 := .of_eq rfl rfl
  exact h5.trans (.trans (.foldl (fun s k => s.complete_keepsLinks k 0x0E []) _ _) (State.stepLost_keepsLinks _))

theorem State.alert_keepsLinks (b : Nat) : s.KeepsLinks (s.alert b) := by
  unfold State.alert
  split
  · exact .refl s
  · refine .trans (b := s.modPower fun w => { w with alerts := w.alerts ||| 2 ^ b }) ⟨rfl, fun _ => rfl⟩ (.of_eq ?_ ?_)
    · exact State.raiseMsi_power _ _
    · exact State.raiseMsi_ports _ _

theorem State.jobFault_keepsLinks (level unit cause detail origin : Nat) (skip : Option Nat) :
    s.KeepsLinks (s.jobFault level unit cause detail origin skip) := by
  unfold State.jobFault
  extract_lets q s1 code s2 s3
  have h2 : s.KeepsLinks s2 := .trans (b := s1) (.of_eq rfl rfl) (s1.sendAlong_keepsLinks _ _)
  have h3 : s2.KeepsLinks s3 := by
    refine .trans ?_ (State.stopJob_keepsLinks _)
    split
    · exact s2.fixTrigger_keepsLinks 2 true
    · exact .refl s2
  have htold : ∀ ws, s3.KeepsLinks (((s3.raiseMsi 64).alert 4).event 0xE0 ws) := fun ws =>
    .trans (.of_eq (State.raiseMsi_power _ _) (State.raiseMsi_ports _ _))
      ((State.alert_keepsLinks _ 4).trans (.of_eq (State.event_power _ _ _) (State.event_ports _ _ _)))
  split
  · exact s.fixTrigger_keepsLinks 2 false
  · split
    · split <;> exact .of_eq rfl rfl
    · exact h2.trans (h3.trans (htold _))

theorem State.devFault_keepsLinks (cause detail : Nat) (skip origin : Option Nat) :
    s.KeepsLinks (s.devFault cause detail skip origin) :=
  .trans (b := s.modRel _) (.of_eq rfl rfl) (State.jobFault_keepsLinks _ _ _ _ _ _ _)

theorem State.stopJob_img : s.stopJob.job.img = s.job.img := by
  rw [State.stopJob_job]
  show ((s.forAll s.job.tiles State.stopTile).forAll s.job.clusters _).job.img = _
  rw [(State.stopClusters_sameUnits _ _).job, (s.forAll_stopTile_tilesStay _).job]

end

/-! ## The cause of a stop stands -/

/-- The job has stopped by a module fault that is not later than the present: no further module fault comes before it (R23). -/
structure State.StoppedBy (s : State) (cause detail origin : Nat) : Prop where
  img : s.job.img.isSome = true
  js : s.job.js = 6
  prim : ∃ time nsec, time ≤ s.now ∧ s.job.prim =
    { valid := true, level := 3, unit := 0, cause := cause, detail := detail, time := time, origin := origin, nsec := nsec }

section

variable {s : State} {cause detail origin : Nat}

theorem State.StoppedBy.of_same {b : State} (h : s.StoppedBy cause detail origin) (himg : b.job.img = s.job.img)
    (hjs : b.job.js = s.job.js) (hprim : b.job.prim = s.job.prim) (hnow : b.now = s.now) : b.StoppedBy cause detail origin :=
  ⟨himg ▸ h.img, hjs.trans h.js, by rw [hprim, hnow]; exact h.prim⟩

/-- A fault that comes in from a port, or arises here, in a job that has not stopped: the job stops with this cause; then it is told. -/
theorem State.jobFault_stops (level unit cause detail origin : Nat) (skip : Option Nat) (himg : s.job.img.isSome = true)
    (hjs : s.job.js ≠ 6) : ∃ m : State, (s.modJob fun j => { j with prim := s.primOf level unit cause detail origin }).SameUnits m ∧
      m.stopJob.SameUnits (s.jobFault level unit cause detail origin skip) := by
  unfold State.jobFault
  rw [if_neg (by rw [← Option.not_isSome, himg]; decide)]
  extract_lets q s1 code s2 s3
  rw [if_neg hjs]
  refine ⟨if skip.isNone then s2.fixTrigger 2 true else s2, ?_, ?_⟩
  · refine .trans (b := s2) (s1.sendAlong_sameUnits _ _) ?_
    split
    · exact s2.fixTrigger_sameUnits 2 true
    · exact .refl s2
  · exact (s3.raiseMsi_sameUnits 64).trans (((s3.raiseMsi 64).alert_sameUnits 4).trans (State.event_sameUnits _ _ _))

theorem State.devFault_stoppedBy (cause detail : Nat) (skip origin : Option Nat) (himg : s.job.img.isSome = true) (hjs : s.job.js ≠ 6) :
    (s.devFault cause detail skip origin).StoppedBy cause detail (origin.getD s.modid) := by
  obtain ⟨m, hm, hstop⟩ := State.jobFault_stops (s := s.modRel fun r =>
    { r with fault := (recordReg r.fault r.faultTime cause detail s.now).1, faultTime := (recordReg r.fault r.faultTime cause detail s.now).2 })
    3 0 cause detail (origin.getD s.modid) skip himg hjs
  have hjob : (s.devFault cause detail skip origin).job = m.stopJob.job := hstop.job
  refine ⟨?_, ?_, s.now, 0, ?_, ?_⟩
  · rw [hjob, m.stopJob_img, hm.job]
    exact himg
  · rw [hjob, m.stopJob_js]
  · exact (s.devFault_keepsLinks cause detail skip origin).now.ge
  · rw [hjob, m.stopJob_prim, hm.job]
    rfl

theorem Prim.merge_later {p q : Prim} (htime : p.time ≤ q.time) (hlevel : p.level ≤ q.level) (hunit : p.unit ≤ q.unit) :
    p.merge q = { p with nsec := p.nsec + 1 } := by
  unfold Prim.merge
  rw [if_neg (by omega)]

/-- A packet that no port takes raises a further fault, which does not replace the cause (R23, R350). -/
theorem State.StoppedBy.linkRoute (h : s.StoppedBy cause detail origin) (dmod p : Nat) :
    (s.linkRoute dmod p).StoppedBy cause detail origin := by
  obtain ⟨himg, hjs, time, nsec, htime, hprim⟩ := h
  let a : State := s.modRel fun r =>
    { r with fault := (recordReg r.fault r.faultTime 0x43 (p % 32 * 2 ^ 16 + dmod) s.now).1
             faultTime := (recordReg r.fault r.faultTime 0x43 (p % 32 * 2 ^ 16 + dmod) s.now).2 }
  have heq : s.linkRoute dmod p = a.modJob fun j =>
      { j with prim := j.prim.merge (a.primOf 3 0 0x43 (p % 32 * 2 ^ 16 + dmod) s.modid) } :=
    State.jobFault_further (s := a) (skip := none) himg hjs (congrArg Prim.valid hprim)
  rw [heq]
  refine ⟨himg, hjs, time, nsec + 1, htime, ?_⟩
  have hmerge : s.job.prim.merge (a.primOf 3 0 0x43 (p % 32 * 2 ^ 16 + dmod) s.modid) =
      { s.job.prim with nsec := s.job.prim.nsec + 1 } := by
    rw [hprim]
    exact Prim.merge_later htime (le_refl 3) (le_refl 0)
  show s.job.prim.merge _ = _
  rw [hmerge, hprim]

end

/-! ## The traffic of a port that went down with a fault -/

/-- Whatever taking the traffic, handing it on and the faults of packets with no way keep, moving the traffic keeps (R350). -/
theorem State.reroute_ind {P : State → Prop} {s : State} {p : Nat} (hwithdrawn : P (s.withdrawn p))
    (hhanded : ∀ a q fl out, P a → P (a.handed q fl out)) (hfault : ∀ a d q, P a → P (a.linkRoute d q)) : P (s.reroute p) := by
  have hlost : ∀ (l : List Nat) (a : State), P a → P (l.foldl (fun s d => s.linkRoute d p) a) := fun l a ha =>
    List.foldlRecOn l _ ha fun b hb d _ => hfault b d p hb
  unfold State.reroute
  extract_lets pk ex out lost s1 s2
  refine hlost _ _ ?_
  unfold s2
  split
  · exact hhanded _ _ _ _ hwithdrawn
  · exact hlost _ _ hwithdrawn

section

variable {s : State} {p : Nat}

/-- A port that goes `DOWN` with job flits not acknowledged stops the loaded job (R344). -/
theorem State.portDown_stops (himg : s.job.img.isSome = true) (hjs : s.job.js ≠ 6) (hlost : (s.port p).rx.replay.any Frame.hasJob = true)
    (reason : Nat) : (s.portDown p reason).StoppedBy 0x42 (p + reason * 2 ^ 8) s.modid ∧ ((s.portDown p reason).port p).st = 6 := by
  let a := (s.dropPort p reason).devFault 0x42 (p + reason * 2 ^ 8)
  have hjob := s.dropPort_job (p := p) reason
  have ha : a.StoppedBy 0x42 (p + reason * 2 ^ 8) s.modid ∧ (a.port p).st = 6 := by
    constructor
    · have h := State.devFault_stoppedBy (s := s.dropPort p reason) 0x42 (p + reason * 2 ^ 8) none none (hjob ▸ himg) (hjob ▸ hjs)
      rwa [show (none : Option Nat).getD (s.dropPort p reason).modid = s.modid by rw [Option.getD_none, State.modid, State.dropPort_net]; rfl] at h
    · rw [((s.dropPort p reason).devFault_keepsLinks _ _ _ _).st, State.dropPort_port_self]
      rfl
  have hmoved : (a.reroute p).StoppedBy 0x42 (p + reason * 2 ^ 8) s.modid ∧ ((a.reroute p).port p).st = 6 := by
    refine State.reroute_ind (P := fun b => b.StoppedBy 0x42 (p + reason * 2 ^ 8) s.modid ∧ (b.port p).st = 6) ?_ ?_ ?_
    · refine ⟨ha.1.of_same rfl rfl rfl rfl, ?_⟩
      unfold State.withdrawn
      rw [State.modPort_port_self]
      exact ha.2
    · intro b q fl out hb
      refine ⟨hb.1.of_same rfl rfl rfl rfl, ?_⟩
      unfold State.handed
      rw [State.modNet_port, State.modPort_port]
      split
      · next h => exact h ▸ hb.2
      · exact hb.2
    · intro b d q hb
      exact ⟨hb.1.linkRoute d q, ((b.devFault_keepsLinks _ _ _ _).st p).trans hb.2⟩
  have hmeasured : ((a.reroute p).measure p).StoppedBy 0x42 (p + reason * 2 ^ 8) s.modid ∧ (((a.reroute p).measure p).port p).st = 6 := by
    have hcfg := (a.reroute p).measure_job p
    refine ⟨hmoved.1.of_same ?_ ?_ ?_ ?_, ?_⟩
    · exact (congrArg Job.img hcfg :)
    · exact (congrArg Job.js hcfg :)
    · exact (congrArg Job.prim hcfg :)
    · rw [State.now, State.now, State.measure_power]
    · rw [State.measure_port]
      exact hmoved.2
  have heq : s.portDown p reason = ((a.reroute p).measure p) := by
    unfold State.portDown
    extract_lets x lost stows s1 s2 alone
    rw [if_pos ⟨himg, .inl hlost⟩]
    show State.stowCheck ((a.reroute p).measure p) = _
    unfold State.stowCheck
    rw [if_neg (by simp [hmeasured.1.js])]
  rw [heq]
  exact hmeasured

end

/-! ## The states of a Llyn port -/

/-- Settles O41: each command acts in its states (`llynDetectPoll_eq` and its kin); what a port that goes `DOWN` leaves is said by
`State.portDown_onlyPort`, `State.portDown_rport` and `State.portDown_stops`. -/
theorem llynLinkStates : Obligations.LlynLinkStates := by
  unfold Obligations.LlynLinkStates
  intro s p hp x goes still alone down acts
  have hgoes : ∀ {c s' f}, s.OnlyPort s' p → exec c s = .next s' → f (s'.port p) → goes c f := fun honly hexec hf =>
    ⟨_, hexec, hf, honly.ports, honly.job, honly.reg, honly.tiles⟩
  have hacts : ∀ {st c s' f}, exec c s = (if (s.port p).st = st then .next s' else .next s) →
      (x.st = st → s.OnlyPort s' p) → (x.st = st → f (s'.port p)) → acts st c f := fun hexec honly hf =>
    ⟨fun hst => hgoes (honly hst) (hexec.trans (if_pos hst)) (hf hst), fun hst => hexec.trans (if_neg hst)⟩
  have hstill : still → s.Still p := fun ⟨himg, hbusy, htx, hmsg⟩ => ⟨himg, hbusy, htx, hmsg⟩
  have hdown : ∀ {c reason}, alone → exec c s = .next (s.portDown p reason) → goes c (down reason) := by
    rintro c reason ⟨hst, hrport⟩ hexec
    obtain ⟨honly, hdropped⟩ := State.portDown_onlyPort reason (hstill hst) hrport
    exact hgoes honly hexec hdropped
  clear_value acts goes alone
  have htimeout := llynTrainTimeout_eq (s := s) hp
  have hretry := llynTrainRetry_eq (s := s) hp
  have hretrain := llynRetrainTimeout_eq (s := s) hp
  refine ⟨?_, ?_, ?_, fun h2 h3 => ?_, fun h halone => ?_, fun h halone => ?_, fun h hallowed => ?_, fun h => ?_, ?_, ?_,
    fun h => hretrain.trans (if_neg h), fun h halone => hdown halone (hretrain.trans (if_pos h)),
    fun h hst q hq => ⟨_, hretrain.trans (if_pos h), State.portDown_rport 7 (hstill hst) hq⟩, fun h himg hjs hlost => ?_⟩
  · exact hacts (llynDetectPoll_eq hp true) (fun _ => .modPort s p _) fun _ => s.modPort_port_self p _
  · exact hacts (llynDetectPoll_eq hp false) (fun _ => .modPort s p _) fun _ => s.modPort_port_self p _
  · refine hacts (llynTrainLock_eq hp) (fun _ => .modPort s p _) fun _ => ?_
    rw [State.modPort_port_self]
    exact ⟨rfl, rfl, rfl, rfl, rfl⟩
  · rw [htimeout, if_neg h2, if_neg h3]
  · exact hdown halone (htimeout.trans (if_pos h))
  · refine hdown halone ?_
    rw [htimeout, if_neg (by rw [h]; decide), if_pos h]
  · exact hgoes (.modPort s p _) (hretry.trans (if_pos ⟨h, hallowed⟩)) (s.modPort_port_self p _)
  · refine hretry.trans (if_neg fun ⟨h6, hallowed⟩ => ?_)
    exact h.elim (fun g => g h6) fun g => by simp [hallowed] at g
  · refine hacts (frameLockLoss_eq hp) (fun _ => s.startRetrain_onlyPort p 5) fun h => ?_
    rw [State.startRetrain_of_up h]
    exact ⟨rfl, rfl, rfl, Map.get_set_self _ _ _ _⟩
  · refine hacts (llynRetrainDone_eq hp) (fun _ => .measure (fun k hk => ?_) ?_ ?_) fun _ => ?_
    · rw [State.readyFrom_port, State.modPort_port_ne _ _ _ _ hk]
    · rw [State.readyFrom_job, State.modPort_job]
    · rw [State.readyFrom_tiles, State.modPort_tiles]
    · rw [State.measure_port, State.readyFrom_port, State.modPort_port_self]
      exact ⟨rfl, rfl⟩
  · obtain ⟨⟨-, hjs6, time, nsec, -, hprim⟩, hst⟩ := State.portDown_stops himg hjs hlost 7
    exact ⟨_, hretrain.trans (if_pos h), hst, hjs6, by rw [hprim], by rw [hprim], by rw [hprim]⟩

end Sys2Proof.Machine


/-! # Frames and packets of a Llyn port (R236, R334 to R343, R351) -/

namespace Sys2Proof.Machine

/-! ## Counters of a port -/

section

variable (s : State) (p off n : Nat)

theorem State.countPort_port_self : (s.countPort p off n).port p = { s.port p with ctr := ctrAdd (s.port p).ctr off n } :=
  s.modPort_port_self p _

theorem State.countPort_port_ne {k : Nat} (hk : k ≠ p) : (s.countPort p off n).port k = s.port k := s.modPort_port_ne p k _ hk

@[simp] theorem State.countPort_tiles : (s.countPort p off n).tiles = s.tiles := rfl
@[simp] theorem State.countPort_job : (s.countPort p off n).job = s.job := rfl

@[simp] theorem State.countPort_rx : ((s.countPort p off n).port p).rx = (s.port p).rx := by rw [State.countPort_port_self]

end

/-! ## Frames out (R334, R336, R340, R342) -/

namespace LinkRx

/-- A link layer without its ready flits and its credits, what taking flits for a frame changes. -/
def untraded (x : LinkRx) : LinkRx := { x with tx := [], cred := [] }

theorem pick_lt {x : LinkRx} {i : Nat} (h : x.pick = some i) : i < x.tx.length := by
  unfold pick at h
  split at h
  · cases h
  · next f l htx =>
    dsimp only at h
    split at h
    · split at h
      · next j hj =>
        cases h
        exact (List.findIdx?_eq_some_iff_findIdx_eq.1 hj).1
      · exact (List.findIdx?_eq_some_iff_findIdx_eq.1 h).1
    · split at h
      · cases h
        rw [htx]
        exact Nat.zero_lt_succ _
      · cases h

theorem sendFlit_untraded (x : LinkRx) (i : Nat) : (x.sendFlit i).1.untraded = x.untraded := by
  unfold sendFlit
  split <;> rfl

/-- One flit leaves. -/
theorem sendFlit_length {x : LinkRx} {i : Nat} (h : i < x.tx.length) : (x.sendFlit i).2.length = 1 := by
  unfold sendFlit
  split
  · next hdrop =>
    have := List.drop_eq_nil_iff.1 hdrop
    omega
  · rfl

end LinkRx

theorem fillSlots_untraded (free : Nat) (stow : Bool) (n : Nat) (x : LinkRx) (l : List Flit) (w : Bool) :
    (fillSlots free stow n x l w).1.untraded = x.untraded := by
  induction n generalizing x l w with
  | zero => rfl
  | succ n ih =>
    unfold fillSlots
    split
    · exact (ih _ _ _).trans (x.sendFlit_untraded _)
    · dsimp only
      split
      · exact ih _ _ _
      · exact ih _ _ _

/-- Every slot holds a flit or is empty. -/
theorem fillSlots_length (free : Nat) (stow : Bool) (n : Nat) (x : LinkRx) (l : List Flit) (w : Bool) :
    (fillSlots free stow n x l w).2.1.length = l.length + n := by
  induction n generalizing x l w with
  | zero => rfl
  | succ n ih =>
    unfold fillSlots
    split
    · next i hi =>
      rw [ih, List.length_append, LinkRx.sendFlit_length (LinkRx.pick_lt hi)]
      omega
    · dsimp only
      split
      all_goals
        rw [ih, List.length_append, List.length_singleton]
        omega

/-- Before a new frame of a port that is `UP` the packets that wait for it become its flits (R338, R340). -/
def State.loaded (s : State) (p : Nat) : State := if (s.port p).st = 4 then s.loadTx p else s

/-- What fills the seven slots of a new frame: the link layer after them, the slots, and whether a job flit lacked a credit. -/
def State.txSlots (s : State) (p : Nat) : LinkRx × List Flit × Bool :=
  if (s.port p).st = 4 then fillSlots s.free (s.moverWants p) 7 ((s.loaded p).port p).rx [] false
  else (((s.loaded p).port p).rx, List.replicate 7 Flit.empty, false)

/-- The new frame that a port sends (R334, R336). -/
def State.newFrame (s : State) (p : Nat) : Frame :=
  let y := (s.txSlots p).1
  y.fresh { seq := y.seq, ack := 0, nak := false, rpl := false, crJ0 := 0, crJ1 := 0, crSt := 0
            sym := y.syms.head?, flits := (s.txSlots p).2.1 } false

/-- The link layer after a new frame: its number is used, its symbol gone, and it waits for its acknowledgement (R336, R342). -/
def LinkRx.framed (y : LinkRx) (f : Frame) : LinkRx :=
  { y with
    seq := (y.seq + 1) % 4096, syms := y.syms.drop 1, replay := (y.replay ++ [f]).drop (y.replay.length + 1 - 256), last := f.bytes }

section

variable {s : State} {p : Nat}

theorem State.loaded_untraded : ((s.loaded p).port p).rx.untraded = (s.port p).rx.untraded := by
  unfold State.loaded State.loadTx
  split
  · extract_lets vc a b fl
    rw [State.modPort_port_self, State.modNet_port]
    rfl
  · rfl

theorem State.loaded_port_ne {k : Nat} (hk : k ≠ p) : (s.loaded p).port k = s.port k := by
  unfold State.loaded State.loadTx
  split
  · exact State.modPort_port_ne _ _ _ _ hk
  · rfl

theorem State.loaded_tiles : (s.loaded p).tiles = s.tiles := by
  unfold State.loaded State.loadTx
  split <;> rfl

theorem State.loaded_job : (s.loaded p).job = s.job := by
  unfold State.loaded State.loadTx
  split <;> rfl

theorem State.txSlots_untraded : (s.txSlots p).1.untraded = (s.port p).rx.untraded := by
  unfold State.txSlots
  split
  · rw [fillSlots_untraded, State.loaded_untraded]
  · exact State.loaded_untraded

theorem State.txSlots_length : (s.txSlots p).2.1.length = 7 := by
  unfold State.txSlots
  split
  · rw [fillSlots_length, List.length_nil]
  · exact List.length_replicate

theorem LinkRx.framed_replay (y : LinkRx) (f : Frame) : (y.framed f).replay.getLast? = some f := by
  unfold LinkRx.framed
  rw [List.drop_append_of_le_length (by omega), List.getLast?_concat]

variable (hlive : (s.port p).st = 3 ∨ (s.port p).st = 4)
include hlive

theorem State.llynSend_again {f : Frame} {rest : List Frame} (h : (s.port p).rx.resend = f :: rest) : s.llynSend p =
    (s.modPort p fun x => { x with rx := { x.rx with resend := rest, last := (x.rx.fresh f true).bytes } }).countPort p 0x130 1 := by
  unfold State.llynSend
  rw [if_neg (by omega), h]

theorem State.llynSend_new (h : (s.port p).rx.resend = []) :
    ((s.llynSend p).port p).rx = (s.txSlots p).1.framed (s.newFrame p) ∧ (∀ k, k ≠ p → (s.llynSend p).port k = s.port k) ∧
      (s.llynSend p).tiles = s.tiles ∧ (s.llynSend p).job = s.job := by
  have heq : ∃ jobs stows waits w, s.llynSend p = (((((((s.loaded p).modPort p fun x =>
      { x with rx := (s.txSlots p).1.framed (s.newFrame p) }).countPort p 0x100 jobs).countPort p 0x110 stows).countPort p 0x148
        waits).modStow w).took) := by
    unfold State.llynSend
    rw [if_neg (by omega), h]
    extract_lets s0 x r
    have hr : r = s.txSlots p := rfl
    clear_value r
    subst hr
    exact ⟨_, _, _, _, rfl⟩
  obtain ⟨jobs, stows, waits, w, heq⟩ := heq
  rw [heq, State.took_port, State.modStow_port, State.countPort_rx, State.countPort_rx, State.countPort_rx, State.modPort_port_self]
  refine ⟨rfl, fun k hk => ?_, ?_, ?_⟩
  · rw [State.took_port, State.modStow_port, State.countPort_port_ne _ _ _ _ hk, State.countPort_port_ne _ _ _ _ hk,
      State.countPort_port_ne _ _ _ _ hk, State.modPort_port_ne _ _ _ _ hk, State.loaded_port_ne hk]
  · simp only [State.took_tiles, State.modStow_tiles, State.countPort_tiles, State.modPort_tiles, State.loaded_tiles]
  · simp only [State.took_job, State.modStow_job, State.countPort_job, State.modPort_job, State.loaded_job]

end

/-! ## Frames in (R335, R336, R339, R342) -/

/-- What FEC and CRC found in a frame is counted (R335). -/
def State.noteErrors (s : State) (p : Nat) (q : RxQuality) : State :=
  ((s.countPort p 0x118 (q.ce 8)).countPort p 0x120 (q.ue 8)).countPort p 0x128 (bnat (q.crcBad 8))

section

variable (s : State) (p : Nat) (q : RxQuality)

theorem State.noteErrors_port_self : (s.noteErrors p q).port p =
    { s.port p with ctr := ctrAdd (ctrAdd (ctrAdd (s.port p).ctr 0x118 (q.ce 8)) 0x120 (q.ue 8)) 0x128 (bnat (q.crcBad 8)) } := by
  unfold State.noteErrors
  rw [State.countPort_port_self, State.countPort_port_self, State.countPort_port_self]

theorem State.noteErrors_port_ne {k : Nat} (hk : k ≠ p) : (s.noteErrors p q).port k = s.port k := by
  unfold State.noteErrors
  rw [State.countPort_port_ne _ _ _ _ hk, State.countPort_port_ne _ _ _ _ hk, State.countPort_port_ne _ _ _ _ hk]

theorem State.noteErrors_ue : Map.get 0 ((s.noteErrors p q).port p).ctr 0x120 =
    Map.get 0 (s.port p).ctr 0x120 + BitVec.ofNat 64 (q.ue 8) := by
  rw [State.noteErrors_port_self]
  show Map.get 0 (ctrAdd (ctrAdd (ctrAdd (s.port p).ctr 0x118 (q.ce 8)) 0x120 (q.ue 8)) 0x128 (bnat (q.crcBad 8))) 0x120 = _
  unfold ctrAdd Map.mod
  rw [Map.get_set_ne _ _ _ _ _ (by decide), Map.get_set_self, Map.get_set_ne _ _ _ _ _ (by decide)]

end

/-- A frame with an error is not taken: the port asks for it again, and counts how often it has discarded the one it expects (R342, R343). -/
def State.discards (s : State) (p expect : Nat) (fr : Frame) : State :=
  s.modPort p fun x => { x with rx := { x.rx with nak := true, disc := x.rx.disc + (if fr.seq = expect then 1 else 0) } }

/-- A frame without error: its header acts (R336, R339). -/
def State.headed (s : State) (p : Nat) (fr : Frame) : State :=
  s.modPort p fun x => { x.alignAcked (x.rx.acked fr) with rx := x.rx.header fr }

/-- The frame is the one expected: its job flits enter the receive buffer (R339, R342). -/
def State.takesFrame (s : State) (p expect : Nat) (fr : Frame) : State :=
  (s.modPort p fun x => { x with rx := { x.rx with
    ackRx := expect, nak := false, disc := 0, buf := x.rx.buf ++ fr.flits.filter fun f => decide (f.vc ≤ 1)
    freed := addAt x.rx.freed 2 (fr.flits.filter fun f => decide (f.vc = 2)).length } }).countPort p 0x108
      (fr.flits.filter fun f => decide (f.vc ≤ 1)).length

section

variable {s : State} {p : Nat} {fr : Frame} {q : RxQuality} (hp : p < 32)
include hp

theorem llynFrameReceive_dead (hst : ¬ ((s.port p).st = 3 ∨ (s.port p).st = 4)) : exec (.llynFrameReceive p fr q) s = .next s :=
  (if_neg (Nat.not_le.2 hp)).trans (if_pos (not_or.1 hst))

variable (hlive : (s.port p).st = 3 ∨ (s.port p).st = 4)
include hlive

theorem llynFrameReceive_bad (hbad : q.bad 8 = true) {s2 : State}
    (hs2 : (s.noteErrors p q).discards p (((s.port p).rx.ackRx + 1) % 4096) fr = s2) :
    exec (.llynFrameReceive p fr q) s = .next (if 8 ≤ (s2.port p).rx.disc then s2.startRetrain p 6 else s2) := by
  subst hs2
  exact ((if_neg (Nat.not_le.2 hp)).trans (if_neg (by omega))).trans (if_pos hbad)

variable (hgood : q.bad 8 = false)
include hgood

theorem llynFrameReceive_astray (hseq : fr.seq ≠ ((s.port p).rx.ackRx + 1) % 4096) : exec (.llynFrameReceive p fr q) s =
    .next (((s.noteErrors p q).headed p fr).modPort p fun x => { x with rx := { x.rx with nak := true } }) :=
  (((if_neg (Nat.not_le.2 hp)).trans (if_neg (by omega))).trans (if_neg (by rw [hgood]; decide))).trans (if_pos hseq)

theorem llynFrameReceive_next (hseq : fr.seq = ((s.port p).rx.ackRx + 1) % 4096) (hsym : fr.sym = none) :
    exec (.llynFrameReceive p fr q) s =
      .next (((s.noteErrors p q).headed p fr).takesFrame p (((s.port p).rx.ackRx + 1) % 4096) fr) := by
  refine (((if_neg (Nat.not_le.2 hp)).trans (if_neg (by omega))).trans (if_neg (by rw [hgood]; decide))).trans
    ((if_neg (not_not.2 hseq)).trans ?_)
  rw [hsym]
  rfl

end

section

variable {s : State} {p : Nat} (fr : Frame) (q : RxQuality)

theorem State.noteErrors_rx : ((s.noteErrors p q).port p).rx = (s.port p).rx := by rw [State.noteErrors_port_self]

theorem State.discarded_port (e : Nat) : ((s.noteErrors p q).discards p e fr).port p = { (s.noteErrors p q).port p with
    rx := { (s.port p).rx with nak := true, disc := (s.port p).rx.disc + (if fr.seq = e then 1 else 0) } } := by
  unfold State.discards
  rw [State.modPort_port_self, State.noteErrors_rx]

theorem State.headed_rx : (((s.noteErrors p q).headed p fr).port p).rx = (s.port p).rx.header fr := by
  unfold State.headed
  rw [State.modPort_port_self, State.noteErrors_rx]

theorem State.headed_port_ne {k : Nat} (hk : k ≠ p) : ((s.noteErrors p q).headed p fr).port k = s.port k := by
  unfold State.headed
  rw [State.modPort_port_ne _ _ _ _ hk, State.noteErrors_port_ne _ _ _ hk]

theorem State.takesFrame_rx (e : Nat) : ((s.takesFrame p e fr).port p).rx = { (s.port p).rx with
    ackRx := e, nak := false, disc := 0, buf := (s.port p).rx.buf ++ fr.flits.filter fun f => decide (f.vc ≤ 1)
    freed := addAt (s.port p).rx.freed 2 (fr.flits.filter fun f => decide (f.vc = 2)).length } := by
  unfold State.takesFrame
  rw [State.countPort_rx, State.modPort_port_self]

theorem State.takesFrame_port_ne (e : Nat) {k : Nat} (hk : k ≠ p) : (s.takesFrame p e fr).port k = s.port k := by
  unfold State.takesFrame
  rw [State.countPort_port_ne _ _ _ _ hk, State.modPort_port_ne _ _ _ _ hk]

end

/-! ## Packets in and through (R236, R351) -/

section

variable {s : State} {p vc : Nat} {l : List Flit} (hp : p < 32)
include hp

section Ingress

variable (h : (s.port p).rx.frontBy (fun r => decide (recDmod r = s.modid)) = some (vc, l))
include h

theorem remotePacketIngress_eq : exec (.remotePacketIngress p) s =
    if (s.region (p / 2)).pwr ≠ 0 ∨ s.transitWaits p = true then .next s
    else if ¬ (3 ≤ s.job.js ∧ s.job.js ≤ 6) then .next (s.takeFlits p vc l.length)
    else if recType (chunksOf l) = 3 then
      if s.breaksR30 (bitsAt (chunksOf l) 48 12) then .next ((s.takeFlits p vc l.length).refuseIn p)
      else .next ((s.takeFlits p vc l.length).modNet fun n => { n with
        msgs := n.msgs ++ [{ h0 := wordAt (payOf l) 0, h1 := wordAt (payOf l) 8, pay := (payOf l).drop 16 }] })
    else if (unionTiles (recPkt (chunksOf l) (payOf l)).rects).any s.breaksR30 then .next ((s.takeFlits p vc l.length).refuseIn p)
    else .next ((s.takeFlits p vc l.length).modNet fun n => { n with
      pkts := n.pkts ++ (unionTiles (recPkt (chunksOf l) (payOf l)).rects).map fun t =>
        { recPkt (chunksOf l) (payOf l) with src := edgeTile p, rects := [rectOf t] } }) := by
  show execRemotePacketIngress p s = _
  unfold execRemotePacketIngress
  rw [if_neg (Nat.not_le.2 hp), h]

end Ingress

theorem transitPacket_eq {q : Nat} (h : (s.port p).rx.frontBy (fun r => decide (recDmod r ≠ s.modid)) = some (vc, l))
    (hroute : s.transitRoute (chunksOf l) = .inr q) : exec (.transitPacket p) s =
      if s.transitOn p q = true ∧ s.transitWaits p = false then
        .next ((s.takeFlits p vc l.length).modPort q fun x => { x with rx := { x.rx with
          tx := x.rx.tx ++ l.map fun f => { f with vc := if vc = 1 ∨ (s.port q).dl then 1 else 0 } } })
      else .next s := by
  show execTransitPacket p s = _
  unfold execTransitPacket
  rw [if_neg (Nat.not_le.2 hp), h]
  dsimp only
  rw [hroute]

end

theorem State.takeFlits_rx (s : State) (p vc n : Nat) : ((s.takeFlits p vc n).port p).rx =
    { (s.port p).rx with buf := dropFlits vc n (s.port p).rx.buf, freed := addAt (s.port p).rx.freed vc n } := by
  unfold State.takeFlits
  rw [State.modPort_port_self]

/-- The link layer's ready flits are not touched where received ones leave. -/
theorem State.takeFlits_tx (s : State) (p vc n q : Nat) : ((s.takeFlits p vc n).port q).rx.tx = (s.port q).rx.tx := by
  unfold State.takeFlits
  rw [State.modPort_port]
  split
  · next h => rw [h]
  · rfl

theorem State.transitOn_iff (s : State) (p q : Nat) : s.transitOn p q = true ↔ ∀ c ∈ transitRegions p q, (s.region c).pwr = 0 := by
  unfold State.transitOn
  simp only [List.all_eq_true, decide_eq_true_eq]

/-- Settles O42: a command on a port is one of the cases above; what it does to the port is read off the state they name. -/
theorem framesAndPackets : Obligations.FramesAndPackets := by
  unfold Obligations.FramesAndPackets
  intro s p hp x rx live
  have hsend : exec (.linkFrameSend p) s = .next (s.llynSend p) := if_pos hp
  refine ⟨fun hdead => ⟨?_, fun fr q => llynFrameReceive_dead hp hdead⟩, fun hlive f rest hres => ?_, fun hlive hres => ?_,
    fun hlive fr q hbad hdisc => ?_, fun hup fr q hbad hdisc hseq => ?_, fun hlive fr q hgood hseq => ?_,
    fun hlive fr q hgood hseq hsym => ?_, fun vc l hfront => ?_, fun vc l q hfront hroute => ?_⟩
  · rw [hsend]
    unfold State.llynSend
    exact congrArg _ (if_pos (not_or.1 hdead))
  · refine ⟨_, hsend, ?_⟩
    rw [State.llynSend_again hlive hres, State.countPort_port_self, State.modPort_port_self]
    refine ⟨rfl, rfl, rfl, Map.get_set_self _ _ _ _, fun k hk => ?_⟩
    rw [State.countPort_port_ne _ _ _ _ hk, State.modPort_port_ne _ _ _ _ hk]
  · obtain ⟨hrx, hports, htiles, hjob⟩ := State.llynSend_new hlive hres
    have hkept : ∀ {α : Type} (f : LinkRx → α), f (s.txSlots p).1.untraded = f rx.untraded := fun f =>
      congrArg f State.txSlots_untraded
    have hseq : (s.txSlots p).1.seq = rx.seq := hkept LinkRx.seq
    have hsyms : (s.txSlots p).1.syms = rx.syms := hkept LinkRx.syms
    refine ⟨_, s.newFrame p, hsend, ?_⟩
    rw [hrx]
    exact ⟨rfl, hseq, hkept LinkRx.ackRx, rfl, congrArg List.head? hsyms, State.txSlots_length,
      congrArg (fun n => (n + 1) % 4096) hseq, congrArg (List.drop 1) hsyms, LinkRx.framed_replay _ _, hports, htiles, hjob⟩
  · have hport := State.discarded_port (s := s) (p := p) fr q ((rx.ackRx + 1) % 4096)
    refine ⟨_, llynFrameReceive_bad hp hlive hbad rfl, ?_⟩
    rw [if_neg (by rw [hport]; show ¬ 8 ≤ rx.disc + _; split <;> omega), hport]
    exact ⟨rfl, rfl, rfl, by rw [State.noteErrors_port_self], s.noteErrors_ue p q⟩
  · have hport := State.discarded_port (s := s) (p := p) fr q ((rx.ackRx + 1) % 4096)
    refine ⟨_, llynFrameReceive_bad hp (.inr hup) hbad rfl, ?_⟩
    rw [if_pos (by rw [hport]; show 8 ≤ rx.disc + _; rw [hdisc, if_pos hseq]), State.startRetrain_of_up (by
      rw [hport, State.noteErrors_port_self]; exact hup), hport]
    exact ⟨rfl, rfl, rfl⟩
  · refine ⟨_, llynFrameReceive_astray hp hlive hgood hseq, ?_⟩
    rw [State.modPort_port_self, State.headed_rx]
    exact ⟨rfl, rfl, rfl⟩
  · refine ⟨_, llynFrameReceive_next hp hlive hgood hseq hsym, ?_⟩
    rw [State.takesFrame_rx, State.headed_rx, hseq]
    refine ⟨rfl, rfl, rfl, rfl, rfl, fun k hk => ?_⟩
    rw [State.takesFrame_port_ne _ _ hk, State.headed_port_ne _ _ hk]
  · have heq := remotePacketIngress_eq hp hfront
    refine ⟨fun h => heq.trans (if_pos h.symm), fun hwait hpwr hjs3 hjs6 => ?_⟩
    rw [if_neg (by simp [hwait, hpwr]), if_neg (not_not.2 ⟨hjs3, hjs6⟩)] at heq
    intro r k rest
    have hrest : ∀ f, rest ((s.takeFlits p vc l.length).modNet f) := fun f => by
      refine ⟨?_, ?_, rfl⟩ <;> rw [State.modNet_port, State.takeFlits_rx]
    refine ⟨fun hty hok => ?_, fun hty hok => ?_, fun hty hbad => ?_⟩
    · exact ⟨_, heq.trans ((if_neg hty).trans (if_neg (Bool.eq_false_iff.1 hok))), hrest _, rfl⟩
    · exact ⟨_, heq.trans ((if_pos hty).trans (if_neg (Bool.eq_false_iff.1 hok))), hrest _, _, rfl, rfl, rfl, rfl⟩
    · refine ⟨_, heq.trans ((if_neg hty).trans (if_pos hbad)), ?_⟩
      exact State.tileFault_tile_fault _ _ _ _ _ _
  · have heq := transitPacket_eq hp hfront hroute
    refine ⟨fun ⟨c, hc, hpwr⟩ => heq.trans (if_neg fun ⟨hon, _⟩ => hpwr ((s.transitOn_iff p q).1 hon c hc)), fun hon hwait => ?_⟩
    refine ⟨_, heq.trans (if_pos ⟨(s.transitOn_iff p q).2 hon, hwait⟩), ?_, ?_, rfl, rfl⟩
    · rw [State.modPort_port]
      split
      · next h => rw [← h, State.takeFlits_rx]
      · rw [State.takeFlits_rx]
    · rw [State.modPort_port_self, State.takeFlits_tx]

end Sys2Proof.Machine


/-! # Symbols (R345, R346, R349, R352 to R355, R417, R449, R496) -/

namespace Sys2Proof.Machine

/-! ## The fields of a symbol (R352) -/

section

variable (code dmod smod low : Nat)

/-- The payload of a symbol of the job as a sum of its fields. -/
theorem Sym.mk5_pay : (Sym.mk5 code dmod smod low).pay = dmod % 1024 * 2 ^ 18 + (smod % 1024 * 2 ^ 8 + low % 256) := by
  have hlow : low % 256 < 2 ^ 8 := Nat.mod_lt _ (by decide)
  have hrest : smod % 1024 * 2 ^ 8 + low % 256 < 2 ^ 18 := by omega
  show (dmod % 1024) <<< 18 ||| (smod % 1024) <<< 8 ||| low % 256 = _
  rw [Nat.or_assoc, ← Nat.shiftLeft_add_eq_or_of_lt hlow, Nat.shiftLeft_eq _ 8, ← Nat.shiftLeft_add_eq_or_of_lt hrest, Nat.shiftLeft_eq]

@[simp] theorem Sym.mk5_dmod : Sym.dmod (Sym.mk5 code dmod smod low) = dmod % 1024 := by
  unfold Sym.dmod
  rw [Sym.mk5_pay, Nat.shiftRight_eq_div_pow]
  omega

@[simp] theorem Sym.mk5_smod : Sym.smod (Sym.mk5 code dmod smod low) = smod % 1024 := by
  unfold Sym.smod
  rw [Sym.mk5_pay, Nat.shiftRight_eq_div_pow]
  omega

@[simp] theorem Sym.mk5_low : Sym.low (Sym.mk5 code dmod smod low) = low % 256 := by
  unfold Sym.low
  rw [Sym.mk5_pay]
  omega

theorem Sym.mkFix_pay (tick : Nat) : (Sym.mkFix dmod tick).pay = dmod % 1024 * 2 ^ 18 + tick % 2 ^ 18 := by
  have htick : tick % 2 ^ 18 < 2 ^ 18 := Nat.mod_lt _ (by decide)
  show (dmod % 1024) <<< 18 ||| tick % 2 ^ 18 = _
  rw [← Nat.shiftLeft_add_eq_or_of_lt htick, Nat.shiftLeft_eq]

@[simp] theorem Sym.mkFix_dmod (tick : Nat) : Sym.dmod (Sym.mkFix dmod tick) = dmod % 1024 := by
  unfold Sym.dmod
  rw [Sym.mkFix_pay, Nat.shiftRight_eq_div_pow]
  omega

end

/-! ## A symbol that comes in (R349, R352 to R354) -/

section

variable {s : State} {p : Nat} {y : Sym} {rpl fault : Bool}

theorem symCmd_eq (hp : p < 32) : symCmd p y rpl fault s = .next (s.symIn p y rpl fault) := if_neg (Nat.not_le.2 hp)

/-- A malformed symbol is counted and does nothing else. -/
theorem State.symIn_of_bad (h : Sym.good y = false) : s.symIn p y rpl fault = s.countPort p 0x150 1 := by
  unfold State.symIn
  rw [if_pos (by rw [h]; rfl)]

variable (hgood : Sym.good y = true)
include hgood

theorem State.symIn_link (hcode : y.code = 8) : s.symIn p y rpl fault = s.linkIn p (y.pay / 2 ^ 26) (y.pay % 2 ^ 26) := by
  unfold State.symIn
  rw [if_neg (by rw [hgood]; decide), if_pos hcode]

theorem State.symIn_align (hcode : y.code = 7) : s.symIn p y rpl fault = s.alignIn p (y.pay.testBit 27) rpl (y.pay % 2 ^ 27) := by
  unfold State.symIn
  rw [if_neg (by rw [hgood]; decide), if_neg (by rw [hcode]; decide), if_pos hcode]

variable (hcode : y.code ≤ 6) (hup : (s.port p).st = 4)
include hcode hup

theorem State.symIn_away (hdmod : Sym.dmod y ≠ s.modid) : s.symIn p y rpl fault = s.forwardSym y := by
  unfold State.symIn
  rw [if_neg (by rw [hgood]; decide), if_neg (by omega), if_neg (by omega), if_neg (not_not.2 hup), if_pos hdmod]

section Here

variable (hdmod : Sym.dmod y = s.modid)
include hdmod

theorem State.symIn_here : s.symIn p y rpl fault =
    if y.code = 5 then s.stopIn p (Sym.smod y) (Sym.low y)
    else if y.code = 6 then s.fixIn p (y.pay % 2 ^ 18) fault
    else if s.job.img.isSome then s.modWave fun v => { v with held := v.held ++ [(p, y)] } else s := by
  unfold State.symIn
  rw [if_neg (by rw [hgood]; decide), if_neg (by omega), if_neg (by omega), if_neg (not_not.2 hup), if_neg (not_not.2 hdmod)]

/-- A wave symbol for a member of a job is held (R354). -/
theorem State.symIn_held (himg : s.job.img.isSome = true) (hwave : y.code ≤ 4) :
    s.symIn p y rpl fault = s.modWave fun v => { v with held := v.held ++ [(p, y)] } := by
  rw [State.symIn_here hgood hcode hup hdmod, if_neg (by omega), if_neg (by omega), if_pos himg]

theorem State.symIn_stop (hstop : y.code = 5) : s.symIn p y rpl fault = s.stopIn p (Sym.smod y) (Sym.low y) :=
  (State.symIn_here hgood hcode hup hdmod).trans (if_pos hstop)

theorem State.symIn_fix (hfix : y.code = 6) : s.symIn p y rpl fault = s.fixIn p (y.pay % 2 ^ 18) fault := by
  rw [State.symIn_here hgood hcode hup hdmod, if_neg (by omega), if_pos hfix]

end Here

theorem State.symIn_forwarded (hjob : y.code ≠ 6) (hdmod : Sym.dmod y ≠ s.modid) {k : Nat}
    (hroute : s.route (Sym.dmod y) (Sym.smod y) true = .inr k) :
    s.symIn p y rpl fault = s.queueSym k y := by
  rw [State.symIn_away hgood hcode hup hdmod]
  unfold State.forwardSym
  rw [if_neg hjob, hroute]

end

/-! ## A fix tick that comes in (R495, R496) -/

section

variable {s : State} {p tick : Nat}

/-- The low 18 bits of a tick name it. -/
theorem fixTickOf_mod (now tick : Nat) : fixTickOf now (tick % 2 ^ 18) = fixTickOf now tick := by
  unfold fixTickOf
  rw [Nat.mod_mod]

/-- With no fix held or to come, a `FIX` of no job fault is passed on, then latches now if its tick has passed and sets it if not. -/
theorem State.fixIn_of_new (hlatched : s.dbg.latched = false) (hpend : s.dbg.pendSrc = none) : s.fixIn p tick false =
    if fixTickOf s.now tick ≤ s.now then (s.sendAlong (s.edgesBut (some p)) fun peer => Sym.mkFix peer tick).latch 5 s.now true
    else (s.sendAlong (s.edgesBut (some p)) fun peer => Sym.mkFix peer tick).modDbg fun d =>
      { d with pendSrc := some 5, pendTick := fixTickOf s.now tick, pendJob := false } := by
  unfold State.fixIn
  simp [hlatched, hpend]

theorem State.latch_job (src : Nat) (late : Bool) : (s.latch src tick late).job = s.job := rfl
theorem State.latch_tiles (src : Nat) (late : Bool) : (s.latch src tick late).tiles = s.tiles := rfl

theorem State.fixIn_latches (hlatched : s.dbg.latched = false) (hpend : s.dbg.pendSrc = none) :
    (s.fixIn p tick false).job = s.job ∧ (s.fixIn p tick false).tiles = s.tiles ∧
      (s.now < fixTickOf s.now tick → (s.fixIn p tick false).dbg.latched = false ∧ (s.fixIn p tick false).dbg.pendSrc = some 5 ∧
        (s.fixIn p tick false).dbg.pendTick = fixTickOf s.now tick) ∧
      (fixTickOf s.now tick ≤ s.now → (s.fixIn p tick false).dbg.latched = true ∧ (s.fixIn p tick false).dbg.late = true ∧
        (s.fixIn p tick false).dbg.src = 5) := by
  rw [State.fixIn_of_new hlatched hpend]
  by_cases hpast : fixTickOf s.now tick ≤ s.now
  · rw [if_pos hpast]
    refine ⟨?_, ?_, fun h => absurd h (Nat.not_lt.2 hpast), fun _ => ⟨rfl, rfl, rfl⟩⟩
    · rw [State.latch_job, State.sendAlong_job]
    · rw [State.latch_tiles, State.sendAlong_tiles]
  · rw [if_neg hpast]
    refine ⟨?_, ?_, fun _ => ⟨?_, rfl, rfl⟩, fun h => absurd h hpast⟩
    · rw [State.modDbg_job, State.sendAlong_job]
    · rw [State.modDbg_tiles, State.sendAlong_tiles]
    · rw [State.modDbg_dbg, State.sendAlong_dbg]
      exact hlatched

end

/-! ## A held symbol acts (R225, R354, R417) -/

/-- The report of this member adds nothing to what the wave holds of its children's symbols and of the symbols that wait. -/
theorem State.ownReport_wave (s : State) : s.ownReport.job.wave.held = s.job.wave.held ∧
    s.ownReport.job.wave.arrFrom = s.job.wave.arrFrom := by
  unfold State.ownReport
  dsimp only
  repeat' split
  all_goals simp

theorem State.doneReport_wave (s : State) : s.doneReport.job.wave.held = s.job.wave.held ∧
    s.doneReport.job.wave.partFrom = s.job.wave.partFrom := by
  unfold State.doneReport
  extract_lets v s1
  split
  · split
    · rw [State.queueSym_job]
      exact ⟨rfl, rfl⟩
    · exact ⟨rfl, rfl⟩
  · exact ⟨rfl, rfl⟩

section

variable {s : State} {y : Sym}

theorem State.waveAct_keeps (s : State) (y : Sym) : (s.waveAct y).job.wave.held = s.job.wave.held ∧ (s.waveAct y).tiles = s.tiles := by
  unfold State.waveAct
  extract_lets child fromParent
  split
  · exact ⟨(State.ownReport_wave _).1, State.ownReport_tiles _⟩
  · exact ⟨(State.doneReport_wave _).1, State.doneReport_tiles _⟩
  · split <;> exact ⟨rfl, rfl⟩
  · split <;> exact ⟨rfl, rfl⟩
  · exact ⟨rfl, rfl⟩

section Child

variable {e : Nat × Nat × Nat} (hchild : s.childEdges.find? (fun e => decide (e.2.1 = Sym.smod y)) = some e)
include hchild

theorem State.waveAct_of_arrive (hcode : y.code = 1) : s.waveAct y = (s.modWave fun v => { v with
    arrFrom := (v.arrFrom.filter fun a => decide (a.1 ≠ e.2.2)) ++ [(e.2.2, Sym.low y)] }).ownReport := by
  unfold State.waveAct
  rw [hcode, hchild]
  rfl

theorem State.waveAct_of_part (hcode : y.code = 3) : s.waveAct y =
    (s.modWave fun v => { v with partFrom := (e.2.2 :: v.partFrom).eraseDups }).doneReport := by
  unfold State.waveAct
  rw [hcode, hchild]
  rfl

/-- The arrival of a child is its report, with the step it allows (R417). -/
theorem State.waveAct_arrive (hcode : y.code = 1) : (e.2.2, Sym.low y) ∈ (s.waveAct y).job.wave.arrFrom := by
  rw [State.waveAct_of_arrive hchild hcode, (State.ownReport_wave _).2]
  exact List.mem_append_right _ (List.mem_singleton.2 rfl)

theorem State.waveAct_part (hcode : y.code = 3) : e.2.2 ∈ (s.waveAct y).job.wave.partFrom := by
  rw [State.waveAct_of_part hchild hcode, (State.doneReport_wave _).2]
  exact List.mem_eraseDups.2 List.mem_cons_self

end Child

theorem State.waveAct_of_go (hcode : y.code = 2) : s.waveAct y =
    if s.parentEdge.any (fun e => decide (e.2.1 = Sym.smod y)) ∧ s.job.wave.arrSent then
      s.modWave fun v => { v with go := some (Sym.low y) } else s := by
  unfold State.waveAct
  rw [hcode]
  rfl

theorem State.waveAct_of_done (hcode : y.code = 4) : s.waveAct y =
    if s.parentEdge.any (fun e => decide (e.2.1 = Sym.smod y)) ∧ s.job.wave.partSent then
      s.modWave fun v => { v with done := true } else s := by
  unfold State.waveAct
  rw [hcode]
  rfl

variable {e : Nat × Nat × Nat} (hparent : s.parentEdge = some e) (hpeer : e.2.1 = Sym.smod y)
include hparent hpeer

/-- The release that the parent sends reaches a member that has reported (R225). -/
theorem State.waveAct_go (hcode : y.code = 2) (hsent : s.job.wave.arrSent = true) :
    (s.waveAct y).job.wave.go = some (Sym.low y) := by
  rw [State.waveAct_of_go hcode, hparent, if_pos ⟨decide_eq_true hpeer, hsent⟩]
  rfl

theorem State.waveAct_done (hcode : y.code = 4) (hsent : s.job.wave.partSent = true) : (s.waveAct y).job.wave.done = true := by
  rw [State.waveAct_of_done hcode, hparent, if_pos ⟨decide_eq_true hpeer, hsent⟩]
  rfl

end

theorem symbolHoldRelease_first {s : State} {i q : Nat} {y : Sym} (h : s.job.wave.held[i]? = some (q, y))
    (hfirst : ∀ g ∈ s.job.wave.held.take i, g.1 ≠ q) : exec (.symbolHoldRelease i) s =
      .next ((s.modWave fun v => { v with held := v.held.eraseIdx i }).waveAct y) := by
  show execSymbolHoldRelease i s = _
  unfold execSymbolHoldRelease
  rw [h]
  dsimp only
  rw [if_neg]
  simp only [List.any_eq_true, decide_eq_true_eq, not_exists, not_and]
  exact hfirst

/-! ## Checks and exchanges of a port (R345, R346, R355, R356) -/

section

variable (s : State) (p : Nat)

/-- A port in `PARAM` whose checks have passed and whose exchanges are done comes `UP`; any other stays as it is. -/
theorem State.paramCheck_port_self : (s.paramCheck p).port p =
    if (s.port p).st = 3 ∧ 16 ≤ (s.port p).aligns ∧ [0, 1, 2].all (s.port p).seen.contains then
      { s.port p with st := 4, rvalid := true, reason := 0 } else s.port p := by
  unfold State.paramCheck
  extract_lets x s1
  have hs1 : ∀ k, s1.port k = s.port k := by
    intro k
    unfold s1
    split <;> rfl
  split
  · rw [State.measure_port, State.readyFrom_port, State.modPort_port_self, hs1]
  · exact hs1 p

/-- Nothing of the port but its link state is written. -/
theorem State.paramCheck_keeps : ∃ st rvalid reason, (s.paramCheck p).port p =
    { s.port p with st := st, rvalid := rvalid, reason := reason } := by
  rw [State.paramCheck_port_self]
  split
  · exact ⟨_, _, _, rfl⟩
  · exact ⟨(s.port p).st, (s.port p).rvalid, (s.port p).reason, rfl⟩

theorem State.paramCheck_port_ne {k : Nat} (hk : k ≠ p) : (s.paramCheck p).port k = s.port k := by
  unfold State.paramCheck
  extract_lets x s1
  have hs1 : s1.port k = s.port k := by
    unfold s1
    split <;> rfl
  split
  · rw [State.measure_port, State.readyFrom_port, State.modPort_port_ne _ _ _ _ hk, hs1]
  · exact hs1

/-- The measured delay of a port with its exchanges done enters the alignment record (R356). -/
theorem State.paramCheck_align (h : 16 ≤ (s.port p).aligns) : Map.get 0 (s.paramCheck p).power.align p = (s.port p).delayPs := by
  unfold State.paramCheck
  extract_lets x s1
  have hs1 : s1 = s.modPower fun w => { w with align := Map.set 0 w.align p x.delayPs } := if_pos h
  have halign : Map.get 0 s1.power.align p = x.delayPs := by
    rw [hs1]
    exact Map.get_set_self _ _ _ _
  split
  · rw [State.measure_power, State.readyFrom_power]
    exact halign
  · exact halign

end

theorem Port.alignEnd_of_missing {x : Port} {p i : Nat} (hi : i < 4) (h : Map.get 0 x.stamps i = 0) : x.alignEnd p = x := by
  unfold Port.alignEnd
  refine if_neg fun hall => ?_
  have hpos : ∀ j ∈ [0, 1, 2, 3], 0 < Map.get 0 x.stamps j := by simpa using hall
  have := hpos i (by simp; omega)
  omega

/-- What the four stamps of an exchange give (R355). -/
theorem Port.alignEnd_of_all {x : Port} {p : Nat} (h : ∀ i < 4, 0 < Map.get 0 x.stamps i) :
    (x.alignEnd p).st = x.st ∧ (x.alignEnd p).seen = x.seen ∧ (x.alignEnd p).aligns = x.aligns + 1 ∧
      (x.alignEnd p).delayPs = BitVec.ofInt 32 ((stampDiff (Map.get 0 x.stamps 1 - 1) (Map.get 0 x.stamps 0 - 1) +
        stampDiff (Map.get 0 x.stamps 3 - 1) (Map.get 0 x.stamps 2 - 1)) * 125 - Config.linkCal p) := by
  unfold Port.alignEnd
  rw [if_pos (by simp [h])]
  exact ⟨rfl, rfl, rfl, rfl⟩

section

variable {s : State} {p : Nat}

/-- The payload of `ALIGN` (R352): which stamp it is, and the stamp. -/
theorem align_payload (recv : Bool) (stamp : Nat) : ((if recv then 2 ^ 27 else 0) + stamp % 2 ^ 27).testBit 27 = recv ∧
    ((if recv then 2 ^ 27 else 0) + stamp % 2 ^ 27) % 2 ^ 27 = stamp % 2 ^ 27 := by
  have hlow : (stamp % 2 ^ 27).testBit 27 = false := Nat.testBit_lt_two_pow (Nat.mod_lt _ (by decide))
  cases recv
  · rw [if_neg (by decide), Nat.zero_add]
    exact ⟨hlow, Nat.mod_mod _ _⟩
  · rw [if_pos rfl, Nat.testBit_two_pow_add_eq, hlow]
    exact ⟨rfl, by rw [Nat.add_mod_left, Nat.mod_mod]⟩

theorem align_eq (hp : p < 32) (recv rpl : Bool) (stamp : Nat) :
    exec (.align p recv rpl stamp) s = .next (s.alignIn p recv rpl (stamp % 2 ^ 27)) := by
  obtain ⟨hbit, hlow⟩ := align_payload recv stamp
  refine (symCmd_eq hp).trans (congrArg _ ((State.symIn_align rfl rfl).trans ?_))
  rw [hbit, hlow]

theorem State.alignIn_of_replayed (recv : Bool) (stamp : Nat) : s.alignIn p recv true stamp = s := if_neg fun h => h.2 rfl

variable (hlive : (s.port p).st = 3 ∨ (s.port p).st = 4)
include hlive

/-- A receive stamp belongs to the oldest send stamp it can be of. -/
theorem State.alignIn_receipt {k : Nat} {rest : List Nat} (hsends : (s.port p).sends = k :: rest) (stamp : Nat) :
    s.alignIn p true false stamp = (s.modPort p fun _ => ({ s.port p with
      sends := rest, stamps := Map.set 0 (Map.set 0 (s.port p).stamps 0 (1 + k)) 1 (1 + stamp % 2 ^ 27) } : Port).alignEnd p).paramCheck p := by
  unfold State.alignIn
  rw [if_pos ⟨hlive, by decide⟩]
  unfold State.modPort
  dsimp only
  rw [if_pos rfl, hsends]

/-- A send stamp of the far end is stamped here as it comes in. -/
theorem State.alignIn_sent (stamp : Nat) : s.alignIn p false false stamp = (s.modPort p fun _ => ({ s.port p with
    stamps := Map.set 0 (Map.set 0 (s.port p).stamps 2 (1 + stamp % 2 ^ 27)) 3 (1 + s.stamp) } : Port).alignEnd p).paramCheck p := by
  unfold State.alignIn
  rw [if_pos ⟨hlive, by decide⟩]
  rfl

theorem alignExchangeTimer_eq (hp : p < 32) : exec (.alignExchangeTimer p) s =
    .next ((if Map.get 0 (s.port p).stamps 3 = 0 then s.queueSym p { code := 7, pay := s.stamp }
      else (s.queueSym p { code := 7, pay := s.stamp }).queueSym p { code := 7, pay := 2 ^ 27 + (Map.get 0 (s.port p).stamps 3 - 1) }).modPort p
        fun x => { x with sends := x.sends ++ [s.stamp] }) :=
  (if_neg (Nat.not_le.2 hp)).trans (if_pos hlive)

end

section

variable {s : State} {p : Nat}

/-- With room a symbol that is no `STOP` joins the queue at its end (R353). -/
theorem State.queueSym_of_room {y : Sym} (hroom : (s.port p).rx.syms.length < 64) (hcode : y.code ≠ 5) :
    (s.queueSym p y).port p = { s.port p with rx := { (s.port p).rx with syms := (s.port p).rx.syms ++ [y] } } := by
  unfold State.queueSym
  rw [State.modPort_port_self]
  dsimp only
  rw [if_neg (by omega), if_neg hcode]

theorem State.queueSym_port_ne (y : Sym) {k : Nat} (hk : k ≠ p) : (s.queueSym p y).port k = s.port k := State.modPort_port_ne _ _ _ _ hk

theorem link_eq (hp : p < 32) {val : Nat} (hval : val < 2 ^ 26) : exec (.link p 1 val) s = .next (s.linkIn p 1 val) := by
  have hpay : 1 % 4 * 2 ^ 26 + val % 2 ^ 26 = 2 ^ 26 + val := by omega
  have hgood : Sym.good { code := 8, pay := 1 % 4 * 2 ^ 26 + val % 2 ^ 26 } = true := by
    refine decide_eq_true ?_
    show (1 % 4 * 2 ^ 26 + val % 2 ^ 26) / 2 ^ 26 ≠ 3
    omega
  refine (symCmd_eq hp).trans (congrArg _ ((State.symIn_link hgood rfl).trans ?_))
  show s.linkIn p ((1 % 4 * 2 ^ 26 + val % 2 ^ 26) / 2 ^ 26) ((1 % 4 * 2 ^ 26 + val % 2 ^ 26) % 2 ^ 26) = _
  rw [show (1 % 4 * 2 ^ 26 + val % 2 ^ 26) / 2 ^ 26 = 1 by omega, show (1 % 4 * 2 ^ 26 + val % 2 ^ 26) % 2 ^ 26 = val by omega]

/-- The fabric symbol in `PARAM` is seen where it names this fabric, else it is the reason the port stays in `PARAM` (R346). -/
theorem State.linkIn_fabric (hst : (s.port p).st = 3) (val : Nat) : s.linkIn p 1 val = if val % 2 ^ 16 = fld s.net.modid 32 16 then
    (s.modPort p fun x => { x with seen := (1 :: x.seen).eraseDups }).paramCheck p else s.modPort p fun x => { x with reason := 3 } := by
  unfold State.linkIn
  rw [if_pos hst]
  rfl

end

/-! ## What a port that is `UP` does with the symbols of a job -/

section

variable {s : State} {p dmod smod : Nat} (hp : p < 32) (hup : (s.port p).st = 4)
include hp hup

/-- The waves' symbols for this member are held, nothing else changes. -/
theorem symCmd_held {code n : Nat} (hcode : code ≤ 4) (hgood : Sym.good (Sym.mk5 code dmod smod n) = true)
    (hdmod : dmod % 1024 = s.modid) (himg : s.job.img.isSome = true) : symCmd p (Sym.mk5 code dmod smod n) false false s =
      .next (s.modWave fun v => { v with held := v.held ++ [(p, Sym.mk5 code dmod smod n)] }) := by
  have hle : (Sym.mk5 code dmod smod n).code ≤ 4 := hcode
  rw [symCmd_eq hp, State.symIn_held hgood (by omega) hup (by rw [Sym.mk5_dmod, hdmod]) himg hle]

theorem symCmd_forwards {code n k : Nat} (hcode : code ≤ 5) (hgood : Sym.good (Sym.mk5 code dmod smod n) = true)
    (hdmod : dmod % 1024 ≠ s.modid) (hroute : s.route (dmod % 1024) (smod % 1024) true = .inr k) :
    symCmd p (Sym.mk5 code dmod smod n) false false s = .next (s.queueSym k (Sym.mk5 code dmod smod n)) := by
  have hle : (Sym.mk5 code dmod smod n).code ≤ 5 := hcode
  rw [symCmd_eq hp, State.symIn_forwarded hgood (by omega) hup (by omega) (by rwa [Sym.mk5_dmod])
    (by rwa [Sym.mk5_dmod, Sym.mk5_smod])]

theorem stop_stops (hdmod : dmod % 1024 = s.modid) (himg : s.job.img.isSome = true) (hjs : s.job.js ≠ 6) (code : Nat) :
    ∃ s', exec (.stop p dmod smod code) s = .next s' ∧ s'.StoppedBy 0x4F (smod % 1024 + code % 256 * 2 ^ 16) (smod % 1024) := by
  refine ⟨_, symCmd_eq hp, ?_⟩
  rw [State.symIn_stop rfl (by show 5 ≤ 6; decide) hup (by rw [Sym.mk5_dmod, hdmod]) rfl, Sym.mk5_smod, Sym.mk5_low]
  unfold State.stopIn
  rw [if_pos ⟨himg, hjs⟩]
  exact State.devFault_stoppedBy _ _ _ _ himg hjs

theorem fix_eq (hdmod : dmod % 1024 = s.modid) (tick : Nat) :
    exec (.fix p dmod tick false) s = .next (s.fixIn p (tick % 2 ^ 18) false) := by
  refine (symCmd_eq hp).trans (congrArg _ ?_)
  rw [State.symIn_fix rfl (le_refl 6) hup (by rw [Sym.mkFix_dmod, hdmod]) rfl, Sym.mkFix_pay, Nat.mul_add_mod', Nat.mod_mod]

end

/-- `ARRIVE` and `GO` are well formed exactly if the step is one of 16 to 64 (R352). -/
theorem Sym.good_step {code n : Nat} (hcode : code = 1 ∨ code = 2) (dmod smod : Nat) :
    Sym.good (Sym.mk5 code dmod smod n) = decide (16 ≤ n % 256 ∧ n % 256 ≤ 64) := by
  rcases hcode with rfl | rfl
  all_goals
    show decide (16 ≤ Sym.low _ ∧ Sym.low _ ≤ 64) = _
    rw [Sym.mk5_low]

theorem Sym.good_plain {code : Nat} (hcode : code = 3 ∨ code = 4) (dmod smod : Nat) : Sym.good (Sym.mk5 code dmod smod 0) = true := by
  rcases hcode with rfl | rfl
  all_goals exact decide_eq_true (Sym.mk5_low _ dmod smod 0)

/-! ## The statement -/

section

variable {s : State} {p : Nat} (hp : p < 32) (hlive : (s.port p).st = 3 ∨ (s.port p).st = 4)
include hp hlive

/-- While a stamp of the far end is missing, a receive stamp only takes its place beside the send stamp it is of. -/
theorem align_receipt {k : Nat} {rest : List Nat} (hsends : (s.port p).sends = k :: rest)
    (hmissing : Map.get 0 (s.port p).stamps 2 = 0 ∨ Map.get 0 (s.port p).stamps 3 = 0) (stamp : Nat) :
    ∃ s', exec (.align p true false stamp) s = .next s' ∧ (∀ k, k ≠ p → s'.port k = s.port k) ∧ (s'.port p).sends = rest ∧
      Map.get 0 (s'.port p).stamps 0 = 1 + k ∧ Map.get 0 (s'.port p).stamps 1 = 1 + stamp % 2 ^ 27 := by
  let x : Port := { s.port p with
    sends := rest, stamps := Map.set 0 (Map.set 0 (s.port p).stamps 0 (1 + k)) 1 (1 + stamp % 2 ^ 27 % 2 ^ 27) }
  have hstamp : ∀ i, i ≠ 0 → i ≠ 1 → Map.get 0 x.stamps i = Map.get 0 (s.port p).stamps i := fun i h0 h1 => by
    rw [Map.get_set_ne _ _ _ _ _ h1, Map.get_set_ne _ _ _ _ _ h0]
  have hend : x.alignEnd p = x := by
    rcases hmissing with h | h
    · exact Port.alignEnd_of_missing (i := 2) (by decide) ((hstamp 2 (by decide) (by decide)).trans h)
    · exact Port.alignEnd_of_missing (i := 3) (by decide) ((hstamp 3 (by decide) (by decide)).trans h)
  have heq : s.alignIn p true false (stamp % 2 ^ 27) = (s.modPort p fun _ => x).paramCheck p := by
    rw [State.alignIn_receipt hlive hsends, hend]
  obtain ⟨st, rvalid, reason, hport⟩ := (s.modPort p fun _ => x).paramCheck_keeps p
  rw [State.modPort_port_self] at hport
  refine ⟨_, align_eq hp true false stamp, ?_⟩
  rw [heq, hport]
  refine ⟨fun k hk => ?_, rfl, ?_, ?_⟩
  · rw [State.paramCheck_port_ne _ _ hk, State.modPort_port_ne _ _ _ _ hk]
  · exact (Map.get_set_ne _ _ _ _ _ (by decide)).trans (Map.get_set_self _ _ _ _)
  · exact (Map.get_set_self _ _ _ _).trans (by rw [Nat.mod_mod])

/-- The far stamp completes an exchange; the sixteenth brings a port up whose checks have passed. -/
theorem align_completes (h0 : 0 < Map.get 0 (s.port p).stamps 0) (h1 : 0 < Map.get 0 (s.port p).stamps 1) (stamp : Nat) :
    ∃ s', exec (.align p false false stamp) s = .next s' ∧ (s'.port p).aligns = (s.port p).aligns + 1 ∧
      (∀ k, k ≠ p → s'.port k = s.port k) ∧
      (s'.port p).delayPs = BitVec.ofInt 32 ((stampDiff (Map.get 0 (s.port p).stamps 1 - 1) (Map.get 0 (s.port p).stamps 0 - 1) +
        stampDiff s.stamp (stamp % 2 ^ 27)) * 125 - Config.linkCal p) ∧
      (15 ≤ (s.port p).aligns → Map.get 0 s'.power.align p = (s'.port p).delayPs ∧
        ((s.port p).st = 3 → [0, 1, 2].all (s.port p).seen.contains = true → (s'.port p).st = 4 ∧ (s'.port p).rvalid = true)) := by
  let x : Port := { s.port p with
    stamps := Map.set 0 (Map.set 0 (s.port p).stamps 2 (1 + stamp % 2 ^ 27 % 2 ^ 27)) 3 (1 + s.stamp) }
  let b := s.modPort p fun _ => x.alignEnd p
  have hb : b.port p = x.alignEnd p := State.modPort_port_self _ _ _
  have hg : ∀ i, i ≠ 2 → i ≠ 3 → Map.get 0 x.stamps i = Map.get 0 (s.port p).stamps i := fun i h2 h3 => by
    rw [Map.get_set_ne _ _ _ _ _ h3, Map.get_set_ne _ _ _ _ _ h2]
  have hg2 : Map.get 0 x.stamps 2 = 1 + stamp % 2 ^ 27 := by
    rw [Map.get_set_ne _ _ _ _ _ (by decide), Map.get_set_self, Nat.mod_mod]
  have hg3 : Map.get 0 x.stamps 3 = 1 + s.stamp := Map.get_set_self _ _ _ _
  have hall : ∀ i < 4, 0 < Map.get 0 x.stamps i := by
    intro i hi
    rcases (by omega : i = 0 ∨ i = 1 ∨ i = 2 ∨ i = 3) with rfl | rfl | rfl | rfl
    · rwa [hg 0 (by decide) (by decide)]
    · rwa [hg 1 (by decide) (by decide)]
    · rw [hg2]
      omega
    · rw [hg3]
      omega
  obtain ⟨hst, hseen, haligns, hdelay⟩ := Port.alignEnd_of_all (p := p) hall
  rw [hg 0 (by decide) (by decide), hg 1 (by decide) (by decide), hg2, hg3, Nat.add_sub_cancel_left, Nat.add_sub_cancel_left] at hdelay
  obtain ⟨st, rvalid, reason, hport⟩ := b.paramCheck_keeps p
  rw [hb] at hport
  refine ⟨b.paramCheck p, (align_eq hp false false stamp).trans (congrArg _ (State.alignIn_sent hlive _)), ?_, fun k hk => ?_, ?_,
    fun hn => ⟨?_, fun h3 hs => ?_⟩⟩
  · rw [hport]
    exact haligns
  · rw [State.paramCheck_port_ne _ _ hk, State.modPort_port_ne _ _ _ _ hk]
  · rw [hport]
    exact hdelay
  · rw [State.paramCheck_align _ _ (by rw [hb, haligns]; exact Nat.succ_le_succ hn), hport, hb]
  · rw [State.paramCheck_port_self, if_pos]
    · exact ⟨rfl, rfl⟩
    · rw [hb, hst, haligns, hseen]
      exact ⟨h3, Nat.succ_le_succ hn, hs⟩

theorem alignExchangeTimer_queues (hroom : (s.port p).rx.syms.length + 2 ≤ 64) :
    ∃ s', exec (.alignExchangeTimer p) s = .next s' ∧ (s'.port p).sends = (s.port p).sends ++ [s.stamp] ∧
      (s'.port p).rx.syms = (s.port p).rx.syms ++ { code := 7, pay := s.stamp } ::
        (if Map.get 0 (s.port p).stamps 3 = 0 then [] else [{ code := 7, pay := 2 ^ 27 + (Map.get 0 (s.port p).stamps 3 - 1) }]) ∧
      ∀ k, k ≠ p → s'.port k = s.port k := by
  have hfirst := State.queueSym_of_room (s := s) (p := p) (y := { code := 7, pay := s.stamp }) (by omega) (by show 7 ≠ 5; decide)
  refine ⟨_, alignExchangeTimer_eq hlive hp, ?_⟩
  rw [State.modPort_port_self]
  split
  · rw [hfirst]
    refine ⟨rfl, rfl, fun k hk => ?_⟩
    rw [State.modPort_port_ne _ _ _ _ hk, State.queueSym_port_ne _ hk]
  · rw [State.queueSym_of_room (by rw [hfirst, List.length_append, List.length_singleton]; omega) (by show 7 ≠ 5; decide), hfirst]
    refine ⟨rfl, List.append_assoc _ _ _, fun k hk => ?_⟩
    rw [State.modPort_port_ne _ _ _ _ hk, State.queueSym_port_ne _ hk, State.queueSym_port_ne _ hk]

end

theorem link_checks {s : State} {p : Nat} (hp : p < 32) (hst : (s.port p).st = 3) {val : Nat} (hval : val < 2 ^ 26) :
    ∃ s', exec (.link p 1 val) s = .next s' ∧ (val % 2 ^ 16 = fld s.net.modid 32 16 → 1 ∈ (s'.port p).seen) ∧
      (val % 2 ^ 16 ≠ fld s.net.modid 32 16 → (s'.port p).reason = 3 ∧ (s'.port p).st = 3) := by
  refine ⟨_, link_eq hp hval, ?_⟩
  rw [State.linkIn_fabric hst]
  split
  · next h =>
    refine ⟨fun _ => ?_, fun hne => absurd h hne⟩
    obtain ⟨st, rvalid, reason, hport⟩ :=
      (s.modPort p fun x => { x with seen := (1 :: x.seen).eraseDups }).paramCheck_keeps p
    rw [hport, State.modPort_port_self]
    exact List.mem_eraseDups.2 List.mem_cons_self
  · next h =>
    refine ⟨fun heq => absurd heq h, fun _ => ?_⟩
    rw [State.modPort_port_self]
    exact ⟨rfl, hst⟩

/-- Settles O43: a symbol that comes in is told apart by its code and its module (`State.symIn_of_bad` and its kin), a held one acts by
`State.waveAct`, the exchanges and checks of a port are those of the section before. -/
theorem symbolsAct : Obligations.SymbolsAct := by
  unfold Obligations.SymbolsAct
  refine ⟨fun s p dmod smod n hp hup => ?_, fun s i q y hget hfirst => ?_, fun s p stamp recv hp hlive => ?_⟩
  · intro held
    have hheld : ∀ {c code m}, exec c s = symCmd p (Sym.mk5 code dmod smod m) false false s → code ≤ 4 →
        Sym.good (Sym.mk5 code dmod smod m) = true → dmod % 1024 = s.modid → s.job.img.isSome = true →
        held c (Sym.mk5 code dmod smod m) := fun hexec hcode hgood hdmod himg =>
      ⟨_, hexec.trans (symCmd_held hp hup hcode hgood hdmod himg), rfl, rfl, rfl, rfl, rfl⟩
    clear_value held
    refine ⟨fun hdmod himg => ⟨fun hlo hhi => ⟨?_, ?_⟩, ?_, ?_, fun code hjs => ?_⟩, fun hdmod k hroute => ⟨?_, ?_, fun code => ?_⟩,
      fun hn => ⟨?_, ?_⟩, fun hdmod hlatched hpend tick => ?_⟩
    · exact hheld rfl (by decide) ((Sym.good_step (.inl rfl) _ _).trans (decide_eq_true (by omega))) hdmod himg
    · exact hheld rfl (by decide) ((Sym.good_step (.inr rfl) _ _).trans (decide_eq_true (by omega))) hdmod himg
    · exact hheld rfl (by decide) (Sym.good_plain (.inl rfl) _ _) hdmod himg
    · exact hheld rfl (by decide) (Sym.good_plain (.inr rfl) _ _) hdmod himg
    · obtain ⟨s', hexec, -, hjs6, time, nsec, -, hprim⟩ := stop_stops (smod := smod) hp hup hdmod himg hjs code
      exact ⟨s', hexec, hjs6, by rw [hprim], by rw [hprim], by rw [hprim]⟩
    · exact symCmd_forwards hp hup (by decide) (Sym.good_plain (.inl rfl) _ _) hdmod hroute
    · exact symCmd_forwards hp hup (by decide) (Sym.good_plain (.inr rfl) _ _) hdmod hroute
    · exact symCmd_forwards hp hup (by decide) rfl hdmod hroute
    · exact (symCmd_eq hp).trans (congrArg _ (State.symIn_of_bad ((Sym.good_step (.inl rfl) _ _).trans (decide_eq_false (by omega)))))
    · exact (symCmd_eq hp).trans (congrArg _ (State.symIn_of_bad ((Sym.good_step (.inr rfl) _ _).trans (decide_eq_false (by omega)))))
    · have hfix := State.fixIn_latches (p := p) (tick := tick % 2 ^ 18) hlatched hpend
      rw [fixTickOf_mod] at hfix
      exact ⟨_, fix_eq hp hup hdmod tick, hfix⟩
  · let s1 := s.modWave fun v => { v with held := v.held.eraseIdx i }
    obtain ⟨hheld, htiles⟩ := s1.waveAct_keeps y
    refine ⟨_, symbolHoldRelease_first hget hfirst, hheld, htiles, fun e hchild => ⟨?_, ?_⟩, fun ⟨e, hparent, hpeer⟩ => ⟨?_, ?_⟩⟩
    · exact State.waveAct_arrive (s := s1) hchild
    · exact State.waveAct_part (s := s1) hchild
    · exact State.waveAct_go (s := s1) hparent hpeer
    · exact State.waveAct_done (s := s1) hparent hpeer
  · intro x v others
    refine ⟨?_, fun k rest hsends hmissing => align_receipt hp hlive hsends hmissing stamp,
      fun h0 h1 => align_completes hp hlive h0 h1 stamp, alignExchangeTimer_queues hp hlive, fun hst val hval => link_checks hp hst hval⟩
    exact (align_eq hp recv true stamp).trans (congrArg _ (State.alignIn_of_replayed recv _))

end Sys2Proof.Machine

/-! # Fences, fuses and the state after reset (R458, R460, R473, R475, R509)

What every step keeps is `step_kept`; neither the fence map nor the fuses are part of the queue, which is all that a step takes from. -/

namespace Sys2Proof.Machine

/-- Settles O6: every operation adds to the fence map, the failed stacks and the retired granules, and removes none (`Kept.grows`). -/
theorem fencesArePermanent : Obligations.FencesArePermanent :=
  fun _ _ hstep => (step_kept hstep).grows

/-- A plain command whose turn has come is taken, and its body acts. -/
theorem plainCmd_eq {s : State} {k opc : Nat} (hk : k < 64) (hstart : s.mayStart k opc = true) (body : State → List Word → State) :
    plainCmd k opc s body = .next (body (s.take k) ((s.page k).entry 0)) := by
  unfold plainCmd helmCmd
  rw [if_neg (Nat.not_le.2 hk)]
  dsimp only
  rw [hstart]
  rfl

/-- Taking a command leaves the fuses as they are. -/
theorem State.take_fuse (s : State) (k : Nat) : (s.take k).helm.fuse = s.helm.fuse := rfl

/-- Settles O5: the level is a fuse that every operation keeps or raises within its 64 bits (`Kept.fuse`, `Kept.fuseTop`), and no
operation burns a revoke bit; `DEV_INFO` shows the level in its fifth word. -/
theorem fuseLevelNeverFalls : Obligations.FuseLevelNeverFalls := by
  refine ⟨fun s s' hstep => ?_, fun s k hk hstart hfuse => ?_⟩
  · have h := step_kept hstep
    exact ⟨h.fuse, h.fuseTop, h.revoke⟩
  · refine ⟨_, plainCmd_eq hk hstart fun s _ => s.complete k 0 s.infoWords, ?_⟩
    show fld (place 0 16 (s.take k).helm.fuse) 0 16 = _
    rw [State.take_fuse, fld_place_self (by decide)]
    omega

/-- The reset state lists no unit, so each is at its own reset (log 4). -/
theorem State.reset_canon : State.reset.Canon where
  tiles := ⟨List.Pairwise.nil, fun _ h => absurd h List.not_mem_nil⟩
  clusters := ⟨List.Pairwise.nil, fun _ h => absurd h List.not_mem_nil⟩
  regions := ⟨List.Pairwise.nil, fun _ h => absurd h List.not_mem_nil⟩
  stks := ⟨List.Pairwise.nil, fun _ h => absurd h List.not_mem_nil⟩
  ports := ⟨List.Pairwise.nil, fun _ h => absurd h List.not_mem_nil⟩

theorem State.reset_legal : State.reset.Legal where
  job := by decide
  rl := by decide
  tiles := fun _ => ⟨le_refl 1, by show 1 ≤ 9; decide⟩
  ports := fun _ => Nat.zero_le 6
  regions := fun _ => ⟨by show 2 ≤ 4; decide, by show 1 ≤ 4; decide⟩
  stks := fun _ => Nat.zero_le 4

/-- The registers of every stream of every tile read 0 at reset, but for predicate P0, which reads true (R46). -/
theorem State.reset_regs (t : Nat) (q : Strm) (i : Nat) : ((State.reset.tile t).seq q).sreg i = 0 ∧
    ((State.reset.tile t).seq q).areg i = 0 ∧ ((State.reset.tile t).seq q).preg 0 = true ∧
    (i ≠ 0 → ((State.reset.tile t).seq q).preg i = false) := by
  have hseq : (State.reset.tile t).seq q = {} := by cases q <;> rfl
  rw [hseq]
  refine ⟨?_, rfl, rfl, fun hi => ?_⟩
  · unfold Seq.sreg
    split <;> rfl
  · unfold Seq.preg
    rw [if_neg hi]
    rfl

/-- Settles O3: `State.reset` holds no unit, no job and no command, and every value in it is the one of its structure (log 4). -/
theorem resetIsTheStartOfBringUp : Obligations.ResetIsTheStartOfBringUp := by
  refine ⟨⟨rfl, rfl, rfl, fun _ => rfl, fun _ => rfl, fun _ => rfl, rfl, rfl, rfl, rfl, rfl, rfl, State.reset_regs⟩,
    State.reset_canon, State.reset_legal, rfl, by decide⟩

end Sys2Proof.Machine

/-! # Answers of the helm to a host that listens (R361, R372, R385)

The frame of an answered command (`State.AllButHelm`) leaves room for pending vectors and for messages sent, but for nothing else of
Riendlink. Where Riendlink is `UP` and the page's vector is unmasked, the answer posts its interrupt at once, and the transaction takes one
slot unit of the frames to come (R361): `rl.units` grows, and the frame does not hold. Each statement below that gives this frame to
every state fails for a module whose host listens. -/

namespace Sys2Proof.Machine

/-- A module with no job whose host listens: Riendlink is `UP`, the vector of page 63 unmasked, and the command entry `m` waits there. -/
def State.listening (m : Map Word) : State := { State.reset with
  helm := { run := true, stage := 4, pages := [(63, { ctail := 1, mem := m })] }
  rl := { st := 4, unmask := [(63, true)] } }

/-- The one command of page 63 waits with every completion slot free. -/
theorem State.listening_waits {m : Map Word} {opc : Nat} (h : (State.listening m).mayStart 63 opc = true) :
    (State.listening m).Waits 63 opc where
  unit := by decide
  start := h
  none := ⟨rfl, rfl⟩
  room := (by decide : (State.listening []).page 63 |>.room)
  only := rfl

/-- An answered command is said to post no slot unit. -/
theorem State.AllButHelm.units {s s' : State} (h : s.AllButHelm s') : s'.rl.units = s.rl.units :=
  (congrArg Rl.units h.rl).trans rfl

theorem State.Answers.units {s m : State} {c : Instr} {k st : Nat} {ws : List Word} (h : s.Answers c k st ws m) :
    unitsAfter (exec c s) = m.rl.units := by
  obtain ⟨s', hexec, -, hframe⟩ := h
  rw [hexec]
  exact hframe.units

/-- Refutes O46: `DEV_INFO` waits in a listening module; its completion posts the interrupt's slot unit. -/
theorem not_mailboxTakesAndAnswers : ¬ Obligations.MailboxTakesAndAnswers := by
  intro h
  obtain ⟨hpost, -⟩ := h
  obtain ⟨-, hframe⟩ := hpost (State.listening [(0, 0x0100000000000000)]) 63 0x01 0 [] (State.listening_waits (by decide))
  exact absurd hframe.units (by decide)

/-- Refutes O47: the answer to `DEV_INFO` posts the interrupt's slot unit. -/
theorem not_helmQueries : ¬ Obligations.HelmQueries := by
  intro h
  obtain ⟨hinfo, -⟩ := h (State.listening [(0, 0x0100000000000000)]) 63
  exact absurd (hinfo (State.listening_waits (by decide))).units (by decide)

/-- Refutes O48: the answer to a `CAP_SET` that names neither cap nor target posts the interrupt's slot unit. -/
theorem not_helmSettings : ¬ Obligations.HelmSettings := by
  intro h
  obtain ⟨hcap, -⟩ := h (State.listening [(0, 0x3000000000000000)]) 63
  obtain ⟨hgood, -⟩ := hcap (State.listening_waits (by decide))
  exact absurd (hgood ⟨.inl (by decide), .inl (by decide)⟩).units (by decide)

/-- Refutes O49: a `JOB_START` with no job loaded is refused with `STATE`, and that answer posts the interrupt's slot unit. -/
theorem not_jobsLoadAndStart : ¬ Obligations.JobsLoadAndStart := by
  intro h
  obtain ⟨-, hstart, -⟩ := h
  obtain ⟨hrefused, -⟩ := hstart (State.listening [(0, 0x1100000000000000)]) 63 { agree := none, start := 0, minA := 64 }
    (State.listening_waits (by decide))
  exact absurd (hrefused (by decide)).units (by decide)

/-- A listening module in deep idle in which `REGION_WAKE` waits. -/
def State.listeningIdle : State := { State.listening [(0, 0x7100000000000000)] with power := { deep := 1 } }

/-- Refutes O52: a `REGION_WAKE` in deep idle ends with `HW`, and that answer posts the interrupt's slot unit. -/
theorem not_regionsAndPowerRequests : ¬ Obligations.RegionsAndPowerRequests := by
  intro h
  obtain ⟨-, hwake, -⟩ := h
  obtain ⟨-, hidle, -⟩ := hwake State.listeningIdle 63 ⟨by decide, by decide, ⟨rfl, rfl⟩, by decide, by decide⟩ (by decide)
  exact absurd (hidle rfl (.inr (by decide))).units (by decide)

/-- Refutes O55: a `FW_STAGE` whose package is not read ends with `DATA`, and that answer posts the interrupt's slot unit. -/
theorem not_firmwareAndAttestation : ¬ Obligations.FirmwareAndAttestation := by
  intro h
  obtain ⟨hstage, -⟩ := h
  obtain ⟨hunread, -⟩ := hstage (State.listening [(0, 0x5000000000000000)]) 63 none (State.listening_waits (by decide))
  exact absurd (hunread rfl).units (by decide)

/-! # Margin sights (R455, R466) -/

/-- A module at a stow point after the freeze of a job that allows a sight, with one asked for, whose job is halted by Sextant. -/
def State.haltedAtStow : State := { State.reset with
  helm := { run := true, stage := 4 }
  job := { js := 4, img := some noImage }
  stow := { en := true, freeze := true }
  rel := { sgNow := true, sgStow := true }
  dbg := { jobHalt := true } }

/-- The kind of sight that runs after a command. -/
def sightAfter : Out → Nat
  | .next s => s.rel.sgRun
  | _ => 0

/-- Refutes O56: at a stow point the sight is said to run whatever else holds the job. It waits while the job is halted (R466), as it is
here by Sextant. -/
theorem not_marginSights : ¬ Obligations.MarginSights := by
  intro h
  obtain ⟨hdue, -⟩ := h State.haltedAtStow
  obtain ⟨-, hstow⟩ := hdue rfl (.inl rfl) rfl rfl rfl
  have hexec := hstow rfl rfl rfl rfl rfl (by decide)
  have hruns : sightAfter (exec .marginSight State.haltedAtStow) = 2 := congrArg sightAfter hexec
  exact absurd hruns (by decide)

end Sys2Proof.Machine

/-! # The SMBus target (R405, R406, R536)

The target answers while the islands run and `RESET_L` is high (`smbusOp_of_shows`); else no transaction is acknowledged
(`smbusOp_of_silent`). An alert bit whose condition is a level sets itself again after it has been cleared. -/

namespace Sys2Proof.Machine

theorem smbusOp_of_shows {s : State} (hon : s.power.on = true) (hreset : s.pins.resetLow = false) (s' : State) (w : Word) :
    smbusOp s s' w = .next (s'.modPins fun p => { p with smb := some w }) :=
  if_pos ⟨hon, by rw [hreset]; decide⟩

theorem smbusOp_of_silent {s : State} (h : s.power.on = false ∨ s.pins.resetLow = true) (s' : State) (w : Word) :
    smbusOp s s' w = .next (s.modPins fun p => { p with smb := none }) := by
  refine if_neg fun ⟨hon, hreset⟩ => ?_
  rcases h with h | h
  · exact Bool.false_ne_true (h.symm.trans hon)
  · exact hreset h

/-! ## Alerts -/

/-- Nothing but alert bits and what an interrupt changes of Riendlink differs. -/
def State.OnlyAlerts (a b : State) : Prop :=
  ∃ n rl, b = { a with power := { a.power with alerts := n }, rl := rl }

theorem State.OnlyAlerts.refl (a : State) : a.OnlyAlerts a := ⟨_, _, rfl⟩

theorem State.OnlyAlerts.trans {a b c : State} (h : a.OnlyAlerts b) (g : b.OnlyAlerts c) : a.OnlyAlerts c := by
  obtain ⟨n, rl, rfl⟩ := h
  obtain ⟨n', rl', rfl⟩ := g
  exact ⟨_, _, rfl⟩

theorem State.raiseMsi_eq (s : State) (v : Nat) : s.raiseMsi v = { s with rl := (s.raiseMsi v).rl } :=
  (congrArg (fun a : State => { a with rl := (s.raiseMsi v).rl }) (s.raiseMsi_rest v) :)

theorem State.alert_onlyAlerts (s : State) (b : Nat) : s.OnlyAlerts (s.alert b) := by
  unfold State.alert
  split
  · exact .refl s
  · exact ⟨_, _, State.raiseMsi_eq _ 66⟩

theorem State.alert_testBit (s : State) (b i : Nat) :
    (s.alert b).power.alerts.testBit i = (s.power.alerts.testBit i || decide (b = i)) := by
  unfold State.alert
  split
  · next h =>
    by_cases hbi : b = i
    · subst hbi
      rw [h, Bool.true_or]
    · rw [decide_eq_false hbi, Bool.or_false]
  · rw [State.raiseMsi_power, State.modPower, Nat.testBit_or, Nat.testBit_two_pow]

theorem State.OnlyAlerts.frame {a b : State} (h : a.OnlyAlerts b) : b.tiles = a.tiles ∧ b.job = a.job ∧ b.power.smbCap = a.power.smbCap := by
  obtain ⟨n, rl, rfl⟩ := h
  exact ⟨rfl, rfl, rfl⟩

/-- The conditions behind the alert bits are not a matter of the bits. -/
theorem State.OnlyAlerts.alertHolds {a b : State} (h : a.OnlyAlerts b) (i : Nat) : b.alertHolds i = a.alertHolds i := by
  obtain ⟨n, rl, rfl⟩ := h
  rfl

/-- An alert bit whose condition holds sets itself again (R536). -/
def State.realert (s : State) (b : Nat) : State := if s.alertHolds b then s.alert b else s

theorem State.realert_onlyAlerts (s : State) (b : Nat) : s.OnlyAlerts (s.realert b) := by
  unfold State.realert
  split
  · exact s.alert_onlyAlerts b
  · exact .refl s

theorem State.realert_testBit (s : State) (b i : Nat) :
    (s.realert b).power.alerts.testBit i = (s.power.alerts.testBit i || decide (b = i) && s.alertHolds b) := by
  unfold State.realert
  split
  · next h => rw [s.alert_testBit, h, Bool.and_true]
  · next h => rw [Bool.eq_false_of_not_eq_true h, Bool.and_false, Bool.or_false]

theorem State.realerts_onlyAlerts (l : List Nat) (s : State) : s.OnlyAlerts (l.foldl State.realert s) :=
  List.foldlRecOn (motive := fun e : State => s.OnlyAlerts e) l _ (.refl s) fun e he b _ => he.trans (e.realert_onlyAlerts b)

theorem State.realerts_testBit (l : List Nat) (s : State) (i : Nat) :
    (l.foldl State.realert s).power.alerts.testBit i = (s.power.alerts.testBit i || decide (i ∈ l) && s.alertHolds i) := by
  induction l generalizing s with
  | nil => simp
  | cons b l ih =>
    rw [List.foldl_cons, ih, s.realert_testBit, (s.realert_onlyAlerts b).alertHolds]
    by_cases hbi : b = i
    · subst hbi
      cases s.power.alerts.testBit b <;> cases s.alertHolds b <;> simp
    · have hib : ¬ i = b := fun h => hbi h.symm
      simp [hbi, hib]

/-- The bits a write to the alerts leaves: those it does not name (R405). -/
theorem cleared_testBit (n : Nat) (v : BitVec 16) {b : Nat} (hb : b < 6) :
    (n &&& (0x3F ^^^ (v.toNat % 64))).testBit b = (n.testBit b && !(bit (v.setWidth 64) b)) := by
  have hmask : Nat.testBit 0x3F b = true := by
    have h := Nat.testBit_two_pow_sub_one 6 b
    rwa [decide_eq_true hb] at h
  have hv : (v.toNat % 64).testBit b = bit (v.setWidth 64) b := by
    have h := Nat.testBit_mod_two_pow v.toNat 6 b
    rw [decide_eq_true hb, Bool.true_and] at h
    refine h.trans ?_
    rw [bit, BitVec.getLsbD_setWidth, decide_eq_true (by omega : b < 64), Bool.true_and, BitVec.getLsbD]
  rw [Nat.testBit_and, Nat.testBit_xor, hmask, hv, Bool.true_xor]

/-- The conditions of bits 4 and 5 are events, not levels. -/
theorem State.alertHolds_event (s : State) (b : Nat) : s.alertHolds (b + 4) = false := rfl

/-- The state a write of the value `v` to the alerts leaves. -/
def State.alertsCleared (s : State) (v : BitVec 16) : State :=
  (List.range 4).foldl State.realert (s.modPower fun p => { p with alerts := p.alerts &&& (0x3F ^^^ (v.toNat % 64)) })

theorem exec_smbAlertsClear (s : State) (v : BitVec 16) : exec (.smbAlertsClear v) s = smbusOp s (s.alertsCleared v) 0 := rfl

theorem State.alertsCleared_onlyAlerts (s : State) (v : BitVec 16) : s.OnlyAlerts (s.alertsCleared v) :=
  .trans ⟨_, _, rfl⟩ (State.realerts_onlyAlerts _ _)

/-- A write to the alerts clears the bits it names, but for those whose condition holds. -/
theorem State.alertsCleared_testBit (s : State) (v : BitVec 16) {b : Nat} (hb : b < 6) :
    (s.alertsCleared v).power.alerts.testBit b =
      (s.power.alerts.testBit b && !(bit (v.setWidth 64) b) || s.alertHolds b) := by
  have hconditions : State.alertHolds (s.modPower fun p => { p with alerts := p.alerts &&& (0x3F ^^^ (v.toNat % 64)) }) b = s.alertHolds b :=
    State.OnlyAlerts.alertHolds ⟨_, _, rfl⟩ b
  rw [State.alertsCleared, State.realerts_testBit, hconditions, State.modPower, cleared_testBit _ v hb]
  by_cases hlevel : b < 4
  · rw [decide_eq_true (List.mem_range.mpr hlevel), Bool.true_and]
  · obtain ⟨n, rfl⟩ := Nat.exists_eq_add_of_le' (Nat.le_of_not_lt hlevel)
    rw [s.alertHolds_event, Bool.and_false]

/-! ## The cap in force -/

/-- The cap in force is the lower of the caps that are set (R406), and 8,400 W with neither (R420). -/
theorem Power.cap_cases (p : Power) : (p.hostCap = 0 → p.smbCap = 0 → p.cap = 8400) ∧ (p.hostCap = 0 → p.smbCap ≠ 0 → p.cap = p.smbCap) ∧
    (p.hostCap ≠ 0 → p.smbCap = 0 → p.cap = p.hostCap) ∧ (p.hostCap ≠ 0 → p.smbCap ≠ 0 → p.cap = min p.hostCap p.smbCap) := by
  unfold Power.cap
  refine ⟨fun hh hs => ?_, fun hh hs => ?_, fun hh hs => ?_, fun hh hs => ?_⟩
  · rw [if_pos hh, if_pos hs]
  · rw [if_pos hh, if_neg hs]
  · rw [if_neg hh, if_pos hs]
  · rw [if_neg hh, if_neg hs]

/-! ## The obligation -/

/-- A cap write sets the SMBus cap where the value is in range, and is acknowledged without effect elsewhere. -/
theorem exec_smbCapWrite (s : State) (v : BitVec 16) : exec (.smbCapWrite v) s =
    smbusOp s (if v.toNat = 0 ∨ 2500 ≤ v.toNat ∧ v.toNat ≤ 8400 then s.modPower fun p => { p with smbCap := v.toNat } else s) 0 := rfl

theorem toNat_eq_zero_iff (v : BitVec 16) : v.toNat = 0 ↔ v = 0 := ⟨fun h => BitVec.eq_of_toNat_eq h, fun h => h ▸ rfl⟩

/-- Each SMBus transaction is one `smbusOp`. -/
theorem exec_eq_smbusOp (s : State) (v : BitVec 16) :
    ∀ c ∈ [Instr.smbDevInfo, .smbHelmVer, .smbReady, .smbInputMv, .smbInputCurrent, .smbInputPower, .smbHottestDie, .smbHottestStack,
      .smbThrottle, .smbCapRead, .smbCapWrite v, .smbCapInForce, .smbThermalTarget, .smbAlertsRead, .smbAlertsClear v, .smbChrono,
      .smbModid, .smbEnergy], ∃ s' w, exec c s = smbusOp s s' w := by
  simp only [List.forall_mem_cons, List.not_mem_nil, false_implies, implies_true, and_true]
  exact ⟨⟨_, _, rfl⟩, ⟨_, _, rfl⟩, ⟨_, _, rfl⟩, ⟨_, _, rfl⟩, ⟨_, _, rfl⟩, ⟨_, _, rfl⟩, ⟨_, _, rfl⟩, ⟨_, _, rfl⟩, ⟨_, _, rfl⟩,
    ⟨_, _, rfl⟩, ⟨_, _, rfl⟩, ⟨_, _, rfl⟩, ⟨_, _, rfl⟩, ⟨_, _, rfl⟩, ⟨_, _, rfl⟩, ⟨_, _, rfl⟩, ⟨_, _, rfl⟩, ⟨_, _, rfl⟩⟩

/-- Settles O57: each read is `smbusOp_of_shows` on the state itself. -/
theorem smbusTarget : Obligations.SmbusTarget := by
  refine ⟨fun s hon hreset => ?_, fun s hsilent v c hc => ?_⟩
  · have hread := smbusOp_of_shows hon hreset
    refine ⟨hread s _, hread s _, hread s _, hread s _, hread s _, hread s _, hread s _, hread s _, hread s _, hread s _, hread s _, hread s _,
      hread s _, hread s _, hread s _, ⟨s.power.cap, hread s _, s.power.cap_cases⟩, fun v => ⟨fun hv => ?_, fun hv => ?_, ?_⟩⟩
    · rw [exec_smbCapWrite, if_pos (hv.imp_left (toNat_eq_zero_iff v).mpr), hread]
      exact ⟨_, rfl, rfl⟩
    · rw [exec_smbCapWrite, if_neg (fun h => hv (h.imp_left (toNat_eq_zero_iff v).mp)), hread]
      exact ⟨_, rfl, rfl⟩
    · rw [exec_smbAlertsClear, hread]
      obtain ⟨htiles, hjob, hcap⟩ := (s.alertsCleared_onlyAlerts v).frame
      exact ⟨_, rfl, htiles, hjob, hcap, fun b hb => s.alertsCleared_testBit v hb⟩
  · obtain ⟨s', w, heq⟩ := exec_eq_smbusOp s v c hc
    rw [heq, smbusOp_of_silent hsilent]

end Sys2Proof.Machine

/-! # The fault word of a tile's fix record (R498)

Word 11 of a tile's record is `TILE_XCOUNT` and `TILE_FAULT` is word 13 (R498); the statement names word 11 for the fault. -/

namespace Sys2Proof.Machine

/-- The record of tile 0 stands first. -/
theorem State.fixRecords_tile_first (s : State) : ∃ rest, s.fixRecords = Map.entries 0 0 (s.fixTile 0) ++ rest := by
  have hfirst : List.range 2304 = 0 :: (List.range 2303).map Nat.succ := List.range_succ_eq_map
  rw [State.fixRecords, hfirst, List.flatMap_cons, List.append_assoc, List.append_assoc, List.append_assoc]
  exact ⟨_, rfl⟩

/-- A word of tile 0's record that is not zero is the word read back. -/
theorem State.fixRecords_tile_zero (s : State) {i : Nat} (hw : (s.fixTile 0)[i]?.getD 0 ≠ 0) :
    Map.get 0 s.fixRecords (fixKey 0 0 i) = (s.fixTile 0)[i]?.getD 0 := by
  obtain ⟨rest, hrest⟩ := s.fixRecords_tile_first
  have hkey : fixKey 0 0 i = i := by simp [fixKey]
  have hread := Map.lookup_entries (0 : Word) (s.fixTile 0) 0 i
  rw [if_pos (Nat.zero_le i), Nat.sub_zero] at hread
  rw [hrest, hkey, Map.get, List.lookup_append]
  cases hl : (Map.entries 0 0 (s.fixTile 0)).lookup i with
  | none => exact absurd ((congrArg (·.getD 0) hl).symm.trans hread).symm hw
  | some w => exact (congrArg (·.getD 0) hl).symm.trans hread

/-- Word 11 of the record of a tile that is on is `TILE_XCOUNT`. -/
theorem State.fixTile_xcount {s : State} {t : Nat} (hon : s.tileOn t = true) : (s.fixTile t)[11]?.getD 0 = (s.tile t).xcount := by
  rw [State.fixTile, if_pos hon]
  rfl

/-- What the fix registers hold when the records are made. -/
def State.latching (s : State) (src tick : Nat) (late : Bool) : State := s.modDbg fun d => { d with
  latched := true, late := late, overF := d.latched, src := src, tick := BitVec.ofNat 64 tick, pendSrc := none, pendJob := false
  trigLow := decide (src ≠ 4), copied := false }

theorem State.latch_recs (s : State) (src tick : Nat) (late : Bool) :
    (s.latch src tick late).dbg.recs = (s.latching src tick late).fixRecords := rfl

/-- Tile 0 is on and has received one packet; a fix is due. -/
def State.fixDue : State := { State.reset with
  regions := [(0, { pwr := 0 })]
  tiles := [(0, { xs := { recv := 1 } })]
  dbg := { pendSrc := some 0, pendTick := 0 } }

/-- Refutes O59: tile 0 has received one packet and has no fault; word 11 of its record is then `TILE_XCOUNT`, 1. -/
theorem not_fixLatchesOnce : ¬ Obligations.FixLatchesOnce := by
  intro h
  obtain ⟨-, hlatch, -⟩ := h State.fixDue
  obtain ⟨-, hdue⟩ := hlatch 0 rfl
  obtain ⟨s', hexec, -, -, -, -, -, -, -, -, -, -, -, -, -, -, -, -, htiles, -⟩ := hdue (by decide) (.inl rfl)
  obtain ⟨hon, -⟩ := htiles 0 (by decide)
  obtain ⟨-, hfault⟩ := hon (by decide)
  obtain rfl : State.fixDue.latch 0 0 false = s' := (Host.Outcome.next.inj hexec :)
  have hcount : ((State.fixDue.latching 0 0 false).fixTile 0)[11]?.getD 0 = 1 := State.fixTile_xcount (by decide)
  have hword := State.fixRecords_tile_zero (State.fixDue.latching 0 0 false) (i := 11) (by rw [hcount]; decide)
  rw [State.latch_recs, hword, hcount] at hfault
  exact absurd hfault (by decide)

end Sys2Proof.Machine

/-! # Register writes (R521, R523, R525, R528)

Where the addresses of the writable registers fall (`placeOf_region`, `placeOf_cluster`, `placeOf_tile`), and what a write does there
(`State.writeReg_module` and the rest): one equation per block of the register map. -/

namespace Sys2Proof.Machine

/-! ## The decode -/

theorem placeOf_module {a : Nat} (h : a < 0x01000000) : placeOf a = .module a := if_pos h

theorem placeOf_region {r off : Nat} (hr : r < 16) (hoff : off < 0x100000) : placeOf (0x20000000 + 0x100000 * r + off) = .region r off := by
  rw [placeOf, if_neg (by omega), if_neg (by omega), if_neg (by omega), if_pos (by omega)]
  congr 1 <;> omega

theorem placeOf_cluster {c off : Nat} (hc : c < 192) (hoff : off < 0x4000) : placeOf (0x30000000 + 0x4000 * c + off) = .cluster c off := by
  rw [placeOf, if_neg (by omega), if_neg (by omega), if_neg (by omega), if_neg (by omega), if_pos (by omega)]
  congr 1 <;> omega

theorem placeOf_tile {t off : Nat} (ht : t < 2304) (hoff : off < 0x10000) : placeOf (0x40000000 + 0x10000 * t + off) = .tile t off := by
  rw [placeOf, if_neg (by omega), if_neg (by omega), if_neg (by omega), if_neg (by omega), if_neg (by omega), if_pos (by omega)]
  congr 1 <;> omega

/-! ## The effect by block -/

theorem State.writeReg_module (s : State) {a : Nat} (v : Word) (h : a < 0x01000000) : s.writeReg a v = s.writeMod a v := by
  rw [State.writeReg, placeOf_module h]

theorem State.writeReg_region (s : State) {r off : Nat} (v : Word) (hr : r < 16) (hoff : off < 0x100000) :
    s.writeReg (0x20000000 + 0x100000 * r + off) v = s.writeRegion r off v := by
  rw [State.writeReg, placeOf_region hr hoff]

theorem State.writeReg_cluster (s : State) {c off : Nat} (v : Word) (hc : c < 192) (hoff : off < 0x4000) :
    s.writeReg (0x30000000 + 0x4000 * c + off) v = if s.regionOn (c / 12) then s.writeCluster c off v else s := by
  rw [State.writeReg, placeOf_cluster hc hoff]

theorem State.writeReg_tile (s : State) {t off : Nat} (v : Word) (ht : t < 2304) (hoff : off < 0x10000) :
    s.writeReg (0x40000000 + 0x10000 * t + off) v = if s.regionOn (regionOf t) then s.writeTile t off v else s := by
  rw [State.writeReg, placeOf_tile ht hoff]

theorem State.writeMod_page (s : State) {k : Nat} (v : Word) (hk : k < 64) :
    s.writeMod (0x50000 + 16 * k) v = s.doorbell k (v.setWidth 16) ∧ s.writeMod (0x50008 + 16 * k) v = s.freeSlots k (v.setWidth 16) := by
  have hdb : (0x50000 + 16 * k - 0x50000) / 16 = k := by omega
  have hcq : (0x50008 + 16 * k - 0x50000) / 16 = k := by
    have hsub : 0x50008 + 16 * k - 0x50000 = 8 + 16 * k := Nat.sub_eq_of_eq_add (by omega)
    rw [hsub]
    omega
  unfold State.writeMod
  constructor
  · rw [if_neg (by omega), if_pos (by omega), if_pos (by omega), hdb]
  · rw [if_neg (by omega), if_pos (by omega), if_neg (by omega), hcq]

theorem State.writeTile_bp (s : State) (t : Nat) (v : Word) {i : Nat} (hi : i < 16) : s.writeTile t (0xA00 + 8 * i) v =
    s.modTile t fun x => x.modMisc fun m => { m with bp := Map.set 0 m.bp (0xA00 + 8 * i) (v &&& bpFields) } := by
  rw [State.writeTile, if_neg (by omega), if_neg (by omega), if_neg (by omega), if_pos (by omega)]

/-! ## Registers without a writable field -/

theorem State.writeMod_readOnly (s : State) {off : Nat} (v : Word) (h : modWritable off = false) : s.writeMod off v = s := by
  simp only [modWritable, Bool.or_eq_false_iff, beq_eq_false_iff_ne, Bool.and_eq_false_iff, decide_eq_false_iff_not, List.elem_eq_mem, List.mem_cons, not_or,
    List.not_mem_nil, ne_eq] at h
  obtain ⟨⟨hscratch, hpage⟩, hmaxn, hpwr, hreq, hfault, hdbg, -⟩ := h
  have hnot : ¬ (0x50000 ≤ off ∧ off < 0x50400 ∧ off % 8 = 0) := by omega
  rw [State.writeMod, if_neg hscratch, if_neg hnot, if_neg hmaxn, if_neg hpwr, if_neg hreq, if_neg hfault, if_neg hdbg]

theorem State.writeRegion_readOnly (s : State) (r : Nat) {off : Nat} (v : Word) (h : (off == 8 || off == 0x200) = false) :
    s.writeRegion r off v = s := by
  simp only [Bool.or_eq_false_iff, beq_eq_false_iff_ne, ne_eq] at h
  rw [State.writeRegion, if_neg h.1, if_neg fun hreset => h.2 hreset.1]

theorem State.writeCluster_readOnly (s : State) (c : Nat) {off : Nat} (v : Word) (h : clusterWritable off = false) :
    s.writeCluster c off v = s := by
  simp only [clusterWritable, Bool.or_eq_false_iff, beq_eq_false_iff_ne, Bool.and_eq_false_iff, decide_eq_false_iff_not, ne_eq] at h
  obtain ⟨hfault, hwatch⟩ := h
  rw [State.writeCluster, if_neg hfault, if_neg (by omega)]

theorem State.writeTile_readOnly (s : State) (t : Nat) {off : Nat} (v : Word) (h : tileWritable off = false) : s.writeTile t off v = s := by
  simp only [tileWritable, Bool.or_eq_false_iff, beq_eq_false_iff_ne, Bool.and_eq_false_iff, decide_eq_false_iff_not, List.elem_eq_mem, List.mem_cons, not_or,
    List.not_mem_nil, ne_eq] at h
  obtain ⟨⟨hfault, hreset, hsel, hwp, hwp', hstat, -⟩, hbp⟩ := h
  have hnot : ¬ (0xA00 ≤ off ∧ off < 0xA80 ∧ off % 8 = 0) := by omega
  rw [State.writeTile, if_neg hfault, if_neg hreset, if_neg hsel, if_neg hnot, if_neg (not_or.mpr ⟨hwp, hwp'⟩), if_neg hstat]

theorem State.writeReg_readOnly (s : State) {a : Nat} (v : Word) (h : writableAt a = false) : s.writeReg a v = s := by
  unfold writableAt at h
  unfold State.writeReg
  cases hp : placeOf a with
  | module off => exact s.writeMod_readOnly v (by rwa [hp] at h)
  | region r off => exact s.writeRegion_readOnly r v (by rwa [hp] at h)
  | cluster c off => exact ite_eq_right_iff.mpr fun _ => s.writeCluster_readOnly c v (by rwa [hp] at h)
  | tile t off => exact ite_eq_right_iff.mpr fun _ => s.writeTile_readOnly t v (by rwa [hp] at h)
  | llyn p off => rfl
  | hbm k off => rfl
  | none => rfl

/-! ## Fault registers -/

/-- In the tick of the fault the mask spares `VALID`; at other ticks it is the whole mask. -/
theorem clearFault_eq (old time v mask : Word) (now : Nat) : clearFault old time v mask now =
    old &&& ~~~ (v &&& (mask &&& if time.toNat = now then ~~~ (place 63 1 1) else ~~~ 0)) := by
  unfold clearFault clearOnes
  split
  · rfl
  · rw [show ~~~ (0 : Word) = BitVec.allOnes 64 from rfl, BitVec.and_allOnes]

/-! ## The obligation -/

theorem exec_registerWrite {s : State} (h : s.regsOn = true) (a : Nat) (v : Word) : exec (.registerWrite a v) s = .next (s.writeReg a v) :=
  if_pos h

theorem exec_devMbxDb {s : State} (h : s.regsOn = true) {k : Nat} (hk : k < 64) (v : Word) :
    exec (.devMbxDb k v) s = .next (s.doorbell k (v.setWidth 16)) :=
  (if_neg (Nat.not_le.mpr hk)).trans (if_pos h)

theorem exec_devMbxCq {s : State} (h : s.regsOn = true) {k : Nat} (hk : k < 64) (v : Word) :
    exec (.devMbxCq k v) s = .next (s.freeSlots k (v.setWidth 16)) :=
  (if_neg (Nat.not_le.mpr hk)).trans (if_pos h)

/-- Settles O60: the decode of each address and the write of its block. -/
theorem registerWrites : Obligations.RegisterWrites := by
  refine ⟨fun s a v hoff => if_neg (by rw [hoff]; exact Bool.false_ne_true), fun s v hon => ?_⟩
  have hwrite := fun a => exec_registerWrite hon a v
  refine ⟨fun a ha => by rw [hwrite, s.writeReg_readOnly v ha], hwrite _, hwrite _, hwrite _, ?_, fun k hk => ⟨?_, ?_⟩, fun r hr => ?_,
    fun c hc => ⟨fun hreg => ?_, fun hreg off hoff => ?_⟩, fun t ht => ⟨fun hreg => ⟨?_, fun i hi => ?_⟩, fun hreg off hoff => ?_⟩⟩
  · rw [hwrite]
    exact congrArg (fun w => Host.Outcome.next (s.modRel fun r => { r with fault := w })) (clearFault_eq _ _ _ _ _)
  · rw [hwrite, exec_devMbxDb hon hk, s.writeReg_module v (by omega), (s.writeMod_page v hk).1]
  · rw [hwrite, exec_devMbxCq hon hk, s.writeReg_module v (by omega), (s.writeMod_page v hk).2]
  · rw [hwrite, show 0x20000008 + 0x100000 * r = 0x20000000 + 0x100000 * r + 8 by omega, s.writeReg_region v hr (by decide)]
    exact congrArg (fun w => Host.Outcome.next (s.modRegion r fun x => { x with fault := w })) (clearFault_eq _ _ _ _ _)
  · rw [hwrite, show 0x30000008 + 0x4000 * c = 0x30000000 + 0x4000 * c + 8 by omega, s.writeReg_cluster v hc (by decide), if_pos hreg]
    exact congrArg (fun w => Host.Outcome.next (s.modCluster c fun x => { x with fault := w })) (clearFault_eq _ _ _ _ _)
  · rw [hwrite, s.writeReg_cluster v hc hoff, hreg, if_neg Bool.false_ne_true]
  · rw [hwrite, show 0x40000008 + 0x10000 * t = 0x40000000 + 0x10000 * t + 8 by omega, s.writeReg_tile v ht (by decide), if_pos hreg]
    exact congrArg (fun w => Host.Outcome.next (s.modTile t fun x => { x with fault := w })) (clearFault_eq _ _ _ _ _)
  · rw [hwrite, show 0x40000A00 + 0x10000 * t + 8 * i = 0x40000000 + 0x10000 * t + (0xA00 + 8 * i) by omega,
      s.writeReg_tile v ht (by omega), if_pos hreg, s.writeTile_bp t v hi]
    rfl
  · rw [hwrite, s.writeReg_tile v ht hoff, hreg, if_neg Bool.false_ne_true]

end Sys2Proof.Machine

/-! # Ballast (R434, R450 to R452)

A ramp step changes each tile of the list once (`State.forAll_modTile_once`); before the done wave nothing goes back to compute
(`State.backToCompute_of_not_doneAt`). -/

namespace Sys2Proof.Machine

theorem State.backToCompute_of_not_doneAt {s : State} (h : s.job.wave.doneAt = false) : s.backToCompute = s :=
  if_neg fun hall => Bool.false_ne_true (h.symm.trans hall.1)

/-- A change of every tile of a list without repetition. -/
theorem State.forAll_modTile_once (f : Tile → Tile) {l : List Nat} (hl : l.Nodup) (s : State) (u : Nat) :
    (s.forAll l fun s t => s.modTile t f).tile u = if u ∈ l then f (s.tile u) else s.tile u := by
  induction l generalizing s with
  | nil => exact (if_neg List.not_mem_nil).symm
  | cons t l ih =>
    obtain ⟨ht, hrest⟩ := List.nodup_cons.mp hl
    have hstep := ih hrest (s.modTile t f)
    refine Eq.trans hstep ?_
    by_cases hu : u = t
    · subst hu
      rw [if_neg ht, if_pos (List.mem_cons_self), State.modTile_tile_self]
    · rw [State.modTile_tile_ne _ _ _ _ hu]
      simp only [List.mem_cons, hu, false_or]

theorem State.forAll_modTile_only (f : Tile → Tile) (m : Map Tile) (l : List Nat) (s : State) :
    { (s.forAll l fun s t => s.modTile t f) with tiles := m } = { s with tiles := m } := by
  induction l generalizing s with
  | nil => rfl
  | cons t l ih => exact ih (s.modTile t f)

/-! ## The ramp -/

/-- One ramp step of a tile (R434). -/
def Tile.ramp (x : Tile) (up : Bool) : Tile :=
  if x.st = 4 ∨ x.st = 5 then x.modMisc fun m => { m with duty := if up then min m.d0 (m.duty + 1) else m.duty - 1 } else x

theorem exec_ballastRampStep {s : State} {r : Nat} (hr : r < 16) (hjs : s.job.js = 4) (hdone : s.job.wave.doneAt = false) :
    exec (.ballastRampStep r) s = .next (s.forAll (s.rampTiles r) fun e t =>
      e.modTile t fun x => x.ramp (s.job.exch && (s.rampTiles r).all fun t => (s.tile t).xs.part)) := by
  have hrun : ¬ s.job.js ≠ 4 := not_not.mpr hjs
  refine (if_neg (Nat.not_le.mpr hr)).trans ((if_neg hrun).trans (congrArg Host.Outcome.next ?_))
  rw [hdone, Bool.false_or]
  refine State.backToCompute_of_not_doneAt ?_
  have hrest := State.forAll_modTile_only
    (fun x => x.ramp (s.job.exch && (s.rampTiles r).all fun t => (s.tile t).xs.part)) [] (s.rampTiles r) s
  have hjob := congrArg State.job hrest
  exact (congrArg (fun j : Job => j.wave.doneAt) hjob).trans hdone

theorem State.mem_rampTiles {s : State} {r t : Nat} : t ∈ s.rampTiles r ↔ t ∈ s.job.tiles ∧ regionOf t = r := by
  rw [State.rampTiles, List.mem_filter, decide_eq_true_iff]

/-! ## The quantum -/

/-- The quantum of an arrived tile whose slice reads without parity error. -/
theorem exec_ballastQuantum {s : State} {t : Nat} (ht : t < 2304) (hjs : s.job.js = 4) (hst : (s.tile t).st = 4 ∨ (s.tile t).st = 5)
    (hq : (s.tile t).misc.quantum = false) (hpar : (s.tile t).sliceParity s.slice = []) (bad : Option Nat) :
    exec (.ballastQuantum t bad) s =
      let s1 := s.modTile t fun y => y.modMisc fun m => { m with quantum := true }
      match bad with
      | some u => .next (s1.tileFault t 4 0x0C (u % 256 * 2 ^ 24 + s.slice) 0)
      | none => .next s1.backToCompute := by
  refine (if_neg (Nat.not_le.mpr ht)).trans ((if_pos ⟨hjs, hst, by rw [hq]; decide⟩).trans ?_)
  dsimp only
  rw [hpar]
  rfl

/-- Settles O40: `State.forAll_modTile_once` for the ramp, `State.tileFault_recorded` for a result that mismatches. -/
theorem ballastRampsAndChecks : Obligations.BallastRampsAndChecks := by
  refine ⟨fun s r hr hjs => (if_neg (Nat.not_le.mpr hr)).trans (if_pos hjs), fun s r hr hjs hdone hnodup => ?_,
    fun s t ht hjs hst hq hpar => ⟨fun hdone => ?_, fun u => ?_⟩⟩
  · have honce : (s.rampTiles r).Nodup := hnodup.filter _
    have hramp := State.forAll_modTile_once (fun x => x.ramp (s.job.exch && (s.rampTiles r).all fun t => (s.tile t).xs.part)) honce s
    refine ⟨_, exec_ballastRampStep hr hjs hdone, fun t ht hreg hst => ?_, fun t hnot => ?_, State.forAll_modTile_only _ s.tiles _ s⟩
    · rw [hramp, if_pos (State.mem_rampTiles.mpr ⟨ht, hreg⟩), Tile.ramp, if_pos hst]
      rfl
    · rw [hramp]
      refine ite_eq_right_iff.mpr fun hmem => if_neg fun hst => ?_
      obtain ⟨ht, hreg⟩ := State.mem_rampTiles.mp hmem
      obtain hnt | hnr | hns := hnot
      · exact hnt ht
      · exact hnr hreg
      · exact hst.elim hns.1 hns.2
  · rw [exec_ballastQuantum ht hjs hst hq hpar]
    exact congrArg Host.Outcome.next (State.backToCompute_of_not_doneAt hdone)
  · refine ⟨_, exec_ballastQuantum ht hjs hst hq hpar (some u), ?_⟩
    refine (State.tileFault_recorded (s := s.modTile t _) hjs t _ _ _ _).trans ?_
    rw [State.modTile_tile_self]
    rfl

end Sys2Proof.Machine

/-! # Interrupts posted to the host (R361, R371, R372)

What an interrupt changes is three fields of Riendlink (`State.Posts`), so every other quantity stays (`State.Posts.same`). -/

namespace Sys2Proof.Machine

/-- Nothing but pending vectors, messages sent and slot units of Riendlink differs. -/
def State.Posts (a b : State) : Prop :=
  ∃ pend out units, b = a.modRl fun r => { r with pend := pend, msiOut := out, units := units }

theorem State.Posts.refl (a : State) : a.Posts a := ⟨_, _, _, rfl⟩

theorem State.Posts.trans {a b c : State} (h : a.Posts b) (g : b.Posts c) : a.Posts c := by
  obtain ⟨_, _, _, rfl⟩ := h
  obtain ⟨_, _, _, rfl⟩ := g
  exact ⟨_, _, _, rfl⟩

/-- A quantity that does not look at the posting fields is as before. -/
theorem State.Posts.same {α : Type} {a b : State} (h : a.Posts b) (f : State → α)
    (hf : ∀ (s : State) pend out units, f (s.modRl fun r => { r with pend := pend, msiOut := out, units := units }) = f s) : f b = f a := by
  obtain ⟨_, _, _, rfl⟩ := h
  exact hf _ _ _ _

theorem State.sendMsi_posts (s : State) (v : Nat) : s.Posts (s.sendMsi v) := by
  unfold State.sendMsi
  split
  · exact ⟨_, _, _, rfl⟩
  · exact .refl s

theorem State.raiseMsi_posts (s : State) (v : Nat) : s.Posts (s.raiseMsi v) := .trans ⟨_, _, _, rfl⟩ (State.sendMsi_posts _ v)

theorem State.sendMsis_posts (l : List Nat) (s : State) : s.Posts (s.forAll l State.sendMsi) :=
  List.foldlRecOn (motive := fun e : State => s.Posts e) l _ (.refl s) fun e he v _ => he.trans (e.sendMsi_posts v)

theorem State.readyFrom_posts (s b : State) : s.Posts (s.readyFrom b) := by
  unfold State.readyFrom
  split
  · exact .refl s
  · exact s.raiseMsi_posts 65

/-- A quantity that no step of a fold changes is as before. -/
theorem foldl_same {α β : Type} (f : State → α) {g : State → β → State} (hg : ∀ s b, f (g s b) = f s) (l : List β) (s : State) :
    f (l.foldl g s) = f s :=
  List.foldlRecOn (motive := fun e : State => f e = f s) l _ rfl fun e he b _ => (hg e b).trans he

end Sys2Proof.Machine

/-! # The coherent host window's size (R366)

A resize without lines to take back changes the stacks and the window's size and status (`State.resizeHcw_rest`); what the window gains is
zeroed, byte by byte (`State.zeroGranules_byte`). -/

namespace Sys2Proof.Machine

/-- The granules `[lo, lo + n)` of one stack cleared, check values invalid. -/
def Stack.zeroed (x : Stack) (lo n : Nat) : Stack := { x with
  mem := Map.clear x.mem (4096 * lo) (4096 * n)
  crcV := Map.clear x.crcV lo n
  ue := x.ue.filter fun b => decide (b < 4096 * lo ∨ 4096 * (lo + n) ≤ b)
  ce := x.ce.filter fun b => decide (b < 4096 * lo ∨ 4096 * (lo + n) ≤ b) }

/-- One stack's part of `State.zeroGranules`. -/
def State.zeroStack (lo n : Nat) (s : State) (k : Nat) : State :=
  if (strided lo n 32 k).2 = 0 then s else s.modStk k fun x => x.zeroed (strided lo n 32 k).1 (strided lo n 32 k).2

theorem State.zeroGranules_eq (s : State) (lo n : Nat) : s.zeroGranules lo n = s.forAll (List.range 32) (State.zeroStack lo n) := rfl

theorem State.zeroGranules_rest (s : State) (lo n : Nat) : { s.zeroGranules lo n with stks := [] } = { s with stks := [] } := by
  refine foldl_same (fun e : State => { e with stks := [] }) (fun e k => ?_) _ s
  by_cases h : (strided lo n 32 k).2 = 0
  · exact congrArg (fun e : State => { e with stks := [] }) (if_pos h)
  · exact congrArg (fun e : State => { e with stks := [] }) (if_neg h)

theorem State.zeroStack_stk_ne (lo n : Nat) (s : State) {k u : Nat} (h : u ≠ k) : (s.zeroStack lo n k).stk u = s.stk u := by
  unfold State.zeroStack
  split
  · rfl
  · exact s.modStk_stk_ne _ _ _ h

/-- Whether a granule of stack `k` lies in the range that a stride over 32 stacks names. -/
theorem strided_covers (lo n : Nat) {k j : Nat} (hk : k < 32) :
    ((strided lo n 32 k).1 ≤ j ∧ j < (strided lo n 32 k).1 + (strided lo n 32 k).2) ↔ lo ≤ 32 * j + k ∧ 32 * j + k < lo + n := by
  simp only [strided]
  omega

theorem State.zeroStack_stk_self (lo n : Nat) (s : State) (k : Nat) : (s.zeroStack lo n k).stk k =
    if (strided lo n 32 k).2 = 0 then s.stk k else (s.stk k).zeroed (strided lo n 32 k).1 (strided lo n 32 k).2 := by
  unfold State.zeroStack
  split
  · rfl
  · exact s.modStk_stk_self _ _

/-- A step that touches only the unit it is given acts once on each unit of a list without repetition; `get` looks at a unit. -/
theorem State.forAll_once {α : Type} (get : State → Nat → α) {f : State → Nat → State} {F : Nat → α → α}
    (hself : ∀ s k, get (f s k) k = F k (get s k)) (hne : ∀ s k u, u ≠ k → get (f s k) u = get s u) {l : List Nat} (hl : l.Nodup) (s : State)
    {u : Nat} (hu : u ∈ l) : get (s.forAll l f) u = F u (get s u) := by
  induction l generalizing s with
  | nil => cases hu
  | cons k l ih =>
    obtain ⟨hk, hrest⟩ := List.nodup_cons.mp hl
    by_cases h : u = k
    · subst h
      have hothers : get ((f s u).forAll l f) u = get (f s u) u :=
        List.foldlRecOn (motive := fun e : State => get e u = get (f s u) u) l f rfl fun e he v hv =>
          (hne e v u fun huv => hk (huv ▸ hv)).trans he
      exact hothers.trans (hself s u)
    · exact (ih hrest (f s k) ((List.mem_cons.mp hu).resolve_left h)).trans (congrArg (F u) (hne s k u h))

theorem State.zeroGranules_stk (s : State) (lo n : Nat) {k : Nat} (hk : k < 32) : (s.zeroGranules lo n).stk k =
    if (strided lo n 32 k).2 = 0 then s.stk k else (s.stk k).zeroed (strided lo n 32 k).1 (strided lo n 32 k).2 := by
  rw [State.zeroGranules_eq]
  exact State.forAll_once State.stk (F := fun k x => if (strided lo n 32 k).2 = 0 then x else x.zeroed (strided lo n 32 k).1 (strided lo n 32 k).2)
    (fun s k => s.zeroStack_stk_self lo n k) (fun s k u => s.zeroStack_stk_ne lo n) List.nodup_range s (List.mem_range.mpr hk)

/-- A byte of a granule range reads zero after the range is zeroed, its block's check value invalid; every other byte is as before. -/
theorem State.zeroGranules_byte (s : State) (lo n a : Nat) : let d := devByte a
    Map.get 0 ((s.zeroGranules lo n).stk d.1).mem d.2 =
      (if lo ≤ a / 4096 ∧ a / 4096 < lo + n then 0 else Map.get 0 (s.stk d.1).mem d.2) ∧
    Map.get false ((s.zeroGranules lo n).stk d.1).crcV (d.2 / 4096) =
      (if lo ≤ a / 4096 ∧ a / 4096 < lo + n then false else Map.get false (s.stk d.1).crcV (d.2 / 4096)) := by
  intro d
  have hd : d.1 = a / 4096 % 32 ∧ d.2 = 4096 * (a / 4096 / 32) + a % 4096 := ⟨rfl, rfl⟩
  have hk : d.1 < 32 := by omega
  have hcov := strided_covers lo n (j := d.2 / 4096) hk
  rw [show 32 * (d.2 / 4096) + d.1 = a / 4096 by omega] at hcov
  rw [s.zeroGranules_stk lo n hk]
  by_cases hnone : (strided lo n 32 d.1).2 = 0
  · rw [if_pos hnone, if_neg (hcov.not.mp (by omega)), if_neg (hcov.not.mp (by omega))]
    exact ⟨rfl, rfl⟩
  · rw [if_neg hnone]
    refine ⟨(Map.get_clear _ _ _ _ _).trans (if_congr ?_ rfl rfl), (Map.get_clear _ _ _ _ _).trans (if_congr hcov rfl rfl)⟩
    rw [← hcov]
    omega

theorem State.eq_of_rest_stks {a b : State} (h : { b with stks := [] } = { a with stks := [] }) : b = { a with stks := b.stks } :=
  congrArg (fun e : State => { e with stks := b.stks }) h

/-- What a resize has done to the stacks when it sets the size. -/
def State.hcwGained (s : State) : State :=
  if s.rl.hcwSize < s.rl.hcwReq then s.zeroGranules (s.rl.hcwSize * 2 ^ 18) ((s.rl.hcwReq - s.rl.hcwSize) * 2 ^ 18) else s

theorem State.hcwGained_rest (s : State) : s.hcwGained = { s with stks := s.hcwGained.stks } := by
  unfold State.hcwGained
  split
  · exact State.eq_of_rest_stks (s.zeroGranules_rest _ _)
  · rfl

/-- A resize sets the status alone, or asks for the lines above the size, or sets the size. -/
theorem State.resizeHcw_cases (s : State) : (∃ st, s.resizeHcw = s.modRl fun r => { r with hcwStat := st }) ∨
    (s.linesAbove s.rl.hcwReq ≠ [] ∧ s.resizeHcw = (s.modRl fun r => { r with hcwStat := 1 }).sendBinv (s.linesAbove s.rl.hcwReq)) ∨
      s.resizeHcw = s.hcwGained.modRl fun r => { r with hcwSize := s.rl.hcwReq, hcwStat := 0 } := by
  unfold State.resizeHcw
  extract_lets n old set meets held s1
  by_cases hbusy : s.job.img.isSome ∨ s.stow.busy ∨ s.stow.hostBusy
  · exact .inl ⟨2, if_pos hbusy⟩
  · rw [if_neg hbusy]
    by_cases hbig : 256 < n
    · exact .inl ⟨3, if_pos hbig⟩
    · rw [if_neg hbig]
      by_cases hmeets : meets
      · exact .inl ⟨3, if_pos hmeets⟩
      · rw [if_neg hmeets]
        by_cases hheld : held ≠ []
        · exact .inr (.inl ⟨hheld, if_pos hheld⟩)
        · rw [if_neg hheld]
          exact .inr (.inr rfl)

/-- A resize that needs no line back changes the stacks and the window's size and status. -/
theorem State.resizeHcw_rest {s : State} (h : s.linesAbove s.rl.hcwReq = []) :
    ∃ m size st, s.resizeHcw = { s with stks := m, rl := { s.rl with hcwSize := size, hcwStat := st } } := by
  obtain ⟨st, heq⟩ | ⟨hlines, -⟩ | heq := s.resizeHcw_cases
  · exact ⟨_, _, st, heq⟩
  · exact absurd h hlines
  · rw [heq, s.hcwGained_rest]
    exact ⟨_, _, _, rfl⟩

theorem State.retryHcw_rest {s : State} (h : s.linesAbove s.rl.hcwReq = []) :
    ∃ m size st, s.retryHcw = { s with stks := m, rl := { s.rl with hcwSize := size, hcwStat := st } } := by
  unfold State.retryHcw
  split
  · exact State.resizeHcw_rest h
  · exact ⟨_, _, _, rfl⟩

end Sys2Proof.Machine

/-! # Riendlink's link states, frames and requests of configuration space (R361 to R374) -/

namespace Sys2Proof.Machine

/-! ## The link goes down (R374) -/

theorem State.stickHost_rest (s : State) : { s.stickHost with tiles := [] } = { s with tiles := [] } := by
  refine foldl_same (fun e : State => { e with tiles := [] }) (fun e t => ?_) _ s
  dsimp only
  split <;> rfl

theorem State.hostStore_rest (s : State) (line : Nat) (parts : List (Nat × List Byte)) :
    { s.hostStore line parts with stks := [] } = { s with stks := [] } := rfl

theorem State.countRl_ctr_self (s : State) (off n : Nat) :
    Map.get 0 (s.countRl off n).rl.ctr off = Map.get 0 s.rl.ctr off + BitVec.ofNat 64 n := Map.get_ctrAdd_self _ _ _

theorem State.countRl_ctr_ne (s : State) (off n : Nat) {k : Nat} (h : k ≠ off) :
    Map.get 0 (s.countRl off n).rl.ctr k = Map.get 0 s.rl.ctr k := Map.get_set_ne _ _ _ _ _ h

/-- The link cut: every line, request and message is gone. -/
def State.cut (s : State) (reason : Nat) : State := (s.stickHost).modRl fun r => { r with
  st := 6, reason := reason, lanes := 0
  snoop := [], binv := [], recalls := [], held := [], outs := [], wants := [], units := 0
  ackRx := 4095, nak := false, seq := 0, disc := 0, replay := [], resend := [] }

/-- The lines the host owned hold bytes that nothing constrains. -/
def State.losesLines (s : State) (owned : List Nat) : State := (owned.zipIdx).foldl (fun s p =>
  s.hostStore p.1 [(0, (List.range 64).map fun j => Config.freeByte s.free (64 * p.2 + j))]) s

/-- The link down, before the job's fault and before a pending window size is tried again. -/
def State.fallen (s : State) (reason : Nat) : State :=
  let owned := (s.rl.snoop.filter fun p => p.2).map (·.1)
  let s1 := ((((s.cut reason).losesLines owned).took.countRl 0x60 1).countRl 0x48 owned.length).readyFrom s
  if owned = [] then s1 else s1.raiseMsi 69

theorem State.rlDown_eq (s : State) (reason : Nat) : s.rlDown reason =
    (if (s.fallen reason).job.img.isSome ∧ (s.fallen reason).usesHost then (s.fallen reason).devFault 0x44 0
      else s.fallen reason).retryHcw := rfl

theorem State.losesLines_rest (s : State) (owned : List Nat) : { s.losesLines owned with stks := [] } = { s with stks := [] } := by
  unfold State.losesLines
  refine foldl_same (fun e : State => { e with stks := [] }) (fun e p => ?_) _ s
  exact e.hostStore_rest p.1 _

/-- What a link that goes down leaves: these fields of Riendlink cleared, the ports and the job as they were. -/
structure State.DownFrom (s : State) (reason : Nat) (e : State) : Prop where
  st : e.rl.st = 6
  reason : e.rl.reason = reason
  snoop : e.rl.snoop = []
  held : e.rl.held = []
  binv : e.rl.binv = []
  ctr : Map.get 0 e.rl.ctr 0x60 = Map.get 0 s.rl.ctr 0x60 + 1
  ports : e.ports = s.ports
  img : e.job.img = s.job.img

/-- Posting interrupts keeps a link down. -/
theorem State.DownFrom.posts {s e e' : State} {reason : Nat} (h : s.DownFrom reason e) (g : e.Posts e') : s.DownFrom reason e' := by
  obtain ⟨_, _, _, rfl⟩ := g
  exact ⟨h.st, h.reason, h.snoop, h.held, h.binv, h.ctr, h.ports, h.img⟩

theorem State.fallen_downFrom (s : State) (reason : Nat) : s.DownFrom reason (s.fallen reason) := by
  unfold State.fallen
  extract_lets owned s1
  have hcut : (s.cut reason).losesLines owned = { s.cut reason with stks := ((s.cut reason).losesLines owned).stks } :=
    State.eq_of_rest_stks (State.losesLines_rest _ _)
  have hstick := s.stickHost_rest
  have hcounted : s.DownFrom reason ((((s.cut reason).losesLines owned).took.countRl 0x60 1).countRl 0x48 owned.length) := by
    refine ⟨?_, ?_, ?_, ?_, ?_, ?_, ?_, ?_⟩
    · rw [hcut]; rfl
    · rw [hcut]; rfl
    · rw [hcut]; rfl
    · rw [hcut]; rfl
    · rw [hcut]; rfl
    · rw [State.countRl_ctr_ne _ _ _ (by decide), State.countRl_ctr_self, hcut]
      exact (congrArg (fun e : State => Map.get 0 e.rl.ctr 0x60 + 1) hstick :)
    · rw [hcut]
      exact (congrArg State.ports hstick :)
    · rw [hcut]
      exact (congrArg (fun e : State => e.job.img) hstick :)
  have hready : s.DownFrom reason s1 := hcounted.posts (State.readyFrom_posts _ s)
  split
  · exact hready
  · exact hready.posts (State.raiseMsi_posts _ 69)

theorem State.rlDown_downFrom {s : State} (h : s.job.img = none) (reason : Nat) : s.DownFrom reason (s.rlDown reason) := by
  have hdown := s.fallen_downFrom reason
  have hnojob : ¬ ((s.fallen reason).job.img.isSome ∧ (s.fallen reason).usesHost) := by
    rw [hdown.img, h]
    exact fun hall => Bool.false_ne_true hall.1
  rw [State.rlDown_eq, if_neg hnojob]
  have hlines : (s.fallen reason).linesAbove (s.fallen reason).rl.hcwReq = [] := by
    rw [State.linesAbove, hdown.snoop]
    rfl
  obtain ⟨m, size, st, heq⟩ := State.retryHcw_rest hlines
  rw [heq]
  exact ⟨hdown.st, hdown.reason, hdown.snoop, hdown.held, hdown.binv, hdown.ctr, hdown.ports, hdown.img⟩

/-! ## Training -/

/-- The state in which `RL_LINK_UP` posts what is pending. -/
def State.rlUp (s : State) : State := (s.modRl fun r => { r with st := 4, lanes := 0xFFFF, disc := 0, resend := r.replay }).readyFrom s

theorem exec_rlLinkUp {s : State} (h : s.rl.st = 2 ∨ s.rl.st = 5) :
    exec .rlLinkUp s = .next (s.rlUp.forAll (List.range 72) State.sendMsi) := if_pos h

theorem State.rlUp_posts (s : State) :
    (s.modRl fun r => { r with st := 4, lanes := 0xFFFF, disc := 0, resend := r.replay }).Posts (s.rlUp.forAll (List.range 72) State.sendMsi) :=
  (State.readyFrom_posts _ s).trans (State.sendMsis_posts _ _)

/-- `FRAME_LOCK_LOSS` of Riendlink while it is `UP`. -/
theorem exec_frameLockLoss {s : State} (h : s.rl.st = 4) : exec (.frameLockLoss 32) s =
    .next (((s.modRl fun r => { r with st := 5, reason := 5 }).countRl 0x58 1).readyFrom s) :=
  congrArg Host.Outcome.next (if_pos h)

/-! ## Frames -/

/-- A frame with an error is asked for again. -/
theorem exec_rlFrameReceive_bad {s : State} (h : s.rl.st = 4) (fr : RlFrame) {q : RxQuality} (hq : q.bad 2 = true) (hdisc : s.rl.disc + 1 < 8) :
    exec (.rlFrameReceive fr q) s = .next (s.modRl fun r => { r with
      nak := true, disc := r.disc + (if fr.seq = (s.rl.ackRx + 1) % 4096 then 1 else 0) }) := by
  refine (if_neg (not_not.mpr h)).trans ((if_pos hq).trans (congrArg Host.Outcome.next (if_neg ?_)))
  have hle : (if fr.seq = (s.rl.ackRx + 1) % 4096 then 1 else 0) ≤ 1 := by split <;> decide
  exact Nat.not_le.mpr (Nat.lt_of_le_of_lt (Nat.add_le_add_left hle _) hdisc)

/-- The frames that the acknowledgement of `fr` leaves in the replay buffer. -/
def Rl.unacked (r : Rl) (fr : RlFrame) : List RlFrame :=
  match r.replay.findIdx? fun f => decide (f.seq = fr.ack) with
  | some i => r.replay.drop (i + 1)
  | none => r.replay

/-- A frame without error acknowledges, and is taken if it is the next one. -/
theorem exec_rlFrameReceive_good {s : State} (h : s.rl.st = 4) (fr : RlFrame) {q : RxQuality} (hq : q.bad 2 = false) :
    exec (.rlFrameReceive fr q) s =
      let s1 := s.modRl fun r => { r with replay := s.rl.unacked fr, resend := if fr.nak then s.rl.unacked fr else r.resend }
      if fr.seq = (s.rl.ackRx + 1) % 4096 then .next (s1.modRl fun r => { r with ackRx := (s.rl.ackRx + 1) % 4096, nak := false, disc := 0 })
      else .next (s1.modRl fun r => { r with nak := true }) :=
  (if_neg (not_not.mpr h)).trans (if_neg (by rw [hq]; exact Bool.false_ne_true))

theorem exec_linkFrameSend (s : State) : exec (.linkFrameSend 32) s = .next s.rlSend := rfl

/-- A frame sent again. -/
theorem State.rlSend_again {s : State} (h : s.rl.st = 4) {f : RlFrame} {rest : List RlFrame} (hf : s.rl.resend = f :: rest) :
    s.rlSend = ((s.modRl fun r => { r with resend := rest, last := (r.fresh s.free f true).bytes }).countRl 0x50 1).took := by
  rw [State.rlSend, if_neg (not_not.mpr h), hf]

/-- The new frame that Riendlink sends. -/
def Rl.newFrame (r : Rl) (free : Nat) : RlFrame where
  seq := r.seq
  ack := 0
  nak := false
  rpl := false
  crJ0 := 0
  crJ1 := 0
  crSt := 0
  units := (List.range (min 14 r.units)).map fun i => (List.range 16).map fun j => Config.freeByte free (16 * i + j)

/-- A new frame; the oldest `k` frames leave a full replay buffer. -/
theorem State.rlSend_new {s : State} (h : s.rl.st = 4) (hf : s.rl.resend = []) : ∃ k ≤ s.rl.replay.length,
    s.rlSend = (s.modRl fun r => { r with
      seq := (r.seq + 1) % 4096
      units := r.units - min 14 r.units
      replay := (r.replay ++ [r.newFrame s.free]).drop k
      last := (r.fresh s.free (r.newFrame s.free) false).bytes }).took := by
  refine ⟨s.rl.replay.length + 1 - 128, by omega, ?_⟩
  rw [State.rlSend, if_neg (not_not.mpr h), hf]
  dsimp only [State.modRl, Rl.newFrame]

/-- The last frame stays in a buffer that drops its oldest. -/
theorem getLast?_drop_append_singleton {α : Type} (l : List α) (x : α) {k : Nat} (h : k ≤ l.length) : ((l ++ [x]).drop k).getLast? = some x := by
  rw [List.drop_append_of_le_length h, List.getLast?_append]
  rfl

/-! ## Interrupt table and window size -/

theorem State.msiWrite_posts (s : State) {v : Nat} (hv : v < 72) (x : Word) : (s.modRl fun r => { r with
    msiA := Map.set 0 r.msiA v (x &&& place 2 50 (2 ^ 50 - 1)), unmask := Map.set false r.unmask v (!(bit x 63)) }).Posts (s.msiWrite v 0 x) := by
  rw [State.msiWrite, if_neg (Nat.not_le.mpr hv), if_pos rfl]
  exact State.sendMsi_posts _ v

theorem exec_rlMsiWrite {s : State} (h : s.rl.st = 4) (v w : Nat) (x : Word) : exec (.rlMsiWrite v w x) s = .next (s.msiWrite v w x) := if_pos h

/-- The state in which the helm weighs a request for a window of the size in `v`. -/
def State.hcwAsked (s : State) (v : Word) : State := s.modRl fun r => { r with hcwReq := fld v 0 9, hcwStat := 1 }

theorem exec_rlHcwRequest {s : State} (h : s.rl.st = 4) (hrun : s.helm.run = true) (v : Word) :
    exec (.rlHcwRequest v) s = .next (s.hcwAsked v).resizeHcw :=
  (if_pos h).trans (congrArg Host.Outcome.next (if_pos hrun))

/-- With neither job nor stow nor hosted area a size within the spec's is set. -/
theorem State.resizeHcw_set {s : State} (himg : s.job.img = none) (hbusy : s.stow.busy = false) (hhost : s.stow.hostBusy = false)
    (harea : s.stow.area = 0) (hsize : s.rl.hcwReq ≤ 256) (hlines : s.linesAbove s.rl.hcwReq = []) :
    s.resizeHcw = s.hcwGained.modRl fun r => { r with hcwSize := s.rl.hcwReq, hcwStat := 0 } := by
  have hidle : ¬ (s.job.img.isSome ∨ s.stow.busy ∨ s.stow.hostBusy) := by
    rw [himg, hbusy, hhost]
    decide
  unfold State.resizeHcw
  extract_lets n old set meets held s1
  have hroom : ¬ meets := fun hm => hm.2.1 harea
  rw [if_neg hidle, if_neg (Nat.not_lt.mpr hsize), if_neg hroom, if_neg (not_not.mpr hlines)]
  rfl

/-- What the window gains reads zero, with check values invalid; every other byte of the stacks is as it was. -/
theorem State.hcwGained_byte (s : State) (a : Nat) : let d := devByte a
    let gains := s.rl.hcwSize * 2 ^ 30 ≤ a ∧ a < s.rl.hcwReq * 2 ^ 30
    Map.get 0 (s.hcwGained.stk d.1).mem d.2 = (if gains then 0 else Map.get 0 (s.stk d.1).mem d.2) ∧
    Map.get false (s.hcwGained.stk d.1).crcV (d.2 / 4096) = (if gains then false else Map.get false (s.stk d.1).crcV (d.2 / 4096)) := by
  intro d gains
  unfold State.hcwGained
  split
  · next hless =>
    have hcov : (s.rl.hcwSize * 2 ^ 18 ≤ a / 4096 ∧ a / 4096 < s.rl.hcwSize * 2 ^ 18 + (s.rl.hcwReq - s.rl.hcwSize) * 2 ^ 18) ↔ gains := by
      simp only [gains]
      omega
    obtain ⟨hmem, hcrc⟩ := s.zeroGranules_byte (s.rl.hcwSize * 2 ^ 18) ((s.rl.hcwReq - s.rl.hcwSize) * 2 ^ 18) a
    exact ⟨hmem.trans (if_congr hcov rfl rfl), hcrc.trans (if_congr hcov rfl rfl)⟩
  · next hless =>
    have hnone : ¬ gains := by
      simp only [gains]
      omega
    rw [if_neg hnone, if_neg hnone]
    exact ⟨rfl, rfl⟩

/-! ## Requests of the host -/

/-- A request has arrived. -/
def State.arrived (s : State) : State := s.modRl fun r => { r with home := r.home + 1 }

/-- A request that comes while no other waits, and need not wait itself, is answered at once. -/
theorem hostReq_at_once {s s1 : State} {c : Instr} (hst : s.rl.st = 4) (hheld : s.rl.held = [])
    (hgo : s.arrived.mustWait [] { at_ := s.rl.home, line := s.lineOf c, c := c } = false) (hone : s.arrived.hostOne c = (s1, false)) :
    hostReq c s = .next (s1.modRl fun r => { r with held := [] }) := by
  refine (if_neg (not_not.mpr hst)).trans (congrArg Host.Outcome.next ?_)
  have hlist : s.arrived.rl.held = [] := hheld
  change s.arrived.serve [] (s.arrived.rl.held ++ _) = _
  rw [hlist, List.nil_append, State.serve, hgo, if_neg Bool.false_ne_true, hone]
  rfl

/-- A request that names no line waits for none. -/
theorem State.mustWait_no_line (s : State) (at_ : Nat) (c : Instr) : s.mustWait [] { at_ := at_, line := none, c := c } = false := rfl

theorem State.eq_modRl_held {s : State} (h : s.rl.held = []) : (s.modRl fun r => { r with held := [] }) = s := by
  rw [← h]
  rfl

theorem exec_cfgrd {s : State} (hst : s.rl.st = 4) (hheld : s.rl.held = []) (id off : Nat) : exec (.cfgrd id off) s =
    .next (if off % 8 = 0 ∧ off < 4096 then s.arrived.respond id 0 (wordBytes (s.rlReg off)) else s.arrived.unsupported id) := by
  refine (hostReq_at_once hst hheld rfl rfl).trans (congrArg Host.Outcome.next (State.eq_modRl_held ?_))
  split <;> exact hheld

theorem exec_cfgwr {s : State} (hst : s.rl.st = 4) (hheld : s.rl.held = []) (id off : Nat) (v : Word) : exec (.cfgwr id off v) s =
    .next ((if off % 8 = 0 ∧ off < 4096 then (s.arrived.cfgWrite off v).respond id 0 [] else s.arrived.unsupported id).modRl fun r =>
      { r with held := [] }) :=
  hostReq_at_once hst hheld rfl rfl

/-- Settles O44. -/
theorem riendlinkStates : Obligations.RiendlinkStates := by
  intro s
  refine ⟨fun h => ?_, fun h2 h5 => if_neg (not_or.mpr ⟨h2, h5⟩), fun h himg => ?_, fun h => if_neg h, fun h => if_pos h, fun h => if_neg h,
    fun h => ⟨fun fr q hq hdisc => ?_, fun fr q hq => ?_, fun f rest hf => ?_, fun hf => ?_, ?_, fun v x hv => ⟨?_, ?_⟩, fun v x hv w => ?_,
      fun v hrun himg => ?_, fun v hrun himg hbusy hhost harea => ?_, fun hheld => ⟨fun id off ha hlt => ?_, fun id off v hbad => ?_, fun id v => ?_⟩⟩,
    fun h => ⟨fun fr q => if_pos h, fun v w x => if_neg h, fun v => if_neg h, ?_, congrArg Host.Outcome.next (if_neg h),
      fun id off v => ⟨if_pos h, if_pos h⟩⟩⟩
  · have hposts := s.rlUp_posts
    exact ⟨_, exec_rlLinkUp h, hposts.same (·.rl.st) fun _ _ _ _ => rfl, hposts.same (·.rl.lanes) fun _ _ _ _ => rfl,
      hposts.same (·.rl.snoop) fun _ _ _ _ => rfl, hposts.same (·.rl.resend) fun _ _ _ _ => rfl,
      hposts.same (·.job) fun _ _ _ _ => rfl, hposts.same (·.tiles) fun _ _ _ _ => rfl⟩
  · have hdown := State.rlDown_downFrom himg 7
    exact ⟨_, if_pos h, hdown.st, hdown.reason, hdown.snoop, hdown.held, hdown.binv, hdown.ctr, hdown.ports⟩
  · exact ⟨_, exec_rlFrameReceive_bad h fr hq hdisc, rfl, rfl, h⟩
  · rw [exec_rlFrameReceive_good h fr hq]
    by_cases hseq : fr.seq = (s.rl.ackRx + 1) % 4096
    · exact ⟨_, if_pos hseq, fun _ => ⟨rfl, hseq.symm, rfl⟩, fun hne => absurd hseq hne, rfl⟩
    · exact ⟨_, if_neg hseq, fun heq => absurd heq hseq, fun _ => ⟨rfl, rfl⟩, rfl⟩
  · refine ⟨_, s.rl.fresh s.free f true, (exec_linkFrameSend s).trans (congrArg Host.Outcome.next (State.rlSend_again h hf)), rfl, rfl, rfl, rfl,
      rfl, rfl, ?_⟩
    exact State.countRl_ctr_self _ _ _
  · obtain ⟨k, hk, hsend⟩ := State.rlSend_new h hf
    refine ⟨_, s.rl.newFrame s.free, (exec_linkFrameSend s).trans (congrArg Host.Outcome.next hsend), ?_, rfl, ?_, rfl, rfl⟩
    · exact getLast?_drop_append_singleton s.rl.replay _ hk
    · rw [Rl.newFrame, List.length_map, List.length_range]
  · have hposts := State.readyFrom_posts ((s.modRl fun r => { r with st := 5, reason := 5 }).countRl 0x58 1) s
    refine ⟨_, exec_frameLockLoss h, hposts.same (·.rl.st) fun _ _ _ _ => rfl, hposts.same (·.rl.reason) fun _ _ _ _ => rfl,
      hposts.same (·.rl.replay) fun _ _ _ _ => rfl, (hposts.same (fun e => Map.get 0 e.rl.ctr 0x58) fun _ _ _ _ => rfl).trans ?_⟩
    exact State.countRl_ctr_self _ _ _
  · have hposts := s.msiWrite_posts hv x
    refine ⟨_, exec_rlMsiWrite h v 0 x, (hposts.same (fun e => Map.get 0 e.rl.msiA v) fun _ _ _ _ => rfl).trans ?_,
      (hposts.same (fun e => Map.get false e.rl.unmask v) fun _ _ _ _ => rfl).trans ?_, hposts.same (·.rl.msiD) fun _ _ _ _ => rfl⟩
    · exact Map.get_set_self _ _ _ _
    · exact Map.get_set_self _ _ _ _
  · rw [exec_rlMsiWrite h, State.msiWrite, if_neg (Nat.not_le.mpr hv), if_neg (by decide)]
  · rw [exec_rlMsiWrite h, State.msiWrite, if_pos hv]
  · rw [exec_rlHcwRequest h hrun]
    exact congrArg Host.Outcome.next (if_pos (.inl himg))
  · intro n gains hsize hlines
    rw [exec_rlHcwRequest h hrun, State.resizeHcw_set (s := s.hcwAsked v) himg hbusy hhost harea hsize hlines]
    have hrest := (s.hcwAsked v).hcwGained_rest
    refine ⟨_, rfl, rfl, rfl, ?_, ?_, ?_, fun hle => ?_, fun a => (s.hcwAsked v).hcwGained_byte a⟩
    · exact (congrArg (fun e : State => e.rl.snoop) hrest :)
    · exact (congrArg State.job hrest :)
    · exact (congrArg State.tiles hrest :)
    · have hsame : (s.hcwAsked v).hcwGained = s.hcwAsked v := if_neg (Nat.not_lt.mpr hle)
      exact (congrArg State.stks hsame :)
  · rw [exec_cfgrd h hheld, if_pos ⟨ha, hlt⟩]
    rfl
  · constructor
    · rw [exec_cfgrd h hheld, if_neg hbad]
      rfl
    · rw [exec_cfgwr h hheld, if_neg hbad]
      exact congrArg Host.Outcome.next (State.eq_modRl_held hheld)
  · constructor
    · rw [exec_cfgwr h hheld, if_pos (by decide)]
      exact congrArg Host.Outcome.next (State.eq_modRl_held hheld)
    · rw [exec_cfgwr h hheld, if_pos (by decide)]
      exact congrArg Host.Outcome.next (State.eq_modRl_held hheld)
  · exact (exec_linkFrameSend s).trans (congrArg Host.Outcome.next (if_pos h))

end Sys2Proof.Machine

/-! # What faults, completions and port changes leave of the islands (R411, R412, R431, R457)

A fault, the stop of a job, a completion or a port that changes state tells others and stops units; none of it moves the clocks, the power
manager, the pins, or the power state of a region or stack (`State.Steady`). -/

namespace Sys2Proof.Machine

/-- The power manager but for alerts that were raised, the service time, the pins, and the power states of regions and stacks are as
before; a sight at most ended. -/
structure State.Steady (a b : State) : Prop where
  power : { b.power with alerts := 0 } = { a.power with alerts := 0 }
  alerts : ∀ i, a.power.alerts.testBit i = true → b.power.alerts.testBit i = true
  hours : b.rel.hours = a.rel.hours
  sight : a.rel.sgRun = 0 → b.rel.sgRun = 0
  pins : b.pins = a.pins
  pwr : ∀ r, (b.region r).pwr = (a.region r).pwr
  stretch : ∀ r, (b.region r).stretch = (a.region r).stretch
  stk : ∀ k, (b.stk k).st = (a.stk k).st

namespace State.Steady

theorem refl (a : State) : a.Steady a := ⟨rfl, fun _ => id, rfl, id, rfl, fun _ => rfl, fun _ => rfl, fun _ => rfl⟩

theorem trans {a b c : State} (h : a.Steady b) (g : b.Steady c) : a.Steady c :=
  ⟨g.power.trans h.power, fun i hi => g.alerts i (h.alerts i hi), g.hours.trans h.hours, fun hs => g.sight (h.sight hs), g.pins.trans h.pins,
    fun r => (g.pwr r).trans (h.pwr r), fun r => (g.stretch r).trans (h.stretch r), fun k => (g.stk k).trans (h.stk k)⟩

theorem foldl {β : Type} {f : State → β → State} (hf : ∀ (s : State) b, s.Steady (f s b)) (l : List β) (s : State) : s.Steady (l.foldl f s) :=
  List.foldlRecOn (motive := fun e : State => s.Steady e) l f (refl s) fun e he b _ => he.trans (hf e b)

/-- An operation that leaves the five parts of the state whole. -/
theorem of_eq {a b : State} (hpower : b.power = a.power) (hrel : b.rel = a.rel) (hpins : b.pins = a.pins) (hregions : b.regions = a.regions)
    (hstks : b.stks = a.stks) : a.Steady b := by
  have hregion : ∀ r, b.region r = a.region r := fun r => by rw [State.region, State.region, hregions]
  have hstk : ∀ k, b.stk k = a.stk k := fun k => by rw [State.stk, State.stk, hstks]
  exact ⟨by rw [hpower], fun i hi => by rwa [hpower], by rw [hrel], fun hs => by rwa [hrel], hpins, fun r => by rw [hregion],
    fun r => by rw [hregion], fun k => by rw [hstk]⟩

/-- What the power manager holds, alerts apart. -/
theorem same_power {a b : State} (h : a.Steady b) {α : Type} (f : Power → α) (hf : ∀ (p : Power) n, f { p with alerts := n } = f p) :
    f b.power = f a.power :=
  (hf b.power 0).symm.trans ((congrArg f h.power).trans (hf a.power 0))

theorem modRel {a : State} {f : Rel → Rel} (hhours : (f a.rel).hours = a.rel.hours) (hsight : (f a.rel).sgRun = a.rel.sgRun) :
    a.Steady (a.modRel f) := ⟨rfl, fun _ => id, hhours, fun h => hsight.trans h, rfl, fun _ => rfl, fun _ => rfl, fun _ => rfl⟩

theorem modStk (a : State) (k : Nat) {f : Stack → Stack} (hf : ∀ x, (f x).st = x.st) : a.Steady (a.modStk k f) := by
  refine ⟨rfl, fun _ => id, rfl, id, rfl, fun _ => rfl, fun _ => rfl, fun u => ?_⟩
  rw [State.modStk_stk]
  split
  · next h => exact (hf _).trans (h ▸ rfl)
  · rfl

theorem modRegion (a : State) (r : Nat) {f : Region → Region} (hpwr : ∀ x, (f x).pwr = x.pwr) (hstretch : ∀ x, (f x).stretch = x.stretch) :
    a.Steady (a.modRegion r f) := by
  refine ⟨rfl, fun _ => id, rfl, id, rfl, fun u => ?_, fun u => ?_, fun _ => rfl⟩
  · rw [State.modRegion_region]
    split
    · next h => exact (hpwr _).trans (h ▸ rfl)
    · rfl
  · rw [State.modRegion_region]
    split
    · next h => exact (hstretch _).trans (h ▸ rfl)
    · rfl

end State.Steady

section

variable (s : State)

/-! ## Telling others -/

theorem State.Posts.steady {a b : State} (h : a.Posts b) : a.Steady b := by
  obtain ⟨_, _, _, rfl⟩ := h
  exact .of_eq rfl rfl rfl rfl rfl

theorem State.sendAlong_steady (es : List (Nat × Nat × Nat)) (mk : Nat → Sym) : s.Steady (s.sendAlong es mk) :=
  .of_eq (by simp) (by simp) (by simp) (by simp) (by simp)

theorem State.complete_steady (k st : Nat) (ws : List Word) : s.Steady (s.complete k st ws) :=
  .of_eq (by simp) (by simp) (by simp) (by simp) (by simp)

theorem State.event_steady (opc : Nat) (ws : List Word) : s.Steady (s.event opc ws) :=
  .of_eq (by simp) (by simp) (by simp) (by simp) (by simp)

theorem State.fixTrigger_steady (src : Nat) (j : Bool) : s.Steady (s.fixTrigger src j) := by
  unfold State.fixTrigger
  extract_lets d wide far at_ s1
  have h1 : s.Steady s1 := .of_eq rfl rfl rfl rfl rfl
  split
  · exact .refl s
  · split
    · exact h1.trans (s1.sendAlong_steady _ _)
    · exact h1

theorem State.alert_steady (b : Nat) : s.Steady (s.alert b) := by
  unfold State.alert
  split
  · exact .refl s
  · refine .trans (b := s.modPower fun p => { p with alerts := p.alerts ||| 2 ^ b }) ?_ (State.raiseMsi_posts _ 66).steady
    refine ⟨rfl, fun i hi => ?_, rfl, id, rfl, fun _ => rfl, fun _ => rfl, fun _ => rfl⟩
    rw [State.modPower, Nat.testBit_or, hi, Bool.true_or]

/-! ## The stop of a job -/

theorem State.stopStore_steady (x : Xfer) (i : Nat) (keep : Option Nat) : s.Steady (s.stopStore x i keep) := by
  have hst : ∀ (m : Stack) (free i g : Nat) (parts : List (Nat × Nat)), (m.stopped free i g parts).st = m.st := by
    intro m free i g parts
    unfold Stack.stopped
    extract_lets f y
    split <;> rfl
  unfold State.stopStore
  extract_lets base cfg l
  split
  · exact .foldl (fun s b => .modStk s _ fun m => hst m _ _ _ _) _ _
  · exact .refl s

theorem State.stopTile_steady (t : Nat) : s.Steady (s.stopTile t) := by
  have hstores : s.Steady (s.stopStores t) :=
    .foldl (f := fun s (p : Xfer × Nat) => s.stopStore p.1 p.2) (fun s p => s.stopStore_steady p.1 p.2 none) _ s
  exact hstores.trans (.of_eq rfl rfl rfl rfl rfl)

theorem State.stopUnits_steady : s.Steady s.stopUnits :=
  .trans (.foldl State.stopTile_steady _ s)
    (.trans (.foldl (f := fun s c => s.modCluster c fun x => { x.countWait s.cycle with waiting := [] })
      (fun _ _ => .of_eq rfl rfl rfl rfl rfl) _ _) (.of_eq rfl rfl rfl rfl rfl))

theorem State.wildUnits_steady (tiles clusters_ : List Nat) : s.Steady (s.wildUnits tiles clusters_) := by
  have hwild : ∀ (s : State) (t : Nat),
      s.Steady (if s.rel.fencedTiles.contains t then s else s.modTile t fun x => x.wild s.free t) := by
    intro s t
    split
    · exact .refl s
    · exact .of_eq rfl rfl rfl rfl rfl
  exact .trans (.foldl hwild _ s) (.foldl (fun s c => (.of_eq rfl rfl rfl rfl rfl : s.Steady (s.modCluster c _))) _ _)

theorem State.sightCut_steady : s.Steady s.sightCut := by
  unfold State.sightCut
  split
  · refine (s.wildUnits_steady s.job.tiles s.job.clusters).trans ?_
    exact ⟨rfl, fun _ => id, rfl, fun _ => rfl, rfl, fun _ => rfl, fun _ => rfl, fun _ => rfl⟩
  · exact .refl s

theorem State.stepLost_steady : s.Steady s.stepLost := by
  unfold State.stepLost
  extract_lets s1
  have h1 : s.Steady s1 := .of_eq rfl rfl rfl rfl rfl
  split
  · split
    · exact h1.trans (s1.complete_steady _ _ _)
    · exact h1
  · exact .refl s

theorem State.stopJob_steady : s.Steady s.stopJob := by
  refine (s.stopUnits_steady.trans (State.sightCut_steady _)).trans ?_
  unfold State.stopJob
  extract_lets s1 s2 waiting s3 s4 s5
  have h5 : s.stopUnits.sightCut.Steady s5 := .of_eq rfl rfl rfl rfl rfl
  exact h5.trans (.trans (.foldl (fun s k => s.complete_steady k 0x0E []) _ _) (State.stepLost_steady _))

theorem State.jobFault_steady (level unit cause detail origin : Nat) (skip : Option Nat) :
    s.Steady (s.jobFault level unit cause detail origin skip) := by
  unfold State.jobFault
  extract_lets q s1 code s2 s3
  have h2 : s.Steady s2 := .trans (b := s1) (.of_eq rfl rfl rfl rfl rfl) (s1.sendAlong_steady _ _)
  have h3 : s2.Steady s3 := by
    refine .trans ?_ (State.stopJob_steady _)
    split
    · exact s2.fixTrigger_steady 2 true
    · exact .refl s2
  have htold : ∀ ws, s3.Steady (((s3.raiseMsi 64).alert 4).event 0xE0 ws) := fun ws =>
    .trans (s3.raiseMsi_posts 64).steady ((State.alert_steady _ 4).trans (State.event_steady _ _ _))
  split
  · exact s.fixTrigger_steady 2 false
  · split
    · split <;> exact .of_eq rfl rfl rfl rfl rfl
    · exact h2.trans (h3.trans (htold _))

theorem State.devFault_steady (cause detail : Nat) (skip origin : Option Nat) : s.Steady (s.devFault cause detail skip origin) :=
  .trans (b := s.modRel _) (.modRel rfl rfl) (State.jobFault_steady _ _ _ _ _ _ _)

/-! ## Ports -/

theorem State.measure_steady (p : Nat) : s.Steady (s.measure p) := by
  have h := s.measure_rest p
  exact .of_eq (congrArg State.power h :) (congrArg State.rel h :) (congrArg State.pins h :) (congrArg State.regions h :) (congrArg State.stks h :)

theorem State.readyFrom_steady (b : State) : s.Steady (s.readyFrom b) := (s.readyFrom_posts b).steady

theorem State.reroute_steady (p : Nat) : s.Steady (s.reroute p) :=
  State.reroute_ind (P := fun e => s.Steady e) (.of_eq rfl rfl rfl rfl rfl) (fun _ _ _ _ h => h.trans (.of_eq rfl rfl rfl rfl rfl))
    fun a _ _ h => h.trans (a.devFault_steady _ _ _ _)

theorem State.stowCheck_steady : s.Steady s.stowCheck := by
  unfold State.stowCheck
  split
  · unfold State.stowFail
    extract_lets at_ s1 s2
    have h2 : s.Steady s2 := .trans (b := s1) (.of_eq rfl rfl rfl rfl rfl) (s1.devFault_steady _ _ _ _)
    split
    · exact h2
    · exact h2.trans (s2.event_steady _ _)
  · exact .refl s

theorem State.refreshPort_steady (p : Nat) : s.Steady (s.refreshPort p) := by
  unfold State.refreshPort
  split
  · split
    · exact .of_eq rfl rfl rfl rfl rfl
    · exact .refl s
  · split
    · exact .refl s
    · have hdrop : s.Steady (s.modPort p fun x => x.dropped 0 (if x.en then 9 else 8)) := .of_eq rfl rfl rfl rfl rfl
      refine hdrop.trans ?_
      exact (State.reroute_steady _ p).trans ((State.measure_steady _ p).trans (State.stowCheck_steady _))

theorem State.refreshPorts_steady : s.Steady s.refreshPorts := .foldl State.refreshPort_steady _ s

/-! ## Mailbox pages -/

theorem State.finishWakes_steady : s.Steady s.finishWakes := by
  unfold State.finishWakes
  split
  · exact .refl s
  · extract_lets e ready
    split
    · split
      · exact s.complete_steady _ _ _
      · split
        · exact s.complete_steady _ _ _
        · exact .refl s
    · exact .refl s

theorem State.drainPage_steady (k n : Nat) : s.Steady (s.drainPage k n) := .of_eq (by simp) (by simp) (by simp) (by simp) (by simp)

theorem State.serveBad_steady (k n : Nat) : s.Steady (s.serveBad k n) := .of_eq (by simp) (by simp) (by simp) (by simp) (by simp)

/-! ## Fences and the host window -/

theorem State.fence_steady (d : Nat × Nat) : s.Steady (s.fence d) := by
  unfold State.fence
  extract_lets s1
  have h1 : s.Steady s1 := .modRel rfl rfl
  split
  · exact h1.trans ⟨rfl, fun _ => id, rfl, id, rfl, fun _ => rfl, fun _ => rfl, fun _ => rfl⟩
  · refine .trans ?_ (.foldl (fun s t => (.of_eq rfl rfl rfl rfl rfl : s.Steady (s.modTile t _))) _ _)
    exact h1.trans (.modRel rfl rfl)
  · exact h1.trans (.modRel rfl rfl)
  · exact h1.trans (.modRel rfl rfl)

theorem State.commitFences_steady : s.Steady s.commitFences := by
  unfold State.commitFences
  split
  · refine .foldl (fun s d => ?_) _ _
    split
    · exact .refl s
    · exact s.fence_steady d
  · exact .refl s

theorem State.zeroGranules_steady (lo n : Nat) : s.Steady (s.zeroGranules lo n) := by
  rw [State.zeroGranules_eq]
  refine .foldl (fun s k => ?_) _ s
  unfold State.zeroStack
  split
  · exact .refl s
  · exact .modStk s k fun _ => rfl

theorem State.ask_steady (kind line own : Nat) : s.Steady (s.ask kind line own) := by
  unfold State.ask
  split <;> exact .of_eq rfl rfl rfl rfl rfl

theorem State.sendBinv_steady (l : List Nat) : s.Steady (s.sendBinv l) :=
  .foldl (fun s _ => .trans (b := s.modRl _) (.of_eq rfl rfl rfl rfl rfl) (State.ask_steady _ _ _ _)) _ s

theorem State.hcwGained_steady : s.Steady s.hcwGained := by
  unfold State.hcwGained
  split
  · exact s.zeroGranules_steady _ _
  · exact .refl s

theorem State.resizeHcw_steady : s.Steady s.resizeHcw := by
  obtain ⟨st, heq⟩ | ⟨-, heq⟩ | heq := s.resizeHcw_cases
  · rw [heq]
    exact .of_eq rfl rfl rfl rfl rfl
  · rw [heq]
    exact .trans (b := s.modRl fun r => { r with hcwStat := 1 }) (.of_eq rfl rfl rfl rfl rfl) (State.sendBinv_steady _ _)
  · rw [heq]
    exact s.hcwGained_steady.trans (.of_eq rfl rfl rfl rfl rfl)

theorem State.retryHcw_steady : s.Steady s.retryHcw := by
  unfold State.retryHcw
  split
  · exact s.resizeHcw_steady
  · exact .refl s

end

end Sys2Proof.Machine

/-! # The power manager, the limiters, heat and the ledger (R416 to R438) -/

namespace Sys2Proof.Machine

/-! ## Changes of every region or stack -/

theorem State.forAll_modRegion_region (F : Nat → Region → Region) (n : Nat) (s : State) {u : Nat} (hu : u < n) :
    (s.forAll (List.range n) fun s r => s.modRegion r (F r)).region u = F u (s.region u) :=
  State.forAll_once State.region (fun s r => s.modRegion_region_self r (F r)) (fun s r u h => s.modRegion_region_ne r u (F r) h) List.nodup_range s
    (List.mem_range.mpr hu)

theorem State.forAll_modStk_stk (F : Nat → Stack → Stack) (n : Nat) (s : State) {u : Nat} (hu : u < n) :
    (s.forAll (List.range n) fun s k => s.modStk k (F k)).stk u = F u (s.stk u) :=
  State.forAll_once State.stk (fun s k => s.modStk_stk_self k (F k)) (fun s k u h => s.modStk_stk_ne k u (F k) h) List.nodup_range s
    (List.mem_range.mpr hu)

/-- A quantity that no step changes is as before. -/
theorem State.forAll_same {α : Type} (f : State → α) (l : List Nat) (g : State → Nat → State) (hg : ∀ s b, f (g s b) = f s) (s : State) :
    f (s.forAll l g) = f s := foldl_same f hg l s

/-- Nothing but regions and stacks differs. -/
def State.OnlyDies (a b : State) : Prop := ∃ regions stks, b = { a with regions := regions, stks := stks }

theorem State.OnlyDies.refl (a : State) : a.OnlyDies a := ⟨_, _, rfl⟩

theorem State.OnlyDies.trans {a b c : State} (h : a.OnlyDies b) (g : b.OnlyDies c) : a.OnlyDies c := by
  obtain ⟨_, _, rfl⟩ := h
  obtain ⟨_, _, rfl⟩ := g
  exact ⟨_, _, rfl⟩

theorem State.OnlyDies.foldl {β : Type} {f : State → β → State} (hf : ∀ (s : State) b, s.OnlyDies (f s b)) (l : List β) (s : State) :
    s.OnlyDies (l.foldl f s) :=
  List.foldlRecOn (motive := fun e : State => s.OnlyDies e) l f (refl s) fun e he b _ => he.trans (hf e b)

theorem State.modRegion_onlyDies (s : State) (r : Nat) (f : Region → Region) : s.OnlyDies (s.modRegion r f) := ⟨_, _, rfl⟩

theorem State.modStk_onlyDies (s : State) (k : Nat) (f : Stack → Stack) : s.OnlyDies (s.modStk k f) := ⟨_, _, rfl⟩

/-- What the statement calls the same: tiles, clusters, job, ports and chronometer. -/
def State.SameWork (a b : State) : Prop :=
  b.tiles = a.tiles ∧ b.clusters = a.clusters ∧ b.job = a.job ∧ b.ports = a.ports ∧ b.power.chrono = a.power.chrono

theorem State.OnlyDies.sameWork {a b : State} (h : a.OnlyDies b) : a.SameWork b := by
  obtain ⟨_, _, rfl⟩ := h
  exact ⟨rfl, rfl, rfl, rfl, rfl⟩

theorem State.OnlyAlerts.sameWork {a b : State} (h : a.OnlyAlerts b) : a.SameWork b := by
  obtain ⟨_, _, rfl⟩ := h
  exact ⟨rfl, rfl, rfl, rfl, rfl⟩

theorem State.SameWork.trans {a b c : State} (h : a.SameWork b) (g : b.SameWork c) : a.SameWork c := by
  obtain ⟨h1, h2, h3, h4, h5⟩ := h
  obtain ⟨g1, g2, g3, g4, g5⟩ := g
  exact ⟨g1.trans h1, g2.trans h2, g3.trans h3, g4.trans h4, g5.trans h5⟩

/-! ## The running step (R416) -/

/-- The running step that `updateRun` sets. -/
def Power.runNext (p : Power) : Nat := if p.recover then min p.want p.run else p.want

theorem State.eq_of_rest_regions {a b : State} (h : { b with regions := [] } = { a with regions := [] }) : b = { a with regions := b.regions } :=
  congrArg (fun e : State => { e with regions := b.regions }) h

/-- A step applied to every awake die changes the regions and the running step. -/
theorem State.applyRun_eq (s : State) (n : Nat) (now : Bool) : ∃ regions, s.applyRun n now = { s with
    power := { s.power with run := n }, regions := regions } := by
  have hrest := State.forAll_same (fun e : State => { e with regions := [] }) (List.range 16)
    (fun s r => s.modRegion r fun x => x.takeStep n now) (fun _ _ => rfl) (s.modPower fun p => { p with run := n })
  exact ⟨_, State.eq_of_rest_regions hrest⟩

theorem State.updateRun_eq (s : State) : ∃ regions, s.updateRun = { s with
    power := { s.power with run := s.power.runNext }, regions := regions } := s.applyRun_eq s.power.runNext false

/-! ## The division of the cap (R416, R420) -/

theorem foldl_max_ge (l : List Nat) (a : Nat) : a ≤ l.foldl max a :=
  List.foldlRecOn (motive := fun e : Nat => a ≤ e) l max le_rfl fun _ he _ _ => he.trans (le_max_left _ _)

theorem foldl_max_mem (l : List Nat) (a : Nat) : l.foldl max a = a ∨ l.foldl max a ∈ l := by
  induction l generalizing a with
  | nil => exact .inl rfl
  | cons x l ih =>
    rw [List.foldl_cons, List.mem_cons]
    obtain h | h := ih (max a x)
    · rw [h]
      exact (max_choice a x).imp_right .inl
    · exact .inr (.inr h)

theorem le_foldl_max {l : List Nat} {x : Nat} (hx : x ∈ l) (a : Nat) : x ≤ l.foldl max a := by
  induction l generalizing a with
  | nil => cases hx
  | cons y l ih =>
    rw [List.foldl_cons]
    obtain rfl | hx := List.mem_cons.mp hx
    · exact (le_max_right a x).trans (foldl_max_ge l _)
    · exact ih hx _

/-- The steps of the cap. -/
theorem mem_steps {n : Nat} : n ∈ (List.range 49).map (· + 16) ↔ 16 ≤ n ∧ n ≤ 64 := by
  rw [List.mem_map]
  constructor
  · rintro ⟨i, hi, rfl⟩
    have := List.mem_range.mp hi
    omega
  · rintro ⟨hlo, hhi⟩
    exact ⟨n - 16, List.mem_range.mpr (by omega), by omega⟩

/-- `cap_step` is the largest step whose compute draw fits the compute part, and 16 where none does. -/
theorem capShare_step (m : PowerSample) (cap more : Nat) : let q := capShare m cap more
    16 ≤ q.2.2.2 ∧ q.2.2.2 ≤ 64 ∧ (100 * (modelC m q.2.2.2 : Int) ≤ q.2.2.1 ∨ q.2.2.2 = 16) ∧
      ∀ j, q.2.2.2 < j → j ≤ 64 → q.2.2.1 < 100 * (modelC m j : Int) := by
  intro q
  have hstep : q.2.2.2 =
      (((List.range 49).map (· + 16)).filter fun n => decide (100 * (modelC m n : Int) ≤ q.2.2.1)).foldl max 16 := rfl
  generalize q.2.2.1 = c at hstep
  generalize q.2.2.2 = n at hstep
  have hlo : 16 ≤ n := hstep ▸ foldl_max_ge _ _
  have hmem := foldl_max_mem (((List.range 49).map (· + 16)).filter fun n => decide (100 * (modelC m n : Int) ≤ c)) 16
  rw [← hstep, List.mem_filter, decide_eq_true_iff, mem_steps] at hmem
  refine ⟨hlo, by omega, hmem.symm.imp_left And.right, fun j hj hj64 => ?_⟩
  by_contra hfits
  have hle := le_foldl_max (l := ((List.range 49).map (· + 16)).filter fun n => decide (100 * (modelC m n : Int) ≤ c)) (x := j)
    (List.mem_filter.mpr ⟨mem_steps.mpr ⟨by omega, hj64⟩, decide_eq_true (Int.not_lt.mp hfits)⟩) 16
  omega

theorem Power.linkOver_eq (p : Power) (m : PowerSample) : p.linkOver m = 100 * m.lnk - p.lnkL.getD (100 * m.lnk) := by
  unfold Power.linkOver
  cases p.lnkL with
  | none => exact (Nat.sub_self _).symm
  | some l => rfl

/-! ## The periods -/

/-- The power manager's registers at the end of a period. -/
def State.managed (s : State) (m : PowerSample) : State :=
  let q := capShare m s.power.cap (s.power.linkOver m)
  let s1 := s.modPower fun p => { p with
    capStep := q.2.2.2
    lnkL := some q.1.toNat
    memW := (q.2.1 / 100).toNat
    memLim := decide (q.2.1 < 100 * (m.dm : Int))
    capmiss := decide (s.power.cap < m.draw) && (p.capmiss || (decide (q.2.2.2 = 16) && decide (q.2.1 = 14 * (s.power.cap : Int)))) }
  s1.modPower fun p => { p with allow := p.allowed }

theorem exec_powerManagerPeriod {s : State} (h : s.islands = true) (m : PowerSample) :
    exec (.powerManagerPeriod m) s = .next (s.managed m).updateRun.capAlert := if_pos h

theorem State.capAlert_onlyAlerts (s : State) : s.OnlyAlerts s.capAlert := by
  unfold State.capAlert
  split
  · exact s.alert_onlyAlerts 3
  · exact .refl s

/-- The current limiter lowers its step, or raises it. -/
theorem exec_currentLimiterSample_lower {s : State} (h : s.islands = true) {avg : Nat} (havg : 200000 < avg) (hat : s.power.lowerAt ≤ s.now) :
    exec (.currentLimiterSample avg) s =
      .next (s.modPower fun p => { p with curStep := max 16 (p.curStep - 4), lowerAt := s.now + 1000 }).updateRun :=
  (if_pos h).trans (if_pos ⟨havg, hat⟩)

theorem exec_currentLimiterSample_raise {s : State} (h : s.islands = true) {avg : Nat} (havg : avg < 180000) (hat : s.power.raiseAt ≤ s.now) :
    exec (.currentLimiterSample avg) s =
      .next (s.modPower fun p => { p with curStep := min 64 (p.curStep + 1), raiseAt := s.now + 10000 }).updateRun :=
  (if_pos h).trans ((if_neg fun hall => by omega).trans (if_pos ⟨havg, hat⟩))

theorem exec_currentLimiterSample_rest {s : State} {avg : Nat} (hlo : 180000 ≤ avg) (hhi : avg ≤ 200000) :
    exec (.currentLimiterSample avg) s = .next s := by
  refine Eq.trans (if_congr Iff.rfl ((if_neg fun hall => ?_).trans (if_neg fun hall => ?_)) rfl) (ite_self _) <;> omega

/-! ## Temperatures -/

/-- Region `r` shows a sample's temperatures. -/
def thermRegion (m : ThermalSample) (r : Nat) (x : Region) : Region := { x with temp := m.dies.getD r 0, iotemp := m.ios.getD r 0 }

/-- Stack `k` shows a sample's temperature. -/
def thermStack (m : ThermalSample) (k : Nat) (x : Stack) : Stack := { x with temp := m.stks.getD k 0 }

/-- The regions show a sample. -/
def State.regionTemps (s : State) (m : ThermalSample) : State := s.forAll (List.range 16) fun s r => s.modRegion r (thermRegion m r)

/-- The stacks show a sample. -/
def State.stackTemps (s : State) (m : ThermalSample) : State := s.forAll (List.range 32) fun s k => s.modStk k (thermStack m k)

theorem State.setTemps_eq (s : State) (m : ThermalSample) : s.setTemps m = (s.regionTemps m).stackTemps m := rfl

theorem State.regionTemps_onlyDies (s : State) (m : ThermalSample) : s.OnlyDies (s.regionTemps m) :=
  .foldl (fun e r => e.modRegion_onlyDies r (thermRegion m r)) _ s

theorem State.stackTemps_onlyDies (s : State) (m : ThermalSample) : s.OnlyDies (s.stackTemps m) :=
  .foldl (fun e k => e.modStk_onlyDies k (thermStack m k)) _ s

theorem State.setTemps_onlyDies (s : State) (m : ThermalSample) : s.OnlyDies (s.setTemps m) :=
  (s.regionTemps_onlyDies m).trans (State.stackTemps_onlyDies _ m)

theorem State.regionTemps_stk (s : State) (m : ThermalSample) (k : Nat) : (s.regionTemps m).stk k = s.stk k :=
  State.forAll_same (fun e : State => e.stk k) (List.range 16) (fun s r => s.modRegion r (thermRegion m r)) (fun _ _ => rfl) s

theorem State.stackTemps_region (s : State) (m : ThermalSample) (r : Nat) : (s.stackTemps m).region r = s.region r :=
  State.forAll_same (fun e : State => e.region r) (List.range 32) (fun s k => s.modStk k (thermStack m k)) (fun _ _ => rfl) s

theorem State.setTemps_region (s : State) (m : ThermalSample) {r : Nat} (hr : r < 16) : (s.setTemps m).region r = thermRegion m r (s.region r) :=
  (State.stackTemps_region _ m r).trans (State.forAll_modRegion_region (thermRegion m) 16 s hr)

theorem State.setTemps_stk (s : State) (m : ThermalSample) {k : Nat} (hk : k < 32) : (s.setTemps m).stk k = thermStack m k (s.stk k) :=
  (State.forAll_modStk_stk (thermStack m) 32 _ hk).trans (congrArg (thermStack m k) (s.regionTemps_stk m k))

/-- Whether a stack counts as hot (R430). -/
def Stack.weighHeat (x : Stack) : Stack := { x with hot := if 95 < x.temp then true else if x.temp < 90 then false else x.hot }

/-- The stacks' heat is weighed. -/
def State.weighHeat (s : State) : State := s.forAll (List.range 32) fun s k => s.modStk k Stack.weighHeat

theorem State.weighHeat_onlyDies (s : State) : s.OnlyDies s.weighHeat := .foldl (fun e k => e.modStk_onlyDies k Stack.weighHeat) _ s

/-- The thermal step after a period whose hottest die is at `hot` (R430). -/
def State.thermNext (s : State) (hot : Nat) : Nat :=
  if s.target < hot then max 16 (s.power.thermStep - 2) else if hot + 2 < s.target then min 64 (s.power.thermStep + 1) else s.power.thermStep

/-- The state of a thermal control period before its alert. -/
def State.thermal (s : State) (m : ThermalSample) : State :=
  ((s.setTemps m).modPower fun p => { p with thermStep := s.thermNext (max (hottest m.dies) (hottest m.ios)) }).weighHeat

theorem exec_thermalControlPeriod {s : State} (h : s.islands = true) (m : ThermalSample) : exec (.thermalControlPeriod m) s =
    .next (if s.target < max (hottest m.dies) (hottest m.ios) then (s.thermal m).alert 1 else s.thermal m) := by
  refine (if_pos h).trans ?_
  have hstep : (s.setTemps m).power.thermStep = s.power.thermStep := by
    obtain ⟨_, _, htemps⟩ := s.setTemps_onlyDies m
    rw [htemps]
  unfold State.thermal State.thermNext State.modPower
  rw [← hstep]
  rfl

/-- A period changes the thermal step, the regions and the stacks. -/
theorem State.thermal_eq (s : State) (m : ThermalSample) : ∃ regions stks, s.thermal m = { s with
    power := { s.power with thermStep := s.thermNext (max (hottest m.dies) (hottest m.ios)) }, regions := regions, stks := stks } := by
  obtain ⟨_, _, htemps⟩ := s.setTemps_onlyDies m
  obtain ⟨_, _, hheat⟩ := State.weighHeat_onlyDies
    ((s.setTemps m).modPower fun p => { p with thermStep := s.thermNext (max (hottest m.dies) (hottest m.ios)) })
  rw [State.thermal, hheat, htemps]
  exact ⟨_, _, rfl⟩

theorem State.weighHeat_region (s : State) (r : Nat) : s.weighHeat.region r = s.region r :=
  State.forAll_same (fun e : State => e.region r) (List.range 32) (fun s k => s.modStk k Stack.weighHeat) (fun _ _ => rfl) s

theorem State.weighHeat_stk (s : State) {k : Nat} (hk : k < 32) : s.weighHeat.stk k = (s.stk k).weighHeat :=
  State.forAll_modStk_stk (fun _ => Stack.weighHeat) 32 s hk

theorem State.thermal_region (s : State) (m : ThermalSample) {r : Nat} (hr : r < 16) :
    (s.thermal m).region r = thermRegion m r (s.region r) := by
  rw [State.thermal, State.weighHeat_region, State.modPower_region, s.setTemps_region m hr]

theorem State.thermal_stk (s : State) (m : ThermalSample) {k : Nat} (hk : k < 32) :
    (s.thermal m).stk k = (thermStack m k (s.stk k)).weighHeat := by
  rw [State.thermal, State.weighHeat_stk _ hk, State.modPower_stk, s.setTemps_stk m hk]

/-! ## Telemetry and ledger -/

/-- Region `r` shows a sample's input. -/
def inputRegion (m : TelemetrySample) (r : Nat) (x : Region) : Region := { x with watts := m.regW.getD r 0, mv := m.regMv.getD r 0 }

/-- The regions show a sample's input. -/
def State.regionInputs (s : State) (m : TelemetrySample) : State := s.forAll (List.range 16) fun s r => s.modRegion r (inputRegion m r)

/-- A telemetry sample is recorded (R437). -/
theorem exec_telemetrySample {s : State} (h : s.islands = true) (m : TelemetrySample) : exec (.telemetrySample m) s = .next
    ((((s.setTemps m.temps).setVin m.mv).modPower fun p => { p with telem := m, telemNs := p.chrono }).regionInputs m) := if_pos h

theorem State.sampled_eq (s : State) (m : TelemetrySample) : ∃ regions stks,
    (((s.setTemps m.temps).setVin m.mv).modPower fun p => { p with telem := m, telemNs := p.chrono }).regionInputs m = { s with
      power := { s.power with vin := m.mv, telem := m, telemNs := s.power.chrono }, regions := regions, stks := stks } := by
  obtain ⟨_, _, htemps⟩ := s.setTemps_onlyDies m.temps
  have hinputs : ∀ e : State, e.OnlyDies (e.regionInputs m) := fun e => .foldl (fun e r => e.modRegion_onlyDies r (inputRegion m r)) _ e
  obtain ⟨_, _, hin⟩ := hinputs (((s.setTemps m.temps).setVin m.mv).modPower fun p => { p with telem := m, telemNs := p.chrono })
  rw [hin, htemps]
  exact ⟨_, _, rfl⟩

/-- The energy of 10 µs of activity (R438). -/
def Power.spent (p : Power) (acts : List Nat) : Nat := ((acts.zipIdx).map fun q => q.1 * p.coefs.getD q.2 (Config.ledgerCoef q.2)).sum

theorem exec_ledgerAccumulate_no_job {s : State} (h : s.islands = true) (hjob : s.job.img = none) (acts : List Nat) :
    exec (.ledgerAccumulate acts) s = .next (s.modPower fun p => { p with total := p.total + BitVec.ofNat 64 (s.power.spent acts) }) :=
  (if_pos h).trans (if_pos (by rw [hjob]; rfl))

theorem exec_ledgerAccumulate_job {s : State} (h : s.islands = true) (hjob : s.job.img.isSome = true) (acts : List Nat) : ∃ acct,
    exec (.ledgerAccumulate acts) s = .next (s.modPower fun p => { p with
      total := p.total + BitVec.ofNat 64 (s.power.spent acts)
      ledger := p.ledger + BitVec.ofNat 64 (s.power.spent acts)
      acct := acct }) :=
  ⟨_, (if_pos h).trans (if_neg (by rw [Option.isNone_iff_eq_none, ← Option.not_isSome_iff_eq_none, hjob]; decide))⟩

end Sys2Proof.Machine

/-! # The thermal trip (R431, R432)

The trip stops every region and rests every stack before anything is told (`State.tripped`); what follows is steady. -/

namespace Sys2Proof.Machine

/-- What every step of a fold keeps and one step of it brings holds at the end. -/
theorem foldl_of_mem {α β : Type} {P : α → Prop} {f : α → β → α} {l : List β} {b : β} (hb : b ∈ l) (hbring : ∀ a, P (f a b))
    (hkeep : ∀ a c, P a → P (f a c)) (a : α) : P (l.foldl f a) := by
  induction l generalizing a with
  | nil => cases hb
  | cons c l ih =>
    obtain rfl | hb := List.mem_cons.mp hb
    · exact List.foldlRecOn l f (hbring a) fun e he d _ => hkeep e d he
    · exact ih hb (f a c)

/-! ## Stacks rest -/

/-- A stack that is neither training nor ready (R218). -/
def Stack.Rests (x : Stack) : Prop := x.st ≠ 1 ∧ x.st ≠ 2

theorem Stack.rest_rests (x : Stack) : x.rest.Rests := by
  unfold Stack.rest
  split
  · exact ⟨(by decide : (3 : Nat) ≠ 1), (by decide : (3 : Nat) ≠ 2)⟩
  · next h => exact not_or.mp h

theorem State.restStacks_stk (s : State) (r k : Nat) :
    (s.restStacks r).stk k = if k = 2 * r ∨ k = 2 * r + 1 then (s.stk k).rest else s.stk k := by
  rw [State.restStacks, State.modStk_stk]
  by_cases h1 : k = 2 * r + 1
  · subst h1
    rw [if_pos rfl, if_pos (.inr rfl), State.modStk_stk_ne _ _ _ _ (by omega)]
  · rw [if_neg h1, State.modStk_stk]
    by_cases h0 : k = 2 * r
    · subst h0
      rw [if_pos rfl, if_pos (.inl rfl)]
    · rw [if_neg h0, if_neg (not_or.mpr ⟨h0, h1⟩)]

/-- A region whose clocks a trip has stopped. -/
def Region.tripped (x : Region) : Region := { x.still with pwr := 4, goal := 1, rstBusy := false }

/-- One region stops. -/
def State.tripOne (s : State) (r : Nat) : State := (s.modRegion r Region.tripped).restStacks r

theorem State.tripAll_eq (s : State) : s.tripAll = s.forAll (List.range 16) State.tripOne := rfl

theorem State.tripAll_onlyDies (s : State) : s.OnlyDies s.tripAll :=
  .foldl (f := State.tripOne) (fun _ _ => ⟨_, _, rfl⟩) _ s

theorem State.tripAll_region (s : State) {r : Nat} (hr : r < 16) : (s.tripAll.region r).pwr = 4 ∧ (s.tripAll.region r).stretch = false := by
  have hregion := State.forAll_once State.region (f := State.tripOne) (F := fun _ => Region.tripped)
    (fun s r => s.modRegion_region_self r Region.tripped) (fun s r u h => s.modRegion_region_ne r u Region.tripped h) List.nodup_range s
    (List.mem_range.mpr hr)
  rw [State.tripAll_eq, hregion]
  exact ⟨rfl, rfl⟩

theorem State.tripAll_stk (s : State) {k : Nat} (hk : k < 32) : (s.tripAll.stk k).Rests := by
  rw [State.tripAll_eq]
  refine foldl_of_mem (P := fun e : State => (e.stk k).Rests) (f := State.tripOne) (b := k / 2) (List.mem_range.mpr (by omega))
    (fun e => ?_) (fun e r he => ?_) s
  · rw [State.tripOne, State.restStacks_stk, if_pos (by omega)]
    exact Stack.rest_rests _
  · rw [State.tripOne, State.restStacks_stk]
    split
    · exact Stack.rest_rests _
    · exact he

/-! ## The trip -/

theorem State.setSensor_onlyDies (s : State) (kind idx temp : Nat) : s.OnlyDies (s.setSensor kind idx temp) := by
  unfold State.setSensor
  split
  · exact s.modRegion_onlyDies _ _
  · split
    · exact s.modRegion_onlyDies _ _
    · exact s.modStk_onlyDies _ _

/-- The module just after the trip, before anything is told. -/
def State.tripped (s : State) (kind idx temp : Nat) : State :=
  (((s.setSensor kind idx temp).modPower fun p => { p with trip := true }).tripAll).modRel fun r => { r with sgRun := 0, sgSaved := [] }

theorem State.tripped_eq (s : State) (kind idx temp : Nat) : ∃ regions stks, s.tripped kind idx temp = { s with
    power := { s.power with trip := true }, rel := { s.rel with sgRun := 0, sgSaved := [] }, regions := regions, stks := stks } := by
  obtain ⟨_, _, hsensor⟩ := s.setSensor_onlyDies kind idx temp
  obtain ⟨_, _, htrip⟩ := ((s.setSensor kind idx temp).modPower fun p => { p with trip := true }).tripAll_onlyDies
  rw [State.tripped, htrip, hsensor]
  exact ⟨_, _, rfl⟩

theorem State.tripped_region (s : State) (kind idx temp : Nat) {r : Nat} (hr : r < 16) :
    ((s.tripped kind idx temp).region r).pwr = 4 ∧ ((s.tripped kind idx temp).region r).stretch = false := by
  rw [State.tripped, State.modRel_region]
  exact State.tripAll_region _ hr

theorem State.tripped_stk (s : State) (kind idx temp : Nat) {k : Nat} (hk : k < 32) : ((s.tripped kind idx temp).stk k).Rests := by
  rw [State.tripped, State.modRel_stk]
  exact State.tripAll_stk _ hk

/-- The trip's alert is set and its fault raised. -/
def State.tripTold (s : State) (kind idx temp : Nat) : State :=
  (((s.tripped kind idx temp).readyFrom s).alert 2).devFault 0x46 (idx % 32 + kind * 2 ^ 8 + temp % 256 * 2 ^ 16)

/-- The trip's fix tick is set, the combine buffers are lost, a stow that comes in ends. -/
def State.tripFixed (s : State) (kind idx temp : Nat) : State :=
  let s3 := s.tripTold kind idx temp
  let s4 := if s3.dbg.latched ∧ s.job.img.isNone then s3
    else s3.modDbg fun d => { d with pendSrc := some 2, pendTick := s.now, pendJob := s.job.img.isSome }
  (s4.forAll s.job.tiles fun s t => s.modTile t Tile.loseMeets).modStow fun w => { w with hostBusy := false }

theorem State.tripNow_eq (s : State) (kind idx temp : Nat) : s.tripNow kind idx temp = (s.tripFixed kind idx temp).finishWakes := rfl

theorem State.tripFixed_steady (s : State) (kind idx temp : Nat) : (s.tripTold kind idx temp).Steady (s.tripFixed kind idx temp) := by
  unfold State.tripFixed
  extract_lets s3 s4
  have h4 : s3.Steady s4 := by
    simp only [s4]
    split
    · exact .refl s3
    · exact .of_eq rfl rfl rfl rfl rfl
  have hmeets : s4.Steady (s4.forAll s.job.tiles fun s t => s.modTile t Tile.loseMeets) :=
    .foldl (f := fun (s : State) t => s.modTile t Tile.loseMeets) (fun _ _ => .of_eq rfl rfl rfl rfl rfl) _ s4
  exact h4.trans (hmeets.trans (.of_eq rfl rfl rfl rfl rfl))

theorem State.tripFixed_job (s : State) (kind idx temp : Nat) : (s.tripFixed kind idx temp).job = (s.tripTold kind idx temp).job := by
  unfold State.tripFixed
  extract_lets s3 s4
  have h4 : s4.job = s3.job := by
    simp only [s4]
    split <;> rfl
  exact (State.forAll_same State.job s.job.tiles (fun s t => s.modTile t Tile.loseMeets) (fun _ _ => rfl) s4).trans h4

theorem State.finishWakes_job (s : State) : s.finishWakes.job = s.job := by
  unfold State.finishWakes
  split
  · rfl
  · extract_lets e ready
    split
    · split
      · exact State.complete_job _ _ _ _
      · split
        · exact State.complete_job _ _ _ _
        · rfl
    · rfl

/-- From the trip's alert on everything is steady. -/
theorem State.tripNow_steady (s : State) (kind idx temp : Nat) :
    (((s.tripped kind idx temp).readyFrom s).alert 2).Steady (s.tripNow kind idx temp) := by
  rw [State.tripNow_eq]
  exact (State.devFault_steady _ _ _ _ _).trans ((s.tripFixed_steady kind idx temp).trans (State.finishWakes_steady _))

theorem State.tripNow_steady_tripped (s : State) (kind idx temp : Nat) : (s.tripped kind idx temp).Steady (s.tripNow kind idx temp) :=
  (State.readyFrom_steady _ s).trans ((State.alert_steady _ 2).trans (s.tripNow_steady kind idx temp))

theorem State.tripNow_alert (s : State) (kind idx temp : Nat) : (s.tripNow kind idx temp).power.alerts.testBit 2 = true :=
  (s.tripNow_steady kind idx temp).alerts 2 (by rw [State.alert_testBit, decide_eq_true rfl, Bool.or_true])

/-- A loaded job that has not stopped stops with cause `TRIP`. -/
theorem State.tripNow_stops {s : State} (himg : s.job.img.isSome = true) (hjs : s.job.js ≠ 6) (kind idx temp : Nat) :
    (s.tripNow kind idx temp).job.js = 6 ∧ (s.tripNow kind idx temp).job.prim.cause = 0x46 := by
  have hjob : (((s.tripped kind idx temp).readyFrom s).alert 2).job = s.job := by
    obtain ⟨_, _, heq⟩ := s.tripped_eq kind idx temp
    have htripped : (s.tripped kind idx temp).job = s.job := by rw [heq]
    rw [(State.alert_sameUnits _ 2).job, State.readyFrom_job, htripped]
  have hstop := State.devFault_stoppedBy (s := ((s.tripped kind idx temp).readyFrom s).alert 2) 0x46
    (idx % 32 + kind * 2 ^ 8 + temp % 256 * 2 ^ 16) none none (hjob ▸ himg) (hjob ▸ hjs)
  have hend : (s.tripNow kind idx temp).job = (s.tripTold kind idx temp).job := by
    rw [State.tripNow_eq, State.finishWakes_job, State.tripFixed_job]
  obtain ⟨time, nsec, -, hprim⟩ := hstop.prim
  rw [hend]
  exact ⟨hstop.js, by rw [State.tripTold, hprim]⟩

/-- After a trip: the latch, the alert, the outputs, every region stopped, every stack at rest, no sight. -/
theorem State.tripNow_stands (s : State) (kind idx temp : Nat) : let s' := s.tripNow kind idx temp
    s'.power.trip = true ∧ s'.power.alerts.testBit 2 = true ∧ (s.shows = true → s'.thermtripL = .low ∧ s'.alertL = .low) ∧
      (∀ r < 16, (s'.region r).pwr = 4 ∧ (s'.region r).stretch = false) ∧ (∀ k < 32, (s'.stk k).Rests) ∧ s'.rel.sgRun = 0 := by
  have hsteady := s.tripNow_steady_tripped kind idx temp
  have halert := s.tripNow_alert kind idx temp
  have hregion := fun r hr => s.tripped_region kind idx temp (r := r) hr
  have hstk := fun k hk => s.tripped_stk kind idx temp (k := k) hk
  obtain ⟨_, _, heq⟩ := s.tripped_eq kind idx temp
  have hpower : (s.tripped kind idx temp).power = { s.power with trip := true } := by rw [heq]
  have htripped : (s.tripped kind idx temp).pins = s.pins := by rw [heq]
  have hsight : (s.tripped kind idx temp).rel.sgRun = 0 := by rw [heq]
  generalize s.tripped kind idx temp = a at *
  generalize s.tripNow kind idx temp = b at *
  have htrip : b.power.trip = true := (hsteady.same_power Power.trip fun _ _ => rfl).trans (by rw [hpower])
  have hon : b.power.on = s.power.on := (hsteady.same_power Power.on fun _ _ => rfl).trans (by rw [hpower])
  have hshows : b.shows = s.shows := by rw [State.shows, State.shows, hsteady.pins, htripped, hon]
  refine ⟨htrip, halert, fun h => ⟨?_, ?_⟩, fun r hr => ?_, fun k hk => ?_, hsteady.sight hsight⟩
  · rw [State.thermtripL, hshows, h, htrip]
    rfl
  · have hany : b.power.alerts ≠ 0 := fun h0 => by
      rw [h0, Nat.zero_testBit] at halert
      exact Bool.false_ne_true halert
    rw [State.alertL, hshows, h, decide_eq_true hany]
    rfl
  · obtain ⟨hpwr, hstretch⟩ := hregion r hr
    exact ⟨(hsteady.pwr r).trans hpwr, (hsteady.stretch r).trans hstretch⟩
  · rw [Stack.Rests, hsteady.stk k]
    exact hstk k hk

/-! ## The latch clears -/

/-- The regions that a trip stopped are asleep. -/
def State.wakeable (s : State) : State := (s.modPower fun p => { p with trip := false }).forAll (List.range 16) fun s r =>
  if (s.region r).pwr = 4 then s.modRegion r fun x => { x with pwr := 1, goal := 1 } else s

theorem State.clearTrip_eq {s : State} (htrip : s.power.trip = true) (hcool : s.cooled = true) (hdeep : s.power.deep ≠ 1) :
    s.clearTrip = s.wakeable.refreshPorts.readyFrom s := by
  have hnot : ¬ s.power.deep = 1 := hdeep
  unfold State.clearTrip
  rw [if_pos ⟨htrip, hcool⟩]
  exact congrArg (fun e : State => e.refreshPorts.readyFrom s) (if_neg hnot)

theorem State.wakeable_eq (s : State) : ∃ regions, s.wakeable = { s with power := { s.power with trip := false }, regions := regions } := by
  have hrest : ∀ e : State, ({ e.forAll (List.range 16) fun s r =>
      if (s.region r).pwr = 4 then s.modRegion r fun x => { x with pwr := 1, goal := 1 } else s with regions := [] } : State) =
      { e with regions := [] } := fun e => by
    refine State.forAll_same (fun e : State => { e with regions := [] }) _ _ (fun e r => ?_) e
    split <;> rfl
  exact ⟨_, State.eq_of_rest_regions (hrest (s.modPower fun p => { p with trip := false }))⟩

theorem State.wakeable_pwr (s : State) {r : Nat} (hr : r < 16) :
    (s.wakeable.region r).pwr = if (s.region r).pwr = 4 then 1 else (s.region r).pwr := by
  refine (congrArg Region.pwr (State.forAll_once State.region (F := fun _ x => if x.pwr = 4 then { x with pwr := 1, goal := 1 } else x)
    (fun e r => ?_) (fun e r u h => ?_) List.nodup_range _ (List.mem_range.mpr hr))).trans ?_
  · split
    · exact e.modRegion_region_self r _
    · rfl
  · split
    · exact e.modRegion_region_ne r u _ h
    · rfl
  · rw [State.modPower_region]
    split <;> rfl

/-- Every port is off or may leave `OFF`. -/
def State.PortsStay (s : State) : Prop := ∀ p < 32, (s.port p).st = 0 ∨ s.portAllowed p = true

/-- Where no port has to stop, a refresh of one lets it leave `OFF` at most. -/
theorem State.PortsStay.refreshPort {s : State} (h : s.PortsStay) {p : Nat} (hp : p < 32) :
    (s.refreshPort p).PortsStay ∧ (s.refreshPort p).tiles = s.tiles := by
  unfold State.refreshPort
  split
  · next hallowed =>
    split
    · refine ⟨fun q hq => ?_, rfl⟩
      by_cases hqp : q = p
      · subst hqp
        refine .inr (Eq.trans ?_ hallowed)
        unfold State.portAllowed
        rw [State.modPort_port_self]
        rfl
      · have hport := s.modPort_port_ne p q (fun x => { x with st := 1 }) hqp
        refine (h q hq).imp (fun hst => by rw [hport]; exact hst) fun hq => Eq.trans ?_ hq
        unfold State.portAllowed
        rw [hport]
        rfl
    · exact ⟨h, rfl⟩
  · next hallowed =>
    rw [if_pos ((h p hp).resolve_right hallowed)]
    exact ⟨h, rfl⟩

theorem State.PortsStay.refreshPorts {s : State} (h : s.PortsStay) : s.refreshPorts.tiles = s.tiles := by
  have hfold : s.refreshPorts = (List.range 32).foldl State.refreshPort s := rfl
  have hall : ((List.range 32).foldl State.refreshPort s).PortsStay ∧ ((List.range 32).foldl State.refreshPort s).tiles = s.tiles :=
    List.foldlRecOn (motive := fun e : State => e.PortsStay ∧ e.tiles = s.tiles) (List.range 32) State.refreshPort ⟨h, rfl⟩
      fun e he p hp => by
        obtain ⟨hstay, htiles⟩ := he
        obtain ⟨hstay', htiles'⟩ := hstay.refreshPort (List.mem_range.mp hp)
        exact ⟨hstay', htiles'.trans htiles⟩
  rw [hfold]
  exact hall.2

theorem State.portAllowed_congr {a b : State} {p : Nat} (hport : b.port p = a.port p) (hnet : b.net = a.net)
    (hoff : (b.region (p / 2)).pwr = 2 ↔ (a.region (p / 2)).pwr = 2) (hdeep : b.power.deep = a.power.deep)
    (hbrown : b.power.brown = a.power.brown) : b.portAllowed p = a.portAllowed p := by
  unfold State.portAllowed
  rw [hport, hnet, hdeep, hbrown, decide_eq_decide.mpr hoff.not]

theorem State.PortsStay.wakeable {s : State} (h : s.PortsStay) : s.wakeable.PortsStay := by
  obtain ⟨regions, heq⟩ := s.wakeable_eq
  intro p hp
  have hpwr := s.wakeable_pwr (r := p / 2) (by omega)
  have hoff : (s.wakeable.region (p / 2)).pwr = 2 ↔ (s.region (p / 2)).pwr = 2 := by
    rw [hpwr]
    split <;> omega
  have hport : s.wakeable.port p = s.port p := by rw [heq]; rfl
  have hnet : s.wakeable.net = s.net := by rw [heq]
  have hdeep : s.wakeable.power.deep = s.power.deep := by rw [heq]
  have hbrown : s.wakeable.power.brown = s.power.brown := by rw [heq]
  rw [hport, State.portAllowed_congr hport hnet hoff hdeep hbrown]
  exact h p hp

/-! ## The obligation -/

theorem exec_thermalTrip {s : State} (h : s.islands = true) (htrip : s.power.trip = false) {kind idx temp : Nat} (hkind : kind ≤ 2)
    (hidx : idx < (if kind = 2 then 32 else 16)) : exec (.thermalTrip kind idx temp) s =
      if temp < (if kind = 2 then 105 else 115) then .next s else .next (s.tripNow kind idx temp) := by
  refine (if_neg (Nat.not_lt.mpr hkind)).trans ((if_neg (Nat.not_le.mpr hidx)).trans (if_congr ?_ rfl rfl))
  rw [h, htrip]
  simp

theorem exec_devPwrStatTripClear {s : State} (h : s.regsOn = true) : exec .devPwrStatTripClear s = .next s.clearTrip := if_pos h

theorem State.runs_of_updateRun (s : State) : s.updateRun.power.run = if s.power.recover then min s.power.want s.power.run else s.power.want := by
  obtain ⟨_, heq⟩ := s.updateRun_eq
  rw [heq]
  rfl

/-- The step that a period sets for the cap, with the compute part as the statement writes it. -/
theorem State.managed_capStep (s : State) (m : PowerSample) :
    let c := (capShare m s.power.cap (100 * m.lnk - s.power.lnkL.getD (100 * m.lnk))).2.2.1
    let n := (s.managed m).power.capStep
    16 ≤ n ∧ n ≤ 64 ∧ (100 * (modelC m n : Int) ≤ c ∨ n = 16) ∧ ∀ j, n < j → j ≤ 64 → c < 100 * (modelC m j : Int) := by
  rw [← s.power.linkOver_eq m]
  exact capShare_step m s.power.cap (s.power.linkOver m)

/-- Settles O53. -/
theorem powerManagement : Obligations.PowerManagement := by
  refine ⟨fun s hon => ⟨fun m => ?_, fun avg havg hat => ?_, fun avg havg hat => ?_, fun avg hlo hhi => exec_currentLimiterSample_rest hlo hhi,
      fun m => ?_, fun m => ?_, fun acts => ?_, fun kind idx temp hkind hidx htrip => ⟨fun hcool => ?_, fun hhot => ?_⟩⟩,
    fun s hoff m avg th tl acts => ?_, fun s coefs => ⟨fun h => if_pos h, fun h => if_neg (by rw [h]; exact Bool.false_ne_true)⟩,
    fun s r hr => ?_, fun s hregs htrip => ⟨fun hwarm => ?_, fun hcool hdeep => ?_⟩⟩
  · obtain ⟨regions, hrun⟩ := (s.managed m).updateRun_eq
    obtain ⟨n, rl, halert⟩ := (s.managed m).updateRun.capAlert_onlyAlerts
    rw [hrun] at halert
    obtain ⟨hlo, hhi, hfits, hmax⟩ := s.managed_capStep m
    rw [exec_powerManagerPeriod hon, hrun, halert]
    exact ⟨_, rfl, ⟨rfl, rfl, rfl, rfl, rfl⟩, rfl, rfl, hlo, hhi, hfits, hmax, rfl⟩
  · obtain ⟨_, hrun⟩ := (s.modPower fun p => { p with curStep := max 16 (p.curStep - 4), lowerAt := s.now + 1000 }).updateRun_eq
    rw [exec_currentLimiterSample_lower hon havg hat, hrun]
    exact ⟨_, rfl, ⟨rfl, rfl, rfl, rfl, rfl⟩, rfl, rfl, rfl, rfl⟩
  · obtain ⟨_, hrun⟩ := (s.modPower fun p => { p with curStep := min 64 (p.curStep + 1), raiseAt := s.now + 10000 }).updateRun_eq
    rw [exec_currentLimiterSample_raise hon havg hat, hrun]
    exact ⟨_, rfl, ⟨rfl, rfl, rfl, rfl, rfl⟩, rfl, rfl, rfl, rfl⟩
  · refine ⟨_, exec_thermalControlPeriod hon m, ?_⟩
    obtain ⟨_, _, hthermal⟩ := s.thermal_eq m
    obtain ⟨n, rl, heq⟩ : (s.thermal m).OnlyAlerts
        (if s.target < max (hottest m.dies) (hottest m.ios) then (s.thermal m).alert 1 else s.thermal m) := by
      split
      · exact State.alert_onlyAlerts _ 1
      · exact .refl _
    have hregion := fun r (hr : r < 16) => s.thermal_region m hr
    have hstk := fun k (hk : k < 32) => s.thermal_stk m hk
    rw [heq]
    rw [hthermal] at hregion hstk ⊢
    refine ⟨⟨rfl, rfl, rfl, rfl, rfl⟩, fun h => if_pos h, fun h => (if_neg (by omega)).trans (if_pos h),
      fun h h' => (if_neg (by omega)).trans (if_neg (by omega)), fun r hr => ?_, fun k hk => ?_⟩
    · exact ⟨congrArg Region.temp (hregion r hr), congrArg Region.iotemp (hregion r hr)⟩
    · exact congrArg Stack.hot (hstk k hk)
  · obtain ⟨_, _, hsampled⟩ := s.sampled_eq m
    rw [exec_telemetrySample hon, hsampled]
    exact ⟨_, rfl, ⟨rfl, rfl, rfl, rfl, rfl⟩, rfl, rfl, rfl⟩
  · by_cases hjob : s.job.img = none
    · rw [exec_ledgerAccumulate_no_job hon hjob]
      exact ⟨_, rfl, ⟨rfl, rfl, rfl, rfl, rfl⟩, rfl, fun _ => rfl, fun h => by rw [hjob] at h; exact absurd h (by decide)⟩
    · have himg : s.job.img.isSome = true := Option.isSome_iff_ne_none.mpr hjob
      obtain ⟨acct, hexec⟩ := exec_ledgerAccumulate_job hon himg acts
      rw [hexec]
      refine ⟨_, rfl, ⟨rfl, rfl, rfl, rfl, rfl⟩, rfl, fun h => absurd h hjob, fun _ => ?_⟩
      exact (add_sub_cancel_left s.power.ledger _).trans (add_sub_cancel_left s.power.total _).symm
  · rw [exec_thermalTrip hon htrip hkind hidx, if_pos hcool]
  · rw [exec_thermalTrip hon htrip hkind hidx, if_neg (Nat.not_lt.mpr hhot)]
    obtain ⟨htripped, halert, houtputs, hregions, hstks, hsight⟩ := s.tripNow_stands kind idx temp
    exact ⟨_, rfl, htripped, halert, houtputs, hregions, hstks, hsight, fun himg hjs => State.tripNow_stops himg hjs kind idx temp⟩
  · have hstop : ¬ s.islands = true := by rw [hoff]; exact Bool.false_ne_true
    exact ⟨if_neg hstop, if_neg hstop, if_neg hstop, if_neg hstop, if_neg hstop⟩
  · have hregion : ¬ 16 ≤ r := Nat.not_le.mpr hr
    refine ⟨fun h => (if_neg hregion).trans (if_pos h), fun h => (if_neg hregion).trans (if_neg h), fun h => (if_neg hregion).trans (if_pos h),
      fun h => (if_neg hregion).trans (if_neg (by rw [h]; exact Bool.false_ne_true)), fun h => (if_neg hregion).trans (if_pos h),
      fun h => (if_neg hregion).trans (if_neg (by rw [h]; exact Bool.false_ne_true))⟩
  · rw [exec_devPwrStatTripClear hregs]
    exact congrArg Host.Outcome.next (if_neg fun h => by rw [hwarm] at h; exact Bool.false_ne_true h.2)
  · rw [exec_devPwrStatTripClear hregs, State.clearTrip_eq htrip hcool hdeep]
    have hsteady := (State.refreshPorts_steady s.wakeable).trans (State.readyFrom_steady _ s)
    obtain ⟨_, heq⟩ := s.wakeable_eq
    have hclear : s.wakeable.power.trip = false := by rw [heq]
    have htiles : s.wakeable.tiles = s.tiles := by rw [heq]
    refine ⟨_, rfl, (hsteady.same_power Power.trip fun _ _ => rfl).trans hclear, fun r hr => (hsteady.pwr r).trans (s.wakeable_pwr hr), fun hports => ?_⟩
    rw [State.readyFrom_tiles, (State.PortsStay.wakeable hports).refreshPorts, htiles]

end Sys2Proof.Machine

/-! # Input voltage, reference clock, resets and bring-up (R411, R429, R467, R468, R475, R510, R538) -/

namespace Sys2Proof.Machine

/-! ## A start from power-on (R467, R473) -/

/-- Between `a` and `b` the module has started anew: fuses, flash and fences are kept, SRAM and job are gone, every region is off. -/
structure State.StartsAnew (a b : State) : Prop where
  banks : b.helm.banks = a.helm.banks
  bank : b.helm.bank = a.helm.bank
  fuse : b.helm.fuse = a.helm.fuse
  fTiles : b.rel.fTiles = a.rel.fTiles
  failed : b.rel.failed = a.rel.failed
  retired : b.rel.retired = a.rel.retired
  run : b.helm.run = false
  stage : b.helm.stage = 0
  job : b.job = {}
  sp : ∀ t, (b.tile t).sp = []
  pwr : ∀ r, (b.region r).pwr = 2
  pending : b.pending = a.pending

/-- The fenced tiles of a start hold nothing. -/
theorem fencedStart_sp (l : List Nat) (t : Nat) : (Map.get {} (l.foldl (fun m t => Map.set {} m t { st := 9 }) ([] : Map Tile)) t).sp = [] := by
  refine List.foldlRecOn (motive := fun m : Map Tile => (Map.get {} m t).sp = []) l _ rfl fun m hm u _ => ?_
  rw [Map.get_set]
  split
  · rfl
  · exact hm

theorem State.cold_startsAnew (s : State) (k : Keep) : s.StartsAnew (s.cold k) :=
  ⟨rfl, rfl, rfl, rfl, rfl, rfl, rfl, rfl, rfl, fencedStart_sp _, fun _ => rfl, rfl⟩

/-- What a start from power-on kept and cleared stays so under a change elsewhere. -/
theorem State.StartsAnew.of_eq {s a b : State} (h : s.StartsAnew a) (hhelm : b.helm = a.helm) (hrel : b.rel = a.rel) (hjob : b.job = a.job)
    (htiles : b.tiles = a.tiles) (hregions : b.regions = a.regions) (hpending : b.pending = a.pending) : s.StartsAnew b :=
  ⟨by rw [hhelm, h.banks], by rw [hhelm, h.bank], by rw [hhelm, h.fuse], by rw [hrel, h.fTiles], by rw [hrel, h.failed],
    by rw [hrel, h.retired], by rw [hhelm, h.run], by rw [hhelm, h.stage], by rw [hjob, h.job],
    fun t => by rw [State.tile, htiles]; exact h.sp t, fun r => by rw [State.region, hregions]; exact h.pwr r, by rw [hpending, h.pending]⟩

theorem State.StartsAnew.posts {s a b : State} (h : s.StartsAnew a) (g : a.Posts b) : s.StartsAnew b := by
  obtain ⟨_, _, _, rfl⟩ := g
  exact h.of_eq rfl rfl rfl rfl rfl rfl

/-- The statement's conjunction. -/
theorem State.StartsAnew.all {s s' : State} (h : s.StartsAnew s') : s'.helm.banks = s.helm.banks ∧ s'.helm.bank = s.helm.bank ∧
    s'.helm.fuse = s.helm.fuse ∧ s'.rel.fTiles = s.rel.fTiles ∧ s'.rel.failed = s.rel.failed ∧ s'.rel.retired = s.rel.retired ∧
    s'.helm.run = false ∧ s'.helm.stage = 0 ∧ s'.job = {} ∧ (∀ t, (s'.tile t).sp = []) ∧ (∀ r, (s'.region r).pwr = 2) ∧
    s'.pending = s.pending :=
  ⟨h.banks, h.bank, h.fuse, h.fTiles, h.failed, h.retired, h.run, h.stage, h.job, h.sp, h.pwr, h.pending⟩

/-! ## Brownout (R429) -/

/-- The islands in a brownout, before the ports show it. -/
def State.brownStart (s : State) : State := (s.cold keepBrown).modPower fun p => { p with brown := true, brownF := s.power.brownF }

/-- A port that ran is `DOWN`. -/
def State.lostPort (s y : State) (k : Nat) : State := if (s.port k).st = 0 then y else y.modPort k fun x => { x with st := 6 }

theorem State.brownout_eq (s : State) : s.brownout = s.brownStart.forAll (List.range 32) s.lostPort := rfl

theorem State.eq_of_rest_ports {a b : State} (h : { b with ports := [] } = { a with ports := [] }) : b = { a with ports := b.ports } :=
  congrArg (fun e : State => { e with ports := b.ports }) h

theorem State.brownout_only_ports (s : State) : ∃ ports, s.brownout = { s.brownStart with ports := ports } := by
  have hrest := State.forAll_same (fun e : State => { e with ports := [] }) (List.range 32) s.lostPort
    (fun e k => by unfold State.lostPort; split <;> rfl) s.brownStart
  rw [s.brownout_eq]
  exact ⟨_, State.eq_of_rest_ports hrest⟩

theorem State.brownout_port (s : State) {p : Nat} (hp : p < 32) : (s.brownout.port p).st = if (s.port p).st = 0 then 0 else 6 := by
  have hport := State.forAll_once State.port (f := s.lostPort) (F := fun k x => if (s.port k).st = 0 then x else { x with st := 6 })
    (fun e k => by
      unfold State.lostPort
      split
      · rfl
      · exact e.modPort_port_self k _)
    (fun e k u h => by
      unfold State.lostPort
      split
      · rfl
      · exact e.modPort_port_ne k u _ h) List.nodup_range s.brownStart (List.mem_range.mpr hp)
  rw [s.brownout_eq, hport]
  split <;> rfl

theorem State.brownout_startsAnew (s : State) : s.StartsAnew s.brownout := by
  obtain ⟨_, heq⟩ := s.brownout_only_ports
  rw [heq]
  exact (s.cold_startsAnew keepBrown).of_eq rfl rfl rfl rfl rfl rfl

/-! ## The clamp (R429) -/

/-- The islands as the clamp finds them. -/
def State.clamped (s : State) (mv : Nat) : State := (s.setVin mv).modPower fun p => { p with clamp := true, recover := false }

theorem exec_uvClamp {s : State} (h : s.islands = true) {mv : Nat} (hmv : mv < 46000) :
    exec (.uvClamp mv) s = .next (((s.clamped mv).applyRun 16 true).alert 0) := if_pos ⟨h, hmv⟩

theorem State.applyRun_region (s : State) (n : Nat) (now : Bool) {r : Nat} (hr : r < 16) :
    (s.applyRun n now).region r = (s.region r).takeStep n now :=
  State.forAll_modRegion_region (fun _ x => x.takeStep n now) 16 (s.modPower fun p => { p with run := n }) hr

theorem Region.takeStep_now {x : Region} (h : x.pwr = 0) (n : Nat) : x.takeStep n true = { x with run := n, defer := none } := by
  rw [Region.takeStep, if_neg (not_not.mpr h), if_neg fun hall => hall.2 rfl]

/-! ## The boot (R475, R510) -/

/-- What the boot settles of the helm. -/
def Helm.booted (h : Helm) : Bool × Nat × Nat × Nat := (h.run, h.stage, h.bank, h.ver)

theorem State.drainPage_booted (s : State) (k n : Nat) : (s.drainPage k n).helm.booted = s.helm.booted := by
  induction n generalizing s with
  | zero => rfl
  | succ n ih =>
    unfold State.drainPage
    extract_lets p
    repeat' split
    · exact (ih _).trans (by rw [State.raiseMsi_helm]; rfl)
    · exact (ih _).trans (by rw [State.raiseMsi_helm]; rfl)
    · rfl
    · rfl

theorem State.postDone_booted (s : State) (k st : Nat) (ws : List Word) : (s.postDone k st ws).helm.booted = s.helm.booted := by
  unfold State.postDone
  extract_lets p w0 e s1 s2
  rw [State.drainPage_booted]
  rfl

theorem State.serveBad_booted (s : State) (k n : Nat) : (s.serveBad k n).helm.booted = s.helm.booted := by
  induction n generalizing s with
  | zero => rfl
  | succ n ih =>
    unfold State.serveBad
    split
    · rw [ih, State.postDone_booted]
      rfl
    · rfl

theorem State.commitFences_helm (s : State) : s.commitFences.helm = s.helm := by
  have hfence : ∀ (e : State) (d : Nat × Nat), (e.fence d).helm = e.helm := by
    intro e d
    unfold State.fence
    extract_lets s1
    split
    · rfl
    · exact State.forAll_same State.helm (clusterTiles _) (fun s t => s.modTile t fun x => { x with st := 9 }) (fun _ _ => rfl) _
    · rfl
    · rfl
  unfold State.commitFences
  split
  · refine foldl_same State.helm (fun e d => ?_) _ s
    split
    · rfl
    · exact hfence e d
  · rfl

theorem State.ask_helm (s : State) (kind line own : Nat) : (s.ask kind line own).helm = s.helm := by
  unfold State.ask
  split <;> rfl

theorem State.sendBinv_helm (s : State) (l : List Nat) : (s.sendBinv l).helm = s.helm := by
  unfold State.sendBinv
  refine foldl_same State.helm (fun e k => ?_) _ s
  exact (State.ask_helm _ 0 k 0).trans rfl

theorem State.hcwGained_helm (s : State) : s.hcwGained.helm = s.helm := (congrArg State.helm s.hcwGained_rest :)

theorem State.retryHcw_helm (s : State) : s.retryHcw.helm = s.helm := by
  unfold State.retryHcw
  split
  · obtain ⟨st, heq⟩ | ⟨-, heq⟩ | heq := s.resizeHcw_cases
    · rw [heq, State.modRl_helm]
    · rw [heq, State.sendBinv_helm, State.modRl_helm]
    · rw [heq, State.modRl_helm, State.hcwGained_helm]
  · rfl

/-- The firmware of bank `b` runs, and the pages have not been served yet. -/
def State.helmStarts (s : State) (b : Nat) : State :=
  ((s.modHelm fun h => { h with run := true, stage := 4, bank := b, ver := (Map.get {} h.banks b).ver, restart := none }).modPins
    fun p => { p with readyLow := false }).readyFrom s

/-- The firmware's start before the ready map is told. -/
theorem State.helmStarts_posts (s : State) (b : Nat) : ((s.modHelm fun h => { h with
    run := true, stage := 4, bank := b, ver := (Map.get {} h.banks b).ver, restart := none }).modPins
      fun p => { p with readyLow := false }).Posts (s.helmStarts b) := State.readyFrom_posts _ s

theorem State.helmStarts_pins (s : State) (b : Nat) : (s.helmStarts b).pins = { s.pins with readyLow := false } :=
  (s.helmStarts_posts b).same State.pins fun _ _ _ _ => rfl

theorem State.helmStarts_region (s : State) (b r : Nat) : (s.helmStarts b).region r = s.region r :=
  (s.helmStarts_posts b).same (fun e => e.region r) fun _ _ _ _ => rfl

/-- Every page is served. -/
def State.servePages (s : State) : State := s.forAll (List.range 64) fun s k => (s.drainPage k 300).serveBad k 32

theorem State.helmRuns_eq (s : State) (b : Nat) : s.helmRuns b = (s.helmStarts b).servePages.commitFences.retryHcw := rfl

theorem State.servePages_steady (s : State) : s.Steady s.servePages :=
  .foldl (fun s k => (s.drainPage_steady k 300).trans (State.serveBad_steady _ k 32)) _ s

theorem State.servePages_booted (s : State) : s.servePages.helm.booted = s.helm.booted :=
  State.forAll_same (fun e : State => e.helm.booted) (List.range 64) (fun s k => (s.drainPage k 300).serveBad k 32)
    (fun e k => (State.serveBad_booted _ k 32).trans (e.drainPage_booted k 300)) s

theorem State.helmRuns_steady (s : State) (b : Nat) : (s.helmStarts b).Steady (s.helmRuns b) := by
  rw [s.helmRuns_eq]
  exact (State.servePages_steady _).trans ((State.commitFences_steady _).trans (State.retryHcw_steady _))

theorem State.helmRuns_booted (s : State) (b : Nat) : (s.helmRuns b).helm.booted = (true, 4, b, (Map.get {} s.helm.banks b).ver) := by
  rw [s.helmRuns_eq, State.retryHcw_helm, State.commitFences_helm, State.servePages_booted]
  exact ((State.readyFrom_posts _ s).same (fun e => e.helm.booted) fun _ _ _ _ => rfl)

/-- A region that the helm brings up. -/
def Region.waking (x : Region) : Region := { x with pwr := 3, goal := 1 }

/-- A stack that trains. -/
def Stack.training (x : Stack) : Stack := if x.st = 4 then x else { x with st := 1 }

theorem State.bringUp_eq (s : State) : s.bringUp = (s.forAll (List.range 16) fun s r => s.modRegion r Region.waking).forAll (List.range 32)
    fun s k => s.modStk k Stack.training := rfl

theorem State.bringUp_onlyDies (s : State) : s.OnlyDies s.bringUp := by
  rw [s.bringUp_eq]
  exact .trans (.foldl (fun e r => e.modRegion_onlyDies r Region.waking) _ s) (.foldl (fun e k => e.modStk_onlyDies k Stack.training) _ _)

theorem State.bringUp_pwr (s : State) {r : Nat} (hr : r < 16) : (s.bringUp.region r).pwr = 3 := by
  have hstks := State.forAll_same (fun e : State => e.region r) (List.range 32) (fun s k => s.modStk k Stack.training) (fun _ _ => rfl)
    (s.forAll (List.range 16) fun s r => s.modRegion r Region.waking)
  have hregion := State.forAll_modRegion_region (fun _ => Region.waking) 16 s hr
  rw [s.bringUp_eq, hstks, hregion]
  rfl

/-- The module that boots bank `b`: the helm runs it, READY_OD is let go, every region wakes. -/
theorem State.boots (s : State) (b : Nat) : let s' := s.bringUp.helmRuns b
    s'.helm.run = true ∧ s'.helm.stage = 4 ∧ s'.helm.bank = b ∧ s'.helm.ver = (Map.get {} s.helm.banks b).ver ∧ s'.pins.readyLow = false ∧
      (s.pins.resetLow = false → s'.readyOd = .released) ∧ ∀ r < 16, (s'.region r).pwr = 3 := by
  have hsteady := s.bringUp.helmRuns_steady b
  have hbooted := s.bringUp.helmRuns_booted b
  have hpwr := fun r hr => s.bringUp_pwr (r := r) hr
  obtain ⟨_, _, hdies⟩ := s.bringUp_onlyDies
  have hhelm : s.bringUp.helm = s.helm := by rw [hdies]
  have hpins : s.bringUp.pins = s.pins := by rw [hdies]
  have hstart := s.bringUp.helmStarts_pins b
  have hregion := s.bringUp.helmStarts_region b
  rw [hpins] at hstart
  rw [hhelm] at hbooted
  generalize s.bringUp.helmRuns b = s' at *
  generalize s.bringUp.helmStarts b = a at *
  obtain ⟨hrun, hstage, hbank, hver⟩ := Prod.mk.inj hbooted |>.imp_right fun h => (Prod.mk.inj h).imp_right Prod.mk.inj
  have hreleased : s'.pins = { s.pins with readyLow := false } := hsteady.pins.trans hstart
  refine ⟨hrun, hstage, hbank, hver, by rw [hreleased], fun hreset => ?_, fun r hr => ?_⟩
  · rw [State.readyOd, hreleased, hreset, Bool.or_false, Bool.and_false]
    rfl
  · rw [hsteady.pwr r, hregion r]
    exact hpwr r hr

/-! ## The obligation -/

/-- The module after the clamp. -/
theorem State.clamp_stands (s : State) (mv : Nat) : let s' := ((s.clamped mv).applyRun 16 true).alert 0
    s'.power.clamp = true ∧ s'.power.run = 16 ∧ s'.power.vin = mv ∧ s'.power.alerts.testBit 0 = true ∧
      (∀ r < 16, (s.region r).pwr = 0 → (s'.region r).run = 16 ∧ (s'.region r).defer = none) ∧ s'.tiles = s.tiles ∧ s'.job = s.job := by
  have hregion := fun r hr => (s.clamped mv).applyRun_region 16 true (r := r) hr
  obtain ⟨_, heq⟩ := (s.clamped mv).applyRun_eq 16 true
  generalize (s.clamped mv).applyRun 16 true = b at *
  have halert := b.alert_testBit 0 0
  obtain ⟨n, rl, honly⟩ := b.alert_onlyAlerts 0
  have hpower : b.power = { s.power with vin := mv, clamp := true, recover := false, run := 16 } := by rw [heq]; rfl
  refine ⟨?_, ?_, ?_, by rw [halert, decide_eq_true rfl, Bool.or_true], fun r hr hpwr => ?_, ?_, ?_⟩
  · rw [honly, hpower]
  · rw [honly, hpower]
  · rw [honly, hpower]
  · have hrun := (hregion r hr).trans (Region.takeStep_now hpwr 16)
    rw [honly]
    exact ⟨congrArg Region.run hrun, congrArg Region.defer hrun⟩
  · rw [honly, heq]
    rfl
  · rw [honly, heq]
    rfl

/-- The module after a brownout, as the ready map's interrupt leaves it. -/
theorem State.brownout_stands {a s' : State} (h : a.brownout.Posts s') : a.StartsAnew s' ∧ s'.power.brown = true ∧ s'.power.chrono = a.power.chrono ∧
    s'.power.smbCap = a.power.smbCap ∧ s'.rel.hours = a.rel.hours ∧ ∀ p < 32, (s'.port p).st = if (a.port p).st = 0 then 0 else 6 := by
  have hport := fun p hp => a.brownout_port (p := p) hp
  refine ⟨a.brownout_startsAnew.posts h, ?_⟩
  obtain ⟨_, heq⟩ := a.brownout_only_ports
  obtain ⟨_, _, _, rfl⟩ := h
  refine ⟨?_, ?_, ?_, ?_, hport⟩ <;> rw [heq] <;> rfl

theorem exec_brownout {s : State} (hon : s.power.on = true) (hbrown : s.power.brown = false) {mv : Nat} (hmv : mv < 42000 ∨ 62000 < mv) :
    exec (.brownout mv) s = .next ((s.setVin mv).brownout.readyFrom s) := if_pos ⟨hon, by rw [hbrown]; decide, hmv⟩

theorem exec_brownoutRecovery {s : State} (hon : s.power.on = true) (hbrown : s.power.brown = true) (href : s.power.refOk = true)
    (hreset : s.pins.resetLow = false) {mv : Nat} (hlo : 48000 ≤ mv) (hhi : mv ≤ 59500) :
    exec (.brownoutRecovery mv) s = .next (s.setVin mv).restartCold := if_pos ⟨hon, hbrown, href, by rw [hreset]; decide, hlo, hhi⟩

theorem exec_refclkReturn {s : State} (hon : s.power.on = true) (href : s.power.refOk = false) {mv : Nat} (hlo : 48000 ≤ mv) (hhi : mv ≤ 59500) :
    exec (.refclkReturn mv) s = .next (if s.power.brown ∧ ¬ s.pins.resetLow then
      ((s.setVin mv).modPower fun p => { p with refOk := true }).restartCold else (s.setVin mv).modPower fun p => { p with refOk := true }) :=
  if_pos ⟨hon, by rw [href]; decide, hlo, hhi⟩

theorem exec_refclkLoss {s : State} (h : s.islands = true) : exec .refclkLoss s =
    .next (((s.modPower fun p => { p with refOk := false }).brownout.modPower fun p => { p with trip := s.power.trip }).readyFrom s) := if_pos h

theorem State.refclkLoss_stands (s : State) {s' : State}
    (h : ((s.modPower fun p => { p with refOk := false }).brownout.modPower fun p => { p with trip := s.power.trip }).Posts s') :
    s.StartsAnew s' ∧ s'.power.refOk = false ∧ s'.power.brown = true ∧ s'.power.trip = s.power.trip := by
  have hanew : (s.modPower fun p => { p with refOk := false }).StartsAnew
      ((s.modPower fun p => { p with refOk := false }).brownout.modPower fun p => { p with trip := s.power.trip }) :=
    (State.brownout_startsAnew _).of_eq rfl rfl rfl rfl rfl rfl
  obtain ⟨_, heq⟩ := (s.modPower fun p => { p with refOk := false }).brownout_only_ports
  refine ⟨?_, ?_⟩
  · have hposts := hanew.posts h
    exact ⟨hposts.banks, hposts.bank, hposts.fuse, hposts.fTiles, hposts.failed, hposts.retired, hposts.run, hposts.stage, hposts.job, hposts.sp,
      hposts.pwr, hposts.pending⟩
  · obtain ⟨_, _, _, rfl⟩ := h
    rw [heq]
    exact ⟨rfl, rfl, rfl⟩

theorem exec_resetLAssert {s : State} (hon : s.power.on = true) (hreset : s.pins.resetLow = false) : exec .resetLAssert s =
    .next (((s.cold { chrono := false, cap := false, align := true, bal := true, hours := true }).modPower fun p => { p with
      brown := s.power.brown, clamp := s.power.clamp, run := if s.power.clamp then 16 else 64 }).modPins
        fun n => { n with resetLow := true, smb := none }) := if_pos ⟨hon, by rw [hreset]; decide⟩

theorem exec_bootRomVerifyDone {s : State} (hstage : s.helm.stage = 1 ∨ s.helm.stage = 2) (hrestart : s.helm.restart = none) :
    exec .bootRomVerifyDone s = if s.helm.verifies s.helm.bank then .next (s.bringUp.helmRuns s.helm.bank)
      else if s.helm.verifies (1 - s.helm.bank) then .next (s.bringUp.helmRuns (1 - s.helm.bank))
      else .next (s.modHelm fun h => { h with stage := 5 }) := if_pos ⟨hstage, hrestart⟩

/-- The outputs under `RESET_L`. -/
theorem State.reset_outputs {s : State} (hon : s.power.on = true) (hreset : s.pins.resetLow = true) : s.readyOd = .low ∧ s.alertL = .released ∧
    s.thermtripL = .released ∧ (∀ a, s.smbAcks a = false) ∧ ∀ p, s.lanesRun p = false := by
  have hshows : s.shows = false := by
    rw [State.shows, hreset]
    exact Bool.and_false _
  refine ⟨?_, ?_, ?_, fun a => ?_, fun p => ?_⟩
  · rw [State.readyOd, hon, hreset]
    rfl
  · rw [State.alertL, hshows]
    rfl
  · rw [State.thermtripL, hshows]
    rfl
  · rw [State.smbAcks, hshows]
    exact Bool.false_and _
  · rw [State.lanesRun, hshows]
    rfl

/-- Settles O54. -/
theorem inputResetsAndBringUp : Obligations.InputResetsAndBringUp := by
  intro s
  refine ⟨fun mv => ⟨fun hon hmv => ⟨_, exec_uvClamp hon hmv, s.clamp_stands mv⟩, fun h => if_neg fun hall => ?_,
      fun hon hclamp hmv => if_pos ⟨hon, hclamp, hmv⟩, fun h => if_neg fun hall => ?_, fun hon hbrown hmv => ?_,
      fun hlo hhi => if_neg fun hall => by omega, fun hon hbrown href hreset hlo hhi => ?_, fun h => if_neg fun hall => ?_, fun hon hmv => ?_,
      fun h => if_neg fun hall => ?_, fun slot hoff hmv => ?_, fun slot hon => if_neg fun hall => hall.1 hon,
      fun hon href hlo hhi hbrown => ?_, fun hon href hlo hhi hbrown hreset => ?_⟩,
    fun h => ?_, fun h => if_neg (by rw [h]; exact Bool.false_ne_true), fun hon hreset => ?_, fun h => if_neg fun hall => ?_,
    fun slot => ⟨fun hreset => ?_, fun hreset => if_neg (by rw [hreset]; exact Bool.false_ne_true)⟩, fun v => rfl,
    fun chain => ⟨fun hreset hon => if_pos ⟨hreset, hon⟩, fun hreset => if_neg fun hall => ?_⟩,
    fun hon href hdeep hstage hlo hhi => if_pos ⟨hon, href, hdeep, hstage, hlo, hhi⟩, fun h => if_neg fun hall => ?_,
    fun hstage hrestart => ⟨fun hv => ?_, fun hv hv' => ?_, fun hv hv' => ?_⟩, fun h => if_neg fun hall => ?_⟩
  · obtain hoff | hmv := h
    · exact Bool.false_ne_true (hoff.symm.trans hall.1)
    · omega
  · obtain hoff | hmv := h
    · exact Bool.false_ne_true (hoff.symm.trans hall.2.1)
    · omega
  · obtain ⟨hanew, hrest⟩ := State.brownout_stands (State.readyFrom_posts (s.setVin mv).brownout s)
    exact ⟨_, exec_brownout hon hbrown hmv, hanew.all, hrest⟩
  · exact ⟨_, exec_brownoutRecovery hon hbrown href hreset hlo hhi,
      State.StartsAnew.all ((s.cold_startsAnew keepBrown).of_eq rfl rfl rfl rfl rfl rfl), rfl, rfl, rfl⟩
  · obtain hbrown | hmv := h
    · exact Bool.false_ne_true (hbrown.symm.trans hall.2.1)
    · omega
  · exact ⟨_, if_pos ⟨hon, hmv⟩, State.StartsAnew.all ((s.cold_startsAnew { chrono := false, cap := false, align := false, bal := false, hours := false }).of_eq
      rfl rfl rfl rfl rfl rfl), rfl, rfl, rfl, rfl, rfl⟩
  · obtain hoff | hmv := h
    · exact Bool.false_ne_true (hoff.symm.trans hall.1)
    · omega
  · refine ⟨_, if_pos ⟨by rw [hoff]; decide, hmv⟩, State.StartsAnew.all ((s.cold_startsAnew { chrono := false, cap := false, align := false, bal := false, hours := false }).of_eq
      rfl rfl rfl rfl rfl rfl), rfl, ?_, rfl, rfl⟩
    exact congrArg Drive.lowIf (Bool.or_true s.pins.resetLow)
  · rw [exec_refclkReturn hon href hlo hhi, if_neg fun hall => Bool.false_ne_true (hbrown.symm.trans hall.1)]
    rfl
  · rw [exec_refclkReturn hon href hlo hhi, if_pos ⟨hbrown, by rw [hreset]; decide⟩]
    exact ⟨_, rfl, State.StartsAnew.all ((s.cold_startsAnew keepBrown).of_eq rfl rfl rfl rfl rfl rfl), rfl, rfl, rfl⟩
  · obtain ⟨hanew, hrest⟩ := s.refclkLoss_stands (State.readyFrom_posts _ s)
    exact ⟨_, exec_refclkLoss h, hanew.all, hrest⟩
  · obtain ⟨hready, halert, htrip, hsmb, hlanes⟩ := State.reset_outputs (s := ((s.cold { chrono := false, cap := false, align := true, bal := true, hours := true }).modPower
      fun p => { p with brown := s.power.brown, clamp := s.power.clamp, run := if s.power.clamp then 16 else 64 }).modPins
        fun n => { n with resetLow := true, smb := none }) hon rfl
    exact ⟨_, exec_resetLAssert hon hreset, State.StartsAnew.all ((s.cold_startsAnew { chrono := false, cap := false, align := true, bal := true, hours := true }).of_eq
      rfl rfl rfl rfl rfl rfl), rfl, hready, halert, htrip, hsmb, hlanes, rfl, rfl, rfl⟩
  · obtain hlow | hoff := h
    · exact hall.2 hlow
    · exact Bool.false_ne_true (hoff.symm.trans hall.1)
  · exact ⟨_, if_pos hreset, rfl, rfl, rfl, rfl, rfl⟩
  · exact Bool.false_ne_true (hreset.symm.trans hall.1)
  · obtain ⟨hon, -, -, hstage, -⟩ := hall
    exact h.elim (fun hne => hne hstage) fun hoff => Bool.false_ne_true (hoff.symm.trans hon)
  · rw [exec_bootRomVerifyDone hstage hrestart, if_pos hv]
    exact ⟨_, rfl, s.boots _⟩
  · rw [exec_bootRomVerifyDone hstage hrestart, if_neg (by rw [hv]; exact Bool.false_ne_true), if_pos hv']
    exact ⟨_, rfl, s.boots _⟩
  · rw [exec_bootRomVerifyDone hstage hrestart, if_neg (by rw [hv]; exact Bool.false_ne_true),
      if_neg (by rw [hv']; exact Bool.false_ne_true)]
  · obtain ⟨hstage, hrestart⟩ := hall
    exact h.elim (fun hne => hstage.elim hne.1 hne.2) fun hne => hne hrestart

end Sys2Proof.Machine

/-! # One tick of the always-on clock (R411, R412, R457)

The chronometer and the service time move in `tickClocks` alone: everything else that a tick does, and every request of the host that it
lets go on, keeps both (`State.KeepsTime`). -/

namespace Sys2Proof.Machine

/-- The chronometer and the service time stand as before. -/
structure State.KeepsTime (a b : State) : Prop where
  chrono : b.power.chrono = a.power.chrono
  hours : b.rel.hours = a.rel.hours

namespace State.KeepsTime

theorem refl (a : State) : a.KeepsTime a := ⟨rfl, rfl⟩

theorem trans {a b c : State} (h : a.KeepsTime b) (g : b.KeepsTime c) : a.KeepsTime c := ⟨g.chrono.trans h.chrono, g.hours.trans h.hours⟩

theorem foldl {β : Type} {f : State → β → State} (hf : ∀ (s : State) b, s.KeepsTime (f s b)) (l : List β) (s : State) :
    s.KeepsTime (l.foldl f s) :=
  List.foldlRecOn (motive := fun e : State => s.KeepsTime e) l f (refl s) fun e he b _ => he.trans (hf e b)

theorem forAll (l : List Nat) {f : State → Nat → State} (s : State) (hf : ∀ (s : State) b, s.KeepsTime (f s b)) : s.KeepsTime (s.forAll l f) :=
  foldl hf l s

/-- An operation that leaves the power manager and the reliability records whole. -/
theorem of_eq {a b : State} (hpower : b.power = a.power) (hrel : b.rel = a.rel) : a.KeepsTime b := ⟨by rw [hpower], by rw [hrel]⟩

theorem ite {a b c : State} {p : Prop} [Decidable p] (hb : a.KeepsTime b) (hc : a.KeepsTime c) : a.KeepsTime (if p then b else c) := by
  split
  · exact hb
  · exact hc

end State.KeepsTime

theorem State.Steady.keepsTime {a b : State} (h : a.Steady b) : a.KeepsTime b :=
  ⟨h.same_power Power.chrono fun _ _ => rfl, h.hours⟩

theorem State.Posts.keepsTime {a b : State} (h : a.Posts b) : a.KeepsTime b := h.steady.keepsTime

section

variable (s : State)

/-! ## Faults -/

theorem State.evidence_keepsTime (kind unit : Nat) : s.KeepsTime (s.evidence kind unit).1 := ⟨rfl, rfl⟩

theorem State.fenceDecide_keepsTime (d : Nat × Nat) : s.KeepsTime (s.fenceDecide d) := by
  refine .trans ?_ (State.commitFences_steady _).keepsTime
  exact .ite (.refl s) ⟨rfl, rfl⟩

/-- What a second report within 720 hours decides (R457). -/
theorem State.weigh_keepsTime (kind unit : Nat) (d : Nat × Nat) :
    s.KeepsTime (if (s.evidence kind unit).2 then (s.evidence kind unit).1.fenceDecide d else (s.evidence kind unit).1) :=
  .ite ((s.evidence_keepsTime kind unit).trans (State.fenceDecide_keepsTime _ d)) (s.evidence_keepsTime kind unit)

theorem State.jobFault_or_fix_keepsTime (job : Bool) (level unit cause detail : Nat) (m : Nat) :
    s.KeepsTime (if job then s.jobFault level unit cause detail m none else s.fixTrigger 2 false) :=
  .ite (s.jobFault_steady _ _ _ _ _ _).keepsTime (s.fixTrigger_steady _ _).keepsTime

theorem State.regionFault_keepsTime (r cause detail : Nat) (job : Bool) : s.KeepsTime (s.regionFault r cause detail job) := by
  unfold State.regionFault
  extract_lets s1 s2
  have h2 : s.KeepsTime s2 := ⟨rfl, rfl⟩
  exact h2.trans (s2.jobFault_or_fix_keepsTime _ _ _ _ _ _)

theorem State.clusterFault_keepsTime (c cause detail : Nat) : s.KeepsTime (s.clusterFault c cause detail) := by
  unfold State.clusterFault
  extract_lets s1 s2 e s3
  have h2 : s.KeepsTime s2 := ⟨rfl, rfl⟩
  have h3 : s2.KeepsTime s3 := .ite (s2.weigh_keepsTime 1 c (1, c)) (.refl s2)
  exact h2.trans (h3.trans (s3.jobFault_or_fix_keepsTime _ _ _ _ _ _))

theorem State.tileFault_keepsTime (t stream cause detail pc : Nat) : s.KeepsTime (s.tileFault t stream cause detail pc) := by
  unfold State.tileFault
  extract_lets s1 s2 e s3
  have h2 : s.KeepsTime s2 := ⟨rfl, rfl⟩
  have h3 : s2.KeepsTime s3 := .ite (s2.fenceDecide_keepsTime (0, t)) (.ite (s2.weigh_keepsTime 0 t (0, t)) (.refl s2))
  exact h2.trans (h3.trans (s3.jobFault_or_fix_keepsTime _ _ _ _ _ _))

/-! ## Messages -/

theorem State.settle_keepsTime (t : Nat) : s.KeepsTime (s.settle t) := ⟨rfl, rfl⟩

theorem State.answer_keepsTime (t : Nat) (m : Msg) (status : Nat) : s.KeepsTime (s.answer t m status) := .ite ⟨rfl, rfl⟩ (.refl s)

theorem State.tallyWatch_keepsTime (c tl : Nat) : s.KeepsTime (s.tallyWatch c tl) := by
  have htile : ∀ (w : Word) (n : Nat) (s : State) (t : Nat), s.KeepsTime
      ((if bit w 62 then s.modTile t fun x => allStrms.foldl (fun x q => x.haltBy q 1) x else s).modTile t
        fun x => x.dbgRecord s.cycle 4 (place 56 3 4 ||| place 40 8 n)) := fun w n s t => by
    split <;> exact ⟨rfl, rfl⟩
  unfold State.tallyWatch
  split
  · refine .foldl (fun s n => ?_) _ s
    extract_lets w s1 s2
    have h2 : s.KeepsTime s2 := .trans (b := s1) ⟨rfl, rfl⟩ (.foldl (htile w n) _ s1)
    split
    · exact h2.trans ((s2.fixTrigger_steady 3 false).keepsTime.trans (State.fixTrigger_steady _ 1 false).keepsTime)
    · exact .refl s
  · exact .refl s

theorem State.tallyAdd_keepsTime (c tl : Nat) (d : Int) (src kind : Nat) : s.KeepsTime (s.tallyAdd c tl d src kind).1 := by
  unfold State.tallyAdd
  extract_lets y n
  split
  · exact s.clusterFault_keepsTime _ _ _
  · split
    · exact s.clusterFault_keepsTime _ _ _
    · exact .trans (b := s.modCluster c _) ⟨rfl, rfl⟩ (State.tallyWatch_keepsTime _ c tl)

theorem State.applyTally_keepsTime (t : Nat) (m : Msg) : s.KeepsTime (s.applyTally t m) := by
  unfold State.applyTally
  extract_lets c p
  have hp : s.KeepsTime p.1 := .trans (.foldl (fun s t => s.settle_keepsTime t) (clusterTiles c) s) (State.tallyAdd_keepsTime _ _ _ _ _ _)
  exact .ite (hp.trans (.trans (b := p.1.countCluster c 0x68 1) ⟨rfl, rfl⟩ (State.answer_keepsTime _ t m 0))) hp

theorem State.resolve_keepsTime (t : Nat) (m : Msg) : s.KeepsTime (s.resolve t m) := by
  unfold State.resolve
  extract_lets s0
  have h0 : s.KeepsTime s0 := ⟨rfl, rfl⟩
  split
  · exact .ite ⟨rfl, rfl⟩ ⟨rfl, rfl⟩
  · exact h0.trans (s0.applyTally_keepsTime t m)
  · exact .trans (b := s0.dropMsg t m 0x710) ⟨rfl, rfl⟩ (State.answer_keepsTime _ t m 1)
  · exact .trans (b := s0.dropMsg t m 0x718) ⟨rfl, rfl⟩ (State.answer_keepsTime _ t m 2)
  · exact .trans (b := s0.modTile t _) ⟨rfl, rfl⟩ (State.tileFault_keepsTime _ _ _ _ _ _)
  · exact ⟨rfl, rfl⟩
  · exact ⟨rfl, rfl⟩

theorem State.refreshQueue_keepsTime (t : Nat) : s.KeepsTime (s.refreshQueue t) := by
  unfold State.refreshQueue
  extract_lets s1
  have h1 : s.KeepsTime s1 := s.settle_keepsTime t
  split
  · split
    · exact h1
    · exact h1
    · exact h1.trans (s1.resolve_keepsTime t _)
  · exact h1

/-! ## Counters and frames -/

theorem State.tickFrames_keepsTime (s0 : State) : s.KeepsTime (s.tickFrames s0) := by
  unfold State.tickFrames
  split
  · refine .trans (b := s.modPower fun p => { p with pat := s0.patNext p.pat p.run }) ⟨rfl, rfl⟩ (.foldl (fun s r => ?_) (List.range 16) _)
    exact .ite ⟨rfl, rfl⟩ (.refl s)
  · exact .refl s

theorem State.tickThrottle_keepsTime : s.KeepsTime s.tickThrottle := by
  unfold State.tickThrottle
  extract_lets s1
  have h1 : s.KeepsTime s1 := ⟨rfl, rfl⟩
  refine h1.trans (.foldl (fun s r => ?_) (List.range 16) s1)
  exact .ite ⟨rfl, rfl⟩ (.refl s)

theorem State.countJob_keepsTime (off n : Nat) : s.KeepsTime (s.countJob off n) := ⟨rfl, rfl⟩

theorem State.tickJob_keepsTime (s0 : State) : s.KeepsTime (State.tickJob s0 s) := by
  unfold State.tickJob
  extract_lets v s1 s2 s3 s4
  have h1 : s.KeepsTime s1 := .ite (s.countJob_keepsTime _ _) (.refl s)
  have h2 : s1.KeepsTime s2 := .ite (s1.countJob_keepsTime _ _) (.refl s1)
  have h3 : s2.KeepsTime s3 := .ite (.refl s2) (.foldl (fun s n => s.countJob_keepsTime _ _) s.idleStages s2)
  have h4 : s3.KeepsTime s4 := .ite (s3.countJob_keepsTime _ _) (.refl s3)
  exact .ite (.refl s) (h1.trans (h2.trans (h3.trans (h4.trans (.forAll s.job.tiles s4 fun _ _ => ⟨rfl, rfl⟩)))))

theorem State.tickQueue_keepsTime (t : Nat) : s.KeepsTime (s.tickQueue t) := by
  unfold State.tickQueue
  extract_lets s1
  have h1 : s.KeepsTime s1 := .ite ⟨rfl, rfl⟩ (.refl s)
  exact .ite h1 (h1.trans (s1.refreshQueue_keepsTime t))

theorem State.tickRelease_keepsTime : s.KeepsTime s.tickRelease := by
  unfold State.tickRelease
  split
  · exact .refl s
  · refine .ite (.refl s) (.trans (b := s.releaseAll 3) ?_ ⟨rfl, rfl⟩)
    exact .forAll s.job.tiles s fun _ _ => ⟨rfl, rfl⟩

theorem State.tickRamp_keepsTime : s.KeepsTime s.tickRamp := by
  unfold State.tickRamp
  extract_lets p n
  refine .ite ?_ (.refl s)
  obtain ⟨_, hrun⟩ := s.applyRun_eq n false
  rw [hrun]
  exact ⟨rfl, rfl⟩

/-! ## Power requests -/

theorem State.loseRegion_keepsTime (r : Nat) : s.KeepsTime (s.loseRegion r) := by
  have hclear : s.KeepsTime (s.clearUnits r) := by
    unfold State.clearUnits
    extract_lets s1
    have h1 : s.KeepsTime s1 := .forAll _ s fun _ _ => ⟨rfl, rfl⟩
    have hcluster : ∀ (e : State) c, e.KeepsTime (e.setCluster c {}) := fun _ _ => ⟨rfl, rfl⟩
    exact h1.trans (.trans (.forAll _ s1 hcluster) (State.stepLost_steady _).keepsTime)
  exact hclear.trans ⟨rfl, rfl⟩

theorem State.offOne_keepsTime (r : Nat) : s.KeepsTime (s.offOne r) :=
  .ite (.refl s) ((s.loseRegion_keepsTime r).trans ⟨rfl, rfl⟩)

theorem State.refreshed_keepsTime (b : State) : s.KeepsTime (s.refreshPorts.readyFrom b) :=
  (s.refreshPorts_steady.trans (State.readyFrom_steady _ b)).keepsTime

theorem State.deepIdle_keepsTime : s.KeepsTime s.deepIdle := by
  unfold State.deepIdle
  extract_lets s1 s2
  have h1 : s.KeepsTime s1 := ⟨rfl, rfl⟩
  have h2 : s1.KeepsTime s2 := .ite ⟨rfl, rfl⟩ (.foldl State.offOne_keepsTime (List.range 16) s1)
  exact h1.trans (h2.trans (s2.refreshed_keepsTime s))

theorem State.cold_keepsTime : s.KeepsTime (s.cold keepIslands) := ⟨rfl, rfl⟩

theorem State.applyReq_keepsTime : s.KeepsTime s.applyReq := by
  unfold State.applyReq
  extract_lets ok set
  have hset : ∀ (e : State) n, e.KeepsTime (set e n) := fun _ _ => ⟨rfl, rfl⟩
  split
  · refine .ite (.trans ?_ (hset _ 0)) (hset s 2)
    exact .ite (.refl s) s.deepIdle_keepsTime
  · refine .ite ?_ (hset s 2)
    exact s.cold_keepsTime.trans (.trans (b := (s.cold keepIslands).modPower _) ⟨rfl, rfl⟩ (State.readyFrom_posts _ s).keepsTime)
  · refine .trans ?_ (hset _ 0)
    exact .trans (b := s.modPower fun p => { p with deep := 0 }) ⟨rfl, rfl⟩ (State.refreshed_keepsTime _ s)

theorem State.powerReq_keepsTime (n : Nat) : s.KeepsTime (s.powerReq n) := by
  unfold State.powerReq
  extract_lets s1
  have h1 : s.KeepsTime s1 := ⟨rfl, rfl⟩
  exact .ite h1 (h1.trans s1.applyReq_keepsTime)

theorem State.pendingReq_keepsTime : s.KeepsTime s.pendingReq := .ite s.applyReq_keepsTime (.refl s)

theorem State.clearTrip_keepsTime : s.KeepsTime s.clearTrip := by
  unfold State.clearTrip
  extract_lets s1 s2
  refine .ite ?_ (.refl s)
  have h1 : s.KeepsTime s1 := by
    refine .trans (b := s.modPower fun p => { p with trip := false }) ⟨rfl, rfl⟩ (.foldl (fun s r => ?_) (List.range 16) _)
    exact .ite ⟨rfl, rfl⟩ (.refl s)
  have h2 : s1.KeepsTime s2 := .ite (.foldl State.offOne_keepsTime (List.range 16) s1) (.refl s1)
  exact h1.trans (h2.trans (s2.refreshed_keepsTime s))

/-! ## Register writes -/

theorem State.doorbell_keepsTime (k : Nat) (v : BitVec 16) : s.KeepsTime (s.doorbell k v) :=
  .trans (b := (s.modPage k _).modHelm _) ⟨rfl, rfl⟩ (State.serveBad_steady _ k 32).keepsTime

theorem State.freeSlots_keepsTime (k : Nat) (v : BitVec 16) : s.KeepsTime (s.freeSlots k v) :=
  .trans (b := s.modPage k _) ⟨rfl, rfl⟩ ((State.drainPage_steady _ k 300).trans (State.serveBad_steady _ k 32)).keepsTime

theorem State.writeMod_keepsTime (off : Nat) (v : Word) : s.KeepsTime (s.writeMod off v) := by
  unfold State.writeMod
  extract_lets s1
  have h1 : s.KeepsTime s1 := .ite ⟨rfl, rfl⟩ (.refl s)
  refine .ite ⟨rfl, rfl⟩ (.ite (.ite (s.doorbell_keepsTime _ _) (s.freeSlots_keepsTime _ _)) (.ite ⟨rfl, rfl⟩ (.ite ?_ (.ite ?_ ?_))))
  · exact .ite (h1.trans s1.clearTrip_keepsTime) h1
  · exact .ite (.refl s) (s.powerReq_keepsTime _)
  · exact .ite ⟨rfl, rfl⟩ (.ite ⟨rfl, rfl⟩ (.refl s))

theorem State.regionReset_keepsTime (r : Nat) : s.KeepsTime (s.regionReset r) := by
  unfold State.regionReset
  extract_lets x s1
  have h1 : s.KeepsTime s1 := (s.loseRegion_keepsTime r).trans ⟨rfl, rfl⟩
  exact .ite (h1.trans (.trans (b := s1.restStacks r) ⟨rfl, rfl⟩ (State.readyFrom_posts _ s).keepsTime)) ⟨rfl, rfl⟩

theorem State.tileReset_keepsTime (t : Nat) : s.KeepsTime (s.tileReset t) := .ite (.ite ⟨rfl, rfl⟩ ⟨rfl, rfl⟩) (.refl s)

theorem State.writeRegion_keepsTime (r off : Nat) (v : Word) : s.KeepsTime (s.writeRegion r off v) :=
  .ite ⟨rfl, rfl⟩ (.ite (s.regionReset_keepsTime r) (.refl s))

theorem State.writeCluster_keepsTime (c off : Nat) (v : Word) : s.KeepsTime (s.writeCluster c off v) :=
  .ite ⟨rfl, rfl⟩ (.ite ⟨rfl, rfl⟩ (.refl s))

theorem State.writeTile_keepsTime (t off : Nat) (v : Word) : s.KeepsTime (s.writeTile t off v) :=
  .ite ⟨rfl, rfl⟩ (.ite (.ite (s.tileReset_keepsTime t) (.refl s))
    (.ite ⟨rfl, rfl⟩ (.ite ⟨rfl, rfl⟩ (.ite ⟨rfl, rfl⟩ (.ite ⟨rfl, rfl⟩ (.refl s))))))

theorem State.writeReg_keepsTime (a : Nat) (v : Word) : s.KeepsTime (s.writeReg a v) := by
  unfold State.writeReg
  split
  · exact s.writeMod_keepsTime _ v
  · exact s.writeRegion_keepsTime _ _ v
  · exact .ite (s.writeCluster_keepsTime _ _ v) (.refl s)
  · exact .ite (s.writeTile_keepsTime _ _ v) (.refl s)
  · exact .refl s

/-! ## Requests of the host -/

theorem State.respond_keepsTime (id status : Nat) (data : List Byte) : s.KeepsTime (s.respond id status data) := ⟨rfl, rfl⟩

theorem State.unsupported_keepsTime (id : Nat) : s.KeepsTime (s.unsupported id) := ⟨rfl, rfl⟩

theorem State.wakeStk_keepsTime (k : Nat) : s.KeepsTime (s.wakeStk k) := .ite ⟨rfl, rfl⟩ (.refl s)

theorem State.hbmUe_keepsTime (k a : Nat) (job : Bool) : s.KeepsTime (s.hbmUe k a job) := by
  unfold State.hbmUe
  extract_lets s1 s2 s3
  have h2 : s.KeepsTime s2 := ⟨rfl, rfl⟩
  have h3 : s2.KeepsTime s3 := .ite ⟨rfl, rfl⟩ (.refl s2)
  exact h2.trans (h3.trans ((s3.readyFrom_posts s).keepsTime.trans (State.regionFault_keepsTime _ _ _ _ job)))

theorem State.hbmRead_keepsTime (k a n : Nat) (job : Bool) : s.KeepsTime (s.hbmRead k a n job).1 := by
  unfold State.hbmRead
  extract_lets bs s1
  have h1 : s.KeepsTime s1 := .ite (.refl s) ⟨rfl, rfl⟩
  split
  · exact h1.trans (s1.hbmUe_keepsTime _ _ _)
  · exact h1

theorem State.lineRead_keepsTime (line : Nat) : s.KeepsTime (s.lineRead line).1 :=
  (s.wakeStk_keepsTime _).trans (State.hbmRead_keepsTime _ _ _ _ _)

theorem State.lineWrite_keepsTime (line : Nat) (parts : List (Nat × List Byte)) : s.KeepsTime (s.lineWrite line parts) :=
  (s.wakeStk_keepsTime _).trans ⟨rfl, rfl⟩

theorem State.grantLine_keepsTime (id line : Nat) (owned : Bool) : s.KeepsTime (s.grantLine id line owned).1 := by
  have hread : ∀ s2 : State, s.KeepsTime (match s.lineRead line with
      | (s3, some d) => ((s3.modRl fun r => { r with snoop := s2.rl.snoop }).respond id 0 d, false)
      | (s3, none) => (s3.respond id 2 [], false)).1 := fun s2 => by
    have h := s.lineRead_keepsTime line
    split
    all_goals
      next heq =>
        rw [heq] at h
        exact h.trans ⟨rfl, rfl⟩
  unfold State.grantLine
  extract_lets read
  split
  · extract_lets s1
    split
    · exact ⟨rfl, rfl⟩
    · exact hread s1
  · split
    · exact (s.sendBinv_steady _).keepsTime
    · exact hread _

theorem State.msiWrite_keepsTime (v w : Nat) (x : Word) : s.KeepsTime (s.msiWrite v w x) :=
  .ite (.refl s) (.ite (.trans (b := s.modRl _) ⟨rfl, rfl⟩ (State.sendMsi_posts _ v).keepsTime) ⟨rfl, rfl⟩)

theorem State.hcwWrite_keepsTime (v : Word) : s.KeepsTime (s.hcwWrite v) := by
  unfold State.hcwWrite
  extract_lets s1
  have h1 : s.KeepsTime s1 := ⟨rfl, rfl⟩
  exact .ite (h1.trans s1.resizeHcw_steady.keepsTime) h1

theorem State.cfgWrite_keepsTime (off : Nat) (v : Word) : s.KeepsTime (s.cfgWrite off v) :=
  .ite ⟨rfl, rfl⟩ (.ite ⟨rfl, rfl⟩ (.ite ⟨rfl, rfl⟩ (.ite (s.hcwWrite_keepsTime v) (.ite (s.msiWrite_keepsTime _ _ v) (.refl s)))))

/-- What a stack that takes an access makes of it. -/
theorem State.coherent_keepsTime (id line : Nat) {f : Nat → State × Bool} (hf : ∀ l, s.KeepsTime (f l).1) :
    s.KeepsTime (match s.stackTakes (lineStack line) with
      | 0 => f line
      | 1 => (s, true)
      | _ => (s.respond id 2 [], false)).1 := by
  split
  · exact hf line
  · exact .refl s
  · exact s.respond_keepsTime _ _ _

theorem State.hostOne_keepsTime (c : Instr) : s.KeepsTime (s.hostOne c).1 := by
  have hanswer : ∀ (e : State) id status data, s.KeepsTime e → s.KeepsTime (e.respond id status data) := fun e id status data h =>
    h.trans (e.respond_keepsTime id status data)
  unfold State.hostOne
  extract_lets coherent
  have hcoherent : ∀ id off f, (∀ l, s.KeepsTime (f l).1) → s.KeepsTime (coherent id off f).1 := fun id off f hf =>
    s.coherent_keepsTime id (off / 64) hf
  clear_value coherent
  split
  · split
    · exact hcoherent _ _ _ fun l => s.grantLine_keepsTime _ l false
    · exact s.unsupported_keepsTime _
  · split
    · exact hcoherent _ _ _ fun l => s.grantLine_keepsTime _ l true
    · exact s.unsupported_keepsTime _
  · split
    · exact .ite (s.respond_keepsTime _ _ _) (s.unsupported_keepsTime _)
    · exact .ite (s.respond_keepsTime _ _ _) (s.unsupported_keepsTime _)
    · split
      · exact s.unsupported_keepsTime _
      · apply hcoherent
        intro l
        have h := s.lineRead_keepsTime l
        split
        all_goals
          next heq =>
            rw [heq] at h
            exact hanswer _ _ _ _ h
    · exact s.unsupported_keepsTime _
  · split
    · exact ⟨rfl, rfl⟩
    · apply hcoherent
      intro l
      extract_lets s1 s2
      have h1 : s.KeepsTime s1 := s.lineWrite_keepsTime _ _
      exact hanswer _ _ _ _ (h1.trans (.ite ⟨rfl, rfl⟩ (.refl s1)))
    · exact s.unsupported_keepsTime _
  · split
    · exact ⟨rfl, rfl⟩
    · split
      · exact hanswer _ _ _ _ (s.writeReg_keepsTime _ _)
      · exact s.unsupported_keepsTime _
    · apply hcoherent
      exact fun l => hanswer _ _ _ _ (s.lineWrite_keepsTime l _)
    · exact s.unsupported_keepsTime _
  · split
    · apply hcoherent
      exact fun _ => ⟨rfl, rfl⟩
    · exact s.unsupported_keepsTime _
  · exact .ite (s.respond_keepsTime _ _ _) (s.unsupported_keepsTime _)
  · split
    · exact hanswer _ _ _ _ (s.cfgWrite_keepsTime _ _)
    · exact s.unsupported_keepsTime _
  · exact .refl s

theorem State.serve_keepsTime (kept l : List HostWait) : s.KeepsTime (s.serve kept l) := by
  induction l generalizing s kept with
  | nil => exact ⟨rfl, rfl⟩
  | cons h rest ih =>
    have hone := s.hostOne_keepsTime h.c
    unfold State.serve
    split
    · exact ih s (kept ++ [h])
    · split
      all_goals
        next heq =>
          rw [heq] at hone
          exact hone.trans (ih _ _)

/-! ## The tick -/

/-- What a tick does after the clocks have moved. -/
theorem State.clockTick_keepsTime (hon : s.power.on = true) : s.tickClocks.KeepsTime s.clockTick := by
  unfold State.clockTick
  rw [if_neg (not_not_intro hon)]
  extract_lets s1 j s2 s3 s4
  have h1 : s.tickClocks.KeepsTime s1 := State.tickFrames_keepsTime _ s
  have hcluster : ∀ (e : State) c, e.KeepsTime (e.tickCluster c) := fun _ _ => ⟨rfl, rfl⟩
  have hstack : ∀ (e : State) k, e.KeepsTime (e.tickStack k) := fun _ _ => ⟨rfl, rfl⟩
  have htook : ∀ e : State, e.KeepsTime e.took := fun _ => ⟨rfl, rfl⟩
  have hj : s1.KeepsTime j :=
    (s1.tickThrottle_keepsTime.trans (State.tickJob_keepsTime _ s)).trans (.trans (.forAll _ _ State.tickQueue_keepsTime) (.forAll _ _ hcluster))
  have h2 : s1.KeepsTime s2 := .ite s1.tickThrottle_keepsTime
    (hj.trans (j.tickRelease_keepsTime.trans (.trans (.forAll _ _ hstack) (htook _))))
  have h3 : s2.KeepsTime s3 := s2.tickRamp_keepsTime.trans ⟨rfl, rfl⟩
  have h4 : s3.KeepsTime s4 := .trans (b := s3.modHelm fun h => h.tickBoot.burn) ⟨rfl, rfl⟩ (State.pendingReq_keepsTime _)
  exact .ite h1 (h1.trans (h2.trans (h3.trans (h4.trans (s4.serve_keepsTime [] _)))))

theorem State.tickClocks_hours : s.tickClocks.rel.hours = s.rel.hours + 10 := by
  unfold State.tickClocks
  extract_lets s1 s2 n e s3
  split
  · rfl
  · split <;> rfl

theorem State.tickClocks_chrono (h : s.pins.resetLow = false) : s.tickClocks.power.chrono = s.power.chrono + 10 := by
  unfold State.tickClocks
  extract_lets s1 s2 n e s3
  rw [if_neg (by rw [h]; decide)]
  split <;> rfl

theorem State.clockTick_off (h : s.power.on = false) : s.clockTick = s := if_pos (by rw [h]; decide)

end

/-- Settles O2. -/
theorem emptyQueueStepIsOneTick : Obligations.EmptyQueueStepIsOneTick := by
  unfold Obligations.EmptyQueueStepIsOneTick
  intro s hpending
  refine ⟨_, step_of_pending_nil hpending, (clockTick_pending s).trans hpending, s.clockTick_off, fun hon => ?_, fun hon hreset => ?_⟩
  · exact (s.clockTick_keepsTime hon).hours.trans s.tickClocks_hours
  · exact (s.clockTick_keepsTime hon).chrono.trans (s.tickClocks_chrono hreset)

end Sys2Proof.Machine

/-! # Lines, mailbox pages and answers (R219, R367, R370, R378) -/

namespace Sys2Proof.Machine

/-! ## Words as bytes -/

theorem leNat_lt (l : List Byte) : leNat l < 256 ^ l.length := by
  induction l with
  | nil => exact Nat.one_pos
  | cons b t ih =>
    have hb := b.isLt
    rw [leNat, List.length_cons, Nat.pow_succ]
    omega

theorem natLe_leNat (l : List Byte) : natLe l.length (leNat l) = l := by
  induction l with
  | nil => rfl
  | cons b t ih =>
    have hb := b.isLt
    rw [leNat, List.length_cons, natLe, show (b.toNat + 256 * leNat t) / 256 = leNat t by omega, ih]
    congr 1
    apply BitVec.eq_of_toNat_eq
    rw [BitVec.toNat_ofNat]
    omega

theorem wordBytes_wordAt {l : List Byte} {i : Nat} (h : i + 8 ≤ l.length) : wordBytes (wordAt l i) = (l.drop i).take 8 := by
  have hlen : ((l.drop i).take 8).length = 8 := by
    rw [List.length_take, List.length_drop]
    omega
  have hlt := leNat_lt ((l.drop i).take 8)
  have hback := natLe_leNat ((l.drop i).take 8)
  rw [hlen, show (256 : Nat) ^ 8 = 2 ^ 64 by decide] at hlt
  rw [hlen] at hback
  rw [wordBytes, wordAt, BitVec.toNat_ofNat, Nat.mod_eq_of_lt hlt, hback]

theorem flatMap_wordsOf {b : List Byte} {n : Nat} (h : b.length = 8 * n) : (wordsOf b n).flatMap wordBytes = b := by
  rw [wordsOf, List.flatMap_map]
  induction n generalizing b with
  | zero => exact (List.eq_nil_of_length_eq_zero h).symm
  | succ n ih =>
    have hrest := ih (b := b.drop 8) (by rw [List.length_drop]; omega)
    have hshift : ∀ i, wordAt (b.drop 8) (8 * i) = wordAt b (8 * (i + 1)) := fun i => by
      rw [wordAt, wordAt, List.drop_drop, show 8 + 8 * i = 8 * (i + 1) by omega]
    rw [List.flatMap_congr fun i _ => congrArg wordBytes (hshift i)] at hrest
    rw [List.range_succ_eq_map, List.flatMap_cons, List.flatMap_map]
    simp only [Nat.succ_eq_add_one, Nat.mul_zero]
    rw [hrest, wordBytes_wordAt (by omega), List.drop_zero]
    exact List.take_append_drop 8 b

theorem padTo_of_length {n : Nat} {l : List Byte} (h : l.length = n) : padTo n l = l := by
  rw [padTo, ← h, Nat.sub_self, zeros, List.replicate_zero, List.append_nil, List.take_length]

/-! ## Mailbox pages -/

theorem State.pageRead_eq (s : State) (off : Nat) :
    s.pageRead off = (Map.slice 0 (s.page (off / 4096 % 64)).mem (off / 64 * 8 % 512) 8).flatMap wordBytes := by
  rw [Map.slice_eq, List.flatMap_map]
  rfl

/-- A line of a mailbox page reads as it was written. -/
theorem State.pageRead_pageWrite (s : State) (off : Nat) {data : List Byte} (h : data.length = 64) :
    (s.pageWrite off [(0, data)]).pageRead off = data := by
  have hold : ∀ (m : Map Word) (base : Nat), ((List.range 8).flatMap fun i => wordBytes (Map.get 0 m (base + i))).length = 64 := fun m base => by
    have hbytes : ∀ i ∈ List.range 8, (wordBytes (Map.get 0 m (base + i))).length = 8 := fun i _ => natLe_length 8 _
    rw [List.length_flatMap, List.map_congr_left hbytes, List.map_const', List.sum_replicate, List.length_range]
    rfl
  have hsplice : ∀ old : List Byte, old.length = 64 → splice old 0 data = data := fun old hlen => by
    rw [splice, List.take_zero, List.nil_append, Nat.zero_add, h, ← hlen, List.drop_length, List.append_nil]
  have hwrote := Map.slice_setRange_self 0 (s.page (off / 4096 % 64)).mem (off / 64 * 8 % 512) (wordsOf data 8)
  rw [wordsOf_length] at hwrote
  rw [State.pageRead_eq, State.pageWrite, State.modPage_page_self]
  simp only [List.foldl_cons, List.foldl_nil, hsplice _ (hold _ _)]
  rw [hwrote, flatMap_wordsOf h]

/-! ## Lines of the coherent window -/

/-- Nothing but stacks differs. -/
def State.OnlyStks (a b : State) : Prop := ∃ stks, b = { a with stks := stks }

theorem State.wakeStk_onlyStks (s : State) (k : Nat) : s.OnlyStks (s.wakeStk k) := by
  unfold State.wakeStk
  split <;> exact ⟨_, rfl⟩

theorem State.corrected_onlyStks (s : State) (k : Nat) (l : List Nat) : s.OnlyStks (s.corrected k l) := by
  unfold State.corrected
  extract_lets n
  split <;> exact ⟨_, rfl⟩

/-- A stack that is woken keeps its bytes. -/
theorem State.wakeStk_stk (s : State) (k : Nat) : ((s.wakeStk k).stk k) = { s.stk k with st := ((s.wakeStk k).stk k).st } := by
  unfold State.wakeStk
  split
  · rw [State.modStk_stk_self]
  · rfl

theorem State.wakeStk_stk_ne (s : State) {k u : Nat} (h : u ≠ k) : (s.wakeStk k).stk u = s.stk u := by
  unfold State.wakeStk
  split
  · exact s.modStk_stk_ne k u _ h
  · rfl

/-- A read that meets no uncorrectable burst gives good bytes and changes the stacks alone. -/
theorem State.hbmRead_good {s : State} {k a n : Nat} (h : ∀ b ∈ burstsIn a n, b ∉ (s.stk k).ue) (job : Bool) :
    s.hbmRead k a n job = (s.corrected k (burstsIn a n), true) := by
  have hnone : (burstsIn a n).find? (s.stk k).ue.contains = none :=
    List.find?_eq_none.mpr fun b hb => by rw [List.contains_iff_mem]; exact h b hb
  rw [State.hbmRead, hnone]

/-- The stack address of a coherent line in its stack. -/
def lineByte (line : Nat) : Nat := (devByte (64 * line)).2

theorem State.lineRead_good {s : State} {line : Nat} (h : ∀ b ∈ burstsIn (lineByte line) 64, b ∉ (s.stk (lineStack line)).ue) :
    ∃ e, s.lineRead line = (e, some (Map.slice 0 (s.stk (lineStack line)).mem (lineByte line) 64)) ∧ s.OnlyStks e := by
  obtain ⟨stks, hwake⟩ := s.wakeStk_onlyStks (lineStack line)
  have hread := State.hbmRead_good (s := s.wakeStk (lineStack line)) (k := lineStack line) (by rw [State.wakeStk_stk]; exact h) false
  obtain ⟨stks', hcorr⟩ := (s.wakeStk (lineStack line)).corrected_onlyStks (lineStack line) (burstsIn (lineByte line) 64)
  refine ⟨_, ?_, stks', hcorr.trans (by rw [hwake])⟩
  exact congrArg (fun r : State × Bool => (r.1, if r.2 then some ((s.stk (lineStack line)).bytes (lineByte line) 64) else none)) hread

section

variable (s : State) (line : Nat) (parts : List (Nat × List Byte))

theorem State.lineWrite_onlyStks : s.OnlyStks (s.lineWrite line parts) := by
  obtain ⟨stks, hwake⟩ := s.wakeStk_onlyStks (lineStack line)
  refine ⟨(s.lineWrite line parts).stks, ?_⟩
  rw [State.lineWrite, hwake]
  rfl

theorem State.lineWrite_stk_ne {u : Nat} (h : u ≠ lineStack line) : (s.lineWrite line parts).stk u = s.stk u :=
  (State.modStk_stk_ne _ (lineStack line) u _ h).trans (s.wakeStk_stk_ne h)

/-- A line's parts are written at its place, and its block's check value becomes invalid (R219). -/
theorem State.lineWrite_stk : let y := (s.lineWrite line parts).stk (lineStack line)
    y.mem = parts.foldl (fun m q => Map.setRange 0 m (lineByte line + q.1) q.2) (s.stk (lineStack line)).mem ∧
      Map.get false y.crcV (lineByte line / 4096) = false := by
  intro y
  have hy : y = ((s.wakeStk (lineStack line)).stk (lineStack line)).put (lineByte line / 4096)
      (parts.map fun q => (lineByte line % 4096 + q.1, q.2)) false := State.modStk_stk_self _ _ _
  have hplace : ∀ n : Nat, 4096 * (lineByte line / 4096) + (lineByte line % 4096 + n) = lineByte line + n := fun n => by omega
  rw [hy, State.wakeStk_stk]
  refine ⟨?_, Map.get_set_self _ _ _ _⟩
  change (parts.map fun q => (lineByte line % 4096 + q.1, q.2)).foldl (fun m q => Map.setRange 0 m (4096 * (lineByte line / 4096) + q.1) q.2) _ = _
  simp only [List.foldl_map, hplace]

/-- A whole line reads as it was written, and every other byte of the stack as before. -/
theorem State.lineWrite_line {data : List Byte} (h : data.length = 64) : let y := (s.lineWrite line [(0, data)]).stk (lineStack line)
    Map.slice 0 y.mem (lineByte line) 64 = data ∧
      ∀ j, j < lineByte line ∨ lineByte line + 64 ≤ j → Map.get 0 y.mem j = Map.get 0 (s.stk (lineStack line)).mem j := by
  intro y
  have hmem : y.mem = Map.setRange 0 (s.stk (lineStack line)).mem (lineByte line) data := (s.lineWrite_stk line [(0, data)]).1
  rw [hmem, ← h]
  exact ⟨Map.slice_setRange_self 0 _ _ data, fun j hj => Map.get_setRange_outside 0 _ hj⟩

/-- The bytes a mask names are written one by one (R367). -/
theorem State.lineWrite_masked (mask : Word) (data : List Byte) (j : Nat) :
    Map.get 0 ((s.lineWrite line (maskParts mask data)).stk (lineStack line)).mem j =
      if j ∈ ((List.range 64).filter (bit mask)).map (lineByte line + ·) then data.getD (j - lineByte line) 0
      else Map.get 0 (s.stk (lineStack line)).mem j := by
  have hparts : maskParts mask data = ((List.range 64).filter (bit mask)).map fun i => (i, [data.getD i 0]) := by
    rw [maskParts, ← List.filterMap_eq_map, List.filterMap_filter]
    rfl
  rw [(s.lineWrite_stk line (maskParts mask data)).1, hparts, List.foldl_map, ← Map.get_foldl_set 0 _ fun j => data.getD (j - lineByte line) 0,
    List.foldl_map]
  simp only [Nat.add_sub_cancel_left]
  rfl

end

end Sys2Proof.Machine

/-! # Requests of the host and answers of the host (R219, R365 to R375) -/

namespace Sys2Proof.Machine

/-! ## A request that is answered at once -/

/-- A request is answered `OK` with `data`, and none waits. -/
def State.replied (s : State) (id : Nat) (data : List Byte) : State := (s.respond id 0 data).modRl fun r => { r with held := [] }

/-- A request is answered `OK` with `data`; neither the job nor a tile changes, and `f` holds of what the request leaves. -/
def State.HostAnswers (s : State) (c : Instr) (id : Nat) (data : List Byte) (f : State → Prop) : Prop :=
  ∃ s', exec c s = .next s' ∧ s'.rl.resp = some (id % 4096, 0, data) ∧ s'.job = s.job ∧ s'.tiles = s.tiles ∧ f s'

theorem State.answers_of_replied {s e : State} {c : Instr} {id : Nat} {data : List Byte} {f : State → Prop}
    (hexec : exec c s = .next (e.replied id data)) (hjob : e.job = s.job) (htiles : e.tiles = s.tiles)
    (hf : ∀ rl : Rl, rl.snoop = e.rl.snoop → f { e with rl := rl }) : s.HostAnswers c id data f :=
  ⟨_, hexec, rfl, hjob, htiles, hf _ rfl⟩

/-- A request that comes while no other waits, need not wait itself and is answered. -/
theorem hostReq_answered {s e : State} {c : Instr} {id : Nat} {data : List Byte} (hst : s.rl.st = 4) (hheld : s.rl.held = [])
    (hgo : s.arrived.mustWait [] { at_ := s.rl.home, line := s.lineOf c, c := c } = false)
    (hone : s.arrived.hostOne c = (e.respond id 0 data, false)) : hostReq c s = .next (e.replied id data) :=
  hostReq_at_once hst hheld hgo hone

/-- A request of a line with no `BINV`, `RECALL` or earlier porter store outstanding goes on (R370). -/
theorem State.line_goes {s : State} {line : Nat} (hbinv : line ∉ s.rl.binv) (hrecall : line ∉ s.rl.recalls)
    (hstore : s.storeAhead line s.rl.home = false) (c : Instr) :
    s.arrived.mustWait [] { at_ := s.rl.home, line := some line, c := c } = false := by
  have hb : s.arrived.rl.binv.contains line = false := Bool.eq_false_iff.mpr fun h => hbinv (List.contains_iff_mem.mp h)
  have hr : s.arrived.rl.recalls.contains line = false := Bool.eq_false_iff.mpr fun h => hrecall (List.contains_iff_mem.mp h)
  have hs : s.arrived.storeAhead line s.rl.home = false := hstore
  simp only [State.mustWait, hb, hr, hs, List.any_nil, Bool.or_self, Bool.and_false, Bool.false_and]

theorem setLine_absent {l : List (Nat × Bool)} {line : Nat} (h : ∀ e ∈ l, e.1 ≠ line) (owned : Bool) :
    setLine l line owned = l ++ [(line, owned)] :=
  if_neg fun hany => by
    obtain ⟨e, he, heq⟩ := List.any_eq_true.mp hany
    exact h e he (of_decide_eq_true heq)

theorem mem_setLine {l : List (Nat × Bool)} {line : Nat} (h : ∃ e ∈ l, e.1 = line) (owned : Bool) : (line, owned) ∈ setLine l line owned := by
  obtain ⟨e, he, heq⟩ := h
  rw [setLine, if_pos (List.any_eq_true.mpr ⟨e, he, decide_eq_true heq⟩)]
  exact List.mem_map.mpr ⟨e, he, if_pos heq⟩

/-- A read of a line that the host does not hold, with room in the filter (R368). -/
theorem State.grantLine_absent {s : State} {line : Nat} (hgood : ∀ b ∈ burstsIn (lineByte line) 64, b ∉ (s.stk (lineStack line)).ue)
    (habsent : ∀ e ∈ s.rl.snoop, e.1 ≠ line) (hroom : s.rl.snoop.length < 1048576) (id : Nat) (owned : Bool) :
    ∃ stks, s.grantLine id line owned = ((({ s with stks := stks } : State).modRl fun r =>
      { r with snoop := s.rl.snoop ++ [(line, owned)] }).respond id 0 (Map.slice 0 (s.stk (lineStack line)).mem (lineByte line) 64), false) := by
  have hfind : s.rl.snoop.find? (fun p => decide (p.1 = line)) = none :=
    List.find?_eq_none.mpr fun e he h => habsent e he (of_decide_eq_true h)
  have hfull : ¬ filterSize ≤ s.rl.snoop.length := Nat.not_le.mpr hroom
  obtain ⟨e, hread, stks, rfl⟩ := State.lineRead_good hgood
  refine ⟨stks, ?_⟩
  rw [← setLine_absent habsent]
  unfold State.grantLine
  extract_lets read
  rw [hfind]
  dsimp only
  rw [if_neg hfull]
  change (match s.lineRead line with
    | (s3, some d) => ((s3.modRl fun r => { r with snoop := setLine s.rl.snoop line owned }).respond id 0 d, false)
    | (s3, none) => (s3.respond id 2 [], false)) = _
  rw [hread]

/-- An owned read of a line that the host holds moves no data (R368). -/
theorem State.grantLine_held {s : State} {line : Nat} (h : ∃ e ∈ s.rl.snoop, e.1 = line) (id : Nat) :
    s.grantLine id line true = ((s.modRl fun r => { r with snoop := setLine r.snoop line true }).respond id 0 [], false) := by
  obtain ⟨e, he, heq⟩ := h
  obtain ⟨p, hp⟩ := Option.isSome_iff_exists.mp (List.find?_isSome (p := fun p : Nat × Bool => decide (p.1 = line)).mpr ⟨e, he, decide_eq_true heq⟩)
  unfold State.grantLine
  extract_lets read
  rw [hp]
  rfl

/-! ## Outside the coherent window -/

theorem maskGroup_place : ∀ i < 8, maskGroup (place (8 * i) 8 0xFF) = some i := by decide

section

variable {s : State} {id addr : Nat} (hst : s.rl.st = 4) (hheld : s.rl.held = [])
include hst hheld

/-- A request that names no coherent line is answered at once. -/
theorem hostReq_lineless {c : Instr} {s1 : State} (hline : s.lineOf c = none) (hone : s.arrived.hostOne c = (s1, false)) :
    hostReq c s = .next (s1.modRl fun r => { r with held := [] }) :=
  hostReq_at_once hst hheld (by rw [hline]; rfl) hone

theorem hostReq_unsupported {c : Instr} (hline : s.lineOf c = none) (hone : s.arrived.hostOne c = (s.arrived.unsupported id, false)) :
    hostReq c s = .next (s.arrived.unsupported id) :=
  (hostReq_lineless hst hheld hline hone).trans (congrArg Host.Outcome.next (State.eq_modRl_held hheld))

/-- A request outside every window is answered `UR` (R365). -/
theorem exec_no_window (hat : s.hostAt addr = .none) (len : Nat) (mask : Word) (data : List Byte) :
    exec (.rds id addr) s = .next (s.arrived.unsupported id) ∧ exec (.rdo id addr) s = .next (s.arrived.unsupported id) ∧
      exec (.rdnc id addr len) s = .next (s.arrived.unsupported id) ∧ exec (.wrline id addr data) s = .next (s.arrived.unsupported id) ∧
      exec (.wrpart id addr mask data) s = .next (s.arrived.unsupported id) ∧ exec (.evict id addr) s = .next (s.arrived.unsupported id) := by
  have hat' : s.arrived.hostAt addr = .none := hat
  have hgo : ∀ c, s.lineOf c = none → s.arrived.hostOne c = (s.arrived.unsupported id, false) → hostReq c s = .next (s.arrived.unsupported id) :=
    fun _ => hostReq_unsupported hst hheld
  refine ⟨hgo _ ?_ ?_, hgo _ ?_ ?_, hgo _ ?_ ?_, hgo _ ?_ ?_, hgo _ ?_ ?_, hgo _ ?_ ?_⟩ <;> simp only [State.lineOf, State.hostOne, hat, hat']

theorem exec_rdnc_mailbox {off : Nat} (hat : s.hostAt addr = .mailbox off) :
    exec (.rdnc id addr 64) s = .next (s.arrived.replied id (s.pageRead off)) := by
  have hat' : s.arrived.hostAt addr = .mailbox off := hat
  refine hostReq_lineless hst hheld (by simp only [State.lineOf, hat]) ?_
  simp only [State.hostOne, hat', if_true]
  rfl

theorem exec_wrline_mailbox {off : Nat} (hat : s.hostAt addr = .mailbox off) {data : List Byte} (h : data.length = 64) :
    exec (.wrline id addr data) s = .next ((s.arrived.pageWrite off [(0, data)]).replied id []) := by
  have hat' : s.arrived.hostAt addr = .mailbox off := hat
  refine hostReq_lineless hst hheld (by simp only [State.lineOf, hat]) ?_
  simp only [State.hostOne, hat', padTo_of_length h]

theorem exec_rdnc_register {off : Nat} (hat : s.hostAt addr = .register off) (h8 : off % 8 = 0) :
    exec (.rdnc id addr 8) s = .next (s.arrived.replied id (wordBytes (s.arrived.readReg off))) := by
  have hat' : s.arrived.hostAt addr = .register off := hat
  refine hostReq_lineless hst hheld (by simp only [State.lineOf, hat]) ?_
  simp only [State.hostOne, hat', h8, and_self, if_true]

theorem exec_wrpart_register {off i : Nat} (hat : s.hostAt addr = .register off) (hi : i < 8) (data : List Byte) :
    exec (.wrpart id addr (place (8 * i) 8 0xFF) data) s =
      .next ((s.arrived.writeReg (off / 64 * 64 + 8 * i) (wordAt (padTo 64 data) (8 * i))).replied id []) := by
  have hat' : s.arrived.hostAt addr = .register off := hat
  refine hostReq_lineless hst hheld (by simp only [State.lineOf, hat]) ?_
  simp only [State.hostOne, hat', maskGroup_place i hi]

end

/-! ## In the coherent window -/

section

variable {s : State} {id off : Nat} (hst : s.rl.st = 4) (hheld : s.rl.held = []) (hbinv : off / 64 ∉ s.rl.binv)
  (hrecall : off / 64 ∉ s.rl.recalls) (hstore : s.storeAhead (off / 64) s.rl.home = false)
include hst hheld hbinv hrecall hstore

theorem hostReq_line {c : Instr} {e : State} {data : List Byte} (hline : s.lineOf c = some (off / 64))
    (hone : s.arrived.hostOne c = (e.respond id 0 data, false)) : hostReq c s = .next (e.replied id data) :=
  hostReq_answered hst hheld (by rw [hline]; exact State.line_goes hbinv hrecall hstore c) hone

variable {addr : Nat} (hat : s.hostAt addr = .coherent off) (htakes : s.stackTakes (lineStack (off / 64)) = 0)
include hat htakes

theorem exec_rdnc_line (hgood : ∀ b ∈ burstsIn (lineByte (off / 64)) 64, b ∉ (s.stk (lineStack (off / 64))).ue) :
    ∃ stks, exec (.rdnc id addr 64) s = .next (({ s.arrived with stks := stks } : State).replied id
      (Map.slice 0 (s.stk (lineStack (off / 64))).mem (lineByte (off / 64)) 64)) := by
  have hat' : s.arrived.hostAt addr = .coherent off := hat
  have htakes' : s.arrived.stackTakes (lineStack (off / 64)) = 0 := htakes
  obtain ⟨_, hread, stks, rfl⟩ := State.lineRead_good (s := s.arrived) hgood
  refine ⟨stks, hostReq_line hst hheld hbinv hrecall hstore (by simp only [State.lineOf, hat]) ?_⟩
  simp only [State.hostOne, hat', htakes', ne_eq, not_true, if_false, hread]
  rfl

theorem exec_rds_line (hgood : ∀ b ∈ burstsIn (lineByte (off / 64)) 64, b ∉ (s.stk (lineStack (off / 64))).ue)
    (habsent : ∀ e ∈ s.rl.snoop, e.1 ≠ off / 64) (hroom : s.rl.snoop.length < 1048576) :
    ∃ stks, exec (.rds id addr) s = .next ((({ s.arrived with stks := stks } : State).modRl fun r =>
      { r with snoop := s.rl.snoop ++ [(off / 64, false)] }).replied id (Map.slice 0 (s.stk (lineStack (off / 64))).mem (lineByte (off / 64)) 64)) := by
  have hat' : s.arrived.hostAt addr = .coherent off := hat
  have htakes' : s.arrived.stackTakes (lineStack (off / 64)) = 0 := htakes
  obtain ⟨stks, hgrant⟩ := State.grantLine_absent (s := s.arrived) hgood habsent hroom id false
  refine ⟨stks, hostReq_line hst hheld hbinv hrecall hstore (by simp only [State.lineOf, hat]) ?_⟩
  simp only [State.hostOne, hat', htakes']
  exact hgrant

theorem exec_rdo_line (hgood : ∀ b ∈ burstsIn (lineByte (off / 64)) 64, b ∉ (s.stk (lineStack (off / 64))).ue)
    (habsent : ∀ e ∈ s.rl.snoop, e.1 ≠ off / 64) (hroom : s.rl.snoop.length < 1048576) :
    ∃ stks, exec (.rdo id addr) s = .next ((({ s.arrived with stks := stks } : State).modRl fun r =>
      { r with snoop := s.rl.snoop ++ [(off / 64, true)] }).replied id (Map.slice 0 (s.stk (lineStack (off / 64))).mem (lineByte (off / 64)) 64)) := by
  have hat' : s.arrived.hostAt addr = .coherent off := hat
  have htakes' : s.arrived.stackTakes (lineStack (off / 64)) = 0 := htakes
  obtain ⟨stks, hgrant⟩ := State.grantLine_absent (s := s.arrived) hgood habsent hroom id true
  refine ⟨stks, hostReq_line hst hheld hbinv hrecall hstore (by simp only [State.lineOf, hat]) ?_⟩
  simp only [State.hostOne, hat', htakes']
  exact hgrant

theorem exec_rdo_held (hrecorded : ∃ e ∈ s.rl.snoop, e.1 = off / 64) : exec (.rdo id addr) s =
    .next ((s.arrived.modRl fun r => { r with snoop := setLine r.snoop (off / 64) true }).replied id []) := by
  have hat' : s.arrived.hostAt addr = .coherent off := hat
  have htakes' : s.arrived.stackTakes (lineStack (off / 64)) = 0 := htakes
  refine hostReq_line hst hheld hbinv hrecall hstore (by simp only [State.lineOf, hat]) ?_
  simp only [State.hostOne, hat', htakes']
  exact State.grantLine_held (s := s.arrived) hrecorded id

theorem exec_wrline_line {data : List Byte} (h : data.length = 64) : ∃ rl, exec (.wrline id addr data) s =
    .next (({ s.arrived.lineWrite (off / 64) [(0, data)] with rl := rl } : State).replied id []) := by
  have hat' : s.arrived.hostAt addr = .coherent off := hat
  have htakes' : s.arrived.stackTakes (lineStack (off / 64)) = 0 := htakes
  have hshared : ∀ s1 : State, ∃ rl, (if s1.rl.snoop.any fun p => decide (p.1 = off / 64)
      then s1.modRl fun r => { r with snoop := setLine r.snoop (off / 64) false } else s1) = { s1 with rl := rl } := fun s1 => by
    split <;> exact ⟨_, rfl⟩
  obtain ⟨rl, hrl⟩ := hshared (s.arrived.lineWrite (off / 64) [(0, data)])
  refine ⟨rl, hostReq_line hst hheld hbinv hrecall hstore (by simp only [State.lineOf, hat]) ?_⟩
  simp only [State.hostOne, hat', htakes', padTo_of_length h]
  rw [hrl]

theorem exec_wrpart_line (mask : Word) (data : List Byte) : exec (.wrpart id addr mask data) s =
    .next ((s.arrived.lineWrite (off / 64) (maskParts mask data)).replied id []) := by
  have hat' : s.arrived.hostAt addr = .coherent off := hat
  have htakes' : s.arrived.stackTakes (lineStack (off / 64)) = 0 := htakes
  refine hostReq_line hst hheld hbinv hrecall hstore (by simp only [State.lineOf, hat]) ?_
  simp only [State.hostOne, hat', htakes']

theorem exec_evict_line : exec (.evict id addr) s =
    .next ((s.arrived.modRl fun r => { r with snoop := r.snoop.filter fun p => decide (p.1 ≠ off / 64) }).replied id []) := by
  have hat' : s.arrived.hostAt addr = .coherent off := hat
  have htakes' : s.arrived.stackTakes (lineStack (off / 64)) = 0 := htakes
  refine hostReq_line hst hheld hbinv hrecall hstore (by simp only [State.lineOf, hat]) ?_
  simp only [State.hostOne, hat', htakes']

end

end Sys2Proof.Machine

/-! # Answers of the host (R214, R219, R220, R224, R369, R375) -/

namespace Sys2Proof.Machine

/-- Requests to the host come and go; nothing else differs. -/
def State.OnlyAsks (a b : State) : Prop :=
  ∃ outs wants nextReq units, b = { a with rl := { a.rl with outs := outs, wants := wants, nextReq := nextReq, units := units } }

theorem State.ask_onlyAsks (s : State) (kind line own : Nat) : s.OnlyAsks (s.ask kind line own) := by
  unfold State.ask
  split <;> exact ⟨_, _, _, _, rfl⟩

theorem State.askDone_onlyAsks (s : State) (kind line own : Nat) : s.OnlyAsks (s.askDone kind line own) := by
  unfold State.askDone
  split
  · exact ⟨_, _, _, _, rfl⟩
  · extract_lets s1
    split
    · exact ⟨_, _, _, _, rfl⟩
    · next w rest _ =>
      obtain ⟨outs, wants, nextReq, units, hask⟩ := (s1.modRl fun r => { r with wants := rest }).ask_onlyAsks w.kind w.line w.own
      exact ⟨outs, wants, nextReq, units, hask⟩

theorem filter_ne_eq_filter_bne {α : Type} (f : α → Nat) (l : List α) (n : Nat) :
    l.filter (fun k => decide (f k ≠ n)) = l.filter (fun k => f k != n) :=
  List.filter_congr fun k _ => by rw [bne, decide_not, beq_eq_decide]

/-! ## Lines that come back -/

theorem State.serveHeld_of_none {s : State} (h : s.rl.held = []) : s.serveHeld = s := by
  rw [State.serveHeld, h]
  exact State.eq_modRl_held h

/-- The line of a `BINV` is back and out of the filter. -/
def State.returned (s : State) (line : Nat) (data : List Byte) : State := (s.lineWrite line [(0, data)]).modRl fun r => { r with
  binv := r.binv.filter fun k => decide (k ≠ line)
  snoop := r.snoop.filter fun p => decide (p.1 ≠ line) }

/-- The line of a `RECALL` is back and held shared. -/
def State.recalled (s : State) (line : Nat) (data : List Byte) : State := (s.lineWrite line [(0, data)]).modRl fun r => { r with
  recalls := r.recalls.filter fun k => decide (k ≠ line)
  snoop := if r.snoop.any fun p => decide (p.1 = line) then setLine r.snoop line false else r.snoop }

theorem not_mem_setLine_owned (l : List (Nat × Bool)) (line : Nat) :
    (line, true) ∉ if l.any fun p => decide (p.1 = line) then setLine l line false else l := by
  intro h
  split at h
  · next hany =>
    rw [setLine, if_pos hany] at h
    obtain ⟨p, -, hp⟩ := List.mem_map.mp h
    split at hp
    · exact absurd (congrArg Prod.snd hp) Bool.false_ne_true
    · next hne => exact hne (congrArg Prod.fst hp)
  · next hnone => exact hnone (List.any_eq_true.mpr ⟨_, h, decide_eq_true rfl⟩)

section

variable {s : State} {line : Nat} {data : List Byte} (hst : s.rl.st = 4) (hheld : s.rl.held = []) (hdata : data.length = 64)
include hst hheld hdata

theorem exec_invack_binv (hhcw : s.rl.hcwStat ≠ 1) (hasked : s.asked 0 line 0 = true) :
    ∃ e, exec (.invack line (some data)) s = .next e ∧ (s.returned line data).OnlyAsks e := by
  obtain ⟨stks, hwrite⟩ := s.lineWrite_onlyStks line [(0, data)]
  have hrl : (s.lineWrite line [(0, data)]).rl = s.rl := by rw [hwrite]
  have hdone := (s.returned line data).askDone_onlyAsks 0 line 0
  refine ⟨_, ?_, hdone⟩
  obtain ⟨_, _, _, _, hdone⟩ := hdone
  have hwait : ((s.returned line data).askDone 0 line 0).rl.held = [] := by
    rw [hdone]
    exact (congrArg Rl.held hrl).trans hheld
  have hsize : ((s.returned line data).askDone 0 line 0).rl.hcwStat ≠ 1 := by
    rw [hdone]
    exact fun h => hhcw ((congrArg Rl.hcwStat hrl).symm.trans h)
  have hexec : exec (.invack line (some data)) s = .next ((s.returned line data).askDone 0 line 0).serveHeld.retryHcw := by
    refine (if_neg (not_not.mpr hst)).trans ((if_pos hasked).trans ?_)
    dsimp only
    rw [padTo_of_length hdata]
    rfl
  rw [hexec, State.serveHeld_of_none hwait, State.retryHcw, if_neg fun h => hsize h.1]

theorem exec_invack_recall (hnot : s.asked 0 line 0 = false) (hasked : s.asked 1 line 0 = true) :
    ∃ e, exec (.invack line (some data)) s = .next e ∧ (s.recalled line data).OnlyAsks e := by
  obtain ⟨stks, hwrite⟩ := s.lineWrite_onlyStks line [(0, data)]
  have hrl : (s.lineWrite line [(0, data)]).rl = s.rl := by rw [hwrite]
  have hdone := (s.recalled line data).askDone_onlyAsks 1 line 0
  refine ⟨_, ?_, hdone⟩
  obtain ⟨_, _, _, _, hdone⟩ := hdone
  have hwait : ((s.recalled line data).askDone 1 line 0).rl.held = [] := by
    rw [hdone]
    exact (congrArg Rl.held hrl).trans hheld
  have hexec : exec (.invack line (some data)) s = .next ((s.recalled line data).askDone 1 line 0).serveHeld := by
    refine (if_neg (not_not.mpr hst)).trans ((if_neg (by rw [hnot]; decide)).trans ((if_pos hasked).trans ?_))
    dsimp only
    rw [padTo_of_length hdata]
    rfl
  rw [hexec, State.serveHeld_of_none hwait]

end

/-! ## Transfers of host memory -/

/-- A transfer that waits for a line is its tag's, and of the direction asked for. -/
theorem State.waiting_some {s : State} {t tag line : Nat} {store : Bool} {x : Xfer} (h : s.waiting t tag line store = some x) :
    x.tag = tag ∧ (dDir x.d = 1 ↔ store = true) := by
  have hx := List.find?_some h
  simp only [Bool.and_eq_true, decide_eq_true_eq] at hx
  obtain ⟨⟨⟨⟨⟨⟨htag, -⟩, -⟩, hdir⟩, -⟩, -⟩, -⟩ := hx
  exact ⟨htag, hdir ▸ Iff.rfl⟩

section

variable {s : State} {t tag addr : Nat} {x : Xfer} (ht : t < 2304)
include ht

theorem exec_hrdResponse (hx : s.waiting t tag (addr / 64) false = some x) (err : Bool) (data : List Byte) :
    exec (.hrdResponse t tag addr err data) s =
      if err then .next ((s.askDone 2 (addr / 64) (ownOf t tag)).devFault 0x45 (tag * 2 ^ 16 + t))
      else .next ((s.askDone 2 (addr / 64) (ownOf t tag)).setXfer t
        { x.answered (addr / 64) with host := Map.setRange 0 x.host (addr / 64 * 64) (padTo 64 data) }) := by
  refine (if_neg (Nat.not_le.mpr ht)).trans ?_
  rw [hx]

/-- The bytes of a store that lie in a line: where in host memory, where in the scratchpad, how many. -/
def Xfer.lineParts (x : Xfer) (j : Job) (addr : Nat) : List (Nat × Nat × Nat) :=
  x.segs.filterMap fun g =>
    let a := (x.base j).toNat + 4096 * g.blk + g.off
    let lo := max a (64 * (addr / 64))
    let hi := min (a + g.len) (64 * (addr / 64) + 64)
    if lo < hi then some (lo, g.sp + (lo - a), hi - lo) else none

/-- One part of a line leaves for the host, unless its rows have a parity error. -/
def State.sendPart (c : Acct) (id : Nat) (s : State) (p : Nat × Nat × Nat) : State :=
  andThen (s.opRead c id (p.2.1 / 512) ((p.2.1 + p.2.2 - 1) / 512 - p.2.1 / 512 + 1)) fun s b =>
    s.modRl fun rl => { rl with hostOut := rl.hostOut ++ [(p.1, (b.drop (p.2.1 - 512 * (p.2.1 / 512))).take p.2.2)] }

theorem exec_hwrCompletion (hx : s.waiting t tag (addr / 64) true = some x) (hclamp : s.power.clamp = false) :
    exec (.hwrCompletion t tag addr false) s =
      if x.cut s.job then .next ((s.askDone 3 (addr / 64) (ownOf t tag)).portMove (x.acct t) x .none)
      else
        let s0 := s.askDone 3 (addr / 64) (ownOf t tag)
        match (if x.sent then none else hostSealCheck (s0.tile t) x) with
        | some p => .next (s0.crcFault (x.acct t) x p.1 p.2 (((segBlocks x.segs).findIdx? fun b => decide (b = p.2)).getD 0))
        | none => .next (((x.lineParts s0.job addr).foldl (State.sendPart (x.acct t) x.id) s0).setXfer t
          { x.answered (addr / 64) with sent := true }) := by
  refine (if_neg (Nat.not_le.mpr ht)).trans ?_
  rw [hx]
  dsimp only
  rw [if_neg Bool.false_ne_true, hclamp, if_neg Bool.false_ne_true]
  rfl

end

/-- A store of host memory of an old epoch sends nothing more and ends (R214). -/
theorem State.portMove_cut_store {s : State} {c : Acct} {x : Xfer} (hcut : x.cut s.job = true) (hdir : dDir x.d = 1)
    (hhost : x.isHost s.job = true) (e : HbmErr) :
    s.portMove c x e = (((s.took).countTile c.t 0x550 1).countTile c.t 0x548 (x.hostSent s.job)).portDone c.t x := by
  unfold State.portMove
  extract_lets cut n l s0 s1 bs s2
  have hs0 : s0 = (s.took).countTile c.t 0x550 1 := if_pos hcut
  rw [if_pos hhost, if_pos hdir, hs0]

/-- Lines that leave change nothing but what the host takes and the accounting of the rows read. -/
theorem State.sendParts_accessed {s : State} {c : Acct} {id : Nat} (hq : s.Quiet c.t id) (l : List (Nat × Nat × Nat)) :
    let e := l.foldl (State.sendPart c id) s
    s.Accessed e c.t ∧ (e.tile c.t).sp = (s.tile c.t).sp ∧ ∃ more, e.rl.hostOut = s.rl.hostOut ++ more := by
  induction l generalizing s with
  | nil => exact ⟨⟨(Tile.Noted.refl _).toAccessed, fun _ _ => rfl, rfl, rfl, rfl⟩, rfl, [], (List.append_nil _).symm⟩
  | cons p l ih =>
    have hread := State.opRead_reads hq (p.2.1 / 512) ((p.2.1 + p.2.2 - 1) / 512 - p.2.1 / 512 + 1)
    have hrest := State.opRead_rest hq (p.2.1 / 512) ((p.2.1 + p.2.2 - 1) / 512 - p.2.1 / 512 + 1)
    have hacc : s.Accessed (s.sendPart c id p) c.t := by
      rw [State.sendPart, hread.andThen_eq]
      exact ⟨hread.tile, hread.tiles, hread.clusters, hread.job, hread.dbg⟩
    have hout : ∃ d, (State.sendPart c id s p).rl.hostOut = s.rl.hostOut ++ [d] := by
      rw [State.sendPart, hread.andThen_eq, hrest]
      exact ⟨_, rfl⟩
    have hsp : ((s.sendPart c id p).tile c.t).sp = (s.tile c.t).sp := by
      rw [State.sendPart, hread.andThen_eq]
      exact hread.sp
    obtain ⟨d, hout⟩ := hout
    obtain ⟨hacc', hsp', more, hmore⟩ := ih (hq.of_accessed hacc)
    exact ⟨hacc.trans hacc', hsp'.trans hsp, d :: more, by rw [List.foldl_cons, hmore, hout, List.append_assoc]; rfl⟩

theorem State.setXfer_io (s : State) (t : Nat) (x : Xfer) :
    ((s.setXfer t x).tile t).io.tags = (s.tile t).io.tags.map fun g => if g.tag = x.tag then x else g := by
  rw [State.setXfer, State.modTile_tile_self]
  rfl

theorem State.setXfer_sp (s : State) (t : Nat) (x : Xfer) : ((s.setXfer t x).tile t).sp = (s.tile t).sp := by
  rw [State.setXfer, State.modTile_tile_self]
  rfl

/-! ## Settlement -/

/-- A register does not read otherwise because a request has arrived. -/
theorem State.readReg_arrived (s : State) (a : Nat) : s.arrived.readReg a = s.readReg a := by
  unfold State.readReg
  split <;> rfl

/-- A line written in a mailbox page is there, and no other page changes (R378). -/
theorem mailbox_wrline {s : State} {id addr off : Nat} (hst : s.rl.st = 4) (hheld : s.rl.held = []) (hat : s.hostAt addr = .mailbox off)
    {data : List Byte} (hdata : data.length = 64) : ∃ s', exec (.wrline id addr data) s = .next s' ∧ s'.pageRead off = data ∧
      s'.rl.resp = some (id % 4096, 0, []) ∧ ∀ k, k ≠ off / 4096 % 64 → s'.page k = s.page k := by
  have hpage : ∀ (e : State) k, (e.replied id []).page k = e.page k := fun _ _ => rfl
  have hread : ∀ e : State, (e.replied id []).pageRead off = e.pageRead off := fun _ => rfl
  refine ⟨_, exec_wrline_mailbox hst hheld hat hdata, (hread _).trans (s.arrived.pageRead_pageWrite off hdata), rfl, fun k hk => ?_⟩
  exact (hpage _ k).trans ((State.modPage_page s.arrived (off / 4096 % 64) _ k).trans (if_neg hk))

/-- A mailbox line and a register are read (R365, R367, R522). -/
theorem mailbox_and_register_reads (s : State) (id addr : Nat) (hst : s.rl.st = 4) (hheld : s.rl.held = []) :
    (∀ off, s.hostAt addr = .mailbox off → s.HostAnswers (.rdnc id addr 64) id (s.pageRead off) (fun s' => s'.helm = s.helm)) ∧
    (∀ off, s.hostAt addr = .register off → off % 8 = 0 →
      s.HostAnswers (.rdnc id addr 8) id (wordBytes (s.readReg off)) (fun s' => s'.stks = s.stks)) := by
  refine ⟨fun off hat => ?_, fun off hat h8 => ?_⟩
  · have hexec := exec_rdnc_mailbox (id := id) hst hheld hat
    exact State.answers_of_replied hexec rfl rfl fun _ _ => rfl
  · have hexec := exec_rdnc_register (id := id) hst hheld hat h8
    rw [State.readReg_arrived] at hexec
    exact State.answers_of_replied hexec rfl rfl fun _ _ => rfl

section

variable {s : State} {id addr off : Nat} (hst : s.rl.st = 4) (hheld : s.rl.held = []) (hbinv : off / 64 ∉ s.rl.binv)
  (hrecall : off / 64 ∉ s.rl.recalls) (hstore : s.storeAhead (off / 64) s.rl.home = false) (hat : s.hostAt addr = .coherent off)
  (htakes : s.stackTakes (lineStack (off / 64)) = 0)
include hst hheld hbinv hrecall hstore hat htakes

/-- A line that is read (R368). -/
theorem coherent_read (hgood : ∀ b ∈ burstsIn (lineByte (off / 64)) 64, b ∉ (s.stk (lineStack (off / 64))).ue) :
    let bytes := Map.slice 0 (s.stk (lineStack (off / 64))).mem (lineByte (off / 64)) 64
    s.HostAnswers (.rdnc id addr 64) id bytes (fun s' => s'.rl.snoop = s.rl.snoop) ∧
      ((∀ e ∈ s.rl.snoop, e.1 ≠ off / 64) → s.rl.snoop.length < 1048576 →
        s.HostAnswers (.rds id addr) id bytes (fun s' => s'.rl.snoop = s.rl.snoop ++ [(off / 64, false)]) ∧
        s.HostAnswers (.rdo id addr) id bytes (fun s' => s'.rl.snoop = s.rl.snoop ++ [(off / 64, true)])) := by
  intro bytes
  refine ⟨?_, fun habsent hroom => ⟨?_, ?_⟩⟩
  · obtain ⟨stks, hexec⟩ := exec_rdnc_line hst hheld hbinv hrecall hstore hat htakes hgood
    exact State.answers_of_replied hexec rfl rfl fun _ h => h
  · obtain ⟨stks, hexec⟩ := exec_rds_line hst hheld hbinv hrecall hstore hat htakes hgood habsent hroom
    exact State.answers_of_replied hexec rfl rfl fun _ h => h
  · obtain ⟨stks, hexec⟩ := exec_rdo_line hst hheld hbinv hrecall hstore hat htakes hgood habsent hroom
    exact State.answers_of_replied hexec rfl rfl fun _ h => h

theorem coherent_wrline {data : List Byte} (hdata : data.length = 64) : s.HostAnswers (.wrline id addr data) id [] fun s' =>
    Map.slice 0 (s'.stk (lineStack (off / 64))).mem (lineByte (off / 64)) 64 = data ∧
    (∀ j, j < lineByte (off / 64) ∨ lineByte (off / 64) + 64 ≤ j →
      Map.get 0 (s'.stk (lineStack (off / 64))).mem j = Map.get 0 (s.stk (lineStack (off / 64))).mem j) ∧
    Map.get false (s'.stk (lineStack (off / 64))).crcV (lineByte (off / 64) / 4096) = false ∧
    ∀ u, u ≠ lineStack (off / 64) → s'.stk u = s.stk u := by
  obtain ⟨rl, hexec⟩ := exec_wrline_line hst hheld hbinv hrecall hstore hat htakes hdata
  obtain ⟨stks, hwrite⟩ := s.arrived.lineWrite_onlyStks (off / 64) [(0, data)]
  have hline := s.arrived.lineWrite_line (off / 64) hdata
  refine State.answers_of_replied hexec (congrArg State.job hwrite :) (congrArg State.tiles hwrite :) fun _ _ => ⟨hline.1, hline.2, ?_, fun u hu => ?_⟩
  · exact (s.arrived.lineWrite_stk (off / 64) _).2
  · exact s.arrived.lineWrite_stk_ne (off / 64) _ hu

theorem coherent_wrpart (mask : Word) (data : List Byte) : s.HostAnswers (.wrpart id addr mask data) id [] fun s' =>
    (∀ i < 64, Map.get 0 (s'.stk (lineStack (off / 64))).mem (lineByte (off / 64) + i) =
      if bit mask i then data.getD i 0 else Map.get 0 (s.stk (lineStack (off / 64))).mem (lineByte (off / 64) + i)) ∧
    ∀ j, j < lineByte (off / 64) ∨ lineByte (off / 64) + 64 ≤ j →
      Map.get 0 (s'.stk (lineStack (off / 64))).mem j = Map.get 0 (s.stk (lineStack (off / 64))).mem j := by
  obtain ⟨stks, hwrite⟩ := s.arrived.lineWrite_onlyStks (off / 64) (maskParts mask data)
  have hbyte := s.arrived.lineWrite_masked (off / 64) mask data
  refine State.answers_of_replied (exec_wrpart_line hst hheld hbinv hrecall hstore hat htakes mask data) (congrArg State.job hwrite :)
    (congrArg State.tiles hwrite :) fun _ _ => ⟨fun i hi => (hbyte _).trans ?_, fun j hj => (hbyte j).trans (if_neg fun hmem => ?_)⟩
  · have hmem : lineByte (off / 64) + i ∈ ((List.range 64).filter (bit mask)).map (lineByte (off / 64) + ·) ↔ bit mask i = true := by
      simp [hi]
    rw [if_congr hmem (congrArg (data.getD · 0) (Nat.add_sub_cancel_left _ _)) rfl]
    rfl
  · obtain ⟨i, hi, rfl⟩ := List.mem_map.mp hmem
    have hlt := List.mem_range.mp (List.mem_filter.mp hi).1
    omega

end

section

variable {s : State} {t tag addr : Nat} {x : Xfer} (ht : t < 2304) (hx : s.waiting t tag (addr / 64) true = some x)
  (hclamp : s.power.clamp = false)
include ht hx hclamp

/-- A store of an old epoch ends (R214). -/
theorem hwrCompletion_old (hold : x.epoch ≠ s.job.epoch) (hhost : x.isHost s.job = true) :
    ∃ s', exec (.hwrCompletion t tag addr false) s = .next s' ∧
      (s'.tile t).io.tags = (s.tile t).io.tags.filter (fun g => g.tag != tag) ∧
      Map.get 0 (s'.tile t).ctr 0x550 = Map.get 0 (s.tile t).ctr 0x550 + 1 := by
  obtain ⟨htag, hdir⟩ := State.waiting_some hx
  obtain ⟨_, _, _, _, hdone⟩ := s.askDone_onlyAsks 3 (addr / 64) (ownOf t tag)
  have hexec := (exec_hwrCompletion ht hx hclamp).trans (if_pos (decide_eq_true hold))
  have htile : (s.askDone 3 (addr / 64) (ownOf t tag)).tile t = s.tile t := by
    rw [hdone]
    rfl
  rw [State.portMove_cut_store (by rw [hdone]; exact decide_eq_true hold) (hdir.mpr rfl) (by rw [hdone]; exact hhost),
    show (x.acct t).t = t from rfl] at hexec
  refine ⟨_, hexec, ?_, ?_⟩
  · rw [State.portDone_tile, htag, filter_ne_eq_filter_bne Xfer.tag]
    simp only [State.countTile, State.modTile_tile_self, Tile.count_io, State.took_tile, htile]
  · rw [State.portDone_ctr _ _ _ (by decide)]
    simp only [State.countTile, State.modTile_tile_self, State.took_tile, htile]
    rw [Tile.countOther _ _ _ _ (by decide), Tile.countSelf]
    rfl

/-- A line of a store whose check has passed leaves (R220). -/
theorem hwrCompletion_line (hnow : x.epoch = s.job.epoch) (hsent : x.sent = true) (hq : s.Quiet t x.id) :
    ∃ s', exec (.hwrCompletion t tag addr false) s = .next s' ∧ (∀ g ∈ (s'.tile t).io.tags, g.tag = tag → addr / 64 ∉ g.left) ∧
      (s'.tile t).sp = (s.tile t).sp ∧ (s'.tile t).io.tags.length = (s.tile t).io.tags.length ∧
      s'.rl.hostOut.take s.rl.hostOut.length = s.rl.hostOut := by
  obtain ⟨htag, -⟩ := State.waiting_some hx
  obtain ⟨_, _, _, _, hdone⟩ := s.askDone_onlyAsks 3 (addr / 64) (ownOf t tag)
  have hcut : x.cut s.job = false := decide_eq_false (not_not.mpr hnow)
  have hexec := (exec_hwrCompletion ht hx hclamp).trans (if_neg (by rw [hcut]; decide))
  have hq' : (s.askDone 3 (addr / 64) (ownOf t tag)).Quiet (x.acct t).t x.id := by
    rw [hdone]
    exact ⟨hq.noBreak, hq.parity, hq.reads, hq.writes, hq.banks⟩
  obtain ⟨hacc, hsp, more, hout⟩ := State.sendParts_accessed hq' (x.lineParts (s.askDone 3 (addr / 64) (ownOf t tag)).job addr)
  dsimp only at hexec
  rw [if_pos hsent] at hexec
  have htile : (s.askDone 3 (addr / 64) (ownOf t tag)).tile t = s.tile t := by
    rw [hdone]
    rfl
  have hrl : (s.askDone 3 (addr / 64) (ownOf t tag)).rl.hostOut = s.rl.hostOut := by rw [hdone]
  have htags := hacc.tile.io
  change Tile.io (State.tile _ t) = Tile.io (State.tile _ t) at htags
  rw [htile] at htags
  refine ⟨_, hexec, fun g hg hgtag => ?_, ?_, ?_, ?_⟩
  · rw [State.setXfer_io] at hg
    obtain ⟨g', -, rfl⟩ := List.mem_map.mp hg
    split at hgtag
    · next heq =>
      rw [if_pos heq]
      exact fun hleft => of_decide_eq_true (List.mem_filter.mp hleft).2 rfl
    · next hne => exact absurd (hgtag.trans htag.symm) hne
  · rw [State.setXfer_sp]
    exact hsp.trans (congrArg Tile.sp htile)
  · rw [State.setXfer_io, List.length_map, htags]
  · refine (congrArg (List.take s.rl.hostOut.length) (hout.trans (congrArg (· ++ more) hrl))).trans ?_
    exact List.take_left

end

/-- Settles O45. -/
theorem hostRequests : Obligations.HostRequests := by
  unfold Obligations.HostRequests
  refine ⟨fun s id addr hst hheld => ⟨fun hat len mask data => exec_no_window hst hheld hat len mask data, fun off hat => ⟨?_, fun data hdata => ?_⟩,
    fun off hat => ⟨fun h8 => ?_, fun i hi data => ?_⟩, fun off hat htakes hbinv hrecall hstore => ⟨fun hgood => ?_,
      fun hrecorded => ?_, fun data hdata => ?_, fun mask data => ?_, ?_⟩⟩,
    fun s line data hst hheld hhcw hdata => ⟨fun h0 h1 => ?_, fun h0 => ?_, fun h0 h1 => ?_⟩,
    fun s t tag addr x data ht hx => ⟨?_, ?_⟩,
    fun s t tag addr x ht hx => ⟨?_, fun hclamp => ?_, fun hclamp hold hhost => ?_, fun hclamp hnow hsent hq => ?_⟩⟩
  · exact (mailbox_and_register_reads s id addr hst hheld).1 off hat
  · exact mailbox_wrline hst hheld hat hdata
  · exact (mailbox_and_register_reads s id addr hst hheld).2 off hat h8
  · exact exec_wrpart_register hst hheld hat hi data
  · exact coherent_read hst hheld hbinv hrecall hstore hat htakes hgood
  · exact State.answers_of_replied (exec_rdo_held hst hheld hbinv hrecall hstore hat htakes hrecorded) rfl rfl fun _ h =>
      ⟨h ▸ mem_setLine hrecorded true, rfl⟩
  · exact coherent_wrline hst hheld hbinv hrecall hstore hat htakes hdata
  · exact coherent_wrpart hst hheld hbinv hrecall hstore hat htakes mask data
  · exact State.answers_of_replied (exec_evict_line hst hheld hbinv hrecall hstore hat htakes) rfl rfl fun _ h =>
      ⟨h.trans (filter_ne_eq_filter_bne Prod.fst _ _), rfl⟩
  · refine (if_neg (not_not.mpr hst)).trans ((if_neg ?_).trans (if_neg ?_))
    · rw [h0]
      decide
    · rw [h1]
      decide
  · obtain ⟨_, hexec, _, _, _, _, rfl⟩ := exec_invack_binv hst hheld hdata hhcw h0
    refine ⟨_, hexec, fun hmem => ?_, fun e he => ?_, (s.lineWrite_line line hdata).1⟩
    · exact of_decide_eq_true (List.mem_filter.mp hmem).2 rfl
    · exact of_decide_eq_true (List.mem_filter.mp he).2
  · obtain ⟨_, hexec, _, _, _, _, rfl⟩ := exec_invack_recall hst hheld hdata h0 h1
    refine ⟨_, hexec, fun hmem => ?_, not_mem_setLine_owned _ line, (s.lineWrite_line line hdata).1⟩
    exact of_decide_eq_true (List.mem_filter.mp hmem).2 rfl
  · exact exec_hrdResponse ht hx true data
  · refine (exec_hrdResponse ht hx false data).trans ?_
    have hleft : x.left.filter (fun k => decide (k ≠ addr / 64)) = x.left.filter (fun k => k != addr / 64) := filter_ne_eq_filter_bne id _ _
    rw [Xfer.answered, hleft]
    rfl
  · refine (if_neg (Nat.not_le.mpr ht)).trans ?_
    rw [hx]
    rfl
  · refine (if_neg (Nat.not_le.mpr ht)).trans ?_
    rw [hx]
    exact if_pos hclamp
  · exact hwrCompletion_old ht hx hclamp hold hhost
  · exact hwrCompletion_line ht hx hclamp hnow hsent hq

end Sys2Proof.Machine

/-! # The command word of Sextant, and what halts and releases do (R481, R484) -/

namespace Sys2Proof.Machine

/-! ## The command word -/

section

variable (op scope space unit len : Nat) (q : Strm)

theorem sxWord_op : fld (sxWord op scope space unit len q) 56 8 = op % 2 ^ 8 := by
  simp (disch := omega) only [sxWord, fld_or, fld_place_self, fld_place_of_disjoint, Nat.or_zero]

theorem sxWord_scope : fld (sxWord op scope space unit len q) 52 4 = scope % 2 ^ 4 := by
  simp (disch := omega) only [sxWord, fld_or, fld_place_self, fld_place_of_disjoint, Nat.or_zero, Nat.zero_or]

theorem sxWord_space : fld (sxWord op scope space unit len q) 48 4 = space % 2 ^ 4 := by
  simp (disch := omega) only [sxWord, fld_or, fld_place_self, fld_place_of_disjoint, Nat.or_zero, Nat.zero_or]

theorem sxWord_strm : strmOf (fld (sxWord op scope space unit len q) 46 2) = q := by
  simp (disch := omega) only [sxWord, fld_or, fld_place_self, fld_place_of_disjoint, Nat.or_zero, Nat.zero_or]
  cases q <;> rfl

theorem sxWord_reserved : fld (sxWord op scope space unit len q) 44 2 = 0 := by
  simp (disch := omega) only [sxWord, fld_or, fld_place_of_disjoint, Nat.or_zero]

theorem sxWord_unit : fld (sxWord op scope space unit len q) 32 12 = unit % 2 ^ 12 := by
  simp (disch := omega) only [sxWord, fld_or, fld_place_self, fld_place_of_disjoint, Nat.or_zero, Nat.zero_or]

theorem sxWord_len : fld (sxWord op scope space unit len q) 0 32 = len % 2 ^ 32 := by
  simp (disch := omega) only [sxWord, fld_or, fld_place_self, fld_place_of_disjoint, Nat.zero_or]

end

/-! ## Halts and releases of a tile -/

/-- The lowest scope that holds a stream. -/
def Tile.heldAt (x : Tile) (q : Strm) : Nat := Map.get 0 x.misc.haltAt (Strm.code q)

theorem Strm.code_inj {q r : Strm} (h : r ≠ q) : Strm.code r ≠ Strm.code q := by
  cases q <;> cases r <;> simp_all [Strm.code]

section

variable (x : Tile) (q r : Strm) (n : Nat)

theorem Tile.setHalt_halted (h : Bool) : (x.setHalt q h).halted r = if r = q then h else x.halted r := by
  cases q <;> cases r <;> rfl

theorem Tile.modMisc_halted (f : TileMisc → TileMisc) : (x.modMisc f).halted r = x.halted r := by
  cases r <;> rfl

theorem Tile.haltBy_halted : (x.haltBy q n).halted r = if r = q then true else x.halted r := by
  rw [Tile.haltBy, Tile.modMisc_halted, Tile.setHalt_halted]

theorem Tile.setHalt_misc (h : Bool) : (x.setHalt q h).misc = x.misc := by
  cases q <;> rfl

/-- A release at a scope frees a stream that no lower scope holds (R484). -/
theorem Tile.releaseAt_self : (x.releaseAt q n).halted q = (x.halted q && decide (x.heldAt q < n)) ∧
    (x.releaseAt q n).heldAt q = if x.heldAt q < n then x.heldAt q else 0 := by
  unfold Tile.releaseAt
  by_cases h : n ≤ Map.get 0 x.misc.haltAt (Strm.code q)
  · have hnot : ¬ x.heldAt q < n := Nat.not_lt.mpr h
    rw [if_pos h, Tile.modMisc_halted, Tile.setHalt_halted, if_pos rfl, if_neg hnot, decide_eq_false hnot, Bool.and_false]
    exact ⟨rfl, Map.get_set_self _ _ _ _⟩
  · have hlt : x.heldAt q < n := Nat.lt_of_not_le h
    rw [if_neg h, if_pos hlt, decide_eq_true hlt, Bool.and_true]
    exact ⟨rfl, rfl⟩

theorem Tile.releaseAt_ne (h : r ≠ q) : (x.releaseAt q n).halted r = x.halted r ∧ (x.releaseAt q n).heldAt r = x.heldAt r := by
  unfold Tile.releaseAt
  split
  · rw [Tile.modMisc_halted, Tile.setHalt_halted, if_neg h]
    refine ⟨rfl, ?_⟩
    rw [Tile.heldAt, Tile.modMisc, Tile.setHalt_misc]
    exact Map.get_set_ne _ _ _ _ _ (Strm.code_inj h)
  · exact ⟨rfl, rfl⟩

end

/-- Every stream of a tile is halted at a scope. -/
def Tile.haltAll (x : Tile) (n : Nat) : Tile := allStrms.foldl (fun x q => x.haltBy q n) x

/-- Every stream of a tile is released at a scope. -/
def Tile.releaseAll (x : Tile) (n : Nat) : Tile := allStrms.foldl (fun x q => x.releaseAt q n) x

theorem Tile.haltAll_halted (x : Tile) (n : Nat) (r : Strm) : (x.haltAll n).halted r = true := by
  cases r <;> simp [Tile.haltAll, allStrms, Tile.haltBy_halted]

/-- Whether a stream is halted, and the lowest scope that holds it. -/
def Tile.hold (x : Tile) (r : Strm) : Bool × Nat := (x.halted r, x.heldAt r)

/-- What a release at scope `n` makes of it. -/
def releaseHold (n : Nat) (p : Bool × Nat) : Bool × Nat := (p.1 && decide (p.2 < n), if p.2 < n then p.2 else 0)

theorem releaseHold_idem (n : Nat) (p : Bool × Nat) : releaseHold n (releaseHold n p) = releaseHold n p := by
  by_cases h : p.2 < n
  · simp [releaseHold, h]
  · simp [releaseHold, h]

theorem Tile.releaseAt_hold (x : Tile) (q r : Strm) (n : Nat) :
    (x.releaseAt q n).hold r = if r = q then releaseHold n (x.hold r) else x.hold r := by
  by_cases h : r = q
  · subst h
    obtain ⟨hhalt, hheld⟩ := x.releaseAt_self r n
    rw [if_pos rfl, Tile.hold, hhalt, hheld]
    rfl
  · obtain ⟨hhalt, hheld⟩ := x.releaseAt_ne q r n h
    rw [if_neg h, Tile.hold, hhalt, hheld]
    rfl

theorem Tile.foldl_releaseAt_hold (l : List Strm) (x : Tile) (r : Strm) (n : Nat) :
    (l.foldl (fun x q => x.releaseAt q n) x).hold r = if r ∈ l then releaseHold n (x.hold r) else x.hold r := by
  induction l generalizing x with
  | nil => rfl
  | cons q l ih =>
    rw [List.foldl_cons, ih, Tile.releaseAt_hold]
    by_cases hq : r = q
    · rw [if_pos hq, releaseHold_idem, ite_self, if_pos (hq ▸ List.mem_cons_self)]
    · rw [if_neg hq]
      exact if_congr ⟨List.mem_cons_of_mem q, fun h => (List.mem_cons.mp h).resolve_left hq⟩ rfl rfl

theorem Tile.releaseAll_hold (x : Tile) (n : Nat) (r : Strm) : (x.releaseAll n).hold r = releaseHold n (x.hold r) :=
  (Tile.foldl_releaseAt_hold allStrms x r n).trans (if_pos (by cases r <;> decide))

theorem Tile.releaseAll_halted (x : Tile) (n : Nat) (r : Strm) :
    (x.releaseAll n).halted r = (x.halted r && decide (x.heldAt r < n)) := congrArg Prod.fst (x.releaseAll_hold n r)

/-! ## Every tile of a list -/

theorem State.forAll_modTile_tile (F : Tile → Tile) (l : List Nat) (s : State) (u : Nat) :
    (s.forAll l fun s t => s.modTile t F).tile u = F^[l.count u] (s.tile u) := by
  induction l generalizing s with
  | nil => rfl
  | cons t l ih =>
    refine (ih (s.modTile t F)).trans ?_
    rw [State.modTile_tile]
    by_cases h : u = t
    · rw [if_pos h, ← h, List.count_cons_self, Function.iterate_succ_apply]
    · rw [if_neg h, List.count_cons_of_ne (Ne.symm h)]

theorem State.forAll_haltAll (l : List Nat) (s : State) (n : Nat) {u : Nat} (hu : u ∈ l) (r : Strm) :
    ((s.forAll l fun s t => s.modTile t fun x => x.haltAll n).tile u).halted r = true := by
  obtain ⟨k, hk⟩ := Nat.exists_eq_succ_of_ne_zero (List.count_pos_iff.mpr hu).ne'
  rw [State.forAll_modTile_tile (fun x => x.haltAll n), hk, Function.iterate_succ_apply']
  exact Tile.haltAll_halted _ n r

theorem State.forAll_releaseAll (l : List Nat) (s : State) (n : Nat) {u : Nat} (hu : u ∈ l) (r : Strm) :
    ((s.forAll l fun s t => s.modTile t fun x => x.releaseAll n).tile u).halted r = ((s.tile u).halted r && decide ((s.tile u).heldAt r < n)) := by
  have hiter : ∀ k (x : Tile), ((fun x : Tile => x.releaseAll n)^[k + 1] x).hold r = releaseHold n (x.hold r) := fun k => by
    induction k with
    | zero => exact fun x => x.releaseAll_hold n r
    | succ k ih => exact fun x => by rw [Function.iterate_succ_apply, ih, Tile.releaseAll_hold, releaseHold_idem]
  obtain ⟨k, hk⟩ := Nat.exists_eq_succ_of_ne_zero (List.count_pos_iff.mpr hu).ne'
  rw [State.forAll_modTile_tile (fun x => x.releaseAll n), hk]
  exact congrArg Prod.fst (hiter k (s.tile u))

theorem State.forAll_modTile_ne (F : Tile → Tile) (l : List Nat) (s : State) {u : Nat} (hu : u ∉ l) :
    (s.forAll l fun s t => s.modTile t F).tile u = s.tile u := by
  rw [State.forAll_modTile_tile, List.count_eq_zero_of_not_mem hu]
  rfl

end Sys2Proof.Machine

/-! # The commands of Sextant (R480 to R486, R517) -/

namespace Sys2Proof.Machine

/-! ## The engine -/

/-- A command has ended. -/
def State.sxEnded (s : State) (r : SxEnd) : State := s.modDbg fun d => { d with sxStat := r.stat, sx1 := r.r1, sx2 := r.r2, sxData := r.data }

/-- A `STEP` of the debug port waits for its instructions. -/
def State.sxWaits (s : State) : State := s.modDbg fun d => { d with
  sxBusy := true, sxStat := 0xFF, sxPage := none, sx1 := 0, sx2 := 0, sxData := [] }

/-- The engine is powered and idle, and no owner policy is against a command (R480, R517). -/
structure State.SxOpen (s : State) : Prop where
  on : s.power.on = true
  idle : s.dbg.sxBusy = false
  regs : s.regsOn = true
  policy : s.helm.policy % 4 < 2 ∨ s.job.img = none

/-- One command by its code. -/
def State.sxDo (s : State) (op scope space unit len : Nat) (q : Strm) (addr : Nat) (w3 : Word) (bulk : List Word) : SxOut :=
  match op with
  | 1 => s.sxHalt scope unit q
  | 2 => s.sxRelease scope unit q
  | 3 => s.sxStep scope unit q
  | 4 => s.sxStatus scope unit
  | 5 => s.sxEvent unit
  | 0x10 => s.sxMove false space unit addr len []
  | _ => s.sxMove true space unit addr len (if len = 8 then [w3] else bulk)

theorem State.SxOpen.unlocked {s : State} (h : s.SxOpen) (op space : Nat) : s.dbgLocked op space = false := by
  rw [State.dbgLocked]
  obtain hpol | himg := h.policy
  · rw [decide_eq_false (by omega), Bool.false_and, Bool.false_and]
  · rw [himg, Option.isSome_none, Bool.and_false, Bool.false_and]

section

variable {s : State}

/-- A command word of a code and scope that exist runs its command unless the owner's policy is against it (R481, R517). -/
theorem State.sextant_word (hregs : s.regsOn = true) {op scope : Nat} (hop : op ∈ [1, 2, 3, 4, 5, 0x10, 0x11]) (hscope : scope < 4)
    (space unit len : Nat) (q : Strm) (w2 w3 : Word) (bulk : List Word) :
    s.sextant (sxWord op scope space unit len q) w2 w3 bulk = if s.dbgLocked op (space % 16) then sxErr s 3
      else s.sxDo op scope (space % 16) (unit % 4096) (len % 2 ^ 32) q w2.toNat w3 bulk := by
  have hop8 : op % 2 ^ 8 = op := by
    simp only [List.mem_cons, List.not_mem_nil, or_false] at hop
    omega
  have hscope4 : scope % 2 ^ 4 = scope := by omega
  have hwell : ¬ (fld (sxWord op scope space unit len q) 44 2 ≠ 0 ∨ 4 ≤ scope ∨ ¬ [1, 2, 3, 4, 5, 0x10, 0x11].contains op) := by
    rw [sxWord_reserved]
    simp only [ne_eq, not_true, false_or, not_or, Nat.not_le, not_not]
    exact ⟨hscope, List.contains_iff_mem.mpr hop⟩
  unfold State.sextant
  extract_lets op' scope' space' q' unit' len'
  have hop' : op' = op := (sxWord_op op scope space unit len q).trans hop8
  have hscope' : scope' = scope := (sxWord_scope op scope space unit len q).trans hscope4
  have hspace' : space' = space % 16 := sxWord_space op scope space unit len q
  have hq' : q' = q := sxWord_strm op scope space unit len q
  have hunit' : unit' = unit % 4096 := sxWord_unit op scope space unit len q
  have hlen' : len' = len % 2 ^ 32 := sxWord_len op scope space unit len q
  rw [hop', hscope', hspace', hq', hunit', hlen', if_neg (by rw [hregs]; decide), if_neg hwell]
  rfl

theorem State.SxOpen.sextant_word (hs : s.SxOpen) {op scope : Nat} (hop : op ∈ [1, 2, 3, 4, 5, 0x10, 0x11]) (hscope : scope < 4)
    (space unit len : Nat) (q : Strm) (w2 w3 : Word) (bulk : List Word) : s.sextant (sxWord op scope space unit len q) w2 w3 bulk =
      s.sxDo op scope (space % 16) (unit % 4096) (len % 2 ^ 32) q w2.toNat w3 bulk :=
  (State.sextant_word hs.regs hop hscope space unit len q w2 w3 bulk).trans (if_neg (by rw [hs.unlocked]; decide))

theorem sxTap_ends {w1 w2 w3 : Word} {bulk : List Word} {s1 : State} {r : SxEnd} (hon : s.power.on = true) (hidle : s.dbg.sxBusy = false)
    (h : s.sextant w1 w2 w3 bulk = (s1, some r)) : sxTap w1 w2 w3 bulk s = .next (s1.sxEnded r) := by
  rw [sxTap, if_neg (not_not_intro hon), if_neg (by rw [hidle]; decide), h]
  rfl

theorem sxTap_waits {w1 w2 w3 : Word} {bulk : List Word} {s1 : State} (hon : s.power.on = true) (hidle : s.dbg.sxBusy = false)
    (h : s.sextant w1 w2 w3 bulk = (s1, none)) : sxTap w1 w2 w3 bulk s = .next s1.sxWaits := by
  rw [sxTap, if_neg (not_not_intro hon), if_neg (by rw [hidle]; decide), h]
  rfl

section

variable (hs : s.SxOpen) {scope t : Nat} {q : Strm} {s1 : State} {r : SxEnd} (hscope : scope < 4)
include hs hscope

theorem exec_halt_ends (h : s.sxHalt scope (t % 4096) q = (s1, some r)) : exec (.halt scope t q) s = .next (s1.sxEnded r) :=
  sxTap_ends hs.on hs.idle ((hs.sextant_word (by decide) hscope 0 t 0 q 0 0 []).trans h)

theorem exec_release_ends (h : s.sxRelease scope (t % 4096) q = (s1, some r)) : exec (.release scope t q) s = .next (s1.sxEnded r) :=
  sxTap_ends hs.on hs.idle ((hs.sextant_word (by decide) hscope 0 t 0 q 0 0 []).trans h)

theorem exec_step_ends (h : s.sxStep scope (t % 4096) q = (s1, some r)) : exec (.step scope t q) s = .next (s1.sxEnded r) :=
  sxTap_ends hs.on hs.idle ((hs.sextant_word (by decide) hscope 0 t 0 q 0 0 []).trans h)

theorem exec_step_waits (h : s.sxStep scope (t % 4096) q = (s1, none)) : exec (.step scope t q) s = .next s1.sxWaits :=
  sxTap_waits hs.on hs.idle ((hs.sextant_word (by decide) hscope 0 t 0 q 0 0 []).trans h)

theorem exec_status_ends (h : s.sxStatus scope (t % 4096) = (s1, some r)) : exec (.status scope t) s = .next (s1.sxEnded r) :=
  sxTap_ends hs.on hs.idle ((hs.sextant_word (by decide) hscope 0 t 0 .f 0 0 []).trans h)

end

section

variable (hs : s.SxOpen) {t : Nat} {s1 : State} {r : SxEnd}
include hs

theorem exec_event_ends (h : s.sxEvent (t % 4096) = (s1, some r)) : exec (.event t) s = .next (s1.sxEnded r) :=
  sxTap_ends hs.on hs.idle ((hs.sextant_word (by decide) (by decide) 0 t 0 .f 0 0 []).trans h)

variable {space addr len : Nat} (hspace : space < 16) (ht : t < 2304) (haddr : addr < 2 ^ 64) (hlen : len < 2 ^ 32)
include hspace ht haddr hlen

theorem exec_read_ends (h : s.sxMove false space t addr len [] = (s1, some r)) : exec (.read space t addr len) s = .next (s1.sxEnded r) := by
  refine sxTap_ends hs.on hs.idle ((hs.sextant_word (by decide) (by decide) space t len .f _ 0 []).trans ?_)
  rw [Nat.mod_eq_of_lt hspace, Nat.mod_eq_of_lt (show t < 4096 by omega), Nat.mod_eq_of_lt hlen, BitVec.toNat_ofNat, Nat.mod_eq_of_lt haddr]
  exact h

theorem exec_write_ends {data : List Word} (h : s.sxMove true space t addr len (if len = 8 then [data.headD 0] else data) = (s1, some r)) :
    exec (.write space t addr len data) s = .next (s1.sxEnded r) := by
  refine sxTap_ends hs.on hs.idle ((hs.sextant_word (by decide) (by decide) space t len .f _ _ data).trans ?_)
  rw [Nat.mod_eq_of_lt hspace, Nat.mod_eq_of_lt (show t < 4096 by omega), Nat.mod_eq_of_lt hlen, BitVec.toNat_ofNat, Nat.mod_eq_of_lt haddr]
  exact h

end

end

end Sys2Proof.Machine

/-! # What each command of Sextant does (R482 to R486, R517) -/

namespace Sys2Proof.Machine

section

variable {s : State} {t : Nat}

theorem onTile_on (ht : t < 2304) (hon : s.tileOn t = true) (f : SxOut) : onTile s t f = f := by
  rw [onTile, if_neg (Nat.not_le.mpr ht), if_pos hon]

theorem onTile_off (ht : t < 2304) (hoff : s.tileOn t = false) (f : SxOut) : onTile s t f = sxErr s 2 := by
  rw [onTile, if_neg (Nat.not_le.mpr ht), if_neg (by rw [hoff]; decide)]

/-- A tile's number as the command word holds it. -/
theorem onTile_mod (ht : t < 2304) (hon : s.tileOn t = true) (f : SxOut) : onTile s (t % 4096) f = f := by
  rw [Nat.mod_eq_of_lt (show t < 4096 by omega), onTile_on ht hon]

/-! ## Halts, releases and steps of a tile (R484, R486) -/

section

variable (hs : s.SxOpen) (ht : t < 2304) (q : Strm)
include hs ht

theorem sextant_off (hoff : s.tileOn t = false) : exec (.halt 0 t q) s = .next (s.sxEnded { stat := 2 }) ∧
    exec (.status 0 t) s = .next (s.sxEnded { stat := 2 }) ∧ exec (.event t) s = .next (s.sxEnded { stat := 2 }) := by
  have hmod : t % 4096 = t := Nat.mod_eq_of_lt (by omega)
  have hrefused : ∀ f, onTile s (t % 4096) f = sxErr s 2 := fun f => by rw [hmod, onTile_off ht hoff]
  exact ⟨exec_halt_ends hs (by decide) (hrefused _), exec_status_ends hs (by decide) (hrefused _), exec_event_ends hs (hrefused _)⟩

variable (hon : s.tileOn t = true)
include hon

theorem exec_halt_stream : exec (.halt 0 t q) s = .next ((s.modTile t fun x => x.haltBy q 0).sxEnded {}) := by
  have hmod : t % 4096 = t := Nat.mod_eq_of_lt (by omega)
  exact exec_halt_ends hs (by decide) ((onTile_mod ht hon _).trans (by rw [hmod]; rfl))

theorem exec_halt_tile : exec (.halt 1 t q) s = .next ((s.modTile t fun x => x.haltAll 1).sxEnded {}) := by
  have hmod : t % 4096 = t := Nat.mod_eq_of_lt (by omega)
  exact exec_halt_ends hs (by decide) ((onTile_mod ht hon _).trans (by rw [hmod]; rfl))

theorem exec_release_stream : exec (.release 0 t q) s = .next ((s.modTile t fun x => x.releaseAt q 0).sxEnded {}) := by
  have hmod : t % 4096 = t := Nat.mod_eq_of_lt (by omega)
  exact exec_release_ends hs (by decide) ((onTile_mod ht hon _).trans (by rw [hmod]; rfl))

theorem exec_release_tile : exec (.release 1 t q) s = .next ((s.modTile t fun x => x.releaseAll 1).sxEnded {}) := by
  have hmod : t % 4096 = t := Nat.mod_eq_of_lt (by omega)
  exact exec_release_ends hs (by decide) ((onTile_mod ht hon _).trans (by rw [hmod]; rfl))

theorem exec_step_stream (hhalt : (s.tile t).halted q = true) (hstep : s.steppable t = true) :
    exec (.step 0 t q) s = .next ((s.modTile t fun x => x.modMisc fun m => { m with stepping := 2 ^ Strm.code q }).sxWaits) := by
  have hmod : t % 4096 = t := Nat.mod_eq_of_lt (by omega)
  refine exec_step_waits hs (by decide) ((onTile_mod ht hon _).trans ?_)
  rw [hmod, if_pos ⟨hhalt, hstep⟩]

theorem exec_step_refused (h : (s.tile t).halted q = false ∨ s.steppable t = false) :
    exec (.step 0 t q) s = .next (s.sxEnded { stat := 3 }) := by
  have hmod : t % 4096 = t := Nat.mod_eq_of_lt (by omega)
  refine exec_step_ends hs (by decide) ((onTile_mod ht hon _).trans ?_)
  rw [hmod, if_neg fun ⟨hh, hst⟩ => h.elim (fun h => by rw [hh] at h; cases h) fun h => by rw [hst] at h; cases h]
  rfl

theorem exec_status_tile : exec (.status 0 t) s = .next (s.sxEnded { r1 := s.tileState t, r2 := (s.tile t).misc.dbg }) := by
  have hmod : t % 4096 = t := Nat.mod_eq_of_lt (by omega)
  exact exec_status_ends hs (by decide) ((onTile_mod ht hon _).trans (by rw [hmod]))

theorem exec_event_tile : exec (.event t) s = .next ((s.debugEvent t 5 4 0 0 0).sxEnded {}) := by
  have hmod : t % 4096 = t := Nat.mod_eq_of_lt (by omega)
  exact exec_event_ends hs ((onTile_mod ht hon _).trans (by rw [hmod]; rfl))

end

/-! ## Memory (R483) -/

theorem List.map_getD_range {α : Type} (l : List α) (d : α) : ((List.range l.length).map fun i => l.getD i d) = l := by
  refine List.ext_getElem (by simp) fun i hi hi' => ?_
  rw [List.getElem_map, List.getElem_range, List.getD_eq_getElem _ _ hi']

theorem flatMap_wordBytes_length (l : List Word) : (l.flatMap wordBytes).length = 8 * l.length := by
  induction l with
  | nil => rfl
  | cons w l ih =>
    rw [List.flatMap_cons, List.length_append, ih, wordBytes, natLe_length, List.length_cons]
    omega

theorem Tile.noteWrite_sp (x : Tile) (lo n : Nat) : (x.noteWrite lo n).sp = x.sp := by
  unfold Tile.noteWrite
  extract_lets x1
  refine List.foldlRecOn (motive := fun y : Tile => y.sp = x.sp) _ _ rfl fun y hy i _ => ?_
  extract_lets r b y1
  refine Eq.trans ?_ hy
  unfold y1
  split <;> rfl

theorem sxRange_len {space addr len : Nat} (h : sxRange space t addr len = true) :
    space ≤ 8 ∧ 8 ≤ len ∧ len ≤ 1048576 ∧ len % 8 = 0 ∧ addr % 8 = 0 ∧ addr + len ≤ spaceTop space := by
  rw [sxRange] at h
  simp only [Bool.and_eq_true] at h
  obtain ⟨⟨⟨h, -⟩, -⟩, -⟩ := h
  exact of_decide_eq_true h

section

variable {addr len : Nat}

/-- Bytes of a scratchpad that no operation in flight touches are read as they stand. -/
theorem State.sxMove_read_sp (hon : s.tileOn t = true) (hrange : sxRange 2 t addr len = true) (hacc : (s.tile t).io.acc = []) :
    s.sxMove false 2 t addr len [] = (s.took, some (if len = 8 then
    { r2 := (wordsOf (Map.slice 0 (s.tile t).sp addr len) (len / 8)).headD 0 }
    else { data := wordsOf (Map.slice 0 (s.tile t).sp addr len) (len / 8) })) := by
  have hfree : ∀ lo n, (s.tile t).sxBusy false false lo n = [] := fun lo n => by rw [Tile.sxBusy, Tile.busyRows, hacc]; rfl
  have hready : s.sxReady 2 t addr len = true := hon
  have hread : s.sxRead 2 t addr len = (s.took, wordsOf (Map.slice 0 (s.tile t).sp addr len) (len / 8)) := by
    unfold State.sxRead
    dsimp only
    rw [hfree]
    simp only [List.contains_nil, Bool.false_eq_true, if_false, List.zipIdx_map_fst]
  rw [State.sxMove, if_neg (by rw [hrange]; simp), if_neg (by rw [hready]; decide), if_neg Bool.false_ne_true, hread]
  dsimp only
  split <;> rfl

/-- Bytes of a scratchpad are written where the tile does not run. -/
theorem State.sxWriteSp_tile (hacc : (s.tile t).io.acc = []) (hrest : s.tileRuns t = false) (b : List Byte) :
    ((s.sxWriteSp t addr b).tile t).sp = Map.setRange 0 (s.tile t).sp addr b := by
  have hfree : ∀ lo n, (s.tile t).sxBusy false true lo n = [] := fun lo n => by rw [Tile.sxBusy, Tile.busyRows, hacc]; rfl
  unfold State.sxWriteSp
  dsimp only
  rw [hfree, hrest]
  simp only [List.contains_nil, Bool.or_self, Bool.false_eq_true, if_false, List.zipIdx_map_fst]
  rw [State.took_tile, State.setTile_tile_self]
  dsimp only
  rw [Tile.noteWrite_sp]
  rfl

theorem State.sxMove_write_sp (hon : s.tileOn t = true) (hrange : sxRange 2 t addr len = true) {data : List Word}
    (hdata : data.length = len / 8) : s.sxMove true 2 t addr len data =
    sxOk (if s.sxJobState 2 t addr len then (s.sxWriteSp t addr (data.flatMap wordBytes)).modDbg fun d => { d with wrote := true }
      else s.sxWriteSp t addr (data.flatMap wordBytes)) := by
  have hready : s.sxReady 2 t addr len = true := hon
  rw [State.sxMove, if_neg (by rw [hrange]; simp), if_neg (by rw [hready]; decide), if_pos rfl, ← hdata, List.map_getD_range]
  rfl

end

end

end Sys2Proof.Machine

/-! # Sextant: jobs, notices and the tunnel (R389, R481, R484 to R486, R517) -/

namespace Sys2Proof.Machine

/-! ## The page of a command that has ended (R380) -/

section

variable (s : State) (k : Nat)

theorem State.raiseMsi_page (v u : Nat) : (s.raiseMsi v).page u = s.page u := by rw [State.page, State.raiseMsi_helm]; rfl

theorem State.drainPage_done (n : Nat) : ((s.drainPage k n).page k).done = (s.page k).done := by
  induction n generalizing s with
  | zero => rfl
  | succ n ih =>
    unfold State.drainPage
    extract_lets p
    repeat' split
    · rw [ih, State.raiseMsi_page, State.modPage_page_self, State.modPage_page_self]
      rfl
    · rw [ih, State.raiseMsi_page, State.modPage_page_self, State.modPage_page_self]
      rfl
    · rfl
    · rfl

theorem State.postDone_done (st : Nat) (ws : List Word) : ((s.postDone k st ws).page k).done = true := by
  unfold State.postDone
  extract_lets p w0 e s1 s2
  have h1 : s1.page k = { p with cur := [], done := true, hold := p.hold ++ [e] } := s.modPage_page_self k _
  rw [State.drainPage_done]
  exact congrArg Page.done h1

theorem State.serveBad_done (n : Nat) (h : (s.page k).done = true) : ((s.serveBad k n).page k).done = true := by
  induction n generalizing s with
  | zero => exact h
  | succ n ih =>
    unfold State.serveBad
    split
    · exact ih _ (State.postDone_done _ k 1 [])
    · exact h

theorem State.complete_done (st : Nat) (ws : List Word) : ((s.complete k st ws).page k).done = true := by
  unfold State.complete
  split
  · assumption
  · exact State.serveBad_done _ k 32 (s.postDone_done k st ws)

end

/-! ## A tile -/

theorem State.sxEnded_tile (s : State) (r : SxEnd) (u : Nat) : (s.sxEnded r).tile u = s.tile u := rfl

theorem State.modTile_sxEnded_ne (s : State) {t u : Nat} (f : Tile → Tile) (r : SxEnd) (h : u ≠ t) :
    ((s.modTile t f).sxEnded r).tile u = s.tile u := s.modTile_tile_ne t u f h

theorem State.modTile_sxEnded_self (s : State) (t : Nat) (f : Tile → Tile) (r : SxEnd) :
    ((s.modTile t f).sxEnded r).tile t = f (s.tile t) := s.modTile_tile_self t f

section

variable {s : State} {t : Nat} (hs : s.SxOpen) (ht : t < 2304) (q : Strm) (hon : s.tileOn t = true)
include hs ht hon

theorem halt_stream : ∃ s', exec (.halt 0 t q) s = .next s' ∧ s'.dbg.sxStat = 0 ∧ (s'.tile t).halted q = true ∧
    (∀ r, r ≠ q → (s'.tile t).halted r = (s.tile t).halted r) ∧ (∀ u, u ≠ t → s'.tile u = s.tile u) ∧ s'.job = s.job := by
  refine ⟨_, exec_halt_stream hs ht q hon, rfl, ?_, fun r hr => ?_, fun u hu => s.modTile_sxEnded_ne _ _ hu, rfl⟩
  · exact (congrArg (Tile.halted · q) (s.modTile_sxEnded_self t _ {})).trans ((Tile.haltBy_halted _ q q 0).trans (if_pos rfl))
  · exact (congrArg (Tile.halted · r) (s.modTile_sxEnded_self t _ {})).trans ((Tile.haltBy_halted _ q r 0).trans (if_neg hr))

theorem halt_tile : ∃ s', exec (.halt 1 t q) s = .next s' ∧ s'.dbg.sxStat = 0 ∧ (∀ r, (s'.tile t).halted r = true) ∧
    (∀ u, u ≠ t → s'.tile u = s.tile u) ∧ s'.job = s.job := by
  refine ⟨_, exec_halt_tile hs ht q hon, rfl, fun r => ?_, fun u hu => s.modTile_sxEnded_ne _ _ hu, rfl⟩
  exact (congrArg (Tile.halted · r) (s.modTile_sxEnded_self t _ {})).trans (Tile.haltAll_halted _ 1 r)

theorem release_stream : ∃ s', exec (.release 0 t q) s = .next s' ∧ s'.dbg.sxStat = 0 ∧ (s'.tile t).halted q = false ∧
    (∀ r, r ≠ q → (s'.tile t).halted r = (s.tile t).halted r) ∧ (∀ u, u ≠ t → s'.tile u = s.tile u) ∧ s'.job = s.job := by
  refine ⟨_, exec_release_stream hs ht q hon, rfl, ?_, fun r hr => ?_, fun u hu => s.modTile_sxEnded_ne _ _ hu, rfl⟩
  · exact (congrArg (Tile.halted · q) (s.modTile_sxEnded_self t _ {})).trans ((Tile.releaseAt_self _ q 0).1.trans (Bool.and_false _))
  · exact (congrArg (Tile.halted · r) (s.modTile_sxEnded_self t _ {})).trans (Tile.releaseAt_ne _ q r 0 hr).1

theorem release_tile : ∃ s', exec (.release 1 t q) s = .next s' ∧ s'.dbg.sxStat = 0 ∧ (∀ r, (s'.tile t).halted r =
      ((s.tile t).halted r && decide (Map.get 0 (s.tile t).misc.haltAt (Strm.code r) < 1))) ∧ ∀ u, u ≠ t → s'.tile u = s.tile u := by
  refine ⟨_, exec_release_tile hs ht q hon, rfl, fun r => ?_, fun u hu => s.modTile_sxEnded_ne _ _ hu⟩
  exact (congrArg (Tile.halted · r) (s.modTile_sxEnded_self t _ {})).trans (Tile.releaseAll_halted _ 1 r)

variable {addr len : Nat} (hrange : sxRange 2 t addr len = true) (hacc : (s.tile t).io.acc = [])
include hrange hacc

theorem read_scratchpad : ∃ s', exec (.read 2 t addr len) s = .next s' ∧ s'.dbg.sxStat = 0 ∧ s'.tiles = s.tiles ∧
    (len ≠ 8 → s'.dbg.sxData = wordsOf (Map.slice 0 (s.tile t).sp addr len) (len / 8)) ∧
    (len = 8 → s'.dbg.sx2 = wordAt (Map.slice 0 (s.tile t).sp addr 8) 0) := by
  obtain ⟨-, -, hlen, -, -, htop⟩ := sxRange_len hrange
  change addr + len ≤ 393216 at htop
  refine ⟨_, exec_read_ends hs (by decide) ht (by omega) (by omega) (State.sxMove_read_sp hon hrange hacc), ?_, rfl, fun h => ?_, fun h => ?_⟩
  · change (ite _ _ _ : SxEnd).stat = 0
    split <;> rfl
  · exact congrArg SxEnd.data (if_neg h)
  · subst h
    rfl

theorem write_scratchpad {data : List Word} (hdata : data.length = len / 8) (hrest : s.tileRuns t = false) :
    ∃ s', exec (.write 2 t addr len data) s = .next s' ∧ s'.dbg.sxStat = 0 ∧
      Map.slice 0 (s'.tile t).sp addr len = data.flatMap wordBytes ∧
      (∀ j, j < addr ∨ addr + len ≤ j → Map.get 0 (s'.tile t).sp j = Map.get 0 (s.tile t).sp j) ∧
      (∀ u, u ≠ t → s'.tile u = s.tile u) ∧
      s'.dbg.wrote = (s.dbg.wrote || (s.job.img.isSome && s.job.tiles.contains t)) := by
  obtain ⟨-, -, hlen, hlen8, -, htop⟩ := sxRange_len hrange
  change addr + len ≤ 393216 at htop
  have hbulk : (if len = 8 then [data.headD 0] else data) = data := by
    split
    · next h =>
      obtain ⟨w, rfl⟩ := List.length_eq_one_iff.mp (hdata.trans (by rw [h]))
      rfl
    · rfl
  have hbytes : (data.flatMap wordBytes).length = len := by
    rw [flatMap_wordBytes_length, hdata]
    omega
  have hsp := State.sxWriteSp_tile (addr := addr) hacc hrest (data.flatMap wordBytes)
  have hjob : s.sxJobState 2 t addr len = (s.job.img.isSome && s.job.tiles.contains t) := rfl
  have hother : ∀ u, u ≠ t → (s.sxWriteSp t addr (data.flatMap wordBytes)).tile u = s.tile u := fun u hu =>
    (State.setTile_tile s t _ u).trans (if_neg hu)
  have hdbg : (s.sxWriteSp t addr (data.flatMap wordBytes)).dbg = s.dbg := rfl
  have hexec := exec_write_ends hs (by decide) ht (by omega) (by omega)
    ((congrArg (s.sxMove true 2 t addr len) hbulk).trans (State.sxMove_write_sp hon hrange hdata))
  generalize s.sxWriteSp t addr (data.flatMap wordBytes) = e at *
  have htile : ∀ u, ((if s.sxJobState 2 t addr len then e.modDbg fun d => { d with wrote := true } else e).sxEnded {}).tile u = e.tile u :=
    fun u => by split <;> rfl
  refine ⟨_, hexec, rfl, ?_, fun j hj => ?_, fun u hu => (htile u).trans (hother u hu), ?_⟩
  · rw [htile, hsp, ← hbytes, Map.slice_setRange_self]
  · rw [htile, hsp, Map.get_setRange_outside _ _ (by rw [hbytes]; exact hj)]
  · rw [hjob, ← hdbg]
    split
    · next h => rw [h, Bool.or_true]; rfl
    · next h => rw [Bool.eq_false_iff.mpr h, Bool.or_false]; rfl

end

/-- A run that names no memory is refused, and one whose memory is not available is not read (R480, R481). -/
theorem memory_refused {s : State} (hs : s.SxOpen) {t space addr len : Nat} (ht : t < 2304) (hspace : space < 16) (haddr : addr < 2 ^ 64)
    (hlen : len < 2 ^ 32) (data : List Word) :
    (sxRange space t addr len = false → exec (.read space t addr len) s = .next (s.sxEnded { stat := 1 }) ∧
      exec (.write space t addr len data) s = .next (s.sxEnded { stat := 1 })) ∧
    (sxRange space t addr len = true → s.sxReady space t addr len = false →
      exec (.read space t addr len) s = .next (s.sxEnded { stat := 2 })) := by
  refine ⟨fun h => ⟨?_, ?_⟩, fun h hready => ?_⟩
  · exact exec_read_ends hs hspace ht haddr hlen (if_pos (.inl h))
  · exact exec_write_ends hs hspace ht haddr hlen (if_pos (.inl h))
  · refine exec_read_ends hs hspace ht haddr hlen ?_
    rw [State.sxMove, if_neg (by rw [h]; simp), if_pos hready]
    rfl

/-! ## A module and its job -/

section

variable {s : State} (hs : s.SxOpen) (t : Nat) (q : Strm)
include hs

theorem halt_module : ∃ s', exec (.halt 2 t q) s = .next s' ∧ s'.dbg.sxStat = 0 ∧ (∀ u ∈ s.job.tiles, ∀ r, (s'.tile u).halted r = true) ∧
    ∀ u, u ∉ s.job.tiles → s'.tile u = s.tile u := by
  have hexec : exec (.halt 2 t q) s = .next ((s.forAll s.job.tiles fun s t => s.modTile t fun x => x.haltAll 2).sxEnded {}) :=
    exec_halt_ends hs (by decide) rfl
  refine ⟨_, hexec, rfl, fun u hu r => ?_, fun u hu => ?_⟩
  · rw [State.sxEnded_tile]
    exact State.forAll_haltAll _ s 2 hu r
  · rw [State.sxEnded_tile]
    exact State.forAll_modTile_ne _ _ s hu

theorem halt_job (hjs : s.job.js = 4) (hhalt : s.dbg.jobHalt = false) : exec (.halt 3 t q) s =
    .next ((s.modJob fun j => { j with wave := { j.wave with haltReq := max 1 j.wave.haltReq } }).sxEnded {}) := by
  have hruns : s.jobRuns = true := decide_eq_true hjs
  refine exec_halt_ends hs (by decide) ?_
  change (if s.jobRuns = false then sxErr s 3 else if s.dbg.jobHalt then sxOk s
    else sxOk (s.modWave fun v => { v with haltReq := max 1 v.haltReq })) = _
  rw [if_neg (by rw [hruns]; decide), if_neg (by rw [hhalt]; decide)]
  rfl

theorem job_refused (hjs : s.job.js ≠ 4) : exec (.halt 3 t q) s = .next (s.sxEnded { stat := 3 }) ∧
    exec (.release 3 t q) s = .next (s.sxEnded { stat := 3 }) ∧ exec (.step 3 t q) s = .next (s.sxEnded { stat := 3 }) := by
  have hruns : s.jobRuns = false := decide_eq_false hjs
  refine ⟨exec_halt_ends hs (by decide) (if_pos hruns), exec_release_ends hs (by decide) (if_neg (by rw [hruns]; decide)), ?_⟩
  exact exec_step_ends hs (by decide) (if_neg fun h => by rw [hruns] at h; cases h.1)

theorem release_job (hjs : s.job.js = 4) : exec (.release 3 t q) s = .next (s.askRelease.sxEnded {}) :=
  exec_release_ends hs (by decide) (if_pos (decide_eq_true hjs))

theorem step_job_held (hheld : s.moduleHalted = true) : exec (.step 3 t q) s = .next (s.sxEnded { stat := 3 }) :=
  exec_step_ends hs (by decide) (if_neg fun h => by rw [hheld] at h; cases h.2.2)

theorem step_job (hjs : s.job.js = 4) (hhalt : s.dbg.jobHalt = true) (hheld : s.moduleHalted = false) : ∃ s',
    exec (.step 3 t q) s = .next s' ∧ s'.dbg.sxStat = 0 ∧ s'.dbg.relAt = s.askRelease.dbg.relAt ∧ s'.job.wave.oneStep = true :=
  ⟨_, exec_step_ends hs (by decide) (if_pos ⟨decide_eq_true hjs, hhalt, hheld⟩), rfl, rfl, rfl⟩

end

/-! ## Commands that do not run -/

/-- An owner policy keeps commands out of a loaded job (R517). -/
theorem policy_refuses {s : State} (hon : s.power.on = true) (hidle : s.dbg.sxBusy = false) (hregs : s.regsOn = true)
    (hpol : 2 ≤ s.helm.policy % 4) (himg : s.job.img.isSome = true) {op scope : Nat} (hop : op = 1 ∨ op = 3) (hscope : scope < 4) (t : Nat)
    (q : Strm) : sxTap (sxWord op scope 0 t 0 q) 0 0 [] s = .next (s.sxEnded { stat := 3 }) := by
  refine sxTap_ends hon hidle ?_
  have hlock : s.dbgLocked op 0 = true := by
    rw [State.dbgLocked, decide_eq_true hpol, himg]
    obtain rfl | rfl := hop <;> rfl
  have hmem : op ∈ [1, 2, 3, 4, 5, 0x10, 0x11] := by obtain rfl | rfl := hop <;> decide
  exact (State.sextant_word hregs hmem hscope 0 t 0 q 0 0 []).trans (if_pos hlock)

/-! ## The tick of a release -/

theorem State.tickRelease_waits {s : State} (h : s.dbg.relAt = none ∨ ∃ n, s.dbg.relAt = some n ∧ s.now < n) : s.tickRelease = s := by
  unfold State.tickRelease
  obtain h | ⟨n, h, hn⟩ := h
  · rw [h]
  · rw [h]
    exact if_pos hn

theorem State.tickRelease_due {s : State} {n : Nat} (h : s.dbg.relAt = some n) (hn : n ≤ s.now) :
    s.tickRelease = (s.releaseAll 3).modDbg fun d => { d with jobHalt := false, relAt := none } := by
  unfold State.tickRelease
  rw [h]
  exact if_neg (Nat.not_lt.mpr hn)

/-! ## Settlement -/

/-- The tunnel runs the same command and answers its page (R389, R481). -/
theorem debugTunnel_runs {s : State} {k : Nat} (buf : List Word) (hw : s.Waits k 0x7F) (hidle : s.dbg.sxBusy = false) :
    let out := (s.take k).sextant (s.cmdArg k 1) (s.cmdArg k 2) (s.cmdArg k 3) buf
    (out.2 = none → exec (.debugTunnel k buf) s = .next (out.1.modDbg fun d => { d with sxBusy := true, sxStat := 0xFF, sxPage := some k })) ∧
    ∀ r, out.2 = some r → ∃ s', exec (.debugTunnel k buf) s = .next s' ∧ (s'.page k).done = true ∧ s'.tiles = out.1.tiles ∧
      s'.dbg = out.1.dbg ∧ s'.job = out.1.job := by
  intro out
  have hexec : exec (.debugTunnel k buf) s = .next (match out with
      | (s1, some r) =>
        (if r.data = [] then s1 else s1.modRl fun rl => { rl with
          hostOut := rl.hostOut ++ [((s.cmdArg k 4).toNat, r.data.flatMap wordBytes)] }).complete k r.stat [r.r1, r.r2]
      | (s1, none) => s1.modDbg fun d => { d with sxBusy := true, sxStat := 0xFF, sxPage := some k }) :=
    (if_neg (Nat.not_le.mpr hw.unit)).trans (if_pos (by rw [hw.start, hidle]; rfl))
  generalize out = o at hexec
  obtain ⟨s1, _ | r⟩ := o
  · refine ⟨fun _ => hexec, fun r hr => ?_⟩
    cases hr
  · refine ⟨fun hnone => (by cases hnone), fun r' hr => ?_⟩
    refine ⟨_, hexec, State.complete_done _ k _ _, ?_, ?_, ?_⟩
    · dsimp only
      rw [State.complete_tiles]
      split <;> rfl
    · dsimp only
      rw [State.complete_dbg]
      split <;> rfl
    · dsimp only
      rw [State.complete_job]
      split <;> rfl

/-- Settles O58. -/
theorem sextantCommands : Obligations.SextantCommands := by
  unfold Obligations.SextantCommands
  intro fin
  refine ⟨fun s hon hbrown hidle hregs hpol => ?_, fun s scope t q hon hbrown => ⟨fun hbusy => ?_, fun hidle hregs => ?_,
      fun hidle hregs hpol himg hscope => ⟨?_, ?_⟩⟩, fun s m himg hm hne => ⟨?_, ?_, fun n hjs => ?_⟩, fun s h => s.tickRelease_waits h,
    fun s n h hn => ?_, fun s k buf hw hidle => debugTunnel_runs buf hw hidle⟩
  · have hs : s.SxOpen := ⟨hon, hidle, hregs, hpol⟩
    refine ⟨fun t q ht => ⟨fun hoff => sextant_off hs ht q hoff, fun htile => ⟨halt_stream hs ht q htile, halt_tile hs ht q htile,
        release_stream hs ht q htile, release_tile hs ht q htile, fun hhalt hstep => exec_step_stream hs ht q htile hhalt hstep,
        fun h => exec_step_refused hs ht q htile h, exec_status_tile hs ht htile, exec_event_tile hs ht htile,
        fun addr len hrange hacc => ⟨read_scratchpad hs ht htile hrange hacc,
          fun data hdata hrest => write_scratchpad hs ht htile hrange hacc hdata hrest⟩⟩,
        fun space addr len hspace haddr hlen data => memory_refused hs ht hspace haddr hlen data⟩,
      fun t q => ⟨halt_module hs t q, fun hjs hhalt => halt_job hs t q hjs hhalt, fun hjs => job_refused hs t q hjs,
        fun hjs => release_job hs t q hjs, fun _ _ hheld => step_job_held hs t q hheld,
        fun hjs hhalt hheld => step_job hs t q hjs hhalt hheld, exec_step_ends hs (show 2 < 4 by decide) rfl,
        exec_status_ends hs (show 2 < 4 by decide) rfl⟩⟩
  · exact (if_neg (not_not_intro hon)).trans (if_pos hbusy)
  · exact sxTap_ends hon hidle (if_pos hregs)
  · exact policy_refuses hon hidle hregs hpol himg (.inl rfl) hscope t q
  · exact policy_refuses hon hidle hregs hpol himg (.inr rfl) hscope t q
  · exact if_pos ⟨himg, List.contains_iff_mem.mpr hm, hne⟩
  · exact if_pos ⟨himg, List.contains_iff_mem.mpr hm, hne⟩
  · have hruns : s.jobRuns = true := decide_eq_true hjs
    refine ⟨_, if_pos ⟨himg, List.contains_iff_mem.mpr hm, hne⟩, ?_⟩
    rw [State.notice, if_pos hruns]
    exact ⟨rfl, rfl, rfl⟩
  · rw [State.tickRelease_due h hn]
    refine ⟨rfl, rfl, fun u hu => ?_, fun u hu r => ?_⟩
    · rw [State.modDbg_tile]
      exact State.forAll_modTile_ne _ _ s hu
    · rw [State.modDbg_tile]
      exact State.forAll_releaseAll _ s 3 hu r

end Sys2Proof.Machine
